-- ==== Sys2Proof/Word.lean ====
section
/-! DEFINITION. The words of the block: a 32-bit register word, a byte, the place of a register field, and sparse maps held as lists. -/

namespace Sys2Proof

/-- A register of BAR0 is 32 bits (R85). -/
abbrev Word := BitVec 32

/-- A byte of memory, of a table, of a flit or of a descriptor. -/
abbrev Byte := BitVec 8

/-- The place [msb:lsb] of a register field (R7). -/
structure Fld where
  msb : Nat
  lsb : Nat
  deriving DecidableEq, Repr

/-- A sparse map from Nat: pairs with strictly rising keys, none of which holds what an unlisted key reads as
(`Machine.awf`). The operations on it are in Machine/AMap.lean. -/
abbrev AMap (α : Type) := List (Nat × α)

/-- Memory: bytes by address, in the canonical form of `AMap` (Host.Cell pairs). -/
abbrev Mem := AMap Byte

end Sys2Proof
end

