-- ==== Sys2Proof/Syntax.lean ====
section
/-! DEFINITION. The commands of the block: one constructor per row of spec/opcode_table.json, with what the outside supplies with it. -/

namespace Sys2Proof

/-- What a start-up step found at its end (R53, R54): whether its check passed; for S14 the three self-tests of SWG, TH0 and TH1. -/
structure StepResult where
  ok : Bool
  ok1 : Bool
  ok2 : Bool
  deriving DecidableEq, Repr

/-- How a wake from DORMANT ended (R74, R249, R461): the AON cycles counted, whether the stacks trained (FS_KEEP = 0), and whether the
VDD_SRAM power-good had fallen. -/
structure WakeResult where
  aonCycles : Nat
  trained : Bool
  sramLost : Bool
  deriving DecidableEq, Repr

/-- A request aimed at a power domain that is off (R68). -/
inductive DomainRequest where
  | write (off : Nat) (be : BitVec 4) (v : Word)
  | read (off : Nat)
  | internal (d : Fin 34)
  deriving DecidableEq, Repr

/-- The status bits read from the regulators in use (R80). -/
structure RegulatorStatus where
  ocw : Bool
  uvw : Bool
  otw : Bool
  mfr : BitVec 5
  deriving DecidableEq, Repr

/-- A message on the regulator pair link (R78). -/
inductive PairMsg where
  | request (code : Nat)      -- the sender's requested voltage code
  | rate (code : Nat)         -- the sender's derated rate is valid down to this voltage code
  | confirm (code : Nat)      -- the leader confirmed this voltage
  | stepDown (limit : Fin 4)  -- a fault stepped the pair down to this point (R80)
  deriving DecidableEq, Repr

/-- An access through a relay window (R113). -/
inductive RelayOp where
  | read
  | write (be : BitVec 4) (v : Word)
  deriving DecidableEq, Repr

/-- Where a host-memory access failed (R108). -/
inductive HostFaultAt where
  | read (rid : Nat)                      -- an outstanding read
  | completion (c : Fin 256)              -- the write of the completion last written for client c
  | dataWrite (c : Fin 256) (idx : Nat)   -- a data write of the descriptor at ring index idx
  deriving DecidableEq, Repr

/-- A PCIe configuration write to the fields the device acts on (R83). -/
inductive ConfigWrite where
  | msix (enable mask : Bool)
  | command (busMaster memory : Bool)
  | powerState (d3hot : Bool)
  | other (off : Nat) (v : Word)
  deriving DecidableEq, Repr

/-- An edge at the JTAG port (R13). -/
inductive JtagEdge where
  | tck (tms tdi : Bool)
  | trst
  deriving DecidableEq, Repr

/-- A command of the NVMe driver to a magazine (R403). -/
inductive NvmeCmd where
  | admin (kind : String) (arg : Nat)
  | read (lba n : Nat)
  | write (lba : Nat) (bytes : List Byte)
  | flush
  | deallocate (lba n : Nat)
  deriving DecidableEq, Repr

/-- A training block as a physical lane receives it (R147, R148): its marker and LANE value, the symbol errors of its PRBS13
section, and whether the lane's skew from logical lane 0 exceeds 256 symbols. -/
structure TrainBlock where
  marker : Bool
  inverted : Bool
  errors : Nat
  lane : Fin 4
  rxLocked : Bool
  last : Bool
  recover : Bool
  loopReq : BitVec 2
  skewed : Bool
  deriving DecidableEq, Repr

/-- A flit as received (R142, R143): which sectors pass their CRC, the control fields, and its 304 payload bytes; none where the packets
and messages in it come as commands of their own. -/
structure Flit where
  good : BitVec 4
  ftype : BitVec 4
  seq : BitVec 12
  ackType : BitVec 2
  ackSeq : BitVec 12
  credit : BitVec 12
  pktOff : BitVec 9
  payload : List Byte
  deriving DecidableEq, Repr

/-- A sector as forwarded (R142, R158): its number in the flit, and its 76 payload bytes where it goes to the packet decoder. -/
structure Sector where
  no : Fin 4
  payload : List Byte
  deriving DecidableEq, Repr

/-- A CAP flit as received (R150, R516): the named fields, FLAGS[7:2], and the bytes that R150 ignores. DSN, EPOCH and VOLUME are those of a
Ridge link, whose `rest` begins after them. -/
structure CapFlit where
  good : Bool
  ver : BitVec 8
  role : BitVec 8
  capSeen : Bool
  resume : Bool
  port : BitVec 8
  ident : Word
  depth : BitVec 16
  credits : BitVec 16
  nextRx : BitVec 16
  dsn : BitVec 64
  epoch : Word
  volume : BitVec 16
  flags : BitVec 6
  rsv : BitVec 16
  rest : List Byte
  deriving DecidableEq, Repr


/-- The common header of an ingress packet (R175): whether its PTYPE is a reserved value, TARGET, LEN and FRAME. -/
structure PktHeader where
  badType : Bool
  target : BitVec 8
  len : Word
  frame : BitVec 48
  deriving DecidableEq, Repr

/-- The body of a WRECT (R180). -/
structure WrectBody where
  x0 : BitVec 16
  y0 : BitVec 16
  w : BitVec 16
  h : BitVec 16
  feather : BitVec 8
  fsrc : BitVec 8
  extL : BitVec 8
  extR : BitVec 8
  extT : BitVec 8
  extB : BitVec 8
  deriving DecidableEq, Repr

/-- An error that a read of the frame store or of a bank meets: correctable or not, and where. -/
structure ReadError where
  correctable : Bool
  unit : Nat
  deriving DecidableEq, Repr


/-- A STATUS frame of a column driver (R364); valid: its CRC passes. -/
structure BatStatus where
  valid : Bool
  lock : Bool
  short : Bool
  rowCrc : Bool
  blkErr : Bool
  otw : Bool
  shortOut : BitVec 10
  shortN : BitVec 8
  crcY : BitVec 11
  temp : BitVec 16
  deriving DecidableEq, Repr

/-- A CMD_RESP frame of a column driver (R364). -/
structure BatResp where
  valid : Bool
  tag : BitVec 8
  result : BitVec 8
  data : Word
  deriving DecidableEq, Repr

/-- The levels of PNL_PFAIL_N and of the VDD_IO detector when a sequencer step ends (R384). -/
structure PanelPins where
  pfailLow : Bool
  vddLow : Bool
  deriving DecidableEq, Repr

/-- The triggers of the emergency discharge (R388). -/
inductive EmergCause where
  | pgLost (n : Fin 6) | pfail | vddIo | crack | thermal
  deriving DecidableEq, Repr

/-- A crack-loop reading (R394): ohms in 0.1 Ω, or open. -/
inductive CrackReading where
  | ohms (tenths : BitVec 20)
  | opened
  deriving DecidableEq, Repr

/-- What a step of magazine attach finds (R402): after a wait, whether PRSNT_N stayed low; the link trained or not, with its width
(1, 2 or 4 lanes as 0, 1, 2) and rate as MAG_PSTAT.RATE; the endpoint found, with CAP.MQES. -/
inductive AttachResult where
  | waited (stillLow : Bool)
  | noLink
  | link (width : Fin 3) (rate : Fin 4)
  | endpoint (nvme behindSwitch : Bool) (mqes : BitVec 16)
  deriving DecidableEq, Repr

/-- How an NVMe command of R403 completes: with a failing status, with nothing, with data read, or with what the identification and
log commands return. -/
inductive NvmeResult where
  | failed
  | done
  | bytes (data : List Byte)
  | controller (mdts : Nat) (dsm : Bool)
  | namespaceOne (found fmtOk : Bool) (lbas : Nat)
  | granted (queues : Bool)
  | smart (kelvin : BitVec 16) (crit : BitVec 8)
  deriving DecidableEq, Repr

/-- The causes of a removal beside PRSNT_N (R405). -/
inductive RemoveCause where
  | dlDown | cmdTimeout | cfs
  deriving DecidableEq, Repr


/-- What a sweep reads of a die sensor (R474): whether its count lies in the fused range, and the count. -/
structure SensorRead where
  inRange : Bool
  count : BitVec 32
  deriving DecidableEq, Repr

/-- What a read of a stack sensor gives (R473): whether the stack can be read, and degrees Celsius in two's complement. -/
structure StackRead where
  readable : Bool
  degrees : BitVec 8
  deriving DecidableEq, Repr

/-- What a calibration step has measured at its end (R499 to R503): the CALREF voltage in mV; the raw means of the zero and the reference
conversions in µV, two's complement; the spread of the conversions in µV; the PCLK counted over the gate; the spread of the gate results
in ppb; and whether the meter carried the step out, with what it proposes. -/
structure CalMeas where
  refMv : BitVec 16
  zero : Word
  ref : Word
  spreadUv : Word
  count : Nat
  spreadPpb : Word
  meterOk : Bool
  proposal : Word
  deriving DecidableEq, Repr

/-- How a broadcast or unicast message arrives (R519): the link it came on, and its ARG word. -/
structure RidgeHdr where
  link : Fin 4
  arg : Word
  deriving DecidableEq, Repr

/-- Body of a ROLE_ANN (R518). -/
structure RoleAnn where
  epoch : Word
  dsn : BitVec 64
  col : Byte
  row : Byte
  flags : Byte
  cls : Byte
  hops : Byte
  hopsTs : Byte
  ecc : Byte
  deriving DecidableEq, Repr

/-- Body of a ROLE_SET. -/
structure RoleSet where
  epoch : Word
  cols : Byte
  orgCol : Byte
  orgRow : Byte
  mask : BitVec 64
  deriving DecidableEq, Repr

/-- Body of a ROLE_MOVED. -/
structure RoleMoved where
  epoch : Word
  code : Byte
  role : Byte
  reason : Byte
  arg : Word
  deriving DecidableEq, Repr

/-- Body of a BND. -/
structure BndBody where
  epoch : Word
  digest : Word
  f : BitVec 64
  refNext : BitVec 64
  period : Word
  hops : Byte
  deriving DecidableEq, Repr

/-- Body of a MEAS. -/
structure MeasBody where
  epoch : Word
  apply : Word
  view : Byte
  opening : Word
  dur : Word
  deriving DecidableEq, Repr

/-- Body of a HOLD. -/
structure HoldBody where
  epoch : Word
  f : Word
  slot : Byte
  view : Byte
  tgt : Byte
  deriving DecidableEq, Repr

/-- Body of a VCMD. -/
structure VcmdBody where
  epoch : Word
  param : Word
  feff : Word
  roles : BitVec 64
  deriving DecidableEq, Repr

/-- Body of a HOST message but KIND and COUNT (R518, R533). -/
structure HostBody where
  epoch : Word
  rtag : BitVec 16
  addr : BitVec 64
  data : List Byte
  deriving DecidableEq, Repr

/-- Where a request to the meter comes from (R566, R567, R569): a write transfer on the external port, with its address byte, SEQ and payload,
or the relay's request frame. -/
inductive MeterReq where
  | port (addr seq : Byte) (payload : List Byte)
  | relay
  deriving DecidableEq, Repr

/-- A request frame that the meter cannot serve: the address byte and the bytes of a write transfer, or the relay's request frame. -/
inductive BadReq where
  | port (addr : Byte) (frame : List Byte)
  | relay
  deriving DecidableEq, Repr

/-- A simultaneous conversion of the meter's inputs, in nV, two's complement (R545). -/
structure MeterSample where
  i0 : BitVec 32
  v0 : BitVec 32
  i1 : BitVec 32
  v1 : BitVec 32
  deriving DecidableEq, Repr

/-- How VDD_TMK falls (R550): held above 2.7 V for 2.0 ms, or not, with what the slot at the head then holds (64 bytes, or none). -/
inductive PowerCut where
  | held
  | cut (slot : List Byte)
  deriving DecidableEq, Repr

/-- How a read transfer on the port goes (R567): read through a stop after the last byte, stopped early, or read while the request with that
SEQ is still being handled. -/
inductive PortHow where
  | whole
  | part
  | early (seq : Byte)
  deriving DecidableEq, Repr

/-- A read transfer on the port, with its address byte (R566, R567). -/
structure PortRead where
  addr : Byte
  how : PortHow
  deriving DecidableEq, Repr


/-- The commands. Each constructor is a row of the table of operations and events; its rule is named beside it. -/
inductive Instr where
  | supplyReset  -- SUPPLY_RESET (R48)
  | porstNAssert  -- PORST_N_ASSERT (R48)
  | warmrstNAssert  -- WARMRST_N_ASSERT (R48)
  | pciePerstNAssert  -- PCIE_PERST_N_ASSERT (R48)
  | gblResetWrite (v : Word) -- GBL_RESET_WRITE (R52)
  | warmResetRelease  -- WARM_RESET_RELEASE (R48)
  | panelOffTimeout  -- PANEL_OFF_TIMEOUT (R50)
  | hostPortResetEnd  -- HOST_PORT_RESET_END (R55)
  | strapSample (straps : BitVec 8) -- STRAP_SAMPLE (R44)
  | startupStepEnd (step : Nat) (r : StepResult) -- STARTUP_STEP_END (R53)
  | startupRailTimeout (refclkBad : Bool) -- STARTUP_RAIL_TIMEOUT (R54)
  | pwrReqActive (v : Word) -- PWR_REQ_ACTIVE (R72)
  | pwrReqStandby (v : Word) -- PWR_REQ_STANDBY (R72)
  | pwrReqDormant (v : Word) -- PWR_REQ_DORMANT (R72)
  | dormantEntry  -- DORMANT_ENTRY (R72)
  | dormantWake (src : Fin 3) -- DORMANT_WAKE (R74)
  | dormantWakeEnd (r : WakeResult) -- DORMANT_WAKE_END (R74)
  | domainWakeRequest (r : DomainRequest) -- DOMAIN_WAKE_REQUEST (R68)
  | domainOn (d : Fin 34) -- DOMAIN_ON (R68)
  | pwrWakeFail (d : Fin 34) -- PWR_WAKE_FAIL (R68)
  | domainAutoOff (d : Fin 34) -- DOMAIN_AUTO_OFF (R66)
  | vtRecompute  -- VT_RECOMPUTE (R75)
  | avsVoltageConfirmed  -- AVS_VOLTAGE_CONFIRMED (R77)
  | pwrAvsTimeout  -- PWR_AVS_TIMEOUT (R77)
  | regStatusRead (sts : RegulatorStatus) -- REG_STATUS_READ (R80)
  | pwrAvsRelease (v : Word) -- PWR_AVS_RELEASE (R80)
  | pair (m : PairMsg) -- PAIR (R78)
  | pcieLinkDown  -- PCIE_LINK_DOWN (R83)
  | bar0Write (off : Nat) (be : BitVec 4) (v : Word) -- BAR0_WRITE (R7)
  | stagedRegWrite (off : Nat) (be : BitVec 4) (v : Word) -- STAGED_REG_WRITE (R123)
  | sqTail (c : Fin 256) (be : BitVec 4) (v : Word) -- SQ_TAIL (R88)
  | cqHead (c : Fin 256) (be : BitVec 4) (v : Word) -- CQ_HEAD (R88)
  | ringEnable (c : Fin 256) (v : Word) -- RING_ENABLE (R90)
  | ringDisable (c : Fin 256) (v : Word) -- RING_DISABLE (R109)
  | hstRlySelWrite (w : Fin 4) (v : Word) -- HST_RLY_SEL_WRITE (R113)
  | relayAccess (w : Fin 4) (off : Nat) (acc : RelayOp) -- RELAY_ACCESS (R114)
  | relayTimeout (tag : Nat) -- RELAY_TIMEOUT (R114)
  | msixUnmask (vec : Fin 264) -- MSIX_UNMASK (R111)
  | descriptorFetch (c : Fin 256) -- DESCRIPTOR_FETCH (R105)
  | descriptorHead (c : Fin 256) -- DESCRIPTOR_HEAD (R100)
  | readyTimeout (c : Fin 256) -- READY_TIMEOUT (R60)
  | descriptorUnhold (c : Fin 256) -- DESCRIPTOR_UNHOLD (R60)
  | hostMemFault (w : HostFaultAt) -- HOST_MEM_FAULT (R108)
  | irqTimer (c : Fin 256) -- IRQ_TIMER (R111)
  | nop (c : Fin 256) -- NOP (R101)
  | stgBegin (c : Fin 256) -- STG_BEGIN (R121)
  | stgCommit (c : Fin 256) -- STG_COMMIT (R124)
  | commitDecide (c : Fin 256) (inFreeze : Bool) -- COMMIT_DECIDE (R124)
  | stgRollback (c : Fin 256) -- STG_ROLLBACK (R131)
  | regWrite (c : Fin 256) -- REG_WRITE (R96)
  | regRead (c : Fin 256) -- REG_READ (R96)
  | tblLoad (c : Fin 256) -- TBL_LOAD (R25)
  | tblRead (c : Fin 256) -- TBL_READ (R94)
  | thcComp (c : Fin 256) -- THC_COMP (R437)
  | thcDecomp (c : Fin 256) -- THC_DECOMP (R437)
  | plateCreate (c : Fin 256) -- PLATE_CREATE (R415)
  | plateAppend (c : Fin 256) -- PLATE_APPEND (R416)
  | plateClose (c : Fin 256) -- PLATE_CLOSE (R416)
  | platePlayStart (c : Fin 256) -- PLATE_PLAY_START (R417)
  | platePlayStop (c : Fin 256) -- PLATE_PLAY_STOP (R418)
  | plateReadPages (c : Fin 256) -- PLATE_READ_PAGES (R419)
  | plateReadDecoded (c : Fin 256) -- PLATE_READ_DECODED (R419)
  | plateReadEntry (c : Fin 256) -- PLATE_READ_ENTRY (R419)
  | plateDelete (c : Fin 256) -- PLATE_DELETE (R420)
  | calStepAdc (c : Fin 256) -- CAL_STEP_ADC (R500)
  | calStepTimebase (c : Fin 256) -- CAL_STEP_TIMEBASE (R501)
  | calStepDacRef (c : Fin 256) -- CAL_STEP_DAC_REF (R502)
  | tmkCalAdc (c : Fin 256) -- TMK_CAL_ADC (R503)
  | tmkCalCrystal (c : Fin 256) -- TMK_CAL_CRYSTAL (R503)
  | calStepStart  -- CAL_STEP_START (R498)
  | calStepEnd (m : CalMeas) -- CAL_STEP_END (R499)
  | tmkRelay (c : Fin 256) -- TMK_RELAY (R569)
  | tmkResponse  -- TMK_RESPONSE (R569)
  | tmkRelayTimeout  -- TMK_RELAY_TIMEOUT (R569)
  | tmkLinkReturn  -- TMK_LINK_RETURN (R569)
  | volState (c : Fin 256) -- VOL_STATE (R534)
  | volHold (c : Fin 256) -- VOL_HOLD (R343)
  | volReset (c : Fin 256) -- VOL_RESET (R534)
  | volRole (c : Fin 256) -- VOL_ROLE (R524)
  | vcmdTimeout  -- VCMD_TIMEOUT (R534)
  | volResetSelf  -- VOL_RESET_SELF (R534)
  | stgCmdBegin (v : Word) -- STG_CMD_BEGIN (R136)
  | stgCmdCommit (v : Word) -- STG_CMD_COMMIT (R136)
  | stgCmdRollback (v : Word) -- STG_CMD_ROLLBACK (R131)
  | forceRollback (v : Word) -- FORCE_ROLLBACK (R131)
  | gateArm (v : Word) -- GATE_ARM (R132)
  | gateDisarm (v : Word) -- GATE_DISARM (R132)
  | stgGateLoWrite (v : Word) -- STG_GATE_LO_WRITE (R132)
  | resyncEnd (table : Nat) -- RESYNC_END (R130)
  | frameBoundary  -- FRAME_BOUNDARY (R233)
  | frameReference  -- FRAME_REFERENCE (R241)
  | genlockSync (t lines : Nat) -- GENLOCK_SYNC (R235)
  | genlockNoSignal  -- GENLOCK_NO_SIGNAL (R237)
  | camShutterEdge (n : Fin 8) (rising : Bool) (t : Nat) -- CAM_SHUTTER_EDGE (R240)
  | aonkMeasure (count : Nat) -- AONK_MEASURE (R249)
  | slotDeadline  -- SLOT_DEADLINE (R189)
  | holdDecision  -- HOLD_DECISION (R343)
  | slotScanStart  -- SLOT_SCAN_START (R243)
  | rowTime (fsErrs bankErrs : List ReadError) -- ROW_TIME (R243)
  | flitReceive (q : Fin 8) (f : Flit) -- FLIT_RECEIVE (R154)
  | sectorForward (q : Fin 8) (sector : Sector) -- SECTOR_FORWARD (R158)
  | flitSend (q : Fin 8) -- FLIT_SEND (R155)
  | nakTo (q : Fin 8) -- NAK_TO (R155)
  | replayTimeout (q : Fin 8) -- REPLAY_TIMEOUT (R156)
  | signalDetect (q : Fin 8) (lanes : BitVec 4) -- SIGNAL_DETECT (R146)
  | receiverDetect (q : Fin 8) -- RECEIVER_DETECT (R146)
  | trainingBlock (q : Fin 8) (lane : Fin 4) (b : TrainBlock) -- TRAINING_BLOCK (R147)
  | trainTo (q : Fin 8) -- TRAIN_TO (R146)
  | cap (q : Fin 8) (f : CapFlit) -- CAP (R151)
  | capTo (q : Fin 8) -- CAP_TO (R151)
  | linkDown (q : Fin 8) -- LINK_DOWN (R152)
  | rcvTo (q : Fin 8) -- RCV_TO (R152)
  | goodbye (q : Fin 8) -- GOODBYE (R160)
  | loopFarSignalLost (q : Fin 8) -- LOOP_FAR_SIGNAL_LOST (R164)
  | loopNesEnter (q : Fin 8) (v : Word) -- LOOP_NES_ENTER (R162)
  | loopNepEnter (q : Fin 8) (v : Word) -- LOOP_NEP_ENTER (R163)
  | loopExit (q : Fin 8) (v : Word) -- LOOP_EXIT (R163)
  | rafPrbsWrite (q : Fin 8) (v : Word) -- RAF_PRBS_WRITE (R168)
  | portSignalWake (p : Fin 4) -- PORT_SIGNAL_WAKE (R172)
  | counterClearWrite (off : Nat) (v : Word) -- COUNTER_CLEAR_WRITE (R171)
  | span (p : Fin 4) (h : PktHeader) (y0 nrows rowPix : BitVec 16) (data : List Byte) -- SPAN (R178)
  | wrect (p : Fin 4) (h : PktHeader) (b : WrectBody) -- WRECT (R180)
  | done (p : Fin 4) (h : PktHeader) -- DONE (R181)
  | pad (p : Fin 4) -- PAD (R174)
  | srcSleep (p : Fin 4) (arg : Word) -- SRC_SLEEP (R330)
  | srcWake (p : Fin 4) (arg : Word) -- SRC_WAKE (R330)
  | batStatusFrame (g : Fin 24) (f : BatStatus) -- BAT_STATUS_FRAME (R364)
  | batCmdResp (g : Fin 24) (f : BatResp) -- BAT_CMD_RESP (R364)
  | batStLost (g : Fin 24) -- BAT_ST_LOST (R366)
  | batCmdTimeout (g : Fin 24) -- BAT_CMD_TIMEOUT (R366)
  | batTrainTimeout (g : Fin 24) -- BAT_TRAIN_TIMEOUT (R363)
  | batCmdWrite (v : Word) -- BAT_CMD_WRITE (R376)
  | batCmdRead (v : Word) -- BAT_CMD_READ (R376)
  | pnlSeqStepEnd (pins : PanelPins) -- PNL_SEQ_STEP_END (R384)
  | pnlPgTimeout  -- PNL_PG_TIMEOUT (R385)
  | emergTrigger (cause : EmergCause) -- EMERG_TRIGGER (R388)
  | emergStep  -- EMERG_STEP (R389)
  | crackMeasure  -- CRACK_MEASURE (R394)
  | crackMeasureEnd (r : CrackReading) -- CRACK_MEASURE_END (R395)
  | magPresenceChange (p : Fin 4) (low : Bool) -- MAG_PRESENCE_CHANGE (R402)
  | attachStep (p : Fin 4) (r : AttachResult) -- ATTACH_STEP (R402)
  | nvmeCompletion (p : Fin 4) (tag : Nat) (r : NvmeResult) -- NVME_COMPLETION (R403)
  | magRemove (p : Fin 4) (cause : RemoveCause) -- MAG_REMOVE (R405)
  | smartPoll (p : Fin 4) -- SMART_POLL (R403)
  | magUnmount (p : Fin 4) (v : Word) -- MAG_UNMOUNT (R406)
  | magFormat (p : Fin 4) (v : Word) -- MAG_FORMAT (R413)
  | plateStageStart  -- PLATE_STAGE_START (R421)
  | engineJobStart (e : Fin 2) -- ENGINE_JOB_START (R439)
  | thcOperationEnd (e : Fin 2) -- THC_OPERATION_END (R439)
  | throttlePauseEnd (e : Fin 2) -- THROTTLE_PAUSE_END (R481)
  | thcCfgWrite (v : Word) -- THC_CFG_WRITE (R447)
  | thcBistGo (e : Fin 2) (v : Word) -- THC_BIST_GO (R449)
  | swgBistGo (v : Word) -- SWG_BIST_GO (R230)
  | bistEnd (unit : Fin 3) (ok : Bool) -- BIST_END (R230)
  | fstRecal (ok0 ok1 : Bool) -- FST_RECAL (R217)
  | fstPatrolScrub (errs : List ReadError) -- FST_PATROL_SCRUB (R217)
  | bnkScrub (errs : List ReadError) -- BNK_SCRUB (R467)
  | bnkRetention  -- BNK_RETENTION (R460)
  | thmSweep (reads : List SensorRead) -- THM_SWEEP (R475)
  | stackSensorRead (reads : List StackRead) -- STACK_SENSOR_READ (R473)
  | sweepRateRestore  -- SWEEP_RATE_RESTORE (R475)
  | throttleStepTimer  -- THROTTLE_STEP_TIMER (R482)
  | odtCompute  -- ODT_COMPUTE (R483)
  | adcRefCorrect  -- ADC_REF_CORRECT (R484)
  | thmOdtHostWrite (v : Word) -- THM_ODT_HOST_WRITE (R488)
  | tsyncTick (t : Nat) -- TSYNC_TICK (R530)
  | tsyncReq (q : Fin 4) (t1 : BitVec 64) (seq : Word) (t2 t3 : Nat) -- TSYNC_REQ (R530)
  | tsyncRsp (q : Fin 4) (t2 t3 : BitVec 64) (seq : Word) (t4 : Nat) -- TSYNC_RSP (R530)
  | roleAnnTick  -- ROLE_ANN_TICK (R525)
  | roleAnn (h : RidgeHdr) (b : RoleAnn) -- ROLE_ANN (R525)
  | roleSet (h : RidgeHdr) (b : RoleSet) -- ROLE_SET (R525)
  | roleMoved (h : RidgeHdr) (b : RoleMoved) -- ROLE_MOVED (R528)
  | roleUnreachable (r : Fin 64) -- ROLE_UNREACHABLE (R525)
  | alarm (h : RidgeHdr) (epoch : Word) (event : BitVec 16) -- ALARM (R533)
  | bnd (h : RidgeHdr) (b : BndBody) -- BND (R531)
  | meas (h : RidgeHdr) (b : MeasBody) -- MEAS (R242)
  | hold (h : RidgeHdr) (b : HoldBody) -- HOLD (R343)
  | vcmdState (h : RidgeHdr) (b : VcmdBody) -- VCMD_STATE (R534)
  | vcmdHold (h : RidgeHdr) (b : VcmdBody) -- VCMD_HOLD (R534)
  | vcmdReset (h : RidgeHdr) (b : VcmdBody) -- VCMD_RESET (R534)
  | vack (h : RidgeHdr) (epoch : Word) (vseq : BitVec 16) (result : Byte) -- VACK (R534)
  | hostReadRequest (h : RidgeHdr) (b : HostBody) (rlen : Word) -- HOST_READ_REQUEST (R533)
  | hostWrite (h : RidgeHdr) (b : HostBody) -- HOST_WRITE (R533)
  | hostReadData (h : RidgeHdr) (b : HostBody) -- HOST_READ_DATA (R533)
  | hostWriteDone (h : RidgeHdr) (b : HostBody) -- HOST_WRITE_DONE (R533)
  | hostMsix (h : RidgeHdr) (b : HostBody) -- HOST_MSIX (R533)
  | hostRelayRead (h : RidgeHdr) (b : HostBody) -- HOST_RELAY_READ (R533)
  | hostRelayWrite (h : RidgeHdr) (b : HostBody) -- HOST_RELAY_WRITE (R533)
  | hostRelayReadData (h : RidgeHdr) (b : HostBody) -- HOST_RELAY_READ_DATA (R533)
  | hostRequestFailed (h : RidgeHdr) (b : HostBody) -- HOST_REQUEST_FAILED (R533)
  | hostRelayTimeout (tag : Nat) -- HOST_RELAY_TIMEOUT (R533)
  | tsElection  -- TS_ELECTION (R529)
  | tsLost  -- TS_LOST (R531)
  | parentBndMissing  -- PARENT_BND_MISSING (R530)
  | meterSecond (samples : List MeterSample) -- METER_SECOND (R546)
  | vddTmkDrop (r : PowerCut) -- VDD_TMK_DROP (R550)
  | vddTmkPowerUp  -- VDD_TMK_POWER_UP (R550)
  | ident (r : MeterReq) -- IDENT (R568)
  | readNow (r : MeterReq) -- READ_NOW (R568)
  | readLog (r : MeterReq) -- READ_LOG (R568)
  | readParam (r : MeterReq) -- READ_PARAM (R568)
  | writeParam (r : MeterReq) (ok : Bool) -- WRITE_PARAM (R553)
  | seal (r : MeterReq) (ok : Bool) -- SEAL (R555)
  | setWall (r : MeterReq) -- SET_WALL (R561)
  | note (r : MeterReq) -- NOTE (R568)
  | calResult (r : MeterReq) -- CAL_RESULT (R557)
  | calApplyGref (r : MeterReq) (ok : Bool) -- CAL_APPLY_GREF (R557)
  | calApplyXtal (r : MeterReq) (ok : Bool) -- CAL_APPLY_XTAL (R557)
  | portReadTransfer (r : PortRead) -- PORT_READ_TRANSFER (R567)
  | portWriteTimeout  -- PORT_WRITE_TIMEOUT (R567)
  | tmkDoseClr (v : Word) -- TMK_DOSE_CLR (R571)
  | eventRecordWrite  -- EVENT_RECORD_WRITE (R576)
  | evtRingFault  -- EVT_RING_FAULT (R579)
  | evtIrqTimer  -- EVT_IRQ_TIMER (R579)
  | evtRheadWrite (v : Word) -- EVT_RHEAD_WRITE (R579)
  | evtCfgWrite (v : Word) -- EVT_CFG_WRITE (R578)
  | evtAlmPendClear (hi : Bool) (v : Word) -- EVT_ALM_PEND_CLEAR (R581)
  | evtTrcWrite (v : Word) -- EVT_TRC_WRITE (R584)
  | evtTrcMark (v : Word) -- EVT_TRC_MARK (R582)
  | traceLinkTick  -- TRACE_LINK_TICK (R582)
  | wpPtrXWrite (be : BitVec 4) (v : Word) -- WP_PTR_X_WRITE (R592)
  | wpPtrYWrite (be : BitVec 4) (v : Word) -- WP_PTR_Y_WRITE (R592)
  | wpDataWrite (off : Nat) (be : BitVec 4) (v : Word) -- WP_DATA_WRITE (R594)
  | wpWindowWrite (k : Fin 4) (be : BitVec 4) (v : Word) -- WP_WINDOW_WRITE (R591)
  | wpDataRead  -- WP_DATA_READ (R596)
  | journalApply  -- JOURNAL_APPLY (R595)
  | hostMemoryReadData (rid : Nat) (bytes : List Byte) -- HOST_MEMORY_READ_DATA (R25)
  | tableRebuildEnd (c : Fin 256) -- TABLE_REBUILD_END (R293)
  | dmuCrcEnd  -- DMU_CRC_END (R297)
  | pcieLinkUp  -- PCIE_LINK_UP (R533)
  | pcieConfigWrite (w : ConfigWrite) -- PCIE_CONFIG_WRITE (R83)
  | genLoRead (pair : Fin 3) -- GEN_LO_READ (R255)
  | genlockLine (kind : Fin 3) (h : Nat) -- GENLOCK_LINE (R234)
  | tmkBadRequest (r : BadReq) -- TMK_BAD_REQUEST (R568)
  | vddIoRemoved  -- VDD_IO_REMOVED (R72)
  | jtagTckEdge (e : JtagEdge) -- JTAG_TCK_EDGE (R13)
  deriving DecidableEq, Repr

end Sys2Proof
end

