-- ==== Sys2Proof/Machine/EventCodes.lean ====
section
/-! DEFINITION. The event codes of R573: block number in [15:8], index within the block in [7:0]. -/

namespace Sys2Proof.Ev

abbrev GBL_READY_CLR : Nat := 0x0001
abbrev GBL_RESET_KEY : Nat := 0x0002
abbrev GBL_LK_WRITE : Nat := 0x0003
abbrev GBL_REJECT_WRITE : Nat := 0x0004
abbrev GBL_STARTUP_FAIL : Nat := 0x0005
abbrev GBL_STARTUP_STOP : Nat := 0x0006
abbrev STG_NO_TXN : Nat := 0x0101
abbrev STG_GROUP_NOT_HELD : Nat := 0x0102
abbrev STG_FULL : Nat := 0x0103
abbrev STG_COMMIT_FAIL : Nat := 0x0104
abbrev STG_DISCARDED : Nat := 0x0105
abbrev STG_FORCED : Nat := 0x0106
abbrev STG_GATE_LATE : Nat := 0x0107
abbrev STG_GATE_BUSY : Nat := 0x0108
abbrev STG_GATE_EARLY : Nat := 0x0109
abbrev STG_CMD_BUSY : Nat := 0x010A
abbrev PWR_WAKE_FAIL : Nat := 0x0201
abbrev PWR_LOCKED_ACCESS : Nat := 0x0202
abbrev PWR_AVS_TIMEOUT : Nat := 0x0203
abbrev PWR_PAIR_LOST : Nat := 0x0204
abbrev PWR_UNPAIRED : Nat := 0x0205
abbrev PWR_REG_FAULT : Nat := 0x0206
abbrev PWR_REG_ALARM : Nat := 0x0207
abbrev PWR_RELEASE_EARLY : Nat := 0x0208
abbrev HST_PARTIAL_WRITE : Nat := 0x0301
abbrev HST_UNMAPPED : Nat := 0x0302
abbrev HST_DOORBELL : Nat := 0x0303
abbrev HST_CFG_REJECT : Nat := 0x0304
abbrev HST_RING_FAULT : Nat := 0x0305
abbrev HST_RELAY_OFF : Nat := 0x0306
abbrev HST_RELAY_FAIL : Nat := 0x0307
abbrev RAF_UP : Nat := 0x0401
abbrev RAF_DOWN : Nat := 0x0402
abbrev RAF_TRAIN_FAIL : Nat := 0x0403
abbrev RAF_RECOVERY : Nat := 0x0404
abbrev RAF_LINK_RESET : Nat := 0x0405
abbrev RAF_PROTO : Nat := 0x0406
abbrev RAF_CREDIT_OVR : Nat := 0x0407
abbrev RAF_CRC_RATE : Nat := 0x0408
abbrev RAF_LOOP_REJECT : Nat := 0x0409
abbrev RDG_UP : Nat := 0x0501
abbrev RDG_DOWN : Nat := 0x0502
abbrev RDG_TRAIN_FAIL : Nat := 0x0503
abbrev RDG_RECOVERY : Nat := 0x0504
abbrev RDG_LINK_RESET : Nat := 0x0505
abbrev RDG_PROTO : Nat := 0x0506
abbrev RDG_CREDIT_OVR : Nat := 0x0507
abbrev RDG_CRC_RATE : Nat := 0x0508
abbrev RDG_LOOP_REJECT : Nat := 0x0509
abbrev RDG_MISWIRED : Nat := 0x050A
abbrev RDG_FOREIGN : Nat := 0x050B
abbrev RDG_ROLE_REJECT : Nat := 0x050C
abbrev RDG_ROLE_LOST : Nat := 0x050D
abbrev RDG_ROLE_MOVED : Nat := 0x050E
abbrev RDG_TS_CHANGE : Nat := 0x050F
abbrev RDG_TS_LOST : Nat := 0x0510
abbrev RDG_FC_REALIGN : Nat := 0x0511
abbrev RDG_VCMD_MISS : Nat := 0x0512
abbrev RDG_DIAMETER : Nat := 0x0513
abbrev RDG_PARTITION : Nat := 0x0514
abbrev RDG_REMOTE_ALARM : Nat := 0x0515
abbrev RDG_MIXED_VIEWS : Nat := 0x0516
abbrev GEN_LOCK : Nat := 0x0601
abbrev GEN_UNLOCK : Nat := 0x0602
abbrev GEN_RELOCK_JUMP : Nat := 0x0603
abbrev GEN_VT_STEP : Nat := 0x0604
abbrev GEN_FC_LOAD : Nat := 0x0605
abbrev GEN_SHUT_LOST : Nat := 0x0606
abbrev GEN_SHUT_BACK : Nat := 0x0607
abbrev GEN_SHUT_EXTRA : Nat := 0x0608
abbrev GEN_MEAS_HOLD : Nat := 0x0609
abbrev GEN_BND_DELAY : Nat := 0x060A
abbrev GEN_SCHED_DIFF : Nat := 0x060B
abbrev ING_BAD_PKT : Nat := 0x0701
abbrev ING_STALE : Nat := 0x0702
abbrev ING_EARLY : Nat := 0x0703
abbrev ING_NO_BUFFER : Nat := 0x0704
abbrev ING_ABANDON : Nat := 0x0705
abbrev ING_NO_RECT : Nat := 0x0706
abbrev ING_AFTER_DONE : Nat := 0x0707
abbrev ING_MISS : Nat := 0x0708
abbrev ING_LATE : Nat := 0x0709
abbrev ING_LL_DISCARD : Nat := 0x070A
abbrev HRT_CHOICE : Nat := 0x070B
abbrev HRT_RUN_END : Nat := 0x070C
abbrev HRT_SILENT : Nat := 0x070D
abbrev HRT_WAKE : Nat := 0x070E
abbrev HRT_PLATE_REPEAT : Nat := 0x070F
abbrev HRT_VHOLD_LATE : Nat := 0x0710
abbrev CLR_TBL_POISON : Nat := 0x0801
abbrev DMU_COL_MASKED : Nat := 0x0901
abbrev DMU_REF_DIFF : Nat := 0x0902
abbrev DMU_TBL_UE : Nat := 0x0903
abbrev DMU_WORK_POISON : Nat := 0x0904
abbrev DMU_DEF_POISON : Nat := 0x0905
abbrev ODV_HIST_BAD : Nat := 0x0A01
abbrev ODV_TEMP_STALE : Nat := 0x0A02
abbrev PNL_ON_DONE : Nat := 0x0C01
abbrev PNL_OFF_DONE : Nat := 0x0C02
abbrev PNL_PG_FAIL : Nat := 0x0C03
abbrev PNL_PG_STUCK : Nat := 0x0C04
abbrev PNL_PFAIL_HELD : Nat := 0x0C05
abbrev PNL_EMERG : Nat := 0x0C06
abbrev PNL_DISCH_NORESP : Nat := 0x0C07
abbrev PNL_CRACK_HIGH : Nat := 0x0C08
abbrev PNL_CRACK_OPEN : Nat := 0x0C09
abbrev PNL_CRACK_OK : Nat := 0x0C0A
abbrev PNL_SHORT_LIMIT : Nat := 0x0C0B
abbrev BAT_TRAIN_FAIL : Nat := 0x0D01
abbrev BAT_DRV_UNLOCK : Nat := 0x0D02
abbrev BAT_ST_LOST : Nat := 0x0D03
abbrev BAT_ST_BACK : Nat := 0x0D04
abbrev BAT_ROW_CRC : Nat := 0x0D05
abbrev BAT_BLKERR : Nat := 0x0D06
abbrev BAT_CMD_FAIL : Nat := 0x0D07
abbrev BAT_SHORT_UNMAPPED : Nat := 0x0D08
abbrev FST_REFRESH_LEVEL : Nat := 0x0F01
abbrev FST_ECC_CE : Nat := 0x0F02
abbrev FST_ECC_UE : Nat := 0x0F03
abbrev FST_TRAIN_LOST : Nat := 0x0F04
abbrev SWG_BLOCK_BAD : Nat := 0x1001
abbrev SWG_ASM_EVICT : Nat := 0x1002
abbrev SWG_LOSS : Nat := 0x1003
abbrev SWG_BIST_FAIL : Nat := 0x1004
abbrev SWG_BIST_REFUSED : Nat := 0x1005
abbrev THC_CHECK : Nat := 0x1101
abbrev THC_DATA : Nat := 0x1102
abbrev THC_BIST_FAIL : Nat := 0x1103
abbrev THC_BIST_REFUSED : Nat := 0x1104
abbrev MAG_ATTACH : Nat := 0x1201
abbrev MAG_MOUNT : Nat := 0x1202
abbrev MAG_REMOVE : Nat := 0x1203
abbrev MAG_UNSUPPORTED : Nat := 0x1204
abbrev MAG_UNFORMATTED : Nat := 0x1205
abbrev MAG_DAMAGED : Nat := 0x1206
abbrev MAG_DIR_BAD : Nat := 0x1207
abbrev MAG_OPEN_FOUND : Nat := 0x1208
abbrev MAG_SMART : Nat := 0x1209
abbrev MAG_PLAY_LOST : Nat := 0x120A
abbrev MAG_CHUNK_BAD : Nat := 0x120B
abbrev MAG_TRIM_FAIL : Nat := 0x120C
abbrev MAG_CTL_REJECT : Nat := 0x120D
abbrev BNK_CE : Nat := 0x1301
abbrev BNK_UE : Nat := 0x1302
abbrev BNK_PW_CE : Nat := 0x1303
abbrev BNK_PW_POISON : Nat := 0x1304
abbrev BNK_TBL_LOST : Nat := 0x1305
abbrev THM_WARN : Nat := 0x1401
abbrev THM_RATE_WARN : Nat := 0x1402
abbrev THM_THROTTLE : Nat := 0x1403
abbrev THM_SUSPECT : Nat := 0x1404
abbrev THM_SENSOR_BACK : Nat := 0x1405
abbrev THM_SENSOR_FAIL : Nat := 0x1406
abbrev THM_STACK_DIFF : Nat := 0x1407
abbrev THM_SUSPECT_HOT : Nat := 0x1408
abbrev THM_FEW_VALID : Nat := 0x1409
abbrev THM_BAND_DRIFT : Nat := 0x140A
abbrev THM_SHUTDOWN : Nat := 0x140B
abbrev CAL_STEP_FAIL : Nat := 0x1501
abbrev EVENTS_LOST : Nat := 0x1601
abbrev EVT_RING_FAULT : Nat := 0x1602
abbrev EVT_TRACE_UE : Nat := 0x1603
abbrev EVT_TRACE_STOP : Nat := 0x1604
abbrev WIN_REFUSED : Nat := 0x1701
abbrev WIN_DISABLED : Nat := 0x1702
abbrev WIN_NO_PTR : Nat := 0x1703
abbrev WIN_PTR_ORDER : Nat := 0x1704
abbrev WIN_BAD_PTR : Nat := 0x1705
abbrev WIN_PARTIAL : Nat := 0x1706
abbrev WIN_DISCARD : Nat := 0x1707
abbrev TMK_LINK_DOWN : Nat := 0x1801
abbrev TMK_LINK_UP : Nat := 0x1802

end Sys2Proof.Ev
end

