-- ==== Sys2Proof/Machine/AMap.lean ====
section
/-! DEFINITION. Operations on sparse maps (`AMap`): look-up with a value for unlisted keys, and an update that keeps the canonical form. -/

namespace Sys2Proof.Machine

/-- What the map `m` holds at key `k`; an unlisted key reads as `d k`. -/
def aget {α : Type} (d : Nat → α) : AMap α → Nat → α
  | [], k => d k
  | (j, v) :: t, k => if k = j then v else aget d t k

/-- `m` without key `k`. -/
def aerase {α : Type} : AMap α → Nat → AMap α
  | [], _ => []
  | (j, v) :: t, k => if k = j then aerase t k else (j, v) :: aerase t k

/-- Put `(k, v)` before the first larger key. -/
def ainsert {α : Type} : AMap α → Nat → α → AMap α
  | [], k, v => [(k, v)]
  | (j, w) :: t, k, v => if k < j then (k, v) :: (j, w) :: t else (j, w) :: ainsert t k v

/-- Set key `k` to `v`. A value equal to what the unlisted key reads as removes the entry. -/
def aset {α : Type} [DecidableEq α] (d : Nat → α) (m : AMap α) (k : Nat) (v : α) : AMap α :=
  if v = d k then aerase m k else ainsert (aerase m k) k v

/-- The keys of `m`, all above `lo`, strictly rising. -/
def arising {α : Type} : Nat → AMap α → Bool
  | _, [] => true
  | lo, (j, _) :: t => decide (lo ≤ j) && arising (j + 1) t

/-- The canonical form: keys strictly rising, and no entry equal to what an unlisted key reads as. -/
def awf {α : Type} [DecidableEq α] (d : Nat → α) (m : AMap α) : Bool :=
  arising 0 m && m.all (fun e => decide (e.2 ≠ d e.1))

/-- Write the bytes `bs` from address `a` upwards. -/
def awrite {α : Type} [DecidableEq α] (d : Nat → α) (m : AMap α) (a : Nat) : List α → AMap α
  | [] => m
  | b :: t => awrite d (aset d m a b) (a + 1) t

/-- The `n` values from address `a` upwards. -/
def aread {α : Type} (d : Nat → α) (m : AMap α) (a : Nat) : Nat → List α
  | 0 => []
  | n + 1 => aget d m a :: aread d m (a + 1) n

/-- `m` with every key outside `[lo, lo + n)`. -/
def aclear {α : Type} (m : AMap α) (lo n : Nat) : AMap α :=
  m.filter (fun e => !(decide (lo ≤ e.1) && decide (e.1 < lo + n)))

end Sys2Proof.Machine
end

