-- ==== Sys2Proof/Config.lean ====
section
/-! DEFINITION. What one implementation fixes and the spec leaves open: opaque constants, of which nothing can be proved but that they are functions. -/

namespace Sys2Proof.Config

/-- The fuse shadow word at CAL offset `off` (0x1000 to 0x10F8, R494): the fused value of the individual part.
(DESIGN CHOICE, log entry 9.) -/
opaque fuse : Nat → BitVec 32

/-- A byte of frame-store memory that nothing has written since the reset numbered by the first argument
(R49: contents undefined), by address. (DESIGN CHOICE, log entry 8.) -/
opaque frameStoreByte : Nat → Nat → BitVec 8

/-- A free value drawn from the counter `State.freeN`, for results that the spec leaves open. (DESIGN CHOICE, log entry 7.) -/
opaque freeNat : Nat → Nat

/-- V_T in steps of 5 mV above 0.710 V, from the hottest temperature in 1/16 °C (R75: from the fuse shadow and the hottest sensor; the formula
is not stated, but every part is fused so that OP0, V_T − 60 mV, lies between 0.65 and 0.75 V). (DESIGN CHOICE, log entry 10.) -/
opaque vt : Int → Fin 21

/-- The hash of three bytes by which the encoder's match search finds earlier positions (R435: the hash is not stated).
(DESIGN CHOICE, log entry 11.) -/
opaque deflateHash : List (BitVec 8) → Nat

/-- The header of a dynamic block after its first three bits, for the block's symbols: a literal as (0, byte), a copy as (length, distance)
(R434 does not state how the code lengths are chosen or run-length coded). (DESIGN CHOICE, log entry 11.) -/
opaque dynamicHeader : List (Nat × Nat) → List Bool

/-- What the device-private bytes of a job state are combined with, by offset (R441: their layout is its own).
(DESIGN CHOICE, log entry 12.) -/
opaque privByte : Nat → BitVec 8

/-- The VCO band that a SerDes selects at a training, by link and by the nearest sensor's temperature (R485).
(DESIGN CHOICE, log entry 13.) -/
opaque vcoBand : Nat → Int → Nat

/-- The version of the meter's ROM, as IDENT answers it (R568: the number is the part's). -/
opaque meterRom : Nat

/-- The IDCODE of the part (R13: not stated). (PRESUMED, log entry 48.) -/
opaque idcode : BitVec 32

/-- How many bits the JTAG instruction register has beyond the two that IEEE 1149.1 requires (R13: not stated). (PRESUMED, log entry 48.) -/
opaque irMore : Nat

/-- The number of cells of the boundary register (R13: not stated). (PRESUMED, log entry 48.) -/
opaque boundaryCells : Nat

/-- What an instruction other than all ones is: 0 BYPASS, 1 IDCODE, 2 EXTEST, else one that samples or preloads the boundary register
(R13: the codes are not stated). (PRESUMED, log entry 48.) -/
opaque jtagCode : List Bool → Nat

end Sys2Proof.Config
end

