-- ==== Sys2Proof/Machine/Bits.lean ====
section
/-! DEFINITION. Fields of words, two's complement, byte order (R6) and the rounding and limiting functions of R12. -/

namespace Sys2Proof.Machine

/-- The number held in field `f` of a word. -/
def fieldOf (f : Fld) (w : Word) : Nat :=
  w.toNat / 2 ^ f.lsb % 2 ^ (f.msb + 1 - f.lsb)

/-- The word with field `f` set to `n` (cut to the field's width) and every other bit kept. -/
def withField (f : Fld) (n : Nat) (w : Word) : Word :=
  BitVec.ofNat 32
    (w.toNat / 2 ^ (f.msb + 1) * 2 ^ (f.msb + 1)
      + n % 2 ^ (f.msb + 1 - f.lsb) * 2 ^ f.lsb
      + w.toNat % 2 ^ f.lsb)

/-- Bit `i` of a number. -/
def bit (n i : Nat) : Bool := n.testBit i

/-- `n` with bit `i` set. -/
def setBit (n i : Nat) : Nat := n ||| 2 ^ i

/-- `n` with bit `i` cleared. -/
def clearBit (n i : Nat) : Nat := if n.testBit i then n - 2 ^ i else n

/-- 1 for true, 0 for false. -/
def b2n (b : Bool) : Nat := if b then 1 else 0

/-- The number of bits set among the lowest `k` bits. -/
def popcount (n : Nat) : Nat → Nat
  | 0 => 0
  | k + 1 => popcount n k + b2n (n.testBit k)

/-- The indices, ascending, of the bits set among the lowest `k` bits. -/
def bitsOf (n k : Nat) : List Nat := (List.range k).filter (fun i => n.testBit i)

/-- The value of the low `w` bits of `n` in two's complement. -/
def toSigned (w n : Nat) : Int :=
  let m := n % 2 ^ w
  if m < 2 ^ (w - 1) then (m : Int) else (m : Int) - (2 ^ w : Nat)

/-- The low `w` bits of the two's complement of `x`. -/
def ofSigned (w : Nat) (x : Int) : Nat := (x % ((2 ^ w : Nat) : Int)).toNat

/-- `n` bytes of a number, the least significant first (R6). -/
def leBytes : Nat → Nat → List Byte
  | 0, _ => []
  | n + 1, x => BitVec.ofNat 8 x :: leBytes n (x / 256)

/-- The number that little-endian bytes spell (R6). -/
def leNat : List Byte → Nat
  | [] => 0
  | b :: t => b.toNat + 256 * leNat t

/-- `n` bytes of a number, the most significant first. -/
def beBytes (n x : Nat) : List Byte := (leBytes n x).reverse

/-- The number that big-endian bytes spell. -/
def beNat (bs : List Byte) : Nat := leNat bs.reverse

/-- The `n` bytes at offset `o`. -/
def slice (o n : Nat) (bs : List Byte) : List Byte := (bs.drop o).take n

/-- The little-endian number of `n` bytes at offset `o`. -/
def leAt (o n : Nat) (bs : List Byte) : Nat := leNat (slice o n bs)

/-- A word of a number. -/
def word (n : Nat) : Word := BitVec.ofNat 32 n

/-- floor(a / b + 0.5), R12, for a positive divisor. -/
def rhuDiv (a : Int) (b : Nat) : Int := (2 * a + b) / (2 * (b : Int))

/-- floor(a / b), R12. -/
def trnDiv (a : Int) (b : Nat) : Int := a / (b : Int)

/-- The nearest integer to a / b, ties to the even integer, R12. -/
def rneDiv (a : Int) (b : Nat) : Int :=
  let q := a / (b : Int)
  let r := a % (b : Int)
  if 2 * r < b then q else if (b : Int) < 2 * r then q + 1 else if q % 2 = 0 then q else q + 1

/-- `x` clamped to lo..hi (sat of R12). -/
def clampI (lo hi x : Int) : Int := if x < lo then lo else if hi < x then hi else x

/-- `x` clamped to the unsigned format of `n` bits (R12). -/
def satU (n : Nat) (x : Int) : Nat := (clampI 0 ((2 ^ n : Nat) - 1) x).toNat

/-- `x` clamped to the two's complement format of `n` bits (R12). -/
def satS (n : Nat) (x : Int) : Int := clampI (-(2 ^ (n - 1) : Nat)) ((2 ^ (n - 1) : Nat) - 1) x

/-- The integer part of a quotient, rounded up. -/
def ceilDiv (a b : Nat) : Nat := (a + b - 1) / b

/-- The floor of the square root and of the cube root, by bisection over `fuel` bits. -/
def rootFloor (k : Nat) (n : Nat) : Nat → Nat → Nat
  | 0, acc => acc
  | fuel + 1, acc =>
    let t := acc + 2 ^ fuel
    if t ^ k ≤ n then rootFloor k n fuel t else rootFloor k n fuel acc

/-- One byte of CRC-32C in reflected form, polynomial 0x82F6_3B78 (R14). -/
def crc32cBits : Nat → Nat → Nat
  | 0, c => c
  | k + 1, c => crc32cBits k (if c % 2 = 1 then (c / 2) ^^^ 0x82F63B78 else c / 2)

/-- The CRC register after the bytes `bs` (R14). -/
def crc32cGo : List Byte → Nat → Nat
  | [], c => c
  | b :: t, c => crc32cGo t (crc32cBits 8 (c ^^^ b.toNat))

/-- CRC-32C of a byte list (R14). -/
def crc32c (bs : List Byte) : Nat := crc32cGo bs 0xFFFFFFFF ^^^ 0xFFFFFFFF

end Sys2Proof.Machine
end

