-- ==== Sys2Proof/Machine/RegNames.lean ====
section
/-! DEFINITION. The names of the registers of BAR0: one constant or function per register for its offset (R85, R116 and the offset
tables of each chapter), and one constant per field for its place ([msb:lsb]). Taken from the spec's register tables. -/

namespace Sys2Proof.Reg

abbrev GBL_ID : Nat := 0x000000
abbrev GBL_STRAP : Nat := 0x000010
abbrev GBL_READY : Nat := 0x000020
abbrev GBL_RESET : Nat := 0x000030
abbrev GBL_RESET_CAUSE : Nat := 0x000040
abbrev STG_CMD : Nat := 0x040000
abbrev STG_RSTAT : Nat := 0x040004
abbrev STG_RTXID : Nat := 0x040008
abbrev STG_MASK_LO : Nat := 0x04000C
abbrev STG_MASK_HI : Nat := 0x040010
abbrev STG_GATE_LO : Nat := 0x040014
abbrev STG_GATE_HI : Nat := 0x040018
abbrev STG_HELD_LO : Nat := 0x04001C
abbrev STG_HELD_HI : Nat := 0x040020
abbrev STG_IDLE_PEND : Nat := 0x040024
abbrev STG_FAIL_ID : Nat := 0x040028
abbrev STG_FAIL_WHERE : Nat := 0x04002C
abbrev STG_SLOT_ID (i : Nat) : Nat := 0x040040 + 0x10 * i
abbrev STG_SLOT_STATE (i : Nat) : Nat := 0x040044 + 0x10 * i
abbrev STG_SLOT_MASK_LO (i : Nat) : Nat := 0x040048 + 0x10 * i
abbrev STG_SLOT_MASK_HI (i : Nat) : Nat := 0x04004C + 0x10 * i
abbrev PWR_STATE : Nat := 0x080000
abbrev PWR_REQ : Nat := 0x080004
abbrev PWR_DORM : Nat := 0x080008
abbrev PWR_DOM_ON0 : Nat := 0x080010
abbrev PWR_DOM_ON1 : Nat := 0x080014
abbrev PWR_LOCKOFF : Nat := 0x080018
abbrev PWR_AUTO : Nat := 0x080020
abbrev PWR_OP : Nat := 0x080030
abbrev PWR_VSET : Nat := 0x080034
abbrev PWR_AVS_CFG : Nat := 0x080040
abbrev PWR_AVS_FLT : Nat := 0x080044
abbrev HST_RLY_SEL (i : Nat) : Nat := 0x0C0100 + 0x4 * i
abbrev HST_MSIX_CTL : Nat := 0x0C0120
abbrev HST_CCFG (i : Nat) : Nat := 0x0D0000 + 0x40 * i
abbrev HST_CIMOD (i : Nat) : Nat := 0x0D0004 + 0x40 * i
abbrev HST_SQB_LO (i : Nat) : Nat := 0x0D0008 + 0x40 * i
abbrev HST_SQB_HI (i : Nat) : Nat := 0x0D000C + 0x40 * i
abbrev HST_CQB_LO (i : Nat) : Nat := 0x0D0010 + 0x40 * i
abbrev HST_CQB_HI (i : Nat) : Nat := 0x0D0014 + 0x40 * i
abbrev HST_CSTAT (i : Nat) : Nat := 0x0D0018 + 0x40 * i
abbrev HST_CPOS (i : Nat) : Nat := 0x0D001C + 0x40 * i
abbrev RAF_PCFG (i : Nat) : Nat := 0x100000 + 0x10000 * i
abbrev RAF_TMR (i : Nat) : Nat := 0x100004 + 0x10000 * i
abbrev RAF_LOOP (i : Nat) : Nat := 0x100008 + 0x10000 * i
abbrev RAF_PRBS (i : Nat) : Nat := 0x10000C + 0x10000 * i
abbrev RAF_PST (i : Nat) : Nat := 0x100010 + 0x10000 * i
abbrev RAF_LLST (i : Nat) : Nat := 0x100014 + 0x10000 * i
abbrev RAF_LLCR (i : Nat) : Nat := 0x100018 + 0x10000 * i
abbrev RAF_PSRC (i : Nat) : Nat := 0x100020 + 0x10000 * i
abbrev RAF_PCAP (i : Nat) : Nat := 0x100024 + 0x10000 * i
abbrev RAF_CNT_CRC (i : Nat) : Nat := 0x100030 + 0x10000 * i
abbrev RAF_CNT_NAK (i : Nat) : Nat := 0x100034 + 0x10000 * i
abbrev RAF_CNT_DUP (i : Nat) : Nat := 0x100038 + 0x10000 * i
abbrev RAF_CNT_PROTO (i : Nat) : Nat := 0x10003C + 0x10000 * i
abbrev RAF_CNT_CREDIT (i : Nat) : Nat := 0x100040 + 0x10000 * i
abbrev RAF_CNT_REPLAY (i : Nat) : Nat := 0x100044 + 0x10000 * i
abbrev RAF_CNT_RETRAIN (i : Nat) : Nat := 0x100048 + 0x10000 * i
abbrev RAF_CNT_CLR (i : Nat) : Nat := 0x10004C + 0x10000 * i
abbrev RAF_PRBS_ERR (i j : Nat) : Nat := 0x100060 + 0x10000 * i + 0x4 * j
abbrev RDG_LCFG (i : Nat) : Nat := 0x140000 + 0x10000 * i
abbrev RDG_LTMR (i : Nat) : Nat := 0x140004 + 0x10000 * i
abbrev RDG_LOOP (i : Nat) : Nat := 0x140008 + 0x10000 * i
abbrev RDG_PRBS (i : Nat) : Nat := 0x14000C + 0x10000 * i
abbrev RDG_PST (i : Nat) : Nat := 0x140010 + 0x10000 * i
abbrev RDG_LLST (i : Nat) : Nat := 0x140014 + 0x10000 * i
abbrev RDG_LLCR (i : Nat) : Nat := 0x140018 + 0x10000 * i
abbrev RDG_PSRC (i : Nat) : Nat := 0x140020 + 0x10000 * i
abbrev RDG_PCAP (i : Nat) : Nat := 0x140024 + 0x10000 * i
abbrev RDG_CNT_CRC (i : Nat) : Nat := 0x140030 + 0x10000 * i
abbrev RDG_CNT_NAK (i : Nat) : Nat := 0x140034 + 0x10000 * i
abbrev RDG_CNT_DUP (i : Nat) : Nat := 0x140038 + 0x10000 * i
abbrev RDG_CNT_PROTO (i : Nat) : Nat := 0x14003C + 0x10000 * i
abbrev RDG_CNT_CREDIT (i : Nat) : Nat := 0x140040 + 0x10000 * i
abbrev RDG_CNT_REPLAY (i : Nat) : Nat := 0x140044 + 0x10000 * i
abbrev RDG_CNT_RETRAIN (i : Nat) : Nat := 0x140048 + 0x10000 * i
abbrev RDG_CNT_CLR (i : Nat) : Nat := 0x14004C + 0x10000 * i
abbrev RDG_PRBS_ERR (i j : Nat) : Nat := 0x140060 + 0x10000 * i + 0x4 * j
abbrev RDG_PDSN_LO (i : Nat) : Nat := 0x140080 + 0x10000 * i
abbrev RDG_PDSN_HI (i : Nat) : Nat := 0x140084 + 0x10000 * i
abbrev RDG_LISO (i : Nat) : Nat := 0x140088 + 0x10000 * i
abbrev RDG_LOFF (i : Nat) : Nat := 0x14008C + 0x10000 * i
abbrev RDG_LDLY (i : Nat) : Nat := 0x140090 + 0x10000 * i
abbrev RDG_VCFG : Nat := 0x148000
abbrev RDG_ROLE : Nat := 0x148010
abbrev RDG_EPOCH : Nat := 0x148014
abbrev RDG_TSTAT : Nat := 0x148020
abbrev RDG_DIAM : Nat := 0x148028
abbrev RDG_REACH_LO : Nat := 0x148030
abbrev RDG_REACH_HI : Nat := 0x148034
abbrev RDG_HEAD : Nat := 0x148038
abbrev RDG_VCMD_MISS_LO : Nat := 0x148040
abbrev RDG_VCMD_MISS_HI : Nat := 0x148044
abbrev RDG_VCNT_FWD : Nat := 0x148060
abbrev RDG_VCNT_BOUNCE : Nat := 0x148064
abbrev RDG_VCNT_DUP : Nat := 0x148068
abbrev RDG_VCNT_VT_STEP : Nat := 0x14806C
abbrev RDG_VCNT_CLR : Nat := 0x148070
abbrev GEN_CFG : Nat := 0x180000
abbrev GEN_PERIOD : Nat := 0x180004
abbrev GEN_ROWT : Nat := 0x180008
abbrev GEN_ORDER : Nat := 0x18000C
abbrev GEN_GUARD : Nat := 0x180010
abbrev GEN_PHASE : Nat := 0x180014
abbrev GEN_MOVE : Nat := 0x180018
abbrev GEN_FCSET_LO : Nat := 0x18001C
abbrev GEN_FCSET_HI : Nat := 0x180020
abbrev GEN_SOFF (i : Nat) : Nat := 0x180040 + 0x10 * i
abbrev GEN_SDUR (i : Nat) : Nat := 0x180044 + 0x10 * i
abbrev GEN_SSRC (i : Nat) : Nat := 0x180048 + 0x10 * i
abbrev GEN_STAT : Nat := 0x180200
abbrev GEN_LINE : Nat := 0x180204
abbrev GEN_PHERR : Nat := 0x180208
abbrev GEN_FC_LO : Nat := 0x180210
abbrev GEN_FC_HI : Nat := 0x180214
abbrev GEN_VT_LO : Nat := 0x180218
abbrev GEN_VT_HI : Nat := 0x18021C
abbrev GEN_BND_LO : Nat := 0x180220
abbrev GEN_BND_HI : Nat := 0x180224
abbrev GEN_VT_UNC : Nat := 0x180228
abbrev GEN_AONK : Nat := 0x18022C
abbrev GEN_BOFF : Nat := 0x180230
abbrev GEN_DIGEST : Nat := 0x180234
abbrev GEN_SLOT (i : Nat) : Nat := 0x180240 + 0x4 * i
abbrev GEN_CAM_OPEN (i : Nat) : Nat := 0x180280 + 0x8 * i
abbrev GEN_CAM_DUR (i : Nat) : Nat := 0x180284 + 0x8 * i
abbrev GEN_CNT_UNLOCK : Nat := 0x1802C0
abbrev GEN_CNT_SHUT_MISS : Nat := 0x1802C4
abbrev GEN_CNT_SHUT_EXTRA : Nat := 0x1802C8
abbrev GEN_CNT_CLR : Nat := 0x1802CC
abbrev VIEW_CFG (i : Nat) : Nat := 0x1C0000 + 0x1000 * i
abbrev VIEW_DL (i : Nat) : Nat := 0x1C0004 + 0x1000 * i
abbrev VIEW_SLOTSTAT (i : Nat) : Nat := 0x1C0008 + 0x1000 * i
abbrev VIEW_WRECT (i j : Nat) : Nat := 0x1C0040 + 0x1000 * i + 0x10 * j
abbrev VIEW_WSIZE (i j : Nat) : Nat := 0x1C0044 + 0x1000 * i + 0x10 * j
abbrev VIEW_WLAST (i j : Nat) : Nat := 0x1C0048 + 0x1000 * i + 0x10 * j
abbrev VIEW_CNT_MISS (i : Nat) : Nat := 0x1C0080 + 0x1000 * i
abbrev VIEW_CNT_LATE (i : Nat) : Nat := 0x1C0084 + 0x1000 * i
abbrev VIEW_HMISS (i : Nat) : Nat := 0x1C0100 + 0x1000 * i
abbrev VIEW_HSLEEP (i : Nat) : Nat := 0x1C0104 + 0x1000 * i
abbrev VIEW_HTIME (i : Nat) : Nat := 0x1C0108 + 0x1000 * i
abbrev VIEW_HREJ (i : Nat) : Nat := 0x1C010C + 0x1000 * i
abbrev VIEW_HSTAT (i : Nat) : Nat := 0x1C0110 + 0x1000 * i
abbrev VIEW_HAGE (i j : Nat) : Nat := 0x1C0120 + 0x1000 * i + 0x4 * j
abbrev VIEW_ING_CFG : Nat := 0x1C8000
abbrev VIEW_BLAST : Nat := 0x1C8010
abbrev VIEW_CNT_BAD : Nat := 0x1C8020
abbrev VIEW_CNT_STALE : Nat := 0x1C8024
abbrev VIEW_CNT_EARLY : Nat := 0x1C8028
abbrev VIEW_CNT_AFTER_DONE : Nat := 0x1C802C
abbrev VIEW_CNT_NO_RECT : Nat := 0x1C8030
abbrev VIEW_CNT_NO_BUFFER : Nat := 0x1C8034
abbrev VIEW_CNT_ABANDON : Nat := 0x1C8038
abbrev VIEW_CNT_LL_DISCARD : Nat := 0x1C803C
abbrev VIEW_CNT_BLATE : Nat := 0x1C8040
abbrev VIEW_CNT_CLR : Nat := 0x1C8044
abbrev VIEW_HVOL : Nat := 0x1C8060
abbrev VIEW_CNT_VHOLD_RX : Nat := 0x1C8064
abbrev VIEW_CNT_VHOLD_LATE : Nat := 0x1C8068
abbrev VIEW_CNT_PREPEAT : Nat := 0x1C806C
abbrev VIEW_HCNT_CLR : Nat := 0x1C8070
abbrev CLR_DEC (i : Nat) : Nat := 0x200000 + 0x1000 * i
abbrev CLR_GAIN (i : Nat) : Nat := 0x200004 + 0x1000 * i
abbrev CLR_3D (i : Nat) : Nat := 0x200008 + 0x1000 * i
abbrev CLR_ALLOC (i : Nat) : Nat := 0x20000C + 0x1000 * i
abbrev CLR_ASTAT (i : Nat) : Nat := 0x200010 + 0x1000 * i
abbrev CLR_M (i j : Nat) : Nat := 0x200020 + 0x1000 * i + 0x4 * j
abbrev CLR_OFF (i j : Nat) : Nat := 0x200050 + 0x1000 * i + 0x4 * j
abbrev CLR_CNT_DSAT (i : Nat) : Nat := 0x200080 + 0x1000 * i
abbrev CLR_CNT_MCLIP (i : Nat) : Nat := 0x200084 + 0x1000 * i
abbrev CLR_LAST_DSAT (i : Nat) : Nat := 0x200088 + 0x1000 * i
abbrev CLR_LAST_MCLIP (i : Nat) : Nat := 0x20008C + 0x1000 * i
abbrev CLR_CNT_POISON (i : Nat) : Nat := 0x200090 + 0x1000 * i
abbrev CLR_CNT_CLR : Nat := 0x208000
abbrev DMU_PANEL : Nat := 0x240000
abbrev DMU_PREF : Nat := 0x240004
abbrev DMU_DEF : Nat := 0x240010
abbrev DMU_CMCFG : Nat := 0x240014
abbrev DMU_FMCLR : Nat := 0x240018
abbrev DMU_STAT : Nat := 0x240020
abbrev DMU_DSTAT : Nat := 0x240024
abbrev DMU_WSTAT : Nat := 0x240028
abbrev DMU_CRC (i : Nat) : Nat := 0x240040 + 0x4 * i
abbrev DMU_CNT_RSAT : Nat := 0x240060
abbrev DMU_CNT_POISON : Nat := 0x240064
abbrev DMU_CNT_CLR : Nat := 0x240068
abbrev ODV_CFG : Nat := 0x280000
abbrev ODV_BAND (i : Nat) : Nat := 0x280010 + 0x4 * i
abbrev ODV_TEMP : Nat := 0x280040
abbrev ODV_STAT : Nat := 0x280044
abbrev ODV_CNT_SAT : Nat := 0x280060
abbrev ODV_CNT_HINV : Nat := 0x280064
abbrev ODV_CNT_CLR : Nat := 0x280068
abbrev DTH_STAT : Nat := 0x2C0000
abbrev DTH_VCFG (i : Nat) : Nat := 0x2C0100 + 0x10 * i
abbrev DTH_SEQ_LO (i : Nat) : Nat := 0x2C0104 + 0x10 * i
abbrev DTH_SEQ_HI (i : Nat) : Nat := 0x2C0108 + 0x10 * i
abbrev SCN_GEOM : Nat := 0x300000
abbrev SCN_CFG : Nat := 0x300004
abbrev SCN_PRAIL (i : Nat) : Nat := 0x300100 + 0x4 * i
abbrev SCN_PSEQ : Nat := 0x300120
abbrev SCN_PCOL : Nat := 0x300124
abbrev SCN_PROT : Nat := 0x300128
abbrev SCN_PSTAT : Nat := 0x300140
abbrev SCN_CRACK : Nat := 0x300144
abbrev SCN_CNT_EMERG : Nat := 0x300150
abbrev SCN_CNT_CRACK : Nat := 0x300154
abbrev SCN_CNT_CLR : Nat := 0x300158
abbrev BAT_CFG : Nat := 0x340000
abbrev BAT_TMR : Nat := 0x340004
abbrev BAT_CMD : Nat := 0x340010
abbrev BAT_CMDDATA : Nat := 0x340014
abbrev BAT_CMDST : Nat := 0x340018
abbrev BAT_CMDRD : Nat := 0x34001C
abbrev BAT_CNT_ROWCRC (i : Nat) : Nat := 0x340040 + 0x20000 * i
abbrev BAT_CNT_BLKERR (i : Nat) : Nat := 0x340044 + 0x20000 * i
abbrev BAT_CNT_STCRC (i : Nat) : Nat := 0x340048 + 0x20000 * i
abbrev BAT_CNT_RETRAIN (i : Nat) : Nat := 0x34004C + 0x20000 * i
abbrev BAT_CNT_CLR (i : Nat) : Nat := 0x340050 + 0x20000 * i
abbrev BAT_DMAP (i j : Nat) : Nat := 0x340100 + 0x20000 * i + 0x10 * j
abbrev BAT_DSTAT (i j : Nat) : Nat := 0x340104 + 0x20000 * i + 0x10 * j
abbrev LTH_CFG : Nat := 0x380000
abbrev LTH_TIME0 : Nat := 0x380004
abbrev LTH_TIME1 : Nat := 0x380008
abbrev LTH_STAT : Nat := 0x380010
abbrev FST_STAT : Nat := 0x3C0000
abbrev FST_ALLOC : Nat := 0x3C0008
abbrev FST_WALLOC (i j : Nat) : Nat := 0x3C0020 + 0x10 * i + 0x4 * j
abbrev FST_FREE : Nat := 0x3C00C0
abbrev FST_FREE_RUN : Nat := 0x3C00C4
abbrev FST_DEMAND : Nat := 0x3C00C8
abbrev FST_MAP_SEL : Nat := 0x3C00D0
abbrev FST_MAP_ADDR : Nat := 0x3C00D4
abbrev FST_MAP_SIZE : Nat := 0x3C00D8
abbrev FST_MAP_FRAME : Nat := 0x3C00DC
abbrev FST_CNT_CE : Nat := 0x3C00E0
abbrev FST_CNT_UE : Nat := 0x3C00E4
abbrev FST_ERR_ADDR : Nat := 0x3C00E8
abbrev FST_CNT_CLR : Nat := 0x3C00EC
abbrev SWG_MODE0 : Nat := 0x400000
abbrev SWG_MODE1 : Nat := 0x400004
abbrev SWG_CNT_BLK : Nat := 0x400010
abbrev SWG_CNT_LOSSY : Nat := 0x400014
abbrev SWG_CNT_BAD : Nat := 0x400018
abbrev SWG_CNT_EVICT : Nat := 0x40001C
abbrev SWG_CNT_REENC : Nat := 0x400020
abbrev SWG_CNT_CLR : Nat := 0x400024
abbrev SWG_QMAX : Nat := 0x400030
abbrev SWG_BIST : Nat := 0x400040
abbrev THC_ESTAT (i : Nat) : Nat := 0x440000 + 0x20000 * i
abbrev THC_CNT_JOBS (i : Nat) : Nat := 0x440010 + 0x20000 * i
abbrev THC_CNT_STOP (i : Nat) : Nat := 0x440014 + 0x20000 * i
abbrev THC_CNT_CHECK (i : Nat) : Nat := 0x440018 + 0x20000 * i
abbrev THC_CNT_DATA (i : Nat) : Nat := 0x44001C + 0x20000 * i
abbrev THC_CNT_CHUNK (i : Nat) : Nat := 0x440020 + 0x20000 * i
abbrev THC_CNT_CLR (i : Nat) : Nat := 0x440024 + 0x20000 * i
abbrev THC_BIST (i : Nat) : Nat := 0x440030 + 0x20000 * i
abbrev THC_CFG : Nat := 0x44F000
abbrev MAG_CFG (i : Nat) : Nat := 0x480000 + 0x10000 * i
abbrev MAG_CTL (i : Nat) : Nat := 0x480004 + 0x10000 * i
abbrev MAG_PSTAT (i : Nat) : Nat := 0x480010 + 0x10000 * i
abbrev MAG_NSZE_LO (i : Nat) : Nat := 0x480014 + 0x10000 * i
abbrev MAG_NSZE_HI (i : Nat) : Nat := 0x480018 + 0x10000 * i
abbrev MAG_FREE (i : Nat) : Nat := 0x48001C + 0x10000 * i
abbrev MAG_TEMP (i : Nat) : Nat := 0x480020 + 0x10000 * i
abbrev MAG_VOLID_LO (i : Nat) : Nat := 0x480024 + 0x10000 * i
abbrev MAG_VOLID_HI (i : Nat) : Nat := 0x480028 + 0x10000 * i
abbrev MAG_GEN (i : Nat) : Nat := 0x48002C + 0x10000 * i
abbrev MAG_QSTAT (i : Nat) : Nat := 0x480030 + 0x10000 * i
abbrev MAG_CNT_RDERR (i : Nat) : Nat := 0x480040 + 0x10000 * i
abbrev MAG_CNT_WRERR (i : Nat) : Nat := 0x480044 + 0x10000 * i
abbrev MAG_CNT_TIMEOUT (i : Nat) : Nat := 0x480048 + 0x10000 * i
abbrev MAG_CNT_LATE (i : Nat) : Nat := 0x48004C + 0x10000 * i
abbrev MAG_CNT_CLR (i : Nat) : Nat := 0x480050 + 0x10000 * i
abbrev MAG_PLAY (i : Nat) : Nat := 0x48F000 + 0x8 * i
abbrev MAG_PLAY_POS (i : Nat) : Nat := 0x48F004 + 0x8 * i
abbrev BNK_CFG : Nat := 0x4C0000
abbrev BNK_ALLOC : Nat := 0x4C0004
abbrev BNK_SCRUB : Nat := 0x4C0008
abbrev BNK_POOL : Nat := 0x4C000C
abbrev BNK_OWN (i : Nat) : Nat := 0x4C0010 + 0x4 * i
abbrev BNK_PSTAT (i : Nat) : Nat := 0x4C0050 + 0x4 * i
abbrev BNK_CNT_CE : Nat := 0x4C0080
abbrev BNK_CNT_UE : Nat := 0x4C0084
abbrev BNK_CNT_PWCE : Nat := 0x4C0088
abbrev BNK_CNT_PWPOISON : Nat := 0x4C008C
abbrev BNK_UE_ADDR : Nat := 0x4C0090
abbrev BNK_CNT_CLR : Nat := 0x4C0094
abbrev BNK_CNT_CONF (i : Nat) : Nat := 0x4C00C0 + 0x4 * i
abbrev BNK_CONF_CLR : Nat := 0x4C0100
abbrev THM_LIMIT : Nat := 0x500000
abbrev THM_RLIM : Nat := 0x500004
abbrev THM_STEP : Nat := 0x500008
abbrev THM_PAUSE0 : Nat := 0x50000C
abbrev THM_PAUSE1 : Nat := 0x500010
abbrev THM_ODT : Nat := 0x500014
abbrev THM_ODT_HOST : Nat := 0x500018
abbrev THM_XTAL : Nat := 0x50001C
abbrev THM_BAND : Nat := 0x500020
abbrev THM_STAT : Nat := 0x500100
abbrev THM_SUSP : Nat := 0x500104
abbrev THM_FAILED : Nat := 0x500108
abbrev THM_ODT_STAT : Nat := 0x500110
abbrev THM_SENS (i : Nat) : Nat := 0x500200 + 0x4 * i
abbrev THM_CNT_WARN : Nat := 0x500300
abbrev THM_CNT_STEP : Nat := 0x500304
abbrev THM_CNT_SUSP : Nat := 0x500308
abbrev THM_CNT_CLR : Nat := 0x50030C
abbrev CAL_UTS (i : Nat) : Nat := 0x540000 + 0x4 * i
abbrev CAL_UADC : Nat := 0x540040
abbrev CAL_UDAC (i : Nat) : Nat := 0x540080 + 0x4 * i
abbrev CAL_RSTAT : Nat := 0x540100
abbrev CAL_RADC : Nat := 0x540104
abbrev CAL_RTB : Nat := 0x540108
abbrev CAL_RTB_T : Nat := 0x54010C
abbrev CAL_EADC : Nat := 0x540110
abbrev CAL_RDAC (i : Nat) : Nat := 0x540140 + 0x4 * i
abbrev CAL_FSENS_A (i : Nat) : Nat := 0x541000 + 0x8 * i
abbrev CAL_FSENS_B (i : Nat) : Nat := 0x541004 + 0x8 * i
abbrev CAL_FADC_GAIN : Nat := 0x5410E0
abbrev CAL_FADC_OFF : Nat := 0x5410E4
abbrev CAL_FRREF : Nat := 0x5410E8
abbrev CAL_FADC_TC : Nat := 0x5410EC
abbrev CAL_FDSN_LO : Nat := 0x5410F0
abbrev CAL_FDSN_HI : Nat := 0x5410F4
abbrev CAL_FCHK : Nat := 0x5410F8
abbrev EVT_CFG : Nat := 0x580000
abbrev EVT_COAL : Nat := 0x580004
abbrev EVT_RBASE_LO : Nat := 0x580008
abbrev EVT_RBASE_HI : Nat := 0x58000C
abbrev EVT_RHEAD : Nat := 0x580010
abbrev EVT_RPOS : Nat := 0x580014
abbrev EVT_STAT : Nat := 0x580018
abbrev EVT_CNT_REC : Nat := 0x580020
abbrev EVT_CNT_LOST : Nat := 0x580024
abbrev EVT_CNT_CLR : Nat := 0x580028
abbrev EVT_ALM_PEND_LO : Nat := 0x580100
abbrev EVT_ALM_PEND_HI : Nat := 0x580104
abbrev EVT_ALM_BOOT : Nat := 0x580108
abbrev EVT_TRC : Nat := 0x580200
abbrev EVT_TRC_TRIG : Nat := 0x580204
abbrev EVT_TRC_POS : Nat := 0x580208
abbrev EVT_TRC_MARK : Nat := 0x58020C
abbrev EVT_TRC_DROP : Nat := 0x580210
abbrev EVT_ALM_CODE (i : Nat) : Nat := 0x581000 + 0x10 * i
abbrev EVT_ALM_AON (i : Nat) : Nat := 0x581004 + 0x10 * i
abbrev EVT_ALM_INFO (i : Nat) : Nat := 0x581008 + 0x10 * i
abbrev WIN_CFG : Nat := 0x5C0000
abbrev WIN_STAT : Nat := 0x5C0010
abbrev WIN_CNT_ACC : Nat := 0x5C0020
abbrev WIN_CNT_REFUSED : Nat := 0x5C0024
abbrev WIN_CNT_DROP : Nat := 0x5C0028
abbrev WIN_CNT_CLR : Nat := 0x5C002C
abbrev TMK_STAT : Nat := 0x600000
abbrev TMK_DOSE_CFG : Nat := 0x600010
abbrev TMK_DOSE_CLR : Nat := 0x600014

end Sys2Proof.Reg

namespace Sys2Proof.F

abbrev GBL_ID_STEP_MINOR : Fld := ⟨27, 24⟩
abbrev GBL_ID_STEP_MAJOR : Fld := ⟨23, 20⟩
abbrev GBL_ID_VARIANT : Fld := ⟨19, 16⟩
abbrev GBL_ID_PART : Fld := ⟨15, 0⟩
abbrev GBL_STRAP_HOST_SPEED : Fld := ⟨7, 7⟩
abbrev GBL_STRAP_TIMING_SRC : Fld := ⟨6, 6⟩
abbrev GBL_STRAP_PAIR_LINK : Fld := ⟨5, 4⟩
abbrev GBL_STRAP_PAIR_REG : Fld := ⟨3, 3⟩
abbrev GBL_STRAP_AVS_MODE : Fld := ⟨2, 1⟩
abbrev GBL_STRAP_HOST_EN : Fld := ⟨0, 0⟩
abbrev GBL_READY_WPORT : Fld := ⟨17, 17⟩
abbrev GBL_READY_PLATE : Fld := ⟨16, 16⟩
abbrev GBL_READY_MAG : Fld := ⟨15, 15⟩
abbrev GBL_READY_TH1 : Fld := ⟨14, 14⟩
abbrev GBL_READY_TH0 : Fld := ⟨13, 13⟩
abbrev GBL_READY_SWG : Fld := ⟨12, 12⟩
abbrev GBL_READY_RDG : Fld := ⟨11, 11⟩
abbrev GBL_READY_RAF : Fld := ⟨10, 10⟩
abbrev GBL_READY_SCAN : Fld := ⟨9, 9⟩
abbrev GBL_READY_PIPE : Fld := ⟨8, 8⟩
abbrev GBL_READY_TBASE : Fld := ⟨7, 7⟩
abbrev GBL_READY_FST : Fld := ⟨6, 6⟩
abbrev GBL_READY_BNK : Fld := ⟨5, 5⟩
abbrev GBL_READY_THM : Fld := ⟨4, 4⟩
abbrev GBL_READY_AVS : Fld := ⟨3, 3⟩
abbrev GBL_READY_TMK : Fld := ⟨2, 2⟩
abbrev GBL_READY_CAL : Fld := ⟨1, 1⟩
abbrev GBL_READY_HST : Fld := ⟨0, 0⟩
abbrev GBL_RESET_KEY : Fld := ⟨31, 16⟩
abbrev GBL_RESET_GO : Fld := ⟨0, 0⟩
abbrev GBL_RESET_CAUSE_COUNT : Fld := ⟨31, 24⟩
abbrev GBL_RESET_CAUSE_STOP_STEP : Fld := ⟨23, 20⟩
abbrev GBL_RESET_CAUSE_LAST : Fld := ⟨19, 16⟩
abbrev GBL_RESET_CAUSE_PANEL_TO : Fld := ⟨11, 11⟩
abbrev GBL_RESET_CAUSE_FUSE : Fld := ⟨10, 10⟩
abbrev GBL_RESET_CAUSE_RAIL : Fld := ⟨9, 9⟩
abbrev GBL_RESET_CAUSE_REFCLK : Fld := ⟨8, 8⟩
abbrev GBL_RESET_CAUSE_STRAP : Fld := ⟨7, 7⟩
abbrev GBL_RESET_CAUSE_THERMAL : Fld := ⟨6, 6⟩
abbrev GBL_RESET_CAUSE_PERST : Fld := ⟨5, 5⟩
abbrev GBL_RESET_CAUSE_VOLUME : Fld := ⟨4, 4⟩
abbrev GBL_RESET_CAUSE_SOFT : Fld := ⟨3, 3⟩
abbrev GBL_RESET_CAUSE_WARM : Fld := ⟨2, 2⟩
abbrev GBL_RESET_CAUSE_PORST : Fld := ⟨1, 1⟩
abbrev GBL_RESET_CAUSE_SUPPLY : Fld := ⟨0, 0⟩
abbrev STG_CMD_SLOT : Fld := ⟨10, 8⟩
abbrev STG_CMD_OP : Fld := ⟨2, 0⟩
abbrev STG_RSTAT_PEND : Fld := ⟨9, 9⟩
abbrev STG_RSTAT_BUSY : Fld := ⟨8, 8⟩
abbrev STG_RSTAT_STATUS : Fld := ⟨7, 0⟩
abbrev STG_RTXID_TXID : Fld := ⟨31, 0⟩
abbrev STG_MASK_LO_GROUPS_LO : Fld := ⟨31, 0⟩
abbrev STG_MASK_HI_GROUPS_HI : Fld := ⟨31, 0⟩
abbrev STG_GATE_LO_AT_LO : Fld := ⟨31, 0⟩
abbrev STG_GATE_HI_ARM : Fld := ⟨31, 31⟩
abbrev STG_GATE_HI_AT_HI : Fld := ⟨15, 0⟩
abbrev STG_HELD_LO_HELD : Fld := ⟨31, 0⟩
abbrev STG_HELD_HI_HELD : Fld := ⟨31, 0⟩
abbrev STG_IDLE_PEND_COUNT : Fld := ⟨15, 0⟩
abbrev STG_FAIL_ID_TXID : Fld := ⟨31, 0⟩
abbrev STG_FAIL_WHERE_OFFSET : Fld := ⟨31, 0⟩
abbrev STG_SLOT_ID_TXID : Fld := ⟨31, 0⟩
abbrev STG_SLOT_STATE_CLIENT : Fld := ⟨15, 8⟩
abbrev STG_SLOT_STATE_STATE : Fld := ⟨2, 0⟩
abbrev STG_SLOT_MASK_LO_GROUPS : Fld := ⟨31, 0⟩
abbrev STG_SLOT_MASK_HI_GROUPS : Fld := ⟨31, 0⟩
abbrev PWR_STATE_WOKE_SRC : Fld := ⟨14, 12⟩
abbrev PWR_STATE_REFUSE : Fld := ⟨11, 8⟩
abbrev PWR_STATE_TRANS : Fld := ⟨7, 7⟩
abbrev PWR_STATE_TARGET : Fld := ⟨6, 4⟩
abbrev PWR_STATE_CUR : Fld := ⟨2, 0⟩
abbrev PWR_REQ_STATE : Fld := ⟨3, 0⟩
abbrev PWR_DORM_TIMER_S : Fld := ⟨31, 8⟩
abbrev PWR_DORM_FS_KEEP : Fld := ⟨4, 4⟩
abbrev PWR_DORM_BNK_RET : Fld := ⟨3, 3⟩
abbrev PWR_DORM_WAKE_RIDGE : Fld := ⟨2, 2⟩
abbrev PWR_DORM_WAKE_PERST : Fld := ⟨1, 1⟩
abbrev PWR_DORM_WAKE_TIMER : Fld := ⟨0, 0⟩
abbrev PWR_DOM_ON0_ON : Fld := ⟨31, 0⟩
abbrev PWR_DOM_ON1_ON : Fld := ⟨1, 0⟩
abbrev PWR_LOCKOFF_LOCK_HI : Fld := ⟨22, 20⟩
abbrev PWR_LOCKOFF_LOCK_LO : Fld := ⟨14, 3⟩
abbrev PWR_AUTO_THC_IDLE : Fld := ⟨31, 16⟩
abbrev PWR_AUTO_HEARTH_RAF_OFF : Fld := ⟨3, 3⟩
abbrev PWR_AUTO_BNK_OFF : Fld := ⟨2, 2⟩
abbrev PWR_AUTO_SWG_OFF : Fld := ⟨1, 1⟩
abbrev PWR_AUTO_LINK_OFF : Fld := ⟨0, 0⟩
abbrev PWR_OP_VCONF : Fld := ⟨23, 16⟩
abbrev PWR_OP_REQ : Fld := ⟨13, 12⟩
abbrev PWR_OP_LIMIT : Fld := ⟨9, 8⟩
abbrev PWR_OP_CUR : Fld := ⟨5, 4⟩
abbrev PWR_VSET_OP3 : Fld := ⟨31, 24⟩
abbrev PWR_VSET_OP2 : Fld := ⟨23, 16⟩
abbrev PWR_VSET_OP1 : Fld := ⟨15, 8⟩
abbrev PWR_VSET_OP0 : Fld := ⟨7, 0⟩
abbrev PWR_AVS_CFG_MFR_MASK : Fld := ⟨20, 16⟩
abbrev PWR_AVS_CFG_RETRY : Fld := ⟨15, 12⟩
abbrev PWR_AVS_CFG_TIMEOUT : Fld := ⟨7, 0⟩
abbrev PWR_AVS_FLT_RELEASE : Fld := ⟨8, 8⟩
abbrev PWR_AVS_FLT_PAIR_LOST : Fld := ⟨5, 5⟩
abbrev PWR_AVS_FLT_TIMEOUT : Fld := ⟨4, 4⟩
abbrev PWR_AVS_FLT_MFR : Fld := ⟨3, 3⟩
abbrev PWR_AVS_FLT_OTW : Fld := ⟨2, 2⟩
abbrev PWR_AVS_FLT_UVW : Fld := ⟨1, 1⟩
abbrev PWR_AVS_FLT_OCW : Fld := ⟨0, 0⟩
abbrev HST_RLY_SEL_EN : Fld := ⟨31, 31⟩
abbrev HST_RLY_SEL_SPACE : Fld := ⟨30, 30⟩
abbrev HST_RLY_SEL_BASE : Fld := ⟨12, 8⟩
abbrev HST_RLY_SEL_ROLE : Fld := ⟨5, 0⟩
abbrev HST_MSIX_CTL_FN_MASK : Fld := ⟨1, 1⟩
abbrev HST_MSIX_CTL_ENABLE : Fld := ⟨0, 0⟩
abbrev HST_CCFG_RDY_WAIT : Fld := ⟨31, 24⟩
abbrev HST_CCFG_FAIL_FAST : Fld := ⟨23, 23⟩
abbrev HST_CCFG_PRIV : Fld := ⟨22, 22⟩
abbrev HST_CCFG_WEIGHT : Fld := ⟨21, 20⟩
abbrev HST_CCFG_CQ_LOG2 : Fld := ⟨19, 16⟩
abbrev HST_CCFG_SQ_LOG2 : Fld := ⟨15, 12⟩
abbrev HST_CCFG_IRQ_EN : Fld := ⟨1, 1⟩
abbrev HST_CCFG_EN : Fld := ⟨0, 0⟩
abbrev HST_CIMOD_TIME_US : Fld := ⟨31, 16⟩
abbrev HST_CIMOD_COUNT : Fld := ⟨7, 0⟩
abbrev HST_SQB_LO_BASE : Fld := ⟨31, 12⟩
abbrev HST_SQB_HI_BASE : Fld := ⟨31, 0⟩
abbrev HST_CQB_LO_BASE : Fld := ⟨31, 12⟩
abbrev HST_CQB_HI_BASE : Fld := ⟨31, 0⟩
abbrev HST_CSTAT_ERR : Fld := ⟨15, 8⟩
abbrev HST_CSTAT_TXN : Fld := ⟨3, 3⟩
abbrev HST_CSTAT_QUIESCED : Fld := ⟨2, 2⟩
abbrev HST_CSTAT_HALT : Fld := ⟨1, 1⟩
abbrev HST_CSTAT_RUN : Fld := ⟨0, 0⟩
abbrev HST_CPOS_CQ_TAIL : Fld := ⟨31, 16⟩
abbrev HST_CPOS_SQ_HEAD : Fld := ⟨15, 0⟩
abbrev RAF_PCFG_RATE : Fld := ⟨11, 8⟩
abbrev RAF_PCFG_MIN_WIDTH : Fld := ⟨7, 6⟩
abbrev RAF_PCFG_LANE_EN : Fld := ⟨5, 2⟩
abbrev RAF_PCFG_FAR_LOOP : Fld := ⟨1, 1⟩
abbrev RAF_PCFG_EN : Fld := ⟨0, 0⟩
abbrev RAF_TMR_RCV_TO : Fld := ⟨31, 24⟩
abbrev RAF_TMR_TRAIN_TO : Fld := ⟨23, 16⟩
abbrev RAF_TMR_CAP_TO : Fld := ⟨15, 8⟩
abbrev RAF_TMR_NAK_TO : Fld := ⟨7, 0⟩
abbrev RAF_LOOP_MODE : Fld := ⟨1, 0⟩
abbrev RAF_PRBS_INJ_N : Fld := ⟨23, 16⟩
abbrev RAF_PRBS_CHK_EN : Fld := ⟨3, 3⟩
abbrev RAF_PRBS_GEN_EN : Fld := ⟨2, 2⟩
abbrev RAF_PRBS_PAT : Fld := ⟨1, 0⟩
abbrev RAF_PST_STATE : Fld := ⟨31, 28⟩
abbrev RAF_PST_WIDTH : Fld := ⟨27, 26⟩
abbrev RAF_PST_LOCKED : Fld := ⟨23, 20⟩
abbrev RAF_PST_POL_INV : Fld := ⟨19, 16⟩
abbrev RAF_PST_LANE_MAP : Fld := ⟨15, 8⟩
abbrev RAF_PST_LAST_FAIL : Fld := ⟨7, 0⟩
abbrev RAF_LLST_RX_NEXT : Fld := ⟨27, 16⟩
abbrev RAF_LLST_TX_NEXT : Fld := ⟨11, 0⟩
abbrev RAF_LLCR_CREDIT_GRANT : Fld := ⟨27, 16⟩
abbrev RAF_LLCR_RX_FILL : Fld := ⟨15, 8⟩
abbrev RAF_LLCR_TX_OUT : Fld := ⟨7, 0⟩
abbrev RAF_PSRC_IDENT : Fld := ⟨31, 0⟩
abbrev RAF_PCAP_NEXT_RX : Fld := ⟨31, 20⟩
abbrev RAF_PCAP_PORT : Fld := ⟨19, 16⟩
abbrev RAF_PCAP_REPLAY_DEPTH : Fld := ⟨15, 0⟩
abbrev RAF_CNT_CRC_COUNT : Fld := ⟨31, 0⟩
abbrev RAF_CNT_NAK_COUNT : Fld := ⟨31, 0⟩
abbrev RAF_CNT_DUP_COUNT : Fld := ⟨31, 0⟩
abbrev RAF_CNT_PROTO_COUNT : Fld := ⟨31, 0⟩
abbrev RAF_CNT_CREDIT_COUNT : Fld := ⟨31, 0⟩
abbrev RAF_CNT_REPLAY_COUNT : Fld := ⟨31, 0⟩
abbrev RAF_CNT_RETRAIN_COUNT : Fld := ⟨31, 0⟩
abbrev RAF_CNT_CLR_CLR : Fld := ⟨6, 0⟩
abbrev RAF_PRBS_ERR_COUNT : Fld := ⟨31, 0⟩
abbrev RDG_LCFG_RATE : Fld := ⟨11, 8⟩
abbrev RDG_LCFG_MIN_WIDTH : Fld := ⟨7, 6⟩
abbrev RDG_LCFG_LANE_EN : Fld := ⟨3, 2⟩
abbrev RDG_LCFG_FAR_LOOP : Fld := ⟨1, 1⟩
abbrev RDG_LCFG_EN : Fld := ⟨0, 0⟩
abbrev RDG_LTMR_RCV_TO : Fld := ⟨31, 24⟩
abbrev RDG_LTMR_TRAIN_TO : Fld := ⟨23, 16⟩
abbrev RDG_LTMR_CAP_TO : Fld := ⟨15, 8⟩
abbrev RDG_LTMR_NAK_TO : Fld := ⟨7, 0⟩
abbrev RDG_LOOP_MODE : Fld := ⟨1, 0⟩
abbrev RDG_PRBS_INJ_N : Fld := ⟨23, 16⟩
abbrev RDG_PRBS_CHK_EN : Fld := ⟨3, 3⟩
abbrev RDG_PRBS_GEN_EN : Fld := ⟨2, 2⟩
abbrev RDG_PRBS_PAT : Fld := ⟨1, 0⟩
abbrev RDG_PST_STATE : Fld := ⟨31, 28⟩
abbrev RDG_PST_WIDTH : Fld := ⟨27, 26⟩
abbrev RDG_PST_LOCKED : Fld := ⟨21, 20⟩
abbrev RDG_PST_POL_INV : Fld := ⟨17, 16⟩
abbrev RDG_PST_LANE_MAP : Fld := ⟨9, 8⟩
abbrev RDG_PST_LAST_FAIL : Fld := ⟨7, 0⟩
abbrev RDG_LLST_RX_NEXT : Fld := ⟨27, 16⟩
abbrev RDG_LLST_TX_NEXT : Fld := ⟨11, 0⟩
abbrev RDG_LLCR_CREDIT_GRANT : Fld := ⟨27, 16⟩
abbrev RDG_LLCR_RX_FILL : Fld := ⟨15, 8⟩
abbrev RDG_LLCR_TX_OUT : Fld := ⟨7, 0⟩
abbrev RDG_PSRC_IDENT : Fld := ⟨31, 0⟩
abbrev RDG_PCAP_NEXT_RX : Fld := ⟨31, 20⟩
abbrev RDG_PCAP_PORT : Fld := ⟨19, 16⟩
abbrev RDG_PCAP_REPLAY_DEPTH : Fld := ⟨15, 0⟩
abbrev RDG_CNT_CRC_COUNT : Fld := ⟨31, 0⟩
abbrev RDG_CNT_NAK_COUNT : Fld := ⟨31, 0⟩
abbrev RDG_CNT_DUP_COUNT : Fld := ⟨31, 0⟩
abbrev RDG_CNT_PROTO_COUNT : Fld := ⟨31, 0⟩
abbrev RDG_CNT_CREDIT_COUNT : Fld := ⟨31, 0⟩
abbrev RDG_CNT_REPLAY_COUNT : Fld := ⟨31, 0⟩
abbrev RDG_CNT_RETRAIN_COUNT : Fld := ⟨31, 0⟩
abbrev RDG_CNT_CLR_CLR : Fld := ⟨6, 0⟩
abbrev RDG_PRBS_ERR_COUNT : Fld := ⟨31, 0⟩
abbrev RDG_PDSN_LO_DSN : Fld := ⟨31, 0⟩
abbrev RDG_PDSN_HI_DSN : Fld := ⟨31, 0⟩
abbrev RDG_LISO_PARENT : Fld := ⟨2, 2⟩
abbrev RDG_LISO_ISO : Fld := ⟨1, 0⟩
abbrev RDG_LOFF_E : Fld := ⟨31, 0⟩
abbrev RDG_LDLY_D : Fld := ⟨15, 0⟩
abbrev RDG_VCFG_VOLUME : Fld := ⟨31, 16⟩
abbrev RDG_VCFG_ANN : Fld := ⟨7, 0⟩
abbrev RDG_ROLE_VALID : Fld := ⟨31, 31⟩
abbrev RDG_ROLE_HEAD : Fld := ⟨30, 30⟩
abbrev RDG_ROLE_ROLE : Fld := ⟨29, 24⟩
abbrev RDG_ROLE_COL : Fld := ⟨23, 18⟩
abbrev RDG_ROLE_ROW : Fld := ⟨17, 12⟩
abbrev RDG_ROLE_MIXED : Fld := ⟨0, 0⟩
abbrev RDG_EPOCH_EPOCH : Fld := ⟨31, 0⟩
abbrev RDG_TSTAT_TS_LOST : Fld := ⟨31, 31⟩
abbrev RDG_TSTAT_ELECTED : Fld := ⟨30, 30⟩
abbrev RDG_TSTAT_CAND : Fld := ⟨29, 29⟩
abbrev RDG_TSTAT_TS_ROLE : Fld := ⟨21, 16⟩
abbrev RDG_TSTAT_HOPS : Fld := ⟨13, 8⟩
abbrev RDG_TSTAT_PARENT : Fld := ⟨2, 0⟩
abbrev RDG_DIAM_ECC : Fld := ⟨15, 8⟩
abbrev RDG_DIAM_DIAM : Fld := ⟨7, 0⟩
abbrev RDG_REACH_LO_REACH : Fld := ⟨31, 0⟩
abbrev RDG_REACH_HI_REACH : Fld := ⟨31, 0⟩
abbrev RDG_HEAD_VALID : Fld := ⟨31, 31⟩
abbrev RDG_HEAD_ROLE : Fld := ⟨29, 24⟩
abbrev RDG_VCMD_MISS_LO_MISS : Fld := ⟨31, 0⟩
abbrev RDG_VCMD_MISS_HI_MISS : Fld := ⟨31, 0⟩
abbrev RDG_VCNT_FWD_COUNT : Fld := ⟨31, 0⟩
abbrev RDG_VCNT_BOUNCE_COUNT : Fld := ⟨31, 0⟩
abbrev RDG_VCNT_DUP_COUNT : Fld := ⟨31, 0⟩
abbrev RDG_VCNT_VT_STEP_COUNT : Fld := ⟨31, 0⟩
abbrev RDG_VCNT_CLR_CLR : Fld := ⟨3, 0⟩
abbrev GEN_CFG_MULT : Fld := ⟨11, 8⟩
abbrev GEN_CFG_FMT : Fld := ⟨5, 4⟩
abbrev GEN_CFG_RELOCK : Fld := ⟨3, 3⟩
abbrev GEN_CFG_PLACE : Fld := ⟨2, 2⟩
abbrev GEN_CFG_SRC : Fld := ⟨1, 0⟩
abbrev GEN_PERIOD_PERIOD : Fld := ⟨31, 0⟩
abbrev GEN_ROWT_EMIT : Fld := ⟨25, 16⟩
abbrev GEN_ROWT_ROWT : Fld := ⟨15, 0⟩
abbrev GEN_ORDER_SLOT7 : Fld := ⟨31, 28⟩
abbrev GEN_ORDER_SLOT6 : Fld := ⟨27, 24⟩
abbrev GEN_ORDER_SLOT5 : Fld := ⟨23, 20⟩
abbrev GEN_ORDER_SLOT4 : Fld := ⟨19, 16⟩
abbrev GEN_ORDER_SLOT3 : Fld := ⟨15, 12⟩
abbrev GEN_ORDER_SLOT2 : Fld := ⟨11, 8⟩
abbrev GEN_ORDER_SLOT1 : Fld := ⟨7, 4⟩
abbrev GEN_ORDER_SLOT0 : Fld := ⟨3, 0⟩
abbrev GEN_GUARD_GUARD : Fld := ⟨23, 0⟩
abbrev GEN_PHASE_PHASE : Fld := ⟨31, 0⟩
abbrev GEN_MOVE_MOVE_MIN : Fld := ⟨23, 0⟩
abbrev GEN_FCSET_LO_VAL_LO : Fld := ⟨31, 0⟩
abbrev GEN_FCSET_HI_LOAD : Fld := ⟨31, 31⟩
abbrev GEN_FCSET_HI_VAL_HI : Fld := ⟨15, 0⟩
abbrev GEN_SOFF_OPEN : Fld := ⟨31, 0⟩
abbrev GEN_SDUR_DUR : Fld := ⟨31, 0⟩
abbrev GEN_SSRC_AVG : Fld := ⟨13, 12⟩
abbrev GEN_SSRC_POL : Fld := ⟨8, 8⟩
abbrev GEN_SSRC_INPUT : Fld := ⟨6, 4⟩
abbrev GEN_SSRC_MEAS : Fld := ⟨0, 0⟩
abbrev GEN_STAT_CAM_VALID : Fld := ⟨31, 24⟩
abbrev GEN_STAT_NSLOT : Fld := ⟨23, 20⟩
abbrev GEN_STAT_DIFF : Fld := ⟨12, 12⟩
abbrev GEN_STAT_MEAS_HOLD : Fld := ⟨11, 11⟩
abbrev GEN_STAT_DELAYED : Fld := ⟨10, 10⟩
abbrev GEN_STAT_ALIGNED : Fld := ⟨9, 9⟩
abbrev GEN_STAT_FMT_DET : Fld := ⟨6, 4⟩
abbrev GEN_STAT_STATE : Fld := ⟨3, 0⟩
abbrev GEN_LINE_H : Fld := ⟨31, 12⟩
abbrev GEN_LINE_LINES : Fld := ⟨11, 0⟩
abbrev GEN_PHERR_ERR : Fld := ⟨31, 0⟩
abbrev GEN_FC_LO_V : Fld := ⟨31, 0⟩
abbrev GEN_FC_HI_V : Fld := ⟨31, 0⟩
abbrev GEN_VT_LO_V : Fld := ⟨31, 0⟩
abbrev GEN_VT_HI_V : Fld := ⟨31, 0⟩
abbrev GEN_BND_LO_V : Fld := ⟨31, 0⟩
abbrev GEN_BND_HI_V : Fld := ⟨31, 0⟩
abbrev GEN_VT_UNC_V : Fld := ⟨31, 0⟩
abbrev GEN_AONK_V : Fld := ⟨31, 0⟩
abbrev GEN_BOFF_V : Fld := ⟨25, 0⟩
abbrev GEN_DIGEST_V : Fld := ⟨31, 0⟩
abbrev GEN_SLOT_VIEW : Fld := ⟨31, 28⟩
abbrev GEN_SLOT_DELTA : Fld := ⟨25, 0⟩
abbrev GEN_CAM_OPEN_V : Fld := ⟨31, 0⟩
abbrev GEN_CAM_DUR_V : Fld := ⟨31, 0⟩
abbrev GEN_CNT_UNLOCK_COUNT : Fld := ⟨31, 0⟩
abbrev GEN_CNT_SHUT_MISS_COUNT : Fld := ⟨31, 0⟩
abbrev GEN_CNT_SHUT_EXTRA_COUNT : Fld := ⟨31, 0⟩
abbrev GEN_CNT_CLR_CLR : Fld := ⟨2, 0⟩
abbrev VIEW_CFG_WIN_EN : Fld := ⟨11, 8⟩
abbrev VIEW_CFG_LINE_LOCK : Fld := ⟨4, 4⟩
abbrev VIEW_CFG_EN : Fld := ⟨0, 0⟩
abbrev VIEW_DL_LEAD : Fld := ⟨7, 0⟩
abbrev VIEW_SLOTSTAT_FRAME_LO : Fld := ⟨31, 16⟩
abbrev VIEW_SLOTSTAT_W3 : Fld := ⟨9, 8⟩
abbrev VIEW_SLOTSTAT_W2 : Fld := ⟨7, 6⟩
abbrev VIEW_SLOTSTAT_W1 : Fld := ⟨5, 4⟩
abbrev VIEW_SLOTSTAT_W0 : Fld := ⟨3, 2⟩
abbrev VIEW_SLOTSTAT_BASE : Fld := ⟨1, 0⟩
abbrev VIEW_WRECT_X0 : Fld := ⟨31, 16⟩
abbrev VIEW_WRECT_Y0 : Fld := ⟨15, 0⟩
abbrev VIEW_WSIZE_W : Fld := ⟨31, 16⟩
abbrev VIEW_WSIZE_H : Fld := ⟨15, 0⟩
abbrev VIEW_WLAST_FRAME : Fld := ⟨31, 0⟩
abbrev VIEW_CNT_MISS_COUNT : Fld := ⟨31, 0⟩
abbrev VIEW_CNT_LATE_COUNT : Fld := ⟨31, 0⟩
abbrev VIEW_HMISS_W_C2 : Fld := ⟨13, 12⟩
abbrev VIEW_HMISS_W_C1 : Fld := ⟨11, 10⟩
abbrev VIEW_HMISS_W_C0 : Fld := ⟨9, 8⟩
abbrev VIEW_HMISS_B_C2 : Fld := ⟨5, 4⟩
abbrev VIEW_HMISS_B_C1 : Fld := ⟨3, 2⟩
abbrev VIEW_HMISS_B_C0 : Fld := ⟨1, 0⟩
abbrev VIEW_HSLEEP_W_C2 : Fld := ⟨13, 12⟩
abbrev VIEW_HSLEEP_W_C1 : Fld := ⟨11, 10⟩
abbrev VIEW_HSLEEP_W_C0 : Fld := ⟨9, 8⟩
abbrev VIEW_HSLEEP_B_C2 : Fld := ⟨5, 4⟩
abbrev VIEW_HSLEEP_B_C1 : Fld := ⟨3, 2⟩
abbrev VIEW_HSLEEP_B_C0 : Fld := ⟨1, 0⟩
abbrev VIEW_HTIME_HOLD_MAX : Fld := ⟨31, 16⟩
abbrev VIEW_HTIME_FADE : Fld := ⟨15, 8⟩
abbrev VIEW_HTIME_SILENT : Fld := ⟨7, 0⟩
abbrev VIEW_HREJ_REJOIN : Fld := ⟨7, 0⟩
abbrev VIEW_HSTAT_VH : Fld := ⟨24, 24⟩
abbrev VIEW_HSTAT_REJ : Fld := ⟨20, 16⟩
abbrev VIEW_HSTAT_SUBST : Fld := ⟨12, 8⟩
abbrev VIEW_HSTAT_ASLEEP : Fld := ⟨4, 0⟩
abbrev VIEW_HAGE_CHOICE : Fld := ⟨17, 16⟩
abbrev VIEW_HAGE_AGE : Fld := ⟨15, 0⟩
abbrev VIEW_ING_CFG_LATE_MSG : Fld := ⟨1, 1⟩
abbrev VIEW_ING_CFG_TIMING_MSG : Fld := ⟨0, 0⟩
abbrev VIEW_BLAST_FRAME : Fld := ⟨31, 0⟩
abbrev VIEW_CNT_BAD_COUNT : Fld := ⟨31, 0⟩
abbrev VIEW_CNT_STALE_COUNT : Fld := ⟨31, 0⟩
abbrev VIEW_CNT_EARLY_COUNT : Fld := ⟨31, 0⟩
abbrev VIEW_CNT_AFTER_DONE_COUNT : Fld := ⟨31, 0⟩
abbrev VIEW_CNT_NO_RECT_COUNT : Fld := ⟨31, 0⟩
abbrev VIEW_CNT_NO_BUFFER_COUNT : Fld := ⟨31, 0⟩
abbrev VIEW_CNT_ABANDON_COUNT : Fld := ⟨31, 0⟩
abbrev VIEW_CNT_LL_DISCARD_COUNT : Fld := ⟨31, 0⟩
abbrev VIEW_CNT_BLATE_COUNT : Fld := ⟨31, 0⟩
abbrev VIEW_CNT_CLR_CLRV : Fld := ⟨23, 16⟩
abbrev VIEW_CNT_CLR_CLR : Fld := ⟨8, 0⟩
abbrev VIEW_HVOL_VHOLD : Fld := ⟨0, 0⟩
abbrev VIEW_CNT_VHOLD_RX_COUNT : Fld := ⟨31, 0⟩
abbrev VIEW_CNT_VHOLD_LATE_COUNT : Fld := ⟨31, 0⟩
abbrev VIEW_CNT_PREPEAT_COUNT : Fld := ⟨31, 0⟩
abbrev VIEW_HCNT_CLR_CLR : Fld := ⟨2, 0⟩
abbrev CLR_DEC_TF : Fld := ⟨1, 0⟩
abbrev CLR_GAIN_GAIN : Fld := ⟨23, 0⟩
abbrev CLR_3D_SHAPE : Fld := ⟨8, 8⟩
abbrev CLR_3D_CUBE : Fld := ⟨1, 0⟩
abbrev CLR_ALLOC_UNITS : Fld := ⟨4, 0⟩
abbrev CLR_ASTAT_ACT_UNITS : Fld := ⟨20, 16⟩
abbrev CLR_ASTAT_INACT_UNITS : Fld := ⟨12, 8⟩
abbrev CLR_ASTAT_RESYNC : Fld := ⟨0, 0⟩
abbrev CLR_M_COEF : Fld := ⟨19, 0⟩
abbrev CLR_OFF_OFF : Fld := ⟨17, 0⟩
abbrev CLR_CNT_DSAT_COUNT : Fld := ⟨31, 0⟩
abbrev CLR_CNT_MCLIP_COUNT : Fld := ⟨31, 0⟩
abbrev CLR_LAST_DSAT_N : Fld := ⟨22, 0⟩
abbrev CLR_LAST_MCLIP_N : Fld := ⟨22, 0⟩
abbrev CLR_CNT_POISON_COUNT : Fld := ⟨31, 0⟩
abbrev CLR_CNT_CLR_CLR : Fld := ⟨7, 0⟩
abbrev DMU_PANEL_LOCK : Fld := ⟨16, 16⟩
abbrev DMU_PANEL_KEN : Fld := ⟨0, 0⟩
abbrev DMU_PREF_EMIT_REF : Fld := ⟨25, 16⟩
abbrev DMU_PREF_ROWT_REF : Fld := ⟨15, 0⟩
abbrev DMU_DEF_DEN : Fld := ⟨31, 31⟩
abbrev DMU_DEF_COUNT : Fld := ⟨16, 0⟩
abbrev DMU_CMCFG_SPREAD : Fld := ⟨7, 0⟩
abbrev DMU_FMCLR_GO : Fld := ⟨31, 31⟩
abbrev DMU_FMCLR_ALL : Fld := ⟨30, 30⟩
abbrev DMU_FMCLR_COL : Fld := ⟨14, 0⟩
abbrev DMU_STAT_FMASK_N : Fld := ⟨30, 16⟩
abbrev DMU_STAT_CRC_BUSY : Fld := ⟨3, 3⟩
abbrev DMU_STAT_REFDIFF : Fld := ⟨2, 2⟩
abbrev DMU_STAT_RESYNC : Fld := ⟨1, 1⟩
abbrev DMU_STAT_LOCKED : Fld := ⟨0, 0⟩
abbrev DMU_DSTAT_PREFIX : Fld := ⟨16, 0⟩
abbrev DMU_WSTAT_NLOSS : Fld := ⟨28, 16⟩
abbrev DMU_WSTAT_EMAX : Fld := ⟨13, 0⟩
abbrev DMU_CRC_CRC : Fld := ⟨31, 0⟩
abbrev DMU_CNT_RSAT_COUNT : Fld := ⟨31, 0⟩
abbrev DMU_CNT_POISON_COUNT : Fld := ⟨31, 0⟩
abbrev DMU_CNT_CLR_CLR : Fld := ⟨1, 0⟩
abbrev ODV_CFG_NBAND : Fld := ⟨5, 4⟩
abbrev ODV_CFG_EN : Fld := ⟨0, 0⟩
abbrev ODV_BAND_TC : Fld := ⟨15, 0⟩
abbrev ODV_TEMP_BAND : Fld := ⟨26, 25⟩
abbrev ODV_TEMP_BETA : Fld := ⟨24, 16⟩
abbrev ODV_TEMP_THETA : Fld := ⟨15, 0⟩
abbrev ODV_STAT_TSTALE : Fld := ⟨3, 3⟩
abbrev ODV_STAT_LAW_MONO : Fld := ⟨2, 2⟩
abbrev ODV_STAT_ZERO_ANY : Fld := ⟨1, 1⟩
abbrev ODV_STAT_RESYNC : Fld := ⟨0, 0⟩
abbrev ODV_CNT_SAT_COUNT : Fld := ⟨31, 0⟩
abbrev ODV_CNT_HINV_COUNT : Fld := ⟨31, 0⟩
abbrev ODV_CNT_CLR_CLR : Fld := ⟨1, 0⟩
abbrev DTH_STAT_RESYNC : Fld := ⟨1, 1⟩
abbrev DTH_STAT_MPERM : Fld := ⟨0, 0⟩
abbrev DTH_VCFG_OFFY : Fld := ⟨21, 16⟩
abbrev DTH_VCFG_OFFX : Fld := ⟨13, 8⟩
abbrev DTH_VCFG_EN : Fld := ⟨0, 0⟩
abbrev DTH_SEQ_LO_SEQ_LO : Fld := ⟨31, 0⟩
abbrev DTH_SEQ_HI_SEQ_HI : Fld := ⟨31, 0⟩
abbrev SCN_GEOM_HEIGHT : Fld := ⟨26, 16⟩
abbrev SCN_GEOM_WIDTH : Fld := ⟨12, 0⟩
abbrev SCN_CFG_ORDER : Fld := ⟨1, 0⟩
abbrev SCN_PRAIL_USED : Fld := ⟨31, 31⟩
abbrev SCN_PRAIL_POS : Fld := ⟨26, 24⟩
abbrev SCN_PRAIL_CLASS : Fld := ⟨21, 20⟩
abbrev SCN_PRAIL_OFF_DLY : Fld := ⟨15, 8⟩
abbrev SCN_PRAIL_ON_DLY : Fld := ⟨7, 0⟩
abbrev SCN_PSEQ_PG_TO : Fld := ⟨31, 24⟩
abbrev SCN_PSEQ_DIS_T : Fld := ⟨23, 16⟩
abbrev SCN_PSEQ_AGO_N : Fld := ⟨10, 0⟩
abbrev SCN_PCOL_ILIM : Fld := ⟨25, 16⟩
abbrev SCN_PCOL_DLEVEL : Fld := ⟨7, 0⟩
abbrev SCN_PROT_CRACK_POL : Fld := ⟨31, 30⟩
abbrev SCN_PROT_IFORCE : Fld := ⟨29, 29⟩
abbrev SCN_PROT_SHORT_POL : Fld := ⟨27, 26⟩
abbrev SCN_PROT_SHORT_MAX : Fld := ⟨23, 16⟩
abbrev SCN_PROT_RLIM : Fld := ⟨15, 0⟩
abbrev SCN_PSTAT_SEQ : Fld := ⟨31, 28⟩
abbrev SCN_PSTAT_STEP : Fld := ⟨27, 24⟩
abbrev SCN_PSTAT_EN : Fld := ⟨21, 16⟩
abbrev SCN_PSTAT_PG : Fld := ⟨13, 8⟩
abbrev SCN_PSTAT_PFAIL : Fld := ⟨7, 7⟩
abbrev SCN_PSTAT_LAST_FAIL : Fld := ⟨3, 0⟩
abbrev SCN_CRACK_VALID : Fld := ⟨31, 31⟩
abbrev SCN_CRACK_STATE : Fld := ⟨30, 29⟩
abbrev SCN_CRACK_OHMS : Fld := ⟨19, 0⟩
abbrev SCN_CNT_EMERG_COUNT : Fld := ⟨31, 0⟩
abbrev SCN_CNT_CRACK_COUNT : Fld := ⟨31, 0⟩
abbrev SCN_CNT_CLR_CLR : Fld := ⟨1, 0⟩
abbrev BAT_CFG_NDRV : Fld := ⟨3, 0⟩
abbrev BAT_TMR_TRAIN_TO : Fld := ⟨7, 0⟩
abbrev BAT_CMD_GO : Fld := ⟨31, 31⟩
abbrev BAT_CMD_WRITE : Fld := ⟨30, 30⟩
abbrev BAT_CMD_DRV : Fld := ⟨28, 24⟩
abbrev BAT_CMD_ADDR : Fld := ⟨7, 0⟩
abbrev BAT_CMDDATA_DATA : Fld := ⟨31, 0⟩
abbrev BAT_CMDST_BUSY : Fld := ⟨31, 31⟩
abbrev BAT_CMDST_RESULT : Fld := ⟨7, 0⟩
abbrev BAT_CMDRD_DATA : Fld := ⟨31, 0⟩
abbrev BAT_CNT_ROWCRC_COUNT : Fld := ⟨31, 0⟩
abbrev BAT_CNT_BLKERR_COUNT : Fld := ⟨31, 0⟩
abbrev BAT_CNT_STCRC_COUNT : Fld := ⟨31, 0⟩
abbrev BAT_CNT_RETRAIN_COUNT : Fld := ⟨31, 0⟩
abbrev BAT_CNT_CLR_CLR : Fld := ⟨3, 0⟩
abbrev BAT_DMAP_REV : Fld := ⟨10, 10⟩
abbrev BAT_DMAP_FIRST : Fld := ⟨9, 0⟩
abbrev BAT_DSTAT_SHORT_LAST : Fld := ⟨25, 16⟩
abbrev BAT_DSTAT_SHORT_N : Fld := ⟨15, 8⟩
abbrev BAT_DSTAT_LOCK : Fld := ⟨4, 4⟩
abbrev BAT_DSTAT_STATE : Fld := ⟨2, 0⟩
abbrev LTH_CFG_SWAP : Fld := ⟨0, 0⟩
abbrev LTH_TIME0_STVS : Fld := ⟨23, 16⟩
abbrev LTH_TIME0_GON : Fld := ⟨15, 8⟩
abbrev LTH_TIME0_DHOLD : Fld := ⟨7, 0⟩
abbrev LTH_TIME1_EMW : Fld := ⟨7, 0⟩
abbrev LTH_STAT_ACT : Fld := ⟨3, 0⟩
abbrev FST_STAT_TRAINED : Fld := ⟨4, 4⟩
abbrev FST_STAT_REF1 : Fld := ⟨3, 2⟩
abbrev FST_STAT_REF0 : Fld := ⟨1, 0⟩
abbrev FST_ALLOC_PLATE_N : Fld := ⟨20, 16⟩
abbrev FST_ALLOC_LL_EN : Fld := ⟨15, 8⟩
abbrev FST_ALLOC_BASE_EN : Fld := ⟨0, 0⟩
abbrev FST_WALLOC_EN : Fld := ⟨31, 31⟩
abbrev FST_WALLOC_MASK : Fld := ⟨30, 30⟩
abbrev FST_WALLOC_MAXW : Fld := ⟨28, 16⟩
abbrev FST_WALLOC_MAXH : Fld := ⟨10, 0⟩
abbrev FST_FREE_GRAN : Fld := ⟨22, 0⟩
abbrev FST_FREE_RUN_GRAN : Fld := ⟨22, 0⟩
abbrev FST_DEMAND_GBPS : Fld := ⟨15, 0⟩
abbrev FST_MAP_SEL_CLASS : Fld := ⟨15, 12⟩
abbrev FST_MAP_SEL_VIEW : Fld := ⟨10, 8⟩
abbrev FST_MAP_SEL_WIN : Fld := ⟨5, 4⟩
abbrev FST_MAP_SEL_INDEX : Fld := ⟨3, 0⟩
abbrev FST_MAP_ADDR_ADDR : Fld := ⟨22, 0⟩
abbrev FST_MAP_SIZE_GRAN : Fld := ⟨22, 0⟩
abbrev FST_MAP_FRAME_FRAME : Fld := ⟨31, 0⟩
abbrev FST_CNT_CE_COUNT : Fld := ⟨31, 0⟩
abbrev FST_CNT_UE_COUNT : Fld := ⟨31, 0⟩
abbrev FST_ERR_ADDR_ADDR : Fld := ⟨29, 0⟩
abbrev FST_CNT_CLR_CLR : Fld := ⟨1, 0⟩
abbrev SWG_MODE0_PLATE : Fld := ⟨7, 6⟩
abbrev SWG_MODE0_HIST : Fld := ⟨5, 4⟩
abbrev SWG_MODE0_LLOCK : Fld := ⟨3, 2⟩
abbrev SWG_MODE0_BASE : Fld := ⟨1, 0⟩
abbrev SWG_MODE1_WIN7 : Fld := ⟨15, 14⟩
abbrev SWG_MODE1_WIN6 : Fld := ⟨13, 12⟩
abbrev SWG_MODE1_WIN5 : Fld := ⟨11, 10⟩
abbrev SWG_MODE1_WIN4 : Fld := ⟨9, 8⟩
abbrev SWG_MODE1_WIN3 : Fld := ⟨7, 6⟩
abbrev SWG_MODE1_WIN2 : Fld := ⟨5, 4⟩
abbrev SWG_MODE1_WIN1 : Fld := ⟨3, 2⟩
abbrev SWG_MODE1_WIN0 : Fld := ⟨1, 0⟩
abbrev SWG_CNT_BLK_COUNT : Fld := ⟨31, 0⟩
abbrev SWG_CNT_LOSSY_COUNT : Fld := ⟨31, 0⟩
abbrev SWG_CNT_BAD_COUNT : Fld := ⟨31, 0⟩
abbrev SWG_CNT_EVICT_COUNT : Fld := ⟨31, 0⟩
abbrev SWG_CNT_REENC_COUNT : Fld := ⟨31, 0⟩
abbrev SWG_CNT_CLR_CLR : Fld := ⟨4, 0⟩
abbrev SWG_QMAX_PLATE : Fld := ⟨15, 12⟩
abbrev SWG_QMAX_HIST : Fld := ⟨11, 8⟩
abbrev SWG_QMAX_WIN : Fld := ⟨7, 4⟩
abbrev SWG_QMAX_BASE : Fld := ⟨3, 0⟩
abbrev SWG_BIST_FAIL : Fld := ⟨2, 2⟩
abbrev SWG_BIST_DONE : Fld := ⟨1, 1⟩
abbrev SWG_BIST_GO : Fld := ⟨0, 0⟩
abbrev THC_ESTAT_CLIENT : Fld := ⟨15, 8⟩
abbrev THC_ESTAT_PAUSED : Fld := ⟨3, 3⟩
abbrev THC_ESTAT_STATE : Fld := ⟨2, 0⟩
abbrev THC_CNT_JOBS_COUNT : Fld := ⟨31, 0⟩
abbrev THC_CNT_STOP_COUNT : Fld := ⟨31, 0⟩
abbrev THC_CNT_CHECK_COUNT : Fld := ⟨31, 0⟩
abbrev THC_CNT_DATA_COUNT : Fld := ⟨31, 0⟩
abbrev THC_CNT_CHUNK_COUNT : Fld := ⟨31, 0⟩
abbrev THC_CNT_CLR_CLR : Fld := ⟨4, 0⟩
abbrev THC_BIST_FAIL : Fld := ⟨2, 2⟩
abbrev THC_BIST_DONE : Fld := ⟨1, 1⟩
abbrev THC_BIST_GO : Fld := ⟨0, 0⟩
abbrev THC_CFG_STAGE_ONLY1 : Fld := ⟨1, 1⟩
abbrev THC_CFG_STAGE_ONLY0 : Fld := ⟨0, 0⟩
abbrev MAG_CFG_CMD_TO : Fld := ⟨31, 24⟩
abbrev MAG_CFG_TTHR : Fld := ⟨23, 16⟩
abbrev MAG_CFG_SPEED : Fld := ⟨3, 2⟩
abbrev MAG_CFG_TRIM : Fld := ⟨1, 1⟩
abbrev MAG_CFG_EN : Fld := ⟨0, 0⟩
abbrev MAG_CTL_KEY : Fld := ⟨31, 16⟩
abbrev MAG_CTL_UNMOUNT : Fld := ⟨1, 1⟩
abbrev MAG_CTL_FORMAT : Fld := ⟨0, 0⟩
abbrev MAG_PSTAT_PLATES : Fld := ⟨27, 16⟩
abbrev MAG_PSTAT_DSM : Fld := ⟨13, 13⟩
abbrev MAG_PSTAT_CLIPPED : Fld := ⟨12, 12⟩
abbrev MAG_PSTAT_RATE : Fld := ⟨9, 8⟩
abbrev MAG_PSTAT_WIDTH : Fld := ⟨6, 4⟩
abbrev MAG_PSTAT_STATE : Fld := ⟨3, 0⟩
abbrev MAG_NSZE_LO_V : Fld := ⟨31, 0⟩
abbrev MAG_NSZE_HI_V : Fld := ⟨31, 0⟩
abbrev MAG_FREE_N : Fld := ⟨23, 0⟩
abbrev MAG_TEMP_CRIT : Fld := ⟨23, 16⟩
abbrev MAG_TEMP_KELVIN : Fld := ⟨15, 0⟩
abbrev MAG_VOLID_LO_V : Fld := ⟨31, 0⟩
abbrev MAG_VOLID_HI_V : Fld := ⟨31, 0⟩
abbrev MAG_GEN_V : Fld := ⟨31, 0⟩
abbrev MAG_QSTAT_OUT : Fld := ⟨8, 0⟩
abbrev MAG_CNT_RDERR_COUNT : Fld := ⟨31, 0⟩
abbrev MAG_CNT_WRERR_COUNT : Fld := ⟨31, 0⟩
abbrev MAG_CNT_TIMEOUT_COUNT : Fld := ⟨31, 0⟩
abbrev MAG_CNT_LATE_COUNT : Fld := ⟨31, 0⟩
abbrev MAG_CNT_CLR_CLR : Fld := ⟨3, 0⟩
abbrev MAG_PLAY_HELD : Fld := ⟨31, 31⟩
abbrev MAG_PLAY_VIEW : Fld := ⟨30, 28⟩
abbrev MAG_PLAY_TGT : Fld := ⟨26, 24⟩
abbrev MAG_PLAY_PORT : Fld := ⟨21, 20⟩
abbrev MAG_PLAY_END : Fld := ⟨17, 16⟩
abbrev MAG_PLAY_PLATE : Fld := ⟨11, 0⟩
abbrev MAG_PLAY_POS_POS : Fld := ⟨31, 0⟩
abbrev BNK_CFG_STBY_RET : Fld := ⟨0, 0⟩
abbrev BNK_ALLOC_TRACE : Fld := ⟨4, 0⟩
abbrev BNK_SCRUB_EN : Fld := ⟨31, 31⟩
abbrev BNK_SCRUB_PERIOD : Fld := ⟨15, 0⟩
abbrev BNK_POOL_CLR_FREE : Fld := ⟨15, 8⟩
abbrev BNK_POOL_GEN_FREE : Fld := ⟨4, 0⟩
abbrev BNK_OWN_OWN : Fld := ⟨31, 0⟩
abbrev BNK_PSTAT_ST : Fld := ⟨31, 0⟩
abbrev BNK_CNT_CE_COUNT : Fld := ⟨31, 0⟩
abbrev BNK_CNT_UE_COUNT : Fld := ⟨31, 0⟩
abbrev BNK_CNT_PWCE_COUNT : Fld := ⟨31, 0⟩
abbrev BNK_CNT_PWPOISON_COUNT : Fld := ⟨31, 0⟩
abbrev BNK_UE_ADDR_MASTER : Fld := ⟨27, 24⟩
abbrev BNK_UE_ADDR_BANK : Fld := ⟨22, 16⟩
abbrev BNK_UE_ADDR_WORD : Fld := ⟨15, 0⟩
abbrev BNK_CNT_CLR_CLR : Fld := ⟨3, 0⟩
abbrev BNK_CNT_CONF_COUNT : Fld := ⟨31, 0⟩
abbrev BNK_CONF_CLR_CLR : Fld := ⟨15, 0⟩
abbrev THM_LIMIT_HYST : Fld := ⟨19, 16⟩
abbrev THM_LIMIT_THR : Fld := ⟨15, 8⟩
abbrev THM_LIMIT_WARN : Fld := ⟨7, 0⟩
abbrev THM_RLIM_RTHR : Fld := ⟨15, 8⟩
abbrev THM_RLIM_RWARN : Fld := ⟨7, 0⟩
abbrev THM_STEP_MAX : Fld := ⟨10, 8⟩
abbrev THM_STEP_STEP_T : Fld := ⟨7, 0⟩
abbrev THM_PAUSE0_P2 : Fld := ⟨31, 16⟩
abbrev THM_PAUSE0_P1 : Fld := ⟨15, 0⟩
abbrev THM_PAUSE1_P3 : Fld := ⟨15, 0⟩
abbrev THM_ODT_OFFSET : Fld := ⟨31, 16⟩
abbrev THM_ODT_HOST_TO : Fld := ⟨15, 8⟩
abbrev THM_ODT_SRC : Fld := ⟨1, 0⟩
abbrev THM_ODT_HOST_T : Fld := ⟨15, 0⟩
abbrev THM_XTAL_K : Fld := ⟨31, 16⟩
abbrev THM_XTAL_T0 : Fld := ⟨7, 0⟩
abbrev THM_BAND_DRIFT : Fld := ⟨7, 0⟩
abbrev THM_STAT_HOT : Fld := ⟨31, 16⟩
abbrev THM_STAT_HOT_N : Fld := ⟨15, 11⟩
abbrev THM_STAT_STEP : Fld := ⟨10, 8⟩
abbrev THM_STAT_FAST : Fld := ⟨4, 4⟩
abbrev THM_STAT_FEW : Fld := ⟨3, 3⟩
abbrev THM_STAT_RTHR : Fld := ⟨2, 2⟩
abbrev THM_STAT_RWARN : Fld := ⟨1, 1⟩
abbrev THM_STAT_WARN : Fld := ⟨0, 0⟩
abbrev THM_SUSP_SUSP : Fld := ⟨31, 0⟩
abbrev THM_FAILED_FAILED : Fld := ⟨31, 0⟩
abbrev THM_ODT_STAT_VALID : Fld := ⟨31, 31⟩
abbrev THM_ODT_STAT_THETA : Fld := ⟨15, 0⟩
abbrev THM_SENS_STATE : Fld := ⟨31, 30⟩
abbrev THM_SENS_RATE : Fld := ⟨29, 16⟩
abbrev THM_SENS_TEMP : Fld := ⟨15, 0⟩
abbrev THM_CNT_WARN_COUNT : Fld := ⟨31, 0⟩
abbrev THM_CNT_STEP_COUNT : Fld := ⟨31, 0⟩
abbrev THM_CNT_SUSP_COUNT : Fld := ⟨31, 0⟩
abbrev THM_CNT_CLR_CLR : Fld := ⟨2, 0⟩
abbrev CAL_UTS_U_HI : Fld := ⟨31, 16⟩
abbrev CAL_UTS_U_LO : Fld := ⟨15, 0⟩
abbrev CAL_UADC_GAIN : Fld := ⟨31, 16⟩
abbrev CAL_UADC_OFF : Fld := ⟨15, 0⟩
abbrev CAL_UDAC_TRIM : Fld := ⟨9, 0⟩
abbrev CAL_RSTAT_CODE : Fld := ⟨31, 24⟩
abbrev CAL_RSTAT_STEP : Fld := ⟨23, 16⟩
abbrev CAL_RSTAT_CLIENT : Fld := ⟨15, 8⟩
abbrev CAL_RSTAT_BUSY : Fld := ⟨0, 0⟩
abbrev CAL_RADC_GAIN : Fld := ⟨31, 16⟩
abbrev CAL_RADC_OFF : Fld := ⟨15, 0⟩
abbrev CAL_RTB_V : Fld := ⟨31, 0⟩
abbrev CAL_RTB_T_V : Fld := ⟨15, 0⟩
abbrev CAL_EADC_GAIN : Fld := ⟨31, 16⟩
abbrev CAL_EADC_OFF : Fld := ⟨15, 0⟩
abbrev CAL_RDAC_MEAS : Fld := ⟨31, 16⟩
abbrev CAL_RDAC_PROPOSE : Fld := ⟨9, 0⟩
abbrev CAL_FSENS_A_V : Fld := ⟨15, 0⟩
abbrev CAL_FSENS_B_V : Fld := ⟨31, 0⟩
abbrev CAL_FADC_GAIN_V : Fld := ⟨15, 0⟩
abbrev CAL_FADC_OFF_V : Fld := ⟨15, 0⟩
abbrev CAL_FRREF_V : Fld := ⟨23, 0⟩
abbrev CAL_FADC_TC_V : Fld := ⟨15, 0⟩
abbrev CAL_FDSN_LO_V : Fld := ⟨31, 0⟩
abbrev CAL_FDSN_HI_V : Fld := ⟨31, 0⟩
abbrev CAL_FCHK_V : Fld := ⟨31, 0⟩
abbrev EVT_CFG_TIME_US : Fld := ⟨31, 16⟩
abbrev EVT_CFG_COUNT : Fld := ⟨15, 8⟩
abbrev EVT_CFG_SIZE : Fld := ⟨7, 4⟩
abbrev EVT_CFG_IRQ_EN : Fld := ⟨1, 1⟩
abbrev EVT_CFG_EN : Fld := ⟨0, 0⟩
abbrev EVT_COAL_HOLD_N : Fld := ⟨31, 16⟩
abbrev EVT_COAL_HOLD_C : Fld := ⟨15, 0⟩
abbrev EVT_RBASE_LO_BASE : Fld := ⟨31, 12⟩
abbrev EVT_RBASE_HI_BASE : Fld := ⟨31, 0⟩
abbrev EVT_RHEAD_HEAD : Fld := ⟨15, 0⟩
abbrev EVT_RPOS_TAIL : Fld := ⟨15, 0⟩
abbrev EVT_STAT_PEND : Fld := ⟨15, 8⟩
abbrev EVT_STAT_LOSING : Fld := ⟨2, 2⟩
abbrev EVT_STAT_FULL : Fld := ⟨1, 1⟩
abbrev EVT_STAT_FAULT : Fld := ⟨0, 0⟩
abbrev EVT_CNT_REC_COUNT : Fld := ⟨31, 0⟩
abbrev EVT_CNT_LOST_COUNT : Fld := ⟨31, 0⟩
abbrev EVT_CNT_CLR_CLR : Fld := ⟨2, 0⟩
abbrev EVT_ALM_PEND_LO_PEND : Fld := ⟨31, 0⟩
abbrev EVT_ALM_PEND_HI_PEND : Fld := ⟨31, 0⟩
abbrev EVT_ALM_BOOT_BOOT : Fld := ⟨15, 0⟩
abbrev EVT_TRC_POST : Fld := ⟨31, 16⟩
abbrev EVT_TRC_KINDS : Fld := ⟨15, 8⟩
abbrev EVT_TRC_WRAP : Fld := ⟨1, 1⟩
abbrev EVT_TRC_RUN : Fld := ⟨0, 0⟩
abbrev EVT_TRC_TRIG_ARMED : Fld := ⟨17, 17⟩
abbrev EVT_TRC_TRIG_ON_ALARM : Fld := ⟨16, 16⟩
abbrev EVT_TRC_TRIG_CODE : Fld := ⟨15, 0⟩
abbrev EVT_TRC_POS_TRIGGERED : Fld := ⟨31, 31⟩
abbrev EVT_TRC_POS_WRAPPED : Fld := ⟨30, 30⟩
abbrev EVT_TRC_POS_NEXT : Fld := ⟨23, 0⟩
abbrev EVT_TRC_MARK_VALUE : Fld := ⟨31, 0⟩
abbrev EVT_TRC_DROP_COUNT : Fld := ⟨31, 0⟩
abbrev EVT_ALM_CODE_COUNT : Fld := ⟨31, 16⟩
abbrev EVT_ALM_CODE_CODE : Fld := ⟨15, 0⟩
abbrev EVT_ALM_AON_AON : Fld := ⟨31, 0⟩
abbrev EVT_ALM_INFO_BOOT : Fld := ⟨31, 16⟩
abbrev EVT_ALM_INFO_DATA : Fld := ⟨15, 0⟩
abbrev WIN_CFG_EN : Fld := ⟨0, 0⟩
abbrev WIN_STAT_IN_FORCE : Fld := ⟨31, 31⟩
abbrev WIN_STAT_REFUSE : Fld := ⟨30, 30⟩
abbrev WIN_STAT_OPEN : Fld := ⟨29, 29⟩
abbrev WIN_STAT_JPEND : Fld := ⟨19, 0⟩
abbrev WIN_CNT_ACC_COUNT : Fld := ⟨31, 0⟩
abbrev WIN_CNT_REFUSED_COUNT : Fld := ⟨31, 0⟩
abbrev WIN_CNT_DROP_COUNT : Fld := ⟨31, 0⟩
abbrev WIN_CNT_CLR_CLR : Fld := ⟨2, 0⟩
abbrev TMK_STAT_BUSY : Fld := ⟨2, 2⟩
abbrev TMK_STAT_SEALED : Fld := ⟨1, 1⟩
abbrev TMK_STAT_LINK : Fld := ⟨0, 0⟩
abbrev TMK_DOSE_CFG_EN : Fld := ⟨0, 0⟩
abbrev TMK_DOSE_CLR_CLR : Fld := ⟨0, 0⟩

end Sys2Proof.F
end

