-- ==== Sys2Proof/Machine/RegTypes.lean ====
section
/-! DEFINITION. What the register tables say of a register: access codes (R7), the four values of the Takes effect column (R8),
fields with their reset value and rejected values (R10), and replicated registers. -/

namespace Sys2Proof.Machine

/-- The access codes of R7. -/
inductive Access where
  | ro | rw | w1c | wo | sr | lk
  deriving DecidableEq, Repr

/-- The values of the Takes effect column (R8). -/
inductive Effect where
  | immediate | atCommit | atBoundary | atIdle
  deriving DecidableEq, Repr

/-- One named field of a register: place, access, value after reset, Takes effect, and the ranges of rejected values (R10). -/
structure FieldDef where
  fld : Fld
  access : Access
  reset : Nat
  effect : Effect
  bad : List (Nat × Nat)
  deriving DecidableEq, Repr

/-- One register, replicated `n1` times every `s1` bytes and `n2` times every `s2` bytes. `group` is its register group
(R118), 64 for none; the group of copy i is `group + groupStep * i`. -/
structure RegDef where
  base : Nat
  n1 : Nat
  s1 : Nat
  n2 : Nat
  s2 : Nat
  group : Nat
  groupStep : Nat
  fields : List FieldDef
  deriving DecidableEq, Repr

end Sys2Proof.Machine
end

