-- ==== Sys2Proof/Machine/RegTable.lean ====
section
/-! DEFINITION. The register table of BAR0: every register with its replication, group (R118) and fields (access R7, reset value,
Takes effect R8, rejected values R10), from the register tables of the chapters. One list per block. -/

namespace Sys2Proof.Machine

/-- The registers of the GBL block. -/
def regsGBL : List RegDef := [
  ⟨0x000000, 1, 0x0, 1, 0x0, 64, 0, [⟨⟨27,24⟩,.ro,1,.immediate,[]⟩, ⟨⟨23,20⟩,.ro,1,.immediate,[]⟩, ⟨⟨19,16⟩,.ro,1,.immediate,[]⟩, ⟨⟨15,0⟩,.ro,0x6418,.immediate,[]⟩]⟩ /- GBL_ID -/,
  ⟨0x000010, 1, 0x0, 1, 0x0, 64, 0, [⟨⟨7,7⟩,.ro,0,.immediate,[]⟩, ⟨⟨6,6⟩,.ro,0,.immediate,[]⟩, ⟨⟨5,4⟩,.ro,0,.immediate,[]⟩, ⟨⟨3,3⟩,.ro,0,.immediate,[]⟩, ⟨⟨2,1⟩,.ro,0,.immediate,[]⟩, ⟨⟨0,0⟩,.ro,0,.immediate,[]⟩]⟩ /- GBL_STRAP -/,
  ⟨0x000020, 1, 0x0, 1, 0x0, 64, 0, [⟨⟨17,17⟩,.ro,0,.immediate,[]⟩, ⟨⟨16,16⟩,.ro,0,.immediate,[]⟩, ⟨⟨15,15⟩,.ro,0,.immediate,[]⟩, ⟨⟨14,14⟩,.ro,0,.immediate,[]⟩, ⟨⟨13,13⟩,.ro,0,.immediate,[]⟩, ⟨⟨12,12⟩,.ro,0,.immediate,[]⟩, ⟨⟨11,11⟩,.ro,0,.immediate,[]⟩, ⟨⟨10,10⟩,.ro,0,.immediate,[]⟩, ⟨⟨9,9⟩,.ro,0,.immediate,[]⟩, ⟨⟨8,8⟩,.ro,0,.immediate,[]⟩, ⟨⟨7,7⟩,.ro,0,.immediate,[]⟩, ⟨⟨6,6⟩,.ro,0,.immediate,[]⟩, ⟨⟨5,5⟩,.ro,0,.immediate,[]⟩, ⟨⟨4,4⟩,.ro,0,.immediate,[]⟩, ⟨⟨3,3⟩,.ro,0,.immediate,[]⟩, ⟨⟨2,2⟩,.ro,0,.immediate,[]⟩, ⟨⟨1,1⟩,.ro,0,.immediate,[]⟩, ⟨⟨0,0⟩,.ro,0,.immediate,[]⟩]⟩ /- GBL_READY -/,
  ⟨0x000030, 1, 0x0, 1, 0x0, 64, 0, [⟨⟨31,16⟩,.wo,0,.immediate,[]⟩, ⟨⟨0,0⟩,.wo,0,.immediate,[]⟩]⟩ /- GBL_RESET -/,
  ⟨0x000040, 1, 0x0, 1, 0x0, 64, 0, [⟨⟨31,24⟩,.ro,0,.immediate,[]⟩, ⟨⟨23,20⟩,.ro,0,.immediate,[]⟩, ⟨⟨19,16⟩,.ro,1,.immediate,[]⟩, ⟨⟨11,11⟩,.w1c,0,.immediate,[]⟩, ⟨⟨10,10⟩,.w1c,0,.immediate,[]⟩, ⟨⟨9,9⟩,.w1c,0,.immediate,[]⟩, ⟨⟨8,8⟩,.w1c,0,.immediate,[]⟩, ⟨⟨7,7⟩,.w1c,0,.immediate,[]⟩, ⟨⟨6,6⟩,.w1c,0,.immediate,[]⟩, ⟨⟨5,5⟩,.w1c,0,.immediate,[]⟩, ⟨⟨4,4⟩,.w1c,0,.immediate,[]⟩, ⟨⟨3,3⟩,.w1c,0,.immediate,[]⟩, ⟨⟨2,2⟩,.w1c,0,.immediate,[]⟩, ⟨⟨1,1⟩,.w1c,0,.immediate,[]⟩, ⟨⟨0,0⟩,.w1c,1,.immediate,[]⟩]⟩ /- GBL_RESET_CAUSE -/]

/-- The registers of the STG block. -/
def regsSTG : List RegDef := [
  ⟨0x040000, 1, 0x0, 1, 0x0, 64, 0, [⟨⟨10,8⟩,.wo,0,.immediate,[]⟩, ⟨⟨2,0⟩,.wo,0,.immediate,[(5,7)]⟩]⟩ /- STG_CMD -/,
  ⟨0x040004, 1, 0x0, 1, 0x0, 64, 0, [⟨⟨9,9⟩,.ro,0,.immediate,[]⟩, ⟨⟨8,8⟩,.ro,0,.immediate,[]⟩, ⟨⟨7,0⟩,.ro,0,.immediate,[]⟩]⟩ /- STG_RSTAT -/,
  ⟨0x040008, 1, 0x0, 1, 0x0, 64, 0, [⟨⟨31,0⟩,.ro,0,.immediate,[]⟩]⟩ /- STG_RTXID -/,
  ⟨0x04000C, 1, 0x0, 1, 0x0, 64, 0, [⟨⟨31,0⟩,.rw,0,.immediate,[]⟩]⟩ /- STG_MASK_LO -/,
  ⟨0x040010, 1, 0x0, 1, 0x0, 64, 0, [⟨⟨31,0⟩,.rw,0,.immediate,[]⟩]⟩ /- STG_MASK_HI -/,
  ⟨0x040014, 1, 0x0, 1, 0x0, 64, 0, [⟨⟨31,0⟩,.rw,0,.immediate,[]⟩]⟩ /- STG_GATE_LO -/,
  ⟨0x040018, 1, 0x0, 1, 0x0, 64, 0, [⟨⟨31,31⟩,.rw,0,.immediate,[]⟩, ⟨⟨15,0⟩,.rw,0,.immediate,[]⟩]⟩ /- STG_GATE_HI -/,
  ⟨0x04001C, 1, 0x0, 1, 0x0, 64, 0, [⟨⟨31,0⟩,.ro,0,.immediate,[]⟩]⟩ /- STG_HELD_LO -/,
  ⟨0x040020, 1, 0x0, 1, 0x0, 64, 0, [⟨⟨31,0⟩,.ro,0,.immediate,[]⟩]⟩ /- STG_HELD_HI -/,
  ⟨0x040024, 1, 0x0, 1, 0x0, 64, 0, [⟨⟨15,0⟩,.ro,0,.immediate,[]⟩]⟩ /- STG_IDLE_PEND -/,
  ⟨0x040028, 1, 0x0, 1, 0x0, 64, 0, [⟨⟨31,0⟩,.ro,0,.immediate,[]⟩]⟩ /- STG_FAIL_ID -/,
  ⟨0x04002C, 1, 0x0, 1, 0x0, 64, 0, [⟨⟨31,0⟩,.ro,0,.immediate,[]⟩]⟩ /- STG_FAIL_WHERE -/,
  ⟨0x040040, 8, 0x10, 1, 0x0, 64, 0, [⟨⟨31,0⟩,.ro,0,.immediate,[]⟩]⟩ /- STG_SLOT_ID -/,
  ⟨0x040044, 8, 0x10, 1, 0x0, 64, 0, [⟨⟨15,8⟩,.ro,0,.immediate,[]⟩, ⟨⟨2,0⟩,.ro,0,.immediate,[]⟩]⟩ /- STG_SLOT_STATE -/,
  ⟨0x040048, 8, 0x10, 1, 0x0, 64, 0, [⟨⟨31,0⟩,.ro,0,.immediate,[]⟩]⟩ /- STG_SLOT_MASK_LO -/,
  ⟨0x04004C, 8, 0x10, 1, 0x0, 64, 0, [⟨⟨31,0⟩,.ro,0,.immediate,[]⟩]⟩ /- STG_SLOT_MASK_HI -/]

/-- The registers of the PWR block. -/
def regsPWR : List RegDef := [
  ⟨0x080000, 1, 0x0, 1, 0x0, 64, 0, [⟨⟨14,12⟩,.w1c,0,.immediate,[]⟩, ⟨⟨11,8⟩,.ro,0,.immediate,[]⟩, ⟨⟨7,7⟩,.ro,0,.immediate,[]⟩, ⟨⟨6,4⟩,.ro,2,.immediate,[]⟩, ⟨⟨2,0⟩,.ro,2,.immediate,[]⟩]⟩ /- PWR_STATE -/,
  ⟨0x080004, 1, 0x0, 1, 0x0, 64, 0, [⟨⟨3,0⟩,.rw,1,.immediate,[(3,15)]⟩]⟩ /- PWR_REQ -/,
  ⟨0x080008, 1, 0x0, 1, 0x0, 64, 0, [⟨⟨31,8⟩,.rw,0,.immediate,[]⟩, ⟨⟨4,4⟩,.rw,1,.immediate,[]⟩, ⟨⟨3,3⟩,.rw,1,.immediate,[]⟩, ⟨⟨2,2⟩,.rw,1,.immediate,[]⟩, ⟨⟨1,1⟩,.rw,1,.immediate,[]⟩, ⟨⟨0,0⟩,.rw,0,.immediate,[]⟩]⟩ /- PWR_DORM -/,
  ⟨0x080010, 1, 0x0, 1, 0x0, 64, 0, [⟨⟨31,0⟩,.ro,1,.immediate,[]⟩]⟩ /- PWR_DOM_ON0 -/,
  ⟨0x080014, 1, 0x0, 1, 0x0, 64, 0, [⟨⟨1,0⟩,.ro,0,.immediate,[]⟩]⟩ /- PWR_DOM_ON1 -/,
  ⟨0x080018, 1, 0x0, 1, 0x0, 0, 0, [⟨⟨22,20⟩,.sr,0,.atCommit,[]⟩, ⟨⟨14,3⟩,.sr,0,.atCommit,[]⟩]⟩ /- PWR_LOCKOFF -/,
  ⟨0x080020, 1, 0x0, 1, 0x0, 64, 0, [⟨⟨31,16⟩,.rw,0x3e8,.immediate,[]⟩, ⟨⟨3,3⟩,.rw,0,.immediate,[]⟩, ⟨⟨2,2⟩,.rw,1,.immediate,[]⟩, ⟨⟨1,1⟩,.rw,1,.immediate,[]⟩, ⟨⟨0,0⟩,.rw,1,.immediate,[]⟩]⟩ /- PWR_AUTO -/,
  ⟨0x080030, 1, 0x0, 1, 0x0, 64, 0, [⟨⟨23,16⟩,.ro,0x32,.immediate,[]⟩, ⟨⟨13,12⟩,.rw,3,.immediate,[]⟩, ⟨⟨9,8⟩,.ro,3,.immediate,[]⟩, ⟨⟨5,4⟩,.ro,0,.immediate,[]⟩]⟩ /- PWR_OP -/,
  ⟨0x080034, 1, 0x0, 1, 0x0, 64, 0, [⟨⟨31,24⟩,.ro,0,.immediate,[]⟩, ⟨⟨23,16⟩,.ro,0,.immediate,[]⟩, ⟨⟨15,8⟩,.ro,0,.immediate,[]⟩, ⟨⟨7,0⟩,.ro,0,.immediate,[]⟩]⟩ /- PWR_VSET -/,
  ⟨0x080040, 1, 0x0, 1, 0x0, 64, 0, [⟨⟨20,16⟩,.rw,0,.immediate,[]⟩, ⟨⟨15,12⟩,.rw,2,.immediate,[]⟩, ⟨⟨7,0⟩,.rw,0x64,.immediate,[(0,0)]⟩]⟩ /- PWR_AVS_CFG -/,
  ⟨0x080044, 1, 0x0, 1, 0x0, 64, 0, [⟨⟨8,8⟩,.wo,0,.immediate,[]⟩, ⟨⟨5,5⟩,.w1c,0,.immediate,[]⟩, ⟨⟨4,4⟩,.w1c,0,.immediate,[]⟩, ⟨⟨3,3⟩,.w1c,0,.immediate,[]⟩, ⟨⟨2,2⟩,.w1c,0,.immediate,[]⟩, ⟨⟨1,1⟩,.w1c,0,.immediate,[]⟩, ⟨⟨0,0⟩,.w1c,0,.immediate,[]⟩]⟩ /- PWR_AVS_FLT -/]

/-- The registers of the HST block. -/
def regsHST : List RegDef := [
  ⟨0x0C0100, 4, 0x4, 1, 0x0, 64, 0, [⟨⟨31,31⟩,.rw,0,.immediate,[]⟩, ⟨⟨30,30⟩,.rw,0,.immediate,[]⟩, ⟨⟨12,8⟩,.rw,0,.immediate,[]⟩, ⟨⟨5,0⟩,.rw,0,.immediate,[]⟩]⟩ /- HST_RLY_SEL -/,
  ⟨0x0C0120, 1, 0x0, 1, 0x0, 64, 0, [⟨⟨1,1⟩,.rw,0,.immediate,[]⟩, ⟨⟨0,0⟩,.rw,0,.immediate,[]⟩]⟩ /- HST_MSIX_CTL -/,
  ⟨0x0D0000, 256, 0x40, 1, 0x0, 64, 0, [⟨⟨31,24⟩,.rw,0x64,.immediate,[]⟩, ⟨⟨23,23⟩,.rw,0,.immediate,[]⟩, ⟨⟨22,22⟩,.ro,0,.immediate,[]⟩, ⟨⟨21,20⟩,.rw,0,.immediate,[]⟩, ⟨⟨19,16⟩,.rw,2,.immediate,[(11,15)]⟩, ⟨⟨15,12⟩,.rw,2,.immediate,[(11,15)]⟩, ⟨⟨1,1⟩,.rw,0,.immediate,[]⟩, ⟨⟨0,0⟩,.rw,0,.immediate,[]⟩]⟩ /- HST_CCFG -/,
  ⟨0x0D0004, 256, 0x40, 1, 0x0, 64, 0, [⟨⟨31,16⟩,.rw,0,.immediate,[]⟩, ⟨⟨7,0⟩,.rw,1,.immediate,[(0,0)]⟩]⟩ /- HST_CIMOD -/,
  ⟨0x0D0008, 256, 0x40, 1, 0x0, 64, 0, [⟨⟨31,12⟩,.rw,0,.immediate,[]⟩]⟩ /- HST_SQB_LO -/,
  ⟨0x0D000C, 256, 0x40, 1, 0x0, 64, 0, [⟨⟨31,0⟩,.rw,0,.immediate,[]⟩]⟩ /- HST_SQB_HI -/,
  ⟨0x0D0010, 256, 0x40, 1, 0x0, 64, 0, [⟨⟨31,12⟩,.rw,0,.immediate,[]⟩]⟩ /- HST_CQB_LO -/,
  ⟨0x0D0014, 256, 0x40, 1, 0x0, 64, 0, [⟨⟨31,0⟩,.rw,0,.immediate,[]⟩]⟩ /- HST_CQB_HI -/,
  ⟨0x0D0018, 256, 0x40, 1, 0x0, 64, 0, [⟨⟨15,8⟩,.ro,0,.immediate,[]⟩, ⟨⟨3,3⟩,.ro,0,.immediate,[]⟩, ⟨⟨2,2⟩,.ro,1,.immediate,[]⟩, ⟨⟨1,1⟩,.ro,0,.immediate,[]⟩, ⟨⟨0,0⟩,.ro,0,.immediate,[]⟩]⟩ /- HST_CSTAT -/,
  ⟨0x0D001C, 256, 0x40, 1, 0x0, 64, 0, [⟨⟨31,16⟩,.ro,0,.immediate,[]⟩, ⟨⟨15,0⟩,.ro,0,.immediate,[]⟩]⟩ /- HST_CPOS -/]

/-- The registers of the RAF block. -/
def regsRAF : List RegDef := [
  ⟨0x100000, 4, 0x10000, 1, 0x0, 31, 0, [⟨⟨11,8⟩,.sr,0,.atCommit,[(3,15)]⟩, ⟨⟨7,6⟩,.sr,2,.atCommit,[(3,3)]⟩, ⟨⟨5,2⟩,.sr,0xf,.atCommit,[]⟩, ⟨⟨1,1⟩,.sr,0,.atCommit,[]⟩, ⟨⟨0,0⟩,.sr,0,.atCommit,[]⟩]⟩ /- RAF_PCFG -/,
  ⟨0x100004, 4, 0x10000, 1, 0x0, 31, 0, [⟨⟨31,24⟩,.sr,4,.atCommit,[(0,0)]⟩, ⟨⟨23,16⟩,.sr,0x14,.atCommit,[(0,0)]⟩, ⟨⟨15,8⟩,.sr,0xa,.atCommit,[(0,0)]⟩, ⟨⟨7,0⟩,.sr,0x14,.atCommit,[(0,0)]⟩]⟩ /- RAF_TMR -/,
  ⟨0x100008, 4, 0x10000, 1, 0x0, 64, 0, [⟨⟨1,0⟩,.rw,0,.immediate,[(3,3)]⟩]⟩ /- RAF_LOOP -/,
  ⟨0x10000C, 4, 0x10000, 1, 0x0, 64, 0, [⟨⟨23,16⟩,.rw,0,.immediate,[]⟩, ⟨⟨3,3⟩,.rw,0,.immediate,[]⟩, ⟨⟨2,2⟩,.rw,0,.immediate,[]⟩, ⟨⟨1,0⟩,.rw,0,.immediate,[(3,3)]⟩]⟩ /- RAF_PRBS -/,
  ⟨0x100010, 4, 0x10000, 1, 0x0, 64, 0, [⟨⟨31,28⟩,.ro,0,.immediate,[]⟩, ⟨⟨27,26⟩,.ro,0,.immediate,[]⟩, ⟨⟨23,20⟩,.ro,0,.immediate,[]⟩, ⟨⟨19,16⟩,.ro,0,.immediate,[]⟩, ⟨⟨15,8⟩,.ro,0xe4,.immediate,[]⟩, ⟨⟨7,0⟩,.ro,0,.immediate,[]⟩]⟩ /- RAF_PST -/,
  ⟨0x100014, 4, 0x10000, 1, 0x0, 64, 0, [⟨⟨27,16⟩,.ro,0,.immediate,[]⟩, ⟨⟨11,0⟩,.ro,0,.immediate,[]⟩]⟩ /- RAF_LLST -/,
  ⟨0x100018, 4, 0x10000, 1, 0x0, 64, 0, [⟨⟨27,16⟩,.ro,0,.immediate,[]⟩, ⟨⟨15,8⟩,.ro,0,.immediate,[]⟩, ⟨⟨7,0⟩,.ro,0,.immediate,[]⟩]⟩ /- RAF_LLCR -/,
  ⟨0x100020, 4, 0x10000, 1, 0x0, 64, 0, [⟨⟨31,0⟩,.ro,0,.immediate,[]⟩]⟩ /- RAF_PSRC -/,
  ⟨0x100024, 4, 0x10000, 1, 0x0, 64, 0, [⟨⟨31,20⟩,.ro,0,.immediate,[]⟩, ⟨⟨19,16⟩,.ro,0,.immediate,[]⟩, ⟨⟨15,0⟩,.ro,0,.immediate,[]⟩]⟩ /- RAF_PCAP -/,
  ⟨0x100030, 4, 0x10000, 1, 0x0, 64, 0, [⟨⟨31,0⟩,.ro,0,.immediate,[]⟩]⟩ /- RAF_CNT_CRC -/,
  ⟨0x100034, 4, 0x10000, 1, 0x0, 64, 0, [⟨⟨31,0⟩,.ro,0,.immediate,[]⟩]⟩ /- RAF_CNT_NAK -/,
  ⟨0x100038, 4, 0x10000, 1, 0x0, 64, 0, [⟨⟨31,0⟩,.ro,0,.immediate,[]⟩]⟩ /- RAF_CNT_DUP -/,
  ⟨0x10003C, 4, 0x10000, 1, 0x0, 64, 0, [⟨⟨31,0⟩,.ro,0,.immediate,[]⟩]⟩ /- RAF_CNT_PROTO -/,
  ⟨0x100040, 4, 0x10000, 1, 0x0, 64, 0, [⟨⟨31,0⟩,.ro,0,.immediate,[]⟩]⟩ /- RAF_CNT_CREDIT -/,
  ⟨0x100044, 4, 0x10000, 1, 0x0, 64, 0, [⟨⟨31,0⟩,.ro,0,.immediate,[]⟩]⟩ /- RAF_CNT_REPLAY -/,
  ⟨0x100048, 4, 0x10000, 1, 0x0, 64, 0, [⟨⟨31,0⟩,.ro,0,.immediate,[]⟩]⟩ /- RAF_CNT_RETRAIN -/,
  ⟨0x10004C, 4, 0x10000, 1, 0x0, 64, 0, [⟨⟨6,0⟩,.wo,0,.immediate,[]⟩]⟩ /- RAF_CNT_CLR -/,
  ⟨0x100060, 4, 0x10000, 4, 0x4, 64, 0, [⟨⟨31,0⟩,.ro,0,.immediate,[]⟩]⟩ /- RAF_PRBS_ERR -/]

/-- The registers of the RDG block. -/
def regsRDG : List RegDef := [
  ⟨0x140000, 4, 0x10000, 1, 0x0, 32, 0, [⟨⟨11,8⟩,.sr,0,.atCommit,[(3,15)]⟩, ⟨⟨7,6⟩,.sr,1,.atCommit,[(2,3)]⟩, ⟨⟨3,2⟩,.sr,3,.atCommit,[]⟩, ⟨⟨1,1⟩,.sr,0,.atCommit,[]⟩, ⟨⟨0,0⟩,.sr,0,.atCommit,[]⟩]⟩ /- RDG_LCFG -/,
  ⟨0x140004, 4, 0x10000, 1, 0x0, 32, 0, [⟨⟨31,24⟩,.sr,4,.atCommit,[(0,0)]⟩, ⟨⟨23,16⟩,.sr,0x14,.atCommit,[(0,0)]⟩, ⟨⟨15,8⟩,.sr,0xa,.atCommit,[(0,0)]⟩, ⟨⟨7,0⟩,.sr,0x14,.atCommit,[(0,0)]⟩]⟩ /- RDG_LTMR -/,
  ⟨0x140008, 4, 0x10000, 1, 0x0, 64, 0, [⟨⟨1,0⟩,.rw,0,.immediate,[(3,3)]⟩]⟩ /- RDG_LOOP -/,
  ⟨0x14000C, 4, 0x10000, 1, 0x0, 64, 0, [⟨⟨23,16⟩,.rw,0,.immediate,[]⟩, ⟨⟨3,3⟩,.rw,0,.immediate,[]⟩, ⟨⟨2,2⟩,.rw,0,.immediate,[]⟩, ⟨⟨1,0⟩,.rw,0,.immediate,[(3,3)]⟩]⟩ /- RDG_PRBS -/,
  ⟨0x140010, 4, 0x10000, 1, 0x0, 64, 0, [⟨⟨31,28⟩,.ro,0,.immediate,[]⟩, ⟨⟨27,26⟩,.ro,0,.immediate,[]⟩, ⟨⟨21,20⟩,.ro,0,.immediate,[]⟩, ⟨⟨17,16⟩,.ro,0,.immediate,[]⟩, ⟨⟨9,8⟩,.ro,2,.immediate,[]⟩, ⟨⟨7,0⟩,.ro,0,.immediate,[]⟩]⟩ /- RDG_PST -/,
  ⟨0x140014, 4, 0x10000, 1, 0x0, 64, 0, [⟨⟨27,16⟩,.ro,0,.immediate,[]⟩, ⟨⟨11,0⟩,.ro,0,.immediate,[]⟩]⟩ /- RDG_LLST -/,
  ⟨0x140018, 4, 0x10000, 1, 0x0, 64, 0, [⟨⟨27,16⟩,.ro,0,.immediate,[]⟩, ⟨⟨15,8⟩,.ro,0,.immediate,[]⟩, ⟨⟨7,0⟩,.ro,0,.immediate,[]⟩]⟩ /- RDG_LLCR -/,
  ⟨0x140020, 4, 0x10000, 1, 0x0, 64, 0, [⟨⟨31,0⟩,.ro,0,.immediate,[]⟩]⟩ /- RDG_PSRC -/,
  ⟨0x140024, 4, 0x10000, 1, 0x0, 64, 0, [⟨⟨31,20⟩,.ro,0,.immediate,[]⟩, ⟨⟨19,16⟩,.ro,0,.immediate,[]⟩, ⟨⟨15,0⟩,.ro,0,.immediate,[]⟩]⟩ /- RDG_PCAP -/,
  ⟨0x140030, 4, 0x10000, 1, 0x0, 64, 0, [⟨⟨31,0⟩,.ro,0,.immediate,[]⟩]⟩ /- RDG_CNT_CRC -/,
  ⟨0x140034, 4, 0x10000, 1, 0x0, 64, 0, [⟨⟨31,0⟩,.ro,0,.immediate,[]⟩]⟩ /- RDG_CNT_NAK -/,
  ⟨0x140038, 4, 0x10000, 1, 0x0, 64, 0, [⟨⟨31,0⟩,.ro,0,.immediate,[]⟩]⟩ /- RDG_CNT_DUP -/,
  ⟨0x14003C, 4, 0x10000, 1, 0x0, 64, 0, [⟨⟨31,0⟩,.ro,0,.immediate,[]⟩]⟩ /- RDG_CNT_PROTO -/,
  ⟨0x140040, 4, 0x10000, 1, 0x0, 64, 0, [⟨⟨31,0⟩,.ro,0,.immediate,[]⟩]⟩ /- RDG_CNT_CREDIT -/,
  ⟨0x140044, 4, 0x10000, 1, 0x0, 64, 0, [⟨⟨31,0⟩,.ro,0,.immediate,[]⟩]⟩ /- RDG_CNT_REPLAY -/,
  ⟨0x140048, 4, 0x10000, 1, 0x0, 64, 0, [⟨⟨31,0⟩,.ro,0,.immediate,[]⟩]⟩ /- RDG_CNT_RETRAIN -/,
  ⟨0x14004C, 4, 0x10000, 1, 0x0, 64, 0, [⟨⟨6,0⟩,.wo,0,.immediate,[]⟩]⟩ /- RDG_CNT_CLR -/,
  ⟨0x140060, 4, 0x10000, 2, 0x4, 64, 0, [⟨⟨31,0⟩,.ro,0,.immediate,[]⟩]⟩ /- RDG_PRBS_ERR -/,
  ⟨0x140080, 4, 0x10000, 1, 0x0, 64, 0, [⟨⟨31,0⟩,.ro,0,.immediate,[]⟩]⟩ /- RDG_PDSN_LO -/,
  ⟨0x140084, 4, 0x10000, 1, 0x0, 64, 0, [⟨⟨31,0⟩,.ro,0,.immediate,[]⟩]⟩ /- RDG_PDSN_HI -/,
  ⟨0x140088, 4, 0x10000, 1, 0x0, 64, 0, [⟨⟨2,2⟩,.ro,0,.immediate,[]⟩, ⟨⟨1,0⟩,.ro,0,.immediate,[]⟩]⟩ /- RDG_LISO -/,
  ⟨0x14008C, 4, 0x10000, 1, 0x0, 64, 0, [⟨⟨31,0⟩,.ro,0,.immediate,[]⟩]⟩ /- RDG_LOFF -/,
  ⟨0x140090, 4, 0x10000, 1, 0x0, 64, 0, [⟨⟨15,0⟩,.ro,0,.immediate,[]⟩]⟩ /- RDG_LDLY -/,
  ⟨0x148000, 1, 0x0, 1, 0x0, 32, 0, [⟨⟨31,16⟩,.sr,0,.atCommit,[]⟩, ⟨⟨7,0⟩,.sr,0xa,.atCommit,[(0,0)]⟩]⟩ /- RDG_VCFG -/,
  ⟨0x148010, 1, 0x0, 1, 0x0, 64, 0, [⟨⟨31,31⟩,.ro,0,.immediate,[]⟩, ⟨⟨30,30⟩,.ro,0,.immediate,[]⟩, ⟨⟨29,24⟩,.ro,0,.immediate,[]⟩, ⟨⟨23,18⟩,.ro,0,.immediate,[]⟩, ⟨⟨17,12⟩,.ro,0,.immediate,[]⟩, ⟨⟨0,0⟩,.ro,0,.immediate,[]⟩]⟩ /- RDG_ROLE -/,
  ⟨0x148014, 1, 0x0, 1, 0x0, 64, 0, [⟨⟨31,0⟩,.ro,0,.immediate,[]⟩]⟩ /- RDG_EPOCH -/,
  ⟨0x148020, 1, 0x0, 1, 0x0, 64, 0, [⟨⟨31,31⟩,.ro,0,.immediate,[]⟩, ⟨⟨30,30⟩,.ro,0,.immediate,[]⟩, ⟨⟨29,29⟩,.ro,0,.immediate,[]⟩, ⟨⟨21,16⟩,.ro,0,.immediate,[]⟩, ⟨⟨13,8⟩,.ro,0x3f,.immediate,[]⟩, ⟨⟨2,0⟩,.ro,7,.immediate,[]⟩]⟩ /- RDG_TSTAT -/,
  ⟨0x148028, 1, 0x0, 1, 0x0, 64, 0, [⟨⟨15,8⟩,.ro,0,.immediate,[]⟩, ⟨⟨7,0⟩,.ro,0,.immediate,[]⟩]⟩ /- RDG_DIAM -/,
  ⟨0x148030, 1, 0x0, 1, 0x0, 64, 0, [⟨⟨31,0⟩,.ro,0,.immediate,[]⟩]⟩ /- RDG_REACH_LO -/,
  ⟨0x148034, 1, 0x0, 1, 0x0, 64, 0, [⟨⟨31,0⟩,.ro,0,.immediate,[]⟩]⟩ /- RDG_REACH_HI -/,
  ⟨0x148038, 1, 0x0, 1, 0x0, 64, 0, [⟨⟨31,31⟩,.ro,0,.immediate,[]⟩, ⟨⟨29,24⟩,.ro,0,.immediate,[]⟩]⟩ /- RDG_HEAD -/,
  ⟨0x148040, 1, 0x0, 1, 0x0, 64, 0, [⟨⟨31,0⟩,.ro,0,.immediate,[]⟩]⟩ /- RDG_VCMD_MISS_LO -/,
  ⟨0x148044, 1, 0x0, 1, 0x0, 64, 0, [⟨⟨31,0⟩,.ro,0,.immediate,[]⟩]⟩ /- RDG_VCMD_MISS_HI -/,
  ⟨0x148060, 1, 0x0, 1, 0x0, 64, 0, [⟨⟨31,0⟩,.ro,0,.immediate,[]⟩]⟩ /- RDG_VCNT_FWD -/,
  ⟨0x148064, 1, 0x0, 1, 0x0, 64, 0, [⟨⟨31,0⟩,.ro,0,.immediate,[]⟩]⟩ /- RDG_VCNT_BOUNCE -/,
  ⟨0x148068, 1, 0x0, 1, 0x0, 64, 0, [⟨⟨31,0⟩,.ro,0,.immediate,[]⟩]⟩ /- RDG_VCNT_DUP -/,
  ⟨0x14806C, 1, 0x0, 1, 0x0, 64, 0, [⟨⟨31,0⟩,.ro,0,.immediate,[]⟩]⟩ /- RDG_VCNT_VT_STEP -/,
  ⟨0x148070, 1, 0x0, 1, 0x0, 64, 0, [⟨⟨3,0⟩,.wo,0,.immediate,[]⟩]⟩ /- RDG_VCNT_CLR -/]

/-- The registers of the GEN block. -/
def regsGEN : List RegDef := [
  ⟨0x180000, 1, 0x0, 1, 0x0, 1, 0, [⟨⟨11,8⟩,.sr,1,.atBoundary,[(0,0),(11,15)]⟩, ⟨⟨5,4⟩,.sr,0,.atBoundary,[(3,3)]⟩, ⟨⟨3,3⟩,.sr,0,.atBoundary,[]⟩, ⟨⟨2,2⟩,.sr,0,.atBoundary,[]⟩, ⟨⟨1,0⟩,.sr,0,.atBoundary,[(3,3)]⟩]⟩ /- GEN_CFG -/,
  ⟨0x180004, 1, 0x0, 1, 0x0, 1, 0, [⟨⟨31,0⟩,.sr,0x17d7840,.atBoundary,[(0,4999999),(50050001,4294967295)]⟩]⟩ /- GEN_PERIOD -/,
  ⟨0x180008, 1, 0x0, 1, 0x0, 1, 0, [⟨⟨25,16⟩,.sr,0x40,.atBoundary,[(0,0),(768,1023)]⟩, ⟨⟨15,0⟩,.sr,0x1fca,.atBoundary,[(0,812)]⟩]⟩ /- GEN_ROWT -/,
  ⟨0x18000C, 1, 0x0, 1, 0x0, 1, 0, [⟨⟨31,28⟩,.sr,0xf,.atBoundary,[(8,14)]⟩, ⟨⟨27,24⟩,.sr,0xf,.atBoundary,[(8,14)]⟩, ⟨⟨23,20⟩,.sr,0xf,.atBoundary,[(8,14)]⟩, ⟨⟨19,16⟩,.sr,0xf,.atBoundary,[(8,14)]⟩, ⟨⟨15,12⟩,.sr,0xf,.atBoundary,[(8,14)]⟩, ⟨⟨11,8⟩,.sr,0xf,.atBoundary,[(8,14)]⟩, ⟨⟨7,4⟩,.sr,0xf,.atBoundary,[(8,14)]⟩, ⟨⟨3,0⟩,.sr,0xf,.atBoundary,[(8,14)]⟩]⟩ /- GEN_ORDER -/,
  ⟨0x180010, 1, 0x0, 1, 0x0, 1, 0, [⟨⟨23,0⟩,.sr,0xea60,.atBoundary,[]⟩]⟩ /- GEN_GUARD -/,
  ⟨0x180014, 1, 0x0, 1, 0x0, 1, 0, [⟨⟨31,0⟩,.sr,0,.atBoundary,[]⟩]⟩ /- GEN_PHASE -/,
  ⟨0x180018, 1, 0x0, 1, 0x0, 1, 0, [⟨⟨23,0⟩,.sr,0x4b0,.atBoundary,[]⟩]⟩ /- GEN_MOVE -/,
  ⟨0x18001C, 1, 0x0, 1, 0x0, 1, 0, [⟨⟨31,0⟩,.sr,0,.atBoundary,[]⟩]⟩ /- GEN_FCSET_LO -/,
  ⟨0x180020, 1, 0x0, 1, 0x0, 1, 0, [⟨⟨31,31⟩,.sr,0,.atBoundary,[]⟩, ⟨⟨15,0⟩,.sr,0,.atBoundary,[]⟩]⟩ /- GEN_FCSET_HI -/,
  ⟨0x180040, 8, 0x10, 1, 0x0, 2, 1, [⟨⟨31,0⟩,.sr,0,.atBoundary,[]⟩]⟩ /- GEN_SOFF -/,
  ⟨0x180044, 8, 0x10, 1, 0x0, 2, 1, [⟨⟨31,0⟩,.sr,0,.atBoundary,[]⟩]⟩ /- GEN_SDUR -/,
  ⟨0x180048, 8, 0x10, 1, 0x0, 2, 1, [⟨⟨13,12⟩,.sr,0,.atBoundary,[(3,3)]⟩, ⟨⟨8,8⟩,.sr,0,.atBoundary,[]⟩, ⟨⟨6,4⟩,.sr,0,.atBoundary,[]⟩, ⟨⟨0,0⟩,.sr,0,.atBoundary,[]⟩]⟩ /- GEN_SSRC -/,
  ⟨0x180200, 1, 0x0, 1, 0x0, 64, 0, [⟨⟨31,24⟩,.ro,0,.immediate,[]⟩, ⟨⟨23,20⟩,.ro,0,.immediate,[]⟩, ⟨⟨12,12⟩,.ro,0,.immediate,[]⟩, ⟨⟨11,11⟩,.ro,0,.immediate,[]⟩, ⟨⟨10,10⟩,.ro,0,.immediate,[]⟩, ⟨⟨9,9⟩,.ro,1,.immediate,[]⟩, ⟨⟨6,4⟩,.ro,0,.immediate,[]⟩, ⟨⟨3,0⟩,.ro,0,.immediate,[]⟩]⟩ /- GEN_STAT -/,
  ⟨0x180204, 1, 0x0, 1, 0x0, 64, 0, [⟨⟨31,12⟩,.ro,0,.immediate,[]⟩, ⟨⟨11,0⟩,.ro,0,.immediate,[]⟩]⟩ /- GEN_LINE -/,
  ⟨0x180208, 1, 0x0, 1, 0x0, 64, 0, [⟨⟨31,0⟩,.ro,0,.immediate,[]⟩]⟩ /- GEN_PHERR -/,
  ⟨0x180210, 1, 0x0, 1, 0x0, 64, 0, [⟨⟨31,0⟩,.ro,0,.immediate,[]⟩]⟩ /- GEN_FC_LO -/,
  ⟨0x180214, 1, 0x0, 1, 0x0, 64, 0, [⟨⟨31,0⟩,.ro,0,.immediate,[]⟩]⟩ /- GEN_FC_HI -/,
  ⟨0x180218, 1, 0x0, 1, 0x0, 64, 0, [⟨⟨31,0⟩,.ro,0,.immediate,[]⟩]⟩ /- GEN_VT_LO -/,
  ⟨0x18021C, 1, 0x0, 1, 0x0, 64, 0, [⟨⟨31,0⟩,.ro,0,.immediate,[]⟩]⟩ /- GEN_VT_HI -/,
  ⟨0x180220, 1, 0x0, 1, 0x0, 64, 0, [⟨⟨31,0⟩,.ro,0,.immediate,[]⟩]⟩ /- GEN_BND_LO -/,
  ⟨0x180224, 1, 0x0, 1, 0x0, 64, 0, [⟨⟨31,0⟩,.ro,0,.immediate,[]⟩]⟩ /- GEN_BND_HI -/,
  ⟨0x180228, 1, 0x0, 1, 0x0, 64, 0, [⟨⟨31,0⟩,.ro,0,.immediate,[]⟩]⟩ /- GEN_VT_UNC -/,
  ⟨0x18022C, 1, 0x0, 1, 0x0, 64, 0, [⟨⟨31,0⟩,.ro,0x8f0d1800,.immediate,[]⟩]⟩ /- GEN_AONK -/,
  ⟨0x180230, 1, 0x0, 1, 0x0, 64, 0, [⟨⟨25,0⟩,.ro,0,.immediate,[]⟩]⟩ /- GEN_BOFF -/,
  ⟨0x180234, 1, 0x0, 1, 0x0, 64, 0, [⟨⟨31,0⟩,.ro,0,.immediate,[]⟩]⟩ /- GEN_DIGEST -/,
  ⟨0x180240, 8, 0x4, 1, 0x0, 64, 0, [⟨⟨31,28⟩,.ro,0xf,.immediate,[]⟩, ⟨⟨25,0⟩,.ro,0,.immediate,[]⟩]⟩ /- GEN_SLOT -/,
  ⟨0x180280, 8, 0x8, 1, 0x0, 64, 0, [⟨⟨31,0⟩,.ro,0,.immediate,[]⟩]⟩ /- GEN_CAM_OPEN -/,
  ⟨0x180284, 8, 0x8, 1, 0x0, 64, 0, [⟨⟨31,0⟩,.ro,0,.immediate,[]⟩]⟩ /- GEN_CAM_DUR -/,
  ⟨0x1802C0, 1, 0x0, 1, 0x0, 64, 0, [⟨⟨31,0⟩,.ro,0,.immediate,[]⟩]⟩ /- GEN_CNT_UNLOCK -/,
  ⟨0x1802C4, 1, 0x0, 1, 0x0, 64, 0, [⟨⟨31,0⟩,.ro,0,.immediate,[]⟩]⟩ /- GEN_CNT_SHUT_MISS -/,
  ⟨0x1802C8, 1, 0x0, 1, 0x0, 64, 0, [⟨⟨31,0⟩,.ro,0,.immediate,[]⟩]⟩ /- GEN_CNT_SHUT_EXTRA -/,
  ⟨0x1802CC, 1, 0x0, 1, 0x0, 64, 0, [⟨⟨2,0⟩,.wo,0,.immediate,[]⟩]⟩ /- GEN_CNT_CLR -/]

/-- The registers of the VIEW block. -/
def regsVIEW : List RegDef := [
  ⟨0x1C0000, 8, 0x1000, 1, 0x0, 2, 1, [⟨⟨11,8⟩,.sr,0,.atBoundary,[]⟩, ⟨⟨4,4⟩,.sr,0,.atBoundary,[]⟩, ⟨⟨0,0⟩,.sr,0,.atBoundary,[]⟩]⟩ /- VIEW_CFG -/,
  ⟨0x1C0004, 8, 0x1000, 1, 0x0, 2, 1, [⟨⟨7,0⟩,.sr,0x50,.atBoundary,[(0,39)]⟩]⟩ /- VIEW_DL -/,
  ⟨0x1C0008, 8, 0x1000, 1, 0x0, 64, 0, [⟨⟨31,16⟩,.ro,0,.immediate,[]⟩, ⟨⟨9,8⟩,.ro,0,.immediate,[]⟩, ⟨⟨7,6⟩,.ro,0,.immediate,[]⟩, ⟨⟨5,4⟩,.ro,0,.immediate,[]⟩, ⟨⟨3,2⟩,.ro,0,.immediate,[]⟩, ⟨⟨1,0⟩,.ro,0,.immediate,[]⟩]⟩ /- VIEW_SLOTSTAT -/,
  ⟨0x1C0040, 8, 0x1000, 4, 0x10, 64, 0, [⟨⟨31,16⟩,.ro,0,.immediate,[]⟩, ⟨⟨15,0⟩,.ro,0,.immediate,[]⟩]⟩ /- VIEW_WRECT -/,
  ⟨0x1C0044, 8, 0x1000, 4, 0x10, 64, 0, [⟨⟨31,16⟩,.ro,0,.immediate,[]⟩, ⟨⟨15,0⟩,.ro,0,.immediate,[]⟩]⟩ /- VIEW_WSIZE -/,
  ⟨0x1C0048, 8, 0x1000, 4, 0x10, 64, 0, [⟨⟨31,0⟩,.ro,0xffffffff,.immediate,[]⟩]⟩ /- VIEW_WLAST -/,
  ⟨0x1C0080, 8, 0x1000, 1, 0x0, 64, 0, [⟨⟨31,0⟩,.ro,0,.immediate,[]⟩]⟩ /- VIEW_CNT_MISS -/,
  ⟨0x1C0084, 8, 0x1000, 1, 0x0, 64, 0, [⟨⟨31,0⟩,.ro,0,.immediate,[]⟩]⟩ /- VIEW_CNT_LATE -/,
  ⟨0x1C0100, 8, 0x1000, 1, 0x0, 2, 1, [⟨⟨13,12⟩,.sr,0,.atBoundary,[]⟩, ⟨⟨11,10⟩,.sr,3,.atBoundary,[]⟩, ⟨⟨9,8⟩,.sr,1,.atBoundary,[]⟩, ⟨⟨5,4⟩,.sr,0,.atBoundary,[]⟩, ⟨⟨3,2⟩,.sr,3,.atBoundary,[]⟩, ⟨⟨1,0⟩,.sr,1,.atBoundary,[]⟩]⟩ /- VIEW_HMISS -/,
  ⟨0x1C0104, 8, 0x1000, 1, 0x0, 2, 1, [⟨⟨13,12⟩,.sr,0,.atBoundary,[]⟩, ⟨⟨11,10⟩,.sr,1,.atBoundary,[]⟩, ⟨⟨9,8⟩,.sr,2,.atBoundary,[]⟩, ⟨⟨5,4⟩,.sr,3,.atBoundary,[]⟩, ⟨⟨3,2⟩,.sr,1,.atBoundary,[]⟩, ⟨⟨1,0⟩,.sr,2,.atBoundary,[]⟩]⟩ /- VIEW_HSLEEP -/,
  ⟨0x1C0108, 8, 0x1000, 1, 0x0, 2, 1, [⟨⟨31,16⟩,.sr,0,.atBoundary,[]⟩, ⟨⟨15,8⟩,.sr,0,.atBoundary,[]⟩, ⟨⟨7,0⟩,.sr,8,.atBoundary,[]⟩]⟩ /- VIEW_HTIME -/,
  ⟨0x1C010C, 8, 0x1000, 1, 0x0, 2, 1, [⟨⟨7,0⟩,.sr,2,.atBoundary,[]⟩]⟩ /- VIEW_HREJ -/,
  ⟨0x1C0110, 8, 0x1000, 1, 0x0, 64, 0, [⟨⟨24,24⟩,.ro,0,.immediate,[]⟩, ⟨⟨20,16⟩,.ro,0,.immediate,[]⟩, ⟨⟨12,8⟩,.ro,0,.immediate,[]⟩, ⟨⟨4,0⟩,.ro,0,.immediate,[]⟩]⟩ /- VIEW_HSTAT -/,
  ⟨0x1C0120, 8, 0x1000, 5, 0x4, 64, 0, [⟨⟨17,16⟩,.ro,0,.immediate,[]⟩, ⟨⟨15,0⟩,.ro,0,.immediate,[]⟩]⟩ /- VIEW_HAGE -/,
  ⟨0x1C8000, 1, 0x0, 1, 0x0, 64, 0, [⟨⟨1,1⟩,.rw,1,.immediate,[]⟩, ⟨⟨0,0⟩,.rw,1,.immediate,[]⟩]⟩ /- VIEW_ING_CFG -/,
  ⟨0x1C8010, 1, 0x0, 1, 0x0, 64, 0, [⟨⟨31,0⟩,.ro,0xffffffff,.immediate,[]⟩]⟩ /- VIEW_BLAST -/,
  ⟨0x1C8020, 1, 0x0, 1, 0x0, 64, 0, [⟨⟨31,0⟩,.ro,0,.immediate,[]⟩]⟩ /- VIEW_CNT_BAD -/,
  ⟨0x1C8024, 1, 0x0, 1, 0x0, 64, 0, [⟨⟨31,0⟩,.ro,0,.immediate,[]⟩]⟩ /- VIEW_CNT_STALE -/,
  ⟨0x1C8028, 1, 0x0, 1, 0x0, 64, 0, [⟨⟨31,0⟩,.ro,0,.immediate,[]⟩]⟩ /- VIEW_CNT_EARLY -/,
  ⟨0x1C802C, 1, 0x0, 1, 0x0, 64, 0, [⟨⟨31,0⟩,.ro,0,.immediate,[]⟩]⟩ /- VIEW_CNT_AFTER_DONE -/,
  ⟨0x1C8030, 1, 0x0, 1, 0x0, 64, 0, [⟨⟨31,0⟩,.ro,0,.immediate,[]⟩]⟩ /- VIEW_CNT_NO_RECT -/,
  ⟨0x1C8034, 1, 0x0, 1, 0x0, 64, 0, [⟨⟨31,0⟩,.ro,0,.immediate,[]⟩]⟩ /- VIEW_CNT_NO_BUFFER -/,
  ⟨0x1C8038, 1, 0x0, 1, 0x0, 64, 0, [⟨⟨31,0⟩,.ro,0,.immediate,[]⟩]⟩ /- VIEW_CNT_ABANDON -/,
  ⟨0x1C803C, 1, 0x0, 1, 0x0, 64, 0, [⟨⟨31,0⟩,.ro,0,.immediate,[]⟩]⟩ /- VIEW_CNT_LL_DISCARD -/,
  ⟨0x1C8040, 1, 0x0, 1, 0x0, 64, 0, [⟨⟨31,0⟩,.ro,0,.immediate,[]⟩]⟩ /- VIEW_CNT_BLATE -/,
  ⟨0x1C8044, 1, 0x0, 1, 0x0, 64, 0, [⟨⟨23,16⟩,.wo,0,.immediate,[]⟩, ⟨⟨8,0⟩,.wo,0,.immediate,[]⟩]⟩ /- VIEW_CNT_CLR -/,
  ⟨0x1C8060, 1, 0x0, 1, 0x0, 64, 0, [⟨⟨0,0⟩,.ro,0,.immediate,[]⟩]⟩ /- VIEW_HVOL -/,
  ⟨0x1C8064, 1, 0x0, 1, 0x0, 64, 0, [⟨⟨31,0⟩,.ro,0,.immediate,[]⟩]⟩ /- VIEW_CNT_VHOLD_RX -/,
  ⟨0x1C8068, 1, 0x0, 1, 0x0, 64, 0, [⟨⟨31,0⟩,.ro,0,.immediate,[]⟩]⟩ /- VIEW_CNT_VHOLD_LATE -/,
  ⟨0x1C806C, 1, 0x0, 1, 0x0, 64, 0, [⟨⟨31,0⟩,.ro,0,.immediate,[]⟩]⟩ /- VIEW_CNT_PREPEAT -/,
  ⟨0x1C8070, 1, 0x0, 1, 0x0, 64, 0, [⟨⟨2,0⟩,.wo,0,.immediate,[]⟩]⟩ /- VIEW_HCNT_CLR -/]

/-- The registers of the CLR block. -/
def regsCLR : List RegDef := [
  ⟨0x200000, 8, 0x1000, 1, 0x0, 10, 1, [⟨⟨1,0⟩,.sr,0,.atBoundary,[(3,3)]⟩]⟩ /- CLR_DEC -/,
  ⟨0x200004, 8, 0x1000, 1, 0x0, 10, 1, [⟨⟨23,0⟩,.sr,0x10000,.atBoundary,[]⟩]⟩ /- CLR_GAIN -/,
  ⟨0x200008, 8, 0x1000, 1, 0x0, 10, 1, [⟨⟨8,8⟩,.sr,0,.atBoundary,[]⟩, ⟨⟨1,0⟩,.sr,0,.atBoundary,[(3,3)]⟩]⟩ /- CLR_3D -/,
  ⟨0x20000C, 8, 0x1000, 1, 0x0, 10, 1, [⟨⟨4,0⟩,.sr,8,.atCommit,[(17,31)]⟩]⟩ /- CLR_ALLOC -/,
  ⟨0x200010, 8, 0x1000, 1, 0x0, 64, 0, [⟨⟨20,16⟩,.ro,8,.immediate,[]⟩, ⟨⟨12,8⟩,.ro,8,.immediate,[]⟩, ⟨⟨0,0⟩,.ro,0,.immediate,[]⟩]⟩ /- CLR_ASTAT -/,
  ⟨0x200020, 8, 0x1000, 9, 0x4, 10, 1, [⟨⟨19,0⟩,.sr,0,.atBoundary,[]⟩]⟩ /- CLR_M -/,
  ⟨0x200050, 8, 0x1000, 3, 0x4, 10, 1, [⟨⟨17,0⟩,.sr,0,.atBoundary,[]⟩]⟩ /- CLR_OFF -/,
  ⟨0x200080, 8, 0x1000, 1, 0x0, 64, 0, [⟨⟨31,0⟩,.ro,0,.immediate,[]⟩]⟩ /- CLR_CNT_DSAT -/,
  ⟨0x200084, 8, 0x1000, 1, 0x0, 64, 0, [⟨⟨31,0⟩,.ro,0,.immediate,[]⟩]⟩ /- CLR_CNT_MCLIP -/,
  ⟨0x200088, 8, 0x1000, 1, 0x0, 64, 0, [⟨⟨22,0⟩,.ro,0,.immediate,[]⟩]⟩ /- CLR_LAST_DSAT -/,
  ⟨0x20008C, 8, 0x1000, 1, 0x0, 64, 0, [⟨⟨22,0⟩,.ro,0,.immediate,[]⟩]⟩ /- CLR_LAST_MCLIP -/,
  ⟨0x200090, 8, 0x1000, 1, 0x0, 64, 0, [⟨⟨31,0⟩,.ro,0,.immediate,[]⟩]⟩ /- CLR_CNT_POISON -/,
  ⟨0x208000, 1, 0x0, 1, 0x0, 64, 0, [⟨⟨7,0⟩,.wo,0,.immediate,[]⟩]⟩ /- CLR_CNT_CLR -/]

/-- The registers of the DMU block. -/
def regsDMU : List RegDef := [
  ⟨0x240000, 1, 0x0, 1, 0x0, 18, 0, [⟨⟨16,16⟩,.lk,0,.atBoundary,[]⟩, ⟨⟨0,0⟩,.lk,0,.atBoundary,[]⟩]⟩ /- DMU_PANEL -/,
  ⟨0x240004, 1, 0x0, 1, 0x0, 18, 0, [⟨⟨25,16⟩,.lk,0,.atBoundary,[]⟩, ⟨⟨15,0⟩,.lk,0,.atBoundary,[]⟩]⟩ /- DMU_PREF -/,
  ⟨0x240010, 1, 0x0, 1, 0x0, 20, 0, [⟨⟨31,31⟩,.sr,0,.atBoundary,[]⟩, ⟨⟨16,0⟩,.sr,0,.atBoundary,[(65537,131071)]⟩]⟩ /- DMU_DEF -/,
  ⟨0x240014, 1, 0x0, 1, 0x0, 20, 0, [⟨⟨7,0⟩,.sr,0,.atBoundary,[]⟩]⟩ /- DMU_CMCFG -/,
  ⟨0x240018, 1, 0x0, 1, 0x0, 20, 0, [⟨⟨31,31⟩,.sr,0,.atBoundary,[]⟩, ⟨⟨30,30⟩,.sr,0,.atBoundary,[]⟩, ⟨⟨14,0⟩,.sr,0,.atBoundary,[(24576,32767)]⟩]⟩ /- DMU_FMCLR -/,
  ⟨0x240020, 1, 0x0, 1, 0x0, 64, 0, [⟨⟨30,16⟩,.ro,0,.immediate,[]⟩, ⟨⟨3,3⟩,.ro,0,.immediate,[]⟩, ⟨⟨2,2⟩,.ro,0,.immediate,[]⟩, ⟨⟨1,1⟩,.ro,0,.immediate,[]⟩, ⟨⟨0,0⟩,.ro,0,.immediate,[]⟩]⟩ /- DMU_STAT -/,
  ⟨0x240024, 1, 0x0, 1, 0x0, 64, 0, [⟨⟨16,0⟩,.ro,0,.immediate,[]⟩]⟩ /- DMU_DSTAT -/,
  ⟨0x240028, 1, 0x0, 1, 0x0, 64, 0, [⟨⟨28,16⟩,.ro,0,.immediate,[]⟩, ⟨⟨13,0⟩,.ro,0,.immediate,[]⟩]⟩ /- DMU_WSTAT -/,
  ⟨0x240040, 6, 0x4, 1, 0x0, 64, 0, [⟨⟨31,0⟩,.ro,0,.immediate,[]⟩]⟩ /- DMU_CRC -/,
  ⟨0x240060, 1, 0x0, 1, 0x0, 64, 0, [⟨⟨31,0⟩,.ro,0,.immediate,[]⟩]⟩ /- DMU_CNT_RSAT -/,
  ⟨0x240064, 1, 0x0, 1, 0x0, 64, 0, [⟨⟨31,0⟩,.ro,0,.immediate,[]⟩]⟩ /- DMU_CNT_POISON -/,
  ⟨0x240068, 1, 0x0, 1, 0x0, 64, 0, [⟨⟨1,0⟩,.wo,0,.immediate,[]⟩]⟩ /- DMU_CNT_CLR -/]

/-- The registers of the ODV block. -/
def regsODV : List RegDef := [
  ⟨0x280000, 1, 0x0, 1, 0x0, 21, 0, [⟨⟨5,4⟩,.sr,0,.atBoundary,[]⟩, ⟨⟨0,0⟩,.sr,0,.atBoundary,[]⟩]⟩ /- ODV_CFG -/,
  ⟨0x280010, 4, 0x4, 1, 0x0, 21, 0, [⟨⟨15,0⟩,.sr,0,.atBoundary,[(2401,64895)]⟩]⟩ /- ODV_BAND -/,
  ⟨0x280040, 1, 0x0, 1, 0x0, 64, 0, [⟨⟨26,25⟩,.ro,0,.immediate,[]⟩, ⟨⟨24,16⟩,.ro,0,.immediate,[]⟩, ⟨⟨15,0⟩,.ro,0x190,.immediate,[]⟩]⟩ /- ODV_TEMP -/,
  ⟨0x280044, 1, 0x0, 1, 0x0, 64, 0, [⟨⟨3,3⟩,.ro,0,.immediate,[]⟩, ⟨⟨2,2⟩,.ro,1,.immediate,[]⟩, ⟨⟨1,1⟩,.ro,1,.immediate,[]⟩, ⟨⟨0,0⟩,.ro,0,.immediate,[]⟩]⟩ /- ODV_STAT -/,
  ⟨0x280060, 1, 0x0, 1, 0x0, 64, 0, [⟨⟨31,0⟩,.ro,0,.immediate,[]⟩]⟩ /- ODV_CNT_SAT -/,
  ⟨0x280064, 1, 0x0, 1, 0x0, 64, 0, [⟨⟨31,0⟩,.ro,0,.immediate,[]⟩]⟩ /- ODV_CNT_HINV -/,
  ⟨0x280068, 1, 0x0, 1, 0x0, 64, 0, [⟨⟨1,0⟩,.wo,0,.immediate,[]⟩]⟩ /- ODV_CNT_CLR -/]

/-- The registers of the DTH block. -/
def regsDTH : List RegDef := [
  ⟨0x2C0000, 1, 0x0, 1, 0x0, 64, 0, [⟨⟨1,1⟩,.ro,0,.immediate,[]⟩, ⟨⟨0,0⟩,.ro,1,.immediate,[]⟩]⟩ /- DTH_STAT -/,
  ⟨0x2C0100, 8, 0x10, 1, 0x0, 22, 0, [⟨⟨21,16⟩,.sr,0,.atBoundary,[]⟩, ⟨⟨13,8⟩,.sr,0,.atBoundary,[]⟩, ⟨⟨0,0⟩,.sr,1,.atBoundary,[]⟩]⟩ /- DTH_VCFG -/,
  ⟨0x2C0104, 8, 0x10, 1, 0x0, 22, 0, [⟨⟨31,0⟩,.sr,0x76543210,.atBoundary,[]⟩]⟩ /- DTH_SEQ_LO -/,
  ⟨0x2C0108, 8, 0x10, 1, 0x0, 22, 0, [⟨⟨31,0⟩,.sr,0xfedcba98,.atBoundary,[]⟩]⟩ /- DTH_SEQ_HI -/]

/-- The registers of the SCN block. -/
def regsSCN : List RegDef := [
  ⟨0x300000, 1, 0x0, 1, 0x0, 23, 0, [⟨⟨26,16⟩,.sr,0x600,.atCommit,[(0,0),(1537,2047)]⟩, ⟨⟨12,0⟩,.sr,0x1000,.atCommit,[(0,0),(4097,8191)]⟩]⟩ /- SCN_GEOM -/,
  ⟨0x300004, 1, 0x0, 1, 0x0, 23, 0, [⟨⟨1,0⟩,.sr,0,.atIdle,[(3,3)]⟩]⟩ /- SCN_CFG -/,
  ⟨0x300100, 6, 0x4, 1, 0x0, 35, 0, [⟨⟨31,31⟩,.sr,0,.atCommit,[]⟩, ⟨⟨26,24⟩,.sr,0,.atCommit,[(6,7)]⟩, ⟨⟨21,20⟩,.sr,0,.atCommit,[]⟩, ⟨⟨15,8⟩,.sr,5,.atCommit,[]⟩, ⟨⟨7,0⟩,.sr,5,.atCommit,[]⟩]⟩ /- SCN_PRAIL -/,
  ⟨0x300120, 1, 0x0, 1, 0x0, 35, 0, [⟨⟨31,24⟩,.sr,0xa,.atCommit,[(0,0)]⟩, ⟨⟨23,16⟩,.sr,0x32,.atCommit,[(0,0)]⟩, ⟨⟨10,0⟩,.sr,0x300,.atCommit,[(0,0)]⟩]⟩ /- SCN_PSEQ -/,
  ⟨0x300124, 1, 0x0, 1, 0x0, 35, 0, [⟨⟨25,16⟩,.sr,0x190,.atCommit,[(0,0)]⟩, ⟨⟨7,0⟩,.sr,0x14,.atCommit,[]⟩]⟩ /- SCN_PCOL -/,
  ⟨0x300128, 1, 0x0, 1, 0x0, 35, 0, [⟨⟨31,30⟩,.sr,0,.atCommit,[]⟩, ⟨⟨29,29⟩,.sr,0,.atCommit,[]⟩, ⟨⟨27,26⟩,.sr,0,.atCommit,[(3,3)]⟩, ⟨⟨23,16⟩,.sr,0,.atCommit,[]⟩, ⟨⟨15,0⟩,.sr,0,.atCommit,[]⟩]⟩ /- SCN_PROT -/,
  ⟨0x300140, 1, 0x0, 1, 0x0, 64, 0, [⟨⟨31,28⟩,.ro,0,.immediate,[]⟩, ⟨⟨27,24⟩,.ro,0,.immediate,[]⟩, ⟨⟨21,16⟩,.ro,0,.immediate,[]⟩, ⟨⟨13,8⟩,.ro,0,.immediate,[]⟩, ⟨⟨7,7⟩,.ro,0,.immediate,[]⟩, ⟨⟨3,0⟩,.ro,0,.immediate,[]⟩]⟩ /- SCN_PSTAT -/,
  ⟨0x300144, 1, 0x0, 1, 0x0, 64, 0, [⟨⟨31,31⟩,.ro,0,.immediate,[]⟩, ⟨⟨30,29⟩,.ro,0,.immediate,[]⟩, ⟨⟨19,0⟩,.ro,0,.immediate,[]⟩]⟩ /- SCN_CRACK -/,
  ⟨0x300150, 1, 0x0, 1, 0x0, 64, 0, [⟨⟨31,0⟩,.ro,0,.immediate,[]⟩]⟩ /- SCN_CNT_EMERG -/,
  ⟨0x300154, 1, 0x0, 1, 0x0, 64, 0, [⟨⟨31,0⟩,.ro,0,.immediate,[]⟩]⟩ /- SCN_CNT_CRACK -/,
  ⟨0x300158, 1, 0x0, 1, 0x0, 64, 0, [⟨⟨1,0⟩,.wo,0,.immediate,[]⟩]⟩ /- SCN_CNT_CLR -/]

/-- The registers of the BAT block. -/
def regsBAT : List RegDef := [
  ⟨0x340000, 1, 0x0, 1, 0x0, 24, 0, [⟨⟨3,0⟩,.sr,0xc,.atIdle,[(0,0),(13,15)]⟩]⟩ /- BAT_CFG -/,
  ⟨0x340004, 1, 0x0, 1, 0x0, 24, 0, [⟨⟨7,0⟩,.sr,2,.atCommit,[(0,0)]⟩]⟩ /- BAT_TMR -/,
  ⟨0x340010, 1, 0x0, 1, 0x0, 64, 0, [⟨⟨31,31⟩,.wo,0,.immediate,[]⟩, ⟨⟨30,30⟩,.wo,0,.immediate,[]⟩, ⟨⟨28,24⟩,.wo,0,.immediate,[]⟩, ⟨⟨7,0⟩,.wo,0,.immediate,[]⟩]⟩ /- BAT_CMD -/,
  ⟨0x340014, 1, 0x0, 1, 0x0, 64, 0, [⟨⟨31,0⟩,.rw,0,.immediate,[]⟩]⟩ /- BAT_CMDDATA -/,
  ⟨0x340018, 1, 0x0, 1, 0x0, 64, 0, [⟨⟨31,31⟩,.ro,0,.immediate,[]⟩, ⟨⟨7,0⟩,.ro,0,.immediate,[]⟩]⟩ /- BAT_CMDST -/,
  ⟨0x34001C, 1, 0x0, 1, 0x0, 64, 0, [⟨⟨31,0⟩,.ro,0,.immediate,[]⟩]⟩ /- BAT_CMDRD -/,
  ⟨0x340040, 2, 0x20000, 1, 0x0, 64, 0, [⟨⟨31,0⟩,.ro,0,.immediate,[]⟩]⟩ /- BAT_CNT_ROWCRC -/,
  ⟨0x340044, 2, 0x20000, 1, 0x0, 64, 0, [⟨⟨31,0⟩,.ro,0,.immediate,[]⟩]⟩ /- BAT_CNT_BLKERR -/,
  ⟨0x340048, 2, 0x20000, 1, 0x0, 64, 0, [⟨⟨31,0⟩,.ro,0,.immediate,[]⟩]⟩ /- BAT_CNT_STCRC -/,
  ⟨0x34004C, 2, 0x20000, 1, 0x0, 64, 0, [⟨⟨31,0⟩,.ro,0,.immediate,[]⟩]⟩ /- BAT_CNT_RETRAIN -/,
  ⟨0x340050, 2, 0x20000, 1, 0x0, 64, 0, [⟨⟨3,0⟩,.wo,0,.immediate,[]⟩]⟩ /- BAT_CNT_CLR -/,
  ⟨0x340100, 2, 0x20000, 12, 0x10, 24, 0, [⟨⟨10,10⟩,.sr,0,.atIdle,[]⟩, ⟨⟨9,0⟩,.sr,0,.atIdle,[]⟩]⟩ /- BAT_DMAP -/,
  ⟨0x340104, 2, 0x20000, 12, 0x10, 64, 0, [⟨⟨25,16⟩,.ro,0,.immediate,[]⟩, ⟨⟨15,8⟩,.ro,0,.immediate,[]⟩, ⟨⟨4,4⟩,.ro,0,.immediate,[]⟩, ⟨⟨2,0⟩,.ro,0,.immediate,[]⟩]⟩ /- BAT_DSTAT -/]

/-- The registers of the LTH block. -/
def regsLTH : List RegDef := [
  ⟨0x380000, 1, 0x0, 1, 0x0, 25, 0, [⟨⟨0,0⟩,.sr,0,.atIdle,[]⟩]⟩ /- LTH_CFG -/,
  ⟨0x380004, 1, 0x0, 1, 0x0, 25, 0, [⟨⟨23,16⟩,.sr,0x18,.atIdle,[(0,11)]⟩, ⟨⟨15,8⟩,.sr,0x48,.atIdle,[(0,23)]⟩, ⟨⟨7,0⟩,.sr,0xc,.atIdle,[(0,3)]⟩]⟩ /- LTH_TIME0 -/,
  ⟨0x380008, 1, 0x0, 1, 0x0, 25, 0, [⟨⟨7,0⟩,.sr,0x30,.atIdle,[(0,11)]⟩]⟩ /- LTH_TIME1 -/,
  ⟨0x380010, 1, 0x0, 1, 0x0, 64, 0, [⟨⟨3,0⟩,.ro,0,.immediate,[]⟩]⟩ /- LTH_STAT -/]

/-- The registers of the FST block. -/
def regsFST : List RegDef := [
  ⟨0x3C0000, 1, 0x0, 1, 0x0, 64, 0, [⟨⟨4,4⟩,.ro,0,.immediate,[]⟩, ⟨⟨3,2⟩,.ro,0,.immediate,[]⟩, ⟨⟨1,0⟩,.ro,0,.immediate,[]⟩]⟩ /- FST_STAT -/,
  ⟨0x3C0008, 1, 0x0, 1, 0x0, 26, 0, [⟨⟨20,16⟩,.sr,0,.atCommit,[(17,31)]⟩, ⟨⟨15,8⟩,.sr,0,.atCommit,[]⟩, ⟨⟨0,0⟩,.sr,0,.atCommit,[]⟩]⟩ /- FST_ALLOC -/,
  ⟨0x3C0020, 8, 0x10, 4, 0x4, 26, 0, [⟨⟨31,31⟩,.sr,0,.atCommit,[]⟩, ⟨⟨30,30⟩,.sr,0,.atCommit,[]⟩, ⟨⟨28,16⟩,.sr,0,.atCommit,[]⟩, ⟨⟨10,0⟩,.sr,0,.atCommit,[]⟩]⟩ /- FST_WALLOC -/,
  ⟨0x3C00C0, 1, 0x0, 1, 0x0, 64, 0, [⟨⟨22,0⟩,.ro,0x7ca000,.immediate,[]⟩]⟩ /- FST_FREE -/,
  ⟨0x3C00C4, 1, 0x0, 1, 0x0, 64, 0, [⟨⟨22,0⟩,.ro,0x7ca000,.immediate,[]⟩]⟩ /- FST_FREE_RUN -/,
  ⟨0x3C00C8, 1, 0x0, 1, 0x0, 64, 0, [⟨⟨15,0⟩,.ro,0,.immediate,[]⟩]⟩ /- FST_DEMAND -/,
  ⟨0x3C00D0, 1, 0x0, 1, 0x0, 64, 0, [⟨⟨15,12⟩,.rw,0,.immediate,[(8,15)]⟩, ⟨⟨10,8⟩,.rw,0,.immediate,[]⟩, ⟨⟨5,4⟩,.rw,0,.immediate,[]⟩, ⟨⟨3,0⟩,.rw,0,.immediate,[]⟩]⟩ /- FST_MAP_SEL -/,
  ⟨0x3C00D4, 1, 0x0, 1, 0x0, 64, 0, [⟨⟨22,0⟩,.ro,0,.immediate,[]⟩]⟩ /- FST_MAP_ADDR -/,
  ⟨0x3C00D8, 1, 0x0, 1, 0x0, 64, 0, [⟨⟨22,0⟩,.ro,0,.immediate,[]⟩]⟩ /- FST_MAP_SIZE -/,
  ⟨0x3C00DC, 1, 0x0, 1, 0x0, 64, 0, [⟨⟨31,0⟩,.ro,0xffffffff,.immediate,[]⟩]⟩ /- FST_MAP_FRAME -/,
  ⟨0x3C00E0, 1, 0x0, 1, 0x0, 64, 0, [⟨⟨31,0⟩,.ro,0,.immediate,[]⟩]⟩ /- FST_CNT_CE -/,
  ⟨0x3C00E4, 1, 0x0, 1, 0x0, 64, 0, [⟨⟨31,0⟩,.ro,0,.immediate,[]⟩]⟩ /- FST_CNT_UE -/,
  ⟨0x3C00E8, 1, 0x0, 1, 0x0, 64, 0, [⟨⟨29,0⟩,.ro,0,.immediate,[]⟩]⟩ /- FST_ERR_ADDR -/,
  ⟨0x3C00EC, 1, 0x0, 1, 0x0, 64, 0, [⟨⟨1,0⟩,.wo,0,.immediate,[]⟩]⟩ /- FST_CNT_CLR -/]

/-- The registers of the SWG block. -/
def regsSWG : List RegDef := [
  ⟨0x400000, 1, 0x0, 1, 0x0, 27, 0, [⟨⟨7,6⟩,.sr,0,.atCommit,[(3,3)]⟩, ⟨⟨5,4⟩,.sr,0,.atCommit,[(3,3)]⟩, ⟨⟨3,2⟩,.sr,0,.atCommit,[(3,3)]⟩, ⟨⟨1,0⟩,.sr,0,.atCommit,[(3,3)]⟩]⟩ /- SWG_MODE0 -/,
  ⟨0x400004, 1, 0x0, 1, 0x0, 27, 0, [⟨⟨15,14⟩,.sr,0,.atCommit,[(3,3)]⟩, ⟨⟨13,12⟩,.sr,0,.atCommit,[(3,3)]⟩, ⟨⟨11,10⟩,.sr,0,.atCommit,[(3,3)]⟩, ⟨⟨9,8⟩,.sr,0,.atCommit,[(3,3)]⟩, ⟨⟨7,6⟩,.sr,0,.atCommit,[(3,3)]⟩, ⟨⟨5,4⟩,.sr,0,.atCommit,[(3,3)]⟩, ⟨⟨3,2⟩,.sr,0,.atCommit,[(3,3)]⟩, ⟨⟨1,0⟩,.sr,0,.atCommit,[(3,3)]⟩]⟩ /- SWG_MODE1 -/,
  ⟨0x400010, 1, 0x0, 1, 0x0, 64, 0, [⟨⟨31,0⟩,.ro,0,.immediate,[]⟩]⟩ /- SWG_CNT_BLK -/,
  ⟨0x400014, 1, 0x0, 1, 0x0, 64, 0, [⟨⟨31,0⟩,.ro,0,.immediate,[]⟩]⟩ /- SWG_CNT_LOSSY -/,
  ⟨0x400018, 1, 0x0, 1, 0x0, 64, 0, [⟨⟨31,0⟩,.ro,0,.immediate,[]⟩]⟩ /- SWG_CNT_BAD -/,
  ⟨0x40001C, 1, 0x0, 1, 0x0, 64, 0, [⟨⟨31,0⟩,.ro,0,.immediate,[]⟩]⟩ /- SWG_CNT_EVICT -/,
  ⟨0x400020, 1, 0x0, 1, 0x0, 64, 0, [⟨⟨31,0⟩,.ro,0,.immediate,[]⟩]⟩ /- SWG_CNT_REENC -/,
  ⟨0x400024, 1, 0x0, 1, 0x0, 64, 0, [⟨⟨4,0⟩,.wo,0,.immediate,[]⟩]⟩ /- SWG_CNT_CLR -/,
  ⟨0x400030, 1, 0x0, 1, 0x0, 64, 0, [⟨⟨15,12⟩,.ro,0,.immediate,[]⟩, ⟨⟨11,8⟩,.ro,0,.immediate,[]⟩, ⟨⟨7,4⟩,.ro,0,.immediate,[]⟩, ⟨⟨3,0⟩,.ro,0,.immediate,[]⟩]⟩ /- SWG_QMAX -/,
  ⟨0x400040, 1, 0x0, 1, 0x0, 64, 0, [⟨⟨2,2⟩,.ro,0,.immediate,[]⟩, ⟨⟨1,1⟩,.ro,0,.immediate,[]⟩, ⟨⟨0,0⟩,.rw,0,.immediate,[]⟩]⟩ /- SWG_BIST -/]

/-- The registers of the THC block. -/
def regsTHC : List RegDef := [
  ⟨0x440000, 2, 0x20000, 1, 0x0, 64, 0, [⟨⟨15,8⟩,.ro,0,.immediate,[]⟩, ⟨⟨3,3⟩,.ro,0,.immediate,[]⟩, ⟨⟨2,0⟩,.ro,0,.immediate,[]⟩]⟩ /- THC_ESTAT -/,
  ⟨0x440010, 2, 0x20000, 1, 0x0, 64, 0, [⟨⟨31,0⟩,.ro,0,.immediate,[]⟩]⟩ /- THC_CNT_JOBS -/,
  ⟨0x440014, 2, 0x20000, 1, 0x0, 64, 0, [⟨⟨31,0⟩,.ro,0,.immediate,[]⟩]⟩ /- THC_CNT_STOP -/,
  ⟨0x440018, 2, 0x20000, 1, 0x0, 64, 0, [⟨⟨31,0⟩,.ro,0,.immediate,[]⟩]⟩ /- THC_CNT_CHECK -/,
  ⟨0x44001C, 2, 0x20000, 1, 0x0, 64, 0, [⟨⟨31,0⟩,.ro,0,.immediate,[]⟩]⟩ /- THC_CNT_DATA -/,
  ⟨0x440020, 2, 0x20000, 1, 0x0, 64, 0, [⟨⟨31,0⟩,.ro,0,.immediate,[]⟩]⟩ /- THC_CNT_CHUNK -/,
  ⟨0x440024, 2, 0x20000, 1, 0x0, 64, 0, [⟨⟨4,0⟩,.wo,0,.immediate,[]⟩]⟩ /- THC_CNT_CLR -/,
  ⟨0x440030, 2, 0x20000, 1, 0x0, 64, 0, [⟨⟨2,2⟩,.ro,0,.immediate,[]⟩, ⟨⟨1,1⟩,.ro,0,.immediate,[]⟩, ⟨⟨0,0⟩,.rw,0,.immediate,[]⟩]⟩ /- THC_BIST -/,
  ⟨0x44F000, 1, 0x0, 1, 0x0, 64, 0, [⟨⟨1,1⟩,.rw,0,.immediate,[]⟩, ⟨⟨0,0⟩,.rw,0,.immediate,[]⟩]⟩ /- THC_CFG -/]

/-- The registers of the MAG block. -/
def regsMAG : List RegDef := [
  ⟨0x480000, 4, 0x10000, 1, 0x0, 33, 0, [⟨⟨31,24⟩,.sr,0x64,.atCommit,[(0,0)]⟩, ⟨⟨23,16⟩,.sr,0x46,.atCommit,[(0,0),(128,255)]⟩, ⟨⟨3,2⟩,.sr,0,.atCommit,[(3,3)]⟩, ⟨⟨1,1⟩,.sr,1,.atCommit,[]⟩, ⟨⟨0,0⟩,.sr,0,.atCommit,[]⟩]⟩ /- MAG_CFG -/,
  ⟨0x480004, 4, 0x10000, 1, 0x0, 64, 0, [⟨⟨31,16⟩,.wo,0,.immediate,[]⟩, ⟨⟨1,1⟩,.wo,0,.immediate,[]⟩, ⟨⟨0,0⟩,.wo,0,.immediate,[]⟩]⟩ /- MAG_CTL -/,
  ⟨0x480010, 4, 0x10000, 1, 0x0, 64, 0, [⟨⟨27,16⟩,.ro,0,.immediate,[]⟩, ⟨⟨13,13⟩,.ro,0,.immediate,[]⟩, ⟨⟨12,12⟩,.ro,0,.immediate,[]⟩, ⟨⟨9,8⟩,.ro,0,.immediate,[]⟩, ⟨⟨6,4⟩,.ro,0,.immediate,[]⟩, ⟨⟨3,0⟩,.ro,0,.immediate,[]⟩]⟩ /- MAG_PSTAT -/,
  ⟨0x480014, 4, 0x10000, 1, 0x0, 64, 0, [⟨⟨31,0⟩,.ro,0,.immediate,[]⟩]⟩ /- MAG_NSZE_LO -/,
  ⟨0x480018, 4, 0x10000, 1, 0x0, 64, 0, [⟨⟨31,0⟩,.ro,0,.immediate,[]⟩]⟩ /- MAG_NSZE_HI -/,
  ⟨0x48001C, 4, 0x10000, 1, 0x0, 64, 0, [⟨⟨23,0⟩,.ro,0,.immediate,[]⟩]⟩ /- MAG_FREE -/,
  ⟨0x480020, 4, 0x10000, 1, 0x0, 64, 0, [⟨⟨23,16⟩,.ro,0,.immediate,[]⟩, ⟨⟨15,0⟩,.ro,0,.immediate,[]⟩]⟩ /- MAG_TEMP -/,
  ⟨0x480024, 4, 0x10000, 1, 0x0, 64, 0, [⟨⟨31,0⟩,.ro,0,.immediate,[]⟩]⟩ /- MAG_VOLID_LO -/,
  ⟨0x480028, 4, 0x10000, 1, 0x0, 64, 0, [⟨⟨31,0⟩,.ro,0,.immediate,[]⟩]⟩ /- MAG_VOLID_HI -/,
  ⟨0x48002C, 4, 0x10000, 1, 0x0, 64, 0, [⟨⟨31,0⟩,.ro,0,.immediate,[]⟩]⟩ /- MAG_GEN -/,
  ⟨0x480030, 4, 0x10000, 1, 0x0, 64, 0, [⟨⟨8,0⟩,.ro,0,.immediate,[]⟩]⟩ /- MAG_QSTAT -/,
  ⟨0x480040, 4, 0x10000, 1, 0x0, 64, 0, [⟨⟨31,0⟩,.ro,0,.immediate,[]⟩]⟩ /- MAG_CNT_RDERR -/,
  ⟨0x480044, 4, 0x10000, 1, 0x0, 64, 0, [⟨⟨31,0⟩,.ro,0,.immediate,[]⟩]⟩ /- MAG_CNT_WRERR -/,
  ⟨0x480048, 4, 0x10000, 1, 0x0, 64, 0, [⟨⟨31,0⟩,.ro,0,.immediate,[]⟩]⟩ /- MAG_CNT_TIMEOUT -/,
  ⟨0x48004C, 4, 0x10000, 1, 0x0, 64, 0, [⟨⟨31,0⟩,.ro,0,.immediate,[]⟩]⟩ /- MAG_CNT_LATE -/,
  ⟨0x480050, 4, 0x10000, 1, 0x0, 64, 0, [⟨⟨3,0⟩,.wo,0,.immediate,[]⟩]⟩ /- MAG_CNT_CLR -/,
  ⟨0x48F000, 16, 0x8, 1, 0x0, 64, 0, [⟨⟨31,31⟩,.ro,0,.immediate,[]⟩, ⟨⟨30,28⟩,.ro,0,.immediate,[]⟩, ⟨⟨26,24⟩,.ro,0,.immediate,[]⟩, ⟨⟨21,20⟩,.ro,0,.immediate,[]⟩, ⟨⟨17,16⟩,.ro,0,.immediate,[]⟩, ⟨⟨11,0⟩,.ro,0,.immediate,[]⟩]⟩ /- MAG_PLAY -/,
  ⟨0x48F004, 16, 0x8, 1, 0x0, 64, 0, [⟨⟨31,0⟩,.ro,0xffffffff,.immediate,[]⟩]⟩ /- MAG_PLAY_POS -/]

/-- The registers of the BNK block. -/
def regsBNK : List RegDef := [
  ⟨0x4C0000, 1, 0x0, 1, 0x0, 28, 0, [⟨⟨0,0⟩,.sr,0,.atCommit,[]⟩]⟩ /- BNK_CFG -/,
  ⟨0x4C0004, 1, 0x0, 1, 0x0, 28, 0, [⟨⟨4,0⟩,.sr,0,.atCommit,[(17,31)]⟩]⟩ /- BNK_ALLOC -/,
  ⟨0x4C0008, 1, 0x0, 1, 0x0, 28, 0, [⟨⟨31,31⟩,.sr,1,.atCommit,[]⟩, ⟨⟨15,0⟩,.sr,0xa,.atCommit,[(0,0)]⟩]⟩ /- BNK_SCRUB -/,
  ⟨0x4C000C, 1, 0x0, 1, 0x0, 64, 0, [⟨⟨15,8⟩,.ro,0x63,.immediate,[]⟩, ⟨⟨4,0⟩,.ro,0,.immediate,[]⟩]⟩ /- BNK_POOL -/,
  ⟨0x4C0010, 16, 0x4, 1, 0x0, 64, 0, [⟨⟨31,0⟩,.ro,0,.immediate,[]⟩]⟩ /- BNK_OWN -/,
  ⟨0x4C0050, 8, 0x4, 1, 0x0, 64, 0, [⟨⟨31,0⟩,.ro,0xaaaaaaaa,.immediate,[]⟩]⟩ /- BNK_PSTAT -/,
  ⟨0x4C0080, 1, 0x0, 1, 0x0, 64, 0, [⟨⟨31,0⟩,.ro,0,.immediate,[]⟩]⟩ /- BNK_CNT_CE -/,
  ⟨0x4C0084, 1, 0x0, 1, 0x0, 64, 0, [⟨⟨31,0⟩,.ro,0,.immediate,[]⟩]⟩ /- BNK_CNT_UE -/,
  ⟨0x4C0088, 1, 0x0, 1, 0x0, 64, 0, [⟨⟨31,0⟩,.ro,0,.immediate,[]⟩]⟩ /- BNK_CNT_PWCE -/,
  ⟨0x4C008C, 1, 0x0, 1, 0x0, 64, 0, [⟨⟨31,0⟩,.ro,0,.immediate,[]⟩]⟩ /- BNK_CNT_PWPOISON -/,
  ⟨0x4C0090, 1, 0x0, 1, 0x0, 64, 0, [⟨⟨27,24⟩,.ro,0,.immediate,[]⟩, ⟨⟨22,16⟩,.ro,0,.immediate,[]⟩, ⟨⟨15,0⟩,.ro,0,.immediate,[]⟩]⟩ /- BNK_UE_ADDR -/,
  ⟨0x4C0094, 1, 0x0, 1, 0x0, 64, 0, [⟨⟨3,0⟩,.wo,0,.immediate,[]⟩]⟩ /- BNK_CNT_CLR -/,
  ⟨0x4C00C0, 16, 0x4, 1, 0x0, 64, 0, [⟨⟨31,0⟩,.ro,0,.immediate,[]⟩]⟩ /- BNK_CNT_CONF -/,
  ⟨0x4C0100, 1, 0x0, 1, 0x0, 64, 0, [⟨⟨15,0⟩,.wo,0,.immediate,[]⟩]⟩ /- BNK_CONF_CLR -/]

/-- The registers of the THM block. -/
def regsTHM : List RegDef := [
  ⟨0x500000, 1, 0x0, 1, 0x0, 29, 0, [⟨⟨19,16⟩,.sr,3,.atCommit,[(0,0)]⟩, ⟨⟨15,8⟩,.sr,0x76,.atCommit,[]⟩, ⟨⟨7,0⟩,.sr,0x6e,.atCommit,[]⟩]⟩ /- THM_LIMIT -/,
  ⟨0x500004, 1, 0x0, 1, 0x0, 29, 0, [⟨⟨15,8⟩,.sr,0x14,.atCommit,[]⟩, ⟨⟨7,0⟩,.sr,8,.atCommit,[]⟩]⟩ /- THM_RLIM -/,
  ⟨0x500008, 1, 0x0, 1, 0x0, 29, 0, [⟨⟨10,8⟩,.sr,4,.atCommit,[(0,0),(5,7)]⟩, ⟨⟨7,0⟩,.sr,0x14,.atCommit,[(0,0)]⟩]⟩ /- THM_STEP -/,
  ⟨0x50000C, 1, 0x0, 1, 0x0, 29, 0, [⟨⟨31,16⟩,.sr,0x32,.atCommit,[]⟩, ⟨⟨15,0⟩,.sr,0x64,.atCommit,[]⟩]⟩ /- THM_PAUSE0 -/,
  ⟨0x500010, 1, 0x0, 1, 0x0, 29, 0, [⟨⟨15,0⟩,.sr,0xa,.atCommit,[]⟩]⟩ /- THM_PAUSE1 -/,
  ⟨0x500014, 1, 0x0, 1, 0x0, 29, 0, [⟨⟨31,16⟩,.sr,0,.atCommit,[]⟩, ⟨⟨15,8⟩,.sr,0,.atCommit,[]⟩, ⟨⟨1,0⟩,.sr,0,.atCommit,[(3,3)]⟩]⟩ /- THM_ODT -/,
  ⟨0x500018, 1, 0x0, 1, 0x0, 64, 0, [⟨⟨15,0⟩,.rw,0,.immediate,[]⟩]⟩ /- THM_ODT_HOST -/,
  ⟨0x50001C, 1, 0x0, 1, 0x0, 29, 0, [⟨⟨31,16⟩,.sr,0xffde,.atCommit,[]⟩, ⟨⟨7,0⟩,.sr,0x19,.atCommit,[]⟩]⟩ /- THM_XTAL -/,
  ⟨0x500020, 1, 0x0, 1, 0x0, 29, 0, [⟨⟨7,0⟩,.sr,0x32,.atCommit,[(0,9),(70,255)]⟩]⟩ /- THM_BAND -/,
  ⟨0x500100, 1, 0x0, 1, 0x0, 64, 0, [⟨⟨31,16⟩,.ro,0,.immediate,[]⟩, ⟨⟨15,11⟩,.ro,0,.immediate,[]⟩, ⟨⟨10,8⟩,.ro,0,.immediate,[]⟩, ⟨⟨4,4⟩,.ro,0,.immediate,[]⟩, ⟨⟨3,3⟩,.ro,0,.immediate,[]⟩, ⟨⟨2,2⟩,.ro,0,.immediate,[]⟩, ⟨⟨1,1⟩,.ro,0,.immediate,[]⟩, ⟨⟨0,0⟩,.ro,0,.immediate,[]⟩]⟩ /- THM_STAT -/,
  ⟨0x500104, 1, 0x0, 1, 0x0, 64, 0, [⟨⟨31,0⟩,.ro,0,.immediate,[]⟩]⟩ /- THM_SUSP -/,
  ⟨0x500108, 1, 0x0, 1, 0x0, 64, 0, [⟨⟨31,0⟩,.ro,0,.immediate,[]⟩]⟩ /- THM_FAILED -/,
  ⟨0x500110, 1, 0x0, 1, 0x0, 64, 0, [⟨⟨31,31⟩,.ro,0,.immediate,[]⟩, ⟨⟨15,0⟩,.ro,0,.immediate,[]⟩]⟩ /- THM_ODT_STAT -/,
  ⟨0x500200, 32, 0x4, 1, 0x0, 64, 0, [⟨⟨31,30⟩,.ro,0,.immediate,[]⟩, ⟨⟨29,16⟩,.ro,0,.immediate,[]⟩, ⟨⟨15,0⟩,.ro,0,.immediate,[]⟩]⟩ /- THM_SENS -/,
  ⟨0x500300, 1, 0x0, 1, 0x0, 64, 0, [⟨⟨31,0⟩,.ro,0,.immediate,[]⟩]⟩ /- THM_CNT_WARN -/,
  ⟨0x500304, 1, 0x0, 1, 0x0, 64, 0, [⟨⟨31,0⟩,.ro,0,.immediate,[]⟩]⟩ /- THM_CNT_STEP -/,
  ⟨0x500308, 1, 0x0, 1, 0x0, 64, 0, [⟨⟨31,0⟩,.ro,0,.immediate,[]⟩]⟩ /- THM_CNT_SUSP -/,
  ⟨0x50030C, 1, 0x0, 1, 0x0, 64, 0, [⟨⟨2,0⟩,.wo,0,.immediate,[]⟩]⟩ /- THM_CNT_CLR -/]

/-- The registers of the CAL block. -/
def regsCAL : List RegDef := [
  ⟨0x540000, 16, 0x4, 1, 0x0, 30, 0, [⟨⟨31,16⟩,.sr,0,.atBoundary,[(256,65279)]⟩, ⟨⟨15,0⟩,.sr,0,.atBoundary,[(256,65279)]⟩]⟩ /- CAL_UTS -/,
  ⟨0x540040, 1, 0x0, 1, 0x0, 30, 0, [⟨⟨31,16⟩,.sr,0,.atBoundary,[]⟩, ⟨⟨15,0⟩,.sr,0,.atBoundary,[]⟩]⟩ /- CAL_UADC -/,
  ⟨0x540080, 24, 0x4, 1, 0x0, 30, 0, [⟨⟨9,0⟩,.sr,0,.atBoundary,[]⟩]⟩ /- CAL_UDAC -/,
  ⟨0x540100, 1, 0x0, 1, 0x0, 64, 0, [⟨⟨31,24⟩,.ro,0,.immediate,[]⟩, ⟨⟨23,16⟩,.ro,0,.immediate,[]⟩, ⟨⟨15,8⟩,.ro,0,.immediate,[]⟩, ⟨⟨0,0⟩,.ro,0,.immediate,[]⟩]⟩ /- CAL_RSTAT -/,
  ⟨0x540104, 1, 0x0, 1, 0x0, 64, 0, [⟨⟨31,16⟩,.ro,0,.immediate,[]⟩, ⟨⟨15,0⟩,.ro,0,.immediate,[]⟩]⟩ /- CAL_RADC -/,
  ⟨0x540108, 1, 0x0, 1, 0x0, 64, 0, [⟨⟨31,0⟩,.ro,0,.immediate,[]⟩]⟩ /- CAL_RTB -/,
  ⟨0x54010C, 1, 0x0, 1, 0x0, 64, 0, [⟨⟨15,0⟩,.ro,0,.immediate,[]⟩]⟩ /- CAL_RTB_T -/,
  ⟨0x540110, 1, 0x0, 1, 0x0, 64, 0, [⟨⟨31,16⟩,.ro,0,.immediate,[]⟩, ⟨⟨15,0⟩,.ro,0,.immediate,[]⟩]⟩ /- CAL_EADC -/,
  ⟨0x540140, 24, 0x4, 1, 0x0, 64, 0, [⟨⟨31,16⟩,.ro,0,.immediate,[]⟩, ⟨⟨9,0⟩,.ro,0,.immediate,[]⟩]⟩ /- CAL_RDAC -/,
  ⟨0x541000, 28, 0x8, 1, 0x0, 64, 0, [⟨⟨15,0⟩,.ro,0,.immediate,[]⟩]⟩ /- CAL_FSENS_A -/,
  ⟨0x541004, 28, 0x8, 1, 0x0, 64, 0, [⟨⟨31,0⟩,.ro,0,.immediate,[]⟩]⟩ /- CAL_FSENS_B -/,
  ⟨0x5410E0, 1, 0x0, 1, 0x0, 64, 0, [⟨⟨15,0⟩,.ro,0,.immediate,[]⟩]⟩ /- CAL_FADC_GAIN -/,
  ⟨0x5410E4, 1, 0x0, 1, 0x0, 64, 0, [⟨⟨15,0⟩,.ro,0,.immediate,[]⟩]⟩ /- CAL_FADC_OFF -/,
  ⟨0x5410E8, 1, 0x0, 1, 0x0, 64, 0, [⟨⟨23,0⟩,.ro,0,.immediate,[]⟩]⟩ /- CAL_FRREF -/,
  ⟨0x5410EC, 1, 0x0, 1, 0x0, 64, 0, [⟨⟨15,0⟩,.ro,0,.immediate,[]⟩]⟩ /- CAL_FADC_TC -/,
  ⟨0x5410F0, 1, 0x0, 1, 0x0, 64, 0, [⟨⟨31,0⟩,.ro,0,.immediate,[]⟩]⟩ /- CAL_FDSN_LO -/,
  ⟨0x5410F4, 1, 0x0, 1, 0x0, 64, 0, [⟨⟨31,0⟩,.ro,0,.immediate,[]⟩]⟩ /- CAL_FDSN_HI -/,
  ⟨0x5410F8, 1, 0x0, 1, 0x0, 64, 0, [⟨⟨31,0⟩,.ro,0,.immediate,[]⟩]⟩ /- CAL_FCHK -/]

/-- The registers of the EVT block. -/
def regsEVT : List RegDef := [
  ⟨0x580000, 1, 0x0, 1, 0x0, 64, 0, [⟨⟨31,16⟩,.rw,0x64,.immediate,[]⟩, ⟨⟨15,8⟩,.rw,0x10,.immediate,[(0,0)]⟩, ⟨⟨7,4⟩,.rw,2,.immediate,[(11,15)]⟩, ⟨⟨1,1⟩,.rw,0,.immediate,[]⟩, ⟨⟨0,0⟩,.rw,0,.immediate,[]⟩]⟩ /- EVT_CFG -/,
  ⟨0x580004, 1, 0x0, 1, 0x0, 64, 0, [⟨⟨31,16⟩,.rw,0,.immediate,[]⟩, ⟨⟨15,0⟩,.rw,0x3e8,.immediate,[]⟩]⟩ /- EVT_COAL -/,
  ⟨0x580008, 1, 0x0, 1, 0x0, 64, 0, [⟨⟨31,12⟩,.rw,0,.immediate,[]⟩]⟩ /- EVT_RBASE_LO -/,
  ⟨0x58000C, 1, 0x0, 1, 0x0, 64, 0, [⟨⟨31,0⟩,.rw,0,.immediate,[]⟩]⟩ /- EVT_RBASE_HI -/,
  ⟨0x580010, 1, 0x0, 1, 0x0, 64, 0, [⟨⟨15,0⟩,.rw,0,.immediate,[]⟩]⟩ /- EVT_RHEAD -/,
  ⟨0x580014, 1, 0x0, 1, 0x0, 64, 0, [⟨⟨15,0⟩,.ro,0,.immediate,[]⟩]⟩ /- EVT_RPOS -/,
  ⟨0x580018, 1, 0x0, 1, 0x0, 64, 0, [⟨⟨15,8⟩,.ro,0,.immediate,[]⟩, ⟨⟨2,2⟩,.ro,0,.immediate,[]⟩, ⟨⟨1,1⟩,.ro,0,.immediate,[]⟩, ⟨⟨0,0⟩,.ro,0,.immediate,[]⟩]⟩ /- EVT_STAT -/,
  ⟨0x580020, 1, 0x0, 1, 0x0, 64, 0, [⟨⟨31,0⟩,.ro,0,.immediate,[]⟩]⟩ /- EVT_CNT_REC -/,
  ⟨0x580024, 1, 0x0, 1, 0x0, 64, 0, [⟨⟨31,0⟩,.ro,0,.immediate,[]⟩]⟩ /- EVT_CNT_LOST -/,
  ⟨0x580028, 1, 0x0, 1, 0x0, 64, 0, [⟨⟨2,0⟩,.wo,0,.immediate,[]⟩]⟩ /- EVT_CNT_CLR -/,
  ⟨0x580100, 1, 0x0, 1, 0x0, 64, 0, [⟨⟨31,0⟩,.w1c,0,.immediate,[]⟩]⟩ /- EVT_ALM_PEND_LO -/,
  ⟨0x580104, 1, 0x0, 1, 0x0, 64, 0, [⟨⟨31,0⟩,.w1c,0,.immediate,[]⟩]⟩ /- EVT_ALM_PEND_HI -/,
  ⟨0x580108, 1, 0x0, 1, 0x0, 64, 0, [⟨⟨15,0⟩,.ro,0,.immediate,[]⟩]⟩ /- EVT_ALM_BOOT -/,
  ⟨0x580200, 1, 0x0, 1, 0x0, 64, 0, [⟨⟨31,16⟩,.rw,0x40,.immediate,[]⟩, ⟨⟨15,8⟩,.rw,7,.immediate,[]⟩, ⟨⟨1,1⟩,.rw,1,.immediate,[]⟩, ⟨⟨0,0⟩,.rw,0,.immediate,[]⟩]⟩ /- EVT_TRC -/,
  ⟨0x580204, 1, 0x0, 1, 0x0, 64, 0, [⟨⟨17,17⟩,.rw,0,.immediate,[]⟩, ⟨⟨16,16⟩,.rw,0,.immediate,[]⟩, ⟨⟨15,0⟩,.rw,0,.immediate,[]⟩]⟩ /- EVT_TRC_TRIG -/,
  ⟨0x580208, 1, 0x0, 1, 0x0, 64, 0, [⟨⟨31,31⟩,.ro,0,.immediate,[]⟩, ⟨⟨30,30⟩,.ro,0,.immediate,[]⟩, ⟨⟨23,0⟩,.ro,0,.immediate,[]⟩]⟩ /- EVT_TRC_POS -/,
  ⟨0x58020C, 1, 0x0, 1, 0x0, 64, 0, [⟨⟨31,0⟩,.wo,0,.immediate,[]⟩]⟩ /- EVT_TRC_MARK -/,
  ⟨0x580210, 1, 0x0, 1, 0x0, 64, 0, [⟨⟨31,0⟩,.ro,0,.immediate,[]⟩]⟩ /- EVT_TRC_DROP -/,
  ⟨0x581000, 64, 0x10, 1, 0x0, 64, 0, [⟨⟨31,16⟩,.ro,0,.immediate,[]⟩, ⟨⟨15,0⟩,.ro,0,.immediate,[]⟩]⟩ /- EVT_ALM_CODE -/,
  ⟨0x581004, 64, 0x10, 1, 0x0, 64, 0, [⟨⟨31,0⟩,.ro,0,.immediate,[]⟩]⟩ /- EVT_ALM_AON -/,
  ⟨0x581008, 64, 0x10, 1, 0x0, 64, 0, [⟨⟨31,16⟩,.ro,0,.immediate,[]⟩, ⟨⟨15,0⟩,.ro,0,.immediate,[]⟩]⟩ /- EVT_ALM_INFO -/]

/-- The registers of the WIN block. -/
def regsWIN : List RegDef := [
  ⟨0x5C0000, 1, 0x0, 1, 0x0, 34, 0, [⟨⟨0,0⟩,.sr,0,.atBoundary,[]⟩]⟩ /- WIN_CFG -/,
  ⟨0x5C0010, 1, 0x0, 1, 0x0, 64, 0, [⟨⟨31,31⟩,.ro,0,.immediate,[]⟩, ⟨⟨30,30⟩,.ro,0,.immediate,[]⟩, ⟨⟨29,29⟩,.ro,1,.immediate,[]⟩, ⟨⟨19,0⟩,.ro,0,.immediate,[]⟩]⟩ /- WIN_STAT -/,
  ⟨0x5C0020, 1, 0x0, 1, 0x0, 64, 0, [⟨⟨31,0⟩,.ro,0,.immediate,[]⟩]⟩ /- WIN_CNT_ACC -/,
  ⟨0x5C0024, 1, 0x0, 1, 0x0, 64, 0, [⟨⟨31,0⟩,.ro,0,.immediate,[]⟩]⟩ /- WIN_CNT_REFUSED -/,
  ⟨0x5C0028, 1, 0x0, 1, 0x0, 64, 0, [⟨⟨31,0⟩,.ro,0,.immediate,[]⟩]⟩ /- WIN_CNT_DROP -/,
  ⟨0x5C002C, 1, 0x0, 1, 0x0, 64, 0, [⟨⟨2,0⟩,.wo,0,.immediate,[]⟩]⟩ /- WIN_CNT_CLR -/]

/-- The registers of the TMK block. -/
def regsTMK : List RegDef := [
  ⟨0x600000, 1, 0x0, 1, 0x0, 64, 0, [⟨⟨2,2⟩,.ro,0,.immediate,[]⟩, ⟨⟨1,1⟩,.ro,0,.immediate,[]⟩, ⟨⟨0,0⟩,.ro,0,.immediate,[]⟩]⟩ /- TMK_STAT -/,
  ⟨0x600010, 1, 0x0, 1, 0x0, 64, 0, [⟨⟨0,0⟩,.rw,0,.immediate,[]⟩]⟩ /- TMK_DOSE_CFG -/,
  ⟨0x600014, 1, 0x0, 1, 0x0, 64, 0, [⟨⟨0,0⟩,.wo,0,.immediate,[]⟩]⟩ /- TMK_DOSE_CLR -/]

/-- The register definitions of the block that holds BAR0 offset `off` (R116). -/
def regsOfBlock (off : Nat) : List RegDef :=
  match off / 0x40000 with
  | 0 => regsGBL
  | 1 => regsSTG
  | 2 => regsPWR
  | 3 => regsHST
  | 4 => regsRAF
  | 5 => regsRDG
  | 6 => regsGEN
  | 7 => regsVIEW
  | 8 => regsCLR
  | 9 => regsDMU
  | 10 => regsODV
  | 11 => regsDTH
  | 12 => regsSCN
  | 13 => regsBAT
  | 14 => regsLTH
  | 15 => regsFST
  | 16 => regsSWG
  | 17 => regsTHC
  | 18 => regsMAG
  | 19 => regsBNK
  | 20 => regsTHM
  | 21 => regsCAL
  | 22 => regsEVT
  | 23 => regsWIN
  | 24 => regsTMK
  | _ => []

end Sys2Proof.Machine
end

