-- ==== Sys2Proof/Machine/State.lean ====
section
/-! DEFINITION. The state of the block: every register, table, ring, engine and pin the spec gives it, the queue of waiting commands, and the state after reset. -/

namespace Sys2Proof.Machine

/-- The orderable part (R1): the AZT-6418-BA or the AZT-6418-BC. -/
inductive Part where
  | ba | bc
  deriving DecidableEq, Repr

/-- Everything the part sends outwards, in the order sent. -/
inductive Out where
  | hostWrite (addr : Nat) (bytes : List Byte)          -- a write to host memory (R106, R112)
  | hostRead (rid addr len : Nat)                       -- a read request to host memory
  | msix (vec : Nat) (addr : Nat) (data : Word)         -- an MSI-X message (R110)
  | readReply (v : Word)                                -- what a register read returns
  | linkFlit (q ftype seq ackType ackSeq credit : Nat) (payload : List Byte)   -- a flit sent on link q (R142)
  | linkPhy (q : Nat) (what : String)                   -- receiver detect, training blocks, electrical idle (R146, R147)
  | linkMsg (q code arg : Nat) (body : List Byte)       -- a message sent on link q: CODE, ARG word, body (R160, R518)
  | linkTrain (q lane word : Nat)                       -- a training block on a physical lane, by its control word (R147)
  | laneIdle (q lane : Nat)                             -- a physical lane goes to electrical idle (R149)
  | farLoop (q : Nat) (c : Instr)                       -- LOOP_FAR: what arrived goes back on the same logical lanes (R164)
  | avsWrite (bus code : Nat)                           -- an AVSBus voltage write (R77)
  | pairMsg (m : PairMsg)                               -- a message to the regulator partner (R78)
  | batCmd (drv op tag addr : Nat) (data : Word)        -- a CMD block to a column driver (R360)
  | batRow (half row : Nat) (codes : List Nat)          -- the drive codes of a row of a half, by subpixel column (R318)
  | batSend (drv row rot o : Nat) (codes : List Nat) (done dly : Nat)   -- a row on a driver's lanes: its codes in link order, the end of its
                                                        -- LOAD block in thirds of a UI of volume time, and DLY (R356, R361, R362)
  | batTrain (drv : Nat)                                -- TRAIN blocks to a driver (R363)
  | batStart (drv : Nat)                                -- a START block on both lanes of a driver (R363)
  | latch (sig : String) (half row rise fall : Nat)     -- a pulse of a Lath output, high from `rise` to `fall` in volume time (R369, R370)
  | nvme (port tag : Nat) (cmd : NvmeCmd)               -- a command to a magazine (R403)
  | tmkRequest (frame : List Byte)                      -- a request frame to the meter (R569)
  | tmkReply (port : Bool) (frame : List Byte)          -- a response frame of the meter; port: on the Touchmark port
  | tmkAck (acks : List Bool)                           -- the meter's acknowledges on the Touchmark port, byte by byte (R566)
  | crackForce (uA : Nat)                               -- the current that CRACK_FORCE drives into the loop, 0 for none (R394)
  | pin (name : String) (level : Bool)                  -- an output pin changes level
  | tdo (b : Bool)                                      -- TDO in Shift-DR or Shift-IR (R13)
  | boundary (cells : Option (List Bool))               -- EXTEST: the boundary latches drive the pins (R13); none: they no longer do
  deriving DecidableEq, Repr

/-- The reset classes of R48, strongest first. -/
inductive ResetClass where
  | supply | powerOn | warm | hostPort
  deriving DecidableEq, Repr

/-- Reset and start-up (R48 to R55). -/
structure ResetState where
  applying : Option ResetClass      -- the reset being applied (not host-port)
  waitPanel : Option Nat            -- a warm reset that waits for the panel power-off (R50): its LAST code (R64)
  hostReset : Bool                  -- a host-port reset is in progress
  starting : Bool                   -- a start-up is running
  stepsDone : List Nat              -- the start-up steps that have ended
  stopped : Bool                    -- the start-up has stopped (R54)
  shutdown : Bool                   -- thermal shutdown has turned the domains off (R51)
  shutdownDue : Bool                -- thermal shutdown: the domains go off when the emergency discharge ends
  off : Bool                        -- VDD_IO is removed (OFF, R72)
  deriving DecidableEq, Repr

/-- An access stalled on a domain that is waking (R68). -/
inductive Stalled where
  | write (off : Nat) (be : BitVec 4) (v : Word) (win : Option Nat)   -- win: the own-role relay window it came through (R114)
  | read (off : Nat) (win : Option Nat)
  | remote (off src tag : Nat)      -- a read through a relay window of role src (R113)
  | internal (d : Nat)
  deriving DecidableEq, Repr

/-- Power manager and AVSBus master (R66 to R80). -/
structure PowerState where
  waking : List Nat                 -- domains that are coming on
  stalled : List (Nat × Stalled)    -- accesses by the domain they wait for, oldest first
  target : Option Nat               -- a queued voltage target: operating point (R77)
  writing : Option (Nat × Nat × Nat)  -- the write in flight: point, voltage code, repeats left
  confirmed : Bool                  -- VCONF holds a voltage this start-up confirmed
  sinceConfirm : Nat                -- status reads (1 ms each) since the last confirmed voltage
  cleanMs : Nat                     -- status reads without a fault since the last fault
  op0FaultMs : Nat                  -- status reads with a fault at OP0
  regFault : Bool                   -- the last status read showed a fault
  pairFormed : Bool                 -- the regulator pair has formed (R78)
  pairLeader : Bool
  partnerReq : Nat                  -- the partner's requested voltage code
  partnerRate : Nat                 -- the lowest voltage code at which the partner's rate is valid
  dormant : Bool                    -- the device is in DORMANT
  heading : Bool                    -- DORMANT is the final target of the transition (R73)
  wakeLatched : Bool                -- a wake source has been latched and its sequence runs (R73, R74)
  wakeSeen : Option Nat             -- the wake source that arrived during entry to DORMANT (R73)
  pairLost : Bool                   -- the pair had formed and its link is down (R79)
  promised : Option Nat             -- a voltage code, to be written and not confirmed, at which the own rate stays valid (R78)
  stepWait : Bool                   -- the voltage of the last step-down is not confirmed (R80)
  unsure : Option Nat               -- the lowest voltage code of the writes that timed out since a voltage was confirmed (R77)
  deriving DecidableEq, Repr

/-- Where a fetched descriptor stands. -/
inductive DescStage where
  | fetched                         -- not yet at the head of its ring
  | held (timed : Bool)             -- held under R60; timed: it can expire
  | ready                           -- checks 1 to 9 passed, waiting to start under R104
  | waiting                         -- started; a host-memory read or an engine works for it
  | finished                        -- its completion waits for its turn
  deriving DecidableEq, Repr

/-- A completion (R97). -/
structure Cpl where
  status : Nat
  cont : Bool
  effect : Bool
  r0 : Nat
  r1 : Nat
  detail : Nat
  deriving DecidableEq, Repr

/-- A descriptor fetched and not yet completed. -/
structure Desc where
  idx : Nat                         -- its index in the submission ring
  raw : List Byte                   -- its 64 bytes (R92)
  stage : DescStage
  txn : Nat                         -- the staging transaction it belongs to, 0 for none
  cpl : Cpl
  wfail : Bool                      -- host memory fails a data write of it (R108)
  moved : Nat                       -- bytes of a load that have been written (R481)
  deriving DecidableEq, Repr

/-- One client's ring engine beside its registers (R86 to R109). -/
structure Client where
  sqTail : Nat
  cqHead : Nat
  pass : Nat                        -- passes through the completion ring, for PHASE (R98)
  sqbLow : Bool                     -- the record of R89 for HST_SQB_LO
  cqbLow : Bool                     -- the record of R89 for HST_CQB_LO
  descs : List Desc                 -- fetched and not completed, in ring order
  irqPend : Nat                     -- pending completions (R111)
  fetching : Nat                    -- descriptors of a fetch that is outstanding
  lastTag : Nat                     -- TAG of the last completion written (R108)
  cqDead : Bool                     -- a completion write failed since EN was set: completions are lost (R108)
  discardDue : Bool                 -- EN was cleared: the transaction is discarded when every started descriptor has ended (R109)
  deriving DecidableEq, Repr

/-- What an outstanding host-memory read is for. -/
inductive ReadUse where
  | fetch (c idx n : Nat)           -- n descriptors from ring index idx
  | data (c idx : Nat)              -- the source operand of the descriptor at ring index idx
  | jobState (c idx : Nat)          -- the job state of a RESUME descriptor (R441)
  | relay (link : Nat) (src tag : Nat)    -- a read issued for another device (R533)
  deriving DecidableEq, Repr

/-- An outstanding host-memory read. -/
structure HostRead where
  rid : Nat
  addr : Nat
  len : Nat
  use : ReadUse
  deriving DecidableEq, Repr

/-- An outstanding relay-window access (R114). -/
structure RelayPend where
  tag : Nat
  window : Nat
  isRead : Bool
  deriving DecidableEq, Repr

/-- What waits for earlier accesses through a relay window: a write of HST_RLY_SELw, or an access behind one (R113). -/
inductive WinWait where
  | sel (v : Word)
  | access (off : Nat) (op : RelayOp)
  deriving DecidableEq, Repr

/-- Host port, rings and relay windows (R82 to R115). -/
structure HostState where
  linkUp : Bool                     -- the PCIe link of the host port
  busMaster : Bool
  d3 : Bool                         -- D3hot (R83)
  msixEnable : Bool                 -- MSI-X Enable of the configuration space
  msixMask : Bool                   -- Function Mask
  cfg : AMap Word                   -- configuration-space words by offset that differ from their defaults (R82 to R84)
  width : Nat                       -- lanes of the trained host link (R83); 0 while it is down
  rate : Nat                        -- its rate: 1 to 5 for 2.5, 5, 8, 16 and 32 GT/s (R83, R45)
  turn : Nat                        -- the client whose arbitration turn it is (R107)
  used : Nat                        -- descriptors it has started in the turn (R107)
  clients : AMap Client
  reads : List HostRead
  nextRid : Nat
  relays : List RelayPend
  nextTag : Nat
  winWait : List (Nat × WinWait)    -- by relay window, oldest first
  lists : List (Nat × Nat × List Byte)    -- lists of REG_WRITE and REG_READ that wait for domains to wake (R68): client, ring index, list
  msixTable : AMap Word             -- words of the MSI-X table, by word index (R85)
  msixPba : Nat                     -- pending bits, bit n for vector n
  deriving DecidableEq, Repr

/-- A transaction in a slot of the staging unit. -/
structure Txn where
  slot : Nat
  id : Nat
  client : Nat
  mask : Nat
  failed : Bool                     -- marked failed (R103, R123)
  checking : Bool                   -- its commit checks run (R136)
  regs : AMap Word                  -- staged values by BAR0 offset (R122)
  loads : List Nat                  -- tables loaded in it
  ranges : List (Nat × Nat × Nat)   -- bytes loaded in it: table, offset, length (R270)
  viaReg : Bool                     -- its commit runs through STG_CMD
  waitEffect : Bool                 -- WAIT_EFFECT of its commit (R95)
  commitIdx : Nat                   -- ring index of its STG_COMMIT
  frozen : Bool                     -- its checks ended inside a freeze window (R125)
  deriving DecidableEq, Repr

/-- A Pending transaction (R120): frame-boundary values and table exchanges not yet in force. -/
structure Pending where
  id : Nat
  client : Nat
  mask : Nat
  regs : AMap Word                  -- frame-boundary values
  loads : List Nat                  -- tables to exchange
  gated : Bool                      -- held by the commit gate
  waitEffect : Bool
  commitIdx : Nat
  deriving DecidableEq, Repr

/-- A commit in force but for at-idle values, whose WAIT_EFFECT completion waits (R127). -/
structure IdleWait where
  id : Nat
  client : Nat
  commitIdx : Nat
  r0 : Nat
  r1 : Nat
  deriving DecidableEq, Repr

/-- The staging unit (R118 to R136). -/
structure StageState where
  lastId : Nat                      -- the last transaction identifier issued
  txns : List Txn
  pendings : List Pending           -- in the order their commits completed
  idle : AMap (Word × Nat × Bool)   -- at-idle values waiting (R127): value, transaction identifier, whether the commit gate holds it (R132)
  idleWaits : List IdleWait
  cmdWait : Option Nat              -- a register-path COMMIT of this transaction waits for its descriptors (R136)
  rollWait : List (Nat × Nat)       -- rollbacks that wait for commit checks (R131): client (256: register path), ring index
  closing : List (Nat × Nat × Nat)  -- groups of failed commits whose completion is not written (R103, R124): client, ring index, groups
  lastC0 : Nat                      -- identifier of C0's last committed transaction (R136)
  deriving DecidableEq, Repr

/-- One copy pair of a table (R25): bytes that differ from the reset contents. -/
structure Table where
  act : Mem
  inact : Mem
  actIn : Nat                       -- the model's own: what the active copy's unlisted bytes read as (R71, R295, `layerDefault`)
  inactIn : Nat                     -- the same for the inactive copy (R71, R295)
  resync : Bool                     -- the inactive copy is being copied from the active one (R130)
  waiters : List (Nat × Nat)        -- loads and reads that wait for the copy: client, ring index
  deriving DecidableEq, Repr

/-- An entry of the pending event table (R576). -/
structure PendEvent where
  code : Nat
  d0 : Nat
  d1 : Nat
  d2 : Nat
  alarm : Bool
  trunc : Bool
  count : Nat
  first : Nat
  last : Nat
  deriving DecidableEq, Repr

/-- Events, the event ring and traces (R573 to R585). -/
structure EventState where
  pend : List PendEvent             -- oldest first
  lostMask : Nat                    -- the lost-block mask (R576)
  lostCount : Nat
  lostFirst : Nat
  lostLast : Nat
  pass : Nat                        -- passes through the ring, for PHASE
  irqPend : Nat                     -- records written and not yet signalled
  faultRec : Bool                   -- EVT_RING_FAULT is to be written first (R579)
  fifo : List (List Byte)           -- trace records on their way to the banks (R583)
  seq : Nat                         -- SEQ of the next trace record
  trace : AMap (List Byte)          -- the trace buffer, by record index
  post : Option Nat                 -- records still to make after the trigger (R584)
  deriving DecidableEq, Repr

/-- One physical receive lane in training (R147 to R149, R164). -/
structure LaneState where
  errs : List Nat                   -- symbol errors of the last blocks, newest first, at most 64
  same : Nat                        -- consecutive blocks with the marker in place and one LANE value
  laneNo : Nat                      -- that LANE value
  locked : Bool                     -- symbol lock
  rx : Nat                          -- consecutive blocks with RX_LOCKED = 1
  loopReq : Nat                     -- consecutive blocks with LOOP_REQ = 0b01
  deriving DecidableEq, Repr

/-- A sequenced flit that is sent and not acknowledged (R153). -/
structure SentFlit where
  seq : Nat
  payload : List Byte
  deriving DecidableEq, Repr

/-- A window's rectangle and feather for one frame (R180). -/
structure WRect where
  x0 : Nat
  y0 : Nat
  w : Nat
  h : Nat
  feather : Nat
  fsrc : Nat
  extL : Nat
  extR : Nat
  extT : Nat
  extB : Nat
  deriving DecidableEq, Repr

/-- Why the check of a packet's header turns it away (R183, R195, R198). -/
inductive PktFail where
  | badType                         -- PTYPE is reserved
  | badTarget                       -- its PTYPE does not take its TARGET
  | badLen
  | stale                           -- FRAME below cur
  | early                           -- FRAME above cur + 1
  | lineOff                         -- line-locked rows for a view that is not line-locked
  | lineLocked                      -- window data for a line-locked view
  | noBuffer
  | afterDone                       -- its frame is complete
  | badField                        -- a field of its body is out of range
  deriving DecidableEq, Repr

/-- What a packet does at its acceptance (R182). -/
inductive PktWhat where
  | fail (f : PktFail)
  | span (y0 n pix : Nat)
  | wrect (r : WRect)
  | done
  deriving DecidableEq, Repr

/-- Where the buffer of a packet whose header passed its check stands (R184, R187). -/
inductive PktHold where
  | live (sel : Nat)                -- still the packet's frame's
  | rotated                         -- reassigned at a frame boundary
  | freed                           -- freed by another cause
  | complete                        -- the frame became complete
  deriving DecidableEq, Repr

/-- A packet whose header has been checked and that has not been accepted (R182). -/
structure Packet where
  target : Nat
  frame : Nat
  what : PktWhat
  hold : PktHold
  deriving DecidableEq, Repr

/-- The packet decoder of a Rafter port (R158, R174, R182). -/
structure PktDecoder where
  wait : Bool                       -- it waits for a valid PKT_OFF (R161, R198)
  pad : Bool                        -- the rest of the flit is padding (R174)
  pos : Nat                         -- payload bytes of the current flit that it has taken
  got : List Byte                   -- what it has of the header, or of the row, that it is in
  cur : Option Packet               -- the packet that it is in, once its header is checked
  row : Nat                         -- SPAN: the row that comes next
  rows : Nat                        -- SPAN: rows still to come
  skip : Nat                        -- bytes of the packet still to be skipped
  put : Nat                         -- SPAN: pixels of the row that comes next that are written (R182)
  fin : List Packet                 -- packets that have ended in the current flit, in stream order
  deriving DecidableEq, Repr

/-- One link's layer beside its registers: Rafter ports 0 to 3, Ridge links 4 to 7 (R138 to R164, R515). -/
structure LinkState where
  lanes : AMap LaneState            -- physical lanes in training
  blocksLeft : Nat                  -- the width is settled: training blocks still to send, the last with LAST = 1 (R149)
  lastSeen : Bool                   -- the partner's LAST block was received (R149)
  capPhase : Bool                   -- in RECOVERY: training has ended and CAP flits are exchanged
  accepted : Bool                   -- a flit was accepted since the last link-layer reset (R155)
  nakDue : Bool                     -- the next flit carries the NAK
  nakFor : Bool                     -- a NAK for E was due since E last advanced
  gap : Bool                        -- RAF_CNT_NAK has counted the gap at E (R154)
  naks : Nat                        -- NAKs sent for E (R152)
  badRun : Nat                      -- consecutive flits with a failed sector (R152)
  replays : Nat                     -- replays without an acknowledgement advancing (R152)
  out : List SentFlit               -- outstanding flits, oldest first
  resend : List SentFlit            -- flits that a replay still has to send
  resendFrom : Nat                  -- ACK_SEQ of that replay
  queue : List (List Byte)          -- encoded messages that wait to be sent
  limit : Nat                       -- the partner's CREDIT_LIMIT
  lastCap : Option CapFlit          -- the last valid CAP flit
  capPrev : Bool                    -- it was the last CAP flit received (R151)
  capSeen : Bool                    -- CAP_SEEN of the flits sent
  capGot : Bool                     -- a valid CAP flit with CAP_SEEN = 1 was received
  capSent : Nat                     -- CAP flits sent with CAP_SEEN = 1 since then
  sawFlit : Bool                    -- a non-CAP flit was received in ACTIVE (R151)
  wasActive : Bool                  -- ACTIVE since DOWN was last raised (R172)
  woken : Bool                      -- woken by signal; no DATA flit accepted since (R172)
  fwd : Nat                         -- sectors of the current flit that were forwarded (R158)
  dec : PktDecoder                  -- the packet decoder of a Rafter port
  decAt : PktDecoder                -- it at the start of the current flit (R158)
  proto : List Nat                  -- volume times of the protocol errors of the last 1 ms, newest first (R161)
  crcLog : List Nat                 -- volume times of the failed sectors of the last second, newest first (R171)
  crcSaid : Option Nat              -- when RAF_CRC_RATE was last raised
  nepN : Nat                        -- flits that the exerciser of LOOP_NEP has sent (R163)
  quiet : Nat                       -- 0: a DATA flit was accepted in this frame period; else 1 more than the periods before it without one, at most 5 (R340)
  taken : Nat                       -- DATA and LMSG flits accepted
  traced : List Nat                 -- CRC, NAK, replay and accepted counts at the last LINK trace record (R582)
  nbr : Option (Nat × Nat)          -- COL, ROW that the device at the other end announced (R525)
  nbrRole : Option Nat              -- the role that it announced (R78, R525)
  deriving DecidableEq, Repr

/-- One of a target's three frame buffers (R183 to R187). -/
structure FrameBuf where
  frame : Option Nat                -- the frame it is for; none while it is free
  rows : Nat                        -- pixel rows marked, bit y
  masks : Nat                       -- mask rows marked
  rect : Option WRect
  done : Bool
  poisoned : Bool
  named : Bool                      -- a packet that names it passed its header check
  complete : Bool
  doneAt : Nat                      -- volume time of becoming complete (R188)
  missed : Bool                     -- a slot deadline that used it found it not in time (R190)
  hold : Bool                       -- it is the hold frame L (R184)
  direct : AMap (List Nat × Nat)    -- line-locked: rows received, in the row buffer, with the volume time of receipt (R22, R195)
  enc : Nat                         -- block rows encoded for this frame (R225)
  anew : Bool                       -- assigned to the frame when it was placed anew: it holds none until a packet names it (R212)
  deriving DecidableEq, Repr

/-- Where a buffer lies in the allocated region (R209, R212). -/
structure Placement where
  gran : Nat                        -- first granule, as frame-store address bits [34:12]
  size : Nat                        -- granules, loss map included
  mode : Nat                        -- 0 1:1, 1 1.5:1, 2 2:1
  w : Nat
  h : Nat
  deriving DecidableEq, Repr

/-- A slot of the Swage assembly buffer (R224). -/
structure AsmSlot where
  sel : Nat                         -- the buffer, as its FST_MAP_SEL code
  frame : Nat
  brow : Nat                        -- block row
  rows : AMap (List Nat)            -- the samples of its rows 0 to 3
  slot : Nat                        -- which of the 32 slots of the buffer
  present : Nat                     -- rows present
  whole : Nat                       -- rows written from their first pixel to their last
  deriving DecidableEq, Repr

/-- The frame store (R207 to R231). -/
structure FstState where
  mem : Mem                         -- bytes by frame-store address
  place : AMap Placement            -- placed buffers by FST_MAP_SEL code
  bufs : AMap FrameBuf              -- frame buffers of base, windows and line-locked images by FST_MAP_SEL code
  asm : List AsmSlot                -- oldest first write first
  ue : List Nat                     -- 32-byte units with an uncorrectable error, by address / 32
  recal : List Nat                  -- consecutive failed recalibrations of FS0 and FS1
  deriving DecidableEq, Repr


/-- One camera shutter input (R240, R241). -/
structure CamState where
  openAt : Option Nat               -- volume time of an opening that waits for its closing edge
  openOff : Nat                     -- its offset from the reference of its frame period
  opened : Bool                     -- an opening was seen in this frame period
  carried : Bool                    -- the opening that waits lies in the frame period before this one
  got : Bool                        -- a valid sample was taken in this frame period
  samples : List (Nat × Nat)        -- valid samples, newest first, at most 16: open offset and duration
  good : Nat                        -- consecutive valid samples
  miss : Nat                        -- consecutive frame periods without a valid sample
  lost : Bool                       -- a valid measurement was lost and has not come back
  deriving DecidableEq, Repr

/-- A re-placement that takes effect at a later boundary (R242). -/
structure Replace where
  at_ : Nat                         -- the frame at whose boundary it applies
  view : Nat
  wins : AMap (Nat × Nat)           -- measured windows in use by view: open offset and duration
  deriving DecidableEq, Repr

/-- Genlock, volume time and the slot schedule (R232 to R257). -/
structure GenState where
  vt : Nat                          -- volume time, 64 bits, in PCLK (R232)
  fc : Nat                          -- frame counter, 48 bits
  bnd : Nat                         -- volume time of the last boundary
  hiLatch : List (Nat × Nat)        -- HI registers latched by a LO read (R255): offset and value
  ref : Nat                         -- ref of the frame in force (R233)
  again : Bool                      -- the next boundary is placed by ref of the frame in force once more (R629)
  delay : Nat                       -- boundary delay that remains (R247)
  slew : Int                        -- phase error that ACQUIRE has still to remove (R238)
  jump : Nat                        -- time that the next frame period is lengthened by (R238)
  lineKind : Nat                    -- what the last line showed: 0 tri-level, 1 bi-level, 2 anything else (R234)
  lineRun : Nat                     -- consecutive lines that showed it, at most 16
  lastSync : Option Nat             -- volume time of the last genlock reference
  periods : List Nat                -- measured genlock periods that matched, newest first, at most 16
  okRun : Nat                       -- consecutive references within 100 ns
  badRun : Nat                      -- consecutive references with an error above 1 µs
  cams : AMap CamState
  wins : AMap (Nat × Nat)           -- measured windows in use by view
  replace : List Replace            -- re-placements to come, the earliest first
  frac : Nat                        -- what the held period has left over: parts of a PCLK, of as many as there are measured frame periods (R237)
  given : Option Nat                -- the next reference, received over the Ridge mesh (R531)
  srcDigest : Option Word           -- digest of the timing source's last boundary message (R239)
  srcPeriod : Option Nat            -- PERIOD of its last boundary message (R531)
  ve : Nat                          -- latches of DORMANT entry (R249): volume time, AON counter, frame counter, last boundary
  ae : Nat
  fe : Nat
  be : Nat
  aonkNorm : Nat                    -- the normalised value of the last measurement (R484)
  aonkMeasured : Bool               -- GEN_AONK has been measured since the supply reset
  deriving DecidableEq, Repr

/-- The pipeline state beside tables and registers (R262, R264, R310, R312). -/
structure PipeState where
  hValid : Nat                      -- history blocks written back since the panel power-on: zero-map bits that are clear (R310)
  hist : AMap (List (List Nat))     -- block rows of codes driven and not yet written back, by block row (R311)
  ahead : AMap (List (Option (List (List Nat))))   -- by half: the block row of history read ahead, block by block; none for an invalid one (R225, R311)
  dsat : Nat                        -- pixels of this slot in which decode saturated
  mclip : Nat                       -- pixels of this slot in which the matrix clamped
  odsat : Bool                      -- the overdrive sat acted in this slot
  dose : AMap Nat                   -- luminance-dose accumulators by 3 * tile + colour (R570)
  doseClr : Bool                    -- they clear at the next frame boundary (R571)
  emits : List (Nat × Nat)          -- when the emission tokens of the last slots enter and leave their registers (R370)
  deriving DecidableEq, Repr

/-- The source state of a target (R330 to R332). -/
structure SourceState where
  asleep : Bool
  fs : Nat                          -- Fs of the sleep in force, or of the one that waits
  due : Bool                        -- a SRC_SLEEP acts at the next boundary
  used : Bool                       -- used by a slot of this frame period
  usedNext : Bool                   -- used by slot 0 of the next one, which is decided before its boundary (R188)
  got : Bool                        -- a packet naming it was accepted in this frame period
  silent : Nat                      -- consecutive silent frame periods in which it was used
  deriving DecidableEq, Repr

/-- The substitution run of one target in one view (R329, R338). -/
structure HearthRun where
  age : Nat                         -- 0 outside a run
  choice : Nat                      -- the choice of the last slot, coded as R347
  usedPB : Bool                     -- the run has used PLATE or BLACK / OMIT
  slept : Bool                      -- the target has been ASLEEP in the run
  fell : Bool                       -- it fell ASLEEP after the last slot of the run, and was not in rejoin wait before
  rejoin : Nat                      -- consecutive in-time deadlines in rejoin wait
  line : Bool                       -- target 0: the run is the line-locked image's, not the base frame's
  deriving DecidableEq, Repr

/-- What a slot shows of one target. -/
inductive Pick where
  | unused
  | live (sel : Nat)                -- frame-store buffer, as its FST_MAP_SEL code
  | held (sel gain : Nat)           -- hold frame; gain 256 without a fade (R336)
  | plate (i : Nat)                 -- plate staging buffer i
  | dark                            -- BLACK or OMIT
  | overlay                         -- the window port's overlay (R590)
  | row                             -- a line-locked image that is AWAKE: decided row by row (R337)
  deriving DecidableEq, Repr

/-- A slot that has been decided (R189). -/
structure SlotPlan where
  frame : Nat
  slot : Nat
  view : Nat
  picks : List Pick                 -- base frame or line-locked image, then W0 to W3
  llFrom : Option Nat               -- line-locked: the first row taken from L (R337), as 2 * scan position + half
  deriving DecidableEq, Repr

/-- The hearth (R329 to R350). -/
structure HearthState where
  src : AMap SourceState            -- by the first buffer of the target
  runs : AMap HearthRun             -- by 8 * view + target
  slots : Nat                       -- slots of the frame in force that are decided
  ahead : Bool                      -- slot 0 of the next frame is decided
  before : AMap HearthRun           -- the runs before that decision (R248)
  plans : List SlotPlan             -- decided slots whose scan has not ended
  found : Option (Nat × Nat × Nat)  -- D_loc: frame, slot and targets found late (R343)
  reports : List (Nat × Nat × Nat × Nat)   -- hold reports received: frame, slot, view, target mask
  substRun : Nat                    -- consecutive frame periods in which every view was substituted (R72, R340)
  anyLive : Bool                    -- a slot of this frame period showed a target live
  anySlot : Bool                    -- this frame period had a slot
  scanSlot : Option Nat             -- the slot of the frame in force that is being scanned
  scanned : Nat                     -- slots of the frame in force whose scan has started
  row : Nat                         -- the next position in scan order
  deriving DecidableEq, Repr

/-- What a driver command serves. -/
inductive DrvUse where
  | host                            -- BAT_CMD (R376)
  | train                           -- training (R363)
  | seq                             -- the panel sequencer (R384, R386)
  | seqQuiet                        -- the panel sequencer, to a driver that the step has reported (R387)
  | trim                            -- a user trim (R506)
  | cal                             -- CAL_STEP DAC_REF (R502)
  deriving DecidableEq, Repr

/-- A command to a column driver. -/
structure DrvCmd where
  write : Bool
  addr : Nat
  data : Word
  use : DrvUse
  tag : Nat
  deriving DecidableEq, Repr

/-- One column driver's link (R363 to R366). -/
structure Driver where
  phase : Nat                       -- 0 no training; 1 back-channel lock; 2 LOCK wait; 3 MAP write; 4 DID read; 5 MAP read
  good : Nat                        -- consecutive frames counted by the phase
  lockMiss : Nat                    -- consecutive STATUS frames with LOCK = 0
  back : Nat                        -- valid frames since it became DEGRADED
  map : Word                        -- MAP as written at training: O, REV, FIRST
  cmd : Option DrvCmd               -- the command outstanding
  queue : List DrvCmd               -- commands that wait
  nextTag : Nat
  temp : Option Int                 -- TEMP of the last valid STATUS frame (R483)
  fresh : Bool                      -- a valid STATUS frame arrived since θ was last computed
  grid : Nat                        -- where the block slots end: thirds of a UI of volume time, modulo 195 (R358, R362)
  deriving DecidableEq, Repr

/-- Panel sequencer and protection (R381 to R399). -/
structure PanelState where
  lat : AMap Word                   -- group 35 values latched at the start of the sequence (R383)
  rowT : Nat                        -- the row time latched
  raised : List Nat                 -- rails raised, in order (R382)
  todo : List Nat                   -- rails still to raise or remove in N3 or F5
  inDelay : Bool                    -- N3, F5: the rail's ON_DLY or OFF_DLY runs
  aborted : Bool                    -- the removal of a power-on that did not light the panel (R385)
  emerg : Nat                       -- trigger of the emergency discharge that runs, coded as LAST_FAIL; 0 none
  emergStep : Nat                   -- steps of R389 reached
  emergSkip : Bool                  -- the power-off had already written the storage nodes (R391)
  wantOn : Bool                     -- a power-on follows the power-off that runs (R391)
  wantOff : Bool                    -- a power-off follows the power-on that runs (R391)
  scanning : Bool                   -- the scan runs
  litAt : Nat                       -- volume time of the end of N8 (R384)
  stopFrame : Bool                  -- the scan stops at the end of the frame period (R388)
  stopSlot : Bool                   -- the scan stops at the end of the current slot (R388)
  stopCause : Nat                   -- LAST_FAIL value that the power-off records; 0 none
  measuring : Bool                  -- a crack-loop measurement runs
  force : Nat                       -- the current of the measurement in µA (R394)
  crackHigh : Nat                   -- consecutive readings above RLIM
  crackOpen : Nat                   -- consecutive open readings
  crackOk : Nat                     -- consecutive readings at or below RLIM
  n1Measured : Bool                 -- N1's measurement has been made
  n1Bad : Nat                       -- what it found: 0 good, 1 HIGH, 2 OPEN
  pins : Nat                        -- panel outputs that are high, bit n for output n of `panelPin`
  deriving DecidableEq, Repr

/-- What an NVMe command to a magazine serves. -/
inductive MagUse where
  | identify (step : Nat)           -- initialisation of R403, step by step
  | superblock (slot : Nat)         -- mount: superblock slot (R411)
  | directory                       -- mount: a part of the directory copy under trial (R411)
  | update (step : Nat)             -- a step of the directory update at the front (R412)
  | format (step : Nat)             -- a step of formatting (R413)
  | stageIndex (buf : Nat)          -- the index page of a staging (R410, R421)
  | stagePage (buf page : Nat)      -- pages of a staging from plate page `page` on
  | readIndex (c idx : Nat)         -- the index page of a PLATE_READ
  | readPage (c idx page : Nat)     -- pages of a PLATE_READ
  | append (c idx : Nat)            -- container pages of an APPEND
  | appendIndex (c idx : Nat)       -- its index page
  | trim (plate : Option Nat)       -- deallocation after a delete of a plate, or after a format
  | smart
  | feature                         -- the temperature threshold, set and read back after the attach (R403, R426)
  | dropped                         -- a staging read whose staging has been freed (R405, R422)
  | unmount (step : Nat)            -- 0 Flush, 1 delete the submission queue, 2 the completion queue, 3 shutdown
  deriving DecidableEq, Repr

/-- An NVMe command, sent or waiting for room in the submission queue (R403, R424). -/
structure MagCmd where
  tag : Nat
  use : MagUse
  cmd : NvmeCmd
  sent : Bool
  deriving DecidableEq, Repr

/-- A change of the directory that runs or waits (R412). -/
structure DirUpdate where
  client : Nat
  idx : Nat
  op : Nat                          -- 1 CREATE, 3 CLOSE, 4 DELETE
  entry : Nat
  bytes : List Byte                 -- the new 256-byte entry
  deriving DecidableEq, Repr

/-- A PLATE_READ at work (R419). -/
structure PlateRead where
  client : Nat
  idx : Nat
  port : Nat
  plate : Nat
  decoded : Bool
  page0 : Nat
  pages : Nat
  data : AMap (List Byte)           -- pages read, by plate page
  left : Nat                        -- page reads outstanding
  deriving DecidableEq, Repr

/-- An APPEND at work (R416). -/
structure AppendJob where
  client : Nat
  idx : Nat
  port : Nat
  plate : Nat
  entry : List Byte                 -- the plate's directory entry
  data : List Byte                  -- the frame; empty until it has been read
  given : List Nat                  -- chunks handed to an engine
  outs : AMap (List Byte)           -- chunks compressed, with their headers
  pages : Nat                       -- pages of the container
  left : Nat                        -- page writes outstanding
  deriving DecidableEq, Repr

/-- A magazine port (R401 to R413). -/
structure MagPort where
  present : Bool                    -- MGm_PRSNT_N is low
  step : Nat                        -- attach step reached (R402)
  reseat : Bool                     -- PRSNT_N must go high and low before the port attaches again
  cmds : List MagCmd
  nextTag : Nat
  depth : Nat                       -- depth of the I/O queues (R403)
  cmdPages : Nat                    -- pages of the largest read or write (R403)
  sb : AMap (Nat × Nat × Nat × Nat × Nat) -- valid superblocks by slot: GEN, LBAS, DIR_COPY, DIR_CRC, VOL_ID
  sbTry : List Nat                  -- superblock slots to try, higher GEN first
  dirNew : Mem                      -- the directory copy that is being read
  dirLeft : Nat                     -- parts of it outstanding
  copy : Nat                        -- directory copy in force
  gen : Nat                         -- GEN in force
  dir : Mem                         -- the 1 MiB directory in force
  bad : List Nat                    -- bad entries
  owner : AMap Nat                  -- OPEN plate to its client + 1
  frames : AMap (Nat × Nat)         -- OPEN plate of this mount: FRAMES and plate pages in use
  index : AMap (List Nat)           -- OPEN plate of this mount: its index entries
  updates : List DirUpdate          -- directory changes, the running one first
  formatting : Bool
  unmounting : Option Nat           -- an unmount waits or runs: the state that follows it, 0 for the one of DORMANT
  deriving DecidableEq, Repr

/-- A playback schedule (R417, R418). -/
structure Sched where
  port : Nat
  plate : Nat
  view : Nat
  tgt : Nat
  i0 : Nat
  f0 : Nat
  n : Nat
  endMode : Nat
  until_ : Option Nat               -- it names nothing from this frame on
  deriving DecidableEq, Repr

/-- A plate frame in a staging buffer (R421 to R423). -/
structure Staging where
  port : Nat
  plate : Nat
  pframe : Nat
  frame : Nat                       -- the frame F it is for
  users : List (Nat × Nat)          -- view and target of the schedules it serves
  entry : List Byte                 -- the plate's directory entry
  page0 : Nat                       -- first plate page
  pages : Nat                       -- 0 until the index entry is read
  data : AMap (List Byte)           -- pages read, by plate page
  left : Nat                        -- page reads outstanding
  retried : List Nat                -- what was read once more (R423): chunks k, pages as 2^32 + page after a failed read, the index as 2^33, pages of a chunk as 2^34 + page
  given : List Nat                  -- chunks handed to an engine
  outs : AMap (List Byte)           -- chunks inflated, not yet written
  next : Nat                        -- the next chunk to write
  got : List Byte                   -- inflated bytes that do not fill a row yet
  rowsOut : Nat                     -- rows written to the buffer
  complete : Bool
  shownBy : List (Nat × Nat)        -- view and target that showed it in the view's last slot
  shown : Bool
  doneAt : Nat                      -- when it became complete, as a volume time (R24)
  deriving DecidableEq, Repr

/-- The magazine ports and the plate store. -/
structure MagState where
  ports : AMap MagPort
  scheds : AMap (Option Sched)      -- by schedule number
  stages : AMap (Option Staging)    -- by plate staging buffer
  reads : List PlateRead
  appends : List AppendJob
  abandoned : List (Nat × Nat × Nat × Nat)   -- port, plate, plate frame and frame whose staging failed (R423)
  deriving DecidableEq, Repr


/-- What a Thatch engine runs (R439). -/
inductive ThcWork where
  | idle
  | host (c idx : Nat) (img data : Option (List Byte))   -- a host job: its job state and its input, once read
  | stage (buf chunk : Nat)
  | ingest (c idx chunk : Nat)
  | bist
  deriving DecidableEq, Repr

/-- A Thatch engine beside its registers. -/
structure Engine where
  work : ThcWork
  left : Nat                        -- operations left of a host job whose input has been read
  deriving DecidableEq, Repr

/-- The Thatch engines (R437 to R444). -/
structure ThcState where
  eng : AMap Engine
  queue : List (Nat × Nat)          -- host jobs that wait for an engine: client and ring index
  passed : List (Nat × Nat)         -- host jobs in the order in which they passed check 9 (R439)
  deriving DecidableEq, Repr

def Engine.init : Engine := ⟨.idle, 0⟩
def ThcState.init : ThcState := ⟨[], [], []⟩


/-- The on-chip banks and the placing of table copies (R451 to R472). -/
structure BankState where
  bad : List Nat                    -- uncorrectable or poisoned words: 65,536 * bank + word
  copy : AMap Nat                   -- the physical copy, 0 or 1, that is active, by table
  clr : AMap Nat                    -- the first unit of a colour copy's share, by 2 * view + copy
  soft : List Nat                   -- words with a correctable error that nothing has corrected yet (R462)
  cube : AMap Nat                   -- CUBE by which a colour copy is laid out, by 2 * view + copy (R455)
  deriving DecidableEq, Repr

/-- The counts that one sensor keeps (R476, R478, R479). -/
structure Sensor where
  far : Nat                         -- consecutive sweeps more than 6 °C from the median of its neighbours
  near : Nat                        -- consecutive sweeps within it
  hot : Nat                         -- consecutive readings of 128 °C or more
  past : List Int                   -- what it read 0 to 15 sixteenths of a millisecond ago; none before its first reading since a wake
  deriving DecidableEq, Repr

/-- The VCO band of a port: the temperature at its last training, the band, and whether a drift has been raised (R485). -/
structure Band where
  tcal : Int
  band : Nat
  said : Bool
  deriving DecidableEq, Repr

/-- Sensors and throttle (R473 to R490). -/
structure ThermState where
  sens : AMap Sensor                -- by sensor
  diff : AMap Nat                   -- consecutive reads in which the sensors of a stack differ (R477)
  suspectHot : Bool                 -- the SUSPECT case of R480 holds
  warnClear : Nat                   -- consecutive sweeps at or below RWARN
  thrClear : Nat                    -- consecutive sweeps at or below RTHR
  cond : Bool                       -- the throttle condition held at the last evaluation
  hostWritten : Bool                -- THM_ODT_HOST has been written
  hostAge : Nat                     -- computations of θ since then, one each 1 ms
  bands : AMap Band                 -- by port: 0 to 3 Rafter, 4 to 7 Ridge, 8 + g column driver g, 32 PCIe, 33 + m magazine port m
  adcC : Int                        -- the correction c of the ADC reference (R484, R495)
  deriving DecidableEq, Repr

/-- A calibration step that runs or waits (R498). -/
structure CalRun where
  client : Nat
  idx : Nat                         -- ring index of its descriptor
  step : Nat                        -- ARG0
  arg : Nat                         -- ARG1
  todo : List Nat                   -- drivers that DAC_REF still has to read (R502)
  code : Nat                        -- the first outcome other than OK among its drivers
  found : AMap Word                 -- DACREF as read from each driver
  deriving DecidableEq, Repr

/-- The calibration unit (R497 to R503). -/
structure CalState where
  run : Option CalRun
  queue : List CalRun               -- in the order in which they passed check 9
  passed : List (Nat × Nat)         -- steps in the order in which they passed check 9: client and ring index
  deferred : Bool                   -- a crack-loop measurement waits for the end of the step
  deriving DecidableEq, Repr


/-- A host access that this device relays to its head, without a reply (R533). -/
structure HostTag where
  tag : Nat
  kind : Nat                        -- KIND of the request
  addr : Nat
  bytes : List Byte                 -- what it carries; for a read, RLEN
  use : Option HostRead             -- the read it serves
  client : Option (Nat × Nat)       -- the descriptor a write belongs to
  cpl : Bool                        -- a completion write
  got : List Byte                   -- read data received so far
  resent : Bool                     -- an MSI-X message that was sent once more
  deriving DecidableEq, Repr

/-- An entry of the role table (R526), by role. -/
structure RoleEntry where
  known : Bool
  dsn : Nat
  epoch : Nat
  col : Nat
  row : Nat
  flags : Nat                       -- FLAGS of its ROLE_ANN: head, candidate, elected source, four-view part
  cls : Nat
  hops : Nat                        -- its distance
  hopsTs : Nat
  ecc : Nat
  link : Nat                        -- the next link toward it
  reachable : Bool
  deriving DecidableEq, Repr

/-- A VOL_CMD that has not completed (R534). -/
structure VolPend where
  client : Nat
  idx : Nat
  op : Nat
  roles : Nat                       -- the roles named
  heard : Nat                       -- roles that answered
  good : Nat                        -- roles that answered with RESULT 0
  bseq : Nat                        -- BSEQ of its VCMD
  epoch : Nat                       -- VOL_ROLE: the new epoch
  deriving DecidableEq, Repr

/-- Ridge mesh, roles and volume commands (R515 to R542). -/
structure RidgeState where
  bseq : Nat                        -- BSEQ of the next broadcast (R519)
  rtag : Nat                        -- RTAG of the next HOST message
  hostTags : List HostTag           -- relayed accesses without a reply
  hostHold : Bool                   -- the head changed: new host requests wait (R533)
  hostWait : List HostTag           -- those that wait
  roles : AMap RoleEntry            -- the role table
  seen : AMap (Nat × Nat)           -- by SRC: highest BSEQ taken, and bit k for BSEQ − k taken (R520)
  derive_ : Option (Nat × Nat × Nat)  -- ROLE_SET taken: EPOCH, COLS, MASK; the coordinate is still to be derived (R525)
  elected : Option Nat              -- the elected timing source (R529)
  inLock : Nat                      -- lock state of its own GENLOCK input when it began to follow
  offers : AMap Nat                 -- HOPS of the last BND on each link (R530)
  srcF : Option Nat                 -- F of the last BND
  aligned : Nat                     -- consecutive exchanges within 4 + 2n (R532)
  vtStep : Int                      -- a step of the volume time that waits for the end of the frame period (R531)
  tseq : Nat                        -- SEQ of the next TSYNC_REQ
  t1 : AMap (Nat × Nat)             -- by link: SEQ and T1 of the last TSYNC_REQ
  vols : List VolPend               -- VOL_CMDs in progress
  sched : List (Nat × Nat × Nat)    -- volume commands taken: frame bits [31:0], operation, parameter
  selfReset : Bool                  -- VOL_RESET named its issuer (R534)
  deriving DecidableEq, Repr

/-- The Touchmark meter (R543 to R569), on its own supply. -/
structure MeterState where
  powered : Bool                    -- VDD_TMK is within its range
  fuse : Bool                       -- the seal fuse is blown
  slotA : List Byte                 -- parameter storage slots; [] while erased
  slotB : List Byte
  active : Nat                      -- the active block: 1 slot A, 2 slot B, 0 the ROM defaults (PARAM_LOST)
  periodS : Nat                     -- length of the current billing period in seconds
  k : Nat                           -- the current period
  bound : Nat                       -- the MT at which it ends
  mt : Nat                          -- meter time
  acc0 : Int                        -- channel accumulators in nJ
  acc1 : Int
  e0 : Nat                          -- the period's figures in mJ
  e1 : Nat
  lit : Nat
  flags : Nat                       -- period flags, placed as in R563
  p0 : Int                          -- mean power of the last second in mW
  p1 : Int
  wall : Option Int                 -- the wall-clock offset
  gref : Option (Word × Nat)        -- proposals with the MT of their measurement
  xtal : Option (Word × Nat)
  log : AMap (List Byte)            -- programmed slots of the log
  head : Nat
  lseq : Nat                        -- LSEQ of the next record
  resp : Option (List Byte)         -- the response frame held for the port
  lastSeq : Nat                     -- SEQ of the last port request answered
  relays : List (Nat × Nat × List Byte)   -- relayed requests, the outstanding one first: client, ring index, frame
  relayResp : Option (List Byte)    -- the response to the outstanding relay request
  deriving DecidableEq, Repr

/-- A write accepted by the window port: where its two samples lie (x, y, colour) and their values (R594). -/
structure WinWrite where
  xa : Nat
  ya : Nat
  ca : Nat
  va : Nat
  xb : Nat
  yb : Nat
  cb : Nat
  vb : Nat
  deriving DecidableEq, Repr

/-- The Premal window port (R587 to R601): the BAR4 registers and what stands behind them. -/
structure WinState where
  x : Nat                           -- the pointer
  y : Nat
  c : Nat
  shadow : Nat                      -- shadow X
  armed : Bool
  valid : Bool
  wrapped : Bool
  stale : Bool
  latchA : Nat                      -- the read latch
  latchB : Nat
  wx0 : Nat
  wy0 : Nat
  ww : Nat
  wh : Nat
  journal : List WinWrite           -- accepted and not applied, oldest first, FIFO included
  held : List (Option (Nat × Nat × Word)) -- BAR4 accesses behind the full FIFO (R595): offset, byte enables, value; none: a WP_DATA read
  written : Nat                     -- overlay blocks written since the zero map was set, bit per block (R588)
  refused : Bool                    -- WIN_REFUSED was raised in this refusal
  disabled : Bool                   -- WIN_DISABLED was raised in this episode
  deriving DecidableEq, Repr

/-- The states of the test access port of IEEE 1149.1 (R13). -/
inductive TapState where
  | testLogicReset | runTestIdle
  | selectDr | captureDr | shiftDr | exit1Dr | pauseDr | exit2Dr | updateDr
  | selectIr | captureIr | shiftIr | exit1Ir | pauseIr | exit2Ir | updateIr
  deriving DecidableEq, Repr

/-- The instruction in force, the mandatory ones and IDCODE (R13): the test data register it selects, and under EXTEST the boundary register
with its latches on the pins. -/
inductive TapReg where
  | bypass | idcode | boundary | extest
  deriving DecidableEq, Repr

/-- The JTAG port (R13). Shift registers hold the bit next to TDO first. -/
structure JtagState where
  tap : TapState
  reg : TapReg                      -- selected by the instruction in force
  irShift : List Bool
  drShift : List Bool
  cells : List Bool                 -- the boundary register's update latches
  deriving DecidableEq, Repr


/-- The state of the device. -/
structure State where
  part : Part                       -- BA or BC (R1)
  regs : AMap Word                  -- BAR0 registers that differ from their reset values
  rst : ResetState
  pwr : PowerState
  hst : HostState
  stg : StageState
  tabs : AMap Table                 -- pipeline tables by TARGET (R25, R94)
  evt : EventState
  gen : GenState
  rdg : RidgeState
  fst : FstState
  links : AMap LinkState             -- Rafter ports 0 to 3, Ridge links 4 to 7
  thm : ThermState
  drv : AMap Driver                 -- column drivers by g (R358)
  pipe : PipeState
  cal : CalState
  pnl : PanelState
  hrt : HearthState
  bnk : BankState
  win : WinState
  mag : MagState
  thc : ThcState
  tmk : MeterState
  jtag : JtagState
  fmask : Nat                       -- FMASK: fault-mask bits by m (R285, R286)
  aon : Nat                         -- the AON counter (R49, R580)
  freeN : Nat                       -- MODEL: how many free values have been drawn
  fsEpoch : Nat                     -- MODEL: which undefined frame-store contents hold (R49)
  out : List Out                    -- MODEL: everything sent outwards, oldest first
  pending : List Instr              -- MODEL: commands that wait, first in, first out
  deriving DecidableEq, Repr

/-- Why a step stops. No rule of the spec stops the block. -/
inductive Fault where
  /-- Raised by no command the outside can send: an operand list of a length that the command cannot have (WellFormed). Safe, since the
  hardware never sees such a command. -/
  | illFormed
  deriving DecidableEq, Repr

/-- Why the model gives a command no meaning. -/
inductive Refusal where
  /-- Raised by exec for a row without a meaning. Safe, since nothing can be proved of it. -/
  | notModelled (mnemonic : String)
  deriving DecidableEq, Repr

/-- Hidden state after a supply reset. (DEDUCED, log entry 3.) -/
def ResetState.init : ResetState := ⟨some .supply, none, false, false, [], false, false, false, false⟩

/-- Hidden state after a reset. (DEDUCED, log entry 3.) -/
def PowerState.init : PowerState :=
  ⟨[], [], none, none, false, 0, 0, 0, false, false, false, 0, 0, false, false, false, none, false, none, false, none⟩

/-- A client without descriptors. -/
def Client.init : Client := ⟨0, 0, 0, false, false, [], 0, 0, 0, false, false⟩

/-- DEDUCED, log entry 3. -/
def HostState.init : HostState :=
  ⟨false, false, false, false, false, [], 0, 0, 0, 0, [], [], 1, [], 0, [], [], [], 0⟩

/-- DEDUCED, log entry 3. -/
def StageState.init : StageState := ⟨0, [], [], [], [], none, [], [], 0⟩

def Table.init : Table := ⟨[], [], 0, 0, false, []⟩

/-- DEDUCED, log entry 3. -/
def EventState.init : EventState := ⟨[], 0, 0, 0, 0, 0, 0, false, [], 0, [], none⟩

def CamState.init : CamState := ⟨none, 0, false, false, false, [], 0, 0, false⟩

/-- DEDUCED, log entry 3. -/
def GenState.init : GenState where
  vt := 0
  fc := 0
  bnd := 0
  hiLatch := []
  ref := 0
  again := false
  delay := 0
  slew := 0
  jump := 0
  lineKind := 2
  lineRun := 0
  lastSync := none
  periods := []
  okRun := 0
  badRun := 0
  cams := []
  wins := []
  replace := []
  frac := 0
  given := none
  srcDigest := none
  srcPeriod := none
  ve := 0
  ae := 0
  fe := 0
  be := 0
  aonkNorm := 0x8F0D1800
  aonkMeasured := false

def WinState.init : WinState where
  x := 0
  y := 0
  c := 0
  shadow := 0
  armed := false
  valid := false
  wrapped := false
  stale := true
  latchA := 0
  latchB := 0
  wx0 := 0
  wy0 := 0
  ww := 0x1000
  wh := 0x600
  journal := []
  held := []
  written := 0
  refused := false
  disabled := false

def SourceState.init : SourceState := ⟨false, 0, false, false, false, false, 0⟩

def HearthRun.init : HearthRun := ⟨0, 0, false, false, false, 0, false⟩

/-- DEDUCED, log entry 3. -/
def HearthState.init : HearthState := ⟨[], [], 0, false, [], [], none, [], 0, false, false, none, 0, 0⟩

def MagPort.init : MagPort where
  present := false
  step := 0
  reseat := false
  cmds := []
  nextTag := 0
  depth := 16
  cmdPages := 32
  sb := []
  sbTry := []
  dirNew := []
  dirLeft := 0
  copy := 0
  gen := 0
  dir := []
  bad := []
  owner := []
  frames := []
  index := []
  updates := []
  formatting := false
  unmounting := none

/-- DEDUCED, log entry 3. -/
def MagState.init : MagState := ⟨[], [], [], [], [], []⟩

def RoleEntry.init : RoleEntry := ⟨false, 0, 0, 0, 0, 0, 0, 0, 0xFF, 0, 0, false⟩

/-- DEDUCED, log entry 3. -/
def RidgeState.init : RidgeState := ⟨0, 0, [], false, [], [], [], none, none, 0, [], none, 0, 0, 0, [], [], [], false⟩

def FrameBuf.init : FrameBuf := ⟨none, 0, 0, none, false, false, false, false, 0, false, false, [], 0, false⟩

/-- DEDUCED, log entry 3. -/
def FstState.init : FstState := ⟨[], [], [], [], [], [0, 0]⟩

def LaneState.init : LaneState := ⟨[], 0, 0, false, 0, 0⟩

/-- A packet decoder between packets. -/
def PktDecoder.init : PktDecoder := ⟨false, false, 0, [], none, 0, 0, 0, 0, []⟩

/-- DEDUCED, log entry 3. -/
def LinkState.init : LinkState where
  lanes := []
  blocksLeft := 0
  lastSeen := false
  capPhase := false
  accepted := false
  nakDue := false
  nakFor := false
  gap := false
  naks := 0
  badRun := 0
  replays := 0
  out := []
  resend := []
  resendFrom := 0
  queue := []
  limit := 0
  lastCap := none
  capPrev := false
  capSeen := false
  capGot := false
  capSent := 0
  sawFlit := false
  wasActive := false
  woken := false
  fwd := 0
  dec := .init
  decAt := .init
  proto := []
  crcLog := []
  crcSaid := none
  nepN := 0
  quiet := 1
  taken := 0
  traced := [0, 0, 0, 0]
  nbr := none
  nbrRole := none

def Sensor.init : Sensor := ⟨0, 0, 0, []⟩

def Band.init : Band := ⟨0, 0, true⟩

/-- DEDUCED, log entry 3. -/
def ThermState.init : ThermState := ⟨[], [], false, 0, 0, false, false, 0, [], 0⟩

def PipeState.init : PipeState := ⟨0, [], [], 0, 0, false, [], false, []⟩

/-- A meter whose storage nothing has written: it runs with the ROM defaults. (DESIGN CHOICE, log entry 6.) -/
def MeterState.init : MeterState where
  powered := true
  fuse := false
  slotA := []
  slotB := []
  active := 0
  periodS := 3600
  k := 0
  bound := 3600
  mt := 0
  acc0 := 0
  acc1 := 0
  e0 := 0
  e1 := 0
  lit := 0
  flags := 1
  p0 := 0
  p1 := 0
  wall := none
  gref := none
  xtal := none
  log := []
  head := 0
  lseq := 0
  resp := none
  lastSeq := 0
  relays := []
  relayResp := none

/-- Both colour copies of view v take 8 units from unit 16v on. (DEDUCED, log entry 88.) -/
def BankState.init : BankState := ⟨[], [], (List.range 16).filterMap (fun k => if k = 0 then none else some (k, 8 * k)), [], []⟩

def CalState.init : CalState := ⟨none, [], [], false⟩

def Driver.init : Driver := ⟨0, 0, 0, 0, 0, none, [], 0, none, false, 0⟩

/-- DEDUCED, log entry 3. -/
def PanelState.init : PanelState :=
  ⟨[], 0, [], [], false, false, 0, 0, false, false, false, false, 0, false, false, 0, false, 0, 0, 0, 0, false, 0, 0⟩

def JtagState.init : JtagState := ⟨.testLogicReset, .idcode, [], [], []⟩

/-- The machine right after a supply reset (R48, R49): every register at its reset value, nothing on but AON and TMK.
(DEDUCED, log entry 3; DESIGN CHOICE, log entries 4 and 5.) -/
def State.reset : State where
  part := .ba
  regs := []
  rst := .init
  pwr := .init
  hst := .init
  stg := .init
  tabs := []
  evt := .init
  gen := .init
  rdg := .init
  fst := .init
  links := []
  thm := .init
  drv := []
  pipe := .init
  cal := .init
  pnl := .init
  hrt := .init
  bnk := .init
  win := .init
  mag := .init
  thc := .init
  tmk := .init
  jtag := .init
  fmask := 0
  aon := 0
  freeN := 0
  fsEpoch := 0
  out := []
  pending := []

end Sys2Proof.Machine
end

