-- ==== Sys2Proof/Machine/ResetVal.lean ====
section
/-! DEFINITION. Looking a BAR0 offset up in the register table, and the value every register has after reset (R49 and the After reset columns). -/

namespace Sys2Proof.Machine

/-- The copy indices (i, j) of register `d` at offset `off`, if `off` is one of its copies. -/
def RegDef.at? (d : RegDef) (off : Nat) : Option (Nat × Nat) :=
  if off < d.base then none
  else
    let o := off - d.base
    let i := if d.n1 = 1 then 0 else o / d.s1
    let o' := if d.n1 = 1 then o else o % d.s1
    let j := if d.n2 = 1 then 0 else o' / d.s2
    let o'' := if d.n2 = 1 then o' else o' % d.s2
    if o'' = 0 ∧ i < d.n1 ∧ j < d.n2 then some (i, j) else none

/-- The first register of a list that has a copy at `off`. -/
def findReg : List RegDef → Nat → Option (RegDef × Nat × Nat)
  | [], _ => none
  | d :: t, off =>
    match d.at? off with
    | some (i, j) => some (d, i, j)
    | none => findReg t off

/-- The register at BAR0 offset `off`, with its copy indices; none for an unassigned offset (R85). (DEDUCED, log entry 35.) -/
def regAt (off : Nat) : Option (RegDef × Nat × Nat) := findReg (regsOfBlock off) off

/-- The reset value that the fields of a register give. -/
def fieldsReset : List FieldDef → Word
  | [] => 0
  | f :: t => withField f.fld f.reset (fieldsReset t)

/-- The fixed code of alarm entry `n` (R580). -/
def alarmCode (n : Nat) : Nat :=
  [0x0006, 0x0207, 0x0C03, 0x0C06, 0x0C08, 0x0C09, 0x0C0B, 0x1408, 0x1409, 0x140B].getD n 0

/-- The owner code (R470) of bank `b` after reset: WORK copies 0 and 1, DEFECT, the colour pool, on a BA part the magazine
ports' two banks each from bank 110 (R453, R454), and free banks. -/
def bankOwnerReset (p : Part) (b : Nat) : Nat :=
  if b < 38 then 1 else if b < 76 then 2 else if b < 78 then 3 else if b < 110 then 4
  else if p = .ba ∧ b < 118 then 6 + (b - 110) / 2 else 0

/-- The reset value of BNK_OWNn: the owners of banks 8n to 8n + 7, four bits each (R470). (DESIGN CHOICE, log entry 4.) -/
def bankOwnWord (p : Part) (n : Nat) : Word :=
  word ((List.range 8).foldl (fun a k => a + bankOwnerReset p (8 * n + k) * 16 ^ k) 0)

/-- DMU_CRC0 to DMU_CRC5 after reset: the CRC-32C of the reset contents of PGAIN, PTILE, SGAIN, STILE, DEFECT and CMASK
(R295, R297, R304). (DEDUCED, log entry 89.) -/
def dmuCrcReset : List Word := [0xA0C21C87, 0x72BC8873, 0xA0C21C87, 0x8D02CCF7, 0xC253E960, 0x20AD41A3]

/-- Reset values that depend on the part, on the copy index or on the fuses. (DESIGN CHOICE, log entries 4 and 9; DEDUCED, log entry 57.) -/
def resetFix (p : Part) (off i j : Nat) (w : Word) : Word :=
  if off = Reg.GBL_ID then withField F.GBL_ID_VARIANT (if p = .ba then 1 else 2) w
  else if off = Reg.PWR_DOM_ON0 then 0x3
  else if off = Reg.PWR_LOCKOFF then withField F.PWR_LOCKOFF_LOCK_LO (if p = .ba then 0 else 0xF00) w
  else if off / 0x40000 = 3 ∧ off = Reg.HST_CCFG i then withField F.HST_CCFG_PRIV (if i < 4 then 1 else 0) w
  else if off / 0x40000 = 8 ∧ off = Reg.CLR_M i j ∧ j < 9 then
    withField F.CLR_M_COEF (if j % 4 = 0 then 0x10000 else 0) w
  else if off / 0x40000 = 9 ∧ off = Reg.DMU_CRC i then dmuCrcReset.getD i 0
  else if off / 0x40000 = 10 ∧ off = Reg.ODV_BAND i then
    withField F.ODV_BAND_TC ([0x190, 0x2D0, 0x410, 0x550].getD i 0) w
  else if off / 0x40000 = 11 ∧ off = Reg.DTH_VCFG i then withField F.DTH_VCFG_OFFX (8 * i) w
  else if off / 0x40000 = 18 ∧ off = Reg.MAG_CFG i then withField F.MAG_CFG_EN (if p = .ba then 1 else 0) w
  else if off = Reg.BNK_POOL then withField F.BNK_POOL_GEN_FREE (if p = .ba then 0xA else 0x12) w
  else if off / 0x40000 = 19 ∧ off = Reg.BNK_OWN i then bankOwnWord p i
  else if off / 0x40000 = 22 ∧ off = Reg.EVT_ALM_CODE i then withField F.EVT_ALM_CODE_CODE (alarmCode i) w
  else if Reg.CAL_FSENS_A 0 ≤ off ∧ off ≤ Reg.CAL_FCHK then Config.fuse (off % 0x40000)
  else w

/-- The value of BAR0 offset `off` after reset; 0 for an unassigned offset. (DESIGN CHOICE, log entry 4.) -/
def resetWord (p : Part) (off : Nat) : Word :=
  match regAt off with
  | some (d, i, j) => resetFix p off i j (fieldsReset d.fields)
  | none => 0

end Sys2Proof.Machine
end

