-- ==== Sys2Proof/Machine/Regs.lean ====
section
/-! DEFINITION. Reading and writing the registers of BAR0: the one home of each register is `State.regs`. -/

namespace Sys2Proof.Machine

/-- The value in force of the register at BAR0 offset `off`. -/
def State.reg (s : State) (off : Nat) : Word := aget (resetWord s.part) s.regs off

/-- The device sets the register at `off`. -/
def State.setReg (s : State) (off : Nat) (v : Word) : State :=
  { s with regs := aset (resetWord s.part) s.regs off v }

/-- The number in field `f` of the register at `off`. -/
def State.getF (s : State) (off : Nat) (f : Fld) : Nat := fieldOf f (s.reg off)

/-- The device sets field `f` of the register at `off` to `n`. -/
def State.setF (s : State) (off : Nat) (f : Fld) (n : Nat) : State :=
  s.setReg off (withField f n (s.reg off))

/-- Whether a one-bit field is 1. -/
def State.flag (s : State) (off : Nat) (f : Fld) : Bool := s.getF off f == 1

/-- Advance a counter register by `n`; it saturates at 0xFFFF_FFFF. -/
def State.bump (s : State) (off n : Nat) : State :=
  s.setReg off (word (min ((s.reg off).toNat + n) 0xFFFFFFFF))

/-- Advance a counter field by one; it saturates at the largest value of the field. -/
def State.bumpF (s : State) (off : Nat) (f : Fld) : State :=
  s.setF off f (min (s.getF off f + 1) (2 ^ (f.msb + 1 - f.lsb) - 1))

/-- Clear the counters at `base + 4 * n` for each bit n, below `k`, set in `bits` (the CNT_CLR registers). -/
def State.clearCounters (s : State) (base bits k : Nat) : State :=
  (bitsOf bits k).foldl (fun s n => s.setReg (base + 4 * n) 0) s

/-- Return every register in the list of blocks kept by `keep` to its reset value. -/
def State.restartRegs (s : State) (keep : Nat → Bool) : State :=
  { s with regs := s.regs.filter (fun e => keep e.1) }

/-- Send `o` outwards. (DESIGN CHOICE, log entry 14.) -/
def State.emit (s : State) (o : Out) : State := { s with out := s.out ++ [o] }

/-- Draw a free value: the opaque constant applied to the model's counter, which then advances. (DESIGN CHOICE, log entry 7.) -/
def State.free (s : State) : Nat × State :=
  (Config.freeNat s.freeN, { s with freeN := s.freeN + 1 })

/-- The block number of a BAR0 offset (R116). -/
def blockOf (off : Nat) : Nat := off / 0x40000

/-- The power domain that serves the registers at `off` (R116), when every domain that may decode them is on. -/
def domainOf (off : Nat) : Nat :=
  let b := blockOf off
  let q := off % 0x40000
  if b = 0 ∨ b = 2 then 0
  else if b = 1 ∨ b = 3 ∨ b = 22 ∨ b = 23 ∨ b = 24 then 2
  else if b = 4 then 7 + q / 0x10000
  else if b = 5 then 3 + q / 0x10000
  else if b ≤ 14 then 17
  else if b = 15 then 23
  else if b = 16 then 20
  else if b = 17 then 21 + q / 0x20000
  else if b = 18 then 11 + q / 0x10000
  else if b = 19 then 25
  else 33

/-- Whether power domain `d` is on (R66, R70). -/
def State.isOn (s : State) (d : Nat) : Bool :=
  if d < 32 then bit (s.reg Reg.PWR_DOM_ON0).toNat d else bit (s.reg Reg.PWR_DOM_ON1).toNat (d - 32)

/-- Turn power domain `d` on or off. -/
def State.setDomain (s : State) (d : Nat) (b : Bool) : State :=
  let off := if d < 32 then Reg.PWR_DOM_ON0 else Reg.PWR_DOM_ON1
  let i := if d < 32 then d else d - 32
  let w := (s.reg off).toNat
  s.setReg off (word (if b then setBit w i else clearBit w i))

/-- Turn a list of domains on or off. (DEDUCED, log entry 30.) -/
def State.setDomains (s : State) (ds : List Nat) (b : Bool) : State :=
  ds.foldl (fun s d => s.setDomain d b) s

/-- Every domain but AON and TMK is off until a reset ends: a start-up has stopped (R47, R54), thermal shutdown has run (R51), VDD_IO is gone
(R71), or a reset is being applied (R48). -/
def State.coreOff (s : State) : Bool := s.rst.stopped || s.rst.shutdown || s.rst.off || s.rst.applying.isSome

/-- A host access through the BARs reaches the device: HST is on (R62), and the function is not in D3hot, where PCIe 5.0 leaves its memory
space unanswered (R83). -/
def State.hostReaches (s : State) : Bool := s.isOn 2 && !s.hst.d3

/-- What a host access through the BARs brings about, if it reaches the device. -/
def State.viaHst (s : State) (f : State → State) : State := if s.hostReaches then f s else s

/-- Whether ready bit `b` of GBL_READY is set (R56). -/
def State.isReady (s : State) (b : Nat) : Bool := bit (s.reg Reg.GBL_READY).toNat b

/-- Client `c`'s ring engine. -/
def State.client (s : State) (c : Nat) : Client := aget (fun _ => Client.init) s.hst.clients c

/-- Replace client `c`'s ring engine. -/
def State.setClient (s : State) (c : Nat) (k : Client) : State :=
  { s with hst := { s.hst with clients := aset (fun _ => Client.init) s.hst.clients c k } }

/-- The copies of table `t`. -/
def State.table (s : State) (t : Nat) : Table := aget (fun _ => Table.init) s.tabs t

/-- Replace the copies of table `t`. -/
def State.setTable (s : State) (t : Nat) (v : Table) : State :=
  { s with tabs := aset (fun _ => Table.init) s.tabs t v }

/-- Update the parts of the state that one family owns. -/
def State.onHst (s : State) (f : HostState → HostState) : State := { s with hst := f s.hst }
def State.onStg (s : State) (f : StageState → StageState) : State := { s with stg := f s.stg }
def State.onEvt (s : State) (f : EventState → EventState) : State := { s with evt := f s.evt }
def State.onRst (s : State) (f : ResetState → ResetState) : State := { s with rst := f s.rst }
def State.onPwr (s : State) (f : PowerState → PowerState) : State := { s with pwr := f s.pwr }
def State.onGen (s : State) (f : GenState → GenState) : State := { s with gen := f s.gen }
def State.onRdg (s : State) (f : RidgeState → RidgeState) : State := { s with rdg := f s.rdg }

/-- The scan of the segment runs. -/
def State.scanRuns (s : State) : Bool := s.pnl.scanning

/-- Column driver `g`'s link. -/
def State.driver (s : State) (g : Nat) : Driver := aget (fun _ => Driver.init) s.drv g

/-- Replace column driver `g`'s link. -/
def State.setDriver (s : State) (g : Nat) (d : Driver) : State :=
  { s with drv := aset (fun _ => Driver.init) s.drv g d }

def State.onPnl (s : State) (f : PanelState → PanelState) : State := { s with pnl := f s.pnl }
def State.onFst (s : State) (f : FstState → FstState) : State := { s with fst := f s.fst }
def State.onPipe (s : State) (f : PipeState → PipeState) : State := { s with pipe := f s.pipe }
def State.onCal (s : State) (f : CalState → CalState) : State := { s with cal := f s.cal }
def State.onThm (s : State) (f : ThermState → ThermState) : State := { s with thm := f s.thm }
def State.onMag (s : State) (f : MagState → MagState) : State := { s with mag := f s.mag }
def State.onThc (s : State) (f : ThcState → ThcState) : State := { s with thc := f s.thc }

end Sys2Proof.Machine
end

