-- ==== Sys2Proof/Machine/Ops.lean ====
section
/-! DEFINITION. What every family uses: traces, events, alarms, MSI-X vectors, ready bits, host-memory traffic and completions. -/

namespace Sys2Proof.Machine

/-- The role that records carry: RDG_ROLE, 0xFF without one (R574). -/
def State.role (s : State) : Nat :=
  if s.flag Reg.RDG_ROLE F.RDG_ROLE_VALID then s.getF Reg.RDG_ROLE F.RDG_ROLE_ROLE else 0xFF

/-! ## Ridge messages (R518 to R521) -/

/-- Link q's register bank: Rafter ports 0 to 3, then Ridge links N, E, S, W as 4 to 7 (R165, R540). -/
def lkBase (q : Nat) : Nat := 0x100000 + 0x10000 * q

/-- Link q's layer. -/
def State.link (s : State) (q : Nat) : LinkState := aget (fun _ => LinkState.init) s.links q

/-- Change link q's layer. -/
def State.onLink (s : State) (q : Nat) (f : LinkState → LinkState) : State :=
  { s with links := aset (fun _ => LinkState.init) s.links q (f (s.link q)) }

/-- A link message: header of R160 and body. -/
def linkMessage (code arg : Nat) (body : List Byte) : List Byte :=
  [BitVec.ofNat 8 code, BitVec.ofNat 8 (body.length / 8)] ++ leBytes 2 0 ++ leBytes 4 arg ++ body

/-- Hand a message to link q, which sends it in an LMSG flit (R160, R518). -/
def State.linkSend (s : State) (q code arg : Nat) (body : List Byte) : State :=
  (s.emit (.linkMsg q code arg body)).onLink q (fun k => { k with queue := k.queue ++ [linkMessage code arg body] })

/-- Whether Ridge link `l` is ACTIVE and not isolated. -/
def State.ridgeUp (s : State) (l : Nat) : Bool :=
  s.getF (Reg.RDG_PST l) F.RDG_PST_STATE == 5 && s.getF (Reg.RDG_LISO l) F.RDG_LISO_ISO == 0

/-- Send a message on every ACTIVE link that is not isolated, except link `skip` (R520). -/
def State.sendAll (s : State) (skip code arg : Nat) (body : List Byte) : State :=
  (List.range 4).foldl (fun s l => if l ≠ skip ∧ s.ridgeUp l then s.linkSend (4 + l) code arg body else s) s

/-- What has been seen of SRC `src` (R520). -/
def seenOf (r : RidgeState) (src : Nat) : Nat × Nat := aget (fun _ => (0, 0)) r.seen src

/-- The record after BSEQ `b` has been taken: the highest one, and which of the 63 below it were taken. -/
def seenAfter (x : Nat × Nat) (b : Nat) : Nat × Nat :=
  if x.2 = 0 then (b, 1)
  else
    let d := (b + 65536 - x.1) % 65536
    (b, if 64 ≤ d then 1 else (x.2 * 2 ^ d + 1) % 2 ^ 64)

/-- The epoch of the role held (R541). -/
def State.epoch (s : State) : Nat := (s.reg Reg.RDG_EPOCH).toNat

/-- Originate a broadcast, which only a device with a role does (R519, R520). The epoch is the first word of the body. -/
def State.flood (s : State) (code : Nat) (body : List Byte) : State :=
  if s.flag Reg.RDG_ROLE F.RDG_ROLE_VALID then
    let arg := 256 * s.role + 2 ^ 14 + 65536 * s.rdg.bseq
    let s := s.onRdg (fun r => { r with bseq := (r.bseq + 1) % 65536, seen := aset (fun _ => (0, 0)) r.seen s.role (seenAfter (seenOf r s.role) r.bseq) })
    s.sendAll 4 code arg (leBytes 4 s.epoch ++ body)
  else s

/-- The route to the host through the mesh: the role of the head in use. -/
def State.headRole (s : State) : Nat := s.getF Reg.RDG_HEAD F.RDG_HEAD_ROLE

/-- Cut bytes into chunks of at most 48 (R518), with the address of each. -/
def chunks48 : Nat → Nat → List Byte → List (Nat × List Byte)
  | 0, _, _ => []
  | _ + 1, _, [] => []
  | k + 1, a, bs => (a, bs.take 48) :: chunks48 k (a + 48) (bs.drop 48)

/-- The body of a HOST message (R518); `epoch` is the destination's as known (R528). -/
def hostBody (epoch rtag kind addr count : Nat) (data : List Byte) : List Byte :=
  leBytes 4 epoch ++ leBytes 2 rtag ++ [BitVec.ofNat 8 kind, BitVec.ofNat 8 count] ++ leBytes 8 addr ++ data

/-- The role table's entry for role `r` (R526). -/
def State.roleEntry (s : State) (r : Nat) : RoleEntry := aget (fun _ => RoleEntry.init) s.rdg.roles r

/-- Send a unicast message toward role `dst` on the next link of its route (R528). (DEDUCED, log entry 125.) -/
def State.unicast (s : State) (dst code : Nat) (body : List Byte) : State :=
  s.linkSend (4 + (s.roleEntry dst).link) code (dst % 64 + 256 * s.role) body

/-- Send a host access toward the head in use. -/
def State.sendTag (s : State) (t : HostTag) : State :=
  if s.flag Reg.RDG_HEAD F.RDG_HEAD_VALID then
    s.unicast s.headRole 0x40 (hostBody (s.roleEntry s.headRole).epoch t.tag t.kind t.addr (if t.kind = 0 then 0 else t.bytes.length) t.bytes)
  else s

/-- Relay one host access to the head in use and remember its tag; while the head changes it waits (R112, R533).
(DEDUCED, log entry 125.) -/
def State.relayHost (s : State) (kind addr : Nat) (data : List Byte) (use : Option HostRead) (client : Option (Nat × Nat)) (cpl : Bool) : State :=
  let t : HostTag := ⟨s.rdg.rtag, kind, addr, data, use, client, cpl, [], false⟩
  let s := s.onRdg (fun r => { r with rtag := (r.rtag + 1) % 65536 })
  if s.rdg.hostHold then s.onRdg (fun r => { r with hostWait := r.hostWait ++ [t] })
  else (s.onRdg (fun r => { r with hostTags := r.hostTags ++ [t] })).sendTag t

/-! ## Interrupts -/

/-- Whether MSI-X is enabled: the Message Control bits on a device with a host link, HST_MSIX_CTL behind a head (R115). -/
def State.msixOn (s : State) : Bool :=
  if s.hst.linkUp then s.hst.msixEnable else s.flag Reg.HST_MSIX_CTL F.HST_MSIX_CTL_ENABLE

/-- Whether the function mask holds (R115). -/
def State.msixFnMask (s : State) : Bool :=
  if s.hst.linkUp then s.hst.msixMask else s.flag Reg.HST_MSIX_CTL F.HST_MSIX_CTL_FN_MASK

/-- Word `k` of MSI-X table entry `v`; the vector control word resets masked, as PCIe gives it. -/
def State.msixWord (s : State) (v k : Nat) : Word :=
  aget (fun i => if i % 4 = 3 then 1 else 0) s.hst.msixTable (4 * v + k)

/-- Whether vector `v` is masked (R111). -/
def State.msixMasked (s : State) (v : Nat) : Bool := s.msixFnMask || bit (s.msixWord v 3).toNat 0

/-- Send the message of vector `v`, on a device that is not a head through its head (R110, R112). -/
def State.sendMsix (s : State) (v : Nat) : State :=
  let a := (s.msixWord v 0).toNat + 2 ^ 32 * (s.msixWord v 1).toNat
  if s.hst.linkUp then s.emit (.msix v a (s.msixWord v 2))
  else s.relayHost 4 a (leBytes 4 (s.msixWord v 2).toNat) none none false

/-- Signal vector `v`: a masked vector sets its pending bit and sends its message when it is unmasked (R111). -/
def State.signal (s : State) (v : Nat) : State :=
  if !s.msixOn then s
  else if s.msixMasked v then s.onHst (fun h => { h with msixPba := setBit h.msixPba v })
  else s.sendMsix v

/-! ## Traces (R582 to R584) -/

/-- The FIFO fill at which a record of a kind is dropped (R583). -/
def traceLimit (kind : Nat) : Nat :=
  if kind = 5 then 128 else if kind = 4 then 192 else if kind = 2 ∨ kind = 3 then 230 else 256

/-- A trace record: KIND, ROLE, SEQ, frame counter, volume time and payload (R582). -/
def traceRecord (s : State) (kind : Nat) (payload : List Byte) : List Byte :=
  [BitVec.ofNat 8 kind, BitVec.ofNat 8 s.role] ++ leBytes 2 s.evt.seq ++ leBytes 4 s.gen.fc ++ leBytes 8 s.gen.vt
    ++ (payload ++ List.replicate 16 0).take 16

/-- Make a trace record of a captured kind; it is dropped at a fill of its kind's limit or more (R582, R583). -/
def State.trace (s : State) (kind : Nat) (payload : List Byte) : State :=
  if s.flag Reg.EVT_TRC F.EVT_TRC_RUN && bit (s.getF Reg.EVT_TRC F.EVT_TRC_KINDS) (kind - 1) then
    let r := traceRecord s kind payload
    let s := s.onEvt (fun e => { e with seq := (e.seq + 1) % 65536 })
    if traceLimit kind ≤ s.evt.fifo.length then s.bump Reg.EVT_TRC_DROP 1
    else s.onEvt (fun e => { e with fifo := e.fifo ++ [r] })
  else s

/-- The number of records the trace buffer holds (R582). -/
def State.traceCap (s : State) : Nat := 16384 * s.getF Reg.BNK_ALLOC F.BNK_ALLOC_TRACE

/-! ## Events (R573 to R578) -/

/-- The codes of the C class (R573). -/
def isCClass (code : Nat) : Bool :=
  [Ev.RAF_PROTO, Ev.FST_ECC_CE, Ev.CLR_TBL_POISON, Ev.DMU_TBL_UE, Ev.DMU_WORK_POISON, Ev.DMU_DEF_POISON, Ev.ODV_HIST_BAD,
   Ev.BAT_ROW_CRC, Ev.BAT_BLKERR, Ev.BNK_CE, Ev.BNK_PW_CE].contains code

/-- Data items placed so far: bytes of DATA0 in use, DATA0, the wide words in use, DATA1, DATA2, and whether an item was dropped. -/
structure DataItems where
  used : Nat
  d0 : Nat
  wide : Nat
  d1 : Nat
  d2 : Nat
  trunc : Bool
  deriving DecidableEq, Repr

/-- Place a wide item of up to 32 bits in the next free word (R575). -/
def placeWide (p : DataItems) (v : Nat) : DataItems :=
  if p.wide = 0 then { p with wide := 1, d1 := v % 2 ^ 32 }
  else if p.wide = 1 then { p with wide := 2, d2 := v % 2 ^ 32 }
  else { p with trunc := true }

/-- Place one data item of `w` bits (R575). -/
def placeItem (p : DataItems) (item : Nat × Nat) : DataItems :=
  let (w, v) := item
  if w ≤ 8 then
    match (List.range 4).find? (fun i => !bit p.used i) with
    | some i => { p with used := setBit p.used i, d0 := p.d0 + v % 256 * 256 ^ i }
    | none => { p with trunc := true }
  else if w ≤ 16 then
    if !bit p.used 2 && !bit p.used 3 then
      { p with used := p.used + 12, d0 := p.d0 + v % 65536 * 65536 }
    else placeWide p v
  else if w ≤ 32 then placeWide p v
  else if p.wide = 0 then { p with wide := 2, d1 := v % 2 ^ 32, d2 := v / 2 ^ 32 % 2 ^ 32 }
  else { p with trunc := true }

/-- DATA0 to DATA2 of an event's items (R575). -/
def placeItems (items : List (Nat × Nat)) : DataItems := items.foldl placeItem ⟨0, 0, 0, 0, 0, false⟩

/-- Add one occurrence to the pending entry of the same key, if there is one (R576). -/
def mergeEvent (code d0 t : Nat) (alarm : Bool) : List PendEvent → Option (List PendEvent)
  | [] => none
  | e :: rest =>
    if e.code = code ∧ e.d0 = d0 then
      some ({ e with count := min (e.count + 1) 0xFFFFFFFF, last := t, alarm := e.alarm || alarm } :: rest)
    else (mergeEvent code d0 t alarm rest).map (e :: ·)

/-- Fire the trace trigger: POST × 64 records more than are made already (R584). -/
def State.fireTrigger (s : State) : State :=
  let s := s.setF Reg.EVT_TRC_TRIG F.EVT_TRC_TRIG_ARMED 0
  let s := s.setF Reg.EVT_TRC_POS F.EVT_TRC_POS_TRIGGERED 1
  s.onEvt (fun e => { e with post := some (64 * s.getF Reg.EVT_TRC F.EVT_TRC_POST + e.fifo.length) })

/-- EVT_STAT.PEND and LOSING follow the pending table and the lost state (R585). -/
def State.syncEvtStat (s : State) : State :=
  (s.setF Reg.EVT_STAT F.EVT_STAT_PEND s.evt.pend.length).setF Reg.EVT_STAT F.EVT_STAT_LOSING (b2n (s.evt.lostCount != 0))

/-- An event is lost (R576). -/
def State.loseEvents (s : State) (code n : Nat) : State :=
  let s := s.bump Reg.EVT_CNT_LOST n
  s.onEvt (fun e => { e with
    lostMask := setBit e.lostMask (code / 256)
    lostCount := e.lostCount + n
    lostFirst := if e.lostCount = 0 then s.gen.vt else e.lostFirst
    lostLast := s.gen.vt })

/-- Take an event into the pending table (R576, R578), with its trace record and trigger (R582, R584). -/
def State.eventWith (s : State) (alarm : Bool) (code : Nat) (items : List (Nat × Nat)) : State :=
  if s.flag Reg.EVT_CFG F.EVT_CFG_EN then
    let p := placeItems items
    let merged := mergeEvent code p.d0 s.gen.vt alarm s.evt.pend
    let s :=
      if merged.isNone ∧ 64 ≤ s.evt.pend.length then (s.loseEvents code 1).syncEvtStat
      else
        let new := PendEvent.mk code p.d0 p.d1 p.d2 alarm p.trunc 1 s.gen.vt s.gen.vt
        let s := (s.onEvt (fun e => { e with pend := merged.getD (e.pend ++ [new]) })).syncEvtStat
        s.trace 1 (leBytes 2 code ++ leBytes 2 (4 * b2n alarm + 8 * b2n p.trunc) ++ leBytes 4 p.d0 ++ leBytes 4 p.d1 ++ leBytes 4 p.d2)
    if s.flag Reg.EVT_TRC_TRIG F.EVT_TRC_TRIG_ARMED && s.getF Reg.EVT_TRC_TRIG F.EVT_TRC_TRIG_CODE == code then s.fireTrigger
    else s
  else if s.flag Reg.EVT_TRC_TRIG F.EVT_TRC_TRIG_ARMED && s.getF Reg.EVT_TRC_TRIG F.EVT_TRC_TRIG_CODE == code then s.fireTrigger
  else s

/-- Raise an event with its data items, each a width in bits and a value. -/
def State.event (s : State) (code : Nat) (items : List (Nat × Nat) := []) : State := s.eventWith false code items

/-- Temperature of sensor i in 1/16 °C. -/
def State.sensorTemp (s : State) (i : Nat) : Int := toSigned 16 (s.getF (Reg.THM_SENS i) F.THM_SENS_TEMP)

/-- The die sensor nearest to a port: 0 to 3 Rafter, 4 to 7 Ridge N, E, S, W, 8 + g column driver g, 32 the host's PCIe port, 33 + m
magazine port m (R473, R485). -/
def nearSensor (p : Nat) : Nat :=
  if p < 8 then [1, 2, 4, 5, 6, 6, 20, 20].getD p 0
  else if p < 20 then 23
  else if p < 32 then 25
  else if p = 32 then 0
  else if p < 35 then 7
  else 14

/-- The port selects its VCO band at a training and the temperature is recorded (R485).
(DESIGN CHOICE, log entry 13; DEDUCED, log entry 110.) -/
def State.recordBand (s : State) (p : Nat) : State :=
  let t := s.sensorTemp (nearSensor p)
  s.onThm (fun h => { h with bands := aset (fun _ => Band.init) h.bands p ⟨t, Config.vcoBand p t, false⟩ })

/-! ## Alarms (R580, R581) -/

/-- Whether an alarm entry's code is alarm only (R573). -/
def alarmOnly (n : Nat) : Bool := n == 0 || n == 9

/-- ALARM_N is low while any pending bit is set (R580). -/
def State.alarmPin (s : State) : Bool := (s.reg Reg.EVT_ALM_PEND_LO == 0) && (s.reg Reg.EVT_ALM_PEND_HI == 0)

/-- The first occurrence of alarm entry `n` records when it came and its data, and starts the count (R580). -/
def State.latchAlarm (s : State) (n : Nat) (items : List (Nat × Nat)) : State :=
  if bit (s.reg Reg.EVT_ALM_PEND_LO).toNat n then s
  else
    (((s.setReg (Reg.EVT_ALM_AON n) (word s.aon)).setF (Reg.EVT_ALM_INFO n) F.EVT_ALM_INFO_BOOT
      (s.getF Reg.EVT_ALM_BOOT F.EVT_ALM_BOOT_BOOT)).setF (Reg.EVT_ALM_INFO n) F.EVT_ALM_INFO_DATA (placeItems items).d0).setF
      (Reg.EVT_ALM_CODE n) F.EVT_ALM_CODE_COUNT 0

/-- Alarm entry `n` is pending and has occurred once more; ALARM_N goes low with the first pending entry (R580). -/
def State.markAlarm (s : State) (n : Nat) : State :=
  let t := (s.setReg Reg.EVT_ALM_PEND_LO (word (setBit (s.reg Reg.EVT_ALM_PEND_LO).toNat n))).bumpF (Reg.EVT_ALM_CODE n) F.EVT_ALM_CODE_COUNT
  if s.alarmPin then t.emit (.pin "ALARM_N" false) else t

/-- Vector 257, and the event of alarm entry `n` with FLAGS.ALARM unless its code is alarm only (R573, R580). -/
def State.tellAlarm (s : State) (n : Nat) (items : List (Nat × Nat)) : State :=
  let t := if s.isReady 0 then s.signal 257 else s
  if alarmOnly n then t else t.eventWith true (alarmCode n) items

/-- An alarm fires an armed trace trigger that waits for one (R584). -/
def State.triggerOnAlarm (s : State) : State :=
  if s.flag Reg.EVT_TRC_TRIG F.EVT_TRC_TRIG_ARMED && s.flag Reg.EVT_TRC_TRIG F.EVT_TRC_TRIG_ON_ALARM then s.fireTrigger else s

/-- An alarm occurs (R580): latch entry `n`, vector 257, the event with FLAGS.ALARM, and a Ridge ALARM message.
(DESIGN CHOICE, log entry 33.) -/
def State.alarm (s : State) (n : Nat) (items : List (Nat × Nat) := []) : State :=
  ((((s.latchAlarm n items).markAlarm n).tellAlarm n items).triggerOnAlarm).flood 0x28 (leBytes 2 (alarmCode n) ++ leBytes 2 0)

/-! ## Ready bits (R56, R57) -/

/-- Set ready bit `b`; vector 259 is signalled after HST has set. No bit sets while the core is off (R51, R54). A bit that sets raises no
event: R573 has a code for a clearing alone. (DESIGN CHOICE, log entry 138.) -/
def State.setReady (s : State) (b : Nat) : State :=
  if s.isReady b || s.coreOff then s
  else
    let s := s.setReg Reg.GBL_READY (word (setBit (s.reg Reg.GBL_READY).toNat b))
    if s.isReady 0 then s.signal 259 else s

/-- Clear ready bit `b` without an event, as a reset does. (DEDUCED, log entry 21.) -/
def State.dropReady (s : State) (b : Nat) : State :=
  s.setReg Reg.GBL_READY (word (clearBit (s.reg Reg.GBL_READY).toNat b))

/-- A set ready bit clears outside a reset: the event of R57 and vector 259. -/
def State.clearReady (s : State) (b : Nat) : State :=
  if s.isReady b then
    let s := s.dropReady b
    let s := if s.isReady 0 then s.signal 259 else s
    s.event Ev.GBL_READY_CLR [(8, b)]
  else s

/-! ## Host memory (R105, R106, R112, R533) -/

/-- Write bytes to host memory: on the device's own link, or through its head in messages of at most 48 bytes (R106, R112, R518). -/
def State.putHost (s : State) (addr : Nat) (bytes : List Byte) (client : Option (Nat × Nat)) (cpl : Bool) : State :=
  if s.hst.linkUp then s.emit (.hostWrite addr bytes)
  else (chunks48 (bytes.length + 1) addr bytes).foldl (fun s c => s.relayHost 1 c.1 c.2 none client cpl) s

/-- Write bytes to host memory for descriptor `client`. -/
def State.writeHost (s : State) (addr : Nat) (bytes : List Byte) (client : Option (Nat × Nat)) : State :=
  s.putHost addr bytes client false

/-- Request a read of host memory (R105, R112); a relayed read asks for at most 4,096 bytes in one message (R533). -/
def State.readHost (s : State) (addr len : Nat) (use : ReadUse) : State :=
  let rid := s.hst.nextRid
  let r : HostRead := ⟨rid, addr, len, use⟩
  let s := s.onHst (fun h => { h with nextRid := rid + 1, reads := h.reads ++ [r] })
  if s.hst.linkUp then s.emit (.hostRead rid addr len)
  else (List.range (ceilDiv len 4096)).foldl (fun s i =>
    s.relayHost 0 (addr + 4096 * i) (leBytes 4 (min 4096 (len - 4096 * i))) (some ⟨rid, addr + 4096 * i, min 4096 (len - 4096 * i), use⟩) none false) s

/-! ## Completions (R97 to R99, R104, R106, R111) -/

/-- The number of entries of a ring whose size field holds `n` (R87). -/
def ringSize (n : Nat) : Nat := 2 ^ (6 + n)

/-- An address from a pair of base registers. -/
def State.pair64 (s : State) (lo hi : Nat) : Nat := (s.reg lo).toNat + 2 ^ 32 * (s.reg hi).toNat

/-- A plain completion. -/
def Cpl.of (status : Nat) (r0 r1 detail : Nat := 0) : Cpl := ⟨status, false, false, r0, r1, detail⟩

/-- A completion written at the effective point under WAIT_EFFECT (R97). -/
def Cpl.inEffect (c : Cpl) : Cpl := { c with effect := true }

/-- The 16 bytes of a completion (R97). -/
def cplBytes (tag : List Byte) (c : Cpl) (phase : Nat) (sqHead : Nat) : List Byte :=
  tag ++ [BitVec.ofNat 8 c.status, BitVec.ofNat 8 (phase + 2 * b2n c.cont + 4 * b2n c.effect)] ++ leBytes 4 c.r0 ++ leBytes 4 c.r1
    ++ leBytes 2 sqHead ++ leBytes 2 c.detail

/-- HST_CSTAT.RUN, QUIESCED follow EN, HALT and the descriptors in flight (R91). -/
def State.syncCstat (s : State) (c : Nat) : State :=
  let en := s.flag (Reg.HST_CCFG c) F.HST_CCFG_EN
  let halt := s.flag (Reg.HST_CSTAT c) F.HST_CSTAT_HALT
  let s := s.setF (Reg.HST_CSTAT c) F.HST_CSTAT_RUN (b2n (en && !halt))
  s.setF (Reg.HST_CSTAT c) F.HST_CSTAT_QUIESCED (b2n (!en && (s.client c).descs.isEmpty && !(s.client c).discardDue))

/-- Count a written completion toward the client's vector (R111). (DEDUCED, log entry 37.) -/
def State.moderate (s : State) (c status : Nat) (irq : Bool) : State :=
  if !s.flag (Reg.HST_CCFG c) F.HST_CCFG_IRQ_EN then s
  else if status ≠ 0 ∧ status ≠ 1 then (s.setClient c { s.client c with irqPend := 0 }).signal c
  else if irq then
    let n := (s.client c).irqPend + 1
    if s.getF (Reg.HST_CIMOD c) F.HST_CIMOD_COUNT ≤ n then (s.setClient c { s.client c with irqPend := 0 }).signal c
    else s.setClient c { s.client c with irqPend := n }
  else s

/-! ## What staging and the rings share (R103, R109, R120, R130, R131, R136) -/

def tPGAIN : Nat := 0x30000
def tPTILE : Nat := 0x30001
def tSGAIN : Nat := 0x30002
def tSTILE : Nat := 0x30003
def tDEFECT : Nat := 0x30004
def tCMASK : Nat := 0x30005
def tFMASK : Nat := 0x30006
def tWORK : Nat := 0x30007
def tLAW : Nat := 0x40000
def tOD : Nat := 0x40001
def tDTH : Nat := 0x50000

/-- The gain layers from which the working copy derives. -/
def layerTables : List Nat := [tPGAIN, tPTILE, tSGAIN, tSTILE]

/-- The slot index that holds client `c`'s Open or Failed transaction. (DEDUCED, log entry 39.) -/
def State.txnOf (s : State) (c : Nat) : Option Txn := s.stg.txns.find? (fun t => t.client == c)

/-- The groups that a transaction with mask `m` holds: a mask with group 18 or 19 holds both (R294). (DEDUCED, log entry 52.) -/
def heldMask (m : Nat) : Nat := if bit m 18 || bit m 19 then m ||| 0xC0000 else m

/-- Every group held by a transaction that is Open, Failed or Pending (R120), or whose failed commit has no completion written yet (R103,
R124). (DEDUCED, log entry 52.) -/
def State.heldGroups (s : State) : Nat :=
  s.stg.closing.foldl (fun a p => a ||| p.2.2)
    (s.stg.pendings.foldl (fun a p => a ||| heldMask p.mask) (s.stg.txns.foldl (fun a t => a ||| heldMask t.mask) 0))

/-- STG_HELD, STG_IDLE_PEND and STG_RSTAT.PEND follow the staging unit (R136), and the window port refuses while a transaction is Open or
Failed (R135, R598). -/
def State.syncStg (s : State) : State :=
  let h := s.heldGroups
  let s := s.setF Reg.WIN_STAT F.WIN_STAT_REFUSE (b2n (!s.stg.txns.isEmpty))
  let s : State := if s.stg.txns.isEmpty then { s with win := { s.win with refused := false } } else s
  let s := s.setReg Reg.STG_HELD_LO (word h)
  let s := s.setReg Reg.STG_HELD_HI (word (h / 2 ^ 32))
  let s := s.setF Reg.STG_IDLE_PEND F.STG_IDLE_PEND_COUNT s.stg.idle.length
  s.setF Reg.STG_RSTAT F.STG_RSTAT_PEND (b2n (s.stg.pendings.any (fun p => p.id == s.stg.lastC0)))

/-- The RESYNC status bit of table `t` (R275, R304, R325, R327). -/
def State.setResyncBit (s : State) (t : Nat) (b : Bool) : State :=
  let k := t / 0x10000
  if k = 2 then s.setF (Reg.CLR_ASTAT (t % 0x10000)) F.CLR_ASTAT_RESYNC (b2n b)
  else if k = 3 then s.setF Reg.DMU_STAT F.DMU_STAT_RESYNC (b2n b)
  else if k = 4 then s.setF Reg.ODV_STAT F.ODV_STAT_RESYNC (b2n b)
  else if k = 5 then s.setF Reg.DTH_STAT F.DTH_STAT_RESYNC (b2n b)
  else s

/-- Start the resynchronisation of table `t`'s inactive copy (R130). -/
def State.startResync (s : State) (t : Nat) : State :=
  (s.setTable t { s.table t with resync := true }).setResyncBit t true

/-- Take a transaction out of its slot (R136: a transaction leaves its slot when its commit completes). -/
def State.leaveSlot (s : State) (t : Txn) : State :=
  let s := s.onStg (fun g => { g with txns := g.txns.filter (fun u => u.id ≠ t.id) })
  let s := s.setReg (Reg.STG_SLOT_ID t.slot) 0
  let s := s.setReg (Reg.STG_SLOT_STATE t.slot) 0
  let s := s.setReg (Reg.STG_SLOT_MASK_LO t.slot) 0
  let s := s.setReg (Reg.STG_SLOT_MASK_HI t.slot) 0
  let s := s.setF (Reg.HST_CSTAT t.client) F.HST_CSTAT_TXN 0
  s.syncStg

/-- The tables whose inactive copies a transaction's loads have written: the working copy goes with its layers (R293, R294). -/
def exchangeSet (loads : List Nat) : List Nat :=
  if loads.any layerTables.contains then loads ++ [tWORK] else loads

/-- Close a transaction with nothing applied: its groups are released and the copies it wrote resynchronise (R130, R131). -/
def State.dropTxn (s : State) (t : Txn) : State :=
  (exchangeSet t.loads).foldl (fun s l => s.startResync l) (s.leaveSlot t)

/-- Discard client `c`'s transactions: the one that is Open or Failed, as STG_ROLLBACK would, and every Pending one, which applies no value
that is not in force (R109, R131). (DEDUCED, log entry 41.) -/
def State.discardTxn (s : State) (c : Nat) : State :=
  let s := match s.txnOf c with
    | some t => (s.dropTxn t).event Ev.STG_DISCARDED [(8, t.client), (32, t.id)]
    | none => s
  (s.stg.pendings.filter (fun p => p.client == c)).foldl (fun s p =>
    let s := s.onStg (fun g => { g with
      pendings := g.pendings.filter (fun q => q.id != p.id), idle := g.idle.filter (fun e => e.2.2.1 != p.id) })
    (((exchangeSet p.loads).foldl (fun s l => s.startResync l) s).syncStg).event Ev.STG_DISCARDED [(8, c), (32, p.id)]) s

/-- Steps 4 and 5 of R109, once every started descriptor has ended and no commit checks run: the discard, and QUIESCED. -/
def State.endDisable (s : State) (c : Nat) : State :=
  if (s.client c).discardDue && (s.client c).descs.isEmpty && (s.txnOf c).all (fun t => !t.checking) then
    (((s.setClient c { s.client c with discardDue := false }).discardTxn c)).syncCstat c
  else s.syncCstat c

/-- The completion of a commit that failed is written, or lost: its groups are released (R103, R124). -/
def State.releaseGroups (s : State) (c idx : Nat) : State :=
  if s.stg.closing.any (fun e => e.1 == c && e.2.1 == idx) then
    (s.onStg (fun g => { g with closing := g.closing.filter (fun e => !(e.1 == c && e.2.1 == idx)) })).syncStg
  else s

/-- Write the completion of a finished descriptor to the completion ring, unless a failed completion write halted the ring
(R104, R108); a commit that failed releases its groups (R103). -/
def State.writeCpl (s : State) (c : Nat) (d : Desc) : State :=
  let s := s.releaseGroups c d.idx
  if (s.client c).cqDead then s
  else
    let tail := s.getF (Reg.HST_CPOS c) F.HST_CPOS_CQ_TAIL
    let size := ringSize (s.getF (Reg.HST_CCFG c) F.HST_CCFG_CQ_LOG2)
    let k := s.client c
    let bytes := cplBytes (slice 2 2 d.raw) d.cpl ((k.pass + 1) % 2) ((d.idx + 1) % ringSize (s.getF (Reg.HST_CCFG c) F.HST_CCFG_SQ_LOG2))
    let s := s.putHost (s.pair64 (Reg.HST_CQB_LO c) (Reg.HST_CQB_HI c) + 16 * tail) bytes (some (c, d.idx)) true
    let s := s.setF (Reg.HST_CPOS c) F.HST_CPOS_CQ_TAIL ((tail + 1) % size)
    let s := s.setClient c { k with pass := if tail + 1 = size then k.pass + 1 else k.pass, lastTag := leAt 2 2 d.raw }
    let s := s.moderate c d.cpl.status (bit (leAt 1 1 d.raw) 1)
    s.trace 5 ([BitVec.ofNat 8 c] ++ slice 0 1 d.raw ++ slice 2 2 d.raw ++ [BitVec.ofNat 8 d.cpl.status, 0, 0, 0] ++ leBytes 4 d.cpl.r0 ++ leBytes 4 d.cpl.r1)

/-- A relayed write of the descriptor has no reply yet (R533). (DEDUCED, log entry 124.) -/
def State.hostBusy (s : State) (c idx : Nat) : Bool :=
  (s.rdg.hostTags ++ s.rdg.hostWait).any (fun t => t.client == some (c, idx) && !t.cpl)

/-- Write the completions at the front of the ring order that are finished (R104), and end a disable that waited for them (R109). `n` bounds
how many. -/
def State.flushCpl (c : Nat) : Nat → State → State
  | 0, s => s.endDisable c
  | n + 1, s =>
    match (s.client c).descs with
    | d :: rest =>
      if d.stage = .finished ∧ s.hostBusy c d.idx = false then
        State.flushCpl c n ((s.setClient c { s.client c with descs := rest }).writeCpl c d)
      else s.syncCstat c
    | [] => s.endDisable c

/-- The descriptor of client `c` at ring index `idx`. -/
def State.desc? (s : State) (c idx : Nat) : Option Desc := (s.client c).descs.find? (fun d => d.idx == idx)

/-- Change the descriptor of client `c` at ring index `idx`. -/
def State.setDesc (s : State) (c idx : Nat) (f : Desc → Desc) : State :=
  let k := s.client c
  s.setClient c { k with descs := k.descs.map (fun d => if d.idx = idx then f d else d) }

/-- Change the transaction with identifier `id`. -/
def State.setTxn (s : State) (id : Nat) (f : Txn → Txn) : State :=
  s.onStg (fun g => { g with txns := g.txns.map (fun t => if t.id = id then f t else t) })

/-- The code of STG_SLOTs_STATE.STATE (R136). -/
def txnCode (t : Txn) : Nat := if t.checking then 3 else if t.failed then 2 else 1

/-- Mark a transaction failed (R103, R120, R123). -/
def State.failTxn (s : State) (id : Nat) : State :=
  match s.stg.txns.find? (fun t => t.id == id) with
  | some t =>
    (s.setTxn id (fun t => { t with failed := true })).setF (Reg.STG_SLOT_STATE t.slot) F.STG_SLOT_STATE_STATE
      (txnCode { t with failed := true })
  | none => s

/-- HST_RING_FAULT with the client and the TAG, and vector 261 (R108). -/
def State.ringFault (s : State) (c tag : Nat) : State :=
  (s.event Ev.HST_RING_FAULT [(8, c), (16, tag)]).signal 261

/-- What a descriptor of client `c` completes with: HOST_FAULT in place of a good end when host memory fails a data write of it (R108). -/
def Desc.ending (d : Desc) (cpl : Cpl) : Cpl := if d.wfail && decide (cpl.status ≤ 1) then Cpl.of 0x40 else cpl

/-- Finish the descriptor of client `c` at ring index `idx` with completion `cpl`: a failed data write is a fault of the ring (R108), a status
other than OK marks its transaction failed (R103), and completions that are due are written (R104). -/
def State.finish (s : State) (c idx : Nat) (cpl : Cpl) : State :=
  match s.desc? c idx with
  | none => s
  | some d =>
    let s := if d.wfail && decide (cpl.status ≤ 1) then s.ringFault c (leAt 2 2 d.raw) else s
    let cpl := d.ending cpl
    let s := if d.txn ≠ 0 ∧ cpl.status ≠ 0 then s.failTxn d.txn else s
    let s := s.setDesc c idx (fun d => { d with stage := .finished, cpl := cpl })
    State.flushCpl c (s.client c).descs.length s

end Sys2Proof.Machine
end

