-- ==== Sys2Proof/Machine/PcieConfig.lean ====
section
/-! DEFINITION. The configuration space of the PCIe function: header, BARs and capability structures (R82 to R84). -/

namespace Sys2Proof.Machine

/-! ## Words that do not change (R82, R83) -/

/-- The configuration header (R82). The revision is GBL_ID's stepping and the subsystem ID GBL_ID's variant. -/
def State.cfgHeader (s : State) (off : Nat) : Option Word :=
  if off = 0x00 then some (word (0x1FB5 + 65536 * 0x6418))
  else if off = 0x08 then
    some (word (16 * s.getF Reg.GBL_ID F.GBL_ID_STEP_MAJOR + s.getF Reg.GBL_ID F.GBL_ID_STEP_MINOR + 256 * 0x038000))
  else if off = 0x0C then some 0
  else if off = 0x28 then some 0
  else if off = 0x2C then some (word (0x1FB5 + 65536 * s.getF Reg.GBL_ID F.GBL_ID_VARIANT))
  else if off = 0x30 then some 0
  else if off = 0x34 then some 0x40
  else if off = 0x38 then some 0
  else none

/-- The capability structures and where the next one lies; the extended ones carry their version (R83). The identifiers are those of
PCIe 5.0. (PRESUMED, log entry 132.) -/
def cfgCapability (off : Nat) : Option Word :=
  let ext (id next : Nat) : Option Word := some (word (id + 65536 + 0x100000 * next))
  if off = 0x40 then some (word (0x01 + 256 * 0x50 + 65536 * 3))
  else if off = 0x50 then some (word (0x10 + 256 * 0xB0 + 65536 * 2))
  else if off = 0x100 then ext 0x0001 0x148
  else if off = 0x148 then ext 0x0003 0x158
  else if off = 0x158 then ext 0x0019 0x180
  else if off = 0x180 then ext 0x0025 0x18C
  else if off = 0x18C then ext 0x0026 0x1B8
  else if off = 0x1B8 then ext 0x002A 0x1E0
  else if off = 0x1E0 then ext 0x0027 0
  else none

/-- The properties of the capability structures (R83): Max Payload Size Supported 512 bytes and no Function Level Reset; up to 32.0 GT/s
within GBL_STRAP.HOST_SPEED, eight lanes, ASPM L1 only; Completion Timeout ranges A to D, 10-bit tag requester and completer; the MSI-X table
and PBA in BAR0; the serial number; the error status registers, in which nothing is recorded; scaled flow control; margining ready from
16.0 GT/s on. The places of the bits are those of PCIe 5.0. (PRESUMED, log entry 132.) -/
def State.cfgProperty (s : State) (off : Nat) : Option Word :=
  let speed := if s.flag Reg.GBL_STRAP F.GBL_STRAP_HOST_SPEED then 4 else 5
  if off = 0x54 then some (word 2)
  else if off = 0x5C then some (word (speed + 16 * 8 + 1024 * 2))
  else if off = 0x74 then some (word (0xF + 65536 * 3))
  else if off = 0x7C then some (word (2 ^ (speed + 1) - 2))
  else if off = 0xB4 then some 0xF00000
  else if off = 0xB8 then some 0xF02000
  else if off = 0x14C then some (s.reg Reg.CAL_FDSN_LO)
  else if off = 0x150 then some (s.reg Reg.CAL_FDSN_HI)
  else if off = 0x104 ∨ off = 0x110 ∨ off = 0x188 then some 0
  else if off = 0x184 then some (word (1 + 2 ^ 31))
  else if off = 0x1E4 then some (word (65536 * b2n (decide (4 ≤ s.hst.rate))))
  else none

/-! ## The BARs (R84) -/

/-- The address bits that the BAR word at `off` holds: 16 MiB, 1 MiB and 64 KiB, each with its upper half. -/
def barMask (off : Nat) : Option Nat :=
  if off = 0x10 then some 0xFF000000
  else if off = 0x18 then some 0xFFF00000
  else if off = 0x20 then some 0xFFFF0000
  else if off = 0x14 ∨ off = 0x1C ∨ off = 0x24 then some 0xFFFFFFFF
  else none

/-- The type bits of a BAR word: memory, 64 bits, not prefetchable. -/
def barType (off : Nat) : Nat := if off % 8 = 0 then 4 else 0

/-! ## Reading and writing (R83) -/

/-- What a word reads after a reset of the configuration registers, its BAR type bits and link fields aside: Device Control with its enables
of Relaxed Ordering and No Snoop and a Max Read Request Size of 512 bytes, and the masks and severities of Advanced Error Reporting, at their
PCIe 5.0 defaults (R83). (PRESUMED, log entry 132.) -/
def cfgReset (off : Nat) : Word :=
  if off = 0x58 then 0x2810
  else if off = 0x108 then 0x400000
  else if off = 0x10C then 0x462030
  else if off = 0x114 then 0xE000
  else 0

/-- The bits of a word that a write changes: a BAR's address bits; the errors of an endpoint in the masks and severities; Lane Control (R83,
R84). (PRESUMED, log entry 132.) -/
def cfgMask (off : Nat) : Nat :=
  match barMask off with
  | some m => m
  | none =>
    if off = 0x108 then 0x5FF010
    else if off = 0x10C then 0x5FF030
    else if off = 0x114 then 0xF1C1
    else if 0x1E8 ≤ off ∧ off ≤ 0x204 then 0xFFFF
    else 0xFFFFFFFF

/-- Lane Status of a lane whose Lane Control holds `w`: the request to report the receiver's capabilities is answered with voltage margining
supported beside timing; another one with nothing (R83). (PRESUMED, log entry 132.) -/
def laneStatus (w : Nat) : Nat := if w / 8 % 8 = 1 ∧ w / 256 % 256 = 0x88 then w % 128 + 256 else 0

/-- The word at `off` of the configuration space. Words that R82 to R84 do not give hold what was written. (DEDUCED, log entry 34.) -/
def State.cfgWord (s : State) (off : Nat) : Word :=
  let held := aget cfgReset s.hst.cfg off
  match s.cfgHeader off, cfgCapability off, s.cfgProperty off with
  | some w, _, _ => w
  | none, some w, _ => w
  | none, none, some w => w
  | none, none, none =>
    if (barMask off).isSome then held ||| word (barType off)
    else if off = 0x04 then held ||| word (2 ^ 20)
    else if off = 0x3C then word (held.toNat % 256)
    else if off = 0x44 then word (3 * b2n s.hst.d3)
    else if off = 0x60 then word (held.toNat % 65536 + 65536 * (s.hst.rate + 16 * s.hst.width))
    else if 0x1E8 ≤ off ∧ off ≤ 0x204 then held ||| word (65536 * laneStatus held.toNat)
    else if off = 0xB0 then word (0x11 + 65536 * 263 + 2 ^ 30 * b2n s.hst.msixMask + 2 ^ 31 * b2n s.hst.msixEnable)
    else held

/-- Whether a write of the word at `off` changes nothing: it is fixed. -/
def State.cfgFixed (s : State) (off : Nat) : Bool :=
  (s.cfgHeader off).isSome || (cfgCapability off).isSome || (s.cfgProperty off).isSome

/-- Hold the bits of `v` that a write of the word at `off` changes. -/
def State.cfgHold (s : State) (off : Nat) (v : Word) : State :=
  if s.cfgFixed off then s
  else s.onHst (fun h => { h with cfg := aset cfgReset h.cfg off (v &&& word (cfgMask off)) })

/-! ## The link (R83) -/

/-- The link has trained: x8, x4, x2 or x1 and a rate within GBL_STRAP.HOST_SPEED, both as the partner allows. (DESIGN CHOICE, log entry 7.) -/
def State.trainHost (s : State) : State :=
  let (a, s) := s.free
  let (b, s) := s.free
  let most := if s.flag Reg.GBL_STRAP F.GBL_STRAP_HOST_SPEED then 4 else 5
  s.onHst (fun h => { h with linkUp := true, width := 2 ^ (a % 4), rate := 1 + b % most })

end Sys2Proof.Machine
end

