-- ==== Sys2Proof/Machine/Operands.lean ====
section
/-! DEFINITION. The operands of a descriptor (R92 to R95) and what its opcode needs (R59, R94). -/

namespace Sys2Proof.Machine

/-- OPCODE (R92). -/
def Desc.opcode (d : Desc) : Nat := leAt 0 1 d.raw
/-- FLAGS (R93). -/
def Desc.flags (d : Desc) : Nat := leAt 1 1 d.raw
/-- FENCE (R93). -/
def Desc.fence (d : Desc) : Bool := bit d.flags 0
/-- RESUME (R93). -/
def Desc.resume (d : Desc) : Bool := bit d.flags 2
/-- TAG (R92). -/
def Desc.tag (d : Desc) : Nat := leAt 2 2 d.raw
/-- LENGTH (R92). -/
def Desc.length (d : Desc) : Nat := leAt 4 4 d.raw
/-- HADDR (R92). -/
def Desc.haddr (d : Desc) : Nat := leAt 8 8 d.raw
/-- HADDR2 (R92). -/
def Desc.haddr2 (d : Desc) : Nat := leAt 0x10 8 d.raw
/-- TARGET (R92). -/
def Desc.target (d : Desc) : Nat := leAt 0x18 4 d.raw
/-- TOFF (R92). -/
def Desc.toff (d : Desc) : Nat := leAt 0x1C 4 d.raw
/-- LIMIT (R92). -/
def Desc.limit (d : Desc) : Nat := leAt 0x20 4 d.raw
/-- ARG0 to ARG6 (R92). -/
def Desc.arg (d : Desc) (n : Nat) : Nat := leAt (0x24 + 4 * n) 4 d.raw
/-- A pair of arguments, the lower one first: ARG(n+1):ARGn. -/
def Desc.arg2 (d : Desc) (n : Nat) : Nat := d.arg n + 2 ^ 32 * d.arg (n + 1)

/-- The opcodes of R94. -/
def opcodes : List Nat :=
  [0x00, 0x01, 0x02, 0x03, 0x04, 0x05, 0x06, 0x07, 0x10, 0x11, 0x18, 0x19, 0x1A, 0x1B, 0x20, 0x24, 0x30]

/-- The opcodes of the serial class (R104). -/
def serialOp (op : Nat) : Bool := 1 ≤ op && op ≤ 5

/-- The opcodes that use TARGET (R92, R94). -/
def usesTarget (op : Nat) : Bool := op == 0x06 || op == 0x07 || (0x18 ≤ op && op ≤ 0x1B)

/-- The ready bits that STG_COMMIT needs for group `g` (R118). -/
def groupNeeds (g : Nat) : List Nat :=
  if g = 0 then [0]
  else if g ≤ 9 then [7]
  else if g ≤ 17 then [8]
  else if g = 18 ∨ g = 19 then [8, 6]
  else if g ≤ 25 then [8]
  else if g = 26 then [6]
  else if g = 27 then [6, 12]
  else if g = 28 then [5]
  else if g = 29 then [4]
  else if g = 30 then [1]
  else if g = 31 then [10]
  else if g = 32 then [11]
  else if g = 33 then [15]
  else if g = 34 then [17]
  else if g = 35 then [9]
  else []

/-- Whether power domain `d` is locked off (R69). -/
def State.lockedOff (s : State) (d : Nat) : Bool := bit (s.reg Reg.PWR_LOCKOFF).toNat d

/-- The power domains of the function behind a ready bit that can be locked off (R58, R66, R69). -/
def lockableDomains (b : Nat) : List Nat :=
  if b = 10 then [7, 8, 9, 10] else if b = 11 then [3, 4, 5, 6] else if b = 15 ∨ b = 16 then [11, 12, 13, 14]
  else if b = 12 then [20] else if b = 13 then [21] else if b = 14 then [22] else []

/-- Whether the function behind ready bit `b` is absent from the part, or has every domain locked off (R4, R58). -/
def State.fnAbsent (s : State) (b : Nat) : Bool :=
  (s.part == .bc && (b == 15 || b == 16)) ||
    (!(lockableDomains b).isEmpty && (lockableDomains b).all s.lockedOff)

/-- The needs of a transaction that stages or loads into the groups of `mask` (R59, R118). -/
def maskNeeds (mask : Nat) : List Nat := (bitsOf mask 36).flatMap groupNeeds

/-- The ready bits a load or read of table `t` needs (R59): half-pipe tables PIPE, frame-store tables FST and PIPE, bank tables
BNK and PIPE, TRACE BNK alone. -/
def tableNeeds (t : Nat) : List Nat :=
  if t / 0x10000 = 7 then [5]
  else if t / 0x10000 = 2 then [5, 8]
  else if t = 0x30004 ∨ t = 0x30007 then [5, 8]
  else if t / 0x10000 = 3 ∧ t % 0x10000 < 4 then [6, 8]
  else if t / 0x10000 = 0xF0 then [6, 8]
  else [8]

/-- What the device must find ready before descriptor `d` starts (R59); codec jobs need one engine of two. A STG_COMMIT needs the groups of the
transaction that it names, whichever client holds that one: R124 does not say what holds a commit that will end with NO_TXN.
(DESIGN CHOICE, log entry 138.) -/
def State.needsMet (s : State) (d : Desc) : Bool :=
  let op := d.opcode
  if op = 0x00 then true
  else if op = 0x06 ∨ op = 0x07 then (tableNeeds d.target).all s.isReady
  else if op = 0x10 ∨ op = 0x11 then s.isReady 13 || s.isReady 14
  else if 0x18 ≤ op ∧ op ≤ 0x1B then s.isReady 16
  else if op = 0x20 then s.isReady 1
  else if op = 0x24 then s.isReady 2
  else if op = 0x30 then s.isReady 11 && s.isReady 7
  else if op = 0x02 then
    s.isReady 0 &&
      (s.stg.txns.filter (fun t => t.id == d.arg 0)).all (fun t => (maskNeeds t.mask).all s.isReady)
  else s.isReady 0

end Sys2Proof.Machine
end

