-- ==== Sys2Proof/Machine/Staging.lean ====
section
/-! DEFINITION. The staging unit (R117 to R137): opening transactions, staging values, closing, rollback and discard. Deciding and applying
commits needs every family's rules and stands in Commit.lean. -/

namespace Sys2Proof.Machine

/-- The identifier after `n`: one greater, skipping 0 (R95). -/
def nextTxnId (n : Nat) : Nat := if (n + 1) % 2 ^ 32 = 0 then 1 else (n + 1) % 2 ^ 32

/-- The lowest free slot of the eight (R136). R136 does not say which free slot a transaction takes. (DESIGN CHOICE, log entry 129.) -/
def State.freeSlot (s : State) : Option Nat :=
  (List.range 8).find? (fun i => !s.stg.txns.any (fun t => t.slot == i))

/-- The transaction checks of STG_BEGIN, in order (R121): a status, or none if the transaction may open. -/
def State.beginCheck (s : State) (c mask : Nat) : Option Nat :=
  if (s.txnOf c).isSome then some 0x31
  else if 8 ≤ s.stg.txns.length then some 0x32
  else if s.heldGroups &&& heldMask mask ≠ 0 then some 0x33
  else none

/-- The FN_ABSENT check of a mask (R119): DETAIL of the lowest group with an absent function. -/
def State.maskAbsent (s : State) (mask : Nat) : Option Nat :=
  match (bitsOf mask 36).find? (fun g => (groupNeeds g).any s.fnAbsent) with
  | some g => some (if g < 32 then 0x24 else 0x28)
  | none => none

/-- Whether the panel layer is locked: the lock is in force, or the commit that sets it has completed (R134). A locking commit that is discarded
while it is Pending locks nothing: R131 applies no value of it, and R134 does not name the case. (DESIGN CHOICE, log entry 138.) -/
def State.panelLocked (s : State) : Bool :=
  s.flag Reg.DMU_PANEL F.DMU_PANEL_LOCK
    || s.stg.pendings.any (fun p => p.regs.any (fun e => e.1 == Reg.DMU_PANEL && fieldOf F.DMU_PANEL_LOCK e.2 == 1))

/-- The mask faults of check 8 (R119), in the order of its table: DETAIL. (DEDUCED, log entry 52.) -/
def State.maskFault (s : State) (mask : Nat) : Option Nat :=
  if mask / 2 ^ 36 ≠ 0 then some 0x28
  else if mask = 0 then some 0x24
  else if bit mask 18 && s.panelLocked then some 0x24
  else none

/-- Open a transaction for client `c` (R120, R136). Answers its identifier as well. -/
def State.openTxn (s : State) (c mask : Nat) : State × Nat :=
  let id := nextTxnId s.stg.lastId
  let slot := s.freeSlot.getD 0
  let s := s.onStg (fun g => { g with
    lastId := id
    txns := g.txns ++ [⟨slot, id, c, mask, false, false, [], [], [], false, false, 0, false⟩] })
  let s := s.setReg (Reg.STG_SLOT_ID slot) (word id)
  let s := s.setReg (Reg.STG_SLOT_STATE slot) (word (256 * c + 1))
  let s := s.setReg (Reg.STG_SLOT_MASK_LO slot) (word mask)
  let s := s.setReg (Reg.STG_SLOT_MASK_HI slot) (word (mask / 2 ^ 32))
  let s := s.setF (Reg.HST_CSTAT c) F.HST_CSTAT_TXN 1
  (s.syncStg, id)

/-- A commit that fails (R103, R124): STG_FAIL_ID, STG_FAIL_WHERE, the event, and the transaction closes. The groups of a commit that is the
descriptor at ring index `idx` stay held until its completion is written. -/
def State.failCommit (s : State) (t : Txn) (whr : Nat) (idx : Option Nat) : State :=
  let s := s.setReg Reg.STG_FAIL_ID (word t.id)
  let s := s.setReg Reg.STG_FAIL_WHERE (word whr)
  let s := match idx with
    | some i => s.onStg (fun g => { g with closing := g.closing ++ [(t.client, i, heldMask t.mask)] })
    | none => s
  (s.dropTxn t).event Ev.STG_COMMIT_FAIL [(8, t.client), (32, t.id)]

/-- A STG_COMMIT, the descriptor at ring index `idx` or a register-path command, that ends before R124 decides it closes the client's
transaction (R103), unless an earlier commit is deciding it. (DEDUCED, log entry 41.) -/
def State.abortCommit (s : State) (c : Nat) (idx : Option Nat) : State :=
  match s.txnOf c with
  | some t => if t.checking then s else s.failCommit t 0xFFFFFFFF idx
  | none => s

/-- The group of the register at `off`; 64 if it has none (R118). -/
def groupOf (off : Nat) : Nat :=
  match regAt off with
  | some (d, i, _) => d.group + d.groupStep * i
  | none => 64

/-- Whether a register is staged: any field SR or LK (R7). -/
def isStaged (off : Nat) : Bool :=
  match regAt off with
  | some (d, _, _) => d.fields.any (fun f => f.access == .sr || f.access == .lk)
  | none => false

/-- Whether a register is LK (R7). -/
def isLk (off : Nat) : Bool :=
  match regAt off with
  | some (d, _, _) => d.fields.any (fun f => f.access == .lk)
  | none => false

/-- Keep only the named fields of a value: reserved bits read 0 (R9). -/
def maskFields (off : Nat) (v : Word) : Word :=
  match regAt off with
  | some (d, _, _) => d.fields.foldl (fun w f => withField f.fld (fieldOf f.fld v) w) 0
  | none => v

/-- Stage a value in transaction `t` (R122): the new value of its register. -/
def State.stageIn (s : State) (t : Txn) (off : Nat) (v : Word) : State :=
  s.setTxn t.id (fun t => { t with regs := ainsert (aerase t.regs off) off (maskFields off v) })

/-- The limit of distinct registers in a transaction (R122). -/
def stageLimit : Nat := 4096

/-- A direct BAR0 write to an SR or LK register, attributed to C0 (R123, R134). (DEDUCED, log entry 49.) -/
def State.stageDirect (s : State) (off : Nat) (v : Word) : State :=
  if isLk off && s.panelLocked then s.event Ev.GBL_LK_WRITE []
  else
    match s.txnOf 0 with
    | none => s.event Ev.STG_NO_TXN [(8, 0)]
    | some t =>
      if !bit (heldMask t.mask) (groupOf off) then
        (s.failTxn t.id).event Ev.STG_GROUP_NOT_HELD [(8, 0), (32, t.id)]
      else if (t.regs.any (fun e => e.1 == off)) || t.regs.length < stageLimit then s.stageIn t off v
      else (s.failTxn t.id).event Ev.STG_FULL [(8, 0), (32, t.id)]

end Sys2Proof.Machine
end

