-- ==== Sys2Proof/Machine/HostRing.lean ====
section
/-! DEFINITION. Client rings, doorbells, fetching, starting order, ring faults and interrupts (R82 to R111). -/

namespace Sys2Proof.Machine

/-- The result of a meaning. -/
abbrev Res := Host.Outcome State Fault Refusal

/-- Set the completion entry size and submission entry size of client `c` (R87). -/
def State.sqSize (s : State) (c : Nat) : Nat := ringSize (s.getF (Reg.HST_CCFG c) F.HST_CCFG_SQ_LOG2)
def State.cqSize (s : State) (c : Nat) : Nat := ringSize (s.getF (Reg.HST_CCFG c) F.HST_CCFG_CQ_LOG2)

/-! ## Doorbells (R88) -/

/-- A dropped doorbell write: HST_CSTAT.ERR, HST_DOORBELL and vector 261 (R88, R110). -/
def State.badDoorbell (s : State) (c err : Nat) : State :=
  ((s.setF (Reg.HST_CSTAT c) F.HST_CSTAT_ERR err).event Ev.HST_DOORBELL []).signal 261

/-- A doorbell write of SQ_TAIL. Where several cases of R88 hold at once, DB_PARTIAL goes before DB_WHILE_OFF, and that before DB_RANGE, here
and for CQ_HEAD. (DESIGN CHOICE, log entry 129.) -/
def State.writeSqTail (s : State) (c : Nat) (be : Nat) (v : Word) : State :=
  let n := v.toNat % 65536
  if be = 0 then s
  else if be ≠ 15 then s.badDoorbell c 6
  else if !s.flag (Reg.HST_CCFG c) F.HST_CCFG_EN then s.badDoorbell c 4
  else if s.sqSize c ≤ n then s.badDoorbell c 3
  else s.setClient c { s.client c with sqTail := n }

/-- A doorbell write of CQ_HEAD: the value must lie from the current head to the completion tail. -/
def State.writeCqHead (s : State) (c : Nat) (be : Nat) (v : Word) : State :=
  let n := v.toNat % 65536
  let size := s.cqSize c
  let head := (s.client c).cqHead
  let tail := s.getF (Reg.HST_CPOS c) F.HST_CPOS_CQ_TAIL
  if be = 0 then s
  else if be ≠ 15 then s.badDoorbell c 6
  else if !s.flag (Reg.HST_CCFG c) F.HST_CCFG_EN then s.badDoorbell c 4
  else if size ≤ n ∨ (tail + size - head) % size < (n + size - head) % size then s.badDoorbell c 3
  else s.setClient c { s.client c with cqHead := n }

/-- SQ_TAIL (R88). -/
def execSqTail (c : Fin 256) (be : BitVec 4) (v : Word) (s : State) : Res := .next (s.viaHst (fun s => s.writeSqTail c be.toNat v))

/-- CQ_HEAD (R88). -/
def execCqHead (c : Fin 256) (be : BitVec 4) (v : Word) (s : State) : Res := .next (s.viaHst (fun s => s.writeCqHead c be.toNat v))

/-! ## Enabling and disabling a ring (R90, R109) -/

/-- A write that HST_CFG_REJECT drops (R89, R90). -/
def State.cfgReject (s : State) (c : Nat) : State :=
  (s.setF (Reg.HST_CSTAT c) F.HST_CSTAT_ERR 5).event Ev.HST_CFG_REJECT []

/-- The RW fields of HST_CCFG taken from a written value; PRIV is read only. With IRQ_EN at 0 no completion is pending (R111). -/
def State.putCcfg (s : State) (c : Nat) (v : Word) : State :=
  let s := s.setReg (Reg.HST_CCFG c)
    (withField F.HST_CCFG_PRIV (s.getF (Reg.HST_CCFG c) F.HST_CCFG_PRIV) (maskFields (Reg.HST_CCFG c) v))
  if fieldOf F.HST_CCFG_IRQ_EN v = 0 then s.setClient c { s.client c with irqPend := 0 } else s

/-- A 0-to-1 write of EN resets the four ring indices and clears ERR (R90). HALT clears with it, and completions pending for interrupt
moderation are forgotten: R91 and R111 name no point for either. (DESIGN CHOICE, log entry 129.) -/
def State.enableRing (s : State) (c : Nat) : State :=
  let s := s.setReg (Reg.HST_CPOS c) 0
  let s := s.setF (Reg.HST_CSTAT c) F.HST_CSTAT_ERR 0
  let s := s.setF (Reg.HST_CSTAT c) F.HST_CSTAT_HALT 0
  let k := s.client c
  (s.setClient c { k with sqTail := 0, cqHead := 0, pass := 0, irqPend := 0, cqDead := false }).syncCstat c

/-- Complete every descriptor of `ds` that has not started with ABORTED; a STG_COMMIT among them closes its transaction (R103, R109). -/
def State.abortUnstarted (c : Nat) : List Desc → State → State
  | [], s => s
  | d :: t, s =>
    if d.stage = .waiting ∨ d.stage = .finished then State.abortUnstarted c t s
    else
      let s := if d.opcode = 2 then s.abortCommit c (some d.idx) else s
      State.abortUnstarted c t (s.finish c d.idx (Cpl.of 0x23))

/-- A 1-to-0 write of EN: steps 1 and 2 of R109; steps 4 and 5 follow the end of the last started descriptor. -/
def State.disableRing (s : State) (c : Nat) : State :=
  let s := s.onHst (fun h => { h with reads := h.reads.filter (fun r => match r.use with
    | .fetch k _ _ => k ≠ c
    | _ => true) })
  let s := s.setClient c { s.client c with fetching := 0, discardDue := true }
  (State.abortUnstarted c (s.client c).descs s).endDisable c

/-- A write of HST_CCFG of client `c` (R90, R109). -/
def State.writeCcfg (s : State) (c : Nat) (v : Word) : State :=
  let r := Reg.HST_CCFG c
  let en := s.flag r F.HST_CCFG_EN
  let en' := fieldOf F.HST_CCFG_EN v == 1
  let sq := fieldOf F.HST_CCFG_SQ_LOG2 v
  let cq := fieldOf F.HST_CCFG_CQ_LOG2 v
  if 10 < sq ∨ 10 < cq then s.cfgReject c
  else if en ∧ (sq ≠ s.getF r F.HST_CCFG_SQ_LOG2 ∨ cq ≠ s.getF r F.HST_CCFG_CQ_LOG2) then s.cfgReject c
  else if !en && en' && ((s.client c).sqbLow || (s.client c).cqbLow) then s.cfgReject c
  else
    let s := s.putCcfg c v
    if !en && en' then s.enableRing c
    else if en && !en' then s.disableRing c
    else s

/-- A write of one of the ring base registers (R89): `k` is 0 to 3 for SQB_LO, SQB_HI, CQB_LO, CQB_HI. -/
def State.writeRingBase (s : State) (c k : Nat) (v : Word) : State :=
  if s.flag (Reg.HST_CCFG c) F.HST_CCFG_EN then s.cfgReject c
  else
    let off := Reg.HST_SQB_LO c + 4 * k
    let s := s.setReg off (maskFields off v)
    let low := v.toNat % 4096 ≠ 0
    if k = 0 then s.setClient c { s.client c with sqbLow := low }
    else if k = 2 then s.setClient c { s.client c with cqbLow := low }
    else s

/-- RING_ENABLE: a write of HST_CCFG that sets EN (R90). -/
def execRingEnable (c : Fin 256) (v : Word) (s : State) : Res :=
  .next (s.viaHst (fun s => s.writeCcfg c (withField F.HST_CCFG_EN 1 v)))

/-- RING_DISABLE: a write of HST_CCFG that clears EN (R109). -/
def execRingDisable (c : Fin 256) (v : Word) (s : State) : Res :=
  .next (s.viaHst (fun s => s.writeCcfg c (withField F.HST_CCFG_EN 0 v)))

/-! ## Fetching (R105) -/

/-- How many descriptors client `c` may fetch now in one read request. -/
def State.fetchCount (s : State) (c : Nat) : Nat :=
  let k := s.client c
  let size := s.sqSize c
  let head := s.getF (Reg.HST_CPOS c) F.HST_CPOS_SQ_HEAD
  let avail := (k.sqTail + size - head) % size
  let cq := s.cqSize c
  let unreleased := (s.getF (Reg.HST_CPOS c) F.HST_CPOS_CQ_TAIL + cq - k.cqHead) % cq
  if !s.flag (Reg.HST_CSTAT c) F.HST_CSTAT_RUN || k.fetching ≠ 0 || !s.isOn 2 then 0
  else min (min 8 (size - head)) (min avail (cq - 1 - (k.descs.length + unreleased)))

/-- DESCRIPTOR_FETCH: one read request of up to 8 descriptors, a completion entry reserved for each (R105). -/
def execDescriptorFetch (c : Fin 256) (s : State) : Res :=
  let n := s.fetchCount c
  if n = 0 then .next s
  else
    let head := s.getF (Reg.HST_CPOS c) F.HST_CPOS_SQ_HEAD
    let s := s.setClient c { s.client c with fetching := n }
    .next (s.readHost (s.pair64 (Reg.HST_SQB_LO c) (Reg.HST_SQB_HI c) + 64 * head) (64 * n) (.fetch c head n))

/-- Cut fetched bytes into descriptors of 64 bytes from ring index `idx`. -/
def cutDescs (size : Nat) : Nat → Nat → List Byte → List Desc
  | 0, _, _ => []
  | n + 1, idx, bs => ⟨idx % size, bs.take 64, .fetched, 0, Cpl.of 0, false, 0⟩ :: cutDescs size n (idx + 1) (bs.drop 64)

/-- Fetched descriptors arrive (R105). -/
def State.takeDescs (s : State) (c idx n : Nat) (bytes : List Byte) : State :=
  let k := s.client c
  let s := s.setClient c { k with fetching := 0, descs := k.descs ++ cutDescs (s.sqSize c) n idx bytes }
  (s.setF (Reg.HST_CPOS c) F.HST_CPOS_SQ_HEAD ((idx + n) % s.sqSize c)).syncCstat c

/-! ## Starting order (R104) -/

/-- Whether a descriptor has completed as far as the order of starts goes: finished with its relayed writes answered, or a decided commit
that only waits for its effective point. A commit whose checks still run, or that waits for another's, has not. -/
def State.doneFor (s : State) (c : Nat) (d : Desc) : Bool :=
  (d.stage == .finished && !s.hostBusy c d.idx) ||
    (d.stage == .waiting && d.opcode == 2
      && !s.stg.txns.any (fun t => t.client == c && t.checking && !t.viaReg && t.commitIdx == d.idx)
      && !s.stg.rollWait.contains (c, d.idx)
      && (s.stg.pendings.any (fun p => p.client == c && p.waitEffect && p.commitIdx == d.idx) ||
        s.stg.idleWaits.any (fun p => p.client == c && p.commitIdx == d.idx)))

/-- The descriptors of `ds` before the one at ring index `idx`. -/
def earlier (idx : Nat) : List Desc → List Desc
  | [] => []
  | d :: t => if d.idx = idx then [] else d :: earlier idx t

/-- Whether descriptor `d` of client `c` may start under R104. -/
def State.mayStart (s : State) (c : Nat) (d : Desc) : Bool :=
  let before := earlier d.idx (s.client c).descs
  let open' := before.filter (fun e => !s.doneFor c e)
  let op := d.opcode
  let started := before.filter (fun e => e.stage == .waiting || e.stage == .finished)
  s.flag (Reg.HST_CSTAT c) F.HST_CSTAT_RUN
    && decide (started.length < 16)
    && decide (started.length = before.length)
    && (!d.fence || open'.isEmpty)
    && (d.length == 0 ||
      ((!serialOp op || !open'.any (fun e => serialOp e.opcode))
        && (!(op == 2 || op == 3) || !open'.any (fun e => e.txn != 0 && e.txn == d.arg 0))
        && (!(op == 6 || op == 7) || !open'.any (fun e => serialOp e.opcode || (usesTarget e.opcode && e.target == d.target)))
        && (!usesTarget op || !open'.any (fun e => usesTarget e.opcode && e.target == d.target))))

/-- The next descriptor of client `c` to start, if it is ready and may start under R104. -/
def State.nextReady (s : State) (c : Nat) : Option Desc :=
  match (s.client c).descs.find? (fun d => !(d.stage == .waiting || d.stage == .finished)) with
  | some d => if d.stage == .ready && s.mayStart c d then some d else none
  | none => none

/-- Descriptors that client `c` may start in one arbitration turn (R90). -/
def State.weight (s : State) (c : Nat) : Nat := 2 ^ s.getF (Reg.HST_CCFG c) F.HST_CCFG_WEIGHT

/-- The client that starts a descriptor next, in weighted round-robin order over the clients that have one ready to start (R107): the client
whose turn it is while its weight lasts, then the next one by number, and after the highest the lowest. -/
def State.arbiter (s : State) : Option Nat :=
  let l := (s.hst.clients.map (·.1)).filter (fun c => (s.nextReady c).isSome)
  let t := s.hst.turn
  if l.contains t && decide (s.hst.used < s.weight t) then some t
  else match l.find? (fun c => decide (t < c)) with
    | some c => some c
    | none => l.head?

/-- A descriptor of client `c` has started: its turn goes on, or begins (R107). -/
def State.countTurn (s : State) (c : Nat) : State :=
  s.onHst (fun h => { h with
    turn := c, used := if h.turn = c ∧ h.used < s.weight c then h.used + 1 else 1 })

/-- The descriptor of client `c` that starts next, if the arbiter picks the client (R107) and the descriptor passes `p`. -/
def State.startable (s : State) (c : Nat) (p : Desc → Bool) : Option Desc :=
  if s.arbiter = some c then (s.nextReady c).filter p else none

/-- Whether a descriptor is a real one of opcode `op`: a zero-length descriptor is a no-op (R101). -/
def isOp (op : Nat) (d : Desc) : Bool := d.opcode == op && d.length != 0

/-- Descriptor `d` of client `c` has passed check 9 and may start; a codec job takes its place in the order of R439, a
calibration step in that of R498. -/
def State.passCheck (s : State) (c : Nat) (d : Desc) : State :=
  let s := s.setDesc c d.idx (fun d => { d with stage := .ready })
  if d.opcode = 0x10 ∨ d.opcode = 0x11 then
    s.onThc (fun t => { t with passed := t.passed.filter (fun j => j ≠ (c, d.idx)) ++ [(c, d.idx)] })
  else if d.opcode = 0x20 then
    s.onCal (fun k => { k with passed := k.passed.filter (fun j => j ≠ (c, d.idx)) ++ [(c, d.idx)] })
  else s

/-- Start the next descriptor of client `c` if it passes `p`, with the meaning `f`; otherwise nothing happens. -/
def State.startWith (s : State) (c : Nat) (p : Desc → Bool) (f : Desc → State → State) : State :=
  match s.startable c p with
  | some d => f d ((s.countTurn c).setDesc c d.idx (fun d => { d with stage := .waiting }))
  | none => s

/-- NOP: a NOP or any zero-length descriptor completes as OK in ring order (R101). -/
def execNop (c : Fin 256) (s : State) : Res :=
  .next (s.startWith c (fun d => d.opcode == 0 || d.length == 0) (fun d s => s.finish c d.idx (Cpl.of 0)))

/-- READY_TIMEOUT: a timed hold expires while a needed bit is still 0 (R60). On a halted ring the descriptor waits for the disable (R108). -/
def execReadyTimeout (c : Fin 256) (s : State) : Res :=
  match (s.client c).descs.find? (fun d => d.stage == .held true) with
  | some d =>
    if s.needsMet d || !s.flag (Reg.HST_CSTAT c) F.HST_CSTAT_RUN then .next s
    else
      let s := if d.opcode = 2 then s.abortCommit c (some d.idx) else s
      .next (s.finish c d.idx (Cpl.of 0x21))
  | none => .next s

/-- DESCRIPTOR_UNHOLD: the needed bits are all set, so a held descriptor becomes ready to start (R60). -/
def execDescriptorUnhold (c : Fin 256) (s : State) : Res :=
  match (s.client c).descs.find? (fun d => d.stage == .held true || d.stage == .held false) with
  | some d => .next (if s.needsMet d then s.passCheck c d else s)
  | none => .next s

/-! ## Faults and interrupts (R108, R111) -/

/-- A ring halts with an error code (R108). -/
def State.haltRing (s : State) (c err : Nat) : State :=
  let s := s.setF (Reg.HST_CSTAT c) F.HST_CSTAT_HALT 1
  (s.setF (Reg.HST_CSTAT c) F.HST_CSTAT_ERR err).syncCstat c

/-- The write of the completion with TAG `tag` failed: the ring halts and the completions that wait are lost (R108). -/
def State.cplFault (s : State) (c tag : Nat) : State :=
  let s := ((s.setClient c { s.client c with cqDead := true }).haltRing c 2).ringFault c tag
  State.flushCpl c (s.client c).descs.length s

/-- A failed data access of the descriptor at ring index `idx` (R108). -/
def State.dataFault (s : State) (c idx : Nat) : State :=
  match s.desc? c idx with
  | some d => (s.ringFault c d.tag).finish c idx (Cpl.of 0x40)
  | none => s

/-- The opcodes that write data to host memory (R94). -/
def writesData (op : Nat) : Bool := op == 0x05 || op == 0x07 || op == 0x10 || op == 0x11 || op == 0x1A || op == 0x24

/-- Host memory fails a data write of the descriptor at ring index `idx` (R108): one that still works completes with HOST_FAULT at its end,
and one whose completion waits for its turn does now. The data and the completion of a descriptor at the front of its ring leave in one step,
so the command that says so comes before it. (DEDUCED, log entry 45.) -/
def State.writeFault (s : State) (c idx : Nat) : State :=
  match s.desc? c idx with
  | none => s
  | some d =>
    if !writesData d.opcode || d.length == 0 then s
    else if d.stage = .finished then (if d.cpl.status ≤ 1 then s.dataFault c idx else s)
    else s.setDesc c idx (fun d => { d with wfail := true })

/-- IRQ_TIMER: TIME_US has elapsed since the oldest pending completion (R111). -/
def execIrqTimer (c : Fin 256) (s : State) : Res :=
  if (s.client c).irqPend ≠ 0 ∧ s.flag (Reg.HST_CCFG c) F.HST_CCFG_IRQ_EN ∧ s.getF (Reg.HST_CIMOD c) F.HST_CIMOD_TIME_US ≠ 0 then
    .next ((s.setClient c { s.client c with irqPend := 0 }).signal c)
  else .next s

/-- Send the message of vector `v` if it is pending and no longer masked (R111). -/
def State.sendPendingVec (s : State) (v : Nat) : State :=
  if bit s.hst.msixPba v && s.msixOn && !s.msixMasked v then
    (s.onHst (fun h => { h with msixPba := clearBit h.msixPba v })).sendMsix v
  else s

/-- MSIX_UNMASK: vector `vec` is unmasked and sends its message if its pending bit is set (R111). -/
def execMsixUnmask (vec : Fin 264) (s : State) : Res :=
  .next (s.viaHst (fun s =>
    let w := s.msixWord vec 3
    let s := s.onHst (fun h => { h with
      msixTable := aset (fun i => if i % 4 = 3 then 1 else 0) h.msixTable (4 * vec.val + 3) (word (clearBit w.toNat 0)) })
    s.sendPendingVec vec))

/-! ## The PCIe function (R83, R115) -/

/-- On a head, HST_MSIX_CTL mirrors the Message Control bits (R115). -/
def State.syncMsixCtl (s : State) : State :=
  if s.hst.linkUp then
    (s.setF Reg.HST_MSIX_CTL F.HST_MSIX_CTL_ENABLE (b2n s.hst.msixEnable)).setF Reg.HST_MSIX_CTL F.HST_MSIX_CTL_FN_MASK (b2n s.hst.msixMask)
  else s

/-- Send every pending vector that is no longer masked. -/
def State.sendPending (s : State) : State := (List.range 264).foldl (fun s v => s.sendPendingVec v) s

/-- The configuration registers return to their defaults (R83). -/
def State.configDefaults (s : State) : State :=
  (s.onHst (fun h => { h with msixEnable := false, msixMask := false, busMaster := false, d3 := false, cfg := [] })).syncMsixCtl

/-- PCIE_CONFIG_WRITE: the fields of the configuration space that the device acts on (R83). (DEDUCED, log entry 34.) -/
def execPcieConfigWrite (w : ConfigWrite) (s : State) : Res :=
  match w with
  | .msix en mask => .next ((s.onHst (fun h => { h with msixEnable := en, msixMask := mask })).syncMsixCtl.sendPending)
  | .command bm mem => .next ((s.cfgHold 4 (word (2 * b2n mem + 4 * b2n bm))).onHst (fun h => { h with busMaster := bm }))
  | .powerState d3 => .next (s.onHst (fun h => { h with d3 := d3 }))
  | .other off v => .next (s.cfgHold off v)

end Sys2Proof.Machine
end

