-- ==== Sys2Proof/Machine/Events.lean ====
section
/-! DEFINITION. The event ring, clearing alarms, and the trace buffer (R573 to R585). -/

namespace Sys2Proof.Machine

/-- The number of entries of the event ring (R579). -/
def State.evtSize (s : State) : Nat := ringSize (s.getF Reg.EVT_CFG F.EVT_CFG_SIZE)

/-- Free entries of the event ring: an index never catches up with the head (R87). -/
def State.evtRoom (s : State) : Nat :=
  let n := s.evtSize
  n - 1 - (s.getF Reg.EVT_RPOS F.EVT_RPOS_TAIL + n - s.getF Reg.EVT_RHEAD F.EVT_RHEAD_HEAD) % n

/-- EVT_STAT.FULL follows the indices (R585). -/
def State.syncEvtFull (s : State) : State :=
  (s.setF Reg.EVT_STAT F.EVT_STAT_FULL (b2n (s.evtRoom == 0))).syncEvtStat

/-- The 32 bytes of an event record (R574). -/
def eventBytes (s : State) (e : PendEvent) : List Byte :=
  let phase := (s.evt.pass + 1) % 2
  leBytes 2 e.code ++ [BitVec.ofNat 8 (phase + 2 * b2n (decide (1 < e.count)) + 4 * b2n e.alarm + 8 * b2n e.trunc), BitVec.ofNat 8 s.role]
    ++ leBytes 4 e.count ++ leBytes 8 e.first ++ leBytes 4 (min ((e.last - e.first) / 1200) 0xFFFFFFFF)
    ++ leBytes 4 e.d0 ++ leBytes 4 e.d1 ++ leBytes 4 e.d2

/-- Moderation of vector 256; a record with FLAGS.ALARM signals at once (R579). -/
def State.moderateEvt (s : State) (alarm : Bool) : State :=
  let n := s.evt.irqPend + 1
  if !s.flag Reg.EVT_CFG F.EVT_CFG_IRQ_EN then s
  else if alarm ∨ s.getF Reg.EVT_CFG F.EVT_CFG_COUNT ≤ n then (s.onEvt (fun e => { e with irqPend := 0 })).signal 256
  else s.onEvt (fun e => { e with irqPend := n })

/-- Write one record at the tail of the ring. -/
def State.writeRecord (s : State) (e : PendEvent) : State :=
  let tail := s.getF Reg.EVT_RPOS F.EVT_RPOS_TAIL
  let size := s.evtSize
  let s := s.writeHost (s.pair64 Reg.EVT_RBASE_LO Reg.EVT_RBASE_HI + 32 * tail) (eventBytes s e) none
  let s := s.setF Reg.EVT_RPOS F.EVT_RPOS_TAIL ((tail + 1) % size)
  let s := s.onEvt (fun v => { v with pass := if tail + 1 = size then v.pass + 1 else v.pass })
  let s := s.bump Reg.EVT_CNT_REC 1
  (s.moderateEvt e.alarm).syncEvtFull

/-- The EVENTS_LOST record (R577). -/
def lostRecord (s : State) : PendEvent :=
  ⟨Ev.EVENTS_LOST, 0, s.evt.lostMask, 0, false, false, min s.evt.lostCount 0xFFFFFFFF, s.evt.lostFirst, s.evt.lostLast⟩

/-- The hold of an entry in PCLK (R576). -/
def holdOf (s : State) (e : PendEvent) : Nat :=
  1200 * (if isCClass e.code then s.getF Reg.EVT_COAL F.EVT_COAL_HOLD_C else s.getF Reg.EVT_COAL F.EVT_COAL_HOLD_N)

/-- No record can be written: HST is off, or the ring is off, faulted or full (R579). -/
def State.evtStuck (s : State) : Bool :=
  !s.isOn 2 || !s.flag Reg.EVT_CFG F.EVT_CFG_EN || s.flag Reg.EVT_STAT F.EVT_STAT_FAULT || s.evtRoom == 0

/-- Write the next record, if the ring can take one: EVT_RING_FAULT after a fault, then EVENTS_LOST, then
the pending entry that `pick` chooses (R576, R577, R579). -/
def State.nextRecord (s : State) (pick : List PendEvent → Option PendEvent) : State :=
  if s.evtStuck then s
  else if s.evt.faultRec then
    (s.onEvt (fun e => { e with faultRec := false })).writeRecord ⟨Ev.EVT_RING_FAULT, 0, 0, 0, false, false, 1, s.gen.vt, s.gen.vt⟩
  else if s.evt.lostCount ≠ 0 then
    let r := lostRecord s
    (s.onEvt (fun e => { e with lostCount := 0, lostMask := 0 })).writeRecord r
  else
    match pick s.evt.pend with
    | some p => (s.onEvt (fun e => { e with pend := e.pend.erase p })).writeRecord p
    | none => s

/-- EVENT_RECORD_WRITE: the oldest entry whose hold has passed is written; the command's arrival stands for the passing of the
oldest entry's hold when the volume time shows none (R576). (DESIGN CHOICE, log entry 138.) -/
def execEventRecordWrite (s : State) : Res :=
  .next (s.nextRecord (fun l =>
    match l.find? (fun e => decide (e.first + holdOf s e ≤ s.gen.vt)) with
    | some e => some e
    | none => l.head?))

/-- Write every pending entry regardless of its hold; entries without room are lost (R578). -/
def State.flushEvents : Nat → State → State
  | 0, s => s
  | n + 1, s =>
    match s.evt.pend with
    | [] => if s.evt.lostCount ≠ 0 ∧ s.evtRoom ≠ 0 then s.nextRecord (fun l => l.head?) else s
    | p :: rest =>
      if s.evtStuck then
        State.flushEvents n ((s.onEvt (fun e => { e with pend := rest })).loseEvents p.code p.count).syncEvtStat
      else State.flushEvents n (s.nextRecord (fun l => l.head?))

/-- EVT_RING_FAULT: a write to the event ring fails; the record stays pending (R579): the command comes in place of the one that would write it.
(DESIGN CHOICE, log entry 138.) -/
def execEvtRingFault (s : State) : Res :=
  if s.flag Reg.EVT_CFG F.EVT_CFG_EN then
    .next ((s.setF Reg.EVT_STAT F.EVT_STAT_FAULT 1).onEvt (fun e => { e with faultRec := true }))
  else .next s

/-- EVT_IRQ_TIMER: the vector 256 wait expires (R579). -/
def execEvtIrqTimer (s : State) : Res :=
  if s.evt.irqPend ≠ 0 ∧ s.flag Reg.EVT_CFG F.EVT_CFG_IRQ_EN ∧ s.getF Reg.EVT_CFG F.EVT_CFG_TIME_US ≠ 0 then
    .next ((s.onEvt (fun e => { e with irqPend := 0 })).signal 256)
  else .next s

/-- A write of EVT_RHEAD: the value must lie from the current head to the device's tail (R579). -/
def State.writeRhead (s : State) (v : Word) : State :=
  let n := v.toNat % 65536
  let size := s.evtSize
  let head := s.getF Reg.EVT_RHEAD F.EVT_RHEAD_HEAD
  let tail := s.getF Reg.EVT_RPOS F.EVT_RPOS_TAIL
  if size ≤ n ∨ (tail + size - head) % size < (n + size - head) % size then s.event Ev.GBL_REJECT_WRITE []
  else (s.setF Reg.EVT_RHEAD F.EVT_RHEAD_HEAD n).syncEvtFull

/-- EVT_RHEAD_WRITE (R579). -/
def execEvtRheadWrite (v : Word) (s : State) : Res := .next (s.viaHst (fun s => s.writeRhead v))

/-- A write of EVT_CFG (R578, R579, R585). -/
def State.writeEvtCfg (s : State) (v : Word) : State :=
  let size := fieldOf F.EVT_CFG_SIZE v
  let en := s.flag Reg.EVT_CFG F.EVT_CFG_EN
  if fieldOf F.EVT_CFG_COUNT v = 0 ∨ 10 < size then s.event Ev.GBL_REJECT_WRITE []
  else if en ∧ size ≠ s.getF Reg.EVT_CFG F.EVT_CFG_SIZE then s.event Ev.GBL_REJECT_WRITE []
  else
    let s := s.setReg Reg.EVT_CFG (maskFields Reg.EVT_CFG v)
    if !en && fieldOf F.EVT_CFG_EN v == 1 then
      let s := s.setReg Reg.EVT_RHEAD 0
      let s := s.setReg Reg.EVT_RPOS 0
      let s := s.setF Reg.EVT_STAT F.EVT_STAT_FAULT 0
      (s.onEvt (fun e => { e with pass := 0, irqPend := 0 })).syncEvtFull
    else s

/-- EVT_CFG_WRITE (R578). -/
def execEvtCfgWrite (v : Word) (s : State) : Res := .next (s.viaHst (fun s => s.writeEvtCfg v))

/-- A write of an event ring base register (R585). -/
def State.writeEvtBase (s : State) (off : Nat) (v : Word) : State :=
  if s.flag Reg.EVT_CFG F.EVT_CFG_EN then s.event Ev.GBL_REJECT_WRITE [] else s.setReg off (maskFields off v)

/-! ## Alarms -/

/-- Whether the cause of alarm entry `n` still holds (R581). -/
def State.causeHolds (s : State) (n : Nat) : Bool :=
  if n = 1 then s.pwr.regFault && s.getF Reg.PWR_OP F.PWR_OP_CUR == 0
  else if n = 4 then s.getF Reg.SCN_CRACK F.SCN_CRACK_STATE == 1
  else if n = 5 then s.getF Reg.SCN_CRACK F.SCN_CRACK_STATE == 2
  else if n = 6 then decide (s.getF Reg.SCN_PROT F.SCN_PROT_SHORT_MAX < s.getF Reg.DMU_STAT F.DMU_STAT_FMASK_N)
  else if n = 7 then s.thm.suspectHot
  else if n = 8 then s.flag Reg.THM_STAT F.THM_STAT_FEW
  else false

/-- Clear the pending bits of the low or high half that `v` names and whose cause no longer holds (R581). (DESIGN CHOICE, log entry 33.) -/
def State.clearAlarms (s : State) (hi : Bool) (v : Word) : State :=
  let off := if hi then Reg.EVT_ALM_PEND_HI else Reg.EVT_ALM_PEND_LO
  let base := if hi then 32 else 0
  let wasLow := !s.alarmPin
  let s := (bitsOf v.toNat 32).foldl (fun s i =>
    if s.causeHolds (base + i) then s
    else
      let s := s.setReg off (word (clearBit (s.reg off).toNat i))
      s.setF (Reg.EVT_ALM_CODE (base + i)) F.EVT_ALM_CODE_COUNT 0) s
  if wasLow && s.alarmPin then s.emit (.pin "ALARM_N" true) else s

/-- EVT_ALM_PEND_CLEAR (R581). -/
def execEvtAlmPendClear (hi : Bool) (v : Word) (s : State) : Res := .next (s.viaHst (fun s => s.clearAlarms hi v))

/-! ## Traces -/

def State.onBnk (s : State) (f : BankState → BankState) : State := { s with bnk := f s.bnk }

/-- The hashed place of region word `a` over `n` banks from bank `b` (R456). -/
def hashedWord (b n a : Nat) : Nat :=
  let line := a / n
  let h := ((line % 64) ^^^ (line / 64 % 64) ^^^ (line / 4096 % 16)) % n
  65536 * (b + (a % n + h) % n) + line

/-- The owner code of bank b (R470). -/
def State.bankOwner (s : State) (b : Nat) : Nat := (s.reg (Reg.BNK_OWN (b / 8))).toNat / 16 ^ (b % 8) % 16

/-- The word of the banks that holds byte `i` of the trace buffer: its banks are a run of the general pool (R454, R456, R582). -/
def State.traceWord (s : State) (i : Nat) : Option Nat :=
  ((List.range 18).find? (fun k => s.bankOwner (110 + k) == 10)).map (fun k =>
    hashedWord (110 + k) (s.getF Reg.BNK_ALLOC F.BNK_ALLOC_TRACE) (i / 8))

/-- The data items of BNK_UE and BNK_PW_POISON: master, bank and word (R462). -/
def bankItems (m w : Nat) : List (Nat × Nat) := [(8, m), (8, w / 65536), (16, w % 65536)]

/-- An uncorrectable read by master `m`, with what its rule adds to the event (R462, R465). -/
def State.bankUe (s : State) (m w : Nat) (more : List (Nat × Nat) := []) : State :=
  let s := s.bump Reg.BNK_CNT_UE 1
  let s := s.setF Reg.BNK_UE_ADDR F.BNK_UE_ADDR_MASTER m
  let s := s.setF Reg.BNK_UE_ADDR F.BNK_UE_ADDR_BANK (w / 65536)
  let s := s.setF Reg.BNK_UE_ADDR F.BNK_UE_ADDR_WORD (w % 65536)
  s.event Ev.BNK_UE (bankItems m w ++ more)

/-- One correctable word found by master m (R462). (DEDUCED, log entry 107.) -/
def State.bankCe (s : State) (m w : Nat) : State := (s.bump Reg.BNK_CNT_CE 1).event Ev.BNK_CE (bankItems m w)

/-- The state of bank `b` in BNK_PSTATn: 0 OFF, 1 RET, 2 ON (R459, R470). -/
def State.bankState (s : State) (b : Nat) : Nat := (s.reg (Reg.BNK_PSTAT (b / 16))).toNat / 4 ^ (b % 16) % 4
def State.setBankState (s : State) (b n : Nat) : State :=
  s.setF (Reg.BNK_PSTAT (b / 16)) ⟨2 * (b % 16) + 1, 2 * (b % 16)⟩ n

/-- An access to words of the banks wakes the banks that are in RET (R459, R460). -/
def State.touchWords (s : State) (ws : List Nat) : State :=
  if (List.range 128).any (fun b => s.bankState b == 1) then
    ws.foldl (fun s w => if s.bankState (w / 65536) = 1 then s.setBankState (w / 65536) 2 else s) s
  else s

/-- No word of the banks has an error. -/
def State.banksClean (s : State) : Bool := s.bnk.bad.isEmpty && s.bnk.soft.isEmpty

/-- Master `m` reads word `w`: an uncorrectable one is reported, a correctable one corrected (R462). -/
def State.readWord (s : State) (m w : Nat) (more : List (Nat × Nat) := []) : State :=
  if s.bnk.bad.contains w then s.bankUe m w more
  else if s.bnk.soft.contains w then (s.onBnk (fun b => { b with soft := b.soft.filter (fun x => x != w) })).bankCe m w
  else s

/-- Words that are written whole have no error any more (R463). -/
def State.cleanWords (s : State) (ws : List Nat) : State :=
  if s.banksClean then s
  else s.onBnk (fun b => { b with bad := b.bad.filter (fun w => !ws.contains w), soft := b.soft.filter (fun w => !ws.contains w) })

/-- Master `m` writes a part of word `w` (R464). -/
def State.mergeWord (s : State) (m w : Nat) : State :=
  if s.bnk.bad.contains w then (s.bump Reg.BNK_CNT_PWPOISON 1).event Ev.BNK_PW_POISON (bankItems m w)
  else if s.bnk.soft.contains w then
    ((s.onBnk (fun b => { b with soft := b.soft.filter (fun x => x != w) })).bump Reg.BNK_CNT_PWCE 1).event Ev.BNK_PW_CE (bankItems m w)
  else s

/-- Master `m` writes the words `full` whole and those of `ends` in part. -/
def State.writeWords (s : State) (m : Nat) (full ends : List Nat) : State :=
  if s.banksClean then s else ends.eraseDups.foldl (fun s w => s.mergeWord m w) (s.cleanWords full)

/-- Words are copied whole, each of `es` from the word beside it, or written with zeros where there is none: a poisoned one is copied poisoned
(R269, R271, R465). -/
def State.copyWords (s : State) (es : List (Nat × Option Nat)) : State :=
  let bad := s.bnk.bad
  let s := s.cleanWords (es.map (·.1))
  s.onBnk (fun b => { b with bad := b.bad ++ es.filterMap (fun e => e.2.bind (fun w => if bad.contains w then some e.1 else none)) })

/-- Errors that arise in words of the banks (R462). -/
def State.spoilWords (s : State) (errs : List ReadError) : State :=
  errs.foldl (fun s e =>
    if 128 * 65536 ≤ e.unit ∨ s.bnk.bad.contains e.unit = true then s
    else
      let soft := s.bnk.soft.filter (fun w => w != e.unit)
      s.onBnk (fun b => if e.correctable then { b with soft := soft ++ [e.unit] } else { b with bad := b.bad ++ [e.unit], soft := soft })) s

/-- The words of the general pool that owner `o`'s banks give word `a` of its region of `n` banks (R454, R456). -/
def State.poolWord (s : State) (o n a : Nat) : Option Nat :=
  ((List.range 18).find? (fun k => s.bankOwner (110 + k) == o)).map (fun k => hashedWord (110 + k) n a)

/-- A trace record is written as four full words: their errors are gone (R463, R582). -/
def State.cleanTrace (s : State) (n : Nat) : State :=
  if s.banksClean then s else s.cleanWords ((List.range 4).filterMap (fun j => s.traceWord (32 * n + 8 * j)))

/-- Capture stops (R584). -/
def State.stopTrace (s : State) : State :=
  ((s.setF Reg.EVT_TRC F.EVT_TRC_RUN 0).onEvt (fun e => { e with post := none, fifo := [] })).event Ev.EVT_TRACE_STOP []

/-- Put one trace record into the banks (R584). -/
def State.storeTrace (s : State) (r : List Byte) : State :=
  let cap := s.traceCap
  let next := s.getF Reg.EVT_TRC_POS F.EVT_TRC_POS_NEXT
  if cap = 0 ∨ !s.flag Reg.EVT_TRC F.EVT_TRC_RUN then s
  else if s.evt.post = some 0 then s.stopTrace
  else
    let s := (s.onEvt (fun e => { e with trace := ainsert (aerase e.trace next) next r })).cleanTrace next
    let wrap := s.flag Reg.EVT_TRC F.EVT_TRC_WRAP
    let s := if next + 1 = cap ∧ wrap then
        (s.setF Reg.EVT_TRC_POS F.EVT_TRC_POS_NEXT 0).setF Reg.EVT_TRC_POS F.EVT_TRC_POS_WRAPPED 1
      else s.setF Reg.EVT_TRC_POS F.EVT_TRC_POS_NEXT (next + 1)
    match s.evt.post with
    | some n => if n ≤ 1 then s.stopTrace else s.onEvt (fun e => { e with post := some (n - 1) })
    | none => if next + 1 = cap ∧ !wrap then s.stopTrace else s

/-- The FIFO drains into the banks (R583). -/
def State.drainTrace (s : State) : State :=
  let l := s.evt.fifo
  l.foldl (fun s r => s.storeTrace r) (s.onEvt (fun e => { e with fifo := [] }))

/-- A write of EVT_TRC (R584, R585). -/
def State.writeTrc (s : State) (v : Word) : State :=
  let run' := fieldOf F.EVT_TRC_RUN v == 1
  let run := s.flag Reg.EVT_TRC F.EVT_TRC_RUN
  if run' ∧ s.getF Reg.BNK_ALLOC F.BNK_ALLOC_TRACE = 0 then s.event Ev.GBL_REJECT_WRITE []
  else
    let s := if run && !run' then s.drainTrace else s
    let s := s.setReg Reg.EVT_TRC (maskFields Reg.EVT_TRC v)
    if !run && run' then (s.setReg Reg.EVT_TRC_POS 0).onEvt (fun e => { e with fifo := [], post := none }) else s

/-- EVT_TRC_WRITE (R584). -/
def execEvtTrcWrite (v : Word) (s : State) : Res := .next (s.viaHst (fun s => s.writeTrc v))

/-- EVT_TRC_MARK: a MARK record with the value written (R582). -/
def execEvtTrcMark (v : Word) (s : State) : Res := .next (s.viaHst (fun s => s.trace 6 (leBytes 4 v.toNat)))

/-! ## Idling -/

/-- Nothing is commanded (DESIGN CHOICE): trace records drain into the banks, and one cycle of the pixel clock passes while the timebase
runs (R232, R583). (DESIGN CHOICE, log entry 2.) -/
def State.idle (s : State) : State :=
  let s := if s.evt.fifo.isEmpty then
      (if s.evt.post = some 0 ∧ s.flag Reg.EVT_TRC F.EVT_TRC_RUN = true then s.stopTrace else s)
    else s.drainTrace
  if s.isReady 7 && !s.pwr.dormant then s.onGen (fun g => { g with vt := (g.vt + 1) % 2 ^ 64 }) else s

end Sys2Proof.Machine
end

