-- ==== Sys2Proof/Machine/Supply.lean ====
section
/-! DEFINITION. Power domains that wake and stall (R66 to R69), operating points, AVSBus, regulator pairs and regulator faults (R75 to R80). -/

namespace Sys2Proof.Machine

/-! ## Domains -/

/-- The domains that domain `d` depends on (R66). -/
def domainDeps (d : Nat) : List Nat :=
  if d ≤ 1 then []
  else if d = 2 then [0]
  else if d ≤ 6 then [2]
  else if d ≤ 10 then [17]
  else if d ≤ 14 then [2, 25]
  else if d = 15 then [18]
  else if d = 16 then [19]
  else if d = 17 then [23, 24]
  else if d ≤ 19 then [17, 25, 26, 27, 28, 29, 30, 31, 32]
  else if d = 20 then [23, 24]
  else if d ≤ 22 then [25, 26, 27, 28, 29, 30, 31, 32]
  else if d ≤ 24 then [33]
  else [2]

/-- The domains that depend on domain `d`. -/
def domainUsers (d : Nat) : List Nat := (List.range 34).filter (fun u => (domainDeps u).contains d)

/-- Domain `d` stays off: the core is off (R47, R51, R54), the device is in DORMANT (R71), or the domain is locked off (R69). -/
def State.heldOff (s : State) (d : Nat) : Bool := s.coreOff || s.pwr.dormant || s.lockedOff d

/-- Start waking domain `d` and every domain it depends on that is off (R66, R68). The depth of the dependencies is at most 5. -/
def State.wake : Nat → Nat → State → State
  | 0, _, s => s
  | n + 1, d, s =>
    if s.isOn d || s.pwr.waking.contains d || s.heldOff d then s
    else
      let s := (domainDeps d).foldl (fun s e => State.wake n e s) s
      s.onPwr (fun p => { p with waking := p.waking ++ [d] })

/-- The answer to a read of a relay window, for role `src` (R113, R533). -/
def State.remoteReply (s : State) (src tag : Nat) (v : Word) : State :=
  s.unicast src 0x40 (hostBody (s.roleEntry src).epoch tag 7 0 4 (leBytes 4 v.toNat))

/-- Answer a stalled request with `v`; a write has no answer. -/
def State.answerRead (s : State) (r : Stalled) (v : Word) : State :=
  match r with
  | .read _ _ => s.emit (.readReply v)
  | .remote _ src tag => s.remoteReply src tag v
  | _ => s

/-- The offset of a stalled register access. -/
def Stalled.off? : Stalled → Option Nat
  | .write off _ _ _ => some off
  | .read off _ => some off
  | .remote off _ _ => some off
  | .internal _ => none

/-- The relay window of this head that a stalled access came through (R113). -/
def Stalled.win? : Stalled → Option Nat
  | .write _ _ _ w => w
  | .read _ w => w
  | .remote _ _ _ => none
  | .internal _ => none

/-- The status register that shows the state of the port or link of a lockable domain: RDG_PST, RAF_PST or MAG_PSTAT. -/
def statusOf (d : Nat) : Nat :=
  if d < 7 then Reg.RDG_PST (d - 3) else if d < 11 then Reg.RAF_PST (d - 7) else Reg.MAG_PSTAT (d - 11)

/-- What a read of a locked-off domain returns: all-ones (R69), but for the STATE of its port or link, which reads DISABLED (R58).
(DEDUCED, log entry 130.) -/
def lockedValue (d : Nat) (r : Stalled) : Word :=
  if 3 ≤ d ∧ d ≤ 10 ∧ r.off? = some (statusOf d) then withField F.RAF_PST_STATE 0 (BitVec.allOnes 32)
  else if 11 ≤ d ∧ d ≤ 14 ∧ r.off? = some (statusOf d) then withField F.MAG_PSTAT_STATE 8 (BitVec.allOnes 32)
  else BitVec.allOnes 32

/-- A request aimed at domain `d`, which is off: it stalls and starts the wake, or meets a locked-off domain (R68, R69). While the core is
off nothing sends one. -/
def State.stallOn (s : State) (d : Nat) (r : Stalled) : State :=
  if s.coreOff then s
  else if s.lockedOff d then (s.event Ev.PWR_LOCKED_ACCESS [(8, d)]).answerRead r (lockedValue d r)
  else (State.wake 6 d s).onPwr (fun p => { p with stalled := p.stalled ++ [(d, r)] })

/-- Whether an access to the registers at `off` must stall, and on which domain: BAT and LTH registers are decoded by CMP while
their domains are off, and GBL and PWR never stall (R62, R116). -/
def State.stallDomain (s : State) (off : Nat) : Option Nat :=
  let d := domainOf off
  if s.isOn d then none else some d

/-- The stalled accesses of domain `d`, dropped as a failed wake drops them (R68). -/
def State.dropStalled (s : State) (d : Nat) : State :=
  let l := s.pwr.stalled.filter (fun e => e.1 == d)
  let s := s.onPwr (fun p => { p with
    stalled := p.stalled.filter (fun e => e.1 ≠ d)
    waking := p.waking.filter (fun e => e ≠ d) })
  l.foldl (fun s e => s.answerRead e.2 (BitVec.allOnes 32)) s

/-- Turn a domain and every domain that depends on it off, dependents first (R66). -/
def State.offTree : Nat → Nat → State → State
  | 0, _, s => s
  | n + 1, d, s => ((domainUsers d).foldl (fun s u => State.offTree n u s) s).setDomain d false

/-- Every domain off but AON and TMK (R51, R54). -/
def State.allOff (s : State) : State :=
  (s.setDomains ((List.range 34).filter (fun d => 2 ≤ d)) false).onPwr (fun p => { p with waking := [], stalled := [] })

/-! ## What the core drives outside (R41, R51) -/

/-- Port p. -/
def State.port (s : State) (p : Nat) : MagPort := aget (fun _ => MagPort.init) s.mag.ports p
/-- Change port p. -/
def State.onPort (s : State) (p : Nat) (f : MagPort → MagPort) : State :=
  s.onMag (fun m => { m with ports := aset (fun _ => MagPort.init) m.ports p (f (s.port p)) })

/-- MAG_PSTAT.STATE (R401). -/
def State.magState (s : State) (p : Nat) : Nat := s.getF (Reg.MAG_PSTAT p) F.MAG_PSTAT_STATE
def State.setMagState (s : State) (p n : Nat) : State := s.setF (Reg.MAG_PSTAT p) F.MAG_PSTAT_STATE n
/-- Whether the plate volume of port p is in use. -/
def State.mounted (s : State) (p : Nat) : Bool := s.magState p == 5

/-- An output pin of port p. -/
def State.magPin (s : State) (p : Nat) (name : String) (b : Bool) : State := s.emit (.pin ("MG" ++ toString p ++ "_" ++ name) b)

/-- The outputs of port p at their reset state: PERST_N low, REFCLK off, PWR_EN low (R41, R405). -/
def State.magPinsOff (s : State) (p : Nat) : State := ((s.magPin p "PERST_N" false).magPin p "REFCLK" false).magPin p "PWR_EN" false

/-- Whether the magazine of port p is powered. -/
def State.magPowered (s : State) (p : Nat) : Bool :=
  let st := s.magState p
  st == 1 || st == 2 || st == 3 || st == 4 || st == 5 || (st == 7 && !(s.port p).reseat)

/-- A step that uses CALREF (R497). -/
def usesCalref (r : CalRun) : Bool := r.step == 1 || r.step == 3 || (r.step == 4 && r.arg == 0)

/-- What drives a magazine, a current of the crack loop or CALREF ends: the outputs take their reset states (R41). -/
def State.outputsDown (s : State) : State :=
  let s := (List.range 4).foldl (fun s p => if s.magPowered p then s.magPinsOff p else s) s
  let s := if s.pnl.measuring then (s.onPnl (fun p => { p with measuring := false })).emit (.crackForce 0) else s
  if s.cal.run.any usesCalref then s.emit (.pin "CALREF_LOOP" false) else s

/-- What works in the core ends with it, without a trace: rings, staging, links, magazines, engines, calibration, sensors and the mesh, and the
voltage write in flight (R47, R51, R54, R62). The banks are OFF (R459) and the engines too. What they drove outside takes its reset state (R41).
Registers keep their values until the reset that follows. (DEDUCED, log entry 22.) -/
def State.coreDown (s : State) : State :=
  let s := s.outputsDown
  let s := (List.range 8).foldl (fun s q => s.setF (lkBase q + 0x10) F.RAF_PST_STATE 0) s
  let s := (List.range 4).foldl (fun s p => s.setMagState p 0) s
  let s := [0, 1].foldl (fun s e => s.setReg (Reg.THC_ESTAT e) 0) s
  let s := ((List.range 8).foldl (fun s d => s.setReg (Reg.BNK_PSTAT d) 0) s).onBnk (fun b => { b with bad := [], soft := [] })
  let s := { s with
    hst := { HostState.init with nextRid := s.hst.nextRid, nextTag := s.hst.nextTag }
    stg := StageState.init, links := [], drv := [], cal := CalState.init, thc := ThcState.init, rdg := RidgeState.init, thm := ThermState.init
    mag := { MagState.init with ports := s.mag.ports.map (fun (e : Nat × MagPort) => (e.1, { MagPort.init with present := e.2.present })) }
    gen := { s.gen with cams := [], lastSync := none, periods := [], lineRun := 0 }
    tmk := { s.tmk with relays := [], relayResp := none } }
  s.allOff.onPwr (fun p => { p with target := none, writing := none, pairFormed := false, promised := none })

/-- A register write that has reached the device and is not staged: it stalls while the domain of its block is off (R62, R68), and acts as `f`
once it is on. -/
def State.viaReg (s : State) (off : Nat) (v : Word) (f : State → State) : State :=
  s.viaHst (fun s => match s.stallDomain off with
    | some d => s.stallOn d (.write off 15 v none)
    | none => f s)

/-! ## Operating points (R75, R76) -/

/-- The voltage code of operating point `n` (PWR_VSET, R76). -/
def State.vcode (s : State) (n : Nat) : Nat := (s.reg Reg.PWR_VSET).toNat / 256 ^ n % 256

/-- The highest point whose own voltage does not exceed the code `v`; OP0 if none does (R76). -/
def State.maxPoint (s : State) (v : Nat) : Nat :=
  if s.vcode 3 ≤ v then 3 else if s.vcode 2 ≤ v then 2 else if s.vcode 1 ≤ v then 1 else 0

/-- The point the device aims for: the lower of REQ and LIMIT (R76). -/
def State.aimPoint (s : State) : Nat := min (s.getF Reg.PWR_OP F.PWR_OP_REQ) (s.getF Reg.PWR_OP F.PWR_OP_LIMIT)

/-- The hottest valid sensor in 1/16 °C (R489). -/
def State.hottest (s : State) : Int := toSigned 16 (s.getF Reg.THM_STAT F.THM_STAT_HOT)

/-- The code of V_T: 0.500 V + code × 5 mV (R75, R76). (DESIGN CHOICE, log entry 10.) -/
def State.vtCode (s : State) : Nat := 42 + (Config.vt s.hottest).val

/-- PWR_VSET for V_T of code `v`: steps of 20 mV down, each clamped to 0.65 to 0.90 V (R75). (DESIGN CHOICE, log entry 10.) -/
def vsetWord (v : Nat) : Word :=
  let c := fun k => max 30 (min 80 (v - 4 * (3 - k)))
  word (c 0 + 256 * c 1 + 65536 * c 2 + 16777216 * c 3)

/-- DORMANT is no longer the target: a wake source that arrived on the way there is forgotten with it (R73). -/
def State.dropHeading (s : State) : State := s.onPwr (fun p => { p with heading := false, wakeSeen := none })

/-- The highest point that every voltage now due allows: the confirmed one, the one of a write in flight, one promised to the partner, and one
whose write timed out, since the net may stand at it (R76, R77, R78). -/
def State.safePoint (s : State) : Nat :=
  [s.pwr.writing.map (fun w => w.2.1), s.pwr.promised, s.pwr.unsure].foldl (fun p v => match v with
    | some v => min p (s.maxPoint v)
    | none => p) (s.maxPoint (s.getF Reg.PWR_OP F.PWR_OP_VCONF))

/-- The derated islands run at the highest point the confirmed voltage allows, not above the aim, and at the rate of a lower voltage before it
is written (R76); a follower that has lost its pair runs at OP0 (R79). -/
def State.setRate (s : State) : State :=
  if s.pwr.pairLost && !s.pwr.pairLeader then s.setF Reg.PWR_OP F.PWR_OP_CUR 0
  else s.setF Reg.PWR_OP F.PWR_OP_CUR (min s.aimPoint s.safePoint)

/-- AVS_MODE 0b10: no AVSBus, the core stays at 0.75 V (R46, R76). -/
def State.noAvs (s : State) : Bool := s.getF Reg.GBL_STRAP F.GBL_STRAP_AVS_MODE == 2

/-- Whether the device shares regulators (R78). -/
def State.paired (s : State) : Bool := s.flag Reg.GBL_STRAP F.GBL_STRAP_PAIR_REG

/-- Write the voltage code on every bus in use (R77). -/
def State.avsSend (s : State) (v : Nat) : State :=
  let s := s.emit (.avsWrite 0 v)
  if s.getF Reg.GBL_STRAP F.GBL_STRAP_AVS_MODE = 0 then s.emit (.avsWrite 1 v) else s

/-- The voltage the device wants on the net: its own aim, or in a formed pair the higher of both requests (R77, R78).
(DEDUCED, log entry 32.) -/
def State.wantCode (s : State) : Nat :=
  let own := s.vcode s.aimPoint
  if s.paired then max own s.pwr.partnerReq else own

/-- Step S6 of start-up has begun, and the core is on: before it the device issues no AVSBus transaction (R40, R53). -/
def State.avsOpen (s : State) : Bool := s.rst.stepsDone.contains 5 && !s.coreOff

/-- Step S6 of start-up runs: it makes one voltage write, and a request that comes meanwhile waits for its end (R53). -/
def State.inS6 (s : State) : Bool := s.rst.starting && s.rst.stepsDone.contains 5 && !s.rst.stepsDone.contains 6

/-- The net is known to stand at voltage code `v`: it is the confirmed one, and no write has timed out since (R76, R77). -/
def State.stands (s : State) (v : Nat) : Bool := v == s.getF Reg.PWR_OP F.PWR_OP_VCONF && s.pwr.confirmed && s.pwr.unsure.isNone

/-- Start a write of voltage code `v` for the point aimed for; the rate is that of the lower voltage from now on (R76, R77). -/
def State.startWrite (s : State) (v : Nat) : State :=
  let s := s.onPwr (fun p => { p with
    writing := some (s.aimPoint, v, s.getF Reg.PWR_AVS_CFG F.PWR_AVS_CFG_RETRY), target := none, promised := none })
  s.setRate.avsSend v

/-- The leader of a formed pair aims for the higher of both requests: it lowers its own rate and waits for the partner's before it writes a
lower voltage (R78). -/
def State.avsLead (s : State) : State :=
  let v := s.wantCode
  let vc := s.getF Reg.PWR_OP F.PWR_OP_VCONF
  if s.pwr.partnerReq = 0 ∨ s.stands v = true then (s.onPwr (fun p => { p with target := none, promised := none })).setRate
  else if v < vc ∧ v < s.pwr.partnerRate then
    ((s.onPwr (fun p => { p with target := some s.aimPoint, promised := some v })).setRate).emit (.pairMsg (.rate v))
  else s.startWrite v

/-- Aim the supply anew (R77, R78): the rate is lowered first when the voltage falls, and the voltage is written when no write is outstanding.
A follower tells the leader what it wants; a leader without its pair raises the voltage and never lowers it (R79). A voltage whose write timed
out is written again, even where it is the confirmed one (R77). (DEDUCED, log entry 32.) -/
def State.avsAim (s : State) : State :=
  if s.noAvs || !s.avsOpen then s.setRate
  else if s.pwr.writing.isSome || s.inS6 then (s.onPwr (fun p => { p with target := some s.aimPoint })).setRate
  else if s.paired && !s.pwr.pairFormed then
    if s.pwr.pairLost && s.pwr.pairLeader && decide (s.getF Reg.PWR_OP F.PWR_OP_VCONF < s.vcode s.aimPoint) then s.startWrite (s.vcode s.aimPoint)
    else s.setRate
  else if s.paired && !s.pwr.pairLeader then (s.setRate).emit (.pairMsg (.request (s.vcode s.aimPoint)))
  else if s.paired then s.avsLead
  else if s.stands (s.vcode s.aimPoint) then (s.onPwr (fun p => { p with target := none })).setRate
  else s.startWrite (s.vcode s.aimPoint)

/-- VT_RECOMPUTE: every 10 ms V_T and PWR_VSET are recomputed, and the supply aims anew (R75, R77). (DESIGN CHOICE, log entry 10.) -/
def execVtRecompute (s : State) : Res :=
  .next (if s.coreOff then s else (s.setReg Reg.PWR_VSET (vsetWord s.vtCode)).avsAim)

/-- The voltage of a step-down is confirmed, or needs no write: the 10 ms of R80 run from here. -/
def State.stepConfirmed (s : State) : State :=
  if s.pwr.stepWait && s.pwr.writing.isNone && s.pwr.target.isNone then s.onPwr (fun p => { p with stepWait := false, sinceConfirm := 0 }) else s

/-- A request that was queued behind a voltage write, or while S6 ran, is acted on (R77, R53). -/
def State.takeTarget (s : State) : State :=
  if s.pwr.target.isSome && !s.inS6 then (s.onPwr (fun p => { p with target := none })).avsAim else s

/-- AVS_VOLTAGE_CONFIRMED: every regulator in use acknowledged and shows VDone (R77, R78). (DEDUCED, log entry 20.) -/
def execAvsVoltageConfirmed (s : State) : Res :=
  match s.pwr.writing with
  | none => .next s
  | some (_, v, _) =>
    let s := s.setF Reg.PWR_OP F.PWR_OP_VCONF v
    let s := s.onPwr (fun p => { p with writing := none, confirmed := true, partnerRate := v, unsure := none })
    let s := s.setRate
    let s := if s.paired && s.pwr.pairFormed then s.emit (.pairMsg (.confirm v)) else s
    let s := s.setReady 3
    .next s.takeTarget.stepConfirmed

/-- PWR_AVS_TIMEOUT: no acknowledge and VDone in time; the write is repeated, or the timeout is recorded, the rate stays at the lower point
until a voltage is confirmed, and a queued request is acted on (R77). S6 of start-up does not repeat its write (R53). -/
def execPwrAvsTimeout (s : State) : Res :=
  match s.pwr.writing with
  | none => .next s
  | some (n, v, tries) =>
    if tries ≠ 0 ∧ !(s.rst.starting && !s.rst.stepsDone.contains 6) then
      .next ((s.onPwr (fun p => { p with writing := some (n, v, tries - 1) })).avsSend v)
    else
      let s := s.onPwr (fun p => { p with writing := none, unsure := some (min v (p.unsure.getD v)) })
      let s := (s.setF Reg.PWR_AVS_FLT F.PWR_AVS_FLT_TIMEOUT 1).setRate
      .next (s.event Ev.PWR_AVS_TIMEOUT []).takeTarget

/-! ## Regulator faults (R80) -/

/-- Step down one point: LIMIT goes to the point below CUR, the rate first, then the voltage; a pair's leader steps both (R80). -/
def State.stepDown (s : State) : State :=
  let lim := s.getF Reg.PWR_OP F.PWR_OP_CUR - 1
  let s := s.setF Reg.PWR_OP F.PWR_OP_LIMIT lim
  let s := s.setF Reg.PWR_OP F.PWR_OP_CUR (min (s.getF Reg.PWR_OP F.PWR_OP_CUR) lim)
  let s := if s.paired && s.pwr.pairFormed && s.pwr.pairLeader then s.emit (.pairMsg (.stepDown (Fin.ofNat 4 lim))) else s
  (s.avsAim.onPwr (fun p => { p with stepWait := true })).stepConfirmed

/-- Whether the device reads regulators: those of its own buses, from S6 on; in a pair the leader's alone (R78, R80). -/
def State.readsRegs (s : State) : Bool := s.avsOpen && !s.noAvs && (!s.paired || s.pwr.pairLeader)

/-- REG_STATUS_READ: every 1 ms the status of each regulator in use is read (R80). A fault steps down when it appears, and again when it is
still read 10 ms after the step's voltage is confirmed. The 100 ms of the alarm run at OP0, and while the write of a step has timed out. A
device that reads no regulator, as a pair's follower, counts the time since its leader last told it of a fault. (DEDUCED, log entry 131.) -/
def execRegStatusRead (sts : RegulatorStatus) (s : State) : Res :=
  let o := s
  let mfr := (sts.mfr.toNat &&& s.getF Reg.PWR_AVS_CFG F.PWR_AVS_CFG_MFR_MASK) ≠ 0
  let fault := sts.ocw || sts.uvw || sts.otw || decide mfr
  let s := if sts.ocw then s.setF Reg.PWR_AVS_FLT F.PWR_AVS_FLT_OCW 1 else s
  let s := if sts.uvw then s.setF Reg.PWR_AVS_FLT F.PWR_AVS_FLT_UVW 1 else s
  let s := if sts.otw then s.setF Reg.PWR_AVS_FLT F.PWR_AVS_FLT_OTW 1 else s
  let s := if mfr then s.setF Reg.PWR_AVS_FLT F.PWR_AVS_FLT_MFR 1 else s
  let was := s.pwr.regFault
  let s := s.onPwr (fun p => { p with
    regFault := fault
    sinceConfirm := p.sinceConfirm + 1
    cleanMs := if fault then 0 else p.cleanMs + 1
    op0FaultMs := if fault ∧ (s.getF Reg.PWR_OP F.PWR_OP_CUR = 0 ∨ (p.stepWait ∧ p.unsure.isSome)) then p.op0FaultMs + 1 else 0 })
  if o.coreOff then .next o
  else if !o.readsRegs then .next (o.onPwr (fun p => { p with cleanMs := p.cleanMs + 1 }))
  else if !fault then .next s
  else
    let s := if !was then
        (s.event Ev.PWR_REG_FAULT []).stepDown
      else if s.pwr.stepWait = false ∧ 10 ≤ s.pwr.sinceConfirm ∧ s.getF Reg.PWR_OP F.PWR_OP_CUR ≠ 0 then s.stepDown
      else s
    .next (if s.pwr.op0FaultMs = 100 then s.alarm 1 [] else s)

/-- A write of PWR_AVS_FLT.RELEASE = 1 lifts the fault limit after 1,000 ms without a fault (R80). -/
def State.releaseLimit (s : State) (v : Word) : State :=
  if fieldOf F.PWR_AVS_FLT_RELEASE v ≠ 1 then s
  else if 1000 ≤ s.pwr.cleanMs then (s.setF Reg.PWR_OP F.PWR_OP_LIMIT 3).avsAim
  else s.event Ev.PWR_RELEASE_EARLY []

/-- The W1C bits of PWR_AVS_FLT that `v` clears (R7). They clear also in a write whose RELEASE comes too early: R80 drops that write, and it
does not say whether its other bits fall with it. (DESIGN CHOICE, log entry 129.) -/
def State.clearFlt (s : State) (v : Word) : State :=
  s.setReg Reg.PWR_AVS_FLT (word ((bitsOf v.toNat 6).foldl clearBit (s.reg Reg.PWR_AVS_FLT).toNat))

/-- PWR_AVS_RELEASE: a write of PWR_AVS_FLT with RELEASE = 1 (R80). -/
def execPwrAvsRelease (v : Word) (s : State) : Res := .next (s.viaHst (fun s => (s.clearFlt v).releaseLimit v))

/-! ## Regulator pairs (R78, R79) -/

/-- The pair forms: the partner with the lower role number leads; each sends its requested voltage, and the first merged voltage is still to
be confirmed (R78, R79). A formed pair whose roles come to lie the other way round forms anew. (DEDUCED, log entry 32.) -/
def State.formPair (s : State) (partnerRole : Nat) : State :=
  let lead := decide (s.role < partnerRole)
  if !s.paired || (s.pwr.pairFormed && s.pwr.pairLeader == lead) then s
  else
    let vc := s.getF Reg.PWR_OP F.PWR_OP_VCONF
    let s := s.onPwr (fun p => { p with
      pairFormed := true, pairLeader := lead, pairLost := false, confirmed := false, partnerReq := 0, partnerRate := vc, promised := none })
    (s.setRate.emit (.pairMsg (.request (s.vcode s.aimPoint)))).signal 262

/-- The pair link goes down (R79): PAIR_LOST, the event, and on the follower the OP0 rate and AVS cleared. (DEDUCED, log entry 32.) -/
def State.losePair (s : State) : State :=
  if !s.pwr.pairFormed then s
  else
    let s := s.onPwr (fun p => { p with pairFormed := false, pairLost := true, partnerReq := 0, promised := none, target := none })
    let s := s.setF Reg.PWR_AVS_FLT F.PWR_AVS_FLT_PAIR_LOST 1
    let s := ((s.event Ev.PWR_PAIR_LOST []).signal 262).setRate
    if s.pwr.pairLeader then s else s.clearReady 3

/-- PAIR: a message on the pair link (R78, R80). A follower that hears the leader confirm a voltage knows where the net stands. A follower that has
promised the rate of a lower voltage keeps it until the voltage is confirmed; a step-down never raises LIMIT. (DEDUCED, log entry 32.) -/
def execPair (m : PairMsg) (s : State) : Res :=
  if !s.pwr.pairFormed then .next s
  else match m with
  | .request code => .next (if s.pwr.pairLeader then (s.onPwr (fun p => { p with partnerReq := code })).avsAim else s)
  | .rate code =>
    if s.pwr.pairLeader then .next ((s.onPwr (fun p => { p with partnerRate := code })).avsAim)
    else .next (((s.onPwr (fun p => { p with promised := some code })).setRate).emit (.pairMsg (.rate code)))
  | .confirm code =>
    if s.pwr.pairLeader then .next s
    else
      let s := (s.setF Reg.PWR_OP F.PWR_OP_VCONF code).onPwr (fun p => { p with confirmed := true, promised := none, unsure := none })
      .next (s.setRate.setReady 3)
  | .stepDown limit =>
    if s.pwr.pairLeader then .next s
    else .next ((s.onPwr (fun p => { p with cleanMs := 0 })).setF Reg.PWR_OP F.PWR_OP_LIMIT
      (min limit.val (s.getF Reg.PWR_OP F.PWR_OP_LIMIT))).avsAim

end Sys2Proof.Machine
end

