-- ==== Sys2Proof/Machine/Batten.lean ====
section
/-! DEFINITION. Column drivers: geometry (R352 to R356), training (R363), the status back-channel (R364 to R366), driver commands
(R376) and the fault mask (R286, R365, R393). -/

namespace Sys2Proof.Machine

/-- BAT_DSTAT of driver g = 12h + j (R373). -/
def dstat (g : Nat) : Nat := Reg.BAT_DSTAT (g / 12) (g % 12)
/-- BAT_DMAP of driver g. -/
def dmap (g : Nat) : Nat := Reg.BAT_DMAP (g / 12) (g % 12)

/-- Drivers used in each half (R354): those that the next training takes (R374). -/
def State.nDrv (s : State) : Nat := s.getF Reg.BAT_CFG F.BAT_CFG_NDRV
/-- The codes a driver takes per row: O = 3W / D (R354). -/
def State.drvOut (s : State) : Nat := 3 * s.getF Reg.SCN_GEOM F.SCN_GEOM_WIDTH / max 1 s.nDrv

/-- Whether half `h` is in use: the lower half when HEIGHT exceeds 768 (R384). -/
def State.halfUsed (s : State) (h : Nat) : Bool := h == 0 || decide (768 < s.getF Reg.SCN_GEOM F.SCN_GEOM_HEIGHT)

/-- The drivers enabled for the next training: slots 0 to D - 1 of each half in use (R363, R374). -/
def State.drivers (s : State) : List Nat :=
  (List.range 24).filter (fun g => decide (g % 12 < s.nDrv) && s.halfUsed (g / 12))

/-- The state of driver g (R375). -/
def State.drvState (s : State) (g : Nat) : Nat := s.getF (dstat g) F.BAT_DSTAT_STATE
def State.setDrvState (s : State) (g n : Nat) : State := s.setF (dstat g) F.BAT_DSTAT_STATE n

/-- The drivers whose reset is released: those that the last training took (R374, R375). -/
def State.trained (s : State) : List Nat := (List.range 24).filter (fun g => s.drvState g != 0)

/-- ACTIVE or DEGRADED (R376, R386). (DEDUCED, log entry 93.) -/
def State.drvUp (s : State) (g : Nat) : Bool := s.drvState g == 2 || s.drvState g == 3

/-- The data items of a Batten event: half and driver (R380). -/
def drvItems (g : Nat) : List (Nat × Nat) := [(8, g / 12), (8, g)]

/-! ## Commands to a driver (R361, R376) -/

/-- Send the next command that waits, if none is outstanding: each driver has at most one (R361). -/
def State.pumpDrv (s : State) (g : Nat) : State :=
  let d := s.driver g
  match d.cmd, d.queue with
  | none, c :: rest =>
    let c := { c with tag := d.nextTag }
    let s := s.setDriver g { d with cmd := some c, queue := rest, nextTag := (d.nextTag + 1) % 256 }
    s.emit (.batCmd g (if c.write then 1 else 2) c.tag c.addr c.data)
  | _, _ => s

/-- Queue a command for driver g. -/
def State.sendDrv (s : State) (g : Nat) (write : Bool) (addr : Nat) (data : Word) (use : DrvUse) : State :=
  let d := s.driver g
  (s.setDriver g { d with queue := d.queue ++ [⟨write, addr, data, use, 0⟩] }).pumpDrv g

/-- The command outstanding has ended. -/
def State.endDrvCmd (s : State) (g : Nat) : State :=
  (s.setDriver g { s.driver g with cmd := none }).pumpDrv g

/-! ## Training (R363) -/

/-- MAP: [26:16] O, [10] REV, [9:0] FIRST (R377). -/
def mapWord (o rev first : Nat) : Word := word (o * 65536 + rev * 1024 + first)

/-- Start training driver g from step 1. A command outstanding still waits for its response or its 2 µs. Where its block stream lies against volume
time is not stated: a free value. (DESIGN CHOICE, log entry 135.) -/
def State.startTrain (s : State) (g : Nat) : State :=
  let (f, s) := s.free
  let m := mapWord s.drvOut (s.getF (dmap g) F.BAT_DMAP_REV) (s.getF (dmap g) F.BAT_DMAP_FIRST)
  let d := s.driver g
  let s := s.setDriver g { Driver.init with
    phase := 1, map := m, nextTag := d.nextTag, grid := f % 195
    cmd := d.cmd.filter (fun c => c.use != .train), queue := d.queue.filter (fun c => c.use != .train) }
  ((s.setDrvState g 1).recordBand (8 + g)).emit (.batTrain g)

/-- A driver fails training (R363). -/
def State.failTrain (s : State) (g : Nat) : State :=
  let d := s.driver g
  let s := s.setDriver g { d with phase := 0, cmd := d.cmd.filter (fun c => c.use != .train), queue := d.queue.filter (fun c => c.use != .train) }
  ((s.setDrvState g 4).pumpDrv g).event Ev.BAT_TRAIN_FAIL (drvItems g)

/-- BAT_TRAIN_TIMEOUT: TRAIN_TO passes before step 6 (R363). -/
def execBatTrainTimeout (g : Fin 24) (s : State) : Res :=
  .next (if s.drvState g = 1 then s.failTrain g else s)

/-! ## The panel sequencer's state (R383, R386, R388) -/

/-- Set the sequencer's state and step (R399). -/
def State.setSeq (s : State) (seq step : Nat) : State :=
  (s.setF Reg.SCN_PSTAT F.SCN_PSTAT_SEQ seq).setF Reg.SCN_PSTAT F.SCN_PSTAT_STEP step

def State.seq (s : State) : Nat := s.getF Reg.SCN_PSTAT F.SCN_PSTAT_SEQ
def State.seqStep (s : State) : Nat := s.getF Reg.SCN_PSTAT F.SCN_PSTAT_STEP

/-- The registers of group 35 that a sequence latches when it starts. -/
def panelRegs : List Nat :=
  (List.range 6).map Reg.SCN_PRAIL ++ [Reg.SCN_PSEQ, Reg.SCN_PCOL]

/-- Latch group 35 and the row time at the start of a sequence (R383). -/
def State.latchPanel (s : State) : State :=
  let l := panelRegs.map (fun o => (o, s.reg o))
  let t := s.getF Reg.GEN_ROWT F.GEN_ROWT_ROWT
  s.onPnl (fun p => { p with lat := l, rowT := t })

/-- The latched value of a register of group 35. -/
def State.latched (s : State) (off : Nat) : Word := aget (fun _ => 0) s.pnl.lat off

/-- Writes that follow every training: the driver's user trim (R506, R512) and, after a retraining, ILIM and DISCH as the sequence stands: HOLD is 1
until N7 and from F2 on (R384, R386, R392). The first training is followed by N5 itself. -/
def State.afterTrain (s : State) (g : Nat) : State :=
  let q := s.seq
  let k := s.seqStep
  let s := s.sendDrv g true 0x04 (word (s.getF (Reg.CAL_UDAC g) F.CAL_UDAC_TRIM)) .trim
  if q = 0 ∨ q = 4 ∨ (q = 1 ∧ k ≤ 4) then s
  else
    let hold := decide ((q = 1 ∧ k ≤ 6) ∨ (q = 3 ∧ 2 ≤ k))
    let s := s.sendDrv g true 0x02 (word (fieldOf F.SCN_PCOL_ILIM (s.latched Reg.SCN_PCOL))) .seq
    s.sendDrv g true 0x03 (word (fieldOf F.SCN_PCOL_DLEVEL (s.latched Reg.SCN_PCOL) + 256 * b2n hold)) .seq

/-- Driver g becomes ACTIVE (R363 step 6). -/
def State.drvActive (s : State) (g : Nat) : State :=
  let s := s.setDriver g { s.driver g with phase := 0, good := 0, lockMiss := 0, back := 0 }
  (s.setDrvState g 2).afterTrain g

/-- The device heads for state `n` (R70, R72). -/
def State.setTarget (s : State) (n : Nat) : State :=
  (s.setF Reg.PWR_STATE F.PWR_STATE_TRANS 1).setF Reg.PWR_STATE F.PWR_STATE_TARGET n

/-- Begin a power-off whose scan stops at the end of the frame period, or of the current slot, at once where none is scanned (R388). `cause` is the
LAST_FAIL value it records, 0 for a planned end. During a power-on the power-off follows it (R391). -/
def State.beginOff (s : State) (slot : Bool) (cause : Nat) : State :=
  let now := slot && s.hrt.scanSlot.isNone
  if s.seq = 2 then
    let s := (s.latchPanel.setSeq 3 1).setTarget 2
    s.onPnl (fun p => { p with
      scanning := p.scanning && !now, stopFrame := !slot, stopSlot := slot && !now, stopCause := cause, wantOn := false })
  else if s.seq = 1 then
    (s.setTarget 2).onPnl (fun p => { p with wantOff := true, stopCause := cause })
  else if s.seq = 3 then
    s.onPnl (fun p => { p with
      scanning := p.scanning && !now, stopSlot := p.stopSlot || (slot && p.scanning && !now), wantOn := false })
  else s

/-! ## The fault mask (R286, R365, R393) -/

/-- The response to FMASK_N rising above SHORT_MAX (R393): event, alarm, or alarm and power-off at the end of the frame period. -/
def State.shortPolicy (s : State) (old new : Nat) : State :=
  let lim := s.getF Reg.SCN_PROT F.SCN_PROT_SHORT_MAX
  if lim = 0 ∨ lim < old ∨ new ≤ lim then s
  else
    let pol := s.getF Reg.SCN_PROT F.SCN_PROT_SHORT_POL
    if pol = 0 then s.event Ev.PNL_SHORT_LIMIT []
    else
      let s := s.alarm 6 []
      if pol = 2 then s.beginOff false 6 else s

/-- Set fault-mask bit `m` (R286): a newly set bit raises DMU_COL_MASKED with the half and the subpixel column. -/
def State.setFmask (s : State) (m : Nat) : State :=
  if s.fmask.testBit m then s
  else
    let n := s.getF Reg.DMU_STAT F.DMU_STAT_FMASK_N
    let s := { s with fmask := setBit s.fmask m }
    let s := s.setF Reg.DMU_STAT F.DMU_STAT_FMASK_N (n + 1)
    (s.event Ev.DMU_COL_MASKED [(8, m / 12288), (16, m % 12288)]).shortPolicy n (n + 1)

/-- Map a reported output to a fault-mask bit (R365); none when the output lies outside the driver's O. -/
def shortBit (g : Nat) (map : Word) (o : Nat) : Option Nat :=
  let n := map.toNat / 65536 % 2048
  let rev := bit map.toNat 10
  let first := map.toNat % 1024
  let i : Int := if rev then (first : Int) + n - 1 - o else (o : Int) - first
  if 0 ≤ i ∧ i < n then some (12288 * (g / 12) + n * (g % 12) + i.toNat) else none

/-- A STATUS frame with SHORT = 1 (R365). -/
def State.takeShort (s : State) (g o : Nat) : State :=
  match shortBit g (s.driver g).map o with
  | some m => s.setFmask m
  | none => s.event Ev.BAT_SHORT_UNMAPPED (drvItems g)

/-! ## The back-channel (R364, R366) -/

/-- A valid frame of a DEGRADED driver; four bring it back to ACTIVE (R366). -/
def State.frameBack (s : State) (g : Nat) : State :=
  if s.drvState g ≠ 3 then s
  else
    let n := (s.driver g).back + 1
    if 4 ≤ n then
      ((s.setDriver g { s.driver g with back := 0, lockMiss := 0 }).setDrvState g 2).event Ev.BAT_ST_BACK (drvItems g)
    else s.setDriver g { s.driver g with back := n }

/-- Training progress on a valid STATUS frame (R363 steps 2 to 5). -/
def State.trainStatus (s : State) (g : Nat) (lock : Bool) : State :=
  let d := s.driver g
  if d.phase = 1 then
    if 3 ≤ d.good then s.setDriver g { d with phase := 2, good := 0 } else s.setDriver g { d with good := d.good + 1 }
  else if d.phase = 2 then
    if !lock then s.setDriver g { d with good := 0 }
    else if 3 ≤ d.good then
      ((s.setDriver g { d with phase := 3, good := 0 }).emit (.batStart g)).sendDrv g true 0x01 d.map .train
    else s.setDriver g { d with good := d.good + 1 }
  else s

/-- LOCK = 0 in two consecutive STATUS frames of an ACTIVE driver: that driver alone is retrained (R366). -/
def State.watchLock (s : State) (g : Nat) (lock : Bool) : State :=
  if s.drvState g ≠ 2 then s
  else if lock then s.setDriver g { s.driver g with lockMiss := 0 }
  else if (s.driver g).lockMiss = 0 then s.setDriver g { s.driver g with lockMiss := 1 }
  else
    let s := s.bump (Reg.BAT_CNT_RETRAIN (g / 12)) 1
    (s.event Ev.BAT_DRV_UNLOCK (drvItems g)).startTrain g

/-- BAT_STATUS_FRAME (R364 to R366): every driver out of reset is heard, in training and FAILED as well. -/
def execBatStatusFrame (g : Fin 24) (f : BatStatus) (s : State) : Res :=
  if s.drvState g = 0 then .next s
  else if !f.valid then
    let s := s.bump (Reg.BAT_CNT_STCRC (g.val / 12)) 1
    .next (if (s.driver g).phase = 1 then s.setDriver g { s.driver g with good := 0 } else s)
  else
    let s := s.setDriver g { s.driver g with temp := some (toSigned 16 f.temp.toNat), fresh := true }
    let s := s.setF (dstat g) F.BAT_DSTAT_LOCK (b2n f.lock)
    let s := s.setF (dstat g) F.BAT_DSTAT_SHORT_N f.shortN.toNat
    let s := if f.short then s.setF (dstat g) F.BAT_DSTAT_SHORT_LAST f.shortOut.toNat else s
    let s := if f.rowCrc then (s.bump (Reg.BAT_CNT_ROWCRC (g.val / 12)) 1).event Ev.BAT_ROW_CRC (drvItems g) else s
    let s := if f.blkErr then (s.bump (Reg.BAT_CNT_BLKERR (g.val / 12)) 1).event Ev.BAT_BLKERR (drvItems g) else s
    let s := s.frameBack g
    let s := if f.short then s.takeShort g f.shortOut.toNat else s
    .next ((s.trainStatus g f.lock).watchLock g f.lock)

/-- BAT_ST_LOST: no valid frame for 2 µs (R366). -/
def execBatStLost (g : Fin 24) (s : State) : Res :=
  if s.drvState g = 2 then
    .next (((s.setDriver g { s.driver g with back := 0 }).setDrvState g 3).event Ev.BAT_ST_LOST (drvItems g))
  else .next s

/-! ## Host commands (R376) -/

/-- The end of a host command: BUSY clears, RESULT and data are set. -/
def State.endBatCmd (s : State) (result : Nat) (data : Option Word) : State :=
  let s := s.setF Reg.BAT_CMDST F.BAT_CMDST_BUSY 0
  let s := s.setF Reg.BAT_CMDST F.BAT_CMDST_RESULT result
  match data with
  | some w => s.setReg Reg.BAT_CMDRD w
  | none => s

/-- Driver g is held in reset: it reads OFF, and a host command to it ends without a response (R366, R375, R376). -/
def State.driverOff (s : State) (g : Nat) : State :=
  let d := s.driver g
  let host := (d.cmd.toList ++ d.queue).any (fun c => c.use == .host)
  let s := (s.setDrvState g 0).setDriver g { Driver.init with nextTag := d.nextTag }
  if host then (s.event Ev.BAT_CMD_FAIL (drvItems g)).endBatCmd 4 none else s

/-- A write of BAT_CMD (R376). -/
def State.writeBatCmd (s : State) (v : Word) : State :=
  let g := fieldOf F.BAT_CMD_DRV v
  let wr := fieldOf F.BAT_CMD_WRITE v == 1
  let addr := fieldOf F.BAT_CMD_ADDR v
  if s.flag Reg.BAT_CMDST F.BAT_CMDST_BUSY then s.event Ev.BAT_CMD_FAIL (drvItems g)
  else if fieldOf F.BAT_CMD_GO v = 0 then s
  else if 24 ≤ g then s.endBatCmd 1 none
  else if !s.drvUp g then s.endBatCmd 5 none
  else if wr ∧ addr = 1 then s.endBatCmd 2 none
  else
    (s.setF Reg.BAT_CMDST F.BAT_CMDST_BUSY 1).sendDrv g wr addr (if wr then s.reg Reg.BAT_CMDDATA else 0) .host

/-- BAT_CMD_WRITE: GO and WRITE (R376). -/
def execBatCmdWrite (v : Word) (s : State) : Res :=
  let v := withField F.BAT_CMD_WRITE 1 (withField F.BAT_CMD_GO 1 v)
  .next (s.viaReg Reg.BAT_CMD v (fun s => s.writeBatCmd v))

/-- BAT_CMD_READ: GO without WRITE (R376). -/
def execBatCmdRead (v : Word) (s : State) : Res :=
  let v := withField F.BAT_CMD_WRITE 0 (withField F.BAT_CMD_GO 1 v)
  .next (s.viaReg Reg.BAT_CMD v (fun s => s.writeBatCmd v))

/-- Training continues on a CMD_RESP (R363 step 5). -/
def State.trainResp (s : State) (g : Nat) (f : BatResp) : State :=
  let d := s.driver g
  if f.result ≠ 0 then s.failTrain g
  else if d.phase = 3 then ((s.setDriver g { d with phase := 4, cmd := none })).sendDrv g false 0x00 0 .train
  else if d.phase = 4 then
    if f.data.toNat % 65536 = 0x1024 then (s.setDriver g { d with phase := 5, cmd := none }).sendDrv g false 0x01 0 .train
    else s.failTrain g
  else if d.phase = 5 then
    if f.data = d.map then (s.setDriver g { d with cmd := none }).drvActive g else s.failTrain g
  else s

end Sys2Proof.Machine
end

