-- ==== Sys2Proof/Machine/Protect.lean ====
section
/-! DEFINITION. Panel outputs, the emergency discharge, thermal shutdown and the crack loop (R388, R389, R394, R395, R51). -/

namespace Sys2Proof.Machine

/-! ## Panel outputs (R34, R384, R399) -/

/-- The outputs that the panel sequencer drives, beside PNL_ENn: name of output n without the half. -/
def panelPin (n : Nat) : String :=
  ["AGO_A", "AGO_B", "DIS_A", "DIS_B", "RST_A", "RST_B"].getD n ""

/-- The output that serves as output `n` of `panelPin`: LTH_CFG.SWAP exchanges the edges (R368). (DEDUCED, log entry 94.) -/
def State.panelBall (s : State) (n : Nat) : String :=
  panelPin (if s.flag Reg.LTH_CFG F.LTH_CFG_SWAP then (if n % 2 = 0 then n + 1 else n - 1) else n)

/-- Drive the Lath output `n` of every half in use; the outputs of a half that is not in use stay low (R384). -/
def State.setPanelPin (s : State) (n : Nat) (b : Bool) : State :=
  if s.pnl.pins.testBit n = b then s
  else
    let s := s.onPnl (fun p => { p with pins := if b then setBit p.pins n else clearBit p.pins n })
    let s := s.emit (.pin ("LTH_U_" ++ s.panelBall n) b)
    if s.halfUsed 1 then s.emit (.pin ("LTH_L_" ++ s.panelBall n) b) else s

/-- Drive several panel outputs. -/
def State.setPanelPins (s : State) (l : List (Nat × Bool)) : State := l.foldl (fun s e => s.setPanelPin e.1 e.2) s

/-- BAT_RST_U_N and BAT_RST_L_N; bit 6 of the record is the upper, bit 7 the lower output. The drivers of a half held in reset read OFF (R375). -/
def State.setBatRst (s : State) (b : Bool) : State :=
  [0, 1].foldl (fun s h =>
    if s.pnl.pins.testBit (6 + h) = b ∨ (b = true ∧ s.halfUsed h = false) then s
    else
      let s := s.onPnl (fun p => { p with pins := if b then setBit p.pins (6 + h) else clearBit p.pins (6 + h) })
      let s := if b then s else (List.range 12).foldl (fun s j => s.driverOff (12 * h + j)) s
      s.emit (.pin (if h = 0 then "BAT_RST_U_N" else "BAT_RST_L_N") b)) s

/-- Drive PNL_ENn (R399: SCN_PSTAT.EN). -/
def State.setRail (s : State) (n : Nat) (b : Bool) : State :=
  let e := s.getF Reg.SCN_PSTAT F.SCN_PSTAT_EN
  if e.testBit n = b then s
  else (s.setF Reg.SCN_PSTAT F.SCN_PSTAT_EN (if b then setBit e n else clearBit e n)).emit (.pin ("PNL_EN" ++ toString n) b)

/-- The level of PNL_PGn as last seen (R399: SCN_PSTAT.PG). -/
def State.setPg (s : State) (n : Nat) (b : Bool) : State :=
  let e := s.getF Reg.SCN_PSTAT F.SCN_PSTAT_PG
  s.setF Reg.SCN_PSTAT F.SCN_PSTAT_PG (if b then setBit e n else clearBit e n)

/-- Every panel output at its off level: F6 of R386. -/
def State.panelOutputsOff (s : State) : State :=
  (s.setBatRst false).setPanelPins ((List.range 6).map (fun n => (n, false)))

/-- Write DISCH with discharge level `level` and HOLD = 1 to every driver that is ACTIVE or DEGRADED (R386, R389, R392). -/
def State.sendDisch (s : State) (level : Nat) : State :=
  s.trained.foldl (fun s g => if s.drvUp g then s.sendDrv g true 0x03 (word (level % 256 + 256)) .seq else s) s

/-- The Batten domains and half-pipes go off, and every driver reads OFF (R72, R375). -/
def State.panelDomainsOff (s : State) : State :=
  let s := (List.range 24).foldl (fun s g => s.driverOff g) s
  [15, 16, 18, 19].foldl (fun s d => s.setDomain d false) s

/-- The device is in STANDBY and no transition runs (R70, R72); vector 260. -/
def State.arriveStandby (s : State) : State :=
  let s := s.panelDomainsOff
  let s := s.setF Reg.PWR_STATE F.PWR_STATE_CUR 2
  let s := s.setF Reg.PWR_STATE F.PWR_STATE_TARGET 2
  let s := s.setF Reg.PWR_STATE F.PWR_STATE_TRANS 0
  s.signal 260

/-! ## Thermal shutdown (R51) -/

/-- Thermal shutdown: every domain but AON and TMK off, the alarm, GBL_RESET_CAUSE.THERMAL; every ready bit clears (R51, R57). -/
def State.shutDown (s : State) : State :=
  let s := s.alarm 9 []
  let s := s.setF Reg.GBL_RESET_CAUSE F.GBL_RESET_CAUSE_THERMAL 1
  let s := (List.range 18).foldl (fun s b => s.clearReady b) s
  let s := s.setF Reg.THM_STAT F.THM_STAT_STEP 0
  s.coreDown.onRst (fun r => { r with shutdown := true, shutdownDue := false })

/-! ## Emergency discharge (R388, R389) -/

/-- The trigger of an emergency discharge, coded as SCN_PSTAT.LAST_FAIL (R399). -/
def emergCode : EmergCause → Nat
  | .pgLost _ => 2
  | .pfail => 3
  | .vddIo => 4
  | .crack => 5
  | .thermal => 8

/-- Start the emergency discharge: the scan stops at once, AGO_B rises and DISCH with HOLD = 1 goes to every driver, unless F2 or N5 has written it
and nothing has undone it (R391); nor does AGO_A rise again where F3 has run. Its LEVEL is not stated, as the discharge does not use group 35: a free
value. (DEDUCED, log entry 27; DESIGN CHOICE, log entry 135.) -/
def State.beginEmerg (s : State) (cause : Nat) : State :=
  if s.seq = 0 ∨ s.seq = 4 then s
  else
    let off := decide (s.seq = 3) && !s.pnl.aborted
    let held := (off && decide (2 ≤ s.seqStep)) || decide (s.seq = 1 ∧ (s.seqStep = 5 ∨ s.seqStep = 6))
    let skip := off && decide (4 ≤ s.seqStep)
    let s := s.onPnl (fun p => { p with
      scanning := false, stopFrame := false, stopSlot := false, wantOn := false, wantOff := false, todo := [], inDelay := false
      emerg := cause, emergStep := 0, emergSkip := skip })
    let s := (((s.setSeq 4 0).setTarget 2).dropHeading).setPanelPin 1 true
    if held then s
    else
      let (l, s) := s.free
      s.sendDisch l

/-- Thermal shutdown begins: the emergency discharge first, if any rail is on (R51). (DEDUCED, log entry 27.) -/
def State.thermalShutdown (s : State) : State :=
  if s.rst.shutdown then s
  else if s.seq = 0 then s.shutDown
  else (s.onRst (fun r => { r with shutdownDue := true })).beginEmerg 8

/-- An event of R388 that starts the emergency discharge. While a reset is applied the panel's inputs are ignored (R41).
(DEDUCED, log entry 27.) -/
def State.emergTrigger (s : State) (cause : EmergCause) : State :=
  if s.rst.applying.isSome then s
  else match cause with
  | .pgLost n =>
    if bit (s.getF Reg.SCN_PSTAT F.SCN_PSTAT_EN) n && bit (s.getF Reg.SCN_PSTAT F.SCN_PSTAT_PG) n then
      (s.setPg n false).beginEmerg 2
    else s
  | .pfail => (s.setF Reg.SCN_PSTAT F.SCN_PSTAT_PFAIL 1).beginEmerg 3
  | .thermal => s.thermalShutdown
  | c => s.beginEmerg (emergCode c)

/-! ## Crack loop (R394, R395) -/

def State.crackPol (s : State) : Nat := s.getF Reg.SCN_PROT F.SCN_PROT_CRACK_POL

/-- CRACK_POL acts while the loop is HIGH or OPEN (R395). In N1 a policy that refuses the power-on acts as the end of N1 has it (R385). -/
def State.crackPolicy (s : State) : State :=
  let st := s.getF Reg.SCN_CRACK F.SCN_CRACK_STATE
  if st = 0 ∨ s.crackPol = 0 ∨ (s.seq = 1 ∧ s.seqStep = 1 ∧ 2 ≤ s.crackPol) then s
  else
    let s := s.alarm (if st = 1 then 4 else 5) []
    if s.crackPol = 2 then s.beginOff false 5
    else if s.crackPol = 3 then s.beginEmerg 5
    else s

/-- Entry to loop state HIGH (1) or OPEN (2). The alarm of a policy other than NONE carries the event (R395, R573). -/
def State.enterCrack (s : State) (st : Nat) : State :=
  let s := s.setF Reg.SCN_CRACK F.SCN_CRACK_STATE st
  (s.bump Reg.SCN_CNT_CRACK 1).crackPolicy

/-- A commit that changes CRACK_POL (R395): from NONE the loop starts from OK, otherwise the new policy acts at once. -/
def State.crackPolChanged (s : State) (old : Nat) : State :=
  if s.crackPol = old then s
  else if old = 0 then
    (s.setF Reg.SCN_CRACK F.SCN_CRACK_STATE 0).onPnl (fun p => { p with crackHigh := 0, crackOpen := 0, crackOk := 0 })
  else s.crackPolicy

/-- Whether a CALREF step runs, so that measurements are deferred (R498). -/
def State.calrefBusy (s : State) : Bool :=
  match s.cal.run with
  | some r => r.step == 1 || r.step == 3 || (r.step == 4 && r.arg == 0)
  | none => false

/-- A measurement begins: CRACK_FORCE drives 100 µA or 1 mA (R394). -/
def State.crackStart (s : State) : State :=
  let i := if s.flag Reg.SCN_PROT F.SCN_PROT_IFORCE then 1000 else 100
  (s.onPnl (fun p => { p with measuring := true, force := i })).emit (.crackForce i)

/-- CRACK_MEASURE: a measurement falls due (R394); during a CALREF step it is deferred (R498). -/
def execCrackMeasure (s : State) : Res :=
  let cur := s.getF Reg.PWR_STATE F.PWR_STATE_CUR
  if s.crackPol = 0 ∨ s.pnl.measuring ∨ 2 < cur ∨ s.pwr.dormant then .next s
  else if s.calrefBusy then .next (s.onCal (fun c => { c with deferred := true }))
  else .next s.crackStart

/-- The reading in 0.1 Ω at a current of `i` µA: 0xF_FFFF when the loop is open, or when the voltage across it lies above 1.60 V (R394, R399). -/
def crackOhms (i : Nat) : CrackReading → Nat
  | .ohms t => if 16000000 < t.toNat * i then 0xFFFFF else t.toNat
  | .opened => 0xFFFFF

/-- 0: at or below RLIM; 1: above RLIM and not open; 2: open. -/
def crackKind (s : State) (r : CrackReading) : Nat :=
  let t := crackOhms s.pnl.force r
  if t = 0xFFFFF then 2 else if 10 * s.getF Reg.SCN_PROT F.SCN_PROT_RLIM < t then 1 else 0

/-- The counts of R395 after a reading, and the loop state they lead to. -/
def State.countCrack (s : State) (k : Nat) : State :=
  let s := s.onPnl (fun p => { p with
    crackOk := if k = 0 then p.crackOk + 1 else 0
    crackHigh := if k = 1 then p.crackHigh + 1 else 0
    crackOpen := if k = 2 then p.crackOpen + 1 else 0 })
  let st := s.getF Reg.SCN_CRACK F.SCN_CRACK_STATE
  if k = 0 ∧ 3 ≤ s.pnl.crackOk ∧ st ≠ 0 then
    (s.setF Reg.SCN_CRACK F.SCN_CRACK_STATE 0).event Ev.PNL_CRACK_OK []
  else if k = 1 ∧ 3 ≤ s.pnl.crackHigh ∧ st ≠ 1 then s.enterCrack 1
  else if k = 2 ∧ 2 ≤ s.pnl.crackOpen ∧ st ≠ 2 then s.enterCrack 2
  else s

/-- A measurement ends (R395). One of step N1 decides that check alone, as the last of the required count. -/
def State.crackEnd (s : State) (r : CrackReading) : State :=
  if !s.pnl.measuring then s
  else
    let k := crackKind s r
    let s := (s.onPnl (fun p => { p with measuring := false })).emit (.crackForce 0)
    let s := s.setF Reg.SCN_CRACK F.SCN_CRACK_VALID 1
    let s := s.setF Reg.SCN_CRACK F.SCN_CRACK_OHMS (crackOhms s.pnl.force r)
    let s := if s.seq = 1 ∧ s.seqStep = 1 then
        s.onPnl (fun p => { p with
          n1Measured := true, n1Bad := k, crackOk := max 2 p.crackOk, crackHigh := max 2 p.crackHigh, crackOpen := max 1 p.crackOpen })
      else s
    s.countCrack k

end Sys2Proof.Machine
end

