-- ==== Sys2Proof/Machine/Links.lean ====
section
/-! DEFINITION. Rafter ports and Ridge links: bring-up, capability exchange, recovery, sequence numbers, acknowledgement, replay, credit and
loopbacks (R138 to R172, R515 to R517). Links 0 to 3 are RF0 to RF3; 4 to 7 are the Ridge links N, E, S, W. -/

namespace Sys2Proof.Machine

/-! ## Registers of a link (R165, R540) -/

/-- RAF_PST or RDG_PST of link q; the other offsets of the bank are taken from its base. -/
def lkPst (q : Nat) : Nat := lkBase q + 0x10
def lkLlst (q : Nat) : Nat := lkBase q + 0x14
def lkLlcr (q : Nat) : Nat := lkBase q + 0x18

/-- The state of link q (R169). -/
def State.lkState (s : State) (q : Nat) : Nat := s.getF (lkPst q) F.RAF_PST_STATE

/-- Put link q in state `n`; a training, from DETECT or in RECOVERY, selects the VCO band afresh (R485). -/
def State.setLkState (s : State) (q n : Nat) : State :=
  let t := s.setF (lkPst q) F.RAF_PST_STATE n
  if (n = 2 ∨ n = 6) ∧ s.lkState q ≠ 2 ∧ s.lkState q ≠ 3 then t.recordBand q else t

/-- LANE_EN: four lanes on a Rafter port, two on a Ridge link. -/
def State.laneEn (s : State) (q : Nat) : Nat :=
  if q < 4 then s.getF (lkBase q) F.RAF_PCFG_LANE_EN else s.getF (lkBase q) F.RDG_LCFG_LANE_EN

/-- The width that MIN_WIDTH names (R166). -/
def State.minWidth (s : State) (q : Nat) : Nat := 2 ^ s.getF (lkBase q) F.RAF_PCFG_MIN_WIDTH

def State.lkEnabled (s : State) (q : Nat) : Bool := s.flag (lkBase q) F.RAF_PCFG_EN

/-- The event of link q: the codes of the RAF and RDG blocks run in parallel (R172, R542). -/
def linkEv (q rafCode : Nat) : Nat := if q < 4 then rafCode else rafCode + 0x100

/-- Raise link q's event, carrying the port or link number. -/
def State.lkEvent (s : State) (q rafCode : Nat) : State := s.event (linkEv q rafCode) [(8, q % 4)]

/-- Flits of the receive buffer, and the device's REPLAY_DEPTH (R150, R157, R515, R516). -/
def rxDepth (q : Nat) : Nat := if q < 4 then 128 else 32
def replayDepth (q : Nat) : Nat := if q < 4 then 1024 else 256

/-- E, the next sequence number expected, and the next new sequence number (R170). -/
def State.rxNext (s : State) (q : Nat) : Nat := s.getF (lkLlst q) F.RAF_LLST_RX_NEXT
def State.txNext (s : State) (q : Nat) : Nat := s.getF (lkLlst q) F.RAF_LLST_TX_NEXT

/-- RAF_LLCR.TX_OUT follows the outstanding flits. -/
def State.syncTxOut (s : State) (q : Nat) : State :=
  s.setF (lkLlcr q) F.RAF_LLCR_TX_OUT (ceilDiv (s.link q).out.length 8)

/-! ## Ridge links that come and go (R78, R79, R517) -/

/-- The link toward the regulator partner (R46). -/
def State.pairLink (s : State) : Nat := 4 + s.getF Reg.GBL_STRAP F.GBL_STRAP_PAIR_LINK

/-- The role of the device at the other end, as it last announced it or else from its last CAP flit; 0xFF for none (R516, R525). -/
def State.partnerRole (s : State) (q : Nat) : Nat := ((s.link q).nbrRole).getD ((s.reg (lkBase q + 0x20)).toNat % 256)

/-- The pair forms once the link is ACTIVE, not isolated, and both devices hold a role (R78, R537). -/
def State.tryPair (s : State) : State :=
  let q := s.pairLink
  if s.paired && s.flag Reg.RDG_ROLE F.RDG_ROLE_VALID && s.ridgeUp (q - 4) && decide (s.partnerRole q < 64) then
    s.formPair (s.partnerRole q)
  else s

/-- A link leaves ACTIVE: a pair that used it is lost (R79). -/
def State.leftActive (s : State) (q : Nat) : State :=
  if q = s.pairLink then s.losePair else s

/-- Isolation of Ridge link q (R517, R625). -/
def State.isolation (s : State) (q : Nat) : Nat :=
  let l := q - 4
  let own := s.getF Reg.RDG_VCFG F.RDG_VCFG_VOLUME
  let theirs := match (s.link q).lastCap with
    | some c => c.volume.toNat
    | none => own
  let col := s.getF Reg.RDG_ROLE F.RDG_ROLE_COL
  let row := s.getF Reg.RDG_ROLE F.RDG_ROLE_ROW
  let want : Int × Int :=
    if l = 0 then ((col : Int), (row : Int) - 1) else if l = 1 then ((col : Int) + 1, (row : Int))
    else if l = 2 then ((col : Int), (row : Int) + 1) else ((col : Int) - 1, (row : Int))
  let wrongPort := s.getF (lkBase q + 0x24) F.RAF_PCAP_PORT != (l + 2) % 4
  let wrongRole := match (s.link q).nbr with
    | some (c, r) => s.flag Reg.RDG_ROLE F.RDG_ROLE_VALID && decide (want ≠ ((c : Int), (r : Int)))
    | none => false
  if wrongPort || wrongRole then 1
  else if own ≠ theirs ∧ own ≠ 0 ∧ theirs ≠ 0 then 2
  else 0

/-- Evaluate the isolation of an ACTIVE Ridge link; a new cause raises its event (R517). -/
def State.evalIso (s : State) (q : Nat) : State :=
  if q < 4 ∨ s.lkState q ≠ 5 then s
  else
    let iso := s.isolation q
    let off := Reg.RDG_LISO (q - 4)
    if iso = s.getF off F.RDG_LISO_ISO then s
    else
      let s := s.setF off F.RDG_LISO_ISO iso
      if iso = 1 then (s.event Ev.RDG_MISWIRED [(8, q - 4)]).leftActive q
      else if iso = 2 then (s.event Ev.RDG_FOREIGN [(8, q - 4)]).leftActive q
      else s.tryPair

/-! ## State changes (R146, R152) -/

/-- A packet decoder that has lost its place: it waits for a valid PKT_OFF (R152, R161). -/
def PktDecoder.lost : PktDecoder := { PktDecoder.init with wait := true }

/-- What a link-layer reset clears (R152): numbers, credit, buffers, and packets not received whole. Messages that wait to be sent go too
(DESIGN CHOICE, log entry 129), and the first credit is the partner's RX_CREDITS (R157). -/
def State.clearLink (s : State) (q : Nat) : State :=
  let s := (s.setReg (lkLlst q) 0).setReg (lkLlcr q) 0
  s.onLink q (fun k => { k with
    accepted := false, nakDue := false, nakFor := false, gap := false, naks := 0, badRun := 0, replays := 0, out := [], resend := []
    queue := [], limit := (k.lastCap.map (fun c => c.credits.toNat)).getD 0, fwd := 0, dec := .lost, decAt := .lost })

/-- A link-layer reset of a running link layer (R152). -/
def State.linkReset (s : State) (q : Nat) : State := (s.clearLink q).lkEvent q Ev.RAF_LINK_RESET

/-- Training starts anew: locks and capability exchange are cleared. -/
def State.clearTraining (s : State) (q : Nat) : State :=
  let s := s.setF (lkPst q) F.RAF_PST_LOCKED 0
  s.onLink q (fun k => { k with
    lanes := [], blocksLeft := 0, lastSeen := false, capPhase := false, lastCap := none, capPrev := false, capSeen := false
    capGot := false, capSent := 0, sawFlit := false })

/-- The port reaches DETECT or DISABLED after having been ACTIVE: DOWN is raised once (R172). -/
def State.lkDown (s : State) (q : Nat) : State :=
  if (s.link q).wasActive then
    let s := (s.onLink q (fun k => { k with wasActive := false, nbr := none, nbrRole := none })).lkEvent q Ev.RAF_DOWN
    let s := if 4 ≤ q then s.setF (Reg.RDG_LISO (q - 4)) F.RDG_LISO_ISO 0 else s
    s.leftActive q
  else s

/-- The port goes to DETECT; `fail` is the LAST_FAIL code of a failure (R146, R152). -/
def State.toDetect (s : State) (q : Nat) (fail : Option Nat) : State :=
  let st := s.lkState q
  let s := if st = 5 ∨ st = 6 then s.linkReset q else s.clearLink q
  let s := (s.clearTraining q).setLkState q 1
  let s := s.lkDown q
  match fail with
  | some f => (s.setF (lkPst q) F.RAF_PST_LAST_FAIL f).lkEvent q Ev.RAF_TRAIN_FAIL
  | none => s

/-- The acknowledgement that a flit carries (R155): ACKTYPE and ACK_SEQ. -/
def State.ackField (s : State) (q : Nat) : Nat × Nat :=
  let k := s.link q
  let last := if k.accepted then (s.rxNext q + 4095) % 4096 else 0xFFF
  if k.nakDue then (2, last) else if k.accepted then (1, last) else (0, 0)

/-- The LMSG flit that holds GOODBYE, sent whatever the credit (R146, R160). -/
def State.sayGoodbye (s : State) (q : Nat) : State :=
  let ack := s.ackField q
  (s.linkSend q 1 0 []).emit (.linkFlit q 2 (s.txNext q) ack.1 ack.2 (s.getF (lkLlcr q) F.RAF_LLCR_CREDIT_GRANT) (linkMessage 1 0 []))

/-- The port is DISABLED: an ACTIVE port first says GOODBYE, unless its domain is turned off (R146, R172). -/
def State.toDisabled (s : State) (q : Nat) (goodbye : Bool) : State :=
  let s := if s.lkState q = 5 ∧ goodbye then s.sayGoodbye q else s
  let s := ((s.clearLink q).clearTraining q).setLkState q 0
  (s.lkDown q).emit (.linkPhy q "electrical idle")

/-- The port enters RECOVERY with its link-layer state kept; a replay in progress ends, and RESUME names where the next one starts (R152). -/
def State.toRecovery (s : State) (q : Nat) : State :=
  if s.lkState q ≠ 5 then s
  else
    let s := (s.clearTraining q).setLkState q 6
    let s := s.onLink q (fun k => { k with badRun := 0, naks := 0, replays := 0, resend := [], fwd := 0, dec := k.decAt })
    let s := s.bump (lkBase q + 0x48) 1
    (s.lkEvent q Ev.RAF_RECOVERY).leftActive q

/-- The power domain of link q (R66). -/
def linkDomain (q : Nat) : Nat := if q < 4 then 7 + q else q - 1

/-- A committed value of RAF_PCFG or RDG_LCFG comes into force; a commit wakes no domain (R117), so a port whose domain is off starts when
the domain comes on; `old` is the value before (R146, R166). -/
def State.applyLinkCfg (s : State) (q : Nat) (old : Word) : State :=
  let v := s.reg (lkBase q)
  let en := fieldOf F.RAF_PCFG_EN v = 1
  let was := fieldOf F.RAF_PCFG_EN old = 1
  let moved := fieldOf F.RAF_PCFG_RATE v ≠ fieldOf F.RAF_PCFG_RATE old ∨ fieldOf F.RAF_PCFG_MIN_WIDTH v ≠ fieldOf F.RAF_PCFG_MIN_WIDTH old
    ∨ fieldOf F.RAF_PCFG_LANE_EN v ≠ fieldOf F.RAF_PCFG_LANE_EN old
  if en ∧ !was then (if s.lkState q = 0 ∧ s.isOn (linkDomain q) = true then s.toDetect q none else s)
  else if !en ∧ was then s.toDisabled q true
  else if en ∧ moved ∧ s.lkState q ≠ 0 then s.toDetect q none
  else s

/-! ## Protocol errors (R161) -/

/-- A protocol error: counted, the event, and DETECT after 16 within 1 ms (1,200,000 PCLK). -/
def State.protoError (s : State) (q : Nat) : State :=
  let s := (s.bump (lkBase q + 0x3C) 1).lkEvent q Ev.RAF_PROTO
  let t := s.gen.vt
  let s := s.onLink q (fun k => { k with proto := t :: k.proto.filter (fun x => decide (t ≤ x + 1200000)) })
  if 16 ≤ (s.link q).proto.length then (s.onLink q (fun k => { k with proto := [] })).toDetect q (some 0x0A) else s

/-- Count failed sectors (R158, R171); more than 1,000 within 1 s (1,200,000,000 PCLK) raise CRC_RATE once. -/
def State.countCrc (s : State) (q n : Nat) : State :=
  let s := s.bump (lkBase q + 0x30) n
  let t := s.gen.vt
  let s := s.onLink q (fun k => { k with
    crcLog := List.replicate n t ++ k.crcLog.filter (fun x => decide (t < x + 1200000000)) })
  if decide (1000 < (s.link q).crcLog.length) && (s.link q).crcSaid.all (fun x => decide (x + 1200000000 ≤ t)) then
    (s.onLink q (fun k => { k with crcSaid := some t })).lkEvent q Ev.RAF_CRC_RATE
  else s

/-! ## Acknowledgement and replay (R153 to R157) -/

/-- Start a replay of the outstanding flits (R156); 4 without an advance lead to RECOVERY (R152). -/
def State.startReplay (s : State) (q ackSeq : Nat) : State :=
  let k := s.link q
  if k.out.isEmpty then s
  else
    let s := (s.onLink q (fun k => { k with resend := k.out, resendFrom := ackSeq, replays := k.replays + 1 })).bump (lkBase q + 0x44) 1
    if 4 ≤ (s.link q).replays then s.toRecovery q else s

/-- Process ACKTYPE and ACK_SEQ of a received flit (R156). -/
def State.takeAck (s : State) (q ackType ackSeq : Nat) : State :=
  if ackType = 0 then s
  else if ackType = 3 then s.protoError q
  else
    let k := s.link q
    let a := match k.out with
      | f :: _ => f.seq
      | [] => s.txNext q
    let d := (ackSeq + 4096 - a) % 4096
    if d < k.out.length ∨ d = 4095 then
      let n := if d = 4095 then 0 else d + 1
      let s := s.onLink q (fun k => { k with
        out := k.out.drop n
        resend := k.resend.filter (fun f => (k.out.drop n).contains f)
        replays := if n = 0 then k.replays else 0 })
      let s := s.syncTxOut q
      let k := s.link q
      if ackType = 2 then (if !k.resend.isEmpty && k.resendFrom == ackSeq then s else s.startReplay q ackSeq) else s
    else s.protoError q

/-- A NAK falls due for the flit numbered E, if none has been sent for it (R155, R161). -/
def State.nakE (s : State) (q : Nat) : State :=
  if (s.link q).nakFor then s else s.onLink q (fun k => { k with nakDue := true, nakFor := true })

/-- Whether the throttle withholds Rafter acceptance altogether (R157, R481). (DEDUCED, log entry 63.) -/
def State.creditHeld (s : State) (q : Nat) : Bool :=
  decide (q < 4) && decide (3 ≤ s.getF Reg.THM_STAT F.THM_STAT_STEP) && s.getF Reg.THM_PAUSE1 F.THM_PAUSE1_P3 == 0

/-- The flit numbered E is accepted, into the receive buffer, from which any number of flits may have been taken by now (R154, R155, R157).
(DESIGN CHOICE, log entry 62.) -/
def State.acceptSeq (s : State) (q : Nat) : State :=
  let s := s.setF (lkLlst q) F.RAF_LLST_RX_NEXT ((s.rxNext q + 1) % 4096)
  let (x, s) := s.free
  let s := s.setF (lkLlcr q) F.RAF_LLCR_RX_FILL (x % (min (rxDepth q) (s.getF (lkLlcr q) F.RAF_LLCR_RX_FILL + 1) + 1))
  s.onLink q (fun k => { k with accepted := true, nakDue := false, nakFor := false, gap := false, naks := 0 })

/-- A flit of the partner is accepted: DATA ends a quiet time (R172, R340). -/
def State.acceptFlit (s : State) (q : Nat) (f : Flit) : State :=
  (s.acceptSeq q).onLink q (fun k => { k with
    taken := k.taken + 1
    woken := if f.ftype = 1 then false else k.woken
    quiet := if f.ftype = 1 then 0 else k.quiet })

/-- A flit ahead of E: RAF_CNT_NAK counts once per gap, and a NAK follows (R154, R155). -/
def State.flitAhead (s : State) (q : Nat) : State :=
  let s := if (s.link q).gap then s else (s.bump (lkBase q + 0x34) 1).onLink q (fun k => { k with gap := true })
  s.nakE q

/-- Whether the link takes flits of a type: DATA is reserved on a Ridge link (R144, R515). -/
def seqType (q ftype : Nat) : Bool := ftype == 2 || (ftype == 1 && decide (q < 4))

/-- The number of sectors that failed their CRC. -/
def badSectors (f : Flit) : Nat := 4 - popcount f.good.toNat 4

/-- A flit that is not accepted: the packet decoder goes back to where it was at the flit's start (R158). -/
def State.dropFlit (s : State) (q : Nat) : State := s.onLink q (fun k => { k with fwd := 0, dec := k.decAt })

/-- A flit with a failed sector (R152, R154, R158, R161). -/
def State.takeBad (s : State) (q : Nat) (f : Flit) : State :=
  let s := (s.countCrc q (badSectors f)).dropFlit q
  let s := s.onLink q (fun k => { k with badRun := k.badRun + 1 })
  let d := (f.seq.toNat + 4096 - s.rxNext q) % 4096
  let s := if !bit f.good.toNat 0 then s.nakE q
    else if seqType q f.ftype.toNat then
      (if d = 0 then s.nakE q else if d ≤ 2047 then s.flitAhead q else s.bump (lkBase q + 0x38) 1)
    else s
  if 8 ≤ (s.link q).badRun then s.toRecovery q else s

/-- NAK_TO: no flit numbered E was accepted in time, so one further NAK is sent (R155). -/
def execNakTo (q : Fin 8) (s : State) : Res :=
  .next (if s.lkState q = 5 ∧ (s.link q).nakFor ∧ !(s.link q).nakDue then s.onLink q (fun k => { k with nakDue := true }) else s)

/-- REPLAY_TIMEOUT: no acknowledgement advanced for 4 µs (R156). -/
def execReplayTimeout (q : Fin 8) (s : State) : Res :=
  .next (if s.lkState q = 5 then s.startReplay q 0x1000 else s)

/-! ## Sending (R151, R153, R155, R157) -/

/-- The messages at the front of the queue that `n` bytes hold. -/
def fitMessages : Nat → List (List Byte) → List (List Byte)
  | _, [] => []
  | n, m :: t => if m.length ≤ n then m :: fitMessages (n - m.length) t else []

/-- `k` units of `unit` bytes filled with messages, none across two, the rest END: the bytes, and how many messages they hold. -/
def packUnits (unit : Nat) : Nat → List (List Byte) → List Byte × Nat
  | 0, _ => ([], 0)
  | k + 1, l =>
    let m := fitMessages unit l
    let r := packUnits unit k (l.drop m.length)
    ((m.flatten ++ List.replicate unit 0).take unit ++ r.1, m.length + r.2)

/-- The payload of an LMSG flit: messages one after another, within the flit (R160) or on a Ridge link within each sector (R518). -/
def packMessages (q : Nat) (l : List (List Byte)) : List Byte × Nat := if q < 4 then packUnits 304 1 l else packUnits 76 4 l

/-- CREDIT_LIMIT and RX_FILL of the next flit: how far the receive buffer has emptied since is free; it is empty after a link-layer reset, and
fills by accepted flits alone, so the limit never goes back. It stands still while the throttle withholds acceptance (R157, R170). (DESIGN
CHOICE, log entry 62.) -/
def State.grantCredit (s : State) (q : Nat) : State :=
  let (x, s) := s.free
  let fill := x % (s.getF (lkLlcr q) F.RAF_LLCR_RX_FILL + 1)
  let s := s.setF (lkLlcr q) F.RAF_LLCR_RX_FILL fill
  if s.creditHeld q then s else s.setF (lkLlcr q) F.RAF_LLCR_CREDIT_GRANT ((s.rxNext q + rxDepth q - fill) % 4096)

/-- Put a flit on the link with the current acknowledgement and credit; a NAK is sent once, and 16 for one E lead to RECOVERY. -/
def State.putFlit (s : State) (q ftype seq : Nat) (payload : List Byte) : State :=
  let s := s.grantCredit q
  let ack := s.ackField q
  let s := s.emit (.linkFlit q ftype seq ack.1 ack.2 (s.getF (lkLlcr q) F.RAF_LLCR_CREDIT_GRANT) payload)
  let s := s.onLink q (fun k => { k with naks := if k.nakDue then k.naks + 1 else k.naks, nakDue := false })
  if 16 ≤ (s.link q).naks then s.toRecovery q else s

/-- Whether a new sequenced flit may be sent (R153, R157). -/
def State.maySend (s : State) (q : Nat) : Bool :=
  let k := s.link q
  let room := (k.limit + 4096 - s.txNext q) % 4096
  decide (k.out.length < min 2047 (replayDepth q)) && decide (1 ≤ room ∧ room ≤ 2047) && !k.queue.isEmpty

/-- Resume after RECOVERY (R152): what the partner's NEXT_RX acknowledges is released and the rest replayed from there, or the link layer
is reset. -/
def State.resume (s : State) (q : Nat) : State :=
  let k := s.link q
  match k.lastCap with
  | none => s.linkReset q
  | some c =>
    let a := match k.out with
      | f :: _ => f.seq
      | [] => s.txNext q
    let d := (c.nextRx.toNat % 4096 + 4096 - a) % 4096
    if !c.resume then s.linkReset q
    else if k.out.length < d then (s.linkReset q).setF (lkPst q) F.RAF_PST_LAST_FAIL 9
    else
      let s := (s.onLink q (fun k => { k with out := k.out.drop d })).syncTxOut q
      s.startReplay q 0x1000

/-- ACTIVE is entered from CAP, or again from RECOVERY (R151, R152). -/
def State.toActive (s : State) (q : Nat) : State :=
  let fresh := s.lkState q = 4
  let s := s.setLkState q 5
  let s := s.onLink q (fun k => { k with sawFlit := false, wasActive := true, capPhase := false })
  let s := if fresh then
      (s.onLink q (fun k => { k with limit := (k.lastCap.map (fun c => c.credits.toNat)).getD 0 })).lkEvent q Ev.RAF_UP
    else s.resume q
  if 4 ≤ q then (s.evalIso q).tryPair else s

/-- The 304 payload bytes of the CAP flit that the device sends (R150, R516); the reserved rest is zero and left out. -/
def State.ownCap (s : State) (q : Nat) : List Byte :=
  let resume := s.lkState q = 6
  let k := s.link q
  let head := [1, if q < 4 then 1 else 2, BitVec.ofNat 8 (b2n k.capSeen + 2 * b2n resume), BitVec.ofNat 8 (q % 4)]
    ++ leBytes 4 (0x64180000 + s.role) ++ leBytes 2 (replayDepth q) ++ leBytes 2 (rxDepth q)
    ++ leBytes 2 (if resume then s.rxNext q else 0) ++ leBytes 2 0
  if q < 4 then head
  else head ++ leBytes 4 (s.reg Reg.CAL_FDSN_LO).toNat ++ leBytes 4 (s.reg Reg.CAL_FDSN_HI).toNat
    ++ leBytes 4 s.epoch ++ leBytes 2 (s.getF Reg.RDG_VCFG F.RDG_VCFG_VOLUME)

/-- A CAP flit with the current acknowledgement and credit (R150, R155). ACTIVE follows the eighth with CAP_SEEN sent after the partner's
(R151). -/
def State.sendCap (s : State) (q : Nat) : State :=
  let s := s.grantCredit q
  let ack := if (s.link q).accepted then (1, (s.rxNext q + 4095) % 4096) else (0, 0)
  let s := s.emit (.linkFlit q 3 0 ack.1 ack.2 (s.getF (lkLlcr q) F.RAF_LLCR_CREDIT_GRANT) (s.ownCap q))
  let s := s.onLink q (fun k => { k with capSent := if k.capSeen && k.capGot then k.capSent + 1 else k.capSent })
  if 8 ≤ (s.link q).capSent then s.toActive q else s

/-- A physical lane's training state. -/
def State.lane (s : State) (q j : Nat) : LaneState := aget (fun _ => LaneState.init) (s.link q).lanes j
def State.setLane (s : State) (q j : Nat) (l : LaneState) : State :=
  s.onLink q (fun k => { k with lanes := aset (fun _ => LaneState.init) k.lanes j l })

/-- The enabled physical lanes in ascending order: logical lane k is sent on the k-th (R147). -/
def State.enabledLanes (s : State) (q : Nat) : List Nat := bitsOf (s.laneEn q) 4

/-- Whether the receiver holds symbol lock on logical lane `n`. -/
def State.lockedLane (s : State) (q n : Nat) : Bool :=
  (s.enabledLanes q).any (fun j => (s.lane q j).locked && (s.lane q j).laneNo == n)

/-- The control word of a training block (R147). -/
def trainWord (lane : Nat) (rxLocked last recover : Bool) (loopReq : Nat) : Nat :=
  lane % 4 + (if rxLocked then 4 else 0) + (if last then 8 else 0) + (if recover then 16 else 0) + 32 * (loopReq % 4)

/-- The width that WIDTH names (R169). -/
def State.lkWidth (s : State) (q : Nat) : Nat := 2 ^ s.getF (lkPst q) F.RAF_PST_WIDTH

/-- Training has ended: CAP flits follow on lanes 0 to w − 1, and the lanes above go to electrical idle (R149); in RECOVERY with RESUME
(R152). -/
def State.startCap (s : State) (q : Nat) : State :=
  let s := ((s.enabledLanes q).drop (s.lkWidth q)).foldl (fun s j => s.emit (.laneIdle q j)) s
  if s.lkState q = 6 then s.onLink q (fun k => { k with capPhase := true }) else s.setLkState q 4

/-- A training block on every enabled lane; of the 16 that follow once the width is settled the last carries LAST (R147, R149, R152). -/
def State.sendBlocks (s : State) (q : Nat) : State :=
  let left := (s.link q).blocksLeft
  let rec_ := s.lkState q == 6
  let s := (s.enabledLanes q).zipIdx.foldl (fun s e => s.emit (.linkTrain q e.1 (trainWord e.2 (s.lockedLane q e.2) (left == 1) rec_ 0))) s
  let s := s.onLink q (fun k => { k with blocksLeft := left - 1 })
  if left = 1 then s.startCap q else s

/-- The receive path of LOOP_NEP takes the flit `seq` with its acknowledgement and credit, one sector of it failed if `bad` (R154 to R158,
R163). -/
def State.nepTake (s : State) (q seq : Nat) (bad : Bool) (ack : Nat × Nat) (credit : Nat) : State :=
  let s := if bad then s.countCrc q 1 else (s.takeAck q ack.1 ack.2).onLink q (fun k => { k with limit := credit })
  let d := (seq + 4096 - s.rxNext q) % 4096
  if d = 0 then (if bad then s.nakE q else s.acceptSeq q)
  else if d ≤ 2047 then s.flitAhead q
  else s.bump (lkBase q + 0x38) 1

/-- A flit time of the exerciser of LOOP_NEP: a DATA flit of a replay or a new one goes through the link layer, with numbers, credit,
acknowledgement and replay, and straight into the receive path; with INJ_N one sector in every INJ_N × 256 flits fails. Its PRBS31 payload
reaches nothing but the exerciser's checker, for which no register is given, and is left out (R163, R168). (DESIGN CHOICE, log entry 128.) -/
def State.exercise (s : State) (q : Nat) : State :=
  let n := (s.link q).nepN + 1
  let s := (s.onLink q (fun k => { k with nepN := n })).grantCredit q
  let inj := 256 * s.getF (lkBase q + 0xC) F.RAF_PRBS_INJ_N
  let bad := decide (inj ≠ 0 ∧ n % inj = 0)
  let ack := s.ackField q
  let credit := s.getF (lkLlcr q) F.RAF_LLCR_CREDIT_GRANT
  let s := s.onLink q (fun k => { k with nakDue := false })
  let room := ((s.link q).limit + 4096 - s.txNext q) % 4096
  match (s.link q).resend with
  | f :: rest => (s.onLink q (fun k => { k with resend := rest })).nepTake q f.seq bad ack credit
  | [] =>
    if replayDepth q ≤ (s.link q).out.length ∨ room = 0 ∨ 2047 < room then
      (s.takeAck q ack.1 ack.2).onLink q (fun k => { k with limit := credit })
    else
      let seq := s.txNext q
      let s := s.onLink q (fun k => { k with out := k.out ++ [⟨seq, []⟩] })
      ((s.setF (lkLlst q) F.RAF_LLST_TX_NEXT ((seq + 1) % 4096)).syncTxOut q).nepTake q seq bad ack credit

/-- The next new flit: as many waiting messages as it holds. -/
def State.sendNew (s : State) (q : Nat) : State :=
  let seq := s.txNext q
  let p := packMessages q (s.link q).queue
  let s := s.onLink q (fun k => { k with queue := k.queue.drop p.2, out := k.out ++ [⟨seq, p.1⟩] })
  let s := (s.setF (lkLlst q) F.RAF_LLST_TX_NEXT ((seq + 1) % 4096)).syncTxOut q
  s.putFlit q 2 seq p.1

/-- FLIT_SEND: what goes out in this flit time: training blocks, a CAP flit, or in ACTIVE a flit of a replay, a new flit or a NULL flit
(R147, R151, R155). (DESIGN CHOICE, log entry 62.) -/
def execFlitSend (q : Fin 8) (s : State) : Res :=
  let k := s.link q
  let st := s.lkState q
  if st = 4 ∨ (st = 6 ∧ k.capPhase) then .next (s.sendCap q)
  else if st = 2 ∨ st = 3 ∨ st = 6 then .next (s.sendBlocks q)
  else if st = 8 then .next (s.exercise q)
  else if st ≠ 5 then .next s
  else
    match k.resend with
    | f :: rest => .next ((s.onLink q (fun k => { k with resend := rest })).putFlit q 2 f.seq f.payload)
    | [] => .next (if s.maySend q then s.sendNew q else s.putFlit q 0 0 [])

/-! ## Bring-up (R146 to R151) -/

/-- SIGNAL_DETECT: `lanes` show signal for 100 µs (R146). -/
def execSignalDetect (q : Fin 8) (lanes : BitVec 4) (s : State) : Res :=
  if s.lkState q = 1 ∧ s.minWidth q ≤ popcount (lanes.toNat &&& s.laneEn q) 4 then
    .next ((s.clearTraining q).setLkState q 2)
  else .next s

/-- RECEIVER_DETECT: in DETECT the transmit pairs run receiver detect every 1 ms (R146). -/
def execReceiverDetect (q : Fin 8) (s : State) : Res :=
  .next (if s.lkState q = 1 then s.emit (.linkPhy q "receiver detect") else s)

/-- A lane's counts after one more block (R148, R149, R164). -/
def stepLane (l : LaneState) (b : TrainBlock) : LaneState :=
  let same := if b.marker then (if l.laneNo = b.lane.val ∧ l.same ≠ 0 then l.same + 1 else 1) else 0
  let errs := (b.errors :: l.errs).take 64
  { errs := errs
    same := same
    laneNo := if b.marker then b.lane.val else l.laneNo
    locked := decide (errs.length = 64 ∧ errs.foldl (· + ·) 0 < 4 ∧ 8 ≤ same) && !b.skewed
    rx := if b.marker && b.rxLocked then l.rx + 1 else 0
    loopReq := if b.marker && b.loopReq == 1 then l.loopReq + 1 else 0 }

/-- Two physical lanes that carry one LANE value both lose lock and are searched again (R148). -/
def State.dropTwins (s : State) (q j : Nat) : State :=
  let l := s.lane q j
  if !l.locked then s
  else
    let twins := (s.enabledLanes q).filter (fun i => i ≠ j && (s.lane q i).locked && (s.lane q i).laneNo == l.laneNo)
    if twins.isEmpty then s
    else (j :: twins).foldl (fun s i => s.setLane q i LaneState.init) s

/-- RAF_PST.LOCKED follows the lanes (R169). -/
def State.syncLocked (s : State) (q : Nat) : State :=
  s.setF (lkPst q) F.RAF_PST_LOCKED ((s.enabledLanes q).foldl (fun m j => if (s.lane q j).locked then setBit m j else m) 0)

/-- LOCKED, POL_INV and LANE_MAP of the status register after a block on lane j (R148, R169, R540). -/
def State.showLane (s : State) (q j : Nat) (inverted : Bool) : State :=
  let l := s.lane q j
  let s := s.syncLocked q
  if !l.locked then s
  else
    let pol := s.getF (lkPst q) F.RAF_PST_POL_INV
    let s := s.setF (lkPst q) F.RAF_PST_POL_INV (if inverted then setBit pol j else clearBit pol j)
    if q < 4 then s.setF (lkPst q) ⟨9 + 2 * j, 8 + 2 * j⟩ l.laneNo else s.setF (lkPst q) ⟨8 + j, 8 + j⟩ l.laneNo

/-- Whether logical lane `n` is locked at the device and the partner has reported it locked in 8 blocks (R149). -/
def State.laneReady (s : State) (q n : Nat) : Bool :=
  (s.enabledLanes q).any (fun j => (s.lane q j).locked && (s.lane q j).laneNo == n && decide (8 ≤ (s.lane q j).rx))

/-- The width that training has reached: 4, 2, 1, or 0 (R149). -/
def State.trainedWidth (s : State) (q : Nat) : Nat :=
  let m := (s.enabledLanes q).length
  let ok := fun w => decide (w ≤ m) && (List.range w).all (s.laneReady q)
  if ok 4 then 4 else if ok 2 then 2 else if ok 1 then 1 else 0

/-- The largest width that the enabled lanes allow (R149). -/
def State.fullWidth (s : State) (q : Nat) : Nat :=
  let m := (s.enabledLanes q).length
  if 4 ≤ m then 4 else if 2 ≤ m then 2 else 1

/-- Width w is settled: 16 further training blocks follow (R149). -/
def State.settle (s : State) (q w : Nat) : State :=
  let s := s.setF (lkPst q) F.RAF_PST_WIDTH (if w = 4 then 2 else if w = 2 then 1 else 0)
  s.onLink q (fun k => { k with blocksLeft := 16, lastCap := none, capPrev := false, capSeen := false, capGot := false, capSent := 0 })

/-- Settle the width that training has reached, once it is at least MIN_WIDTH; the moment is free while more lanes may still lock (R149).
(DESIGN CHOICE, log entry 129.) -/
def State.trySettle (s : State) (q : Nat) : State :=
  let w := s.trainedWidth q
  if w = 0 ∨ w < s.minWidth q then s
  else if w = s.fullWidth q then s.settle q w
  else
    let (x, s) := s.free
    if x % 2 = 1 then s.settle q w else s

/-- A training block on an enabled lane in TRAIN or RECOVERY (R148, R149, R164); once the width is settled, TRAIN ends in DETECT when it falls
below MIN_WIDTH (R146). -/
def State.takeBlock (s : State) (q j : Nat) (b : TrainBlock) : State :=
  let st := s.lkState q
  let s := s.setLane q j (stepLane (s.lane q j) b)
  let s := (s.dropTwins q j).showLane q j b.inverted
  let all := s.enabledLanes q
  if st ≠ 6 ∧ s.getF (lkBase q) F.RAF_PCFG_FAR_LOOP = 1 ∧ all.all (fun i => decide (9 ≤ (s.lane q i).loopReq)) then s.setLkState q 9
  else if (s.link q).blocksLeft ≠ 0 then (if st ≠ 6 ∧ s.trainedWidth q < s.minWidth q then s.toDetect q (some 3) else s)
  else (if st = 6 then s else s.setLkState q (if all.all (fun i => (s.lane q i).locked) then 3 else 2)).trySettle q

/-- TRAINING_BLOCK on a physical lane (R147 to R149, R152, R164): in LOOP_FAR it goes back; in ACTIVE one with RECOVER leads to RECOVERY. -/
def execTrainingBlock (q : Fin 8) (lane : Fin 4) (b : TrainBlock) (s : State) : Res :=
  let st := s.lkState q
  if st = 9 then .next (s.emit (.farLoop q (.trainingBlock q lane b)))
  else if !bit (s.laneEn q) lane.val then .next s
  else if st = 5 then .next (if b.marker && b.recover then s.toRecovery q else s)
  else if st = 2 ∨ st = 3 ∨ st = 4 ∨ st = 6 then
    let s := if b.marker && b.last then s.onLink q (fun k => { k with lastSeen := true }) else s
    .next (if st = 4 ∨ (s.link q).capPhase then s else s.takeBlock q lane b)
  else .next s

/-- TRAIN_TO (R146, R169). Of the causes that fit it records 0x03 if any width was reached, else 0x02 if any enabled lane has bit lock, else
0x01. (DESIGN CHOICE, log entry 129.) -/
def execTrainTo (q : Fin 8) (s : State) : Res :=
  let st := s.lkState q
  if st = 2 ∨ st = 3 then
    let bitLock := (s.enabledLanes q).any (fun j => decide ((s.lane q j).errs.length = 64 ∧ (s.lane q j).errs.foldl (· + ·) 0 < 4))
    .next (s.toDetect q (some (if s.trainedWidth q ≠ 0 then 3 else if bitLock then 2 else 1)))
  else .next s

/-- The failure that a CAP flit's fields cause, as a LAST_FAIL code (R150, R516). -/
def capFail (q : Nat) (f : CapFlit) : Option Nat :=
  if f.ver ≠ 1 then some 6
  else if f.role.toNat ≠ (if q < 4 then 0 else 2) then some 5
  else if f.depth = 0 ∨ 2047 < f.depth.toNat ∨ f.credits.toNat < 4 ∨ 2047 < f.credits.toNat then some 7
  else none

/-- A valid CAP flit is recorded (R150, R170, R516). -/
def State.recordCap (s : State) (q : Nat) (f : CapFlit) : State :=
  let s := s.setReg (lkBase q + 0x20) f.ident
  let s := s.setF (lkBase q + 0x24) F.RAF_PCAP_NEXT_RX f.nextRx.toNat
  let s := s.setF (lkBase q + 0x24) F.RAF_PCAP_PORT f.port.toNat
  let s := s.setF (lkBase q + 0x24) F.RAF_PCAP_REPLAY_DEPTH f.depth.toNat
  if q < 4 then s
  else (s.setReg (Reg.RDG_PDSN_LO (q - 4)) (word f.dsn.toNat)).setReg (Reg.RDG_PDSN_HI (q - 4)) (word (f.dsn.toNat / 2 ^ 32))

/-- A CAP flit of the capability exchange (R150 to R152): CAP_SEEN follows two in a row that agree in every byte apart from CAP_SEEN. -/
def State.takeCap (s : State) (q : Nat) (f : CapFlit) : State :=
  if !f.good then s.onLink q (fun k => { k with capPrev := false })
  else
    match capFail q f with
    | some c => s.toDetect q (some c)
    | none =>
      let same := (s.link q).capPrev && (match (s.link q).lastCap with
        | some c => decide ({ c with capSeen := f.capSeen } = f)
        | none => false)
      (s.recordCap q f).onLink q (fun k => { k with
        lastCap := some f
        capPrev := true
        capSeen := k.capSeen || same
        capGot := k.capGot || f.capSeen
        capSent := if f.capSeen && !k.capGot then 0 else k.capSent })

/-- CAP: a CAP flit arrives (R151, R161, R164). Flits are expected after the partner's LAST block (R149). -/
def execCap (q : Fin 8) (f : CapFlit) (s : State) : Res :=
  let st := s.lkState q
  if st = 9 then .next (s.emit (.farLoop q (.cap q f)))
  else if st = 5 then .next (if (s.link q).sawFlit then s.protoError q else s)
  else if (st = 4 ∨ (st = 6 ∧ (s.link q).capPhase)) ∧ (s.link q).lastSeen then .next (s.takeCap q f)
  else .next s

/-- CAP_TO (R151). -/
def execCapTo (q : Fin 8) (s : State) : Res := .next (if s.lkState q = 4 then s.toDetect q (some 4) else s)

/-- LINK_DOWN: signal or clock-recovery lock is lost on a lane in use: RECOVERY from ACTIVE (R152); in TRAIN with a settled width of MIN_WIDTH
the width falls below it (R146). -/
def execLinkDown (q : Fin 8) (s : State) : Res :=
  let st := s.lkState q
  .next (if (st = 2 ∨ st = 3) ∧ (s.link q).blocksLeft ≠ 0 ∧ s.lkWidth q ≤ s.minWidth q then s.toDetect q (some 3) else s.toRecovery q)

/-- RCV_TO (R152). -/
def execRcvTo (q : Fin 8) (s : State) : Res := .next (if s.lkState q = 6 then s.toDetect q (some 8) else s)

/-- GOODBYE (R160): the port goes to DETECT and records no failure. -/
def State.takeGoodbye (s : State) (q : Nat) : State := if s.lkState q = 5 then s.toDetect q none else s

def execGoodbye (q : Fin 8) (s : State) : Res := .next (s.takeGoodbye q)

/-! ## Loopbacks and patterns (R162 to R164, R168) -/

/-- The logical lanes of link q. -/
def lkLanes (q : Nat) : Nat := if q < 4 then 4 else 2

/-- The symbol errors that the checker of a port in LOOP_NES has found on logical lane l since they were last counted: free (R162, R168).
(DESIGN CHOICE, log entry 128.) -/
def State.countPrbs (s : State) (q l : Nat) : State :=
  if s.lkState q = 7 ∧ s.flag (lkBase q + 0xC) F.RAF_PRBS_CHK_EN = true ∧ l < (s.enabledLanes q).length then
    let (x, s) := s.free
    s.bump (lkBase q + 0x60 + 4 * l) x
  else s

/-- A read of RAF_PRBS_ERRl or RDG_PRBS_ERRl shows the errors found so far. -/
def State.readPrbs (s : State) (off : Nat) : State :=
  let q := (off - 0x100000) / 0x10000
  let o := off % 0x10000
  if 0x100000 ≤ off ∧ q < 8 ∧ 0x60 ≤ o ∧ o < 0x60 + 4 * lkLanes q then s.countPrbs q ((o - 0x60) / 4) else s

/-- What the checker of link q has found on every lane is counted. -/
def State.endPrbs (s : State) (q : Nat) : State := (List.range (lkLanes q)).foldl (fun s l => s.countPrbs q l) s

/-- A write of RAF_LOOP or RDG_LOOP (R162, R163, R168). The link layer of a near-end loopback starts and ends clear. (DESIGN CHOICE, log
entry 128.) -/
def State.writeLoop (s : State) (q : Nat) (v : Word) : State :=
  let m := fieldOf F.RAF_LOOP_MODE v
  let off := lkBase q + 8
  let st := s.lkState q
  if m = 3 then s.event Ev.GBL_REJECT_WRITE []
  else if m ≠ 0 ∧ st ≠ 0 then s.lkEvent q Ev.RAF_LOOP_REJECT
  else
    let s := (s.endPrbs q).setReg off (maskFields off v)
    if m = 0 then (if st = 7 ∨ st = 8 then (s.clearLink q).setLkState q 0 else s)
    else ((s.clearLink q).onLink q (fun k => { k with nepN := 0, limit := rxDepth q })).setLkState q (6 + m)

/-- A write of a loopback register that has reached the device. -/
def State.loopWrite (s : State) (q : Nat) (v : Word) : State := s.viaReg (lkBase q + 8) v (fun s => s.writeLoop q v)

/-- LOOP_NES_ENTER (R162). -/
def execLoopNesEnter (q : Fin 8) (v : Word) (s : State) : Res := .next (s.loopWrite q (withField F.RAF_LOOP_MODE 1 v))

/-- LOOP_NEP_ENTER (R163). -/
def execLoopNepEnter (q : Fin 8) (v : Word) (s : State) : Res := .next (s.loopWrite q (withField F.RAF_LOOP_MODE 2 v))

/-- LOOP_EXIT (R163). -/
def execLoopExit (q : Fin 8) (v : Word) (s : State) : Res := .next (s.loopWrite q (withField F.RAF_LOOP_MODE 0 v))

/-- LOOP_FAR_SIGNAL_LOST (R164). -/
def execLoopFarSignalLost (q : Fin 8) (s : State) : Res := .next (if s.lkState q = 9 then s.toDetect q none else s)

/-- A write of RAF_PRBS or RDG_PRBS (R168). -/
def State.writePrbs (s : State) (q : Nat) (v : Word) : State :=
  let off := lkBase q + 0xC
  if fieldOf F.RAF_PRBS_PAT v = 3 then s.event Ev.GBL_REJECT_WRITE []
  else
    let rise := !s.flag off F.RAF_PRBS_CHK_EN && fieldOf F.RAF_PRBS_CHK_EN v == 1
    let s := (s.endPrbs q).setReg off (maskFields off v)
    if rise then (List.range (lkLanes q)).foldl (fun s l => s.setReg (lkBase q + 0x60 + 4 * l) 0) s else s

/-- RAF_PRBS_WRITE (R168). -/
def execRafPrbsWrite (q : Fin 8) (v : Word) (s : State) : Res := .next (s.viaReg (lkBase q + 0xC) v (fun s => s.writePrbs q v))

/-- PORT_SIGNAL_WAKE: signal on an enabled port whose domain is off, as HEARTH_RAF_OFF leaves it until something wakes it, wakes the domain,
and the port starts at DETECT (R172). The domain comes on only behind the compositor (R66), and a start-up turns it on by itself. -/
def execPortSignalWake (p : Fin 4) (s : State) : Res :=
  if s.isOn (7 + p.val) || !s.lkEnabled p || s.heldOff (7 + p.val) || s.rst.starting || !(domainDeps (7 + p.val)).all s.isOn then .next s
  else
    let s := s.setDomain (7 + p.val) true
    .next ((s.toDetect p none).onLink p (fun k => { k with woken := true }))

end Sys2Proof.Machine
end

