-- ==== Sys2Proof/Machine/Swage.lean ====
section
/-! DEFINITION. The Swage block coder (R218 to R223): blocks of 64 by 4 pixels as three planes of 256 samples. -/

namespace Sys2Proof.Machine

/-- Bits of a sample: 18 for a pixel block, 14 for a history block (R218). -/
def sampleBits (hist : Bool) : Nat := if hist then 14 else 18

/-- Bytes of a block by mode: 0 1:1, 1 1.5:1, 2 2:1 (R218). -/
def blockBytes (hist : Bool) (mode : Nat) : Nat :=
  if hist then [1344, 896, 672].getD mode 1344 else [1728, 1152, 864].getD mode 1728

/-- QMAX (R222). -/
def swageQmax (hist : Bool) (mode : Nat) : Nat :=
  if hist then (if mode = 1 then 5 else 8) else (if mode = 1 then 7 else 10)

/-- The number of bits that hold `n`. -/
def bitLen (n : Nat) : Nat := if n = 0 then 0 else Nat.log2 n + 1

/-- The quantised sample that predicts sample `k` = 64r + x of a plane (R221). -/
def predict (u : List Nat) (k : Nat) : Nat :=
  if k % 64 ≠ 0 then u.getD (k - 1) 0 else if 64 ≤ k then u.getD (k - 64) 0 else 0

/-- The code z of quantised sample `k` (R221). -/
def swageCode (b : Nat) (u : List Nat) (k : Nat) : Nat :=
  let d := (u.getD k 0 + 2 ^ b - predict u k) % 2 ^ b
  if d < 2 ^ (b - 1) then 2 * d else 2 * (2 ^ b - d) - 1

/-- The indices of the 16 samples of sub-block `j` (R220). -/
def subBlock (j : Nat) : List Nat :=
  (List.range 4).flatMap (fun r => (List.range 4).map (fun i => 64 * r + 4 * j + i))

/-- The fields of a plane, each a width and a value: 16 widths, then the codes (R220). -/
def planeFields (b : Nat) (u : List Nat) : List (Nat × Nat) :=
  let subs := (List.range 16).map (fun j => (subBlock j).map (swageCode b u))
  let ks := subs.map (fun l => l.foldl (fun m z => max m (bitLen z)) 0)
  ks.map (fun k => (5, k)) ++ (subs.zip ks).flatMap (fun e => e.1.map (fun z => (e.2, z)))

/-- Bits that fields take. -/
def fieldsBits (l : List (Nat × Nat)) : Nat := l.foldl (fun n f => n + f.1) 0

/-- The number whose bits are the fields, the first lowest (R219). -/
def packFields : List (Nat × Nat) → Nat
  | [] => 0
  | (w, v) :: t => v % 2 ^ w + 2 ^ w * packFields t

/-- The fields of a block at quantisation `q` (R219). -/
def blockFields (hist : Bool) (mode q : Nat) (planes : List (List Nat)) : List (Nat × Nat) :=
  [(4, q), (2, b2n hist), (2, mode), (8, 0)] ++
    planes.flatMap (fun p => planeFields (sampleBits hist - q) (p.map (fun s => s / 2 ^ q)))

/-- The smallest Q from `q` that fits, and the block's bytes (R222); `fuel` bounds the search at QMAX. -/
def encodeFrom (hist : Bool) (mode : Nat) (planes : List (List Nat)) : Nat → Nat → Nat × List Byte
  | 0, q => (q, leBytes (blockBytes hist mode) (packFields (blockFields hist mode q planes)))
  | fuel + 1, q =>
    let l := blockFields hist mode q planes
    if fieldsBits l ≤ 8 * blockBytes hist mode then (q, leBytes (blockBytes hist mode) (packFields l))
    else encodeFrom hist mode planes fuel (q + 1)

/-- Encode a block: the Q used and its bytes (R222). -/
def encodeBlock (hist : Bool) (mode : Nat) (planes : List (List Nat)) : Nat × List Byte :=
  encodeFrom hist mode planes (swageQmax hist mode) 0

/-- Bits `pos` to `pos + k - 1` of a stream held as a number. -/
def streamBits (n pos k : Nat) : Nat := n / 2 ^ pos % 2 ^ k

/-- The place of each sample's code in a plane: sub-blocks in order, 16 codes each, from bit `pos`. -/
def codePlaces : List Nat → Nat → Nat → List (Nat × Nat × Nat)
  | [], _, _ => []
  | k :: t, j, pos => ((subBlock j).zipIdx.map (fun e => (e.1, pos + k * e.2, k))) ++ codePlaces t (j + 1) (pos + 16 * k)

/-- Rebuild the quantised samples of a plane in raster order from their codes (R221). -/
def unpredict (b : Nat) (z : Nat → Nat) : Nat → List Nat
  | 0 => []
  | k + 1 =>
    let u := unpredict b z k
    let c := z k
    let t : Int := if c % 2 = 0 then (c / 2 : Nat) else -(((c + 1) / 2 : Nat) : Int)
    u ++ [((((predict u k : Nat) : Int) + t) % ((2 ^ b : Nat) : Int)).toNat]

/-- A decoded sample (R221). -/
def dequantise (q u : Nat) : Nat := if q = 0 then u else if u = 0 then 0 else u * 2 ^ q + 2 ^ (q - 1)

/-- Decode one plane at bit `pos`: its samples and the bit after it, or none when a width exceeds b (R223). -/
def decodePlane (hist : Bool) (q n pos : Nat) : Option (List Nat × Nat) :=
  let b := sampleBits hist - q
  let ks := (List.range 16).map (fun j => streamBits n (pos + 5 * j) 5)
  if ks.any (fun k => decide (b < k)) then none
  else
    let places := codePlaces ks 0 (pos + 80)
    let z := fun k => match places.find? (fun e => e.1 == k) with
      | some (_, p, w) => streamBits n p w
      | none => 0
    some ((unpredict b z 256).map (dequantise q), pos + 80 + 16 * ks.foldl (· + ·) 0)

/-- Decode a block: its planes, or none when it is bad (R223). -/
def decodeBlock (hist : Bool) (mode : Nat) (bytes : List Byte) : Option (List (List Nat)) :=
  let n := leNat bytes
  let q := streamBits n 0 4
  if streamBits n 4 2 ≠ b2n hist ∨ streamBits n 6 2 ≠ mode ∨ swageQmax hist mode < q then none
  else
    match decodePlane hist q n 16 with
    | none => none
    | some (p0, a) =>
      match decodePlane hist q n a with
      | none => none
      | some (p1, b) =>
        match decodePlane hist q n b with
        | none => none
        | some (p2, c) => if 8 * blockBytes hist mode < c then none else some [p0, p1, p2]

/-- The planes of an uncoded block of samples laid out pixel by pixel, and back. -/
def planesOf (rows : List (List Nat)) : List (List Nat) :=
  (List.range 3).map (fun c => rows.flatMap (fun r => (List.range 64).map (fun x => r.getD (3 * x + c) 0)))

/-- Row `r` of a block, as samples pixel by pixel, from its planes. -/
def rowOfPlanes (planes : List (List Nat)) (r : Nat) : List Nat :=
  (List.range 64).flatMap (fun x => planes.map (fun p => p.getD (64 * r + x) 0))

end Sys2Proof.Machine
end

