-- ==== Sys2Proof/Machine/FrameStore.lean ====
section
/-! DEFINITION. The frame store: buffers, placement, demand, rows in and out of blocks, loss maps, errors and training (R207 to R231). -/

namespace Sys2Proof.Machine

/-! ## Bytes -/

/-- What a frame-store byte that nothing has written since the reset reads as: undefined (R49). (DESIGN CHOICE, log entry 8.) -/
def State.fsDefault (s : State) : Nat → Byte := Config.frameStoreByte s.fsEpoch

/-- Read `n` bytes. (DESIGN CHOICE, log entry 69.) -/
def State.fsRead (s : State) (a n : Nat) : List Byte := aread s.fsDefault s.fst.mem a n

/-- Write bytes; the next write of a unit clears its error (R217). (DESIGN CHOICE, log entry 69.) -/
def State.fsWrite (s : State) (a : Nat) (bs : List Byte) : State :=
  s.onFst (fun f => { f with
    mem := awrite s.fsDefault f.mem a bs
    ue := f.ue.filter (fun u => decide (u < a / 32) || decide (a + bs.length ≤ 32 * u)) })

/-- Whether any unit of `[a, a + n)` has an uncorrectable error. -/
def State.fsBad (s : State) (a n : Nat) : Bool :=
  s.fst.ue.any (fun u => decide (a / 32 ≤ u) && decide (32 * u < a + n))

/-! ## Buffers (R209 to R212, R229) -/

/-- CLASS, VIEW and WIN of a FST_MAP_SEL code. -/
def selClass (sel : Nat) : Nat := sel / 4096 % 16
def selView (sel : Nat) : Nat := sel / 256 % 8
def selWin (sel : Nat) : Nat := sel / 16 % 4

/-- The codes of a target's first buffer: base frame, window, window mask, line-locked image, plate staging. -/
def selBase : Nat := 0
def selWindow (v w : Nat) : Nat := 0x1000 + 256 * v + 16 * w
def selMask (v w : Nat) : Nat := 0x2000 + 256 * v + 16 * w
def selLine (v : Nat) : Nat := 0x3000 + 256 * v
def selPlate (i : Nat) : Nat := 0x4000 + i
def selHistory : Nat := 0x5000

/-- Every buffer of the allocated region, in ascending order of its code (R212). -/
def allSels : List Nat :=
  [0, 1, 2]
    ++ (List.range 8).flatMap (fun v => (List.range 4).flatMap (fun w => (List.range 3).map (fun i => selWindow v w + i)))
    ++ (List.range 8).flatMap (fun v => (List.range 4).flatMap (fun w => (List.range 3).map (fun i => selMask v w + i)))
    ++ (List.range 8).flatMap (fun v => (List.range 3).map (fun i => selLine v + i))
    ++ (List.range 16).map selPlate

def State.width (s : State) : Nat := s.getF Reg.SCN_GEOM F.SCN_GEOM_WIDTH
def State.height (s : State) : Nat := s.getF Reg.SCN_GEOM F.SCN_GEOM_HEIGHT

/-- FST_WALLOCvw. -/
def State.walloc (s : State) (v w : Nat) : Word := s.reg (Reg.FST_WALLOC v w)

/-- Whether the configuration allocates buffer `sel` (R209). -/
def State.wantsBuffer (s : State) (sel : Nat) : Bool :=
  let v := selView sel
  let w := selWin sel
  match selClass sel with
  | 0 => s.flag Reg.FST_ALLOC F.FST_ALLOC_BASE_EN
  | 1 => fieldOf F.FST_WALLOC_EN (s.walloc v w) == 1
  | 2 => fieldOf F.FST_WALLOC_EN (s.walloc v w) == 1 && fieldOf F.FST_WALLOC_MASK (s.walloc v w) == 1
  | 3 => bit (s.getF Reg.FST_ALLOC F.FST_ALLOC_LL_EN) v
  | 4 => decide (sel % 16 < s.getF Reg.FST_ALLOC F.FST_ALLOC_PLATE_N)
  | _ => false

/-- The Swage mode of buffer `sel` (R209, R230). -/
def State.modeOf (s : State) (sel : Nat) : Nat :=
  match selClass sel with
  | 0 => s.getF Reg.SWG_MODE0 F.SWG_MODE0_BASE
  | 1 => (s.reg Reg.SWG_MODE1).toNat / 4 ^ selView sel % 4
  | 3 => s.getF Reg.SWG_MODE0 F.SWG_MODE0_LLOCK
  | 4 => s.getF Reg.SWG_MODE0 F.SWG_MODE0_PLATE
  | 5 => s.getF Reg.SWG_MODE0 F.SWG_MODE0_HIST
  | _ => 0

/-- Width and height of buffer `sel` (R209). -/
def State.geomOf (s : State) (sel : Nat) : Nat × Nat :=
  if selClass sel = 1 ∨ selClass sel = 2 then
    let a := s.walloc (selView sel) (selWin sel)
    (fieldOf F.FST_WALLOC_MAXW a, fieldOf F.FST_WALLOC_MAXH a)
  else (s.width, s.height)

/-- Blocks of a buffer of that geometry (R210). -/
def blocksOf (w h : Nat) : Nat := ceilDiv w 64 * ceilDiv h 4

/-- Granules of the data of a buffer, and with its loss map (R212). -/
def dataGranules (cls mode w h : Nat) : Nat :=
  if cls = 2 then ceilDiv (h * (64 * ceilDiv w 64)) 4096 else ceilDiv (blocksOf w h * blockBytes (cls == 5) mode) 4096
def bufferGranules (cls mode w h : Nat) : Nat :=
  dataGranules cls mode w h + (if mode = 0 then 0 else ceilDiv (ceilDiv (blocksOf w h) 2) 4096)

/-- The first granule of the allocated region and the granule after it (R208). -/
def firstGranule : Nat := 0x36000
def endGranule : Nat := 0x800000

/-- The lowest granule from `a` at which `n` granules are free of the placements `l`, which are in ascending order. -/
def firstFit : List (Nat × Nat) → Nat → Nat → Option Nat
  | [], a, n => if a + n ≤ endGranule then some a else none
  | (g, k) :: t, a, n => if a + n ≤ g then some a else firstFit t (max a (g + k)) n

/-- The placements in ascending order of address. -/
def byAddress (m : AMap Placement) : List (Nat × Nat) :=
  (m.map (fun e => (e.2.gran, e.2.size))).foldl (fun l e => ainsert l e.1 e.2) []

/-- The placement that the configuration of `s` gives buffer `sel`, but for its address. -/
def State.wanted (s : State) (sel : Nat) : Option Placement :=
  if s.wantsBuffer sel then
    let g := s.geomOf sel
    let m := s.modeOf sel
    some ⟨0, bufferGranules (selClass sel) m g.1 g.2, m, g.1, g.2⟩
  else none

/-- Whether buffer `sel` keeps its placement under the configuration of `s`. -/
def State.keepsPlace (s : State) (sel : Nat) (p : Placement) : Bool :=
  match s.wanted sel with
  | some q => decide ({ q with gran := p.gran } = p)
  | none => false

/-- Place the buffers `sels` first-fit (R212); none when one does not fit. (DEDUCED, log entry 24.) -/
def State.placeAll (s : State) : List Nat → AMap Placement → Option (AMap Placement)
  | [], m => some m
  | sel :: t, m =>
    match s.wanted sel with
    | none => s.placeAll t m
    | some q =>
      if m.any (fun e => e.1 == sel) then s.placeAll t m
      else
        match firstFit (byAddress m) firstGranule q.size with
        | none => none
        | some g => s.placeAll t (ainsert m sel { q with gran := g })

/-- The placements after a commit, `s` holding the registers after it (R212). -/
def State.newPlaces (s : State) : Option (AMap Placement) :=
  s.placeAll allSels (s.fst.place.filter (fun e => s.keepsPlace e.1 e.2))

/-- The largest run of free granules. -/
def largestRun : List (Nat × Nat) → Nat → Nat → Nat
  | [], a, m => max m (endGranule - a)
  | (g, k) :: t, a, m => largestRun t (g + k) (max m (g - a))

/-- The placement of buffer `sel`. -/
def State.placed (s : State) (sel : Nat) : Option Placement := (s.fst.place.find? (fun e => e.1 == sel)).map (·.2)

/-- Where a fixed region or placed buffer lies: address, granules, mode, width, height (R208, R209). -/
def State.region (s : State) (sel : Nat) : Option Placement :=
  match selClass sel with
  | 5 => some ⟨0x33000, 0x3000, s.modeOf sel, s.width, s.height⟩
  | 6 => some ⟨0x30000, 0x3000, 0, s.width, s.height⟩
  | 7 => some ⟨0, 0x30000, 0, 0, 0⟩
  | _ => s.placed sel

/-- The frame buffer state of buffer `sel`. -/
def State.buf (s : State) (sel : Nat) : FrameBuf := aget (fun _ => FrameBuf.init) s.fst.bufs sel
def State.setBuf (s : State) (sel : Nat) (b : FrameBuf) : State :=
  s.onFst (fun f => { f with bufs := aset (fun _ => FrameBuf.init) f.bufs sel b })

/-- A frame buffer assigned to a frame. -/
def freshBuf (f : Nat) : FrameBuf := { FrameBuf.init with frame := some f }

/-- FST_MAP_ADDR, _SIZE and _FRAME describe the buffer selected (R229); a buffer placed anew holds no frame before a packet names it (R212). -/
def State.syncMap (s : State) : State :=
  let sel := (s.reg Reg.FST_MAP_SEL).toNat
  let (a, n) := match s.region sel with
    | some p => (p.gran, p.size)
    | none => (0, 0)
  let holder := if selClass sel = 2 then sel - 0x1000 else sel
  let b := s.buf holder
  let frame := if b.anew && !b.named then 0xFFFFFFFF else b.frame.getD 0xFFFFFFFF
  let s := s.setF Reg.FST_MAP_ADDR F.FST_MAP_ADDR_ADDR a
  let s := s.setF Reg.FST_MAP_SIZE F.FST_MAP_SIZE_GRAN n
  s.setReg Reg.FST_MAP_FRAME (word frame)

/-- Whether a code without reserved bits names a buffer: the fields that its class does not name are 0 (R229). -/
def selOk (n : Nat) : Bool :=
  let c := selClass n
  let used := if c = 0 ∨ c = 4 then 0xF00F else if c = 1 ∨ c = 2 then 0xF73F else if c = 3 then 0xF70F else 0xF000
  decide (c < 8) && n &&& used == n && (decide (3 < c) || decide (n % 16 ≤ 2))

/-- A write of FST_MAP_SEL (R229); its reserved bits are ignored (R9). -/
def State.writeMapSel (s : State) (v : Word) : State :=
  let n := v.toNat &&& 0xF73F
  if selOk n then (s.setReg Reg.FST_MAP_SEL (word n)).syncMap else s.event Ev.GBL_REJECT_WRITE []

/-! ## Targets' buffers (R183, R184) -/

/-- The first buffers of the targets that ingress fills: base frame, windows, line-locked images. -/
def targetSels : List Nat :=
  [0] ++ (List.range 8).flatMap (fun v => (List.range 4).map (selWindow v)) ++ (List.range 8).map selLine

/-- The three buffers of a target. -/
def three (t : Nat) : List Nat := [t, t + 1, t + 2]

/-- The buffer of target `t` that is for frame `f`; the hold frame is none of them. -/
def State.bufOf (s : State) (t f : Nat) : Option Nat :=
  (three t).find? (fun i => (s.buf i).frame == some f && !(s.buf i).hold)

/-- The hold frame L of target `t` (R184). -/
def State.holdOf (s : State) (t : Nat) : Option Nat := (three t).find? (fun i => (s.buf i).hold)

/-- A packet whose buffer is one that `p` picks: it stands as `h` says from now on (R184, R187). -/
def Packet.remark (p : Nat → Bool) (h : PktHold) (k : Packet) : Packet :=
  match k.hold with
  | .live sel => if p sel then { k with hold := h } else k
  | _ => k

def PktDecoder.remark (p : Nat → Bool) (h : PktHold) (d : PktDecoder) : PktDecoder :=
  { d with cur := d.cur.map (Packet.remark p h), fin := d.fin.map (Packet.remark p h) }

/-- The packets in progress on every port for the buffers that `p` picks (R184, R187). -/
def State.remark (s : State) (p : Nat → Bool) (h : PktHold) : State :=
  (List.range 4).foldl (fun s q => s.onLink q (fun k => { k with dec := k.dec.remark p h, decAt := k.decAt.remark p h })) s

/-- Give frame `f` a free buffer of target `t`, if it has none and one is free. -/
def State.giveBuffer (s : State) (t f : Nat) : State :=
  if (s.bufOf t f).isSome || (s.placed t).isNone then s
  else
    match (three t).find? (fun i => (s.buf i).frame == none) with
    | some i => s.setBuf i (freshBuf f)
    | none => s

/-- Free the buffers of target `t` that `keep` does not keep; their assembly slots are discarded, and packets in progress for them stand as
`h` says (R184, R224). -/
def State.freeBuffers (s : State) (t : Nat) (keep : Nat → Bool) (h : PktHold) : State :=
  let s := s.remark (fun i => (three t).contains i && !keep i) h
  (three t).foldl (fun s i =>
    if keep i then s
    else (s.setBuf i FrameBuf.init).onFst (fun f => { f with asm := f.asm.filter (fun a => a.sel ≠ i) })) s

/-- Assign frames cur and cur + 1 to a target's free buffers. -/
def State.assignFrames (s : State) (t : Nat) : State := (s.giveBuffer t s.gen.fc).giveBuffer t (s.gen.fc + 1)

/-- The frame counter changed by a step other than + 1 (R184). -/
def State.stepFrames (s : State) : State :=
  (targetSels.foldl (fun s t =>
    let hold := s.holdOf t
    (s.freeBuffers t (fun i => hold == some i) .freed).assignFrames t) s).syncMap

/-! ## Demand and placement after a commit (R212 to R214) -/

/-- Bits that a slot of view `v` reads of target `t` (R214). (DEDUCED, log entry 78.) -/
def State.demandBits (s : State) (t : Nat) : Nat :=
  let g := s.geomOf t
  let m := if s.getF Reg.FST_ALLOC F.FST_ALLOC_PLATE_N ≠ 0 then min (s.modeOf t) (s.modeOf (selPlate 0)) else s.modeOf t
  8 * blocksOf g.1 g.2 * blockBytes false m

def State.viewEn (s : State) (v : Nat) : Bool := s.flag (Reg.VIEW_CFG v) F.VIEW_CFG_EN
def State.lineLock (s : State) (v : Nat) : Bool := s.flag (Reg.VIEW_CFG v) F.VIEW_CFG_LINE_LOCK
def State.winEn (s : State) (v : Nat) : Nat := s.getF (Reg.VIEW_CFG v) F.VIEW_CFG_WIN_EN

/-- Bits per frame period that the scan reads and writes (R214). -/
def State.scanBits (s : State) : Nat :=
  let views := (List.range 8).filter s.viewEn
  let slot := fun v =>
    (if s.lineLock v then s.demandBits (selLine v) else s.demandBits selBase)
      + ((bitsOf (s.winEn v) 4).map (fun w =>
          s.demandBits (selWindow v w)
            + (if s.wantsBuffer (selMask v w) then
                8 * fieldOf F.FST_WALLOC_MAXH (s.walloc v w) * 64 * ceilDiv (fieldOf F.FST_WALLOC_MAXW (s.walloc v w)) 64 else 0))).foldl (· + ·) 0
  (views.map slot).foldl (· + ·) 0 + 2 * views.length * 8 * 24576 * blockBytes true (s.modeOf selHistory)

/-- Whether D exceeds D_MAX = 4,400 Gbit/s; F_b is 1.2 GHz over GEN_PERIOD (R214). -/
def State.demandTooHigh (s : State) : Bool :=
  decide (4400000000000 * (s.reg Reg.GEN_PERIOD).toNat < s.scanBits * 1200000000)

/-- FST_DEMAND of the configuration in force. -/
def State.syncDemand (s : State) : State :=
  s.setF Reg.FST_DEMAND F.FST_DEMAND_GBPS (ceilDiv (s.scanBits * 1200000000) (max 1 (s.reg Reg.GEN_PERIOD).toNat * 1000000000))

/-- FST_FREE and FST_FREE_RUN. -/
def State.syncFree (s : State) : State :=
  let used := (s.fst.place.map (fun e => e.2.size)).foldl (· + ·) 0
  let s := s.setF Reg.FST_FREE F.FST_FREE_GRAN (endGranule - firstGranule - used)
  s.setF Reg.FST_FREE_RUN F.FST_FREE_RUN_GRAN (largestRun (byAddress s.fst.place) firstGranule 0)

/-! ## Loss maps (R226) -/

/-- The address of a coded buffer's loss map. -/
def State.lossMap (s : State) (sel : Nat) : Nat :=
  match s.region sel with
  | some p => 4096 * (p.gran + dataGranules (selClass sel) p.mode p.w p.h)
  | none => 0

/-- Loss-map entry `i` of buffer `sel`. -/
def State.lossEntry (s : State) (sel i : Nat) : Nat :=
  (aget s.fsDefault s.fst.mem (s.lossMap sel + i / 2)).toNat / 16 ^ (i % 2) % 16

def State.setLossEntry (s : State) (sel i n : Nat) : State :=
  let a := s.lossMap sel + i / 2
  let old := (aget s.fsDefault s.fst.mem a).toNat
  s.fsWrite a [BitVec.ofNat 8 (if i % 2 = 0 then old / 16 * 16 + n else n * 16 + old % 16)]

/-- A buffer's loss map reads 0xF throughout: no block of it has been encoded (R226). -/
def State.clearLossMap (s : State) (sel : Nat) : State :=
  match s.region sel with
  | some p => if p.mode = 0 then s else s.fsWrite (s.lossMap sel) (List.replicate (ceilDiv (blocksOf p.w p.h) 2) 0xFF)
  | none => s

/-! ## Placement after a commit (R212) -/

/-- Whether any block inside the segment has its zero-map bit set: ODV_STAT.ZERO_ANY (R310). (DEDUCED, log entry 91.) -/
def State.syncZero (s : State) : State :=
  let n := blocksOf s.width s.height
  s.setF Reg.ODV_STAT F.ODV_STAT_ZERO_ANY (b2n (s.pipe.hValid % 2 ^ n != 2 ^ n - 1))

/-- The buffers whose frames a new placement takes away: those placed anew, and those of a window whose mask buffers are (R212). -/
def lostBuffers (moved : List Nat) : List Nat :=
  moved ++ allSels.filter (fun sel => selClass sel = 1 && moved.contains (sel + 0x1000) && !moved.contains sel)

/-- Buffer `sel` holds nothing any more: no frame, and no plate frame of its staging (R24, R212). -/
def State.emptyBuffer (s : State) (sel : Nat) : State :=
  let s := s.setBuf sel FrameBuf.init
  if selClass sel = 4 then s.onMag (fun m => { m with stages := aset (fun _ => none) m.stages (sel % 16) none }) else s

/-- A commit that changed allocation, modes or geometry comes into force (R212): changed buffers are freed and placed anew; a
coded buffer's loss map then reads 0xF. The targets' buffers take data for cur and cur + 1 at once, but hold no frame yet. (DEDUCED, log
entry 24.) -/
def State.replaceBuffers (s : State) : State :=
  let old := s.fst.place
  match s.newPlaces with
  | none => s
  | some m =>
    let moved := allSels.filter (fun sel => decide (old.find? (fun e => e.1 == sel) ≠ m.find? (fun e => e.1 == sel)))
    let lost := lostBuffers moved
    let s := s.remark (fun i => lost.contains i) .freed
    let s := s.onFst (fun f => { f with place := m, asm := f.asm.filter (fun a => !lost.contains a.sel) })
    let s := lost.foldl State.emptyBuffer s
    let s := moved.foldl State.clearLossMap s
    let s := targetSels.foldl (fun s t => s.assignFrames t) s
    let s := lost.foldl (fun s sel => if (s.buf sel).frame.isSome then s.setBuf sel { s.buf sel with anew := true } else s) s
    (((s.syncFree).syncDemand).syncMap).syncZero

/-! ## What coding has lost (R226, R230) -/

/-- The class's field of SWG_QMAX (R230). -/
def qmaxField (sel : Nat) : Fld :=
  match selClass sel with
  | 1 => F.SWG_QMAX_WIN
  | 4 => F.SWG_QMAX_PLATE
  | 5 => F.SWG_QMAX_HIST
  | _ => F.SWG_QMAX_BASE

/-- TARGET of an ingress target (R177), as events carry it; 0 for a plate staging buffer, which has none. (DESIGN CHOICE, log entry
138.) -/
def targetByte (sel : Nat) : Nat :=
  match selClass sel with
  | 1 => 64 + 8 * selView sel + 2 * selWin sel
  | 2 => 128 + 8 * selView sel + 2 * selWin sel
  | 3 => 192 + 8 * selView sel
  | _ => 0

/-- SWG_LOSS for the blocks `is` of buffer `sel` holding frame `f` of target `tgt`, if any block had Q > 0 (R226). The count of lossy blocks
is an item of 32 bits. (DESIGN CHOICE, log entry 138.) -/
def State.reportLoss (s : State) (sel tgt f : Nat) (is : List Nat) : State :=
  let qs := (is.map (s.lossEntry sel)).filter (fun q => decide (1 ≤ q ∧ q ≤ 10))
  if qs.isEmpty then s
  else
    let q := qs.foldl max 0
    let s := s.setF Reg.SWG_QMAX (qmaxField sel) q
    s.event Ev.SWG_LOSS [(8, tgt), (8, q), (32, f), (32, qs.length)]

/-- The blocks of a frame that holds `w` by `h` pixels in a buffer. -/
def frameBlocks (p : Placement) (w h : Nat) : List Nat :=
  (List.range (ceilDiv h 4)).flatMap (fun bY => (List.range (ceilDiv w 64)).map (fun bx => bY * ceilDiv p.w 64 + bx))

/-- The loss of the frame in buffer `sel`, if the buffer is coded (R226). -/
def State.reportFrameLoss (s : State) (sel tgt f : Nat) : State :=
  match s.placed sel with
  | some q =>
    if q.mode = 0 then s
    else
      let (w, h) := match (s.buf sel).rect with
        | some r => (r.w, r.h)
        | none => (q.w, q.h)
      s.reportLoss sel tgt f (frameBlocks q w h)
  | none => s

/-! ## Rows and blocks (R210, R211, R219 to R225) -/

/-- Samples of a row cut or padded to `n` pixels: padding repeats the last pixel (R210). -/
def padRow (n : Nat) (row : List Nat) : List Nat :=
  let k := row.length / 3
  (row.take (3 * n)) ++ (List.range (n - k)).flatMap (fun _ => row.drop (3 * (k - 1)))

/-- The 64 pixels of block column `bx` of a padded row. (DEDUCED, log entry 67.) -/
def blockRow (row : List Nat) (bx : Nat) : List Nat := (row.drop (192 * bx)).take 192

/-- Bytes of one block row of samples at 1:1: 432 for pixels, 336 for history. -/
def rowBytes (hist : Bool) (samples : List Nat) : List Byte :=
  leBytes (24 * sampleBits hist) (packFields (samples.map (fun x => (sampleBits hist, x))))

/-- Samples of one block row at 1:1. -/
def samplesOf (hist : Bool) (n : Nat) (bytes : List Byte) : List Nat :=
  let v := leNat bytes
  (List.range n).map (fun k => streamBits v (sampleBits hist * k) (sampleBits hist))

/-- Address of block (bx, by) of a placed buffer. -/
def blockAddr (p : Placement) (hist : Bool) (bx bY : Nat) : Nat :=
  4096 * p.gran + (bY * ceilDiv p.w 64 + bx) * blockBytes hist p.mode

/-- Write pixels of row `y` of an uncoded buffer from column `x0` on; what the blocks hold on either side of them stays (R211). -/
def State.writeRowRaw (s : State) (p : Placement) (hist : Bool) (y x0 : Nat) (row : List Nat) : State :=
  let b := 3 * sampleBits hist
  let x1 := x0 + row.length / 3
  (List.range (ceilDiv p.w 64)).foldl (fun s bx =>
    let lo := max x0 (64 * bx) - 64 * bx
    let hi := min x1 (64 * bx + 64) - 64 * bx
    if hi ≤ lo then s
    else
      let a := blockAddr p hist bx (y / 4) + 8 * b * (y % 4)
      let new := (row.drop (3 * (64 * bx + lo - x0))).take (3 * (hi - lo))
      let all := if hi - lo = 64 then new
        else
          let old := samplesOf hist 192 (s.fsRead a (8 * b))
          old.take (3 * lo) ++ new ++ old.drop (3 * hi)
      s.fsWrite (a + b * lo / 8) (slice (b * lo / 8) (ceilDiv (b * hi) 8 - b * lo / 8) (rowBytes hist all))) s

/-- Encode a block row from its four rows and write it with its loss-map entries (R222, R226). -/
def State.encodeRows (s : State) (sel : Nat) (p : Placement) (hist : Bool) (bY : Nat) (rows : List (List Nat)) : State :=
  let bpr := ceilDiv p.w 64
  let rows := rows.map (padRow (64 * bpr))
  let s := (List.range bpr).foldl (fun s bx =>
    let (q, bytes) := encodeBlock hist p.mode (planesOf (rows.map (fun r => blockRow r bx)))
    let s := s.fsWrite (blockAddr p hist bx bY) bytes
    let s := s.setLossEntry sel (bY * bpr + bx) q
    let s := s.bump Reg.SWG_CNT_BLK 1
    if q = 0 then s else s.bump Reg.SWG_CNT_LOSSY 1) s
  s.setBuf sel { s.buf sel with enc := setBit (s.buf sel).enc bY }

/-- Read block (bx, by): its four rows, with zeros for what is lost; a bad block is recorded (R217, R223). Answers also whether
the block was bad or hit by an uncorrectable error. -/
def State.readBlock (s : State) (sel : Nat) (p : Placement) (hist : Bool) (bx bY : Nat) : List (List Nat) × Bool × State :=
  let a := blockAddr p hist bx bY
  let n := blockBytes hist p.mode
  let zero := List.replicate 4 (List.replicate 192 0)
  if p.mode = 0 then
    let sb := sampleBits hist
    let rows := (List.range 4).map (fun r =>
      let ss := samplesOf hist 192 (s.fsRead (a + 24 * sb * r) (24 * sb))
      ss.zipIdx.map (fun e =>
        let px := 64 * r + e.2 / 3
        if s.fst.ue.isEmpty then e.1
        else if s.fsBad (a + px * 3 * sb / 8) ((px * 3 * sb + 3 * sb - 1) / 8 + 1 - px * 3 * sb / 8) then 0 else e.1))
    (rows, s.fsBad a n, s)
  else
    match (if s.fsBad a n then none else decodeBlock hist p.mode (s.fsRead a n)) with
    | some planes => ((List.range 4).map (rowOfPlanes planes), false, s)
    | none =>
      let s := s.setLossEntry sel (bY * ceilDiv p.w 64 + bx) 0xE
      let s := (s.bump Reg.SWG_CNT_BAD 1).event Ev.SWG_BLOCK_BAD [(64, a)]
      (zero, true, s)

/-- Read the four rows of a block row, whole width. -/
def State.readBlockRow (s : State) (sel : Nat) (p : Placement) (hist : Bool) (bY : Nat) : List (List Nat) × State :=
  (List.range (ceilDiv p.w 64)).foldl (fun acc bx =>
    let (rows, _, s) := acc.2.readBlock sel p hist bx bY
    ((acc.1.zip rows).map (fun e => e.1 ++ e.2), s)) ([[], [], [], []], s)

/-- The rows that block row `bY` of a buffer needs: the rows below its frame's height (R224). -/
def State.rowsNeeded (s : State) (sel : Nat) (p : Placement) (bY : Nat) : Nat :=
  let h := match (s.buf sel).rect with
    | some r => r.h
    | none => p.h
  min 4 (h - 4 * bY)

/-- The bank word that holds sample `k` of row `r` of assembly slot `n`: 12,288 words a slot, its rows one after another, four samples to a word
(R224, R451, R454, R456). (DESIGN CHOICE, log entry 138.) -/
def State.asmWord (s : State) (n r k : Nat) : Option Nat := s.poolWord 5 6 (12288 * n + 3072 * r + k / 4)

/-- SWG_W writes samples [a, b) of row `r` of assembly slot `n` (R452, R463, R464). -/
def State.asmWrite (s : State) (n r a b : Nat) : State :=
  if s.banksClean then s
  else
    let full := ((List.range (b / 4 - (a + 3) / 4)).map (fun j => (a + 3) / 4 * 4 + 4 * j)).filterMap (s.asmWord n r)
    let ends := (if a % 4 = 0 then [] else [a]) ++ (if b % 4 = 0 then [] else [b])
    s.writeWords 4 full (ends.filterMap (s.asmWord n r))

/-- SWG_R reads row `r` of assembly slot `n`: the samples of an uncorrectable word encode as 0 (R462, R465). -/
def State.asmRead (s : State) (n r : Nat) (row : List Nat) : List Nat × State :=
  if s.banksClean then (row, s)
  else
    let hit (k : Nat) : Bool := (s.asmWord n r k).any s.bnk.bad.contains
    (row.zipIdx.map (fun e => if hit e.2 then 0 else e.1),
      (List.range (ceilDiv row.length 4)).foldl (fun s j => match s.asmWord n r (4 * j) with
        | some w => s.readWord 5 w
        | none => s) s)

/-- SWG_R reads the rows of an assembly slot. -/
def State.asmRows (s : State) (a : AsmSlot) (n : Nat) : List (List Nat) × State :=
  (List.range n).foldl (fun acc r =>
    let (row, s) := acc.2.asmRead a.slot r (aget (fun _ => []) a.rows r)
    (acc.1 ++ [row], s)) ([], s)

/-- Encode an assembly slot whose rows are all present, and free it (R224, R465). (DEDUCED, log entry 67.) -/
def State.finishSlot (s : State) (p : Placement) (a : AsmSlot) : State :=
  let n := s.rowsNeeded a.sel p a.brow
  if n ≠ 0 ∧ (List.range n).all (fun r => a.present.testBit r) then
    let (l, s) := s.asmRows a n
    let rows := (List.range 4).map (fun r => l.getD (min r (n - 1)) [])
    let s := s.onFst (fun f => { f with asm := f.asm.filter (fun b => !(b.sel == a.sel && b.frame == a.frame && b.brow == a.brow)) })
    s.encodeRows a.sel p false a.brow rows
  else s

/-- The assembly slot of a block row. -/
def State.slotOf (s : State) (sel f bY : Nat) : Option AsmSlot :=
  s.fst.asm.find? (fun a => a.sel == sel && a.frame == f && a.brow == bY)

/-- Evict the slot whose first write is oldest (R224): its rows lose their marks, and a line-locked row that it held is lost as a hold
row. (DEDUCED, log entry 66.) -/
def State.evictSlot (s : State) : State :=
  match s.fst.asm with
  | [] => s
  | a :: rest =>
    let s := s.onFst (fun f => { f with asm := rest })
    let b := s.buf a.sel
    let s := s.setBuf a.sel { b with rows := (List.range 4).foldl (fun m r => clearBit m (4 * a.brow + r)) b.rows }
    (s.bump Reg.SWG_CNT_EVICT 1).event Ev.SWG_ASM_EVICT [(8, targetByte a.sel), (16, a.brow), (32, a.frame)]

/-- Put an assembly slot back. (DEDUCED, log entry 66.) -/
def State.putSlot (s : State) (a : AsmSlot) : State :=
  s.onFst (fun f => { f with asm := f.asm.map (fun b => if b.sel = a.sel ∧ b.frame = a.frame ∧ b.brow = a.brow then a else b) })

/-- The assembly slot of a block row is opened, if it has none: one of a block row that has been encoded holds its rows as they decode
(R224, R225). (DEDUCED, log entry 66.) -/
def State.openSlot (s : State) (sel f : Nat) (p : Placement) (bY : Nat) : State :=
  if (s.slotOf sel f bY).isSome then s
  else
    let s := if 32 ≤ s.fst.asm.length then s.evictSlot else s
    let n := ((List.range 32).find? (fun k => !s.fst.asm.any (fun a => a.slot == k))).getD 0
    if (s.buf sel).enc.testBit bY then
      let (rows, s) := s.readBlockRow sel p false bY
      let s := (List.range 4).foldl (fun s r => s.asmWrite n r 0 (64 * 3 * ceilDiv p.w 64)) s
      (s.bump Reg.SWG_CNT_REENC 1).onFst (fun g => { g with asm := g.asm ++ [⟨sel, f, bY, rows.zipIdx.map (fun e => (e.2, e.1)), n, 15, 15⟩] })
    else s.onFst (fun g => { g with asm := g.asm ++ [⟨sel, f, bY, [], n, 0, 0⟩] })

/-- Pixels from column `x0` on enter row `r` of an assembly slot; `last`: the row's last pixel is among them. -/
def AsmSlot.put (a : AsmSlot) (r x0 : Nat) (row : List Nat) (last : Bool) : AsmSlot :=
  let old := aget (fun _ => []) a.rows r
  { a with
    rows := ainsert (aerase a.rows r) r ((old ++ List.replicate (3 * x0 - old.length) 0).take (3 * x0) ++ row ++ old.drop (3 * x0 + row.length))
    whole := if last ∧ 3 * x0 ≤ old.length then setBit a.whole r else a.whole }

/-- Write pixels of row `y` of a coded buffer for frame `f` from column `x0` on (R224, R225); `last`: the row's last pixel is among them.
`present`: a row written whole is present without a mark, as it is where the block row has been encoded already. -/
def State.writeRowCoded (s : State) (sel f : Nat) (p : Placement) (y x0 : Nat) (row : List Nat) (last present : Bool) : State :=
  let bY := y / 4
  let s := s.openSlot sel f p bY
  match s.slotOf sel f bY with
  | none => s
  | some a =>
    let s := s.asmWrite a.slot (y % 4) (3 * x0) (3 * x0 + row.length)
    let a := a.put (y % 4) x0 row last
    let enc := (s.buf sel).enc.testBit bY
    let a := { a with
      present := if last && a.whole.testBit (y % 4) && (present || enc) then setBit a.present (y % 4)
        else if enc then clearBit a.present (y % 4) else a.present }
    (s.putSlot a).finishSlot p a

/-- Whether row `y` of frame `f` is in its buffer: uncoded, in an encoded block row, or whole in an assembly slot (R224). -/
def State.rowHeld (s : State) (sel f y : Nat) : Bool :=
  match s.placed sel with
  | none => false
  | some p =>
    p.mode == 0 || (s.buf sel).enc.testBit (y / 4)
      || (match s.slotOf sel f (y / 4) with
          | some a => a.whole.testBit (y % 4)
          | none => false)

/-- Row `y` of frame `f` is marked, so that it is present in its assembly slot (R185, R224); a row that an eviction has discarded is not. -/
def State.markRow (s : State) (sel f y : Nat) : State :=
  if !s.rowHeld sel f y then s
  else
    let s := s.setBuf sel { s.buf sel with rows := setBit (s.buf sel).rows y }
    match s.placed sel, s.slotOf sel f (y / 4) with
    | some p, some a =>
      let a := { a with present := setBit a.present (y % 4) }
      (s.putSlot a).finishSlot p a
    | _, _ => s

/-- Write pixels of row `y` into buffer `sel`, which holds frame `f`, from column `x0` on; `last`: the row's last pixel is among them. -/
def State.writeRow (s : State) (sel f y x0 : Nat) (row : List Nat) (last present : Bool) : State :=
  match s.placed sel with
  | none => s
  | some p =>
    if p.mode = 0 then s.writeRowRaw p false y x0 (if last then padRow (64 * ceilDiv p.w 64 - x0) row else row)
    else s.writeRowCoded sel f p y x0 row last present

/-- Write mask values of row `y` from column `x0` on (R211). -/
def State.writeMaskRow (s : State) (sel y x0 : Nat) (row : List Byte) : State :=
  match s.placed sel with
  | none => s
  | some p => s.fsWrite (4096 * p.gran + y * (64 * ceilDiv p.w 64) + x0) row

/-- Read row `y` of buffer `sel`: pixels from the assembly buffer while they wait there, otherwise from the store. -/
def State.readRow (s : State) (sel y : Nat) : List Nat × State :=
  match s.region sel with
  | none => ([], s)
  | some p =>
    match (s.buf sel).frame.bind (fun f => s.slotOf sel f (y / 4)) with
    | some a => (padRow p.w (aget (fun _ => List.replicate 3 0) a.rows (y % 4)), s)
    | none =>
      let (rows, s) := s.readBlockRow sel p false (y / 4)
      ((rows.getD (y % 4) []).take (3 * p.w), s)

/-- Read a mask row: a unit with an uncorrectable error reads 0 (R217). -/
def State.readMaskRow (s : State) (sel y n : Nat) : List Nat :=
  match s.placed sel with
  | none => []
  | some p =>
    let a := 4096 * p.gran + y * (64 * ceilDiv p.w 64)
    (s.fsRead a n).zipIdx.map (fun e => if s.fsBad (a + e.2) 1 then 0 else e.1.toNat)

/-! ## Errors, training and self-test (R217, R230) -/

/-- Errors that a read of the frame store meets (R217). FST_ECC_UE carries the number of the unit, as FST_ERR_ADDR holds it. (DESIGN CHOICE, log
entry 138.) -/
def State.takeEcc (s : State) (errs : List ReadError) : State :=
  errs.foldl (fun s e =>
    if e.correctable then (s.bump Reg.FST_CNT_CE 1).event Ev.FST_ECC_CE []
    else
      let s := s.bump Reg.FST_CNT_UE 1
      let s := s.setF Reg.FST_ERR_ADDR F.FST_ERR_ADDR_ADDR e.unit
      let s := s.onFst (fun f => { f with ue := if f.ue.contains e.unit then f.ue else f.ue ++ [e.unit] })
      s.event Ev.FST_ECC_UE [(32, e.unit)]) s

/-- Interface training is lost (R217): FST, WPORT and SCAN clear, the scan ends with the current slot, and the panel goes off. -/
def State.loseTraining (s : State) : State :=
  let s := s.setF Reg.FST_STAT F.FST_STAT_TRAINED 0
  let s := s.event Ev.FST_TRAIN_LOST []
  let s := ((s.clearReady 6).clearReady 17).clearReady 9
  s.beginOff true 0

/-- Whether any buffer is held in Swage coding, and whether a pixel buffer is. -/
def State.anyCoded (s : State) : Bool := (s.reg Reg.SWG_MODE0 != 0) || (s.reg Reg.SWG_MODE1 != 0)
def State.anyPixelCoded (s : State) : Bool :=
  withField F.SWG_MODE0_HIST 0 (s.reg Reg.SWG_MODE0) != 0 || s.reg Reg.SWG_MODE1 != 0

/-- A write of SWG_BIST (R230). -/
def State.writeSwgBist (s : State) (v : Word) : State :=
  if fieldOf F.SWG_BIST_GO v = 0 ∨ s.flag Reg.SWG_BIST F.SWG_BIST_GO then s
  else if s.anyCoded then s.event Ev.SWG_BIST_REFUSED []
  else (s.setF Reg.SWG_BIST F.SWG_BIST_GO 1).setF Reg.SWG_BIST F.SWG_BIST_DONE 0

/-- SWG_BIST_GO (R230). -/
def execSwgBistGo (v : Word) (s : State) : Res :=
  .next (s.viaReg Reg.SWG_BIST (withField F.SWG_BIST_GO 1 v) (fun s => s.writeSwgBist (withField F.SWG_BIST_GO 1 v)))

/-- What the Swage self-test found (R230). -/
def State.swgTested (s : State) (ok : Bool) : State :=
  let s := s.setF Reg.SWG_BIST F.SWG_BIST_GO 0
  let s := s.setF Reg.SWG_BIST F.SWG_BIST_DONE 1
  let s := s.setF Reg.SWG_BIST F.SWG_BIST_FAIL (b2n (!ok))
  if ok then s else (s.event Ev.SWG_BIST_FAIL []).clearReady 12

/-- The Swage self-test ends (R230). -/
def State.endSwgBist (s : State) (ok : Bool) : State := if s.flag Reg.SWG_BIST F.SWG_BIST_GO then s.swgTested ok else s

end Sys2Proof.Machine
end

