-- ==== Sys2Proof/Machine/Genlock.lean ====
section
/-! DEFINITION. Genlock, camera shutters, the slot schedule and its checks (R232 to R257). Applying a schedule at a boundary stands in
Boundary.lean. -/

namespace Sys2Proof.Machine

/-! ## The schedule (R243 to R246) -/

/-- GEN_PERIOD in PCLK. (DEDUCED, log entry 78.) -/
def State.period (s : State) : Nat := (s.reg Reg.GEN_PERIOD).toNat
/-- The most that a period may be shortened: GEN_PERIOD − P_min (R238). -/
def State.shorten (s : State) : Nat := ceilDiv (s.period * 50) 1000000
/-- P_min (R238). -/
def State.pMin (s : State) : Nat := s.period - s.shorten
/-- The row time t. -/
def State.rowT (s : State) : Nat := s.getF Reg.GEN_ROWT F.GEN_ROWT_ROWT
/-- The length Le of a slot's emission interval (R243). -/
def State.emitLen (s : State) : Nat := (767 + s.getF Reg.GEN_ROWT F.GEN_ROWT_EMIT) * s.rowT
/-- The view of slot k in GEN_ORDER; 15 when the slot is unused. -/
def State.order (s : State) (k : Nat) : Nat := (s.reg Reg.GEN_ORDER).toNat / 16 ^ k % 16
/-- The enabled views. -/
def State.enabledViews (s : State) : List Nat := (List.range 8).filter s.viewEn
/-- The slots that GEN_ORDER and the enabled views give. -/
def State.nOrder (s : State) : Nat := s.enabledViews.length
/-- The programmed window of view v: open offset and duration. -/
def State.progWin (s : State) (v : Nat) : Nat × Nat := ((s.reg (Reg.GEN_SOFF v)).toNat, (s.reg (Reg.GEN_SDUR v)).toNat)
/-- The window of view v under the measured windows `wins` (R242). -/
def State.viewWin (s : State) (wins : AMap (Nat × Nat)) (v : Nat) : Nat × Nat := aget (fun v => s.progWin v) wins v
/-- Whether placement is by shutters. -/
def State.shutterPlace (s : State) : Bool := s.flag Reg.GEN_CFG F.GEN_CFG_PLACE

/-- A slot schedule: BOFF, and each slot's view and δ. -/
structure SlotTable where
  boff : Nat
  slots : List (Nat × Nat)
  deriving DecidableEq, Repr

/-- The scan start s_v of view v relative to ref (R245). -/
def State.viewStart (s : State) (wins : AMap (Nat × Nat)) (v : Nat) : Nat :=
  let (o, d) := s.viewWin wins v
  (((o : Int) + trnDiv ((d : Int) - s.emitLen) 2 - s.rowT) % (max s.period 1 : Nat)).toNat

/-- The schedule that the registers of `s` and the measured windows give; `boff` is the offset last in force (R233, R244, R245). -/
def State.slotTable (s : State) (wins : AMap (Nat × Nat)) (boff : Nat) : SlotTable :=
  let n := s.nOrder
  let p := max s.period 1
  let vs := (List.range n).map s.order
  if n = 0 then ⟨boff, []⟩
  else if s.shutterPlace then
    let b := s.viewStart wins (s.order 0)
    ⟨b, vs.map (fun v => (v, (s.viewStart wins v + p - b) % p))⟩
  else ⟨s.getF Reg.GEN_PHASE F.GEN_PHASE_PHASE, (List.range n).map (fun k => (s.order k, k * (p / n)))⟩

/-- Whether [a, a + la) meets [b, b + lb) modulo p. -/
def meetsMod (p a la b lb : Nat) : Bool :=
  decide ((a + p - b % p) % p < lb) || decide ((b + p - a % p) % p < la)

/-- Whether GEN_ORDER names each enabled view exactly once in its first slots and 0xF after (R246). -/
def State.orderOk (s : State) : Bool :=
  let n := s.nOrder
  (List.range 8).all (fun k => if k < n then s.enabledViews.contains (s.order k) else s.order k == 15)
    && s.enabledViews.all (fun v => ((List.range n).filter (fun k => s.order k == v)).length == 1)

/-- Whether slots follow one another by at least a scan (R246). -/
def spacingOk (pmin scan : Nat) : List (Nat × Nat) → Bool
  | [] => true
  | [(_, d)] => decide (d + scan ≤ pmin)
  | (_, d) :: (v, e) :: t => decide (d + scan ≤ e) && spacingOk pmin scan ((v, e) :: t)

/-- The checks of R246 that fail: offset of the register at fault, number of the check in its table, and a view. (DEDUCED, log entry 78.) -/
def State.schedFaults (s : State) (wins : AMap (Nat × Nat)) : List (Nat × Nat × Nat) :=
  let p := max s.period 1
  let vs := s.enabledViews
  let g := s.getF Reg.GEN_GUARD F.GEN_GUARD_GUARD
  let le := s.emitLen
  let order := s.orderOk
  let limit := if s.part = .ba then 1920 else 960
  let bad1 := if order then [] else [(Reg.GEN_ORDER, 1, 15)]
  let bad2 := if limit * p < s.nOrder * 1200000000 then [(Reg.GEN_ORDER, 2, 15)] else []
  let bad3 := if (order || !s.shutterPlace) && !spacingOk s.pMin (768 * s.rowT) (s.slotTable wins 0).slots then [(Reg.GEN_ROWT, 3, 15)] else []
  let bad4 := if s.shutterPlace then
      vs.filterMap (fun v =>
        let (o, d) := s.viewWin wins v
        if d = 0 ∨ s.period < d ∨ s.period ≤ o then some (Reg.GEN_SDUR v, 4, v) else none)
    else []
  let bad5 := if s.shutterPlace then
      vs.filterMap (fun v => if (s.viewWin wins v).2 < le + 2 * g then some (Reg.GEN_SDUR v, 5, v) else none)
    else []
  let bad6 := if s.shutterPlace then
      vs.flatMap (fun v => vs.filterMap (fun u =>
        let (o, d) := s.viewWin wins u
        if u ≠ v ∧ meetsMod p (s.viewStart wins v + s.rowT) le (o + p - g % p) (d + 2 * g) = true
        then some (Reg.GEN_SOFF (min u v), 6, min u v) else none))
    else []
  let bad7 := if s.period ≤ s.getF Reg.GEN_PHASE F.GEN_PHASE_PHASE then [(Reg.GEN_PHASE, 7, 15)] else []
  bad1 ++ bad2 ++ bad3 ++ bad4 ++ bad5 ++ bad6 ++ bad7

/-- The slots in force (GEN_STAT.NSLOT). -/
def State.nSlot (s : State) : Nat := s.getF Reg.GEN_STAT F.GEN_STAT_NSLOT
/-- The view of slot k in force. -/
def State.slotView (s : State) (k : Nat) : Nat := s.getF (Reg.GEN_SLOT k) F.GEN_SLOT_VIEW
/-- δ of slot k in force. -/
def State.slotDelta (s : State) (k : Nat) : Nat := s.getF (Reg.GEN_SLOT k) F.GEN_SLOT_DELTA
def State.boff (s : State) : Nat := s.getF Reg.GEN_BOFF F.GEN_BOFF_V

/-- GEN_DIGEST over the words in force (R253). -/
def State.digestOf (s : State) : Word :=
  word (crc32c (([Reg.GEN_PERIOD, Reg.GEN_ROWT, Reg.GEN_BOFF] ++ (List.range 8).map Reg.GEN_SLOT).flatMap
    (fun o => leBytes 4 (s.reg o).toNat)))

/-- GEN_STAT.DIFF against the timing source's digest; the event once per change of either digest (R239). -/
def State.checkDigest (s : State) : State :=
  match s.gen.srcDigest with
  | some d =>
    if s.getF Reg.GEN_CFG F.GEN_CFG_SRC = 2 then
      let own := s.reg Reg.GEN_DIGEST
      let s := s.setF Reg.GEN_STAT F.GEN_STAT_DIFF (b2n (own != d))
      if own ≠ d then s.event Ev.GEN_SCHED_DIFF [(32, own.toNat), (32, d.toNat)] else s
    else s
  | none => s

/-- Put a schedule in force: GEN_BOFF, GEN_SLOTk, NSLOT, GEN_DIGEST (R245, R253, R255). -/
def State.putSlotTable (s : State) (t : SlotTable) : State :=
  let s := s.setF Reg.GEN_BOFF F.GEN_BOFF_V t.boff
  let s := s.setF Reg.GEN_STAT F.GEN_STAT_NSLOT t.slots.length
  let s := (List.range 8).foldl (fun s k =>
    s.setReg (Reg.GEN_SLOT k) (match t.slots[k]? with
      | some (v, d) => word (v * 2 ^ 28 + d % 2 ^ 26)
      | none => 0xF0000000)) s
  let old := s.reg Reg.GEN_DIGEST
  let s := s.setReg Reg.GEN_DIGEST s.digestOf
  if old = s.reg Reg.GEN_DIGEST then s else s.checkDigest

/-! ## Frame references (R233, R236 to R238) -/

/-- GEN_CFG.SRC. -/
def State.genSrc (s : State) : Nat := s.getF Reg.GEN_CFG F.GEN_CFG_SRC
/-- The lock state (R237). -/
def State.lockState (s : State) : Nat := s.getF Reg.GEN_STAT F.GEN_STAT_STATE
/-- GEN_CFG.MULT. -/
def State.mult (s : State) : Nat := max 1 (s.getF Reg.GEN_CFG F.GEN_CFG_MULT)

/-- The frame periods that the measured genlock periods hold, and PCLK in them (R237). -/
def State.heldFrames (s : State) : Nat := if s.gen.periods.isEmpty then 1 else s.gen.periods.length * s.mult
def State.heldTime (s : State) : Nat := if s.gen.periods.isEmpty then s.period else s.gen.periods.foldl (· + ·) 0

/-- The mean of the measured genlock periods as a frame period, what earlier ones left over included (R237). -/
def State.meanPeriod (s : State) : Nat := (s.heldTime + s.gen.frac) / max 1 s.heldFrames

/-- What the next reference leaves over of the held period: nothing is lost by rounding (R237). -/
def State.fracLeft (s : State) : Nat :=
  if s.gen.again then s.gen.frac
  else if s.lockState = 5 ∨ s.lockState = 6 then (s.heldTime + s.gen.frac) % max 1 s.heldFrames else 0

/-- The place on the genlock's grid of m references in each genlock period that lies nearest to one GEN_PERIOD after `r` (R236). -/
def State.gridAfter (s : State) (r : Nat) : Int :=
  match s.gen.lastSync, s.gen.periods with
  | some t, g :: _ => (t : Int) + trnDiv (rhuDiv (((r : Int) + s.period - t) * s.mult) (max g 1) * g) s.mult
  | _, _ => (r : Int) + s.period

/-- The first genlock reference to come after `r`: the last one measured is past (R238). -/
def State.syncAfter (s : State) (r : Nat) : Nat :=
  match s.gen.lastSync, s.gen.periods with
  | some t, g :: _ => t + ((r - t) / max g 1 + 1) * max g 1
  | _, _ => r + s.period

/-- The reference after `r` in ACQUIRE (R238): a jump; with the scan stopped the next genlock reference, while an error is left; otherwise the
place on the genlock's grid, as near to it as 50 ppm of GEN_PERIOD allow. (DEDUCED, log entry 72.) -/
def State.acquireRef (s : State) (r : Nat) : Nat :=
  let m : Int := (s.period * 50 / 1000000 : Nat)
  let p : Int := (r : Int) + s.period
  if s.gen.jump ≠ 0 then r + s.period + s.gen.jump
  else if s.scanRuns then (clampI (p - m) (p + m) (s.gridAfter r)).toNat
  else if s.gen.slew ≠ 0 then s.syncAfter r
  else (s.gridAfter r).toNat

/-- The reference after reference `r` (R233, R236 to R239). -/
def State.refAfter (s : State) (r : Nat) : Nat :=
  match s.lockState with
  | 3 => s.acquireRef r
  | 4 => (s.gridAfter r).toNat
  | 5 => r + s.meanPeriod
  | 6 => r + s.meanPeriod
  | 7 => s.gen.given.getD (r + s.gen.srcPeriod.getD s.period)
  | _ => r + s.period

/-- ref(F + 1), or ref(F) once more where a new placement puts the next boundary after it (R233, R629). -/
def State.nextRef (s : State) : Nat := if s.gen.again then s.gen.ref else s.refAfter s.gen.ref

/-- The phase error that the next frame reference leaves (R238). -/
def State.slewLeft (s : State) : Int :=
  if s.lockState = 3 ∧ s.scanRuns = true then s.gridAfter s.gen.ref - s.nextRef else 0

/-- What the next frame period, as the references place it, takes from GEN_PERIOD: a slew of ACQUIRE, or a genlock that runs faster (R238). -/
def State.slewTakes (s : State) : Nat := if s.gen.again then 0 else s.gen.ref + s.period - s.nextRef

/-- The boundary delay that the next boundary still has: with the scan running each period is shortened by at most the 50 ppm in all, a slew's
part included, and none is left once the scan is stopped (R247). (DEDUCED, log entry 76.) -/
def State.nextDelay (s : State) : Nat :=
  if s.scanRuns then s.gen.delay - min s.gen.delay (s.shorten - s.slewTakes) else 0

/-- bnd(F + 1) by the values in force. -/
def State.nextBnd (s : State) : Nat := s.nextRef + s.boff + s.nextDelay

/-- The volume time reaches `t`. (DEDUCED, log entry 15.) -/
def State.reachTime (s : State) (t : Nat) : State :=
  if s.gen.vt < t then s.onGen (fun g => { g with vt := t }) else s

/-! ## Lock (R234 to R238) -/

/-- Set the lock state. -/
def State.setLock (s : State) (n : Nat) : State := s.setF Reg.GEN_STAT F.GEN_STAT_STATE n

/-- GEN_PHERR as a signed number. -/
def State.pherr (s : State) : Nat := (s.reg Reg.GEN_PHERR).toNat

/-- Entry to HOLDOVER or MISMATCH (R237, R256). (DEDUCED, log entry 72.) -/
def State.unlock (s : State) (n : Nat) : State :=
  let s := (s.setLock n).bump Reg.GEN_CNT_UNLOCK 1
  let s := s.onGen (fun g => { g with okRun := 0, badRun := 0, slew := 0, jump := 0, frac := 0 })
  s.event Ev.GEN_UNLOCK [(8, n), (32, s.pherr)]

/-- Entry to LOCKED; realignment ends the DORMANT uncertainty (R237, R249). -/
def State.lock (s : State) : State :=
  let s := s.setLock 4
  let s := s.onGen (fun g => { g with badRun := 0, slew := 0, jump := 0 })
  let s := s.setF Reg.GEN_STAT F.GEN_STAT_ALIGNED 1
  let s := s.setReg Reg.GEN_VT_UNC 0
  s.event Ev.GEN_LOCK [(8, 4), (32, s.pherr)]

/-- The lock state that a change of GEN_CFG.SRC starts from (R237, R239). -/
def State.restartLock (s : State) : State :=
  let s := s.onGen (fun g => { g with okRun := 0, badRun := 0, slew := 0, jump := 0, given := none })
  match s.genSrc with
  | 1 => s.setLock (if s.getF Reg.GEN_STAT F.GEN_STAT_FMT_DET = 0 then 1 else 2)
  | 2 => s.setLock 7
  | _ => s.setLock 0

/-- GEN_CFG.SRC changed: with SRC = volume only the timing source's windows are used from then on (R239, R242). -/
def State.sourceChanged (s : State) : State :=
  s.restartLock.onGen (fun g => { g with wins := if s.genSrc = 2 then [] else g.wins })

/-- Whether a line observation fits GEN_CFG.FMT (R234). -/
def State.fmtFits (s : State) (kind : Nat) : Bool :=
  let f := s.getF Reg.GEN_CFG F.GEN_CFG_FMT
  decide (kind < 2) && (f == 0 || f == kind + 1)

/-- No genlock format is identified any more. -/
def State.clearFormat (s : State) : State :=
  let s := s.setF Reg.GEN_STAT F.GEN_STAT_FMT_DET 0
  (s.setReg Reg.GEN_LINE 0).onGen (fun g => { g with lastSync := none })

/-- A detected format that GEN_CFG.FMT in force does not match counts as no signal (R234). -/
def State.checkFormat (s : State) : State :=
  let f := s.getF Reg.GEN_STAT F.GEN_STAT_FMT_DET
  if f ≠ 0 ∧ s.fmtFits (f - 1) = false then s.clearFormat else s

/-- GENLOCK_LINE: a line sync pulse; `kind` 0 tri-level, 1 bi-level, 2 anything else; `h` the line period in PCLK (R234). Sixteen lines that fit
no format, or not the forced one, leave no format identified. (DEDUCED, log entry 72.) -/
def execGenlockLine (kind : Fin 3) (h : Nat) (s : State) : Res :=
  if !s.isReady 7 then .next s
  else
    let run := if s.gen.lineKind = kind.val then min 16 (s.gen.lineRun + 1) else 1
    let s := s.onGen (fun g => { g with lineKind := kind.val, lineRun := run })
    if run < 16 then .next s
    else if s.fmtFits kind = true ∧ 16800 ≤ h ∧ h ≤ 84000 then
      let s := s.setF Reg.GEN_STAT F.GEN_STAT_FMT_DET (kind.val + 1)
      let s := s.setF Reg.GEN_LINE F.GEN_LINE_H h
      .next (if s.genSrc = 1 ∧ s.lockState = 1 then s.setLock 2 else s)
    else .next s.clearFormat

/-- The frame reference that a genlock reference at `t` is aligned to: the one in force or the next, whichever is nearer (R237). -/
def State.nearRef (s : State) (t : Nat) : Nat :=
  if ((t : Int) - s.nextRef).natAbs < ((t : Int) - s.gen.ref).natAbs then s.nextRef else s.gen.ref

/-- The signed phase error of a genlock reference at `t` against the aligned frame reference (R237). (DEDUCED, log entry 72.) -/
def State.phaseError (s : State) (t : Nat) : Int :=
  let p := max s.period 1
  (((t : Int) - s.nearRef t + (p / 2 : Nat)) % (p : Int)) - (p / 2 : Nat)

/-- Whether a genlock period matches GEN_PERIOD × m within ±50 ppm (R236). -/
def State.rateFits (s : State) (g : Nat) : Bool :=
  let d : Int := (s.mult * s.period : Nat) - (g : Int)
  decide (d.natAbs * 1000000 ≤ 50 * g)

/-- The genlock period that an interval of `g` PCLK between two references shows: where references are missing in it, the mean over the
periods that `lines` lines of the measured H give (R234, R237). (DEDUCED, log entry 72.) -/
def State.syncPeriod (s : State) (lines g : Nat) : Nat :=
  g / max 1 (rhuDiv g (max 1 (lines * s.getF Reg.GEN_LINE F.GEN_LINE_H))).toNat

/-- What ACQUIRE does about the phase error `e` (R238). -/
def State.acquire (s : State) (e : Int) : State :=
  let s := s.onGen (fun g => { g with okRun := if e.natAbs ≤ 120 then g.okRun + 1 else 0 })
  if 8 ≤ s.gen.okRun then s.lock
  else if !s.scanRuns || !s.flag Reg.GEN_CFG F.GEN_CFG_RELOCK || decide (e.natAbs ≤ 120000) then
    s.onGen (fun g => { g with slew := if e.natAbs ≤ 120 ∧ s.scanRuns = true then 0 else e, jump := 0 })
  else
    let add := (e % (max s.period 1 : Nat)).toNat
    (s.onGen (fun g => { g with slew := 0, jump := add })).event Ev.GEN_RELOCK_JUMP [(32, add)]

/-- A matching genlock reference with phase error `e` (R237). (DEDUCED, log entry 72.) -/
def State.syncMatch (s : State) (e : Int) : State :=
  match s.lockState with
  | 3 => s.acquire e
  | 4 =>
    if 1200 < e.natAbs then
      if 1 ≤ s.gen.badRun then s.unlock 5 else s.onGen (fun g => { g with badRun := g.badRun + 1 })
    else s.onGen (fun g => { g with badRun := 0 })
  | _ => ((s.setLock 3).onGen (fun g => { g with okRun := 0 })).acquire e

/-- GENLOCK_SYNC: a genlock reference at volume time `t`, after `lines` lines of the frame (R235 to R238). -/
def execGenlockSync (t lines : Nat) (s : State) : Res :=
  if !s.isReady 7 || s.getF Reg.GEN_STAT F.GEN_STAT_FMT_DET == 0 || decide (lines < 500) || decide (1250 < lines) then .next s
  else
    let e := s.phaseError t
    let s := s.setF Reg.GEN_LINE F.GEN_LINE_LINES lines
    let last := s.gen.lastSync
    let s := s.onGen (fun g => { g with lastSync := some t })
    if s.genSrc ≠ 1 ∨ s.lockState = 7 then .next s
    else
      match last with
      | none => .next s
      | some u =>
        let g := s.syncPeriod lines (t - u)
        if !s.rateFits g then .next (if s.lockState = 6 then s else s.unlock 6)
        else
          let s := s.setReg Reg.GEN_PHERR (word (ofSigned 32 e))
          let s := s.onGen (fun k => { k with periods := (g :: k.periods).take 16 })
          .next (s.syncMatch e)

/-- The line count that identifies a format starts anew. -/
def State.clearLines (s : State) : State := s.clearFormat.onGen (fun g => { g with lineRun := 0 })

/-- GENLOCK_NO_SIGNAL: two expected references are missing in LOCKED, or four expected periods bring no format (R237). -/
def execGenlockNoSignal (s : State) : Res :=
  if s.genSrc ≠ 1 ∨ s.lockState = 7 then .next s.clearLines
  else if s.lockState = 4 then .next ((s.unlock 5).onGen (fun g => { g with lastSync := none }))
  else .next ((s.clearLines.onGen (fun g => { g with slew := 0, jump := 0, okRun := 0 })).setLock 1)

/-! ## Camera shutter inputs (R240 to R242) -/

def State.cam (s : State) (n : Nat) : CamState := aget (fun _ => CamState.init) s.gen.cams n
def State.setCam (s : State) (n : Nat) (c : CamState) : State :=
  s.onGen (fun g => { g with cams := aset (fun _ => CamState.init) g.cams n c })

/-- The views that name input n in GEN_SSRCv.INPUT. -/
def State.camViews (s : State) (n : Nat) : List Nat :=
  (List.range 8).filter (fun v => s.getF (Reg.GEN_SSRC v) F.GEN_SSRC_INPUT == n)

/-- Whether view v uses a measured window: MEAS of an enabled view. -/
def State.viewMeas (s : State) (v : Nat) : Bool := s.viewEn v && s.flag (Reg.GEN_SSRC v) F.GEN_SSRC_MEAS

/-- Whether input n is used (R240). -/
def State.camUsed (s : State) (n : Nat) : Bool := (s.camViews n).any s.viewMeas

/-- The view whose POL and AVG govern input n. (DEDUCED, log entry 73.) -/
def State.camView (s : State) (n : Nat) : Option Nat :=
  match (s.camViews n).find? s.viewMeas with
  | some v => some v
  | none => (s.camViews n).head?

/-- Samples averaged: 1, 4 or 16 (R252). (DEDUCED, log entry 73.) -/
def State.camAvg (s : State) (n : Nat) : Nat :=
  match s.camView n with
  | some v => 4 ^ s.getF (Reg.GEN_SSRC v) F.GEN_SSRC_AVG
  | none => 1

/-- Whether an edge opens the shutter of input n (R240). (DEDUCED, log entry 73.) -/
def State.camOpens (s : State) (n : Nat) (rising : Bool) : Bool :=
  match s.camView n with
  | some v => rising != s.flag (Reg.GEN_SSRC v) F.GEN_SSRC_POL
  | none => rising

def State.camValid (s : State) (n : Nat) : Bool := bit (s.getF Reg.GEN_STAT F.GEN_STAT_CAM_VALID) n
def State.setCamValid (s : State) (n : Nat) (b : Bool) : State :=
  let w := s.getF Reg.GEN_STAT F.GEN_STAT_CAM_VALID
  s.setF Reg.GEN_STAT F.GEN_STAT_CAM_VALID (if b then setBit w n else clearBit w n)

/-- Mean of a list, rounded with trn. -/
def meanOf (l : List Nat) : Nat := l.foldl (· + ·) 0 / max 1 l.length

/-- A valid sample of input n (R241); one of the frame period before, `late`, leaves this period's own to come. -/
def State.camSample (s : State) (n o d : Nat) (late : Bool) : State :=
  let k := s.camAvg n
  let c := s.cam n
  let c := { c with samples := ((o, d) :: c.samples).take 16, good := c.good + 1, miss := 0, got := c.got || !late }
  let s := s.setCam n c
  if c.good < k ∧ !s.camValid n then s
  else
    let l := c.samples.take k
    let s := s.setReg (Reg.GEN_CAM_OPEN n) (word (meanOf (l.map (·.1))))
    let s := s.setReg (Reg.GEN_CAM_DUR n) (word (meanOf (l.map (·.2))))
    if s.camValid n then s
    else
      let s := s.setCamValid n true
      if c.lost then (s.setCam n { c with lost := false }).event Ev.GEN_SHUT_BACK [(8, n)] else s

/-- A frame period of input n without a valid sample (R241, R256). -/
def State.camMiss (s : State) (n : Nat) : State :=
  let s := if s.camUsed n then s.bump Reg.GEN_CNT_SHUT_MISS 1 else s
  let c := s.cam n
  let c := { c with miss := c.miss + 1, good := 0 }
  if 4 ≤ c.miss ∧ s.camValid n then
    let s := s.setCam n { c with lost := true, samples := [] }
    let s := (s.setReg (Reg.GEN_CAM_OPEN n) 0).setReg (Reg.GEN_CAM_DUR n) 0
    (s.setCamValid n false).event Ev.GEN_SHUT_LOST [(8, n)]
  else s.setCam n c

/-- The offset of `t` from the reference of its frame period. -/
def State.sinceRef (s : State) (t : Nat) : Nat := if s.nextRef ≤ t then t - s.nextRef else t - s.gen.ref

/-- CAM_SHUTTER_EDGE: a filtered edge of input n at volume time `t` (R240, R241). -/
def execCamShutterEdge (n : Fin 8) (rising : Bool) (t : Nat) (s : State) : Res :=
  if !s.isReady 7 then .next s
  else
    let c := s.cam n
    if s.camOpens n rising then
      if c.opened then .next ((s.bump Reg.GEN_CNT_SHUT_EXTRA 1).event Ev.GEN_SHUT_EXTRA [(8, n)])
      else .next (s.setCam n { c with opened := true, openAt := some t, openOff := s.sinceRef t })
    else match c.openAt with
      | none => .next s
      | some o =>
        let s := s.setCam n { c with openAt := none, carried := false }
        let d := t - o
        if 1200 ≤ d ∧ d + 1200 ≤ s.period then .next (s.camSample n c.openOff d c.carried)
        else if c.carried then .next (s.camMiss n)
        else .next (s.setCam n { s.cam n with good := 0 })

/-- One input at the end of a frame period (R241): a sample belongs to the period of its opening. One whose closing edge is still to come is
decided by that edge, or with the period after it: it is then too long to be valid. (DEDUCED, log entry 73.) -/
def State.camPeriod (s : State) (n : Nat) : State :=
  let c := s.cam n
  if c.carried then
    ((s.setCam n { c with opened := false, got := false, carried := false, openAt := none }).camMiss n).camMiss n
  else if c.got then s.setCam n { c with got := false, opened := false }
  else if c.opened = true ∧ c.openAt.isSome = true then s.setCam n { c with opened := false, carried := true }
  else (s.setCam n { c with opened := false }).camMiss n

/-- FRAME_REFERENCE: ref(F + 1) passes (R241). -/
def execFrameReference (s : State) : Res :=
  if !s.isReady 7 || s.pwr.dormant then .next s
  else .next ((List.range 8).foldl (fun s n => s.camPeriod n) (s.reachTime s.nextRef))

/-- The windows in use once the re-placements to come have taken effect (R242). -/
def State.lastWins (s : State) : AMap (Nat × Nat) := (s.gen.replace.getLast?.map Replace.wins).getD s.gen.wins

/-- The measured windows that the views would use now: a view takes its valid measurement when it differs by more than MOVE_MIN
from the window in use, and keeps the window in use otherwise (R242). (DEDUCED, log entry 75.) -/
def State.newWins (s : State) : AMap (Nat × Nat) :=
  let m := s.getF Reg.GEN_MOVE F.GEN_MOVE_MOVE_MIN
  (s.enabledViews).filterMap (fun v =>
    let n := s.getF (Reg.GEN_SSRC v) F.GEN_SSRC_INPUT
    if s.viewMeas v && s.camValid n then
      let new := ((s.reg (Reg.GEN_CAM_OPEN n)).toNat, (s.reg (Reg.GEN_CAM_DUR n)).toNat)
      let old := s.viewWin s.lastWins v
      let dc : Int := 2 * ((new.1 : Int) - old.1) + ((new.2 : Int) - old.2)
      let dd : Int := (new.2 : Int) - old.2
      if 2 * m < dc.natAbs ∨ m < dd.natAbs then some (v, new)
      else if s.lastWins.any (fun e => e.1 == v) then some (v, old) else none
    else none)

/-- Re-placement at bnd(F) (R242): the new schedule, for bnd(F + 2), if the windows in use change and its checks pass: all seven of R246 count as
the shutter checks. (DESIGN CHOICE, log entry 138.) -/
def State.measure (s : State) : State :=
  let w := s.newWins
  let o := s.lastWins
  if !s.shutterPlace || s.genSrc == 2 || w == o then s
  else
    let v := match (List.range 8).find? (fun v => aget (fun _ => (0, 0)) w v != aget (fun _ => (0, 0)) o v) with
      | some v => v
      | none => 0
    match s.schedFaults w with
    | (_, k, _) :: _ => (s.setF Reg.GEN_STAT F.GEN_STAT_MEAS_HOLD 1).event Ev.GEN_MEAS_HOLD [(8, v), (8, k)]
    | [] =>
      (s.setF Reg.GEN_STAT F.GEN_STAT_MEAS_HOLD 0).onGen (fun g => { g with replace := g.replace ++ [⟨g.fc + 2, v, w⟩] })

/-! ## Clock measurement and reads (R249, R255, R484) -/

/-- 256 × 10^9 × (1 + K × (T − T0)²) for the temperature of sensor 21 (R484). (DEDUCED, log entry 74.) -/
def State.xtalFactor (s : State) : Int :=
  let k := toSigned 16 (s.getF Reg.THM_XTAL F.THM_XTAL_K)
  let d := s.sensorTemp 21 - 16 * toSigned 8 (s.getF Reg.THM_XTAL F.THM_XTAL_T0)
  256000000000 + k * d * d

/-- A measurement of GEN_AONK over 1,048,576 AONCLK cycles that counted `count` PCLK, normalised to T0 (R249, R484). -/
def State.loadAonk (s : State) (count : Nat) : State :=
  let n := (rneDiv ((count : Int) * s.xtalFactor) (16 * 256000000000)).toNat % 2 ^ 32
  (s.setReg Reg.GEN_AONK (word n)).onGen (fun g => { g with aonkNorm := n, aonkMeasured := true })

/-- GEN_AONK at entry to DORMANT: the normalised value at the temperature of sensor 21 (R484). -/
def State.aonkAtEntry (s : State) : State :=
  s.setReg Reg.GEN_AONK (word (rneDiv ((s.gen.aonkNorm : Int) * 256000000000) s.xtalFactor.toNat).toNat)

/-- AONK_MEASURE, in ACTIVE and STANDBY (R249). (DEDUCED, log entry 74.) -/
def execAonkMeasure (count : Nat) (s : State) : Res :=
  .next (if s.isReady 7 && !s.pwr.dormant && s.getF Reg.PWR_STATE F.PWR_STATE_CUR != 1 then s.loadAonk count else s)

/-- The value that a read of a GEN time register returns (R255); none for other registers. (DESIGN CHOICE, log entry 77.) -/
def State.readTime (s : State) (off : Nat) : Option Word :=
  let hi (v : Nat) : Word := match s.gen.hiLatch.find? (fun e => e.1 == off) with
    | some (_, x) => word x
    | none => word (v / 2 ^ 32)
  if off = Reg.GEN_FC_LO then some (word s.gen.fc)
  else if off = Reg.GEN_FC_HI then some (hi s.gen.fc)
  else if off = Reg.GEN_VT_LO then some (word s.gen.vt)
  else if off = Reg.GEN_VT_HI then some (hi s.gen.vt)
  else if off = Reg.GEN_BND_LO then some (word s.gen.bnd)
  else if off = Reg.GEN_BND_HI then some (hi s.gen.bnd)
  else none

/-- The effect of a read of a GEN time register: a LO read latches HI, a HI read uses the latch up (R255). (DESIGN CHOICE, log entry 77.) -/
def State.latchTime (s : State) (off : Nat) : State :=
  let put (o v : Nat) : State := s.onGen (fun g => { g with hiLatch := (g.hiLatch.filter (fun e => e.1 ≠ o)) ++ [(o, v / 2 ^ 32)] })
  if off = Reg.GEN_FC_LO then put Reg.GEN_FC_HI s.gen.fc
  else if off = Reg.GEN_VT_LO then put Reg.GEN_VT_HI s.gen.vt
  else if off = Reg.GEN_BND_LO then put Reg.GEN_BND_HI s.gen.bnd
  else s.onGen (fun g => { g with hiLatch := g.hiLatch.filter (fun e => e.1 ≠ off) })

/-- GEN_LO_READ: a read of GEN_FC_LO, GEN_VT_LO or GEN_BND_LO (R255). (DESIGN CHOICE, log entry 77.) -/
def execGenLoRead (pair : Fin 3) (s : State) : Res :=
  let off := [Reg.GEN_FC_LO, Reg.GEN_VT_LO, Reg.GEN_BND_LO].getD pair.val Reg.GEN_FC_LO
  .next (s.viaHst (fun s => match s.stallDomain off with
    | some d => s.stallOn d (.read off none)
    | none => (s.latchTime off).emit (.readReply ((s.readTime off).getD 0))))

end Sys2Proof.Machine
end

