-- ==== Sys2Proof/Machine/Hearth.lean ====
section
/-! DEFINITION. Source sleep, slot deadlines, the substitution chains and volume-wide hold (R188 to R190, R329 to R345). -/

namespace Sys2Proof.Machine

def State.onHrt (s : State) (f : HearthState → HearthState) : State := { s with hrt := f s.hrt }

/-! ## Targets of a view (R177, R349) -/

/-- The first buffer of target t of view v: the base frame or line-locked image, then W0 to W3. -/
def State.tsel (s : State) (v t : Nat) : Nat :=
  if t = 0 then (if s.lineLock v then selLine v else selBase) else selWindow v (t - 1)

/-- The window port is enabled in force (R587). -/
def State.winEnabled (s : State) : Bool := s.flag Reg.WIN_CFG F.WIN_CFG_EN

/-- The targets that a slot of view v uses (R189, R195); V0's uses none while the window port is enabled (R26, R590). -/
def State.usedTargets (s : State) (v : Nat) : List Nat :=
  if v = 0 ∧ s.winEnabled = true then []
  else if s.lineLock v then [0] else 0 :: (bitsOf (s.winEn v) 4).map (· + 1)

/-- The view and target that a first buffer belongs to; the base frame counts as target 0 of view 0. -/
def selTarget (sel : Nat) : Nat × Nat :=
  if selClass sel = 0 then (0, 0) else if selClass sel = 3 then (selView sel, 0) else (selView sel, selWin sel + 1)

/-! ## Source states (R330 to R332) -/

def State.src (s : State) (sel : Nat) : SourceState := aget (fun _ => SourceState.init) s.hrt.src sel
def State.setSrc (s : State) (sel : Nat) (x : SourceState) : State :=
  s.onHrt (fun h => { h with src := aset (fun _ => SourceState.init) h.src sel x })

/-- VIEW_HSTAT.ASLEEP of every view follows the source states (R349). -/
def State.syncAsleep (s : State) : State :=
  (List.range 8).foldl (fun s v =>
    let m := (List.range 5).foldl (fun m t => if (s.src (s.tsel v t)).asleep then setBit m t else m) 0
    s.setF (Reg.VIEW_HSTAT v) F.VIEW_HSTAT_ASLEEP m) s

def State.run (s : State) (v t : Nat) : HearthRun := aget (fun _ => HearthRun.init) s.hrt.runs (8 * v + t)
def State.setRun (s : State) (v t : Nat) (r : HearthRun) : State :=
  s.onHrt (fun h => { h with runs := aset (fun _ => HearthRun.init) h.runs (8 * v + t) r })

/-- The data items of a hearth event: view, target, `x`, frame counter, in the order in which R575 places those of HRT_CHOICE (R351). The
target is R349's number t. (DESIGN CHOICE, log entry 138.) -/
def State.hrtItems (s : State) (v t : Nat) (x : List (Nat × Nat)) : List (Nat × Nat) := [(8, v), (8, t)] ++ x ++ [(32, s.gen.fc)]

/-- A run whose target falls ASLEEP: at its next slot it walks the chain of an ASLEEP target, unless it was in rejoin wait already (R333,
R338). (DEDUCED, log entry 83.) -/
def HearthRun.fall (r : HearthRun) : HearthRun := { r with slept := true, fell := !(r.usedPB || r.slept) || r.fell }

/-- A target falls asleep at the boundary that starts frame Fs, which is the frame counter in force (R330, R331). -/
def State.sleepTarget (s : State) (sel : Nat) : State :=
  let s := s.setSrc sel { s.src sel with asleep := true, fs := s.gen.fc, due := false, silent := 0 }
  (List.range 8).foldl (fun s v => (List.range 5).foldl (fun s t =>
    if s.tsel v t = sel ∧ (s.run v t).age ≠ 0 then s.setRun v t (s.run v t).fall else s) s) s

/-- An ASLEEP target becomes AWAKE (R332). (DEDUCED, log entry 82.) -/
def State.wakeTarget (s : State) (sel cause : Nat) : State :=
  if (s.src sel).asleep then
    let s := s.setSrc sel { s.src sel with asleep := false }
    let (v, t) := selTarget sel
    s.syncAsleep.event Ev.HRT_WAKE (s.hrtItems v t [(8, cause)])
  else s

/-- The targets that the ARG of SRC_SLEEP or SRC_WAKE names (R330). -/
def namedTargets (arg : Nat) : List Nat :=
  (if bit arg 8 then [selBase] else [])
    ++ (bitsOf arg 8).flatMap (fun v => (List.range 4).map (selWindow v) ++ [selLine v])

/-- SRC_SLEEP: it acts at the first boundary after its flit is accepted (R330). -/
def State.takeSrcSleep (s : State) (arg : Nat) : State :=
  (namedTargets arg).foldl (fun s sel => if (s.src sel).asleep then s else s.setSrc sel { s.src sel with due := true }) s

def execSrcSleep (_p : Fin 4) (arg : Word) (s : State) : Res := .next (s.takeSrcSleep arg.toNat)

/-- SRC_WAKE: at once (R330, R332). -/
def State.takeSrcWake (s : State) (arg : Nat) : State := (namedTargets arg).foldl (fun s sel => s.wakeTarget sel 0) s

def execSrcWake (_p : Fin 4) (arg : Word) (s : State) : Res := .next (s.takeSrcWake arg.toNat)

/-- A packet naming the target of buffer `i` was accepted (R331). -/
def State.packetFor (s : State) (i : Nat) : State :=
  let sel := i / 16 * 16
  s.setSrc sel { s.src sel with got := true }

/-- Frame `f` of the target of buffer `i` became complete (R332). -/
def State.completeWakes (s : State) (i f : Nat) : State :=
  let sel := i / 16 * 16
  if (s.src sel).asleep ∧ (s.src sel).fs ≤ f then s.wakeTarget sel 1 else s

/-- SILENT of the target of `sel`; for the shared base frame the smallest that is not 0 among the enabled views that use it.
(DEDUCED, log entry 81.) -/
def State.silentOf (s : State) (sel : Nat) : Nat :=
  if selClass sel = 0 then
    ((s.enabledViews.filter (fun v => !s.lineLock v)).map (fun v => s.getF (Reg.VIEW_HTIME v) F.VIEW_HTIME_SILENT)).foldl
      (fun a x => if x = 0 then a else if a = 0 then x else min a x) 0
  else s.getF (Reg.VIEW_HTIME (selView sel)) F.VIEW_HTIME_SILENT

/-- One target at a frame boundary (R330, R331). (DEDUCED, log entry 82.) -/
def State.sourceBoundary (s : State) (sel : Nat) : State :=
  let x := s.src sel
  let n := if x.used && !x.got then x.silent + 1 else 0
  let s := s.setSrc sel { x with used := x.usedNext, usedNext := false, got := false, silent := n }
  let lim := s.silentOf sel
  if x.asleep then s
  else if x.due then s.sleepTarget sel
  else if lim ≠ 0 ∧ lim ≤ n then
    let (v, t) := selTarget sel
    (s.sleepTarget sel).event Ev.HRT_SILENT (s.hrtItems v t [(8, lim)])
  else s

/-! ## Runs that end without a slot (R341) -/

/-- VIEW_HAGEt, and the bits REJ, follow a run. -/
def State.syncRun (s : State) (v t : Nat) : State :=
  let r := s.run v t
  let s := s.setF (Reg.VIEW_HAGE v t) F.VIEW_HAGE_AGE r.age
  let s := s.setF (Reg.VIEW_HAGE v t) F.VIEW_HAGE_CHOICE r.choice
  let m := s.getF (Reg.VIEW_HSTAT v) F.VIEW_HSTAT_REJ
  let w := decide (r.age ≠ 0) && (r.usedPB || r.slept)
  s.setF (Reg.VIEW_HSTAT v) F.VIEW_HSTAT_REJ (if w then setBit m t else clearBit m t)

/-- End a run. -/
def State.endRun (s : State) (v t : Nat) (say : Bool) : State :=
  let r := s.run v t
  let s := (s.setRun v t HearthRun.init).syncRun v t
  if say && decide (r.age ≠ 0) then s.event Ev.HRT_RUN_END (s.hrtItems v t [(16, r.age)]) else s

/-- Every view and target. -/
def viewTargets : List (Nat × Nat) := (List.range 8).flatMap (fun v => (List.range 5).map (fun t => (v, t)))

/-- The scan stops: runs end without an event, rejoin counts clear (R341). -/
def State.endAllRuns (s : State) : State :=
  let s := viewTargets.foldl (fun s e => s.endRun e.1 e.2 false) s
  s.onHrt (fun h => { h with plans := [], scanSlot := none, scanned := 0, slots := 0, ahead := false, before := [], found := none, reports := [], row := 0 })

/-- A step of the frame counter clears the rejoin counts (R341). -/
def State.clearRejoins (s : State) : State :=
  viewTargets.foldl (fun s e => s.setRun e.1 e.2 { s.run e.1 e.2 with rejoin := 0 }) s

/-! ## What takes effect at the next boundary (R126, R132, R248) -/

/-- The frame AT of the commit gate. -/
def State.gateAt (s : State) : Nat :=
  s.getF Reg.STG_GATE_LO F.STG_GATE_LO_AT_LO + 2 ^ 32 * s.getF Reg.STG_GATE_HI F.STG_GATE_HI_AT_HI
def State.gateArmed (s : State) : Bool := s.flag Reg.STG_GATE_HI F.STG_GATE_HI_ARM

/-- Whether pending transaction `p` takes effect at the boundary that starts frame `f`. -/
def State.pendingDue (s : State) (p : Pending) (f : Nat) : Bool := !p.gated || !s.gateArmed || s.gateAt == f

/-- A staged value as its register takes it: on the AZT-6418-BC bits 11 to 14 of PWR_LOCKOFF stay 1 (R4, R69). -/
def State.stagedValue (s : State) (off : Nat) (v : Word) : Word :=
  if off = Reg.PWR_LOCKOFF ∧ s.part = .bc then v ||| 0x7800 else v

/-- `s` with the values of `m` in its registers, and nothing else changed. -/
def State.withRegs (s : State) (m : AMap Word) : State := m.foldl (fun s e => s.setReg e.1 (s.stagedValue e.1 e.2)) s

/-- GEN_FCSET.LOAD, and the frame counter it loads (R253). -/
def State.fcLoad (s : State) : Option Nat :=
  if s.flag Reg.GEN_FCSET_HI F.GEN_FCSET_HI_LOAD then
    some (s.getF Reg.GEN_FCSET_LO F.GEN_FCSET_LO_VAL_LO + 2 ^ 32 * s.getF Reg.GEN_FCSET_HI F.GEN_FCSET_HI_VAL_HI)
  else none

/-- The measured windows that the views still use: with SRC = volume those of the timing source, whatever MEAS says here (R239, R242). -/
def State.keptWins (s : State) : AMap (Nat × Nat) :=
  s.gen.wins.filter (fun e => s.viewEn e.1 && (s.genSrc == 2 || s.viewMeas e.1))

/-- The frame that the boundary starts, its schedule and its place. -/
structure NextFrame where
  fc : Nat                          -- the frame it starts
  loaded : Bool                     -- by GEN_FCSET
  opens : Bool                      -- the commit gate opens: a load, or the timing source's counter differs
  due : List Pending                -- Pending transactions that come into force
  wins : AMap (Nat × Nat)           -- measured windows in use
  ref : Nat
  table : SlotTable
  delay : Nat                       -- boundary delay with the shortfall of this boundary
  short : Nat                       -- the shortfall Δ (R247)
  deriving DecidableEq, Repr

/-- `s` with the values of Pending transactions `l`. -/
def State.withPendings (s : State) (l : List Pending) : State := l.foldl (fun s p => s.withRegs p.regs) s

/-- The frame that the next boundary starts without a load: the next one, or on a follower the one after the frame of the source's last BND,
which no boundary has used yet (R233, R531). -/
def State.frameNext (s : State) : Nat :=
  match s.rdg.srcF with
  | some f => if s.lockState = 7 then (f + 1) % 2 ^ 48 else (s.gen.fc + 1) % 2 ^ 48
  | none => (s.gen.fc + 1) % 2 ^ 48

/-- The measured windows from frame `f` on (R242). -/
def State.winsAt (s c : State) (f : Nat) : AMap (Nat × Nat) :=
  ((s.gen.replace.filter (fun r => decide (r.at_ ≤ f))).getLast?.map Replace.wins).getD c.keptWins

/-- How far the first scan of schedule `t`, at `b`, would start before 768 row times after the last scan of the schedule in force (R247). -/
def State.shortfall (s c : State) (t : SlotTable) (b : Nat) : Nat :=
  let old : SlotTable := ⟨s.boff, (List.range s.nSlot).map (fun k => (s.slotView k, s.slotDelta k))⟩
  if !s.scanRuns || s.nSlot == 0 || t.slots.isEmpty || (decide (t = old) && s.rowT == c.rowT) then 0
  else s.gen.bnd + s.slotDelta (s.nSlot - 1) + 768 * s.rowT - b

/-- What the next boundary starts (R233, R242, R247, R253, R531, R629): the references in force before it, the values due at it. -/
def State.nextFrameOf (s : State) : NextFrame :=
  let f0 := s.frameNext
  let due0 := s.stg.pendings.filter (fun p => s.pendingDue p f0)
  let load := (s.withPendings due0).fcLoad
  let f := load.getD f0
  let opens := load.isSome || f0 != (s.gen.fc + 1) % 2 ^ 48
  let due := if opens then s.stg.pendings else due0
  let c := s.withPendings due
  let w := s.winsAt c f
  let ref := s.nextRef
  let t := c.slotTable w s.boff
  let d := s.nextDelay
  let short := s.shortfall c t (ref + t.boff + d)
  ⟨f, load.isSome, opens, due, w, ref, t, d + short, short⟩

/-- `s` with the registers that the next boundary puts in force. -/
def State.upcoming (s : State) : State := s.withPendings s.nextFrameOf.due

/-! ## Plates (R24, R334, R418) -/

/-- The staging in buffer i. -/
def State.staging (s : State) (i : Nat) : Option Staging := aget (fun _ => none) s.mag.stages i
def State.setStaging (s : State) (i : Nat) (x : Option Staging) : State :=
  s.onMag (fun m => { m with stages := aset (fun _ => none) m.stages i x })
def State.sched (s : State) (k : Nat) : Option Sched := aget (fun _ => none) s.mag.scheds k

/-- The plate frame that a schedule names for frame F (R418). -/
def Sched.frameAt (c : Sched) (f : Nat) : Option Nat :=
  if f < c.f0 then none
  else if c.until_.any (fun u => decide (u ≤ f)) then none
  else
    let k := f - c.f0
    if k < c.n then some (c.i0 + k)
    else if c.endMode = 1 then some (c.i0 + k % max 1 c.n)
    else if c.endMode = 2 then some (c.i0 + c.n - 1)
    else none

/-- The schedule that names a plate frame for target t of view v in frame F: its number, port, plate and plate frame. -/
def State.plateNamed (s : State) (v t f : Nat) : Option (Nat × Nat × Nat × Nat) :=
  (List.range 16).findSome? (fun k =>
    match s.sched k with
    | some c => if c.view = v ∧ c.tgt = t then (c.frameAt f).map (fun n => (k, c.port, c.plate, n)) else none
    | none => none)

/-- The staging for target t of view v in frame F that was complete by volume time `d` (R24, R334); where a schedule names a plate frame, that one,
whichever schedule staged it (R418). -/
def State.plateFor (s : State) (v t f d : Nat) : Option Nat :=
  (List.range 16).find? (fun i => match s.staging i with
    | some g => g.complete && decide (g.doneAt ≤ d) && g.frame == f && g.users.contains (v, t)
        && (match s.plateNamed v t f with
          | some (_, p, e, n) => g.port == p && g.plate == e && g.pframe == n
          | none => true)
    | none => false)

/-- The staging shown for target t in the last slot of view v, still held (R334, R422). -/
def State.plateShown (s : State) (v t : Nat) : Option Nat :=
  (List.range 16).find? (fun i => match s.staging i with
    | some g => g.complete && g.shownBy.contains (v, t)
    | none => false)

/-- The rectangle that a plate carries in its directory entry (R409). -/
def plateRect (e : List Byte) : WRect :=
  ⟨leAt 0x14 2 e, leAt 0x16 2 e, leAt 0x10 2 e, leAt 0x12 2 e, leAt 0x18 1 e, 0, leAt 0x19 1 e, leAt 0x1A 1 e, leAt 0x1B 1 e, leAt 0x1C 1 e⟩

/-! ## The walk of a chain (R333 to R336) -/

/-- C0 to C2 of the chain for target t: HSLEEP while ASLEEP, HMISS otherwise. -/
def State.chain (s : State) (v t : Nat) (asleep : Bool) : List Nat :=
  let w := (s.reg (if asleep then Reg.VIEW_HSLEEP v else Reg.VIEW_HMISS v)).toNat
  let w := if t = 0 then w else w / 256
  [w % 4, w / 4 % 4, w / 16 % 4]

/-- The hold frame of target `sel` for a slot of frame f: the frame before it, if that is complete and about to become L, otherwise L
(R184). -/
def State.holdBelow (s : State) (sel f : Nat) : Option Nat :=
  match s.bufOf sel (f - 1) with
  | some i => if f ≠ 0 ∧ (s.buf i).complete = true then some i else s.holdOf sel
  | none => s.holdOf sel

/-- Whether choice c is available for target t of view v in frame f, deadline `d`, at the age `age`; `prev` is the choice of the last slot. -/
def State.available (s : State) (v t f d age prev c : Nat) : Bool :=
  if c = 1 then
    let m := s.getF (Reg.VIEW_HTIME v) F.VIEW_HTIME_HOLD_MAX
    (s.holdBelow (s.tsel v t) f).isSome && (m == 0 || decide (age ≤ m))
  else if c = 2 then
    !s.lineLock v && ((s.plateFor v t f d).isSome || (prev == 2 && (s.plateShown v t).isSome))
  else c == 3

/-- The walk: the choice taken and the entry after it. END stops; no choice leaves BLACK or OMIT. -/
def walk (avail : Nat → Bool) : List Nat → Nat × Nat
  | [] => (3, 0)
  | c :: rest => if c = 0 then (3, 0) else if avail c then (c, rest.headD 0) else walk avail rest

/-- The gain of a held target: the fade of R336. -/
def State.fadeGain (s : State) (v age next : Nat) : Nat :=
  let m := s.getF (Reg.VIEW_HTIME v) F.VIEW_HTIME_HOLD_MAX
  let fd := s.getF (Reg.VIEW_HTIME v) F.VIEW_HTIME_FADE
  if m ≠ 0 ∧ (next = 0 ∨ next = 3) ∧ m < age + fd then (rneDiv (256 * ((m : Int) - age + 1)) (fd + 1)).toNat else 256

/-! ## Deciding one target (R189, R190, R338, R343) -/

/-- Whether throttle step 4 is engaged: every target counts as not in time (R481). (DEDUCED, log entry 83.) -/
def State.hearthStep (s : State) : Bool := 4 ≤ s.getF Reg.THM_STAT F.THM_STAT_STEP

/-- Volume-wide hold is in force (R343). -/
def State.vhold (s : State) : Bool := s.flag Reg.VIEW_HVOL F.VIEW_HVOL_VHOLD

/-- Whether frame f of target t became complete at or before volume time `d` (R188). -/
def State.doneBy (s : State) (v t f d : Nat) : Bool :=
  match s.bufOf (s.tsel v t) f with
  | some i => (s.buf i).complete && decide ((s.buf i).doneAt ≤ d)
  | none => false

/-- The latest moment of becoming complete that is in time for a deadline `d`: the deadline, under VHOLD D_loc (R188, R343). -/
def State.latest (s : State) (d : Nat) : Nat := if s.vhold then d - 3600 else d

/-- Whether frame f of target t is in time for slot k, whose deadline is `d`: complete by then, and not found late at D_loc (R188, R343). -/
def State.inTime (s : State) (v t f k d : Nat) : Bool :=
  !s.hearthStep && s.doneBy v t f (s.latest d) &&
    (match s.hrt.found with
     | some (g, j, m) => !(s.vhold && g == f && j == k && bit m t)
     | none => true)

/-- Whether a hold report names target t for this slot (R343); none acts on a line-locked view (R345). -/
def State.reported (s : State) (v t f k : Nat) : Bool :=
  s.vhold && !s.lineLock v && s.hrt.reports.any (fun r => r.1 == f % 2 ^ 32 && r.2.1 == k && r.2.2.1 == v && bit r.2.2.2 t)

/-- Rejoin wait (R338). -/
def State.rejoinWait (s : State) (v t : Nat) : Bool :=
  let r := s.run v t
  decide (r.age ≠ 0) && (r.usedPB || r.slept)

/-- Send ING_LATE on every ACTIVE Rafter port (R196). -/
def State.sendIngLate (s : State) (target f k : Nat) : State :=
  if s.flag Reg.VIEW_ING_CFG F.VIEW_ING_CFG_LATE_MSG then
    (List.range 4).foldl (fun s p => if s.lkState p = 5 then s.linkSend p 0x51 (f % 2 ^ 32) (leBytes 8 (target + 256 * k)) else s) s
  else s

/-- A plate is shown (R334, R422, R427). -/
def State.showPlate (s : State) (v t f i : Nat) : State :=
  match s.staging i with
  | some g =>
    let rep := g.frame != f
    let s := s.setStaging i (some { g with shown := true, shownBy := if g.shownBy.contains (v, t) then g.shownBy else g.shownBy ++ [(v, t)] })
    let s := match s.plateNamed v t g.frame with
      | some (k, _, _, n) => s.setReg (Reg.MAG_PLAY_POS k) (word n)
      | none => s
    if rep then (s.bump Reg.VIEW_CNT_PREPEAT 1).event Ev.HRT_PLATE_REPEAT (s.hrtItems v t [(16, (s.run v t).age)]) else s
  | none => s

/-- Substitute target t of view v in slot k of frame f, deadline `d` (R190, R333 to R338): the pick and the state after. -/
def State.substitute (s : State) (v t f k d : Nat) (forced : Bool) : Pick × State :=
  let sel := s.tsel v t
  let r := s.run v t
  let age := min (r.age + 1) 65535
  let asleep := (s.src sel).asleep
  let avail := s.available v t f d age r.choice
  let keep := s.rejoinWait v t && !(r.fell && asleep) && avail r.choice
  let ch := s.chain v t (asleep && !s.hearthStep)
  let (c, next) := if keep then (r.choice, (ch.dropWhile (fun x => x != r.choice)).tail.headD 0) else walk avail ch
  let s := s.setRun v t { r with
    age := age, choice := c, usedPB := r.usedPB || c == 2 || c == 3, slept := r.slept || asleep, fell := false, line := t == 0 && s.lineLock v }
  let s := s.syncRun v t
  let s := match s.bufOf sel f with
    | some i => s.setBuf i { s.buf i with missed := true }
    | none => s
  let s := (s.bump (Reg.VIEW_CNT_MISS v) 1).event Ev.ING_MISS [(8, v), (8, targetByte sel), (32, f)]
  let s := if forced then s.bump Reg.VIEW_CNT_VHOLD_RX 1 else s
  let s := s.sendIngLate (targetByte sel) f k
  let s := if r.age ≠ 0 ∧ c ≠ r.choice then s.event Ev.HRT_CHOICE (s.hrtItems v t [(8, r.choice), (8, c), (16, age)]) else s
  if c = 1 then
    match s.holdBelow sel f with
    | some i => (.held i (s.fadeGain v age next), s)
    | none => (.dark, s)
  else if c = 2 then
    match (match s.plateFor v t f d with | some i => some i | none => s.plateShown v t) with
    | some i => (.plate i, s.showPlate v t f i)
    | none => (.dark, s)
  else (.dark, s)

/-- Decide target t of view v in slot k of frame f, whose deadline is `d` (R189, R338): what is shown, whether it is live, whether a report forced it.
(DEDUCED, log entry 83.) A line-locked image that is AWAKE is shown row by row at once: the rejoin wait holds none back. (DESIGN CHOICE, log
entry 138.) -/
def State.decideTarget (s : State) (v t f k d : Nat) : Pick × Bool × State :=
  let sel := s.tsel v t
  let s := s.setSrc sel (if f = s.gen.fc then { s.src sel with used := true } else { s.src sel with usedNext := true })
  if s.lineLock v && !(s.src sel).asleep && !s.hearthStep then (.row, false, s)
  else
    let inT := s.inTime v t f k d && !s.lineLock v
    let rep := s.reported v t f k
    let wait := s.rejoinWait v t
    let r := s.run v t
    let count := if inT && !(s.src sel).asleep then r.rejoin + 1 else 0
    let s := if wait then s.setRun v t { r with rejoin := count } else s
    let back := inT && (!wait || decide (max 1 (s.getF (Reg.VIEW_HREJ v) F.VIEW_HREJ_REJOIN) ≤ count))
    if back && !rep then
      let s := s.endRun v t true
      (.live ((s.bufOf sel f).getD sel), false, s)
    else
      let forced := rep && back
      let (p, s) := s.substitute v t f k d forced
      (p, forced, s)

/-! ## The deadline of a slot (R188, R189) -/

/-- A slot to be decided. -/
structure SlotDue where
  ahead : Bool                      -- it is slot 0 of the next frame
  frame : Nat
  slot : Nat
  view : Nat
  at_ : Nat                         -- its deadline
  regs : State                      -- the registers that govern it
  deriving DecidableEq, Repr

/-- The lead of view v in PCLK (R188, R201). -/
def State.lead (s : State) (v : Nat) : Nat := 120 * s.getF (Reg.VIEW_DL v) F.VIEW_DL_LEAD

/-- Slot 0 of the next frame: the schedule, the place and the LEAD are those that its boundary puts in force (R248). -/
def State.slotZero (s : State) : Option SlotDue :=
  let n := s.nextFrameOf
  let c := s.upcoming
  (n.table.slots.head?).map (fun e => ⟨true, n.fc, 0, e.1, n.ref + n.table.boff + n.delay - c.lead e.1, c⟩)

/-- The next slot to be decided (R189, R248). -/
def State.nextSlot (s : State) : Option SlotDue :=
  let k := s.hrt.slots
  if k < s.nSlot then
    some ⟨false, s.gen.fc, k, s.slotView k, s.gen.bnd + s.slotDelta k - s.lead (s.slotView k), s⟩
  else if s.hrt.ahead then none
  else s.slotZero

/-- The result of a pick in VIEW_SLOTSTAT (R202). -/
def pickCode : Pick → Nat
  | .unused => 0
  | .live _ => 1
  | .row => 1
  | .overlay => 1
  | _ => 2

/-- Whether a pick shows its target live for the whole slot. -/
def pickLive : Pick → Bool
  | .live _ => true
  | .overlay => true
  | _ => false

/-- The rectangle of the window frame that a pick draws. -/
def State.pickRect (s : State) (p : Pick) : Option WRect :=
  match p with
  | .live i => (s.buf i).rect
  | .held i _ => (s.buf i).rect
  | .plate i => (s.staging i).map (fun g => plateRect g.entry)
  | _ => none

/-- The SLOT trace record (R582). (DEDUCED, log entry 80.) -/
def State.traceSlot (s : State) (v k : Nat) : State :=
  let wage := (List.range 4).foldl (fun a w => max a (s.run v (w + 1)).age) 0
  s.trace 2 ([BitVec.ofNat 8 v, BitVec.ofNat 8 k] ++ leBytes 2 (s.reg (Reg.VIEW_SLOTSTAT v)).toNat
    ++ leBytes 4 (s.reg (Reg.VIEW_HSTAT v)).toNat ++ leBytes 2 (s.run v 0).age ++ leBytes 2 wage ++ leBytes 4 0)

/-- The overlay of the window port opens or closes (R595). -/
def State.setOverlayOpen (s : State) (b : Bool) : State := s.setF Reg.WIN_STAT F.WIN_STAT_OPEN (b2n b)

/-- The status registers of a decided slot (R202, R203, R349). -/
def State.putSlotStat (s : State) (v f : Nat) (picks : List Pick) (vh : Bool) : State :=
  let codes := picks.zipIdx.foldl (fun n e => n + pickCode e.1 * 4 ^ e.2) 0
  let subst := picks.zipIdx.foldl (fun m e => if pickCode e.1 = 2 then setBit m e.2 else m) 0
  let s := s.setReg (Reg.VIEW_SLOTSTAT v) (word (f % 65536 * 65536 + codes))
  let s := s.setF (Reg.VIEW_HSTAT v) F.VIEW_HSTAT_VH (b2n vh)
  let s := s.setF (Reg.VIEW_HSTAT v) F.VIEW_HSTAT_SUBST subst
  (List.range 4).foldl (fun s w =>
    match s.pickRect (picks.getD (w + 1) .unused) with
    | some r =>
      (s.setReg (Reg.VIEW_WRECT v w) (word (r.x0 * 65536 + r.y0))).setReg (Reg.VIEW_WSIZE v w) (word (r.w * 65536 + r.h))
    | none => (s.setReg (Reg.VIEW_WRECT v w) 0).setReg (Reg.VIEW_WSIZE v w) 0) s

/-- The run of target 0 belongs to the base frame or to the line-locked image: a slot that uses the other one ends it (R329, R338). -/
def State.endOtherRun (s : State) (v : Nat) : State := if (s.run v 0).line = s.lineLock v then s else s.endRun v 0 true

/-- MAG_CNT_LATE at the deadline `d` of the first slot of view v in frame f: each plate frame that a schedule names for the view and that is not
complete counts once, used by the slot or not (R422). -/
def State.countLate (s : State) (f k v d : Nat) : State :=
  if (List.range k).any (fun j => s.slotView j == v) then s
  else
    let l := (List.range 5).filterMap (fun t => match s.plateNamed v t f with
      | some (_, p, e, n) => if (s.plateFor v t f d).isNone then some (p, e, n) else none
      | none => none)
    l.eraseDups.foldl (fun s x => s.bump (Reg.MAG_CNT_LATE x.1) 1) s

/-- Decide slot k of frame f, of view v and deadline `d`, target by target; the run of a target that the slot does not use ends. With the window
port enabled the overlay stands in the place of V0's base frame, and its windows are not drawn (R26, R338, R590). -/
def State.decideSlot (s : State) (f k v d : Nat) : SlotPlan × Bool × State :=
  let used := s.usedTargets v
  let (picks, vh, s) := (List.range 5).foldl (fun (acc : List Pick × Bool × State) t =>
    let (l, vh, s) := acc
    if used.contains t then
      let (p, forced, s) := s.decideTarget v t f k d
      (l ++ [p], vh || forced, s)
    else (l ++ [if t = 0 ∧ v = 0 ∧ s.winEnabled = true then .overlay else .unused], vh, s.endRun v t true)) ([], false, (s.countLate f k v d).endOtherRun v)
  (⟨f, k, v, picks, none⟩, vh, s)

/-- A device in HEARTH returns to ACTIVE: the Rafter ports come on, without waiting for a frame boundary (R72, R340).
(DEDUCED, log entry 31.) -/
def State.leaveHearth (s : State) : State :=
  if s.getF Reg.PWR_STATE F.PWR_STATE_CUR ≠ 1 then s
  else
    let s := (List.range 4).foldl (fun s q => if s.lkEnabled q then State.wake 6 (7 + q) s else s) s
    let s := s.setF Reg.PWR_STATE F.PWR_STATE_CUR 0
    (if s.flag Reg.PWR_STATE F.PWR_STATE_TRANS then s else s.setF Reg.PWR_STATE F.PWR_STATE_TARGET 0).signal 260

/-- SLOT_DEADLINE: the next slot's targets are decided (R189). The registers that govern slot 0 of the next frame are those that
its boundary puts in force (R248); nothing else of them is taken over. -/
def State.slotDeadline (s : State) : State :=
  if !(s.scanRuns || s.seq == 2) then s
  else
    match s.nextSlot with
    | none => s
    | some ⟨ahead, f, k, v, d, c⟩ =>
      let s := s.reachTime d
      let runs := s.hrt.runs
      let ov := c.regs.filter (fun e => decide (s.reg e.1 ≠ e.2))
      let s' := if ahead then ov.foldl (fun s e => s.setReg e.1 e.2) s else s
      let (plan, vh, s') := s'.decideSlot f k v d
      let s' := if ahead then ov.foldl (fun s' e => s'.setReg e.1 (s.reg e.1)) s' else s'
      let s' := (s'.putSlotStat v f plan.picks vh).traceSlot v k
      let s' := if v = 0 then s'.setOverlayOpen false else s'
      let s' := if plan.picks.any pickLive then s'.leaveHearth else s'
      s'.onHrt (fun h => { h with
        plans := h.plans.filter (fun p => decide (p.frame ≠ f ∨ p.slot ≠ k)) ++ [plan]
        slots := if ahead then h.slots else k + 1
        ahead := h.ahead || ahead
        before := if ahead then runs else h.before
        anySlot := h.anySlot || !ahead
        anyLive := h.anyLive || (!ahead && plan.picks.any pickLive) })

def execSlotDeadline (s : State) : Res := .next s.slotDeadline

/-! ## Volume-wide hold (R343 to R345) -/

/-- HOLD_DECISION: D_loc of the next slot (R343). -/
def State.holdDecision (s : State) : State :=
  if !s.vhold || !(s.scanRuns || s.seq == 2) then s
  else
    match s.nextSlot with
    | none => s
    | some ⟨_, f, k, v, d, c⟩ =>
      let s := s.reachTime (d - 3600)
      let used := c.usedTargets v
      let late := used.foldl (fun m t => if s.hearthStep || !s.doneBy v t f (d - 3600) then setBit m t else m) 0
      let named := used.foldl (fun m t =>
        if bit late t && !(s.src (c.tsel v t)).asleep && !s.rejoinWait v t && !c.lineLock v then setBit m t else m) 0
      let s := s.onHrt (fun h => { h with found := some (f, k, late) })
      if named = 0 then s
      else s.flood 0x32 (leBytes 4 f ++ leBytes 1 k ++ leBytes 1 v ++ leBytes 1 named ++ leBytes 5 0)

def execHoldDecision (s : State) : Res := .next s.holdDecision

/-- A hold report arrives (R343, R344). The target of HRT_VHOLD_LATE is the report's mask. (DESIGN CHOICE, log entry 138.) -/
def State.takeHold (s : State) (f k v m role : Nat) : State :=
  if !s.vhold then s
  else
    let cur := s.gen.fc % 2 ^ 32
    let next := s.nextFrameOf.fc % 2 ^ 32
    let late := if f = next then k = 0 ∧ s.hrt.ahead = true else f ≠ cur ∨ k < s.hrt.slots
    if late then
      (s.bump Reg.VIEW_CNT_VHOLD_LATE 1).event Ev.HRT_VHOLD_LATE (s.hrtItems v m [(8, role), (8, k)])
    else s.onHrt (fun h => { h with reports := h.reports ++ [(f, k, v, m)] })

/-! ## The hearth at a frame boundary (R330, R331, R340, R341) -/

/-- At the boundary that starts the frame in force: source states, runs of views that are no longer enabled, and the count of
substituted periods. -/
def State.hearthBoundary (s : State) (disabled : List Nat) (stepped : Bool) : State :=
  let zero := s.hrt.ahead && s.hrt.plans.any (fun p => p.frame == s.gen.fc && p.slot == 0)
  let s := (targetSels.foldl (fun s sel => s.sourceBoundary sel) s).syncAsleep
  let s := disabled.foldl (fun s v => (List.range 5).foldl (fun s t => s.endRun v t true) s) s
  let s := if stepped then s.clearRejoins else s
  s.onHrt (fun h => { h with
    substRun := if !h.anySlot then 0 else if h.anyLive then 0 else h.substRun + 1
    slots := b2n zero
    anySlot := zero
    anyLive := zero && h.plans.any (fun p => p.frame == s.gen.fc && p.picks.any pickLive)
    ahead := false
    before := []
    scanSlot := none
    scanned := 0
    row := 0
    plans := h.plans.filter (fun p => p.frame == s.gen.fc)
    reports := h.reports.filter (fun r => r.1 == s.gen.fc % 2 ^ 32)
    found := h.found.filter (fun e => e.1 == s.gen.fc) })

end Sys2Proof.Machine
end

