-- ==== Sys2Proof/Machine/Tables.lean ====
section
/-! DEFINITION. Pipeline tables: reset contents, copies and capacities, the working copy, prefixes and checks (R25, R268 to R270,
R282 to R297, R308, R313, R317, R322), and their words in the on-chip banks (R451 to R466). -/

namespace Sys2Proof.Machine

/-- Whether throttle step 2 stops background work: engaged with a pause of 0 (R481). -/
def State.step2Stops (s : State) : Bool :=
  decide (2 ≤ s.getF Reg.THM_STAT F.THM_STAT_STEP) && s.getF Reg.THM_PAUSE0 F.THM_PAUSE0_P2 == 0

/-- FST_PATROL_SCRUB: the table and history regions are read and corrected (R217); while throttle step 2 stops the class, they are not (R481). -/
def execFstPatrolScrub (errs : List ReadError) (s : State) : Res :=
  .next (if s.step2Stops then s
    else s.takeEcc (errs.filter (fun e =>
      decide (32 * e.unit < 0x30000000) || decide (0x33000000 ≤ 32 * e.unit ∧ 32 * e.unit < 0x36000000))))

/-! ## The tables by TARGET -/

/-- The tables that TBL_LOAD can load (R268, R290, R322). -/
def loadableTables : List Nat :=
  (List.range 8).map (0x20000 + ·) ++ [tPGAIN, tPTILE, tSGAIN, tSTILE, tDEFECT, tCMASK, tLAW, tOD, tDTH]

/-- The group of a table (R118, R290, R322). -/
def tableGroup (t : Nat) : Nat :=
  if t / 0x10000 = 2 then 10 + t % 0x10000
  else if t = tPGAIN ∨ t = tPTILE then 18
  else if t = tSGAIN ∨ t = tSTILE then 19
  else if t = tDEFECT ∨ t = tCMASK then 20
  else if t / 0x10000 = 4 then 21 else 22

/-- The rows of the reset threshold matrix (R317). -/
def bayer (my mx : Nat) : Nat := [0, 8, 2, 10, 12, 4, 14, 6, 3, 11, 1, 9, 15, 7, 13, 5].getD (4 * (my % 4) + mx % 4) 0

/-- The byte of a kernel area whose coefficients are the identity: K(0, 0) = 16,384. -/
def identByte (o : Nat) : Nat := if o % 18 = 9 then 0x40 else 0

/-- Reset contents of table `t` (R268, R270, R295, R308, R317, R322). -/
def tableReset (t i : Nat) : Byte :=
  BitVec.ofNat 8 <|
    if t = tPGAIN ∨ t = tSGAIN then (if i % 2 = 1 then 0x40 else 0)
    else if t = tPTILE then (let o := i % 128; if 12 ≤ o ∧ o < 66 then identByte (o - 12) else 0)
    else if t = tWORK then
      (if i < 18874368 then 0
       else
         let o := (i - 18874368) % 128
         if o < 24 then (if o % 8 = 1 then 0x40 else if o % 8 = 2 then 1 else 0)
         else if o < 78 then identByte (o - 24) else 0)
    else if t = tLAW then (if i / 4 < 12291 then min (64 * (i / 4 % 4097)) 262143 / 256 ^ (i % 4) % 256 else 0)
    else if t = tDTH then (bayer (i / 64 % 64) (i % 64) + i / 4096) % 16
    else 0

/-- The capacity of the inactive or active copy of table `t` (R102, R269, R290, R322). -/
def State.tableCap (s : State) (t : Nat) (inactive : Bool) : Nat :=
  if t / 0x10000 = 2 then
    32768 * s.getF (Reg.CLR_ASTAT (t % 0x10000)) (if inactive then F.CLR_ASTAT_INACT_UNITS else F.CLR_ASTAT_ACT_UNITS)
  else if t = tPGAIN ∨ t = tSGAIN then 37748736
  else if t = tPTILE then 196608
  else if t = tSTILE then 24576
  else if t = tDEFECT then 524288
  else if t = tCMASK ∨ t = tFMASK then 3072
  else if t = tWORK then 19070976
  else 65536

/-- Where byte `i` of copy `c` of a frame-store layer lies (R292). -/
def layerAddr (t c i : Nat) : Nat :=
  (if t = tPGAIN then 0x2400000 * c
   else if t = tSGAIN then 0x4800000 + 0x2400000 * c
   else if t = tPTILE then 0x9000000 + 0x40000 * c
   else 0x9080000 + 0x10000 * c) + i

/-- What an unlisted byte of a copy of table `t` reads as: the reset contents with `n` = 0 (not written since the reset) and `n` = 1 (written);
else the frame store's byte after the loss numbered by `n`, with the copy that lay there (R67, R71, R295). (DEDUCED, log entry 127.) -/
def layerDefault (t n i : Nat) : Byte :=
  if n < 2 then tableReset t i else Config.frameStoreByte ((n - 2) / 2) (layerAddr t ((n - 2) % 2) i)

/-- A byte of the active copy of table `t`. -/
def State.tact (s : State) (t i : Nat) : Byte :=
  if t = tFMASK then BitVec.ofNat 8 (s.fmask / 256 ^ i)
  else if t / 0x10000 = 2 ∧ s.tableCap t false ≤ i then 0
  else aget (layerDefault t (s.table t).actIn) (s.table t).act i

/-- A byte of the inactive copy. -/
def State.tin (s : State) (t i : Nat) : Byte :=
  if t / 0x10000 = 2 ∧ s.tableCap t true ≤ i then 0 else aget (layerDefault t (s.table t).inactIn) (s.table t).inact i

/-- Little-endian numbers of either copy. -/
def State.tactNum (s : State) (t i n : Nat) : Nat := leNat ((List.range n).map (fun k => s.tact t (i + k)))
def State.tinNum (s : State) (t i n : Nat) : Nat := leNat ((List.range n).map (fun k => s.tin t (i + k)))

/-- `n` bytes of a copy from offset `o`. -/
def State.tableBytes (s : State) (t o n : Nat) (active : Bool) : List Byte :=
  (List.range n).map (fun k => if active then s.tact t (o + k) else s.tin t (o + k))

/-- The physical copy of table `t` that is active. -/
def State.copyOf (s : State) (t : Nat) : Nat := aget (fun _ => 0) s.bnk.copy t

/-! ## Words of the banks (R453 to R456) -/

/-- CUBE by which copy `c` of view v's table is laid out (R455). -/
def State.layoutCube (s : State) (v c : Nat) : Nat := aget (fun _ => 0) s.bnk.cube (2 * v + c)

/-- CUBE that a load of view v's table is laid out by: that which the loading transaction stages, else the one in force (R455). -/
def State.loadCube (s : State) (v : Nat) : Nat :=
  let staged := (s.stg.txns.find? (fun x => x.loads.contains (0x20000 + v))).bind (fun x => x.regs.lookup (Reg.CLR_3D v))
  fieldOf F.CLR_3D_CUBE (staged.getD (s.reg (Reg.CLR_3D v)))

/-- The units of copy `c` of view v's table. -/
def State.clrUnits (s : State) (v c : Nat) : Nat :=
  s.getF (Reg.CLR_ASTAT v) (if c = s.copyOf (0x20000 + v) then F.CLR_ASTAT_ACT_UNITS else F.CLR_ASTAT_INACT_UNITS)

/-- The class space and the word of it at which entry `e` of a copy of `u` units stands, laid out for `n` nodes a side, 0 for none (R455).
Entries beyond the cube, and all entries of a copy too small for it, fill the words after the largest class, space by space. (DESIGN CHOICE,
log entry 90.) -/
def cubePlace (n u e : Nat) : Nat × Nat :=
  let m := (n + 1) / 2
  let top := if n = 0 ∨ 576 * u < m * m * m then 0 else m * m * m
  if top ≠ 0 ∧ e < n * n * n then
    let b := e % n
    let g := e / n % n
    let r := e / (n * n)
    (4 * (r % 2) + 2 * (g % 2) + b % 2, ((r / 2) * m + g / 2) * m + b / 2)
  else
    let k := if top = 0 then e else e - n * n * n
    (k / (576 * u - top), top + k % (576 * u - top))

/-- The banks' words that hold byte `i` of copy `c` of a bank table; records of WORK lie in two banks, an entry of a colour table in a word of each
half. No word past the end of the class spaces exists. -/
def State.bankWords (s : State) (t c i : Nat) : List Nat :=
  if t = tDEFECT then [65536 * (76 + c) + i / 8]
  else if t = tWORK then
    if i < 18874368 then [hashedWord (38 * c) 36 (i / 8)]
    else
      let w := (i - 18874368) / 8
      [65536 * (38 * c + 36) + w, 65536 * (38 * c + 37) + w]
  else if t / 0x10000 = 2 then
    let v := t % 0x10000
    let (q, pos) := cubePlace ([0, 17, 33, 0].getD (s.layoutCube v c) 0) (s.clrUnits v c) (i / 8)
    let w := 576 * aget (fun k => 8 * k) s.bnk.clr (2 * v + c) + pos
    if q < 8 ∧ w < 131072 then [0, 1].map (fun h => 65536 * (78 + 16 * h + 2 * q + w / 65536 % 2) + w % 65536) else []
  else []

/-- Whether a word of the banks that holds byte `i` of copy `c` of table `t` is uncorrectable. -/
def State.bankBad (s : State) (t c i : Nat) : Bool :=
  !s.bnk.bad.isEmpty && (s.bankWords t c i).any s.bnk.bad.contains

/-- The write of bytes [o, o + n) of copy `c` of a bank table: a word wholly written loses its error (R463); one partly written is merged (R464).
Only the words with errors matter. -/
def State.bankWrite (s : State) (t c o n : Nat) : State :=
  let lo := (o + 7) / 8 * 8
  let full := (List.range ((o + n) / 8 - lo / 8)).flatMap (fun k => s.bankWords t c (lo + 8 * k))
  let ends := (if o % 8 = 0 then [] else s.bankWords t c o) ++ (if (o + n) % 8 = 0 then [] else s.bankWords t c (o + n))
  (s.touchWords (full ++ ends)).writeWords 12 full ends

/-- Copy `c` of view v's table takes the layout of CUBE `n`; its entries keep their errors (R455, R271). -/
def State.layOut (s : State) (v c n : Nat) : State :=
  if s.layoutCube v c = n then s
  else
    let t := 0x20000 + v
    let words (s : State) : List Nat := (List.range (4096 * s.clrUnits v c)).flatMap (fun e => s.bankWords t c (8 * e))
    let o := s
    let s := s.onBnk (fun b => { b with cube := ainsert (aerase b.cube (2 * v + c)) (2 * v + c) n })
    if o.banksClean then s else s.copyWords ((words s).zip ((words o).map some))

/-- The inactive copies that a transaction has loaded follow the CUBE that it stages (R455). -/
def State.layLoads (s : State) : State :=
  (List.range 8).foldl (fun s v =>
    if s.stg.txns.any (fun x => x.loads.contains (0x20000 + v)) then s.layOut v (1 - s.copyOf (0x20000 + v)) (s.loadCube v) else s) s

/-! ## Writing the inactive copy -/

/-- Write bytes into the inactive copy of table `t` at offset `o` (R25). -/
def State.writeInactive (s : State) (t o : Nat) (bs : List Byte) : State :=
  let c := 1 - s.copyOf t
  let k := s.table t
  let s := s.setTable t { k with inact := awrite (layerDefault t k.inactIn) k.inact o bs, inactIn := max 1 k.inactIn }
  if layerTables.contains t then
    s.onFst (fun f => { f with ue := f.ue.filter (fun u => decide (u < layerAddr t c o / 32) || decide (layerAddr t c o + bs.length ≤ 32 * u)) })
  else
    let s := if t / 0x10000 = 2 then s.layOut (t % 0x10000) c (s.loadCube (t % 0x10000)) else s
    s.bankWrite t c o bs.length

/-! ## The working copy (R287, R288, R293) -/

/-- A layer's bytes as the rebuild reads them: an uncorrectable unit gives the reset contents (R298). -/
def State.layerNum (s : State) (t i n : Nat) : Nat :=
  if s.fsBad (layerAddr t (1 - s.copyOf t) i) n then leNat ((List.range n).map (fun k => tableReset t (i + k))) else s.tinNum t i n

/-- The effective gain of subpixel (x, y, c) in the inactive layers (R287). -/
def State.effGain (s : State) (x y c : Nat) : Nat :=
  let i := 2 * (12288 * y + 3 * x + c)
  satU 16 (rneDiv ((s.layerNum tPGAIN i 2 * s.layerNum tSGAIN i 2 : Nat) : Int) 16384)

/-- The offset of tile `t`, colour `c` (R287), as 18 bits. -/
def State.effOffset (s : State) (t c : Nat) : Nat :=
  ofSigned 18 (satS 18 (toSigned 18 (s.layerNum tPTILE (128 * t + 4 * c) 4) + toSigned 18 (s.layerNum tSTILE (16 * t + 4 * c) 4)))

/-- The pixels of tile `t`. -/
def tilePixels (t : Nat) : List (Nat × Nat) :=
  (List.range 64).flatMap (fun dy => (List.range 64).map (fun dx => (64 * (t % 64) + dx, 64 * (t / 64) + dy)))

/-- A derived tile-colour (R288): B, S, E and the code of every pixel of the tile, in order. -/
def State.tileColour (s : State) (t c : Nat) : Nat × Nat × Nat × List Nat :=
  let px := tilePixels t
  let inside := px.filter (fun p => decide (p.1 < s.width ∧ p.2 < s.height))
  let gs := inside.map (fun p => s.effGain p.1 p.2 c)
  match gs with
  | [] => (16384, 1, 0, px.map (fun _ => 0))
  | g :: rest =>
    let lo := rest.foldl min g
    let hi := rest.foldl max g
    let st := max 1 (ceilDiv (hi - lo) 255)
    let code (g : Nat) : Nat := (clampI 0 255 (rneDiv ((g : Int) - lo) st)).toNat
    let e := gs.foldl (fun e g => max e (((lo + code g * st : Nat) : Int) - g).natAbs) 0
    (lo, st, e, px.map (fun p => code (s.effGain p.1 p.2 c)))

/-- Rebuild tile `t` of the inactive working copy: all three colours, and for a PTILE load, `kern`, the kernel (R293, R466). -/
def State.rebuildTile (s : State) (kern : Bool) (t : Nat) : State :=
  let cols := (List.range 3).map (s.tileColour t)
  let rec8 := cols.zipIdx.flatMap (fun e =>
    let (b, st, er, _) := e.1
    leBytes 8 (b + st * 2 ^ 16 + s.effOffset t e.2 * 2 ^ 32 + er % 2 ^ 14 * 2 ^ 50))
  let k := (List.range 54).map (fun k => BitVec.ofNat 8 (s.layerNum tPTILE (128 * t + 12 + k) 1))
  let rows := (List.range 64).map (fun dy =>
    (List.range 64).flatMap (fun dx => cols.map (fun col => BitVec.ofNat 8 (col.2.2.2.getD (64 * dy + dx) 0))))
  let s := s.writeInactive tWORK (18874368 + 128 * t) (if kern then rec8 ++ k ++ List.replicate 50 0 else rec8)
  rows.zipIdx.foldl (fun s r => s.writeInactive tWORK (12288 * (64 * (t / 64) + r.2) + 192 * (t % 64)) r.1) s

/-- The tiles whose records or subpixels bytes [o, o + n) of layer `t` hold. -/
def tilesOf (t o n : Nat) : List Nat :=
  (List.range 1536).filter (fun k =>
    if t = tPTILE then decide (128 * k < o + n ∧ o < 128 * k + 128)
    else if t = tSTILE then decide (16 * k < o + n ∧ o < 16 * k + 16)
    else (List.range 64).any (fun r =>
      let a := 2 * (12288 * (64 * (k / 64) + r) + 192 * (k % 64))
      decide (a < o + n ∧ o < a + 384)))

/-- Whether a rebuild of the tiles meets an uncorrectable frame-store unit, and the event of R298. -/
def State.rebuildErrors (s : State) (ts : List Nat) : State :=
  if s.fst.ue.isEmpty then s
  else ts.foldl (fun s k => layerTables.foldl (fun s t =>
    let c := 1 - s.copyOf t
    let spans := if t = tPTILE then [(128 * k, 128)] else if t = tSTILE then [(16 * k, 16)]
      else (List.range 64).map (fun r => (2 * (12288 * (64 * (k / 64) + r) + 192 * (k % 64)), 384))
    if spans.any (fun p => s.fsBad (layerAddr t c p.1) p.2) then
      (s.bump Reg.DMU_CNT_POISON 1).event Ev.DMU_TBL_UE [(8, t % 0x10000), (16, k)]
    else s) s) s

/-- The rebuild after a load of bytes [o, o + n) into layer `t` (R293). -/
def State.rebuild (s : State) (t o n : Nat) : State :=
  let ts := tilesOf t o n
  ts.foldl (fun s k => s.rebuildTile (t == tPTILE) k) (s.rebuildErrors ts)

/-- DMU_WSTAT of the active working copy (R288, R304). -/
def State.syncWstat (s : State) : State :=
  let es := (List.range 1536).flatMap (fun t => (List.range 3).map (fun c =>
    s.tactNum tWORK (18874368 + 128 * t + 8 * c) 8 / 2 ^ 50 % 2 ^ 14))
  let s := s.setF Reg.DMU_WSTAT F.DMU_WSTAT_NLOSS (es.filter (fun e => e != 0)).length
  s.setF Reg.DMU_WSTAT F.DMU_WSTAT_EMAX (es.foldl max 0)

/-! ## Defect map, checks of contents (R282, R283, R308, R317) -/

/-- X, Y, C, TYPE of a defect entry, and its key. -/
def defX (e : Nat) : Nat := e % 4096
def defY (e : Nat) : Nat := e / 2 ^ 12 % 2048
def defC (e : Nat) : Nat := e / 2 ^ 23 % 4
def defType (e : Nat) : Nat := e / 2 ^ 25 % 4
def defKey (e : Nat) : Nat := 12288 * defY e + 3 * defX e + defC e

/-- Whether an entry has no rejected value (R282). -/
def defOk (e : Nat) : Bool := defC e != 3 && (defType e == 1 || defType e == 2)

/-- The well-formed prefix of the entries that `get` gives, `n` at most (R283). -/
def prefixLen (get : Nat → Nat) : Nat → Nat → Option Nat → Nat
  | 0, i, _ => i
  | n + 1, i, last =>
    let e := get i
    if defOk e && (match last with
      | some k => decide (k < defKey e)
      | none => true) then prefixLen get n (i + 1) (some (defKey e))
    else i

/-- The prefix length of the inactive or active defect copy. -/
def State.defectPrefix (s : State) (active : Bool) : Nat :=
  prefixLen (fun e => if active then s.tactNum tDEFECT (8 * e) 8 else s.tinNum tDEFECT (8 * e) 8) 65536 0 none

/-- DMU_DSTAT.PREFIX. -/
def State.syncPrefix (s : State) : State := s.setF Reg.DMU_DSTAT F.DMU_DSTAT_PREFIX (s.defectPrefix false)

/-- The law entry E_c[j] of the active copy (R308, R322). -/
def State.lawEntry (s : State) (c j : Nat) : Nat := s.tactNum tLAW (4 * (4097 * c + j)) 4 % 2 ^ 18

/-- LAW_MONO and MPERM of the active copies (R308, R317). -/
def State.syncLaw (s : State) : State :=
  let mono := (List.range 3).all (fun c => (List.range 4096).all (fun j => decide (s.lawEntry c j ≤ s.lawEntry c (j + 1))))
  s.setF Reg.ODV_STAT F.ODV_STAT_LAW_MONO (b2n mono)
def State.syncPerm (s : State) : State :=
  let ok := (List.range 4096).all (fun k =>
    let m := (List.range 16).foldl (fun m p => setBit m ((s.tact tDTH (4096 * p + k)).toNat % 16)) 0
    m == 65535)
  s.setF Reg.DTH_STAT F.DTH_STAT_MPERM (b2n ok)

/-! ## CRCs (R297) -/

/-- The tables whose CRC DMU_CRC0 to DMU_CRC5 report. -/
def crcTables : List Nat := [tPGAIN, tPTILE, tSGAIN, tSTILE, tDEFECT, tCMASK]

/-- A computation of the CRCs starts. (DEDUCED, log entry 89.) -/
def State.startCrc (s : State) : State := s.setF Reg.DMU_STAT F.DMU_STAT_CRC_BUSY 1

/-- DMU_CRC_END (R297). -/
def execDmuCrcEnd (s : State) : Res :=
  if s.getF Reg.DMU_STAT F.DMU_STAT_CRC_BUSY = 0 then .next s
  else
    let s := crcTables.zipIdx.foldl (fun s e =>
      s.setReg (Reg.DMU_CRC e.2) (word (crc32c (s.tableBytes e.1 0 (s.tableCap e.1 false) true)))) s
    .next (s.setF Reg.DMU_STAT F.DMU_STAT_CRC_BUSY 0)

/-! ## Exchange and resynchronisation (R25, R130, R294) -/

/-- Exchange the two copies of table `t`. -/
def State.swapCopies (s : State) (t : Nat) : State :=
  let k := s.table t
  let s := s.setTable t { k with act := k.inact, inact := k.act, actIn := k.inactIn, inactIn := k.actIn }
  let s := s.onBnk (fun b => { b with copy := aset (fun _ => 0) b.copy t (1 - aget (fun _ => 0) b.copy t) })
  if t / 0x10000 = 2 then
    let v := t % 0x10000
    let a := s.getF (Reg.CLR_ASTAT v) F.CLR_ASTAT_ACT_UNITS
    let i := s.getF (Reg.CLR_ASTAT v) F.CLR_ASTAT_INACT_UNITS
    (s.setF (Reg.CLR_ASTAT v) F.CLR_ASTAT_ACT_UNITS i).setF (Reg.CLR_ASTAT v) F.CLR_ASTAT_INACT_UNITS a
  else s

/-- Units of the colour pool in use, and BNK_POOL.CLR_FREE (R455, R470). -/
def State.clrUsed (s : State) : Nat :=
  (List.range 8).foldl (fun n v => n + s.getF (Reg.CLR_ASTAT v) F.CLR_ASTAT_ACT_UNITS
    + s.getF (Reg.CLR_ASTAT v) F.CLR_ASTAT_INACT_UNITS) 0
def State.syncPool (s : State) : State := s.setF Reg.BNK_POOL F.BNK_POOL_CLR_FREE (227 - s.clrUsed)

/-- The shares of the colour pool in use, in ascending order: first unit and units, without copy `skip` of 2v + c.
(DEDUCED, log entry 88.) -/
def State.clrShares (s : State) (skip : Nat) : List (Nat × Nat) :=
  (List.range 16).foldl (fun l k =>
    let v := k / 2
    let act := s.copyOf (0x20000 + v) == k % 2
    let u := s.getF (Reg.CLR_ASTAT v) (if act then F.CLR_ASTAT_ACT_UNITS else F.CLR_ASTAT_INACT_UNITS)
    if k = skip ∨ u = 0 then l else ainsert l (aget (fun k => 8 * k) s.bnk.clr k) u) []

/-- First-fit in the 227 units of the pool. -/
def poolFit : List (Nat × Nat) → Nat → Nat → Nat
  | [], a, _ => a
  | (g, k) :: t, a, n => if a + n ≤ g then a else poolFit t (max a (g + k)) n

/-- Place view v's inactive colour copy anew at `u` units (R269, R455). (DEDUCED, log entry 90.) Where no run of the pool holds it although the sum
is at most 227 units, it lies past the last share. (DESIGN CHOICE, log entry 138.) -/
def State.placeColour (s : State) (v u : Nat) : State :=
  let k := 2 * v + (1 - s.copyOf (0x20000 + v))
  let a := poolFit (s.clrShares k) 0 u
  let s := s.onBnk (fun b => { b with clr := ainsert (aerase b.clr k) k a })
  let s := s.setTable (0x20000 + v) { s.table (0x20000 + v) with inact := [] }
  (s.setF (Reg.CLR_ASTAT v) F.CLR_ASTAT_INACT_UNITS u).syncPool

/-- Exchange the loaded tables and start the resynchronisation of the new inactive copies (R25, R126, R130). -/
def State.exchange (s : State) (loads : List Nat) : State :=
  let ts := exchangeSet loads
  let s := ts.foldl (fun s t => s.swapCopies t) s
  let s := ts.foldl (fun s t =>
    let s := if t / 0x10000 = 2 then
        let v := t % 0x10000
        let u := s.getF (Reg.CLR_ALLOC v) F.CLR_ALLOC_UNITS
        if s.getF (Reg.CLR_ASTAT v) F.CLR_ASTAT_INACT_UNITS = u then s else s.placeColour v u
      else s
    s.startResync t) s
  let s := if ts.contains tWORK then s.syncWstat else s
  let s := if ts.contains tLAW then s.syncLaw else s
  if ts.contains tDTH then s.syncPerm else s

/-- The banks that hold copy `c` of a bank table. -/
def State.tableBanks (s : State) (t c : Nat) : List Nat :=
  if t = tDEFECT then [76 + c]
  else if t = tWORK then (List.range 38).map (38 * c + ·)
  else if t / 0x10000 = 2 then
    let v := t % 0x10000
    let a := 576 * aget (fun k => 8 * k) s.bnk.clr (2 * v + c)
    let n := 576 * s.clrUnits v c
    ([0, 1].filter (fun j => decide (a < 65536 * (j + 1) ∧ 65536 * j < a + n))).flatMap (fun j =>
      (List.range 2).flatMap (fun h => (List.range 8).map (fun q => 78 + 16 * h + 2 * q + j)))
  else []

/-- Copy the active copy of table `t` into the inactive one, as far as the active copy's allocation reaches; bytes beyond it are written 0. Poisoned
words are copied poisoned, and the writes clear the errors of frame-store units (R130, R217, R269, R271, R459, R462). -/
def State.copyTable (s : State) (t : Nat) : State :=
  let k := s.table t
  let c := s.copyOf t
  let cap := s.tableCap t false
  let s := s.setTable t { k with
    inact := if t / 0x10000 = 2 then k.act.filter (fun e => decide (e.1 < cap)) else k.act
    inactIn := max 1 k.actIn }
  if layerTables.contains t then
    s.onFst (fun f => { f with ue := f.ue.filter (fun u =>
      decide (u < layerAddr t (1 - c) 0 / 32) || decide (layerAddr t (1 - c) (s.tableCap t true) ≤ 32 * u)) })
  else
    let s := if t / 0x10000 = 2 then s.layOut (t % 0x10000) (1 - c) (s.getF (Reg.CLR_3D (t % 0x10000)) F.CLR_3D_CUBE) else s
    let s := s.touchWords ((s.tableBanks t c ++ s.tableBanks t (1 - c)).map (65536 * ·))
    if s.banksClean then s
    else
      let es := (List.range (s.tableCap t true / 8)).flatMap (fun w =>
        let src := if 8 * w < cap then s.bankWords t c (8 * w) else []
        (s.bankWords t (1 - c) (8 * w)).zipIdx.map (fun e => (e.1, src[e.2]?)))
      ((es.filterMap (·.2)).foldl (fun s w => s.readWord 12 w) s).copyWords es

/-- Whether any table behind the RESYNC bit of `t` is still resynchronising. -/
def State.anyResync (s : State) (t : Nat) : Bool :=
  let same := if t / 0x10000 = 3 then layerTables ++ [tDEFECT, tCMASK, tWORK] else if t / 0x10000 = 4 then [tLAW, tOD] else [t]
  same.any (fun u => (s.table u).resync)

/-- The end of a resynchronisation of table `t` (R130, R283, R297); the waiting loads and reads are answered to the caller. -/
def State.endResync (s : State) (t : Nat) : List (Nat × Nat) × State :=
  let w := (s.table t).waiters
  let s := s.copyTable t
  let s := s.setTable t { s.table t with resync := false, waiters := [] }
  let s := if t = tDEFECT then s.syncPrefix else s
  let s := if s.anyResync t then s else s.setResyncBit t false
  (w, if crcTables.contains t then s.startCrc else s)

/-! ## Contents lost with the frame store or the banks (R71, R461) -/

/-- The stacks were unpowered: what had been written to the layers is undefined (R71, R295). (DEDUCED, log entry 127.) -/
def State.loseLayers (s : State) : State :=
  layerTables.foldl (fun s t =>
    let k := s.table t
    let lost (c n : Nat) : Nat := if n = 0 then 0 else 2 + 2 * s.fsEpoch + c
    let c := s.copyOf t
    s.setTable t { k with
      act := if k.actIn = 0 then k.act else [], actIn := lost c k.actIn
      inact := if k.inactIn = 0 then k.inact else [], inactIn := lost (1 - c) k.inactIn }) s

/-- Every pipeline table returns to its reset contents, and BNK_TBL_LOST is raised. -/
def State.loseTables (s : State) : State :=
  let s := s.onBnk (fun b => { b with bad := [], soft := [] })
  let s := ({ s with fmask := 0 } : State).setF Reg.DMU_STAT F.DMU_STAT_FMASK_N 0
  let s := (loadableTables ++ [tWORK]).foldl (fun s t => (s.setTable t Table.init).setResyncBit t false) s
  let s := ((s.syncPrefix.setReg Reg.DMU_WSTAT 0).setF Reg.ODV_STAT F.ODV_STAT_LAW_MONO 1).setF Reg.DTH_STAT F.DTH_STAT_MPERM 1
  s.startCrc.event Ev.BNK_TBL_LOST []

end Sys2Proof.Machine
end

