-- ==== Sys2Proof/Machine/Banks.lean ====
section
/-! DEFINITION. Owners and states of the banks, scrubbing and retention (R453, R454, R459, R460, R467). -/

namespace Sys2Proof.Machine

/-! ## Owners (R454, R470) -/

def State.setBankOwner (s : State) (b o : Nat) : State := s.setF (Reg.BNK_OWN (b / 8)) ⟨4 * (b % 8) + 3, 4 * (b % 8)⟩ o

/-- The owners of the general pool in the order of R454, each with the banks it wants. -/
def State.wantedOwners (s : State) : List (Nat × Nat) :=
  (5, if s.anyPixelCoded then 6 else 0)
    :: (List.range 4).map (fun m => (6 + m, if s.flag (Reg.MAG_CFG m) F.MAG_CFG_EN then 2 else 0))
    ++ [(10, s.getF Reg.BNK_ALLOC F.BNK_ALLOC_TRACE)]

/-- The owners of banks 110 to 127 now. -/
def State.poolOwners (s : State) : List Nat := (List.range 18).map (fun k => s.bankOwner (110 + k))

/-- Place `n` banks of owner `o` in the lowest free run of a pool. -/
def placeRun (pool : List Nat) (o n : Nat) : Option (List Nat) :=
  if n = 0 then some pool
  else
    ((List.range 19).find? (fun k => decide (k + n ≤ 18) && (List.range n).all (fun j => pool.getD (k + j) 15 == 0))).map (fun k =>
      pool.zipIdx.map (fun e => if k ≤ e.2 ∧ e.2 < k + n then o else e.1))

/-- The owners whose allocation differs from what they hold. -/
def State.changedOwners (s : State) (old : List Nat) : List (Nat × Nat) :=
  s.wantedOwners.filter (fun e => old.count e.1 != e.2)

/-- The pool after the changed owners are freed and placed anew; none if they do not all fit (R454). -/
def State.newPool (s : State) (old : List Nat) : Option (List Nat) :=
  let ch := s.changedOwners old
  let freed := old.map (fun o => if ch.any (fun e => e.1 == o) then 0 else o)
  ch.foldl (fun acc e => acc.bind (fun p => placeRun p e.1 e.2)) (some freed)

/-- The state that a bank of a domain that is on has: in ACTIVE and HEARTH an unallocated bank is OFF under PWR_AUTO.BNK_OFF (R459).
(DEDUCED, log entry 106.) -/
def State.bankRule (s : State) (b : Nat) : Nat :=
  if !s.isOn (25 + b / 16) then 0
  else if s.bankOwner b = 0 ∧ s.flag Reg.PWR_AUTO F.PWR_AUTO_BNK_OFF ∧ s.getF Reg.PWR_STATE F.PWR_STATE_CUR ≤ 1 then 0
  else 2

/-- Every bank takes the state of `bankRule`; a bank in RET that may stay there does. (DEDUCED, log entry 106.) -/
def State.syncBanks (s : State) : State :=
  (List.range 128).foldl (fun s b =>
    let n := s.bankRule b
    if n = 2 ∧ s.bankState b = 1 then s else if s.bankState b = n then s else s.setBankState b n) s

/-- A bank that is OFF has lost its words, their errors with them (R459). -/
def State.dropOff (s : State) : State :=
  if s.banksClean then s
  else
    let on := fun w => s.bankState (w / 65536) != 0
    s.onBnk (fun b => { b with bad := b.bad.filter on, soft := b.soft.filter on })

/-- The trace buffer's contents are lost (R469). -/
def State.loseTrace (s : State) : State := (s.onEvt (fun e => { e with trace := [] })).setReg Reg.EVT_TRC_POS 0

/-- Place the general pool after a change of allocations; the banks that a changed owner gets anew read as zero (R454). -/
def State.placePool (s : State) : State :=
  let old := s.poolOwners
  match s.newPool old with
  | none => s
  | some pool =>
    if (s.changedOwners old).isEmpty then s
    else
      let ch := s.changedOwners old
      let fresh := fun w => decide (110 ≤ w / 65536) && ch.any (fun e => e.1 == pool.getD (w / 65536 - 110) 0)
      let s := if ch.any (fun e => e.1 == 10) then s.loseTrace else s
      let s := s.onBnk (fun b => { b with bad := b.bad.filter (fun w => !fresh w), soft := b.soft.filter (fun w => !fresh w) })
      let s := pool.zipIdx.foldl (fun s e => s.setBankOwner (110 + e.2) e.1) s
      (s.setF Reg.BNK_POOL F.BNK_POOL_GEN_FREE (pool.count 0)).syncBanks.dropOff

/-- Every bank of the fixed regions returns to ON, as on leaving STANDBY (R460). -/
def State.banksOn (s : State) : State :=
  (List.range 110).foldl (fun s b => if s.bankState b = 1 then s.setBankState b 2 else s) s

/-! ## Scrubbing and retention -/

/-- Numbers in ascending order, each once. -/
def ascending (l : List Nat) : List Nat := (l.foldl (fun (m : AMap Unit) w => ainsert (aerase m w) w ()) []).map (·.1)

/-- One pass of SCRUB over the banks that are ON, in bank and word order (R467): `errs` are the errors that have arisen in their words beside those
known. -/
def State.scrub (s : State) (errs : List ReadError) : State :=
  if !s.flag Reg.BNK_SCRUB F.BNK_SCRUB_EN || !s.isReady 5 || s.step2Stops then s
  else
    let on := fun (w : Nat) => s.bankState (w / 65536) == 2 && decide (w < 128 * 65536)
    let s := s.spoilWords (errs.filter (fun e => on e.unit))
    (ascending ((s.bnk.bad ++ s.bnk.soft).filter on)).foldl (fun s w => s.readWord 15 w) s

/-- BNK_SCRUB. -/
def execBnkScrub (errs : List ReadError) (s : State) : Res := .next (s.scrub errs)

/-- BNK_RETENTION: in STANDBY with STBY_RET the banks of the fixed regions go to RET (R460). -/
def execBnkRetention (s : State) : Res :=
  if s.getF Reg.PWR_STATE F.PWR_STATE_CUR = 2 ∧ s.flag Reg.BNK_CFG F.BNK_CFG_STBY_RET then
    .next ((List.range 110).foldl (fun s b => if s.bankState b = 2 then s.setBankState b 1 else s) s)
  else .next s

end Sys2Proof.Machine
end

