-- ==== Sys2Proof/Machine/Inflate.lean ====
section
/-! DEFINITION. DEFLATE streams: the decoder of R436 with its stops (R443), and the encoder of R434 and R435. -/

namespace Sys2Proof.Machine

/-! ## Bits of a byte string -/

/-- The bits of a byte, the least significant first (RFC 1951). -/
def byteBits (b : Byte) : List Bool := (List.range 8).map b.toNat.testBit

/-- The bits of a byte string. -/
def bytesBits (bs : List Byte) : List Bool := bs.flatMap byteBits

/-- The number that bits spell, the least significant first. -/
def bitsNat : List Bool → Nat
  | [] => 0
  | b :: t => b2n b + 2 * bitsNat t

/-- Whole bytes of a bit string; the unused bits of the last byte are 0 (R431). -/
def packBits : List Bool → List Byte
  | b0 :: b1 :: b2 :: b3 :: b4 :: b5 :: b6 :: b7 :: t => BitVec.ofNat 8 (bitsNat [b0, b1, b2, b3, b4, b5, b6, b7]) :: packBits t
  | [] => []
  | l => [BitVec.ofNat 8 (bitsNat l)]

/-- `n` bits of a number, the least significant first. -/
def natBits (n x : Nat) : List Bool := (List.range n).map x.testBit

/-- What reading from a bit string answers: the bits run out, they are malformed, or a value and the rest. -/
inductive BitRead (α : Type) where
  | more
  | bad
  | ok (v : α) (rest : List Bool)
  deriving Repr

/-- Go on with what a reading answered. -/
def BitRead.next {α β : Type} (r : BitRead α) (f : α → List Bool → BitRead β) : BitRead β :=
  match r with
  | .more => .more
  | .bad => .bad
  | .ok v rest => f v rest

/-- Read a number of `n` bits. -/
def readBits (n : Nat) (bits : List Bool) : BitRead Nat :=
  if (bits.take n).length < n then .more else .ok (bitsNat (bits.take n)) (bits.drop n)

/-! ## Huffman codes -/

/-- How many symbols have code length `l`. -/
def lenCount (lens : List Nat) (l : Nat) : Nat := lens.countP (· == l)

/-- The symbols with a code, by length and then by symbol: the order of a canonical code. -/
def codeOrder (lens : List Nat) : List Nat :=
  (List.range 15).flatMap (fun l => (lens.zipIdx.filter (fun e => e.1 == l + 1)).map (·.2))

/-- Read one code word: at length `len`, the bits so far, the first code of that length and the symbols before it. A word that no longer code
begins is malformed at once. -/
def readCodeGo (lens : List Nat) : Nat → Nat → Nat → Nat → Nat → List Bool → BitRead Nat
  | 0, _, _, _, _, _ => .bad
  | _ + 1, _, _, _, _, [] => .more
  | n + 1, len, code, first, index, b :: t =>
    let code := code + b2n b
    let c := lenCount lens len
    if code < first + c then .ok ((codeOrder lens).getD (index + (code - first)) 0) t
    else if (codeOrder lens).length ≤ index + c then .bad
    else readCodeGo lens n (len + 1) (2 * code) (2 * (first + c)) (index + c) t

/-- Read a symbol of the canonical code with these lengths. -/
def readCode (lens : List Nat) (bits : List Bool) : BitRead Nat := readCodeGo lens 15 1 0 0 0 bits

/-- What is left of the code space after each length from 1: none if over-subscribed. -/
def codeLeft (lens : List Nat) : Option Nat :=
  (List.range 15).foldl (fun l i => l.bind (fun n =>
    if 2 * n < lenCount lens (i + 1) then none else some (2 * n - lenCount lens (i + 1)))) (some 1)

/-- Whether a code is complete. -/
def codeComplete (lens : List Nat) : Bool := codeLeft lens == some 0

/-- Whether a distance code is accepted: complete, a single code of length 1, or no code at all (R436). -/
def distAccepted (lens : List Nat) : Bool :=
  codeComplete lens || lens.all (· == 0) || (lenCount lens 1 == 1 && lens.countP (· != 0) == 1)

/-- Base and extra bits of length symbols 257 to 285. -/
def lenBase (k : Nat) : Nat × Nat :=
  ([(3, 0), (4, 0), (5, 0), (6, 0), (7, 0), (8, 0), (9, 0), (10, 0), (11, 1), (13, 1), (15, 1), (17, 1), (19, 2), (23, 2), (27, 2),
    (31, 2), (35, 3), (43, 3), (51, 3), (59, 3), (67, 4), (83, 4), (99, 4), (115, 4), (131, 5), (163, 5), (195, 5), (227, 5),
    (258, 0)] : List (Nat × Nat)).getD k (0, 0)

/-- Base and extra bits of distance symbols 0 to 29. -/
def distBase (k : Nat) : Nat × Nat :=
  if k < 4 then (k + 1, 0)
  else
    let e := k / 2 - 1
    ((2 + k % 2) * 2 ^ e + 1, e)

/-- The fixed codes. -/
def fixedLens : List Nat :=
  List.replicate 144 8 ++ List.replicate 112 9 ++ List.replicate 24 7 ++ List.replicate 8 8
def fixedDists : List Nat := List.replicate 32 5

/-! ## Tokens -/

/-- Where a stream stands: before a block header, in a stored block with bytes left, in a block of Huffman codes, or ended. -/
inductive DeflateMode where
  | header
  | stored (left : Nat)
  | coded (ll dl : List Nat)
  | ended
  deriving DecidableEq, Repr

/-- One code word of a stream (R442). -/
inductive DeflateToken where
  | block (final : Bool) (m : DeflateMode)
  | lit (b : Byte)
  | copy (len dist : Nat)
  | endBlock
  deriving DecidableEq, Repr

/-- The code lengths of a dynamic header, read with the code-length code `cl`. -/
def readLens (cl : List Nat) (total : Nat) : Nat → List Nat → List Bool → BitRead (List Nat)
  | 0, _, _ => .bad
  | n + 1, acc, bits =>
    if total < acc.length then .bad
    else if acc.length = total then .ok acc bits
    else
      (readCode cl bits).next (fun sym bits =>
        if sym < 16 then readLens cl total n (acc ++ [sym]) bits
        else if sym = 16 then
          match acc.getLast? with
          | none => .bad
          | some p => (readBits 2 bits).next (fun k bits => readLens cl total n (acc ++ List.replicate (k + 3) p) bits)
        else if sym = 17 then (readBits 3 bits).next (fun k bits => readLens cl total n (acc ++ List.replicate (k + 3) 0) bits)
        else (readBits 7 bits).next (fun k bits => readLens cl total n (acc ++ List.replicate (k + 11) 0) bits))

/-- The order in which a dynamic header gives the code-length code. -/
def clOrder : List Nat := [16, 17, 18, 0, 8, 7, 9, 6, 10, 5, 11, 4, 12, 3, 13, 2, 14, 1, 15]

/-- Read `n` numbers of three bits. -/
def readThrees : Nat → List Bool → BitRead (List Nat)
  | 0, bits => .ok [] bits
  | n + 1, bits => (readBits 3 bits).next (fun v bits => (readThrees n bits).next (fun l bits => .ok (v :: l) bits))

/-- The code-length code of a dynamic header. -/
def clLens (l : List Nat) : List Nat :=
  (List.range 19).map (fun sym => ((clOrder.zip l).find? (fun e => e.1 == sym)).elim 0 (·.2))

/-- A dynamic header after its first three bits (R436). -/
def readDynamic (bits : List Bool) : BitRead DeflateMode :=
  (readBits 5 bits).next (fun hlit bits => if 29 < hlit then .bad else
  (readBits 5 bits).next (fun hdist bits => if 29 < hdist then .bad else
  (readBits 4 bits).next (fun hclen bits =>
  (readThrees (hclen + 4) bits).next (fun l bits =>
    let cl := clLens l
    if !codeComplete cl then .bad
    else
      (readLens cl (hlit + 257 + hdist + 1) (hlit + hdist + 260) [] bits).next (fun lens bits =>
        let ll := lens.take (hlit + 257)
        let dl := lens.drop (hlit + 257)
        if !codeComplete ll || ll.getD 256 0 == 0 || !distAccepted dl then .bad else .ok (.coded ll dl) bits)))))

/-- A block header (R436); `pos` is the bit position in the stream, for the byte boundary of a stored block. -/
def readBlock (pos : Nat) (bits : List Bool) : BitRead DeflateToken :=
  (readBits 3 bits).next (fun v bits =>
    let final := v % 2 == 1
    let t := v / 2
    if t = 0 then
      (readBits ((8 - (pos + 3) % 8) % 8 + 32) bits).next (fun w rest =>
        let w := w / 2 ^ ((8 - (pos + 3) % 8) % 8)
        if w % 65536 + w / 65536 = 65535 then .ok (.block final (.stored (w % 65536))) rest else .bad)
    else if t = 1 then .ok (.block final (.coded fixedLens fixedDists)) bits
    else if t = 2 then (readDynamic bits).next (fun m bits => .ok (.block final m) bits)
    else .bad)

/-- A length symbol with its distance; in a block with no distance code the length symbol itself is malformed (R436). -/
def readCopy (dl : List Nat) (sym : Nat) (bits : List Bool) : BitRead DeflateToken :=
  if dl.all (· == 0) then .bad
  else
    let (lb, le) := lenBase (sym - 257)
    (readBits le bits).next (fun lx bits =>
      (readCode dl bits).next (fun d bits =>
        if 30 ≤ d then .bad
        else
          let (db, de) := distBase d
          (readBits de bits).next (fun dx bits => .ok (.copy (lb + lx) (db + dx)) bits)))

/-- The next code word. -/
def readToken (m : DeflateMode) (pos : Nat) (bits : List Bool) : BitRead DeflateToken :=
  match m with
  | .header => readBlock pos bits
  | .stored 0 => .ok .endBlock bits
  | .stored _ => (readBits 8 bits).next (fun v bits => .ok (.lit (BitVec.ofNat 8 v)) bits)
  | .coded ll dl =>
    (readCode ll bits).next (fun sym bits =>
      if sym < 256 then .ok (.lit (BitVec.ofNat 8 sym)) bits
      else if sym = 256 then .ok .endBlock bits
      else if 286 ≤ sym then .bad
      else readCopy dl sym bits)
  | .ended => .more

/-! ## The decoder -/

/-- The decoder between two code words. -/
structure Inflate where
  mode : DeflateMode
  final : Bool                      -- the current block is the last
  one : Bool                        -- stop at the end of the current block
  pos : Nat                         -- bits consumed of the stream
  hist : List Byte                  -- the last bytes produced, newest first, at most 32,768
  made : Nat                        -- bytes produced in the chunk or job
  copyLen : Nat                     -- bytes of an interrupted copy still to write
  copyDist : Nat
  blocks : Nat                      -- block headers read
  deriving DecidableEq, Repr

/-- A stream from its start. -/
def Inflate.init : Inflate := ⟨.header, false, false, 0, [], 0, 0, 0, 0⟩

/-- Why the decoder stops. -/
inductive InflateStop where
  | more | bad | full | ended
  deriving DecidableEq, Repr

/-- Put one byte out. -/
def Inflate.put (d : Inflate) (b : Byte) : Inflate := { d with hist := (b :: d.hist).take 32768, made := d.made + 1 }

/-- Copy `n` bytes from `dist` back; the bytes come out newest first in front of `out`. -/
def copyBytes (dist : Nat) : Nat → Inflate → List Byte → Inflate × List Byte
  | 0, d, out => (d, out)
  | n + 1, d, out =>
    let b := d.hist.getD (dist - 1) 0
    copyBytes dist n (d.put b) (b :: out)

/-- The state after a code word that puts out no byte, or the start of a copy; a byte that is put out is answered apart. -/
def Inflate.take (d : Inflate) : DeflateToken → Inflate
  | .block final m => { d with final := final, mode := m, blocks := d.blocks + 1 }
  | .lit b => { d.put b with mode := match d.mode with
      | .stored n => .stored (n - 1)
      | m => m }
  | .copy len dist => { d with copyLen := len, copyDist := dist }
  | .endBlock => { d with mode := if d.final || d.one then .ended else .header }

/-- Decode until the stream ends, the bits run out, the input is malformed, or `room` bytes are written. Answers the decoder, the
bytes (newest first), the bits that no code word has used, and why it stopped (R436, R443). -/
def inflateGo : Nat → Nat → Inflate → List Byte → List Bool → Inflate × List Byte × List Bool × InflateStop
  | 0, _, d, out, bits => (d, out, bits, .more)
  | n + 1, room, d, out, bits =>
    if d.copyLen ≠ 0 then
      if room = 0 then (d, out, bits, .full)
      else
        let k := min d.copyLen room
        let (d, out) := copyBytes d.copyDist k { d with copyLen := d.copyLen - k } out
        inflateGo n (room - k) (if d.copyLen = 0 then { d with copyDist := 0 } else d) out bits
    else if d.mode = .ended then (d, out, bits, .ended)
    else
      match readToken d.mode d.pos bits with
      | .more => (d, out, bits, .more)
      | .bad => (d, out, bits, .bad)
      | .ok tok rest =>
        let d' := { d.take tok with pos := d.pos + (bits.length - rest.length) }
        match tok with
        | .lit b => if room = 0 then (d, out, bits, .full) else inflateGo n (room - 1) d' (b :: out) rest
        | .copy _ dist =>
          if d.made < dist then (d, out, bits, .bad)
          else if room = 0 then (d, out, bits, .full)
          else inflateGo n room d' out rest
        | _ => inflateGo n room d' out rest

/-- Decode `bits`, at most `room` bytes; the bytes come in order. -/
def inflate (room : Nat) (d : Inflate) (bits : List Bool) : Inflate × List Byte × List Bool × InflateStop :=
  let (d, out, rest, stop) := inflateGo (3 * bits.length + 4) room d [] bits
  (d, out.reverse, rest, stop)

/-! ## The encoder (R433, R434) -/

/-- W_raw (R433). -/
def wRaw (n : Nat) : Nat := n + 5 * ceilDiv n 16384 + 1

/-- A stored block of `data` at bit position `pos`. -/
def storedBlock (final : Bool) (pos : Nat) (data : List Byte) : List Bool :=
  [final, false, false] ++ List.replicate ((8 - (pos + 3) % 8) % 8) false ++ natBits 16 data.length ++ natBits 16 (65535 - data.length)
    ++ bytesBits data

/-- The lengths in bits of the code words of a block (R442), from mode `m` at bit position `pos`: they end with the block. -/
def codeWords : Nat → DeflateMode → Nat → List Bool → List Nat
  | 0, _, _, _ => []
  | k + 1, m, pos, bits =>
    match readToken m pos bits with
    | .ok tok rest =>
      let n := bits.length - rest.length
      match tok with
      | .endBlock => [n]
      | .block _ m' => n :: codeWords k m' (pos + n) rest
      | .lit _ => n :: codeWords k (match m with
          | .stored j => .stored (j - 1)
          | x => x) (pos + n) rest
      | .copy _ _ => n :: codeWords k m (pos + n) rest
    | _ => []

/-! ### The match search (R435) -/

/-- CHAIN and NICE of a level (R435). -/
def levelChain (level : Nat) : Nat := ([4, 8, 16, 16, 32, 64, 128, 512, 4096] : List Nat).getD (level - 1) 0
def levelNice (level : Nat) : Nat := ([16, 32, 64, 64, 128, 128, 258, 258, 258] : List Nat).getD (level - 1) 258

/-- How many bytes two strings have in common at their starts. -/
def commonLen : List Byte → List Byte → Nat
  | a :: s, b :: t => if a = b then commonLen s t + 1 else 0
  | _, _ => 0

/-- The length of the match at distance `d` back in `hist`, newest first, for the bytes to come, at most `room`: a match may run into itself. -/
def matchLen (hist rest : List Byte) (room d : Nat) : Nat :=
  commonLen ((hist.take d).reverse ++ rest.take room) (rest.take room)

/-- Whether the position at distance `d` has the hash of the bytes to come (R435). -/
def sameHash (hist rest : List Byte) (d : Nat) : Bool :=
  Config.deflateHash (((hist.take d).reverse ++ rest).take 3) == Config.deflateHash (rest.take 3)

/-- The distances that the search examines: those with the same hash, nearest first, at most CHAIN. (DESIGN CHOICE, log entry 11.) -/
def searchDists (level : Nat) (hist rest : List Byte) : List Nat :=
  (((List.range hist.length).map (· + 1)).filter (sameHash hist rest)).take (levelChain level)

/-- The longest match that the search finds, as its length and distance: the nearest of equal ones, and the first of NICE bytes or more; none
under three bytes (R434, R435). (DESIGN CHOICE, log entry 11.) -/
def bestMatch (level : Nat) (hist rest : List Byte) (room : Nat) : Option (Nat × Nat) :=
  let best := (searchDists level hist rest).foldl (fun b d =>
    let n := matchLen hist rest room d
    if levelNice level ≤ b.1 ∨ n ≤ b.1 then b else (n, d)) (2, 0)
  if 3 ≤ best.1 then some best else none

/-- The next symbol: the match, unless a level from 4 defers it for a longer one at the next position, or a literal (R435). -/
def nextSymbol (level : Nat) (hist rest : List Byte) (room : Nat) : DeflateToken :=
  let lit := DeflateToken.lit (rest.headD 0)
  match bestMatch level hist rest (min 258 room) with
  | none => lit
  | some (n, d) =>
    let later := bestMatch level (rest.take 1 ++ hist) (rest.drop 1) (min 258 (room - 1))
    if 4 ≤ level ∧ later.any (fun m => decide (n < m.1)) then lit else .copy n d

/-- The history after `bs` more bytes: newest first, at most 32,768. -/
def pushHist (hist bs : List Byte) : List Byte := (bs.reverse ++ hist).take 32768

/-- How many input bytes a symbol covers. -/
def DeflateToken.covers : DeflateToken → Nat
  | .lit _ => 1
  | .copy n _ => n
  | _ => 0

/-- The symbols of a block: at most 16,384, over at most `room` bytes (R434). -/
def blockSymbols (level : Nat) : Nat → Nat → List Byte → List Byte → List DeflateToken
  | 0, _, _, _ => []
  | k + 1, room, hist, rest =>
    if room = 0 ∨ rest = [] then []
    else
      let t := nextSymbol level hist rest room
      t :: blockSymbols level k (room - t.covers) (pushHist hist (rest.take t.covers)) (rest.drop t.covers)

/-! ### The three forms of a block (R434) -/

/-- The code word of a symbol in the canonical code with these lengths, most significant bit first. -/
def codeWord (lens : List Nat) (sym : Nat) : List Bool :=
  let n := lens.getD sym 0
  let first := (List.range n).foldl (fun a l => 2 * (a + (if l = 0 then 0 else lenCount lens l))) 0
  (natBits n (first + (lens.take sym).countP (· == n))).reverse

/-- The length symbol of a length, and the distance symbol of a distance: the last whose base is not above it, 258 having its own. -/
def lenSym (n : Nat) : Nat := ((List.range 29).filter (fun k => decide ((lenBase k).1 ≤ n))).getLastD 0
def distSym (d : Nat) : Nat := ((List.range 30).filter (fun k => decide ((distBase k).1 ≤ d))).getLastD 0

/-- The bits of a symbol in the codes `ll` and `dl`. -/
def symbolBits (ll dl : List Nat) : DeflateToken → List Bool
  | .lit b => codeWord ll b.toNat
  | .copy n d =>
    let k := lenSym n
    let e := distSym d
    codeWord ll (257 + k) ++ natBits (lenBase k).2 (n - (lenBase k).1) ++ codeWord dl e ++ natBits (distBase e).2 (d - (distBase e).1)
  | _ => []

/-- A block of Huffman codes after its header: its symbols and the end of the block. -/
def codedBits (ll dl : List Nat) (syms : List DeflateToken) : List Bool := syms.flatMap (symbolBits ll dl) ++ codeWord ll 256

/-- The literal/length and the distance symbols that a block uses. -/
def usedLits (syms : List DeflateToken) : List Nat := 256 :: syms.map (fun t => match t with
  | .lit b => b.toNat
  | .copy n _ => 257 + lenSym n
  | _ => 256)
def usedDists (syms : List DeflateToken) : List Nat := syms.filterMap (fun t => match t with
  | .copy _ d => some (distSym d)
  | _ => none)

/-- Whether codes are ones that the encoder may write for these symbols: complete, with a code for every symbol used (R434). -/
def codesServe (ll dl : List Nat) (syms : List DeflateToken) : Bool :=
  codeComplete ll && codeComplete dl && (usedLits syms).all (fun k => ll.getD k 0 != 0) && (usedDists syms).all (fun k => dl.getD k 0 != 0)

/-- The lengths of a complete code over `n` symbols of which it gives one to each in `used` (two at least): as even as it can be. -/
def evenLens (n : Nat) (used : List Nat) : List Nat :=
  let used := (List.range n).filter (fun k => used.contains k)
  let used := if used.length < 2 then used ++ ((List.range n).filter (fun k => !used.contains k)).take (2 - used.length) else used
  let l := Nat.log2 used.length
  let short := 2 ^ (l + 1) - used.length
  (List.range n).map (fun k => if used.contains k then (if (used.take short).contains k then l else l + 1) else 0)

/-- A header of 286 and 30 lengths, each in four bits, over even codes: legal for any block. -/
def plainHeader (syms : List DeflateToken) : List Bool :=
  natBits 5 29 ++ natBits 5 29 ++ natBits 4 15 ++ clOrder.flatMap (fun k => natBits 3 (if k < 16 then 4 else 0))
    ++ (evenLens 286 (usedLits syms) ++ evenLens 30 (usedDists syms)).flatMap (fun l => (natBits 4 l).reverse)

/-- The dynamic block of these symbols: the device's header where it is a whole legal one, else a plain one. (DESIGN CHOICE, log entry 11.) -/
def dynamicBlock (final : Bool) (syms : List DeflateToken) : List Bool :=
  let pairs := syms.map (fun t => match t with
    | .lit b => (0, b.toNat)
    | .copy n d => (n, d)
    | _ => (0, 0))
  let form := fun (h : List Bool) =>
    match readDynamic h with
    | .ok (.coded ll dl) [] => if codesServe ll dl syms then some ([final, false, true] ++ h ++ codedBits ll dl syms) else none
    | _ => none
  (form (Config.dynamicHeader pairs)).getD ((form (plainHeader syms)).getD [])

/-- The fixed block of these symbols. -/
def fixedBlock (final : Bool) (syms : List DeflateToken) : List Bool :=
  [final, true, false] ++ codedBits fixedLens fixedDists syms

/-- The smallest of the three forms of a block of `data`, from bit position `pos`: fixed before dynamic, stored only where it is smaller than
both (R434). -/
def smallestForm (final : Bool) (pos : Nat) (data : List Byte) (syms : List DeflateToken) : List Bool :=
  let fixed := fixedBlock final syms
  let dynamic := dynamicBlock final syms
  let stored := storedBlock final pos data
  let coded := if dynamic ≠ [] ∧ dynamic.length < fixed.length then dynamic else fixed
  if stored.length < coded.length then stored else coded

/-- The next block of the encoder and the input bytes it covers (R434, R435). -/
def nextBlock (level : Nat) (hist rest : List Byte) (pos : Nat) : Nat × List Bool :=
  let syms := blockSymbols level 16384 65535 hist rest
  let n := (syms.map DeflateToken.covers).sum
  (n, smallestForm (n == rest.length) pos (rest.take n) syms)

/-- The blocks of the encoder: input bytes covered and bits of each. -/
def deflateBlocks (level : Nat) : Nat → List Byte → List Byte → Nat → List (Nat × List Bool)
  | 0, _, _, _ => []
  | k + 1, hist, rest, pos =>
    if rest.isEmpty then []
    else
      let (n, bits) := nextBlock level hist rest pos
      (n, bits) :: deflateBlocks level k (pushHist hist (rest.take n)) (rest.drop n) (pos + bits.length)

/-- The bits of a whole raw stream. -/
def deflateBits (level : Nat) (data : List Byte) : List Bool :=
  (deflateBlocks level (data.length + 1) [] data 0).flatMap (·.2)

/-- A whole raw stream (R431). -/
def deflate (level : Nat) (data : List Byte) : List Byte := packBits (deflateBits level data)

end Sys2Proof.Machine
end

