-- ==== Sys2Proof/Machine/Container.lean ====
section
/-! DEFINITION. Plate containers (R429 to R433), host codec jobs and their job state (R437 to R444), as functions of bytes. -/

namespace Sys2Proof.Machine

/-- `bs` cut or filled with zeros to `n` bytes. -/
def padTo (n : Nat) (bs : List Byte) : List Byte := (bs ++ List.replicate n 0).take n

/-! ## The container -/

/-- The original bytes of chunk `k` (R430). -/
def chunkLen (clog2 orig k : Nat) : Nat := min (2 ^ clog2) (orig - k * 2 ^ clog2)

/-- W_cont (R433). -/
def wCont (n clog2 : Nat) : Nat :=
  (List.range (ceilDiv n (2 ^ clog2))).foldl (fun a k => a + 16 + wRaw (chunkLen clog2 n k)) 32

/-- The container header (R429). -/
def containerHeader (clog2 level orig : Nat) : List Byte :=
  let h := [0x41, 0x5A, 0x54, 0x43, 1, 0, BitVec.ofNat 8 clog2, BitVec.ofNat 8 level] ++ leBytes 4 orig
    ++ leBytes 4 (ceilDiv orig (2 ^ clog2)) ++ List.replicate 12 0
  h ++ leBytes 4 (crc32c h)

/-- The chunk header of chunk `k` (R430). -/
def chunkHeader (k orig comp crc : Nat) : List Byte :=
  let h := leBytes 4 orig ++ leBytes 4 comp ++ leBytes 4 crc
  h ++ leBytes 4 (crc32c (h ++ leBytes 4 k))

/-- Chunk `k` compressed, with its header. -/
def packChunk (level k : Nat) (data : List Byte) : List Byte :=
  let c := deflate level data
  chunkHeader k data.length c.length (crc32c data) ++ c

/-- A whole container. -/
def packContainer (level clog2 : Nat) (data : List Byte) : List Byte :=
  containerHeader clog2 level data.length
    ++ (List.range (ceilDiv data.length (2 ^ clog2))).flatMap (fun k => packChunk level k (slice (k * 2 ^ clog2) (2 ^ clog2) data))

/-- CLOG2, ORIG_LEN and NCHUNK of a container header that matches R429. -/
def headerOk (h : List Byte) : Option (Nat × Nat × Nat) :=
  let c := leAt 6 1 h
  if h.length = 32 ∧ h.take 4 = [0x41, 0x5A, 0x54, 0x43] ∧ leAt 4 2 h = 1 ∧ 14 ≤ c ∧ c ≤ 20 ∧ leAt 0x1C 4 h = crc32c (h.take 0x1C)
      ∧ leAt 0xC 4 h = ceilDiv (leAt 8 4 h) (2 ^ c) then
    some (c, leAt 8 4 h, leAt 0xC 4 h)
  else none

/-- ORIG_LEN, COMP_LEN and CRC of the header of chunk `k` if it matches R430. -/
def chunkOk (clog2 orig k : Nat) (h : List Byte) : Option (Nat × Nat × Nat) :=
  if h.length = 16 ∧ leAt 0 4 h = chunkLen clog2 orig k ∧ leAt 0xC 4 h = crc32c (h.take 12 ++ leBytes 4 k) then
    some (leAt 0 4 h, leAt 4 4 h, leAt 8 4 h)
  else none

/-! ## Decompression -/

/-- A decompression job between two of its bytes. A raw job uses only the decoder and the held bits. -/
structure Unpack where
  hdr : List Byte                   -- bytes of the container header read
  chk : List Byte                   -- bytes of the chunk header read
  k : Nat                           -- the chunk in progress
  comp : Nat                        -- bytes of its data given to the decoder
  crc : Nat                         -- the running CRC register of its output
  inf : Inflate                     -- its history runs on over the chunks, for WINDOW (R441)
  held : List Bool                  -- bits of the last byte counted that no code word has used
  deriving DecidableEq, Repr

def Unpack.init : Unpack := ⟨[], [], 0, 0, 0xFFFFFFFF, .init, []⟩

/-- Why a job stops (R440). -/
inductive JobEnd where
  | ok | outFull | inputEnd | check | data | space
  deriving DecidableEq, Repr

/-- What a decompression run has done: `okIn` and `okOut` count up to the end of the last chunk that passed. -/
structure UnpackRun where
  stop : JobEnd
  st : Unpack
  used : Nat
  out : List Byte
  okIn : Nat
  okOut : Nat
  deriving DecidableEq, Repr

/-- Decompress a container from where `r.st` stands (R429 to R431, R436, R440); `limit` bounds ORIG_LEN in a stateless job. -/
def unpackGo (limit : Option Nat) : Nat → Nat → UnpackRun → List Byte → UnpackRun
  | 0, _, r, _ => { r with stop := .data }
  | n + 1, room, r, inp =>
    let u := r.st
    if u.hdr.length < 32 then
      let k := min (32 - u.hdr.length) inp.length
      let hdr := u.hdr ++ inp.take k
      let r := { r with st := { u with hdr := hdr }, used := r.used + k }
      if hdr.length < 32 then { r with stop := .inputEnd }
      else
        match headerOk hdr with
        | none => { r with stop := .data }
        | some (_, orig, _) =>
          if limit.any (fun l => decide (l < orig)) then { r with stop := .space } else unpackGo limit n room r (inp.drop k)
    else
      match headerOk u.hdr with
      | none => { r with stop := .data }
      | some (c, orig, nchunk) =>
        if nchunk ≤ u.k then { r with stop := .ok, okIn := r.used, okOut := r.out.length }
        else if u.chk.length < 16 then
          let k := min (16 - u.chk.length) inp.length
          let r := { r with st := { u with chk := u.chk ++ inp.take k }, used := r.used + k }
          if u.chk.length + k < 16 then { r with stop := .inputEnd }
          else if (chunkOk c orig u.k r.st.chk).isNone then { r with stop := .data }
          else unpackGo limit n room r (inp.drop k)
        else
          match chunkOk c orig u.k u.chk with
          | none => { r with stop := .data }
          | some (olen, clen, crc) =>
            let bs := inp.take (clen - u.comp)
            let (inf, o, rest, stop) := inflate (min room (olen - u.inf.made)) u.inf (u.held ++ bytesBits bs)
            let back := rest.length / 8
            let r := { r with out := r.out ++ o, used := r.used + bs.length }
            let u := { u with inf := inf, crc := crc32cGo o u.crc, comp := u.comp + bs.length }
            match stop with
            | .bad => { r with stop := .data, used := r.used - back }
            | .ended =>
              if inf.made = olen ∧ u.comp = clen ∧ back = 0 then
                if u.crc ^^^ 0xFFFFFFFF = crc then
                  let u := { Unpack.init with hdr := u.hdr, k := u.k + 1, inf := { Inflate.init with hist := inf.hist } }
                  unpackGo limit n (room - o.length) { r with st := u, okIn := r.used, okOut := r.out.length } (inp.drop bs.length)
                else { r with stop := .check }
              else { r with stop := .data, used := r.used - back }
            | .full =>
              if olen ≤ inf.made then { r with stop := .data, used := r.used - back }
              else { r with stop := .outFull, used := r.used - back, st := { u with comp := u.comp - back, held := rest.take (rest.length % 8) } }
            | .more =>
              if u.comp = clen then { r with stop := .data }
              else { r with stop := .inputEnd, used := r.used - back, st := { u with comp := u.comp - back, held := rest.take (rest.length % 8) } }

/-- Decompress a container with `room` bytes of output. -/
def unpackContainer (limit : Option Nat) (room : Nat) (u : Unpack) (inp : List Byte) : UnpackRun :=
  unpackGo limit (2 * inp.length + 8) room ⟨.ok, u, 0, [], 0, 0⟩ inp

/-- Decompress a raw stream (R440, R443): at a stop, whole bytes of which no code word has used a bit do not count. -/
def unpackRaw (room : Nat) (u : Unpack) (inp : List Byte) : UnpackRun :=
  let (inf, o, rest, stop) := inflate room u.inf (u.held ++ bytesBits inp)
  let back := min (rest.length / 8) inp.length
  let run := fun (e : JobEnd) (held : List Bool) => UnpackRun.mk e { u with inf := inf, held := held } (inp.length - back) o 0 0
  match stop with
  | .ended => run .ok []
  | .bad => run .data []
  | .full => run .outFull (rest.take (rest.length % 8))
  | .more => run .inputEnd (rest.take (rest.length % 8))

/-- One chunk of a plate frame from its header on (R421, R432): none if it is malformed, otherwise whether its CRC passes and its bytes. -/
def unpackChunk (clog2 orig k : Nat) (bs : List Byte) : Option (Bool × List Byte) :=
  match chunkOk clog2 orig k (bs.take 16) with
  | none => none
  | some (olen, clen, crc) =>
    let (inf, o, rest, stop) := inflate olen .init (bytesBits (slice 16 clen bs))
    if stop = .ended ∧ inf.made = olen ∧ rest.length < 8 ∧ 16 + clen ≤ bs.length then some (crc32c o == crc, o) else none

/-- Where each chunk of a container starts, and where it ends: the offset of chunk `k`. -/
def chunkAt (bs : List Byte) : Nat → Nat
  | 0 => 32
  | k + 1 =>
    let a := chunkAt bs k
    a + 16 + leAt (a + 4) 4 bs

/-! ## Raw compression that stops (R442) -/

/-- A stateful compression between two code words. -/
structure Pack where
  head : List Bool                  -- the header of the current block, not emitted
  body : List Bool                  -- the rest of the block, not emitted
  mode : DeflateMode                -- how `body` is read
  final : Bool
  pos : Nat                         -- position of the next bit in its byte
  hist : List Byte                  -- the last input bytes taken, newest first
  held : List Bool                  -- bits of the partial byte
  deriving DecidableEq, Repr

def Pack.init : Pack := ⟨[], [], .header, false, 0, [], []⟩

/-- How many of these code words fit in `room` bits: their number and their bits. -/
def wordsThatFit : List Nat → Nat → Nat × Nat
  | [], _ => (0, 0)
  | w :: t, room => if w ≤ room then let (k, n) := wordsThatFit t (room - w); (k + 1, n + w) else (0, 0)

/-- What a stateful compression has done. -/
structure PackRun where
  stop : JobEnd
  st : Pack
  taken : Nat                       -- input bytes taken into the encoder
  bits : List Bool                  -- bits put out, the held ones included
  blocks : Nat
  deriving DecidableEq, Repr

/-- Emit the current block and those after it (R442). `room` is LIMIT in bits. -/
def packGo (level room : Nat) : Nat → PackRun → List Byte → PackRun
  | 0, r, _ => r
  | n + 1, r, rest =>
    let p := r.st
    if p.head = [] ∧ p.body = [] then
      if p.final ∨ rest.isEmpty then { r with stop := .ok }
      else
        let (k, bits) := nextBlock level p.hist rest p.pos
        match readToken .header p.pos bits with
        | .ok (.block final m) body =>
          let p := { p with head := bits.take (bits.length - body.length), body := body, mode := m, final := final, hist := pushHist p.hist (rest.take k) }
          packGo level room n { r with st := p, taken := r.taken + k, blocks := r.blocks + 1 } (rest.drop k)
        | _ => { r with stop := .data }
    else if p.head ≠ [] then
      if room < r.bits.length + p.head.length then { r with stop := .outFull }
      else packGo level room n { r with bits := r.bits ++ p.head, st := { p with head := [], pos := (p.pos + p.head.length) % 8 } } rest
    else
      let (k, b) := wordsThatFit (codeWords (p.body.length + 1) p.mode p.pos p.body) (room - r.bits.length)
      let p' := { p with body := p.body.drop b, pos := (p.pos + b) % 8, mode := match p.mode with
        | .stored j => .stored (j - k)
        | m => m }
      let r := { r with bits := r.bits ++ p.body.take b, st := p' }
      if p'.body = [] then packGo level room n r rest else { r with stop := .outFull }

/-- Compress `inp` from where `p` stands. -/
def packRaw (level limit : Nat) (p : Pack) (inp : List Byte) : PackRun :=
  packGo level (8 * limit) (3 * inp.length + 6) ⟨.ok, p, 0, p.held, 0⟩ inp

/-! ## The job state (R441) -/

/-- Bytes combined with the device's own. (DESIGN CHOICE, log entry 12.) -/
def maskPriv (base : Nat) (bs : List Byte) : List Byte := bs.zipIdx.map (fun e => e.1 ^^^ Config.privByte (base + e.2))

/-- A mode in 323 bytes. -/
def modeBytes : DeflateMode → List Byte
  | .header => padTo 323 [0]
  | .stored n => padTo 323 (1 :: leBytes 2 n)
  | .coded ll dl => padTo 323 ([2, 0, 0] ++ padTo 288 (ll.map (BitVec.ofNat 8)) ++ padTo 32 (dl.map (BitVec.ofNat 8)))
  | .ended => padTo 323 [3]

/-- The mode that 323 bytes spell. -/
def modeOfBytes (bs : List Byte) : DeflateMode :=
  match leAt 0 1 bs with
  | 0 => .header
  | 1 => .stored (leAt 1 2 bs)
  | 2 => .coded ((slice 3 288 bs).map (·.toNat)) ((slice 291 32 bs).map (·.toNat))
  | _ => .ended

/-- Bits with their number, in `n` + 2 bytes. -/
def bitsField (n : Nat) (bits : List Bool) : List Byte := leBytes 2 bits.length ++ padTo n (packBits bits)
/-- The bits that such a field holds. -/
def fieldBits (n : Nat) (bs : List Byte) : List Bool := (bytesBits (slice 2 n bs)).take (leAt 0 2 bs)

/-- The defined fields of a job state at 0x0000 to 0x0037 (R441). -/
structure JobHead where
  op : Nat
  arg0 : Nat
  reason : Nat
  held : List Bool
  inDone : Bool
  totalIn : Nat
  totalOut : Nat
  jobLen : Nat
  copyLen : Nat
  copyDist : Nat
  chunk : Nat
  chunkOut : Nat
  syms : Nat
  serial : Nat
  deriving DecidableEq, Repr

/-- The 102,400 bytes of a job state (R441). -/
def jobImage (h : JobHead) (priv window symbuf : List Byte) : List Byte :=
  let pub := [0x54, 0x48, 0x53, 0x54, BitVec.ofNat 8 h.op, 0] ++ leBytes 2 1 ++ leBytes 4 h.arg0
    ++ [BitVec.ofNat 8 h.reason, BitVec.ofNat 8 h.held.length, BitVec.ofNat 8 (bitsNat h.held), BitVec.ofNat 8 (b2n h.inDone)]
    ++ leBytes 8 h.totalIn ++ leBytes 8 h.totalOut ++ leBytes 4 h.jobLen ++ leBytes 2 h.copyLen ++ leBytes 2 h.copyDist
    ++ leBytes 4 h.chunk ++ leBytes 4 h.chunkOut ++ leBytes 4 h.syms ++ leBytes 4 h.serial
  let page := pub ++ maskPriv 0x38 (padTo 0xFC4 priv)
  page ++ leBytes 4 (crc32c page) ++ window ++ maskPriv 0x9000 (padTo 65536 symbuf)

/-- WINDOW of a history held newest first: the newest byte last. -/
def windowOf (hist : List Byte) : List Byte := (padTo 32768 hist).reverse

/-- The history that WINDOW holds after `total` bytes. -/
def histOf (total : Nat) (window : List Byte) : List Byte := window.reverse.take total

/-- The device-private area of an image. -/
def privOf (img : List Byte) : List Byte := maskPriv 0x38 (slice 0x38 0xFC4 img)

/-- The held bits that PBITS and PBYTE name. -/
def heldOf (img : List Byte) : List Bool := (byteBits ((slice 0xE 1 img).getD 0 0)).take (leAt 0xD 1 img)

/-- Whether a job state may be resumed by a descriptor with this opcode, ARG0 and LENGTH (R444). -/
def stateOk (img : List Byte) (op arg0 len serial : Nat) : Bool :=
  img.take 4 == [0x54, 0x48, 0x53, 0x54] && leAt 6 2 img == 1 && leAt 0xFFC 4 img == crc32c (img.take 0xFFC)
    && leAt 4 1 img == op && leAt 8 4 img == arg0 && leAt 0x34 4 img == serial
    && (op != 0x10 || (if leAt 0xF 1 img % 2 == 1 then len == 1 else len + leAt 0x10 8 img == leAt 0x20 4 img))

/-- The saved state of a decompression job. (DESIGN CHOICE, log entry 12.) -/
def unpackImage (arg0 serial totalIn totalOut : Nat) (reason : Nat) (u : Unpack) : List Byte :=
  let priv := modeBytes u.inf.mode ++ [BitVec.ofNat 8 (b2n u.inf.final), BitVec.ofNat 8 (u.inf.pos % 8)]
    ++ leBytes 1 u.hdr.length ++ padTo 32 u.hdr ++ leBytes 1 u.chk.length ++ padTo 16 u.chk ++ leBytes 4 u.comp ++ leBytes 4 u.crc
  jobImage ⟨0x11, arg0, reason, u.held, false, totalIn, totalOut, 0, u.inf.copyLen, u.inf.copyDist, u.k,
    if arg0 % 4 = 1 then u.inf.made else 0, 0, serial⟩ priv (windowOf u.inf.hist) []

/-- The decompression job that an image holds. -/
def unpackOfImage (img : List Byte) : Unpack :=
  let p := privOf img
  let cont := leAt 8 4 img % 4 = 1
  let made := if cont then leAt 0x2C 4 img else leAt 0x18 8 img
  { hdr := slice 326 (leAt 325 1 p) p
    chk := slice 359 (leAt 358 1 p) p
    k := leAt 0x28 4 img
    comp := leAt 375 4 p
    crc := leAt 379 4 p
    inf := ⟨modeOfBytes (p.take 323), leAt 323 1 p == 1, false, leAt 324 1 p, histOf (leAt 0x18 8 img) (slice 0x1000 32768 img), made,
      leAt 0x24 2 img, leAt 0x26 2 img, 0⟩
    held := heldOf img }

/-- The saved state of a compression job. (DESIGN CHOICE, log entry 12.) -/
def packImage (arg0 serial totalIn totalOut jobLen : Nat) (inDone : Bool) (held : List Bool) (p : Pack) : List Byte :=
  let priv := modeBytes p.mode ++ [BitVec.ofNat 8 (b2n p.final), BitVec.ofNat 8 p.pos] ++ bitsField 320 p.head ++ leBytes 4 p.body.length
  jobImage ⟨0x10, arg0, 1, held, inDone, totalIn, totalOut, jobLen, 0, 0, 0, 0,
    (codeWords (p.body.length + 1) p.mode p.pos p.body).length - 1, serial⟩ priv (windowOf p.hist) (packBits p.body)

/-- The compression job that an image holds. -/
def packOfImage (img : List Byte) : Pack :=
  let p := privOf img
  { head := fieldBits 320 (p.drop 325)
    body := (bytesBits (maskPriv 0x9000 (slice 0x9000 65536 img))).take (leAt 647 4 p)
    mode := modeOfBytes (p.take 323)
    final := leAt 323 1 p == 1
    pos := leAt 324 1 p
    hist := histOf (leAt 0x10 8 img) (slice 0x1000 32768 img)
    held := heldOf img }

/-! ## Host codec jobs (R437 to R444) -/

/-- How a host job ends: completion values, the bytes written to HADDR2, the state to write, the operations it took, and the chunk
or input offset that its event carries (R450). -/
structure JobResult where
  status : Nat
  cont : Bool
  r0 : Nat
  r1 : Nat
  out : List Byte
  state : Option (List Byte)
  ops : Nat
  info : Nat
  deriving DecidableEq, Repr

/-- A job that ends with status `st` and no counts. -/
def JobResult.fail (st ops info : Nat) : JobResult := ⟨st, false, 0, 0, [], none, ops, info⟩

/-- A compression job (R434, R437, R440, R442). (DEDUCED, log entry 104.) -/
def compJob (arg0 len limit serial : Nat) (stateful resume : Bool) (img data : List Byte) : JobResult :=
  let level := arg0 / 16 % 16
  if resume && !stateOk img 0x10 arg0 len serial then JobResult.fail 0x42 1 0
  else if arg0 % 4 = 1 then
    let c := packContainer level (arg0 / 256 % 32) data
    ⟨0, false, len, c.length, c, none, ceilDiv len (2 ^ (arg0 / 256 % 32)), 0⟩
  else if !stateful then
    let bs := deflateBlocks level (data.length + 1) [] data 0
    let c := packBits (bs.flatMap (·.2))
    if limit < c.length then JobResult.fail 0x43 bs.length 0 else ⟨0, false, len, c.length, c, none, bs.length, 0⟩
  else
    let done := resume && leAt 0xF 1 img % 2 == 1
    let r := packRaw level limit (if resume then packOfImage img else Pack.init) (if done then [] else data)
    let n := r.bits.length
    let totalIn := (if resume then leAt 0x10 8 img else 0) + r.taken
    let totalOut := (if resume then leAt 0x18 8 img else 0) + n / 8
    if r.stop = .ok then ⟨0, false, r.taken, ceilDiv n 8, packBits r.bits, none, max 1 r.blocks, 0⟩
    else
      let jobLen := if resume then leAt 0x20 4 img else len
      ⟨1, true, r.taken, n / 8, packBits (r.bits.take (8 * (n / 8))),
        some (packImage arg0 serial totalIn totalOut jobLen (totalIn == jobLen) (r.bits.drop (8 * (n / 8))) r.st), max 1 r.blocks, 0⟩

/-- A decompression job (R436, R437, R440, R443). (DEDUCED, log entry 104.) -/
def decompJob (arg0 len limit serial : Nat) (stateful resume : Bool) (img data : List Byte) : JobResult :=
  if resume && !stateOk img 0x11 arg0 len serial then JobResult.fail 0x42 1 0
  else
    let u := if resume then unpackOfImage img else Unpack.init
    let isCont := arg0 % 4 == 1
    let r := if isCont then unpackContainer (if stateful then none else some limit) limit u data else unpackRaw limit u data
    let ops := max 1 (if isCont then r.st.k - u.k else r.st.inf.blocks)
    let totalIn := (if resume then leAt 0x10 8 img else 0) + r.used
    let totalOut := (if resume then leAt 0x18 8 img else 0) + r.out.length
    let stopped := fun reason => JobResult.mk 1 true r.used r.out.length r.out (some (unpackImage arg0 serial totalIn totalOut reason r.st)) ops 0
    match r.stop with
    | .ok => ⟨0, false, r.used, r.out.length, r.out, none, ops, 0⟩
    | .outFull => if stateful then stopped 1 else JobResult.fail 0x43 ops 0
    | .inputEnd => if stateful then stopped 2 else ⟨0x42, false, r.okIn, r.okOut, r.out.take r.okOut, none, ops, r.used⟩
    | .check => ⟨0x41, false, r.okIn, r.okOut, r.out.take r.okOut, none, ops, r.st.k⟩
    | .data => ⟨0x42, false, r.okIn, r.okOut, r.out.take r.okOut, none, ops, r.used⟩
    | .space => JobResult.fail 0x43 1 0

end Sys2Proof.Machine
end

