-- ==== Sys2Proof/Machine/Ingress.lean ====
section
/-! DEFINITION. Pixel ingress: the header check, writes, acceptance, marking, completeness and malformed input (R173 to R198). -/

namespace Sys2Proof.Machine

/-- KIND, VIEW and WIN of TARGET (R177). -/
def tgtKind (t : Nat) : Nat := t / 64 % 4
def tgtView (t : Nat) : Nat := t / 8 % 8
def tgtWin (t : Nat) : Nat := t / 2 % 4

/-- Whether a SPAN accepts TARGET `t` (R177). -/
def spanTarget (t : Nat) : Bool :=
  if tgtKind t = 0 then tgtView t == 0 && tgtWin t == 0 else if tgtKind t = 3 then tgtWin t == 0 else true

/-- Whether a DONE accepts TARGET `t` (R177). -/
def doneTarget (t : Nat) : Bool := if tgtKind t = 0 then tgtView t == 0 && tgtWin t == 0 else tgtKind t == 1

/-- The first buffer of the target that TARGET names; a mask names its window's pixels (R177). -/
def tgtSel (t : Nat) : Nat :=
  if tgtKind t = 0 then selBase else if tgtKind t = 3 then selLine (tgtView t) else selWindow (tgtView t) (tgtWin t)

/-- The data items of an ingress event: the port where one applies, TARGET and the frame (R205). -/
def ingItems (p : Option Nat) (t f : Nat) : List (Nat × Nat) := (p.map (fun p => (8, p))).toList ++ [(8, t), (32, f)]

/-- Raise an ingress event and count it. (DEDUCED, log entry 80.) -/
def State.ingEvent (s : State) (code cnt : Nat) (p : Option Nat) (t f : Nat) : State := (s.bump cnt 1).event code (ingItems p t f)

/-- ING_BAD_PKT (R198). -/
def State.badPkt (s : State) (p t f : Nat) : State := s.ingEvent Ev.ING_BAD_PKT Reg.VIEW_CNT_BAD (some p) t f

/-- Change port p's packet decoder. -/
def State.onDec (s : State) (p : Nat) (f : PktDecoder → PktDecoder) : State := s.onLink p (fun k => { k with dec := f k.dec })

/-- The packet decoder waits for the next valid PKT_OFF (R174, R198). -/
def State.waitPktOff (s : State) (p : Nat) : State := s.onDec p (fun d => { d with wait := true })

/-- Whether FRAME is cur or cur + 1 (R183). -/
def State.frameInRange (s : State) (f : Nat) : Bool := f == s.gen.fc || f == s.gen.fc + 1

/-- Poison buffer `i` (R186). -/
def State.poisonBuf (s : State) (i : Nat) : State := s.setBuf i { s.buf i with poisoned := true }

/-- Poison the frame `f` of the target of buffer `t` (R186). -/
def State.poison (s : State) (t f : Nat) : State :=
  match s.bufOf t f with
  | some i => s.poisonBuf i
  | none => s

/-! ## The header check (R182, R183, R195, R198) -/

/-- What the checks on FRAME and on the target's buffers find: the buffer that the packet goes to, or why it is turned away. Window data for
a line-locked view is answered as such before its buffers are looked for. (DEDUCED, log entry 80.) -/
def State.findBuffer (s : State) (t f : Nat) : Except PktFail Nat :=
  if f < s.gen.fc then .error .stale
  else if s.gen.fc + 1 < f then .error .early
  else if tgtKind t = 3 ∧ !s.lineLock (tgtView t) then .error .lineOff
  else if (tgtKind t = 1 ∨ tgtKind t = 2) ∧ s.lineLock (tgtView t) then .error .lineLocked
  else if (s.placed (tgtSel t)).isNone ∨ (tgtKind t = 2 ∧ (s.placed (selMask (tgtView t) (tgtWin t))).isNone) then .error .noBuffer
  else
    match s.bufOf (tgtSel t) f with
    | none => .error .noBuffer
    | some i => if (s.buf i).complete then .error .afterDone else .ok i

/-- Bytes of a SPAN row: masks one byte a pixel, pixels 54 bits (R178). -/
def spanRowBytes (kind pix : Nat) : Nat := if kind = 2 then pix else ceilDiv (54 * pix) 8

/-- Whether a SPAN's rows are out of range for the buffer at `sel` (R178, R209). Before a WRECT nothing bounds a window's rows by MAXH: those
past it are written past the buffer's last row. (DESIGN CHOICE, log entry 138.) -/
def State.badSpan (s : State) (t sel y0 n pix : Nat) : Bool :=
  if tgtKind t = 1 ∨ tgtKind t = 2 then
    let maxw := match s.placed sel with
      | some q => q.w
      | none => 0
    decide (pix = 0 ∨ 4096 < pix ∨ 1536 < y0 + n ∨ maxw < pix)
  else decide (pix ≠ s.width ∨ s.height < y0 + n)

/-- Whether a WRECT's fields are out of range for window (v, w) (R180, R183, R209). -/
def State.badRect (s : State) (v w : Nat) (r : WRect) : Bool :=
  let a := s.walloc v w
  decide (r.w = 0 ∨ s.width < r.x0 + r.w ∨ r.h = 0 ∨ s.height < r.y0 + r.h ∨ 64 < r.feather ∨ 1 < r.fsrc
    ∨ 64 < r.extL ∨ 64 < r.extR ∨ 64 < r.extT ∨ 64 < r.extB
    ∨ fieldOf F.FST_WALLOC_MAXW a < r.w ∨ fieldOf F.FST_WALLOC_MAXH a < r.h)
    || (r.fsrc == 1 && (s.placed (selMask v w)).isNone)

/-- Whether a packet of the kind that `k` says takes TARGET `t` (R177). -/
def pktTargetOk (k : PktWhat) (t : Nat) : Bool :=
  match k with
  | .span _ _ _ => spanTarget t
  | .wrect _ => tgtKind t == 1
  | _ => doneTarget t

/-- Whether LEN is what R178, R180 or R181 requires; it is not where NROWS is 0. (DESIGN CHOICE, log entry 138.) -/
def pktLenOk (k : PktWhat) (t len : Nat) : Bool :=
  match k with
  | .span _ n pix => len == 8 + n * spanRowBytes (tgtKind t) pix && n != 0
  | .wrect _ => len == 16
  | _ => len == 0

/-- Whether a field of the packet's body is out of range for buffer `i` (R178, R180). -/
def State.badBody (s : State) (k : PktWhat) (t i : Nat) : Bool :=
  match k with
  | .span y0 n pix => s.badSpan t i y0 n pix
  | .wrect r => s.badRect (tgtView t) (tgtWin t) r
  | _ => false

/-- The header check of a packet whose PTYPE is known, in the order of R182: the buffer that it goes to, or why it is turned away. -/
def State.headerCheck (s : State) (k : PktWhat) (t len f : Nat) : Except PktFail Nat :=
  if !pktTargetOk k t then .error .badTarget
  else if !pktLenOk k t len then .error .badLen
  else
    match s.findBuffer t f with
    | .error e => .error e
    | .ok i => if s.badBody k t i then .error .badField else .ok i

/-- The packet that a header check leaves: one that passes has named its frame (R184). -/
def State.checkPacket (s : State) (k : PktWhat) (t len f : Nat) : Packet × State :=
  match s.headerCheck k t len f with
  | .error e => (⟨t, f, .fail e, .freed⟩, s)
  | .ok i => (⟨t, f, k, .live i⟩, s.setBuf i { s.buf i with named := true })

/-- What turning a packet away does at its acceptance (R183, R187, R195, R198). -/
def State.rejectPacket (s : State) (p t f : Nat) (e : PktFail) : State :=
  match e with
  | .badType => s.badPkt p t f
  | .badTarget => s.badPkt p t f
  | .badLen => (if s.frameInRange f then s.poison (tgtSel t) f else s).badPkt p t f
  | .stale => s.ingEvent Ev.ING_STALE Reg.VIEW_CNT_STALE (some p) t f
  | .early => s.ingEvent Ev.ING_EARLY Reg.VIEW_CNT_EARLY (some p) t f
  | .lineOff => s.badPkt p t f
  | .lineLocked => s.ingEvent Ev.ING_LL_DISCARD Reg.VIEW_CNT_LL_DISCARD (some p) t f
  | .noBuffer => s.ingEvent Ev.ING_NO_BUFFER Reg.VIEW_CNT_NO_BUFFER (some p) t f
  | .afterDone => s.ingEvent Ev.ING_AFTER_DONE Reg.VIEW_CNT_AFTER_DONE (some p) t f
  | .badField => (s.poison (tgtSel t) f).badPkt p t f

/-! ## Rows (R352, R353) -/

/-- SCN_CFG.ORDER. -/
def State.scanOrder (s : State) : Nat := s.getF Reg.SCN_CFG F.SCN_CFG_ORDER

/-- Whether rows rise with the scan position in half h. -/
def scanDown (order h : Nat) : Bool := if h = 0 then order != 1 else order != 2

/-- The row at scan position r of half h; none at a blank position (R352, R353). -/
def State.rowAt (s : State) (h r : Nat) : Option Nat :=
  let y := if h = 0 then (if scanDown s.scanOrder 0 then r else 767 - r) else if scanDown s.scanOrder 1 then 768 + r else 1535 - r
  if y < s.height ∧ r < 768 then some y else none

/-- The half of a row. -/
def halfOf (y : Nat) : Nat := if y < 768 then 0 else 1

/-- The place of row y in scan order: twice its position, plus its half. -/
def State.placeOf (s : State) (y : Nat) : Nat :=
  let h := halfOf y
  let o := y - 768 * h
  2 * (if scanDown s.scanOrder h then o else 767 - o) + h

/-- Whether row y is the first that half h reaches of a block row of a target whose `n` rows start at row `top`. -/
def State.firstOfBlock (s : State) (h y top n : Nat) : Bool :=
  let i := y - top
  if scanDown s.scanOrder h then i % 4 == 0 || y == 768 * h
  else i % 4 == 3 || i + 1 == n || y + 1 == 768 * (h + 1)

/-- How far above and below it the rows lie that a row depends on: the kernel, and light moved vertically (R23, R280, R284).
(DEDUCED, log entry 84.) -/
def State.rowReach (s : State) : Nat :=
  b2n (s.flag Reg.DMU_PANEL F.DMU_PANEL_KEN) + b2n (s.flag Reg.DMU_DEF F.DMU_DEF_DEN)

/-! ## Line-locked rows (R22, R23, R195) -/

/-- When the drive codes of row y start on the Batten lanes in the slot of view v in frame f, the frame in force or the next one; none where the
view has no slot in it (R195). -/
def State.lineDue (s : State) (v f y : Nat) : Option Nat :=
  let r := s.placeOf y / 2
  if f = s.gen.fc then ((List.range s.nSlot).find? (fun k => s.slotView k == v)).map (fun k => s.gen.bnd + s.slotDelta k + r * s.rowT)
  else
    let n := s.nextFrameOf
    if f = n.fc then (n.table.slots.find? (fun e => e.1 == v)).map (fun e => n.ref + n.table.boff + n.delay + e.2 + r * s.upcoming.rowT) else none

/-- Whether row y of the line-locked frame f of view v, in buffer `i`, is in time: the rows it depends on were received no later than 142 PCLK
before its drive codes start (R195). (DEDUCED, log entry 84.) -/
def State.lineReady (s : State) (v f i y : Nat) : Bool :=
  match s.lineDue v f y with
  | some t =>
    (List.range (2 * s.rowReach + 1)).all (fun k =>
      let z := y + k - s.rowReach
      decide (y + k < s.rowReach) || decide (s.height ≤ z) || (s.buf i).direct.any (fun e => e.1 == z && decide (e.2.2 + 142 ≤ t)))
  | none => false

/-- Whether every row of the line-locked frame in buffer `i` is in time, and all its hold rows are in the frame store (R195, R224). -/
def State.lineWhole (s : State) (i : Nat) : Bool :=
  let f := (s.buf i).frame.getD 0
  decide (s.height ≤ (s.buf i).direct.length)
    && (List.range s.height).all (fun y => s.rowHeld i f y && s.lineReady (selView i) f i y)

/-! ## Completeness (R186) -/

/-- Whether rows 0 to n - 1 are all marked. -/
def allMarked (m n : Nat) : Bool := m % 2 ^ n == 2 ^ n - 1

/-- Whether the frame in buffer `i` meets every condition; that of a line-locked image is looked at when a packet of it is accepted, and at the end
of its slot. (DEDUCED, log entry 85.) -/
def State.meetsAll (s : State) (i : Nat) : Bool :=
  let b := s.buf i
  if b.poisoned || b.complete then false
  else if selClass i = 0 then b.done && allMarked b.rows s.height
  else if selClass i = 1 then
    match b.rect with
    | some r => b.done && allMarked b.rows r.h && (r.fsrc != 1 || allMarked b.masks r.h)
    | none => false
  else s.lineWhole i

/-- VIEW_BLAST or VIEW_WLAST: the newest complete frame of the target (R203). -/
def State.showNewest (s : State) (i f : Nat) : State :=
  if (three (i / 16 * 16)).any (fun j => (s.buf j).complete && !(s.buf j).hold && decide (f < (s.buf j).frame.getD 0)) then s
  else if selClass i = 0 then s.setReg Reg.VIEW_BLAST (word f)
  else if selClass i = 1 then s.setReg (Reg.VIEW_WLAST (selView i) (selWin i)) (word f) else s

/-- The frame in buffer `i` becomes complete (R186, R187, R190, R203, R226). -/
def State.completeFrame (s : State) (p : Option Nat) (i : Nat) : State :=
  let b := s.buf i
  let f := b.frame.getD 0
  let s := ((s.setBuf i { b with complete := true, doneAt := s.gen.vt }).remark (fun j => j == i) .complete).completeWakes i f
  let s := s.showNewest i f
  let s := if b.missed then
      let s := if selClass i = 0 then s.bump Reg.VIEW_CNT_BLATE 1 else s.bump (Reg.VIEW_CNT_LATE (selView i)) 1
      s.event Ev.ING_LATE (ingItems p (targetByte i) f)
    else s
  s.reportFrameLoss i (targetByte i) f

/-- Complete the frame in buffer `i` if it now meets every condition. -/
def State.checkComplete (s : State) (p i : Nat) : State := if s.meetsAll i then s.completeFrame (some p) i else s

/-! ## Writes (R179, R182, R195) -/

/-- The samples of a pixel row (R179). -/
def unpackRow (pix : Nat) (bytes : List Byte) : List Nat := samplesOf false (3 * pix) bytes

/-- A line-locked row that is received goes to the row buffer, with the time; one received again keeps the first (R22, R159, R195). -/
def State.putDirect (s : State) (i y : Nat) (row : List Nat) : State :=
  let d := (s.buf i).direct
  let t := ((d.find? (fun e => e.1 == y)).map (fun e => e.2.2)).getD s.gen.vt
  s.setBuf i { s.buf i with direct := ainsert (aerase d y) y (row, t) }

/-- The pixels of a SPAN's row that its first `n` bytes hold whole (R178, R179). -/
def spanPixels (kind pix n : Nat) : Nat := if kind = 2 then min pix n else min pix (8 * n / 54)

/-- Write the pixels of a SPAN's row from pixel `x0` on, as far as its bytes so far hold them, into the frame in buffer `i`; a line-locked row is
present in its block row once it is received (R182, R195, R224). -/
def State.writeSpanRow (s : State) (t i f y pix x0 : Nat) (bytes : List Byte) : State :=
  let kind := tgtKind t
  let n := spanPixels kind pix bytes.length
  if n ≤ x0 then s
  else if kind = 2 then s.writeMaskRow (selMask (tgtView t) (tgtWin t) + i % 16) y x0 ((bytes.take n).drop x0)
  else
    let row := unpackRow n bytes
    let s := if kind = 3 ∧ n = pix then s.putDirect i y row else s
    s.writeRow i f y x0 (row.drop (3 * x0)) (n == pix) (kind == 3)

/-! ## Acceptance (R182, R184 to R187) -/

/-- Row bits y0 to y0 + n - 1. -/
def rowBits (y0 n : Nat) : Nat := (2 ^ n - 1) * 2 ^ y0

/-- Whether a window SPAN may be marked: `none` before any WRECT, else whether it agrees with it (R185). -/
def spanFits (b : FrameBuf) (y0 n pix : Nat) : Option Bool :=
  b.rect.map (fun r => r.w == pix && decide (y0 + n ≤ r.h))

/-- Mark the rows of a SPAN (R185). -/
def State.markSpan (s : State) (t i f y0 n : Nat) : State :=
  if tgtKind t = 2 then s.setBuf i { s.buf i with masks := (s.buf i).masks ||| rowBits y0 n }
  else (List.range n).foldl (fun s k => s.markRow i f (y0 + k)) s

/-- A SPAN is accepted (R185, R198). -/
def State.acceptSpan (s : State) (p t i f y0 n pix : Nat) : State :=
  match (if tgtKind t = 1 ∨ tgtKind t = 2 then spanFits (s.buf i) y0 n pix else some true) with
  | none => s.ingEvent Ev.ING_NO_RECT Reg.VIEW_CNT_NO_RECT (some p) t f
  | some false => (s.poisonBuf i).badPkt p t f
  | some true => (s.markSpan t i f y0 n).checkComplete p i

/-- A WRECT is accepted: with another W or H no row is marked any more (R185). -/
def State.acceptRect (s : State) (p i : Nat) (r : WRect) : State :=
  let o := s.buf i
  let same := match o.rect with
    | some q => q.w == r.w && q.h == r.h
    | none => false
  if same then (s.setBuf i { o with rect := some r }).checkComplete p i
  else
    let s := s.setBuf i { o with rect := some r, rows := 0, masks := 0 }
    (s.onFst (fun g => { g with asm := g.asm.map (fun a => if a.sel = i then { a with present := 0 } else a) })).checkComplete p i

/-- A packet is accepted (R182 to R187): by then its buffer may be another frame's, or its frame complete. -/
def State.acceptPacket (s : State) (p : Nat) (k : Packet) : State :=
  let t := k.target
  let f := k.frame
  match k.what with
  | .fail e => s.rejectPacket p t f e
  | w =>
    match k.hold with
    | .rotated => s.rejectPacket p t f (if f < s.gen.fc then .stale else if s.gen.fc + 1 < f then .early else .noBuffer)
    | .freed => s.rejectPacket p t f .noBuffer
    | .complete => s.rejectPacket p t f .afterDone
    | .live i =>
      if (tgtKind t = 1 ∨ tgtKind t = 2) ∧ s.lineLock (tgtView t) then s.rejectPacket p t f .lineLocked
      else
        let s := s.packetFor i
        match w with
        | .span y0 n pix => s.acceptSpan p t i f y0 n pix
        | .wrect r => s.acceptRect p i r
        | _ => (s.setBuf i { s.buf i with done := true }).checkComplete p i

/-! ## Packets that come as commands (R174, R178, R180, R181) -/

/-- A packet that comes whole and is accepted at once: its header check, the rows that it writes, its acceptance. (DESIGN CHOICE, log
entry 62.) -/
def State.takeWhole (s : State) (p : Nat) (h : PktHeader) (w : PktWhat) (write : Nat → State → State) : State :=
  let t := h.target.toNat
  let f := h.frame.toNat
  if (s.link p).dec.wait then s
  else if h.badType then (s.rejectPacket p t f .badType).waitPktOff p
  else
    let (k, s) := s.checkPacket w t h.len.toNat f
    let s := match k.hold with
      | .live i => write i s
      | _ => s
    (s.acceptPacket p k).onDec p (fun d => if k.what = .fail .badLen then { d with wait := true } else d)

/-- Write the rows of a SPAN. -/
def State.writeSpan (s : State) (t i f y0 n pix : Nat) (data : List Byte) : State :=
  let rb := spanRowBytes (tgtKind t) pix
  (List.range n).foldl (fun s k => s.writeSpanRow t i f (y0 + k) pix 0 (slice (k * rb) rb data)) s

/-- SPAN (R178, R185, R198). -/
def execSpan (p : Fin 4) (h : PktHeader) (y0 nrows rowPix : BitVec 16) (data : List Byte) (s : State) : Res :=
  .next (s.takeWhole p h (.span y0.toNat nrows.toNat rowPix.toNat)
    (fun i s => s.writeSpan h.target.toNat i h.frame.toNat y0.toNat nrows.toNat rowPix.toNat data))

/-- The record of a WRECT. -/
def wrectOf (b : WrectBody) : WRect :=
  ⟨b.x0.toNat, b.y0.toNat, b.w.toNat, b.h.toNat, b.feather.toNat, b.fsrc.toNat, b.extL.toNat, b.extR.toNat, b.extT.toNat, b.extB.toNat⟩

/-- WRECT (R180, R185). -/
def execWrect (p : Fin 4) (h : PktHeader) (b : WrectBody) (s : State) : Res :=
  .next (s.takeWhole p h (.wrect (wrectOf b)) (fun _ s => s))

/-- DONE (R181, R186). -/
def execDone (p : Fin 4) (h : PktHeader) (s : State) : Res := .next (s.takeWhole p h .done (fun _ s => s))

/-- PAD (R174). -/
def execPad (p : Fin 4) (s : State) : Res := .next (s.waitPktOff p)

/-! ## Buffers at a frame boundary (R184) -/

/-- The buffers of target `t` when cur becomes cur + 1; `s.gen.fc` is already the new cur. The old frame cur, once complete, is the newer
of it and L. -/
def State.rotate (s : State) (t : Nat) : State :=
  if (s.placed t).isNone then s
  else
    let old := s.gen.fc - 1
    let s := match s.bufOf t old with
      | none => s
      | some i =>
        if (s.buf i).complete then
          let s := s.freeBuffers t (fun j => !(s.buf j).hold) .rotated
          s.setBuf i { s.buf i with hold := true }
        else
          let s := if (s.buf i).named then s.ingEvent Ev.ING_ABANDON Reg.VIEW_CNT_ABANDON none (targetByte t) old else s
          s.freeBuffers t (fun j => j != i) .rotated
    s.assignFrames t

/-- Every target's buffers at a frame boundary. -/
def State.rotateAll (s : State) : State := (targetSels.foldl (fun s t => s.rotate t) s).syncMap

end Sys2Proof.Machine
end

