-- ==== Sys2Proof/Machine/Magazine.lean ====
section
/-! DEFINITION. Magazine ports, the plate volume and the plate descriptors (R401 to R428). The engines that pack and unpack chunks stand in
Thatch.lean. -/

namespace Sys2Proof.Machine

/-- N_u (R404). (DEDUCED, log entry 102.) -/
def State.usable (s : State) (p : Nat) : Nat := s.pair64 (Reg.MAG_NSZE_LO p) (Reg.MAG_NSZE_HI p)

/-! ## The command queue (R403, R424) -/

/-- The order of preference of a command: staging reads, writes of the device's own, PLATE_READ reads; 3 for the admin queue. -/
def MagUse.rank : MagUse → Nat
  | .stageIndex _ | .stagePage _ _ | .dropped => 0
  | .readIndex _ _ | .readPage _ _ _ => 2
  | .identify _ | .smart | .feature => 3
  | .unmount n => if n = 0 then 1 else 3
  | _ => 1

/-- The next command to send: admin commands while their queue of depth 16 has room; then by preference while the submission queue has room, at
most 192 staging reads in it (R403, R424). -/
def MagPort.toSend (m : MagPort) : Option MagCmd :=
  let waits := fun (r : Nat) => m.cmds.find? (fun c => !c.sent && c.use.rank == r)
  let out := (m.cmds.filter (fun c => c.sent && c.use.rank != 3)).length
  let admin := (m.cmds.filter (fun c => c.sent && c.use.rank == 3)).length
  let staging := (m.cmds.filter (fun c => c.sent && c.use.rank == 0)).length
  match (if admin < 16 then waits 3 else none) with
  | some c => some c
  | none =>
    if m.depth ≤ out then none
    else
      match (if staging < 192 then waits 0 else none) with
      | some c => some c
      | none => match waits 1 with
        | some c => some c
        | none => waits 2

/-- MAG_QSTAT.OUT: I/O commands outstanding. -/
def State.syncQstat (s : State) (p : Nat) : State :=
  s.setF (Reg.MAG_QSTAT p) F.MAG_QSTAT_OUT ((s.port p).cmds.filter (fun c => c.sent && c.use.rank != 3)).length

/-- Send what may be sent. -/
def State.magPump (p : Nat) : Nat → State → State
  | 0, s => s.syncQstat p
  | n + 1, s =>
    match (s.port p).toSend with
    | some c =>
      let s := s.onPort p (fun m => { m with cmds := m.cmds.map (fun d => if d.tag = c.tag then { d with sent := true } else d) })
      State.magPump p n (s.emit (.nvme p c.tag c.cmd))
    | none => s.syncQstat p

/-- Issue one command. -/
def State.magIssue (s : State) (p : Nat) (use : MagUse) (cmd : NvmeCmd) : State :=
  s.onPort p (fun m => { m with cmds := m.cmds ++ [⟨m.nextTag, use, cmd, false⟩], nextTag := (m.nextTag + 1) % 65536 })

/-- Issue several commands and send what may be sent. -/
def State.magIssues (s : State) (p : Nat) (l : List (MagUse × NvmeCmd)) : State :=
  let s := l.foldl (fun s e => s.magIssue p e.1 e.2) s
  State.magPump p (s.port p).cmds.length s

/-- Whether a command of this use is outstanding. -/
def State.magBusy (s : State) (p : Nat) (use : MagUse) : Bool := (s.port p).cmds.any (fun c => c.use == use)

/-- Cut `n` pages from `lba` into pieces of at most `most` pages. -/
def cutPages (most : Nat) : Nat → Nat → Nat → List (Nat × Nat)
  | 0, _, _ => []
  | k + 1, lba, n => if n = 0 then [] else (lba, min most n) :: cutPages most k (lba + max 1 most) (n - max 1 most)

/-- Commands that write `bytes`, whole pages, from `lba` on. -/
def writesOf (use : MagUse) (most lba : Nat) (bytes : List Byte) : List (MagUse × NvmeCmd) :=
  (cutPages most (bytes.length / 4096 + 1) lba (bytes.length / 4096)).map (fun e =>
    (use, .write e.1 (slice (4096 * (e.1 - lba)) (4096 * e.2) bytes)))

/-! ## The directory (R407 to R411) -/

/-- The first cluster past the data clusters. -/
def State.lastCluster (s : State) (p : Nat) : Nat := s.usable p / 256

/-- Entry e of a directory. -/
def dirEntry (dir : Mem) (e : Nat) : List Byte := aread (fun _ => 0) dir (256 * e) 256
/-- Entry e of port p's directory in force. -/
def State.entry (s : State) (p e : Nat) : List Byte := dirEntry (s.port p).dir e

/-- Fields of an entry (R409). -/
def entState (b : List Byte) : Nat := leAt 0 1 b
def entKind (b : List Byte) : Nat := leAt 1 1 b
def entLevel (b : List Byte) : Nat := leAt 2 1 b
def entNext (b : List Byte) : Nat := leAt 3 1 b
def entW (b : List Byte) : Nat := leAt 0x10 2 b
def entH (b : List Byte) : Nat := leAt 0x12 2 b
def entFrames (b : List Byte) : Nat := leAt 0x20 4 b
def entFramesMax (b : List Byte) : Nat := leAt 0x24 4 b
def entIndexPages (b : List Byte) : Nat := leAt 0x28 4 b
def entUsed (b : List Byte) : Nat := leAt 0x30 8 b
/-- Bytes of a row and of a frame in the row format of APPEND. -/
def entRowBytes (b : List Byte) : Nat := ceilDiv (54 * entW b) 8
def entFrameBytes (b : List Byte) : Nat := entH b * entRowBytes b

/-- The extents in use: first LBA and LBAs. -/
def entExtents (b : List Byte) : List (Nat × Nat) :=
  (List.range (min 12 (entNext b))).map (fun x => (leAt (0x40 + 16 * x) 8 b, leAt (0x48 + 16 * x) 8 b))

/-- The pages of a plate's space. -/
def entSpace (b : List Byte) : Nat := (entExtents b).foldl (fun n x => n + x.2) 0

/-- The LBA of plate page `n` (R410). -/
def lbaIn : List (Nat × Nat) → Nat → Option Nat
  | [], _ => none
  | (a, k) :: t, n => if n < k then some (a + n) else lbaIn t (n - k)

/-- The entries of port p that are not FREE. -/
def usedEntries (dir : Mem) : List Nat := (List.range 4096).filter (fun e => entState (dirEntry dir e) != 0)

/-- Two extents overlap. -/
def overlap (x y : Nat × Nat) : Bool := decide (x.1 < y.1 + y.2) && decide (y.1 < x.1 + x.2)

/-- Whether entry e of a directory is bad (R411); of a FREE entry, only what is reserved in any entry is. (DEDUCED, log entry 97.) -/
def entryBad (dir : Mem) (clusters e : Nat) : Bool :=
  let b := dirEntry dir e
  let xs := entExtents b
  if entState b = 0 then decide (1 < entKind b) || decide (12 < entNext b)
  else
    decide (2 < entState b) || decide (1 < entKind b) || entNext b == 0 || decide (12 < entNext b)
      || xs.any (fun x => decide (x.1 < 1024) || decide (256 * clusters < x.1 + x.2) || x.1 % 256 != 0 || x.2 % 256 != 0)
      || xs.zipIdx.any (fun x => xs.zipIdx.any (fun y => x.2 != y.2 && overlap x.1 y.1))
      || (usedEntries dir).any (fun g => g != e && (entExtents (dirEntry dir g)).any (fun y => xs.any (fun x => overlap x y)))
      || decide (entSpace b < entUsed b)

/-- Put a pair in its place by first component. -/
def putSorted (x : Nat × Nat) : List (Nat × Nat) → List (Nat × Nat)
  | [] => [x]
  | y :: t => if x.1 ≤ y.1 then x :: y :: t else y :: putSorted x t

/-- What is free from `lo` to `hi` beside sorted intervals: first and number. -/
def gaps (hi : Nat) : Nat → List (Nat × Nat) → List (Nat × Nat)
  | lo, [] => if lo < hi then [(lo, hi - lo)] else []
  | lo, (a, n) :: t => (if lo < min a hi then [(lo, min a hi - lo)] else []) ++ gaps hi (max lo (a + n)) t

/-- The free runs of clusters beside the extents of a directory and of the entries `more` (R411). -/
def freeRuns (dir : Mem) (clusters : Nat) (more : List (List Byte)) : List (Nat × Nat) :=
  let xs := ((usedEntries dir).map (dirEntry dir) ++ more).flatMap entExtents
  gaps clusters 4 (xs.foldl (fun l x => putSorted (x.1 / 256, ceilDiv (x.1 % 256 + x.2) 256) l) [])

/-- Take `n` clusters from the lowest runs (R415). -/
def takeRuns : Nat → List (Nat × Nat) → List (Nat × Nat)
  | _, [] => []
  | n, (a, k) :: t => if n = 0 then [] else (a, min k n) :: takeRuns (n - min k n) t

/-- The clusters of the largest 12 runs. (DEDUCED, log entry 98.) -/
def largest12 (l : List (Nat × Nat)) : Nat :=
  (((l.map (fun r => (r.2, 0))).foldl (fun l x => putSorted x l) []).reverse.take 12).foldl (fun n r => n + r.1) 0

/-- MAG_FREE, PLATES, GEN and VOL_ID follow the volume. -/
def State.syncVolume (s : State) (p : Nat) (vol : Nat) : State :=
  let m := s.port p
  let s := s.setF (Reg.MAG_FREE p) F.MAG_FREE_N ((freeRuns m.dir (s.lastCluster p) []).foldl (fun n r => n + r.2) 0)
  let s := s.setF (Reg.MAG_PSTAT p) F.MAG_PSTAT_PLATES (min 4095 (usedEntries m.dir).length)
  let s := s.setReg (Reg.MAG_GEN p) (word m.gen)
  (s.setReg (Reg.MAG_VOLID_LO p) (word vol)).setReg (Reg.MAG_VOLID_HI p) (word (vol / 2 ^ 32))

def State.volId (s : State) (p : Nat) : Nat := s.pair64 (Reg.MAG_VOLID_LO p) (Reg.MAG_VOLID_HI p)

/-- GEN, LBAS, DIR_COPY, DIR_CRC and VOL_ID of a valid superblock (R408). -/
def superblockOk (b : List Byte) : Option (Nat × Nat × Nat × Nat × Nat) :=
  if b.length = 4096 ∧ b.take 8 = [0x41, 0x5A, 0x50, 0x4C, 0x41, 0x54, 0x45, 0x31] ∧ leAt 8 2 b = 1
      ∧ leAt 0xFFC 4 b = crc32c (b.take 0xFFC) ∧ leAt 0x20 4 b ≤ 1 then
    some (leAt 0x10 8 b, leAt 0x18 8 b, leAt 0x20 4 b, leAt 0x24 4 b, leAt 0x28 8 b)
  else none

/-- The bytes of a superblock (R408). -/
def superblock (gen lbas copy crc vol : Nat) : List Byte :=
  let b := padTo 0xFFC ([0x41, 0x5A, 0x50, 0x4C, 0x41, 0x54, 0x45, 0x31] ++ leBytes 2 1 ++ List.replicate 6 0 ++ leBytes 8 gen
    ++ leBytes 8 lbas ++ leBytes 4 copy ++ leBytes 4 crc ++ leBytes 8 vol)
  b ++ leBytes 4 (crc32c b)

/-- The first LBA of a directory copy (R407). -/
def copyLba (c : Nat) : Nat := 256 + 256 * c

/-- The 1 MiB of a directory. -/
def dirBytes (dir : Mem) : List Byte := aread (fun _ => 0) dir 0 1048576

/-! ## Mount (R411) -/

/-- The end of an attach: the state, MAG_ATTACH, MAG_MOUNT on mount, vector 263 (R402). -/
def State.attachEnd (s : State) (p st : Nat) : State :=
  let s := s.setMagState p st
  let s := if st = 3 then s.event Ev.MAG_UNFORMATTED [(8, p)] else if st = 4 then s.event Ev.MAG_DAMAGED [(8, p)] else s
  let s := s.event Ev.MAG_ATTACH [(8, p)]
  let s := if st = 5 then (s.event Ev.MAG_MOUNT [(8, p)]).setReady 16 else s
  s.signal 263

/-- The directory `dir` comes into force at a mount: bad entries, OPEN entries, free space. -/
def State.installDir (s : State) (p : Nat) (dir : Mem) (gen copy vol : Nat) : State :=
  let bad := (List.range 4096).filter (entryBad dir (s.lastCluster p))
  let s := s.onPort p (fun m => { m with dir := dir, bad := bad, gen := gen, copy := copy, owner := [], frames := [], index := [] })
  let s := bad.foldl (fun s e => s.event Ev.MAG_DIR_BAD [(8, p), (16, e)]) s
  let s := ((usedEntries dir).filter (fun e => entState (dirEntry dir e) == 1)).foldl
    (fun s e => s.event Ev.MAG_OPEN_FOUND [(8, p), (16, e)]) s
  s.syncVolume p vol

/-- Read the directory copy of the next superblock to try. -/
def State.tryDir (s : State) (p : Nat) : State :=
  let m := s.port p
  match m.sbTry with
  | [] => if m.sb.isEmpty then s.attachEnd p 3 else s.attachEnd p 4
  | k :: _ =>
    let (_, _, copy, _, _) := aget (fun _ => (0, 0, 0, 0, 0)) m.sb k
    let l := cutPages m.cmdPages 257 (copyLba copy) 256
    let s := s.onPort p (fun m => { m with dirNew := [], dirLeft := l.length })
    s.magIssues p (l.map (fun e => (.directory, .read e.1 e.2)))

/-- A part of a directory copy has been read, or could not be read. (DEDUCED, log entry 97.) -/
def State.dirPart (s : State) (p lba : Nat) (r : Option (List Byte)) : State :=
  let m := s.port p
  match m.sbTry with
  | [] => s
  | k :: rest =>
    let (gen, lbas, copy, crc, vol) := aget (fun _ => (0, 0, 0, 0, 0)) m.sb k
    match r with
    | none =>
      (s.onPort p (fun m => { m with sbTry := rest, cmds := m.cmds.filter (fun c => c.use ≠ .directory) })).tryDir p
    | some bs =>
      let dir := awrite (fun _ => 0) m.dirNew (4096 * (lba - copyLba copy)) bs
      let s := s.onPort p (fun m => { m with dirNew := dir, dirLeft := m.dirLeft - 1 })
      if m.dirLeft ≠ 1 then s
      else if crc32c (dirBytes dir) = crc ∧ s.usable p < lbas then s.attachEnd p 4
      else if crc32c (dirBytes dir) = crc then ((s.installDir p dir gen copy vol).onPort p (fun m => { m with dirNew := [] })).attachEnd p 5
      else (s.onPort p (fun m => { m with sbTry := rest })).tryDir p

/-- A superblock slot has been read, or could not be read (R411). (DEDUCED, log entry 97.) -/
def State.superblockRead (s : State) (p slot : Nat) (r : Option (List Byte)) : State :=
  let s := match r.bind superblockOk with
    | some v => s.onPort p (fun m => { m with sb := ainsert (aerase m.sb slot) slot v })
    | none => s
  if s.magBusy p (.superblock (1 - slot)) then s
  else
    let gen := fun (m : MagPort) (k : Nat) => (aget (fun _ => (0, 0, 0, 0, 0)) m.sb k).1
    (s.onPort p (fun m => { m with sbTry :=
      if m.sb.length = 2 then (if gen m 0 < gen m 1 then [1, 0] else [0, 1]) else m.sb.map (·.1) })).tryDir p

/-- Mount begins. -/
def State.beginMount (s : State) (p : Nat) : State :=
  let s := s.onPort p (fun m => { m with sb := [], sbTry := [] })
  s.magIssues p [(.superblock 0, .read 0 1), (.superblock 1, .read 1 1)]

/-! ## Attach (R402 to R404) -/

/-- Whether port p may attach now: enabled, its domain on, MAG ready, a magazine present, no entry to DORMANT on its way (R72, R402, R406). -/
def State.mayAttach (s : State) (p : Nat) : Bool :=
  !(s.pwr.heading && s.getF Reg.PWR_STATE F.PWR_STATE_TARGET == 3) && (s.port p).unmounting.isNone && s.flag (Reg.MAG_CFG p) F.MAG_CFG_EN && s.isReady 15 && s.isOn (11 + p) && (s.port p).present && !(s.port p).reseat

/-- Start the attach sequence of port p (R402); its domain wakes first if it is off (R66). (DEDUCED, log entry 95.) -/
def State.beginAttach (s : State) (p : Nat) : State :=
  if s.mayAttach p then (s.setMagState p 1).onPort p (fun m => { m with step := 0, cmds := [], unmounting := none, formatting := false })
  else if s.part = .ba && s.flag (Reg.MAG_CFG p) F.MAG_CFG_EN && (s.port p).present && !s.isOn (11 + p) && !s.lockedOff (11 + p) then
    State.wake 6 (11 + p) s
  else s

/-- A magazine that fails a requirement (R403, R404); the requirement is coded by its place in the table, 0 for the endpoint itself.
(DEDUCED, log entry 96.) -/
def State.unsupported (s : State) (p req : Nat) : State :=
  ((s.setMagState p 2).event Ev.MAG_UNSUPPORTED [(8, p), (8, req)]).signal 263

/-- The admin commands of the initialisation (R403), in order. -/
def identifyCmd (s : State) (p : Nat) : Nat → Option NvmeCmd
  | 0 => some (.admin "Identify controller" 0)
  | 1 => some (.admin "Identify namespace" 1)
  | 2 => some (.admin "Set Features Number of Queues" 1)
  | 3 => some (.admin "Create I/O Completion Queue" (s.port p).depth)
  | 4 => some (.admin "Create I/O Submission Queue" (s.port p).depth)
  | 5 => some (.admin "Set Features Temperature Threshold" (s.getF (Reg.MAG_CFG p) F.MAG_CFG_TTHR + 273))
  | 6 => some (.admin "Get Features Number of Queues" 0)
  | 7 => some (.admin "Get Features Temperature Threshold" 0)
  | _ => none

/-- Go on with the initialisation at `step`. -/
def State.identify (s : State) (p step : Nat) : State :=
  match identifyCmd s p step with
  | some c => s.magIssues p [(.identify step, c)]
  | none => s.beginMount p

/-- The initialisation command `step` has completed. (DEDUCED, log entry 96.) -/
def State.identified (s : State) (p step : Nat) (r : NvmeResult) : State :=
  match r with
  | .failed => s.unsupported p (step + 1)
  | .controller mdts dsm =>
    if mdts ≠ 0 ∧ mdts < 16384 then s.unsupported p 1
    else
      let s := s.onPort p (fun m => { m with cmdPages := if mdts = 0 then 32 else min 32 (mdts / 4096) })
      (s.setF (Reg.MAG_PSTAT p) F.MAG_PSTAT_DSM (b2n dsm)).identify p (step + 1)
  | .namespaceOne found fmtOk lbas =>
    if !found || !fmtOk || decide (lbas < 262144) then s.unsupported p 2
    else
      let n := min lbas 3906250000
      let s := (s.setReg (Reg.MAG_NSZE_LO p) (word n)).setReg (Reg.MAG_NSZE_HI p) (word (n / 2 ^ 32))
      (s.setF (Reg.MAG_PSTAT p) F.MAG_PSTAT_CLIPPED (b2n (decide (3906250000 < lbas)))).identify p (step + 1)
  | .granted ok => if ok then s.identify p (step + 1) else s.unsupported p 3
  | _ => s.identify p (step + 1)

/-- ATTACH_STEP (R402); the port's VCO band is selected at its training (R485). -/
def execAttachStep (p : Fin 4) (r : AttachResult) (s : State) : Res :=
  if s.magState p ≠ 1 then .next s
  else
    let n := (s.port p).step
    let go := fun (s : State) => s.onPort p (fun m => { m with step := n + 1 })
    .next (match r with
    | .waited low =>
      if n = 0 then (if low then go (s.magPin p "PWR_EN" true) else s)
      else if n = 1 then go (s.magPin p "REFCLK" true)
      else if n = 2 then go (s.magPin p "PERST_N" true)
      else s
    | .noLink => if n = 3 then s.setMagState p 7 else s
    | .link w rate =>
      if n = 3 then
        go (((s.setF (Reg.MAG_PSTAT p) F.MAG_PSTAT_WIDTH (2 ^ w.val)).setF (Reg.MAG_PSTAT p) F.MAG_PSTAT_RATE
          (min rate (3 - s.getF (Reg.MAG_CFG p) F.MAG_CFG_SPEED))).recordBand (33 + p))
      else s
    | .endpoint nvme sw mqes =>
      if n ≠ 4 then s
      else if !nvme || sw then s.unsupported p 0
      else
        let depth := min 256 (mqes.toNat + 1)
        if depth < 16 then s.unsupported p 4
        else (go (s.onPort p (fun m => { m with depth := depth }))).identify p 0)

/-! ## Plate staging buffers -/

/-- Free plate staging buffer i; its reads that wait are not sent, and what its outstanding reads and an engine still bring is dropped (R405, R422).
An engine's work on a staging that is gone names no buffer. -/
def State.freeStaging (s : State) (i : Nat) : State :=
  let mine := fun (c : MagCmd) => match c.use with
    | .stageIndex b | .stagePage b _ => b == i
    | _ => false
  let s := match s.staging i with
    | some g => s.onPort g.port (fun m => { m with cmds := (m.cmds.filter (fun (c : MagCmd) => c.sent || !mine c)).map (fun (c : MagCmd) =>
        if mine c then { c with use := .dropped } else c) })
    | none => s
  let s := s.onThc (fun t => { t with eng := t.eng.map (fun (e : Nat × Engine) => match e.2.work with
    | .stage b k => if b = i then (e.1, { e.2 with work := .stage 16 k }) else e
    | _ => e) })
  let s := (s.setStaging i none).setBuf (selPlate i) FrameBuf.init
  (s.onFst (fun f => { f with asm := f.asm.filter (fun a => a.sel != selPlate i) })).syncMap

/-- End schedule k (R418). -/
def State.endSched (s : State) (k : Nat) : State :=
  (s.onMag (fun m => { m with scheds := aset (fun _ => none) m.scheds k none })).setReg (Reg.MAG_PLAY k) 0

/-- End every schedule that names port p with MAG_PLAY_LOST (R405, R406). -/
def State.losePlays (s : State) (p : Nat) : State :=
  (List.range 16).foldl (fun s k => match s.sched k with
    | some c => if c.port = p then (s.endSched k).event Ev.MAG_PLAY_LOST [(8, p), (16, c.plate)] else s
    | none => s) s

/-- Free the stagings of port p that are not complete (R405). -/
def State.dropStagings (s : State) (p : Nat) : State :=
  (List.range 16).foldl (fun s i => match s.staging i with
    | some g => if g.port = p && !g.complete then s.freeStaging i else s
    | none => s) s

/-- Whether a plate descriptor is in flight on port p. (DEDUCED, log entry 56.) -/
def State.platesInFlight (s : State) (p : Nat) : Bool :=
  s.hst.clients.any (fun e => e.2.descs.any (fun d =>
    d.stage == .waiting && decide (0x18 ≤ d.opcode) && decide (d.opcode ≤ 0x1B) && d.target / 65536 % 4 == p))

/-! ## Removal, park and power (R405, R406) -/

/-- Power off: PERST_N low, REFCLK off, PWR_EN low; what the status registers show of the magazine clears, and a deallocation that is outstanding
has failed (R405, R420). (DEDUCED, log entry 95.) -/
def State.magPowerOff (s : State) (p : Nat) : State :=
  let s := (s.port p).cmds.foldl (fun s c => match c.use with
    | .trim plate => s.event Ev.MAG_TRIM_FAIL ((8, p) :: (plate.map (fun e => (16, e))).toList)
    | _ => s) s
  let s := s.magPinsOff p
  let s := s.onPort p (fun m => { MagPort.init with present := m.present, reseat := m.reseat, nextTag := m.nextTag })
  let s := s.onThm (fun h => { h with bands := aerase h.bands (33 + p) })
  [Reg.MAG_PSTAT p, Reg.MAG_NSZE_LO p, Reg.MAG_NSZE_HI p, Reg.MAG_FREE p, Reg.MAG_VOLID_LO p, Reg.MAG_VOLID_HI p,
    Reg.MAG_GEN p, Reg.MAG_QSTAT p].foldl (fun s o => s.setReg o 0) s

/-- Power off as steps 4 and 5 of R405 do it, with the event and the vector; the port is then in state `st`. -/
def State.magOff (s : State) (p : Nat) (reseat : Bool) (st : Nat) : State :=
  let s := s.magPowerOff p
  let s := (s.event Ev.MAG_REMOVE [(8, p)]).signal 263
  (s.onPort p (fun m => { m with reseat := reseat })).setMagState p st

/-- EN of port p in force. -/
def State.magEn (s : State) (p : Nat) : Bool := s.flag (Reg.MAG_CFG p) F.MAG_CFG_EN

/-- Complete every plate descriptor in flight on port p with MEDIA_ERROR. -/
def State.failPlates (s : State) (p : Nat) : State :=
  s.hst.clients.foldl (fun s e => e.2.descs.foldl (fun s d =>
    if d.stage == .waiting && decide (0x18 ≤ d.opcode) && decide (d.opcode ≤ 0x1B) && d.target / 65536 % 4 == p then
      s.finish e.1 d.idx (Cpl.of 0x44)
    else s) s) s

/-- The magazine of port p is removed (R405); a port whose EN is 0 is DISABLED after it, as R401 has it. (DEDUCED, log entry 95.) -/
def State.magRemoved (s : State) (p : Nat) : State :=
  let s := s.failPlates p
  let s := s.onMag (fun m => { m with reads := m.reads.filter (fun r => r.port != p), appends := m.appends.filter (fun a => a.port != p) })
  let s := (s.dropStagings p).losePlays p
  if !s.magEn p then s.magOff p false 8
  else if (s.port p).present then s.magOff p true 7
  else s.magOff p false 0

/-- The causes of R405 other than PRSNT_N. -/
def execMagRemove (p : Fin 4) (cause : RemoveCause) (s : State) : Res :=
  if !s.magPowered p then .next s
  else .next ((if cause = .cmdTimeout then s.bump (Reg.MAG_CNT_TIMEOUT p) 1 else s).magRemoved p)

/-- MAG_PRESENCE_CHANGE (R402, R405): low starts the attach sequence; high is a removal. -/
def execMagPresenceChange (p : Fin 4) (low : Bool) (s : State) : Res :=
  let was := (s.port p).present
  let s := s.onPort p (fun m => { m with present := low, reseat := m.reseat && low })
  if low then
    .next (if !was ∧ (s.magState p = 0 ∨ s.magState p = 6 ∨ s.magState p = 7) then s.beginAttach p else s)
  else if s.magPowered p then .next (s.magRemoved p)
  else .next (if s.magState p = 7 ∨ s.magState p = 6 then s.setMagState p 0 else s)

/-- The end of an unmount (R406): the magazine is unpowered and the port takes the state that follows. EN back at 1 by then attaches it again, and an
unmount for DORMANT leaves it PARKED for the wake (R74), or for the request that has replaced DORMANT (R73). -/
def State.unmounted (s : State) (p : Nat) : State :=
  let after := (s.port p).unmounting.getD 6
  let here := (s.port p).present
  let st := if here then 6 else 0
  if !s.magEn p then s.magOff p false 8
  else if after = 6 then s.magOff p here st
  else (s.magOff p false st).beginAttach p

/-- Go on with an unmount once no plate descriptor is in flight and no format runs (R406). -/
def State.tryUnmount (s : State) (p : Nat) : State :=
  match (s.port p).unmounting with
  | none => s
  | some _ =>
    if s.platesInFlight p || (s.port p).formatting || (s.port p).cmds.any (fun c => match c.use with
      | .unmount _ => true
      | _ => false) then s
    else ((s.losePlays p).dropStagings p).magIssues p [(.unmount 0, .flush)]

/-- Unmount port p, after which it is in state `after`, 0 for the unmount of DORMANT (R406). Before its initialisation there is nothing to flush: the
power goes at once. A FAILED port stays FAILED through DORMANT: R405 names what ends that state. (DESIGN CHOICE, log entry 138: R406 does not name
these ports.) -/
def State.beginUnmount (s : State) (p after : Nat) : State :=
  let st := s.magState p
  if 2 ≤ st ∧ st ≤ 5 then
    (s.onPort p (fun m => { m with unmounting := some (if after = 0 then m.unmounting.getD 0 else after) })).tryUnmount p
  else if st = 7 ∧ after = 0 then (if (s.port p).reseat then s else s.magOff p true 7)
  else if st = 1 ∨ (st = 7 ∧ !(s.port p).reseat) then (s.onPort p (fun m => { m with unmounting := some after })).unmounted p
  else if after = 8 then (s.onPort p (fun m => { m with reseat := false })).setMagState p 8
  else s

/-- MAG_UNMOUNT: a write of MAG_CTL with UNMOUNT = 1 (R406). -/
def State.writeUnmount (s : State) (p : Nat) : State :=
  if (s.port p).unmounting.isSome then s else s.beginUnmount p 6

/-- EN of port p comes into force (R406, R426). An unmount that still runs sees it at its end. (DEDUCED, log entry 102.) -/
def State.setMagEn (s : State) (p : Nat) (en : Bool) : State :=
  if en then
    if s.magState p = 8 then ((s.setMagState p 0).onPort p (fun m => { m with reseat := false })).beginAttach p
    else s
  else s.beginUnmount p 8

/-- The admin commands that give a magazine the temperature threshold in force and read it back (R403). -/
def thresholdCmds (s : State) (p : Nat) : List (MagUse × NvmeCmd) :=
  ((identifyCmd s p 5).toList ++ (identifyCmd s p 7).toList).map (fun c => (.feature, c))

/-- TTHR of port p comes into force: a magazine whose initialisation has passed it is told (R403, R426). -/
def State.setMagTthr (s : State) (p : Nat) : State :=
  let st := s.magState p
  let later := (s.port p).cmds.any (fun c => match c.use with
    | .identify n => decide (n < 5)
    | _ => false)
  if (st = 1 ∨ st = 3 ∨ st = 4 ∨ st = 5) ∧ (s.port p).step = 5 ∧ !later then s.magIssues p (thresholdCmds s p) else s

/-! ## Directory updates (R412) -/

/-- Commands on plate pages, cut where the extents or the largest command end: plate page, LBA, pages. -/
def pageRuns (b : List Byte) (most : Nat) (pages : List Nat) : Option (List (Nat × Nat × Nat)) :=
  pages.foldl (fun acc pg => acc.bind (fun l => (lbaIn (entExtents b) pg).map (fun lba =>
    match l with
    | (p0, l0, n) :: t => if l0 + n = lba ∧ p0 + n = pg ∧ n < most then (p0, l0, n + 1) :: t else (pg, lba, 1) :: l
    | [] => [(pg, lba, 1)]))) (some []) |>.map List.reverse

/-- Pages from `a` on. -/
def pageList (a n : Nat) : List Nat := (List.range n).map (a + ·)

/-- The commands that write the index pages of a new plate with zeros (R410). -/
def indexZeros (b : List Byte) (most : Nat) : List NvmeCmd :=
  ((pageRuns b most (pageList 0 (entIndexPages b))).getD []).map (fun r => .write r.2.1 (List.replicate (4096 * r.2.2) 0))

/-- Carry out the write, flush or superblock of step `n` of the update at the front: the new directory first; with that of a CREATE the plate's index
is written, all zeros, since the entries from FRAMES onward are 0 (R410). (DESIGN CHOICE, log entry 138: when it is written.) -/
def State.updateStep (s : State) (p n : Nat) : State :=
  let m := s.port p
  match m.updates with
  | [] => s
  | u :: _ =>
    let dir := awrite (fun _ => 0) m.dir (256 * u.entry) u.bytes
    let use := MagUse.update n
    if n = 0 then
      let index := if u.op = 1 then indexZeros u.bytes m.cmdPages else []
      s.magIssues p (index.map (fun c => (use, c)) ++ writesOf use m.cmdPages (copyLba (1 - m.copy)) (dirBytes dir))
    else if n = 2 then
      let lbas := (aget (fun _ => (0, 0, 0, 0, 0)) m.sb (m.gen % 2)).2.1
      s.magIssues p [(use, .write ((m.gen + 1) % 2) (superblock (m.gen + 1) lbas (1 - m.copy) (crc32c (dirBytes dir)) (s.volId p)))]
    else s.magIssues p [(use, .flush)]

/-- Queue a change of the directory. -/
def State.queueUpdate (s : State) (p : Nat) (u : DirUpdate) : State :=
  let first := (s.port p).updates.isEmpty
  let s := s.onPort p (fun m => { m with updates := m.updates ++ [u] })
  if first then s.updateStep p 0 else s

/-- Deallocate extents, those of a plate or all of them, if the magazine can and TRIM is 1 (R413, R420). -/
def State.dealloc (s : State) (p : Nat) (plate : Option Nat) (xs : List (Nat × Nat)) : State :=
  if s.flag (Reg.MAG_CFG p) F.MAG_CFG_TRIM && s.flag (Reg.MAG_PSTAT p) F.MAG_PSTAT_DSM then
    s.magIssues p (xs.map (fun x => (.trim plate, .deallocate x.1 x.2)))
  else s

/-- The change at the front is in force (R412, R415, R416, R420). -/
def State.updateDone (s : State) (p : Nat) : State :=
  let m := s.port p
  match m.updates with
  | [] => s
  | u :: rest =>
    let old := dirEntry m.dir u.entry
    let dir := awrite (fun _ => 0) m.dir (256 * u.entry) u.bytes
    let gen := m.gen + 1
    let (_, lbas, _, _, vol) := aget (fun _ => (0, 0, 0, 0, 0)) m.sb (m.gen % 2)
    let s := s.onPort p (fun m => { m with
      dir := dir, gen := gen, copy := 1 - m.copy, updates := rest
      sb := ainsert (aerase m.sb (gen % 2)) (gen % 2) (gen, lbas, 1 - m.copy, crc32c (dirBytes dir), vol)
      bad := m.bad.filter (fun e => e ≠ u.entry)
      owner := if u.op = 1 then aset (fun _ => 0) m.owner u.entry (u.client + 1) else aset (fun _ => 0) m.owner u.entry 0
      frames := if u.op = 1 then ainsert (aerase m.frames u.entry) u.entry (0, entIndexPages u.bytes) else aerase m.frames u.entry
      index := aerase m.index u.entry })
    let s := s.syncVolume p (s.volId p)
    let s := if rest.isEmpty then s else s.updateStep p 0
    if u.op = 1 then s.finish u.client u.idx (Cpl.of 0 (65536 * p + u.entry) (entSpace u.bytes / 256))
    else if u.op = 3 then s.finish u.client u.idx (Cpl.of 0 (entFrames u.bytes) (entUsed u.bytes % 2 ^ 32))
    else
      let others := (usedEntries dir).flatMap (fun e => entExtents (dirEntry dir e))
      (s.dealloc p (some u.entry) ((entExtents old).filter (fun x => !others.any (overlap x)))).finish u.client u.idx (Cpl.of 0)

/-- A command of step `n` of the update has completed. -/
def State.updateCmd (s : State) (p n : Nat) (ok : Bool) : State :=
  match (s.port p).updates with
  | [] => s
  | u :: rest =>
    if !ok then
      let s := s.bump (Reg.MAG_CNT_WRERR p) 1
      let s := s.onPort p (fun m => { m with updates := rest, cmds := m.cmds.filter (fun c => c.use ≠ .update n) })
      let s := s.finish u.client u.idx (Cpl.of 0x44)
      if rest.isEmpty then s else s.updateStep p 0
    else if s.magBusy p (.update n) then s
    else if n < 3 then s.updateStep p (n + 1)
    else s.updateDone p

/-! ## Formatting (R413) -/

/-- The highest valid GEN found. -/
def State.maxGen (s : State) (p : Nat) : Nat := (s.port p).sb.foldl (fun n e => max n e.2.1) 0

/-- The serial number of the device (R494). (DESIGN CHOICE, log entry 9.) -/
def State.dsn (s : State) : Nat := s.pair64 Reg.CAL_FDSN_LO Reg.CAL_FDSN_HI

/-- A step of formatting: the empty directory in copy A, flush, superblock, flush, then LBAs 2 to 255 and the other superblock slot.
(DEDUCED, log entry 99.) -/
def State.formatStep (s : State) (p n : Nat) : State :=
  let m := s.port p
  let use := MagUse.format n
  if n = 0 then s.magIssues p (writesOf use m.cmdPages (copyLba 0) (List.replicate 1048576 0))
  else if n = 2 then
    s.magIssues p [(use, .write (m.gen % 2) (superblock m.gen (s.usable p) 0 (crc32c (List.replicate 1048576 0)) (s.volId p)))]
  else if n = 4 then
    s.magIssues p ((use, .write (1 - m.gen % 2) (List.replicate 4096 0)) :: writesOf use m.cmdPages 2 (List.replicate (254 * 4096) 0))
  else s.magIssues p [(use, .flush)]

/-- MAG_FORMAT: a write of MAG_CTL with FORMAT = 1 (R413). -/
def State.writeFormat (s : State) (p : Nat) (key : Nat) : State :=
  let st := s.magState p
  let idle := !s.platesInFlight p && !(List.range 16).any (fun k => (s.sched k).any (fun c => c.port == p))
  let m := s.port p
  if key = 0xF0A7 ∧ !m.formatting ∧ m.unmounting = none ∧ (st = 3 ∨ st = 4 ∨ (st = 5 ∧ idle)) then
    let gen := s.maxGen p + 1
    let vol := s.dsn ^^^ s.gen.vt
    let s := s.onPort p (fun m => { m with formatting := true, gen := gen })
    let s := (s.setReg (Reg.MAG_VOLID_LO p) (word vol)).setReg (Reg.MAG_VOLID_HI p) (word (vol / 2 ^ 32))
    (s.setMagState p 3).formatStep p 0
  else s.event Ev.MAG_CTL_REJECT [(8, p)]

/-- A command of step `n` of formatting has completed. (DEDUCED, log entry 99.) -/
def State.formatCmd (s : State) (p n : Nat) (ok : Bool) : State :=
  if !ok then
    ((s.bump (Reg.MAG_CNT_WRERR p) 1).onPort p (fun m => { m with
      formatting := false, cmds := m.cmds.filter (fun c => c.use ≠ .format n) })).tryUnmount p
  else if s.magBusy p (.format n) then s
  else if n < 4 then s.formatStep p (n + 1)
  else
    let m := s.port p
    let vol := s.volId p
    let s := s.onPort p (fun m => { m with
      formatting := false
      sb := [(m.gen % 2, m.gen, s.usable p, 0, crc32c (List.replicate 1048576 0), vol)] })
    let s := ((s.installDir p [] m.gen 0 vol).setMagState p 5).setReady 16
    let s := s.signal 263
    (s.dealloc p none [(1024, 256 * s.lastCluster p - 1024)]).tryUnmount p

/-- A write of MAG_CTL (R406, R413, R426). -/
def State.writeMagCtl (s : State) (p : Nat) (v : Word) : State :=
  let s := if fieldOf F.MAG_CTL_FORMAT v = 1 then s.writeFormat p (fieldOf F.MAG_CTL_KEY v) else s
  if fieldOf F.MAG_CTL_UNMOUNT v = 1 then s.writeUnmount p else s

/-- MAG_UNMOUNT (R406). -/
def execMagUnmount (p : Fin 4) (v : Word) (s : State) : Res :=
  .next (s.viaReg (Reg.MAG_CTL p) (withField F.MAG_CTL_UNMOUNT 1 v) (fun s => s.writeMagCtl p (withField F.MAG_CTL_UNMOUNT 1 v)))
/-- MAG_FORMAT (R413). -/
def execMagFormat (p : Fin 4) (v : Word) (s : State) : Res :=
  .next (s.viaReg (Reg.MAG_CTL p) (withField F.MAG_CTL_FORMAT 1 v) (fun s => s.writeMagCtl p (withField F.MAG_CTL_FORMAT 1 v)))

/-- SMART_POLL (R403). -/
def execSmartPoll (p : Fin 4) (s : State) : Res :=
  let st := s.magState p
  if st = 3 ∨ st = 4 ∨ st = 5 then .next (s.magIssues p [(.smart, .admin "Get Log Page SMART/Health" 2)]) else .next s

/-! ## Plate descriptors (R414 to R420) -/

/-- The port and the plate that TARGET names (R414). -/
def Desc.magPort (d : Desc) : Nat := d.target / 65536 % 4
def Desc.plate (d : Desc) : Nat := d.target % 4096

/-- The check of R414 that the port is MOUNTED; then `f`. -/
def State.onMounted (s : State) (c : Nat) (d : Desc) (f : State → State) : State :=
  if s.mounted d.magPort && (s.port d.magPort).unmounting.isNone then f s
  else s.finish c d.idx (Cpl.of 0x44 (s.magState d.magPort))

/-- BAD_FIELD at `detail`. -/
def badFieldAt (detail : Nat) : Cpl := Cpl.of 0x11 0 0 detail
/-- TOO_LARGE with what is needed and what there is, and the field that fails (R97, R102); 0 where no field does. -/
def tooLarge (need have' : Nat) (detail : Nat := 0) : Cpl := Cpl.of 0x14 (min need 0xFFFFFFFF) (min have' 0xFFFFFFFF) detail

/-- The entry that CREATE writes (R409, R415). (DEDUCED, log entry 98.) -/
def createEntry (d : Desc) (runs : List (Nat × Nat)) : List Byte :=
  let kind := d.arg 6 / 256 % 2
  let pages := ceilDiv (8 * d.arg 2) 4096
  padTo 256 ([1, BitVec.ofNat 8 kind, BitVec.ofNat 8 (d.arg 6 / 65536 % 16), BitVec.ofNat 8 runs.length] ++ leBytes 4 0 ++ leBytes 8 d.haddr
    ++ leBytes 4 (d.arg 3) ++ leBytes 4 (d.arg 4) ++ leBytes 4 (d.arg 5) ++ leBytes 1 (d.arg 6) ++ leBytes 3 0 ++ leBytes 4 0
    ++ leBytes 4 (d.arg 2) ++ leBytes 4 pages ++ leBytes 4 0 ++ leBytes 8 pages ++ leBytes 8 0
    ++ runs.flatMap (fun r => leBytes 8 (256 * r.1) ++ leBytes 8 (256 * r.2)))

/-- CREATE (R415). -/
def State.plateCreate (c : Nat) (d : Desc) (s : State) : State :=
  s.onMounted c d (fun s =>
    let p := d.magPort
    let m := s.port p
    let queued := m.updates.map (·.entry)
    match (List.range 4096).find? (fun e => entState (dirEntry m.dir e) == 0 && !queued.contains e) with
    | none => s.finish c d.idx (tooLarge 4097 4096)
    | some e =>
      let free := freeRuns m.dir (s.lastCluster p) ((m.updates.filter (fun u => u.op == 1)).map (·.bytes))
      let runs := takeRuns (d.arg 1) free
      if runs.foldl (fun n r => n + r.2) 0 < d.arg 1 ∨ 12 < runs.length then
        s.finish c d.idx (tooLarge (1048576 * d.arg 1) (1048576 * largest12 free) 0x28)
      else s.queueUpdate p ⟨c, d.idx, 1, e, createEntry d runs⟩)

/-- PLATE_CREATE. -/
def execPlateCreate (c : Fin 256) (s : State) : Res :=
  .next (s.startWith c (fun d => isOp 0x18 d && d.arg 0 == 1) (State.plateCreate c))

/-- Whether plate e of port p is OPEN and belongs to client c (R416). -/
def State.ownsOpen (s : State) (p e c : Nat) : Bool :=
  entState (s.entry p e) == 1 && aget (fun _ => 0) (s.port p).owner e == c + 1

/-- FRAMES and plate pages in use, in the device's own record for a plate it has OPEN (R416). -/
def State.plateFrames (s : State) (p e : Nat) : Nat × Nat :=
  let b := s.entry p e
  aget (fun _ => (entFrames b, entUsed b)) (s.port p).frames e

/-- APPEND: its checks; then the frame is read (R414, R416). -/
def State.plateAppend (c : Nat) (d : Desc) (s : State) : State :=
  s.onMounted c d (fun s =>
    let p := d.magPort
    let b := s.entry p d.plate
    let (fr, used) := s.plateFrames p d.plate
    let need := 4096 * ceilDiv (wCont d.length 18) 4096
    let room := 4096 * (entSpace b - used)
    if s.fnAbsent 13 && s.fnAbsent 14 then s.finish c d.idx (Cpl.of 0x22)
    else if !s.ownsOpen p d.plate c then s.finish c d.idx (badFieldAt 0x18)
    else if d.length ≠ entFrameBytes b then s.finish c d.idx (Cpl.of 0x12 0 0 4)
    else if entFramesMax b ≤ fr then s.finish c d.idx (tooLarge (8 * (fr + 1)) (8 * entFramesMax b))
    else if room < need then s.finish c d.idx (tooLarge need room 4)
    else
      let s := s.onMag (fun m => { m with appends := m.appends ++ [⟨c, d.idx, p, d.plate, b, [], [], [], 0, 0⟩] })
      s.readHost d.haddr d.length (.data c d.idx))

/-- PLATE_APPEND. -/
def execPlateAppend (c : Fin 256) (s : State) : Res :=
  .next (s.startWith c (fun d => isOp 0x18 d && d.arg 0 == 2) (State.plateAppend c))

/-- The APPEND of the descriptor of client c at ring index idx. -/
def State.appendOf (s : State) (c idx : Nat) : Option AppendJob := s.mag.appends.find? (fun a => a.client == c && a.idx == idx)
/-- Change an APPEND. -/
def State.setAppend (s : State) (a : AppendJob) : State :=
  s.onMag (fun m => { m with appends := m.appends.map (fun b => if b.client = a.client ∧ b.idx = a.idx then a else b) })
/-- Take an APPEND out. -/
def State.dropAppend (s : State) (c idx : Nat) : State :=
  s.onMag (fun m => { m with appends := m.appends.filter (fun a => !(a.client == c && a.idx == idx)) })

/-- The number of chunks of an APPEND. -/
def AppendJob.chunks (a : AppendJob) : Nat := ceilDiv a.data.length (2 ^ 18)

/-- Every chunk of an APPEND is compressed: write the container from the next free page (R416). -/
def State.appendWrite (s : State) (a : AppendJob) : State :=
  let cont := containerHeader 18 (entLevel a.entry) a.data.length ++ a.outs.flatMap (·.2)
  let pages := ceilDiv cont.length 4096
  let used := (s.plateFrames a.port a.plate).2
  match pageRuns a.entry (s.port a.port).cmdPages (pageList used pages) with
  | none => (s.dropAppend a.client a.idx).finish a.client a.idx (Cpl.of 0x44)
  | some runs =>
    (s.setAppend { a with pages := pages, left := runs.length }).magIssues a.port (runs.map (fun r =>
      (.append a.client a.idx, .write r.2.1 (slice (4096 * (r.1 - used)) (4096 * r.2.2) (padTo (4096 * pages) cont)))))

/-- The index entries of an OPEN plate of this mount. -/
def State.plateIndex (s : State) (p e : Nat) : List Nat := aget (fun _ => []) (s.port p).index e

/-- A write of an APPEND has completed (R416). -/
def State.appendCmd (s : State) (p c idx : Nat) (isIndex ok : Bool) : State :=
  match s.appendOf c idx with
  | none => s
  | some a =>
    let (fr, used) := s.plateFrames p a.plate
    if !ok then
      let s := (s.bump (Reg.MAG_CNT_WRERR p) 1).onPort p (fun m => { m with
        cmds := m.cmds.filter (fun k => k.use ≠ .append c idx ∧ k.use ≠ .appendIndex c idx) })
      (s.dropAppend c idx).finish c idx (Cpl.of 0x44)
    else if isIndex then
      let s := s.onPort p (fun m => { m with
        frames := ainsert (aerase m.frames a.plate) a.plate (fr + 1, used + a.pages)
        index := ainsert (aerase m.index a.plate) a.plate (s.plateIndex p a.plate ++ [used + 2 ^ 40 * a.pages]) })
      let n := 32 + a.outs.foldl (fun n e => n + e.2.length) 0
      (s.dropAppend c idx).finish c idx (Cpl.of 0 a.data.length n)
    else if a.left ≠ 1 then s.setAppend { a with left := a.left - 1 }
    else
      let s := s.setAppend { a with left := 0 }
      let entries := s.plateIndex p a.plate ++ [used + 2 ^ 40 * a.pages]
      let page := padTo 4096 ((entries.drop (512 * (fr / 512))).flatMap (leBytes 8))
      match lbaIn (entExtents a.entry) (fr / 512) with
      | some lba => s.magIssues p [(.appendIndex c idx, .write lba page)]
      | none => (s.dropAppend c idx).finish c idx (Cpl.of 0x44)

/-- CLOSE (R416). -/
def State.plateClose (c : Nat) (d : Desc) (s : State) : State :=
  s.onMounted c d (fun s =>
    let p := d.magPort
    let b := s.entry p d.plate
    let (fr, used) := s.plateFrames p d.plate
    if !s.ownsOpen p d.plate c then s.finish c d.idx (badFieldAt 0x18)
    else
      let b' := [2] ++ slice 1 0x1F b ++ leBytes 4 fr ++ slice 0x24 0xC b ++ leBytes 8 used ++ b.drop 0x38
      s.queueUpdate p ⟨c, d.idx, 3, d.plate, b'⟩)

/-- PLATE_CLOSE. -/
def execPlateClose (c : Fin 256) (s : State) : Res :=
  .next (s.startWith c (fun d => isOp 0x18 d && d.arg 0 == 3) (State.plateClose c))

/-- Operands of PLATE_PLAY (R417). -/
def Desc.playView (d : Desc) : Nat := d.arg 0 % 8
def Desc.playTgt (d : Desc) : Nat := d.arg 0 / 16 % 8
def Desc.playOp (d : Desc) : Nat := d.arg 0 / 256 % 4
def Desc.playEnd (d : Desc) : Nat := d.arg 0 / 4096 % 4
def Desc.playF0 (d : Desc) : Nat := d.arg 2 + 2 ^ 32 * (d.arg 3 % 65536)

/-- The offset of the first field of a START that the plate, the geometry or the frame counter refuses (R417). (DEDUCED, log entry 100.) -/
def State.playFault (s : State) (d : Desc) : Option Nat :=
  let p := d.magPort
  let b := s.entry p d.plate
  let base := entKind b == 0
  let fits := if base then entW b == s.width && entH b == s.height
    else decide (leAt 0x14 2 b + entW b ≤ s.width) && decide (leAt 0x16 2 b + entH b ≤ s.height)
  if entState b ≠ 2 ∨ (s.port p).bad.contains d.plate then some 0x18
  else if !fits then some 0x18
  else if base ≠ (d.playTgt == 0) then some 0x24
  else if entFrames b < d.arg 1 + d.arg 4 then some 0x28
  else if d.playF0 ≤ s.gen.fc then some 0x2C
  else none

/-- The schedules that hold. -/
def State.heldScheds (s : State) : List Nat := (List.range 16).filter (fun k => (s.sched k).isSome)

/-- START (R417, R418). -/
def State.playStart (c : Nat) (d : Desc) (s : State) : State :=
  s.onMounted c d (fun s =>
    let held := s.heldScheds.length
    let plateN := s.getF Reg.FST_ALLOC F.FST_ALLOC_PLATE_N
    match s.playFault d with
    | some det => s.finish c d.idx (badFieldAt det)
    | none =>
      if held = 16 then s.finish c d.idx (tooLarge 17 16)
      else if plateN < 2 * (held + 1) then s.finish c d.idx (tooLarge (2 * (held + 1)) plateN)
      else
        let k := ((List.range 16).find? (fun k => (s.sched k).isNone)).getD 0
        let f0 := d.playF0
        let s := s.onMag (fun m => { m with scheds := m.scheds.map (fun e => (e.1, e.2.map (fun g =>
          if g.view = d.playView ∧ g.tgt = d.playTgt then { g with until_ := some (min f0 (g.until_.getD f0)) } else g))) })
        let g : Sched := ⟨d.magPort, d.plate, d.playView, d.playTgt, d.arg 1, f0, d.arg 4, d.playEnd, none⟩
        let s := s.onMag (fun m => { m with scheds := aset (fun _ => none) m.scheds k (some g) })
        let r := Reg.MAG_PLAY k
        let s := s.setReg r 0
        let s := [(F.MAG_PLAY_HELD, 1), (F.MAG_PLAY_VIEW, g.view), (F.MAG_PLAY_TGT, g.tgt), (F.MAG_PLAY_PORT, g.port),
          (F.MAG_PLAY_END, g.endMode), (F.MAG_PLAY_PLATE, g.plate)].foldl (fun s e => s.setF r e.1 e.2) s
        let s := s.setReg (Reg.MAG_PLAY_POS k) 0xFFFFFFFF
        s.finish c d.idx (Cpl.of 0 k))

/-- PLATE_PLAY_START. -/
def execPlatePlayStart (c : Fin 256) (s : State) : Res :=
  .next (s.startWith c (fun d => isOp 0x19 d && d.playOp == 1) (State.playStart c))

/-- STOP (R417, R418). -/
def State.playStop (c : Nat) (d : Desc) (s : State) : State :=
  s.onMounted c d (fun s =>
    match (if d.arg 1 < 16 then s.sched (d.arg 1) else none) with
    | none => s.finish c d.idx (badFieldAt 0x28)
    | some g =>
      let u := s.gen.fc + 1
      let g := { g with until_ := some (min u (g.until_.getD u)) }
      (s.onMag (fun m => { m with scheds := aset (fun _ => none) m.scheds (d.arg 1) (some g) })).finish c d.idx (Cpl.of 0 (d.arg 1)))

/-- PLATE_PLAY_STOP. -/
def execPlatePlayStop (c : Fin 256) (s : State) : Res :=
  .next (s.startWith c (fun d => isOp 0x19 d && d.playOp == 2) (State.playStop c))

/-- At the boundary of frame f, schedules that name nothing from now on end (R418), and failed stagings of past frames are forgotten. -/
def State.schedBoundary (s : State) (f : Nat) : State :=
  let s := s.onMag (fun m => { m with abandoned := m.abandoned.filter (fun e => decide (f ≤ e.2.2.2)) })
  (List.range 16).foldl (fun s k => match s.sched k with
    | some c =>
      if c.until_.any (fun u => decide (u ≤ f)) || (c.endMode == 0 && decide (c.f0 + c.n ≤ f)) then s.endSched k else s
    | none => s) s

/-- The PLATE_READ of the descriptor of client c at ring index idx. -/
def State.readOf (s : State) (c idx : Nat) : Option PlateRead := s.mag.reads.find? (fun r => r.client == c && r.idx == idx)
def State.setRead (s : State) (r : PlateRead) : State :=
  s.onMag (fun m => { m with reads := m.reads.map (fun q => if q.client = r.client ∧ q.idx = r.idx then r else q) })
def State.dropRead (s : State) (c idx : Nat) : State :=
  s.onMag (fun m => { m with reads := m.reads.filter (fun r => !(r.client == c && r.idx == idx)) })

/-- PLATE_READ of a frame: its checks; then its index page is read (R414, R419). -/
def State.plateRead (decoded : Bool) (c : Nat) (d : Desc) (s : State) : State :=
  s.onMounted c d (fun s =>
    let p := d.magPort
    let b := s.entry p d.plate
    let (fr, _) := s.plateFrames p d.plate
    if fr ≤ d.arg 1 then s.finish c d.idx (badFieldAt 0x28)
    else if decoded ∧ d.limit < entFrameBytes b then s.finish c d.idx (tooLarge (entFrameBytes b) d.limit 0x20)
    else
      match lbaIn (entExtents b) (d.arg 1 / 512) with
      | none => s.finish c d.idx (Cpl.of 0x44)
      | some lba =>
        let s := s.onMag (fun m => { m with reads := m.reads ++ [⟨c, d.idx, p, d.plate, decoded, 0, 0, [], 0⟩] })
        s.magIssues p [(.readIndex c d.idx, .read lba 1)])

/-- PLATE_READ_PAGES. -/
def execPlateReadPages (c : Fin 256) (s : State) : Res :=
  .next (s.startWith c (fun d => isOp 0x1A d && d.arg 0 == 0) (State.plateRead false c))
/-- PLATE_READ_DECODED. -/
def execPlateReadDecoded (c : Fin 256) (s : State) : Res :=
  .next (s.startWith c (fun d => isOp 0x1A d && d.arg 0 == 1) (State.plateRead true c))

/-- PLATE_READ of a directory entry (R419). (DEDUCED, log entry 103.) -/
def State.plateReadEntry (c : Nat) (d : Desc) (s : State) : State :=
  s.onMounted c d (fun s =>
    if d.limit < 256 then s.finish c d.idx (tooLarge 256 d.limit 0x20)
    else (s.writeHost d.haddr2 (s.entry d.magPort d.plate) (some (c, d.idx))).finish c d.idx (Cpl.of 0 256 256))

/-- PLATE_READ_ENTRY. -/
def execPlateReadEntry (c : Fin 256) (s : State) : Res :=
  .next (s.startWith c (fun d => isOp 0x1A d && d.arg 0 == 2) (State.plateReadEntry c))

/-- Index entry `i` of an index page: first page and page count (R410). -/
def indexEntry (page : List Byte) (i : Nat) : Nat × Nat :=
  let v := leAt (8 * (i % 512)) 8 page
  (v % 2 ^ 40, v / 2 ^ 40)

/-- Keep the pages of a read, one by one. -/
def putPages (m : AMap (List Byte)) (page : Nat) (bs : List Byte) : AMap (List Byte) :=
  (List.range (bs.length / 4096)).foldl (fun m k => ainsert (aerase m (page + k)) (page + k) (slice (4096 * k) 4096 bs)) m

/-- A read for a PLATE_READ fails. -/
def State.readFailed (s : State) (p c idx : Nat) : State :=
  let s := (s.bump (Reg.MAG_CNT_RDERR p) 1).onPort p (fun m => { m with cmds := m.cmds.filter (fun k => match k.use with
    | .readPage a b _ => !(a == c && b == idx)
    | _ => true) })
  (s.dropRead c idx).finish c idx (Cpl.of 0x44)

/-- The index page of a PLATE_READ has been read. -/
def State.readIndexPage (s : State) (p c idx : Nat) (bs : List Byte) : State :=
  match s.readOf c idx, s.desc? c idx with
  | some r, some d =>
    let (p0, n) := indexEntry bs (d.arg 1)
    if !r.decoded && decide (d.limit < 4096 * n) then (s.dropRead c idx).finish c idx (tooLarge (4096 * n) d.limit 0x20)
    else
      match pageRuns (s.entry p r.plate) (s.port p).cmdPages (pageList p0 n) with
      | none | some [] => (s.dropRead c idx).finish c idx (Cpl.of 0x44)
      | some runs =>
        let s := s.setRead { r with page0 := p0, pages := n, left := runs.length }
        s.magIssues p (runs.map (fun x => (.readPage c idx x.1, .read x.2.1 x.2.2)))
  | _, _ => s

/-- Pages of a PLATE_READ have been read; after the last of them the data go to the host (R419). -/
def State.readPages (s : State) (c idx page : Nat) (bs : List Byte) : State :=
  match s.readOf c idx, s.desc? c idx with
  | some r, some d =>
    let data := putPages r.data page bs
    if r.left ≠ 1 then s.setRead { r with data := data, left := r.left - 1 }
    else
      let all := data.flatMap (·.2)
      let s := s.dropRead c idx
      let put := fun (s : State) (bs : List Byte) => if bs.isEmpty then s else s.writeHost d.haddr2 bs (some (c, idx))
      if !r.decoded then (put s all).finish c idx (Cpl.of 0 all.length all.length)
      else
        let u := unpackContainer none d.limit Unpack.init all
        if u.stop = .ok then (put s u.out).finish c idx (Cpl.of 0 all.length u.out.length)
        else (put s (u.out.take u.okOut)).finish c idx (Cpl.of (if u.stop = .check then 0x41 else 0x42) 0 u.okOut)
  | _, _ => s

/-- DELETE (R420). (DEDUCED, log entry 98.) -/
def State.plateDelete (c : Nat) (d : Desc) (s : State) : State :=
  s.onMounted c d (fun s =>
    let p := d.magPort
    let b := s.entry p d.plate
    let named := (List.range 16).any (fun k => (s.sched k).any (fun g => g.port == p && g.plate == d.plate))
    let busy := s.mag.appends.any (fun a => a.port == p && a.plate == d.plate)
    if entState b = 0 ∨ named ∨ busy then s.finish c d.idx (badFieldAt 0x18)
    else s.queueUpdate p ⟨c, d.idx, 4, d.plate, List.replicate 256 0⟩)

/-- PLATE_DELETE. -/
def execPlateDelete (c : Fin 256) (s : State) : Res := .next (s.startWith c (isOp 0x1B) (State.plateDelete c))

/-! ## Staging (R421 to R423) -/

/-- The first slot of view v in the schedule of frame f whose deadline has not passed. -/
def State.slotAhead (s : State) (v f : Nat) : Option Nat :=
  (List.range s.nSlot).find? (fun k => s.slotView k == v && (f != s.gen.fc || decide (s.hrt.slots ≤ k)))

/-- What the schedules name for the frames up to 8 ahead and no buffer holds: frame, slot, port, plate, plate frame, view, target. -/
def State.stageWanted (s : State) : List (Nat × Nat × Nat × Nat × Nat × Nat × Nat) :=
  (List.range 9).flatMap (fun j => (List.range 16).filterMap (fun k =>
    let f := s.gen.fc + j
    match s.sched k with
    | none => none
    | some c =>
      match c.frameAt f, s.slotAhead c.view f with
      | some n, some slot =>
        if (List.range 16).any (fun i => (s.staging i).any (fun g =>
            g.port == c.port && g.plate == c.plate && g.pframe == n && g.frame == f && g.users.contains (c.view, c.tgt)))
            || s.mag.abandoned.contains (c.port, c.plate, n, f) then none
        else some (f, slot, c.port, c.plate, n, c.view, c.tgt)
      | _, _ => none))

/-- The earlier deadline of two. -/
def earlierOf (a b : Nat × Nat × Nat × Nat × Nat × Nat × Nat) : Bool := decide (a.1 < b.1) || (a.1 == b.1 && decide (a.2.1 ≤ b.2.1))

/-- A free plate staging buffer. -/
def State.freePlateBuf (s : State) : Option Nat :=
  (List.range (s.getF Reg.FST_ALLOC F.FST_ALLOC_PLATE_N)).find? (fun i => (s.staging i).isNone && (s.placed (selPlate i)).isSome)

/-- PLATE_STAGE_START (R421). -/
def State.stageStart (s : State) : State :=
  let w := s.stageWanted
  match w.find? (fun a => w.all (earlierOf a)) with
  | none => s
  | some (f, _, p, e, n, v, t) =>
    match (List.range 16).find? (fun i => (s.staging i).any (fun g => g.port == p && g.plate == e && g.pframe == n && g.frame == f)) with
    | some i => s.setStaging i ((s.staging i).map (fun g => { g with users := g.users ++ [(v, t)] }))
    | none =>
      match s.freePlateBuf with
      | none => s
      | some i =>
        let b := s.entry p e
        match lbaIn (entExtents b) (n / 512) with
        | none => s.onMag (fun m => { m with abandoned := m.abandoned ++ [(p, e, n, f)] })
        | some lba =>
          let g : Staging := ⟨p, e, n, f, [(v, t)], b, 0, 0, [], 0, [], [], [], 0, [], 0, false, [], false, 0⟩
          let s := s.setStaging i (some g)
          let s := (s.setBuf (selPlate i) { freshBuf f with rect := some (plateRect b) }).syncMap
          s.magIssues p [(.stageIndex i, .read lba 1)]

def execPlateStageStart (s : State) : Res := .next s.stageStart

/-- A staging is abandoned (R423). (DEDUCED, log entry 101.) -/
def State.abandon (s : State) (i : Nat) : State :=
  match s.staging i with
  | none => s
  | some g =>
    let s := s.onMag (fun m => { m with abandoned := m.abandoned ++ [(g.port, g.plate, g.pframe, g.frame)] })
    (s.freeStaging i).event Ev.MAG_CHUNK_BAD [(8, g.port), (16, g.plate), (32, g.pframe)]

/-- The bytes of a staging's container as far as its pages have been read. -/
def Staging.bytes (g : Staging) : List Byte := g.data.flatMap (·.2)
/-- Its number of chunks, if its header is that of a plate frame (R432). -/
def Staging.chunks (g : Staging) : Option Nat :=
  match headerOk (g.bytes.take 32) with
  | some (c, orig, n) => if c = 18 ∧ orig = entFrameBytes g.entry then some n else none
  | none => none

/-- Read once more the pages that hold chunk k, or abandon the frame when the chunk, or a read of its pages, has failed before (R423).
(DEDUCED, log entry 101.) -/
def State.chunkFailed (s : State) (i k : Nat) : State :=
  match s.staging i with
  | none => s
  | some g =>
    let a := if g.chunks.isNone then 0 else chunkAt g.bytes k
    let b := if g.chunks.isNone then 4096 else chunkAt g.bytes (k + 1)
    let first := min (a / 4096) (g.pages - 1)
    let n := max 1 (min (ceilDiv b 4096) g.pages - first)
    let pages := pageList (g.page0 + first) n
    if g.retried.contains k || pages.any (fun q => g.retried.contains (2 ^ 32 + q)) then s.abandon i
    else
      match pageRuns g.entry (s.port g.port).cmdPages pages with
      | none => s.abandon i
      | some runs =>
        let s := s.setStaging i (some { g with
          retried := g.retried ++ k :: pages.map (fun q => 2 ^ 34 + q)
          given := g.given.filter (fun j => j ≠ k), left := g.left + runs.length })
        s.magIssues g.port (runs.map (fun r => (.stagePage i r.1, .read r.2.1 r.2.2)))

/-- The index page of a staging has been read. -/
def State.stageIndexRead (s : State) (i : Nat) (bs : List Byte) : State :=
  match s.staging i with
  | none => s
  | some g =>
    let (p0, n) := indexEntry bs g.pframe
    match pageRuns g.entry (s.port g.port).cmdPages (pageList p0 n) with
    | none | some [] => s.abandon i
    | some runs =>
      let s := s.setStaging i (some { g with page0 := p0, pages := n, left := runs.length })
      s.magIssues g.port (runs.map (fun r => (.stagePage i r.1, .read r.2.1 r.2.2)))

/-- The words of port p's bank space that hold plate pages `pages` of a staging: from 192 KiB on, page by page round. (DESIGN CHOICE, log entry 138:
the layout is not stated.) -/
def State.chunkWords (s : State) (p : Nat) (pages : List Nat) : List Nat :=
  if s.banksClean then []
  else pages.flatMap (fun q => (List.range 512).filterMap (fun j => s.poolWord (6 + p) 2 (0x6000 + 512 * (q % 208) + j)))

/-- Pages of a staging have been read, as full words of the port's banks; once they all are, its chunks go to the engines (R463).
(DEDUCED, log entry 101.) -/
def State.stagePagesRead (s : State) (i page : Nat) (bs : List Byte) : State :=
  match s.staging i with
  | none => s
  | some g =>
    let s := s.cleanWords (s.chunkWords g.port (pageList page (bs.length / 4096)))
    s.setStaging i (some { g with data := putPages g.data page bs, left := g.left - 1 })

/-- A staging read fails its command: it is read once more, unless a page of it has been (R423). `marks` names the read among `retried`. -/
def State.stageReadFailed (s : State) (i : Nat) (marks : List Nat) (c : MagCmd) : State :=
  match s.staging i with
  | none => s
  | some g =>
    let s := s.bump (Reg.MAG_CNT_RDERR g.port) 1
    if marks.any (fun q => g.retried.contains q || g.retried.contains (q + 2 ^ 34 - 2 ^ 32)) then s.abandon i
    else (s.setStaging i (some { g with retried := g.retried ++ marks })).magIssues g.port [(c.use, c.cmd)]

/-- Write whole rows from the inflated bytes of a staging (R421): `n` bounds the rows. -/
def State.stageRows (i : Nat) : Nat → State → State
  | 0, s => s
  | n + 1, s =>
    match s.staging i with
    | none => s
    | some g =>
      let rb := entRowBytes g.entry
      if rb = 0 ∨ g.got.length < rb ∨ entH g.entry ≤ g.rowsOut then s
      else
        let s := s.writeRow (selPlate i) g.frame g.rowsOut 0 (unpackRow (entW g.entry) (g.got.take rb)) true true
        State.stageRows i n (s.setStaging i (some { g with got := g.got.drop rb, rowsOut := g.rowsOut + 1 }))

/-- Whether the buffer of staging i holds every row of its frame: no block row of a coded buffer has been evicted (R24, R224). -/
def State.stageWhole (s : State) (i : Nat) (g : Staging) : Bool :=
  match s.placed (selPlate i) with
  | some p => p.mode == 0 || allMarked (s.buf (selPlate i)).enc (ceilDiv (entH g.entry) 4)
  | none => false

/-- The last chunk of staging `g` has been written to buffer i: the frame is complete if the buffer holds the whole of it (R24, R226). -/
def State.stageEnd (s : State) (i : Nat) (g : Staging) : State :=
  if s.stageWhole i g then
    let s := s.setStaging i ((s.staging i).map (fun g => { g with complete := true, doneAt := s.gen.vt }))
    let tgt := match g.users with
      | (v, t) :: _ => if t = 0 then 0 else targetByte (selWindow v (t - 1))
      | [] => 0
    s.reportFrameLoss (selPlate i) tgt g.frame
  else s

/-- Write the chunks of staging i that follow in order, and mark the frame complete after the last (R421). (DEDUCED, log entry 101.) -/
def State.stageFlush (i : Nat) : Nat → State → State
  | 0, s => s
  | n + 1, s =>
    match s.staging i with
    | none => s
    | some g =>
      match g.outs.find? (fun e => e.1 == g.next) with
      | none => s
      | some (_, bs) =>
        let s := s.setStaging i (some { g with outs := aerase g.outs g.next, next := g.next + 1, got := g.got ++ bs })
        let s := State.stageRows i (entH g.entry) s
        let s := if g.chunks = some (g.next + 1) then s.stageEnd i g else s
        State.stageFlush i n s

/-! ## Completions of commands (R403) -/

/-- The pages of a read command. -/
def nvmePages : NvmeCmd → Nat
  | .read _ n => n
  | _ => 0

/-- What the completion of command `c` with outcome `r` does for its use: `bs` is the data read, if it succeeded, and `lba` where it lay. -/
def State.nvmeServe (s : State) (p : Nat) (c : MagCmd) (r : NvmeResult) (ok : Bool) (bs : Option (List Byte)) (lba : Nat) : State :=
  match c.use with
  | .identify n => if s.magState p = 1 then s.identified p n r else s
  | .superblock k => s.superblockRead p k bs
  | .directory => s.dirPart p lba bs
  | .update n => s.updateCmd p n ok
  | .format n => s.formatCmd p n ok
  | .stageIndex i => match bs with
    | some l => s.stageIndexRead i l
    | none => s.stageReadFailed i [2 ^ 33] c
  | .stagePage i pg => match bs with
    | some l => s.stagePagesRead i pg l
    | none => s.stageReadFailed i ((pageList pg (nvmePages c.cmd)).map (2 ^ 32 + ·)) c
  | .readIndex a b => match bs with
    | some l => s.readIndexPage p a b l
    | none => s.readFailed p a b
  | .readPage a b pg => match bs with
    | some l => s.readPages a b pg l
    | none => s.readFailed p a b
  | .append a b => s.appendCmd p a b false ok
  | .appendIndex a b => s.appendCmd p a b true ok
  | .trim plate => if ok then s else s.event Ev.MAG_TRIM_FAIL ((8, p) :: (plate.map (fun e => (16, e))).toList)
  | .smart => match r with
    | .smart k crit =>
      let s := (s.setF (Reg.MAG_TEMP p) F.MAG_TEMP_KELVIN k.toNat).setF (Reg.MAG_TEMP p) F.MAG_TEMP_CRIT crit.toNat
      if crit = 0 then s else s.event Ev.MAG_SMART [(8, p), (8, crit.toNat)]
    | _ => s
  | .unmount n =>
    if n = 0 then s.magIssues p [(.unmount 1, .admin "Delete I/O Submission Queue" 1)]
    else if n = 1 then s.magIssues p [(.unmount 2, .admin "Delete I/O Completion Queue" 1)]
    else if n = 2 then s.magIssues p [(.unmount 3, .admin "CC.SHN normal shutdown" 1)]
    else s.unmounted p
  | .feature | .dropped => s

/-- The data that a command read. -/
def nvmeData : NvmeResult → Option (List Byte)
  | .bytes l => some l
  | _ => none

/-- The first block of a read command. -/
def nvmeLba : NvmeCmd → Nat
  | .read a _ => a
  | _ => 0

/-- NVME_COMPLETION. -/
def State.nvmeDone (s : State) (p tag : Nat) (r : NvmeResult) : State :=
  match (s.port p).cmds.find? (fun c => c.tag == tag && c.sent) with
  | none => s
  | some c =>
    let s := s.onPort p (fun m => { m with cmds := m.cmds.filter (fun d => d.tag ≠ tag) })
    let s := s.nvmeServe p c r (r != .failed) (nvmeData r) (nvmeLba c.cmd)
    let s := State.magPump p (s.port p).cmds.length s
    s.tryUnmount p

def execNvmeCompletion (p : Fin 4) (tag : Nat) (r : NvmeResult) (s : State) : Res := .next (s.nvmeDone p tag r)

end Sys2Proof.Machine
end

