-- ==== Sys2Proof/Machine/Thatch.lean ====
section
/-! DEFINITION. The Thatch engines: their choice of work, host codec jobs, staging and ingest chunks, self-tests and registers (R421, R437 to
R450). -/

namespace Sys2Proof.Machine

/-- Engine e. -/
def State.engine (s : State) (e : Nat) : Engine := aget (fun _ => Engine.init) s.thc.eng e

/-- THC_ESTAT.STATE of an engine's work (R446). -/
def ThcWork.code (w : ThcWork) (decomp : Bool) : Nat :=
  match w with
  | .idle => 1
  | .host _ _ _ _ => if decomp then 3 else 2
  | .stage _ _ | .ingest _ _ _ => 4
  | .bist => 5

/-- THC_ESTAT follows the engine (R446). -/
def State.syncEngine (s : State) (e : Nat) : State :=
  let w := (s.engine e).work
  let c := match w with
    | .host c _ _ _ => c
    | _ => 0
  let dec := match w with
    | .host c i _ _ => (s.desc? c i).any (fun d => d.opcode == 0x11)
    | _ => false
  let st := if !s.isOn (21 + e) then 0 else if w = .idle ∧ s.flag (Reg.THC_BIST e) F.THC_BIST_FAIL then 6 else w.code dec
  (s.setF (Reg.THC_ESTAT e) F.THC_ESTAT_STATE st).setF (Reg.THC_ESTAT e) F.THC_ESTAT_CLIENT c

/-- Put work on engine e. -/
def State.setEngine (s : State) (e : Nat) (x : Engine) : State :=
  (s.onThc (fun t => { t with eng := aset (fun _ => Engine.init) t.eng e x })).syncEngine e

/-- Whether the throttle holds step 1 (R481). -/
def State.thcThrottled (s : State) : Bool := s.getF Reg.THM_STAT F.THM_STAT_STEP != 0
/-- Whether engine e waits in a pause. -/
def State.thcPaused (s : State) (e : Nat) : Bool := s.flag (Reg.THC_ESTAT e) F.THC_ESTAT_PAUSED
/-- The pause after an operation (R481). -/
def State.thcPause (s : State) (e : Nat) : State :=
  if s.thcThrottled then s.setF (Reg.THC_ESTAT e) F.THC_ESTAT_PAUSED 1 else s

/-- THROTTLE_PAUSE_END: the pause ends unless P1 is 0, which stops the class while the step is engaged (R481). -/
def execThrottlePauseEnd (e : Fin 2) (s : State) : Res :=
  .next (if s.thcThrottled ∧ s.getF Reg.THM_PAUSE0 F.THM_PAUSE0_P1 = 0 then s else s.setF (Reg.THC_ESTAT e) F.THC_ESTAT_PAUSED 0)

/-- Step 1 is released: no engine pauses. -/
def State.thcRelease (s : State) : State :=
  [0, 1].foldl (fun s e => s.setF (Reg.THC_ESTAT e) F.THC_ESTAT_PAUSED 0) s

/-! ## Choosing work (R439, R447) -/

/-- THC_CFG keeps engine e for staging. -/
def State.stageOnly (s : State) (e : Nat) : Bool := bit (s.reg Reg.THC_CFG).toNat e

/-- Whether engine e may take work now. -/
def State.engineFree (s : State) (e : Nat) : Bool :=
  s.isReady (13 + e) && (s.engine e).work == .idle && !s.thcPaused e
    && !(s.thcThrottled && s.getF Reg.THM_PAUSE0 F.THM_PAUSE0_P1 == 0)

/-- The next chunk of staging i that no engine has; a container whose header fails is met as its first chunk (R432). -/
def State.stageChunk (s : State) (i : Nat) : Option Nat :=
  match s.staging i with
  | some g =>
    if g.left ≠ 0 ∨ g.pages = 0 ∨ g.complete then none
    else if g.chunks.isNone then (if g.given.contains 0 then none else some 0)
    else g.chunks.bind (fun n => (List.range n).find? (fun k => decide (g.next ≤ k) && !g.given.contains k && !g.outs.any (fun e => e.1 == k)))
  | none => none

/-- The staging with the earliest frame that has a chunk to inflate. (DEDUCED, log entry 105.) -/
def State.stageWork (s : State) : Option (Nat × Nat) :=
  let l := (List.range 16).filter (fun i => (s.stageChunk i).isSome)
  let frame : Nat → Nat := fun i => ((s.staging i).map (·.frame)).getD 0
  (l.find? (fun i => l.all (fun j => decide (frame i ≤ frame j)))).bind (fun i => (s.stageChunk i).map (fun k => (i, k)))

/-- The next chunk to compress of an APPEND that has its frame. (DEDUCED, log entry 105.) -/
def State.ingestWork (s : State) : Option (Nat × Nat × Nat) :=
  s.mag.appends.findSome? (fun a =>
    ((List.range a.chunks).find? (fun k => !a.given.contains k)).map (fun k => (a.client, a.idx, k)))

/-- Whether a host job may run on engine e (R437, R447). -/
def State.jobAllowed (s : State) (e : Nat) (j : Nat × Nat) : Bool :=
  match s.desc? j.1 j.2 with
  | some d =>
    let eng := d.arg 0 / 65536 % 4
    !s.stageOnly e && (eng == 0 || eng == e + 1)
  | none => false

/-- Whether the job of a descriptor has a job state (R440). -/
def stateful (c : Nat) (d : Desc) : Bool := decide (c < 4) && d.arg2 1 != 0

/-- The host jobs that wait for an engine, in the order in which they passed check 9 (R439). -/
def State.jobOrder (s : State) : List (Nat × Nat) :=
  s.thc.passed.filter (fun j => s.thc.queue.contains j) ++ s.thc.queue.filter (fun j => !s.thc.passed.contains j)

/-- Start host job (c, idx) on engine e: its job state, or its input, is read (R437, R441, R444). (DEDUCED, log entry 105.) -/
def State.startJob (s : State) (e c idx : Nat) : State :=
  match s.desc? c idx with
  | none => s
  | some d =>
    let s := s.onThc (fun t => { t with queue := t.queue.filter (fun j => j ≠ (c, idx)) })
    if d.resume then (s.setEngine e ⟨.host c idx none none, 0⟩).readHost (d.arg2 1) 102400 (.jobState c idx)
    else (s.setEngine e ⟨.host c idx (some []) none, 0⟩).readHost d.haddr d.length (.data c idx)

/-- A free engine takes staging first, then ingest, then the next host job allowed on it; TH0 when both are free (R424, R439). -/
def State.jobStart (s : State) (e : Nat) : State :=
  let want := s.stageWork.isSome || s.ingestWork.isSome || !s.thc.queue.isEmpty
  if want && s.isReady (13 + e) && !s.isOn (21 + e) && !s.lockedOff (21 + e) then State.wake 6 (21 + e) s
  else if !s.engineFree e || !s.isOn (21 + e) then s
  else
    match s.stageWork with
    | some (i, k) =>
      let s := s.setStaging i ((s.staging i).map (fun g => { g with given := g.given ++ [k] }))
      s.setEngine e ⟨.stage i k, 1⟩
    | none =>
      match s.ingestWork with
      | some (c, idx, k) =>
        let s := s.onMag (fun m => { m with appends := m.appends.map (fun a =>
          if a.client = c ∧ a.idx = idx then { a with given := a.given ++ [k] } else a) })
        s.setEngine e ⟨.ingest c idx k, 1⟩
      | none =>
        match s.jobOrder.find? (s.jobAllowed e) with
        | some j => s.startJob (if s.engineFree 0 && s.isOn 21 && s.jobAllowed 0 j then 0 else e) j.1 j.2
        | none => s

/-- ENGINE_JOB_START (R439). -/
def execEngineJobStart (e : Fin 2) (s : State) : Res := .next (s.jobStart e)

/-- THC_COMP: the job waits for an engine (R437, R439). -/
def execThcComp (c : Fin 256) (s : State) : Res :=
  .next (s.startWith c (isOp 0x10) (fun d s => s.onThc (fun t => { t with queue := t.queue ++ [(c.val, d.idx)] })))

/-- THC_DECOMP: the job waits for an engine (R437, R439). -/
def execThcDecomp (c : Fin 256) (s : State) : Res :=
  .next (s.startWith c (isOp 0x11) (fun d s => s.onThc (fun t => { t with queue := t.queue ++ [(c.val, d.idx)] })))

/-! ## Host jobs (R437 to R444) -/

/-- What the job of descriptor d of client c does with its job state and input. -/
def State.jobResult (s : State) (c : Nat) (d : Desc) (img data : List Byte) : JobResult :=
  let serial := (s.reg Reg.CAL_FDSN_LO).toNat
  if d.opcode = 0x10 then compJob (d.arg 0) d.length d.limit serial (stateful c d) d.resume img data
  else decompJob (d.arg 0) d.length d.limit serial (stateful c d) d.resume img data

/-- The engine that runs host job (c, idx). -/
def State.engineOf (s : State) (c idx : Nat) : Option Nat :=
  [0, 1].find? (fun e => match (s.engine e).work with
    | .host a b _ _ => a == c && b == idx
    | _ => false)

/-- Host memory has given the job state or the input of job (c, idx). -/
def State.jobData (s : State) (c idx : Nat) (isState : Bool) (bytes : List Byte) : State :=
  match s.engineOf c idx, s.desc? c idx with
  | some e, some d =>
    let img := match (s.engine e).work with
      | .host _ _ i _ => i.getD []
      | _ => []
    if isState then
      let ok := stateOk bytes d.opcode (d.arg 0) d.length (s.reg Reg.CAL_FDSN_LO).toNat
      let done := d.opcode == 0x10 && leAt 0xF 1 bytes % 2 == 1
      if !ok || done then s.setEngine e ⟨.host c idx (some bytes) (some []), (s.jobResult c d bytes []).ops⟩
      else (s.setEngine e ⟨.host c idx (some bytes) none, 0⟩).readHost d.haddr d.length (.data c idx)
    else s.setEngine e ⟨.host c idx (some img) (some bytes), (s.jobResult c d img bytes).ops⟩
  | _, _ => s

/-- Host job (c, idx) leaves its engine or the queue without a result (R108, R440). -/
def State.jobFault (s : State) (c idx : Nat) : State :=
  match s.engineOf c idx with
  | some e => (s.setEngine e Engine.init).bump (Reg.THC_CNT_JOBS e) 1
  | none => s.onThc (fun t => { t with queue := t.queue.filter (fun j => j ≠ (c, idx)) })

/-- The last operation of a host job has ended (R440, R448, R450). (DEDUCED, log entry 104.) -/
def State.jobEnd (s : State) (e c idx : Nat) (img data : List Byte) : State :=
  match s.desc? c idx with
  | none => s.setEngine e Engine.init
  | some d =>
    let r := s.jobResult c d img data
    let s := if r.out.isEmpty then s else s.writeHost d.haddr2 r.out (some (c, idx))
    let s := match r.state with
      | some bs => s.writeHost (d.arg2 1) bs (some (c, idx))
      | none => s
    let s := s.bump (Reg.THC_CNT_JOBS e) 1
    let items := [(8, e), (8, c), (16, d.tag), (32, r.info)]
    let s := if r.status = 1 then s.bump (Reg.THC_CNT_STOP e) 1
      else if r.status = 0x41 then (s.bump (Reg.THC_CNT_CHECK e) 1).event Ev.THC_CHECK items
      else if r.status = 0x42 then (s.bump (Reg.THC_CNT_DATA e) 1).event Ev.THC_DATA items
      else s
    (s.setEngine e Engine.init).finish c idx ⟨r.status, r.cont, false, r.r0, r.r1, 0⟩

/-! ## Chunks (R416, R421, R423, R432) -/

/-- A staging chunk has been inflated, which counts it (R448), and checked; an uncorrectable word of its pages fails the check (R465); a container
header that fails counts as malformed (R432, R450). -/
def State.stageChunkEnd (s : State) (e i k : Nat) : State :=
  match s.staging i with
  | none => s
  | some g =>
    let ws := s.chunkWords g.port (pageList (g.page0 + chunkAt g.bytes k / 4096)
      (ceilDiv (chunkAt g.bytes (k + 1)) 4096 - chunkAt g.bytes k / 4096))
    let bad := ws.any s.bnk.bad.contains
    let s := ws.foldl (fun s w => s.readWord (10 + e) w) s
    match g.chunks.bind (fun _ => (unpackChunk 18 (entFrameBytes g.entry) k (g.bytes.drop (chunkAt g.bytes k))).map (fun r => (r.1 && !bad, r.2))) with
    | none => (s.bump (Reg.THC_CNT_DATA e) 1).chunkFailed i k
    | some (false, _) => ((s.bump (Reg.THC_CNT_CHUNK e) 1).bump (Reg.THC_CNT_CHECK e) 1).chunkFailed i k
    | some (true, bs) =>
      let s := s.bump (Reg.THC_CNT_CHUNK e) 1
      let s := s.setStaging i (some { g with outs := ainsert (aerase g.outs k) k bs })
      State.stageFlush i ((g.chunks.getD 0) + 1) s

/-- An ingest chunk has been compressed. -/
def State.ingestChunkEnd (s : State) (e c idx k : Nat) : State :=
  match s.appendOf c idx with
  | none => s
  | some a =>
    let a := { a with outs := ainsert (aerase a.outs k) k (packChunk (entLevel a.entry) k (slice (k * 2 ^ 18) (2 ^ 18) a.data)) }
    let s := (s.bump (Reg.THC_CNT_CHUNK e) 1).setAppend a
    if a.outs.length = a.chunks then s.appendWrite a else s

/-- The frame of an APPEND has been read from host memory. -/
def State.appendData (s : State) (c idx : Nat) (bytes : List Byte) : State :=
  match s.appendOf c idx with
  | some a => s.setAppend { a with data := bytes }
  | none => s

/-- THC_OPERATION_END (R439). (DEDUCED, log entry 104.) -/
def State.operationEnd (s : State) (e : Nat) : State :=
  if s.thcPaused e then s
  else
    match (s.engine e).work with
    | .host c idx (some img) (some data) =>
      let n := (s.engine e).left
      if n ≤ 1 then (s.jobEnd e c idx img data).thcPause e
      else (s.setEngine e { s.engine e with left := n - 1 }).thcPause e
    | .stage i k => ((s.setEngine e Engine.init).stageChunkEnd e i k).thcPause e
    | .ingest c idx k => ((s.setEngine e Engine.init).ingestChunkEnd e c idx k).thcPause e
    | _ => s

def execThcOperationEnd (e : Fin 2) (s : State) : Res := .next (s.operationEnd e)

/-! ## Registers and self-tests (R447, R449) -/

/-- A write of THC_CFG (R447); on the BC part a 1 in either bit is a rejected value. -/
def State.writeThcCfg (s : State) (v : Word) : State :=
  if s.part = .bc ∧ v.toNat % 4 ≠ 0 then s.event Ev.GBL_REJECT_WRITE []
  else s.setReg Reg.THC_CFG (maskFields Reg.THC_CFG v)

/-- THC_CFG_WRITE. -/
def execThcCfgWrite (v : Word) (s : State) : Res := .next (s.viaReg Reg.THC_CFG v (fun s => s.writeThcCfg v))

/-- A write of THC_BIST of engine e (R449). -/
def State.writeThcBist (s : State) (e : Nat) (v : Word) : State :=
  if fieldOf F.THC_BIST_GO v = 0 then s
  else if s.getF (Reg.THC_ESTAT e) F.THC_ESTAT_STATE ≠ 1 then s.event Ev.THC_BIST_REFUSED [(8, e)]
  else
    let s := (s.setF (Reg.THC_BIST e) F.THC_BIST_GO 1).setF (Reg.THC_BIST e) F.THC_BIST_DONE 0
    s.setEngine e ⟨.bist, 0⟩

/-- THC_BIST_GO (R449). -/
def execThcBistGo (e : Fin 2) (v : Word) (s : State) : Res :=
  .next (s.viaReg (Reg.THC_BIST e) (withField F.THC_BIST_GO 1 v) (fun s => s.writeThcBist e (withField F.THC_BIST_GO 1 v)))

/-- What the self-test of engine e found (R449). -/
def State.thcTested (s : State) (e : Nat) (ok : Bool) : State :=
  let r := Reg.THC_BIST e
  let s := ((s.setF r F.THC_BIST_GO 0).setF r F.THC_BIST_DONE 1).setF r F.THC_BIST_FAIL (b2n (!ok))
  let s := s.setEngine e Engine.init
  if ok then s else (s.event Ev.THC_BIST_FAIL [(8, e)]).clearReady (13 + e)

/-- The self-test of engine e ends (R449). -/
def State.endThcBist (s : State) (e : Nat) (ok : Bool) : State :=
  if s.flag (Reg.THC_BIST e) F.THC_BIST_GO then s.thcTested e ok else s

/-- BIST_END: unit 0 is Swage, 1 and 2 are TH0 and TH1 (R230, R449). -/
def execBistEnd (unit : Fin 3) (ok : Bool) (s : State) : Res :=
  .next (if unit = 0 then s.endSwgBist ok else s.endThcBist (unit.val - 1) ok)

end Sys2Proof.Machine
end

