-- ==== Sys2Proof/Machine/Thermal.lean ====
section
/-! DEFINITION. Sensors, validity, limits, the throttle, refresh levels, the overdrive temperature and the ADC reference (R473 to R490, R215). -/

namespace Sys2Proof.Machine

/-! ## Sensors (R473 to R476) -/

/-- Sensor n's counts. -/
def State.sensor (s : State) (n : Nat) : Sensor := aget (fun _ => Sensor.init) s.thm.sens n
def State.setSensor (s : State) (n : Nat) (x : Sensor) : State :=
  s.onThm (fun h => { h with sens := aset (fun _ => Sensor.init) h.sens n x })

/-- STATE of sensor n (R489): 0 VALID, 1 SUSPECT, 2 UNREADABLE, 3 FAILED. -/
def State.sensState (s : State) (n : Nat) : Nat := s.getF (Reg.THM_SENS n) F.THM_SENS_STATE
def State.valid (s : State) (n : Nat) : Bool := s.sensState n == 0

/-- Set the state of sensor n with its bits in THM_SUSP and THM_FAILED. -/
def State.setSensState (s : State) (n st : Nat) : State :=
  let s := s.setF (Reg.THM_SENS n) F.THM_SENS_STATE st
  let put := fun (s : State) (off : Nat) (b : Bool) =>
    s.setReg off (word (if b then setBit (s.reg off).toNat n else clearBit (s.reg off).toNat n))
  put (put s Reg.THM_SUSP (st == 1)) Reg.THM_FAILED (st == 3)

/-- The data items of an event about sensor n: its index and its reading (R490). (DEDUCED, log entry 108.) -/
def State.sensItems (s : State) (n : Nat) : List (Nat × Nat) := [(8, n), (16, ofSigned 16 (s.sensorTemp n))]

/-- The user trim U_n in 1/16 °C (R512). -/
def State.userTrim (s : State) (n : Nat) : Int :=
  toSigned 16 (s.getF (Reg.CAL_UTS (n / 2)) (if n % 2 = 1 then F.CAL_UTS_U_HI else F.CAL_UTS_U_LO))

/-- T_n of a die sensor from its count (R495). -/
def State.dieTemp (s : State) (n count : Nat) : Int :=
  satS 16 (toSigned 16 (s.reg (Reg.CAL_FSENS_A n)).toNat
    + rneDiv (toSigned 32 (s.reg (Reg.CAL_FSENS_B n)).toNat * count) (2 ^ 24) + s.userTrim n)

/-- The fast sweeps of R475 are in force. -/
def State.fast (s : State) : Bool := s.flag Reg.THM_STAT F.THM_STAT_FAST

/-- Record a die reading: TEMP, RATE and the count of R478. One millisecond before a fast sweep the temperature is the one last read by then: of the
sweep before the last at 1 kHz while the fast sweeps are younger than that (R479). (DESIGN CHOICE, log entry 138.) -/
def State.takeReading (s : State) (n : Nat) (t : Int) : State :=
  let x := s.sensor n
  let before := if s.fast then x.past.getD 15 (x.past.getLastD t) else x.past.headD t
  let past := if s.fast then (t :: x.past).take 16 else t :: List.replicate 15 (x.past.headD t)
  let s := s.setSensor n { x with past := past, hot := if 2048 ≤ t then x.hot + 1 else 0 }
  (s.setF (Reg.THM_SENS n) F.THM_SENS_TEMP (ofSigned 16 t)).setF (Reg.THM_SENS n) F.THM_SENS_RATE (ofSigned 14 (satS 14 (t - before)))

/-- Convert die sensor n (R474): a count outside the fused range makes it FAILED, and it stays so. -/
def State.convert (s : State) (n : Nat) (r : SensorRead) : State :=
  if s.sensState n = 3 then s
  else if r.inRange then s.takeReading n (s.dieTemp n r.count.toNat)
  else (s.setSensState n 3).event Ev.THM_SENSOR_FAIL (s.sensItems n)

/-- The neighbours of die sensor n in the grid of 7 columns and 4 rows (R473, R476). -/
def neighbours (n : Nat) : List Nat :=
  (if n < 7 then [] else [n - 7]) ++ (if n % 7 = 0 then [] else [n - 1]) ++ (if n % 7 = 6 then [] else [n + 1])
    ++ (if n < 21 then [n + 7] else [])

/-- Put `x` in a rising list. -/
def insertI (x : Int) : List Int → List Int
  | [] => [x]
  | y :: t => if x ≤ y then x :: y :: t else y :: insertI x t

/-- Twice the median of a list: the mean of the middle two when their number is even (R476). -/
def median2 (l : List Int) : Int :=
  let r := l.foldr insertI []
  r.getD ((r.length - 1) / 2) 0 + r.getD (r.length / 2) 0

/-- What the comparison of sensor n shows, from the states `v` at the sweep: none without two VALID neighbours, otherwise whether it differs
from their median by more than 6 °C. -/
def State.differs (s : State) (v : List Bool) (n : Nat) : Option Bool :=
  let ns := (neighbours n).filter (fun k => v.getD k false)
  if ns.length < 2 then none
  else some (decide (192 < (2 * s.sensorTemp n - median2 (ns.map s.sensorTemp)).natAbs))

/-- Cross-check die sensor n (R476). -/
def State.crossCheck (v : List Bool) (s : State) (n : Nat) : State :=
  match s.differs v n with
  | none => s
  | some far =>
    let x := s.sensor n
    let x := if far then { x with far := x.far + 1, near := 0 } else { x with far := 0, near := x.near + 1 }
    let s := s.setSensor n x
    if s.sensState n = 0 ∧ 4 ≤ x.far then
      (((s.setSensState n 1).setSensor n { x with far := 0, near := 0, hot := 0 }).bump Reg.THM_CNT_SUSP 1).event Ev.THM_SUSPECT (s.sensItems n)
    else if s.sensState n = 1 ∧ 16 ≤ x.near then
      ((s.setSensState n 0).setSensor n { x with far := 0, near := 0 }).event Ev.THM_SENSOR_BACK (s.sensItems n)
    else s

/-- The sensors of `l` that are VALID. -/
def State.validOf (s : State) (l : List Nat) : List Nat := l.filter s.valid

/-- The hottest of the sensors `l`; the lowest index among equals. -/
def State.hottestOf (s : State) (l : List Nat) : Option Nat :=
  l.foldl (fun b n => match b with
    | none => some n
    | some m => if s.sensorTemp m < s.sensorTemp n then some n else some m) none

def dieSensors : List Nat := List.range 28

/-! ## Throttle (R481, R482) -/

/-- The highest throttle step engaged. -/
def State.throttle (s : State) : Nat := s.getF Reg.THM_STAT F.THM_STAT_STEP

/-- A change of step (R482): THM_THROTTLE with the sensor that caused it, its reading and the new step, and THM_CNT_STEP. -/
def State.setThrottle (s : State) (n sensor : Nat) : State :=
  if s.throttle = n then s
  else
    let s := (s.setF Reg.THM_STAT F.THM_STAT_STEP n).bump Reg.THM_CNT_STEP 1
    let s := s.event Ev.THM_THROTTLE (s.sensItems sensor ++ [(8, n)])
    if n = 0 then s.thcRelease else s

/-- A case of R480 holds. -/
def State.protectCase (s : State) : Bool := s.thm.suspectHot || s.flag Reg.THM_STAT F.THM_STAT_FEW

/-- THR in 1/16 °C. -/
def State.thrLimit (s : State) : Int := 16 * (s.getF Reg.THM_LIMIT F.THM_LIMIT_THR : Int)

/-- The throttle condition (R482). -/
def State.throttleCond (s : State) : Bool := decide (s.thrLimit ≤ s.hottest) || s.protectCase

/-- The release condition (R482). -/
def State.releaseCond (s : State) : Bool :=
  decide (s.hottest ≤ s.thrLimit - 16 * (s.getF Reg.THM_LIMIT F.THM_LIMIT_HYST : Int))
    && !s.flag Reg.THM_STAT F.THM_STAT_RTHR && !s.protectCase

/-- Engage the steps that the conditions call for at once: 1 when the throttle condition first holds, 1 to 3 for the rate throttle and
the cases of R480. `sensor` is the one that caused it. -/
def State.evalThrottle (s : State) (sensor : Nat) : State :=
  let cond := s.throttleCond
  let was := s.thm.cond
  let s := s.onThm (fun h => { h with cond := cond })
  if (s.protectCase || s.flag Reg.THM_STAT F.THM_STAT_RTHR) ∧ s.throttle < 3 then s.setThrottle 3 sensor
  else if cond ∧ !was ∧ s.throttle = 0 then s.setThrottle 1 sensor
  else s

/-! ## Limits (R478 to R480) -/

/-- HOT, HOT_N and the warn limit, on the hottest VALID sensor (R478). (DEDUCED, log entry 108.) -/
def State.evalWarn (s : State) : State :=
  match s.hottestOf (s.validOf (List.range 32)) with
  | none => s
  | some n =>
    let t := s.sensorTemp n
    let s := (s.setF Reg.THM_STAT F.THM_STAT_HOT (ofSigned 16 t)).setF Reg.THM_STAT F.THM_STAT_HOT_N n
    let w : Int := 16 * (s.getF Reg.THM_LIMIT F.THM_LIMIT_WARN : Int)
    if !s.flag Reg.THM_STAT F.THM_STAT_WARN ∧ w ≤ t then
      ((s.setF Reg.THM_STAT F.THM_STAT_WARN 1).bump Reg.THM_CNT_WARN 1).event Ev.THM_WARN (s.sensItems n)
    else if t ≤ w - 48 then s.setF Reg.THM_STAT F.THM_STAT_WARN 0
    else s

/-- The rate of sensor n in 1/16 °C per ms. (DEDUCED, log entry 108.) -/
def State.rate (s : State) (n : Nat) : Int := toSigned 14 (s.getF (Reg.THM_SENS n) F.THM_SENS_RATE)

/-- The VALID die sensor with the largest rate (R479). -/
def State.fastestRise (s : State) : Option Nat :=
  (s.validOf dieSensors).foldl (fun b n => match b with
    | none => some n
    | some m => if s.rate m < s.rate n then some n else some m) none

/-- One rate condition after a sweep: whether it holds, and the sweeps at or below its limit (R479). -/
def rateStep (holds : Bool) (clear : Nat) (above : Bool) : Bool × Nat :=
  if above then (true, 0)
  else if holds && decide (8 ≤ clear + 1) then (false, 0)
  else (holds, clear + 1)

/-- The rate limits (R479). -/
def State.evalRates (s : State) : State :=
  let n := s.fastestRise.getD 0
  let r : Int := match s.fastestRise with
    | some n => s.rate n
    | none => 0
  let warn := s.flag Reg.THM_STAT F.THM_STAT_RWARN
  let a := rateStep warn s.thm.warnClear (decide (4 * (s.getF Reg.THM_RLIM F.THM_RLIM_RWARN : Int) < r))
  let b := rateStep (s.flag Reg.THM_STAT F.THM_STAT_RTHR) s.thm.thrClear (decide (4 * (s.getF Reg.THM_RLIM F.THM_RLIM_RTHR : Int) < r))
  let s := s.onThm (fun h => { h with warnClear := a.2, thrClear := b.2 })
  let s := (s.setF Reg.THM_STAT F.THM_STAT_RWARN (b2n a.1)).setF Reg.THM_STAT F.THM_STAT_RTHR (b2n b.1)
  if a.1 && !warn then s.event Ev.THM_RATE_WARN (s.sensItems n) else s

/-- The two cases of R480; `v` are the VALID states before the sweep. -/
def State.evalCases (s : State) (v : List Bool) : State :=
  let hot := dieSensors.find? (fun n => s.sensState n == 1 && decide (2048 ≤ s.sensorTemp n))
  let was := s.thm.suspectHot
  let s := s.onThm (fun h => { h with suspectHot := hot.isSome })
  let s := match hot with
    | some n => if was then s else s.alarm 7 (s.sensItems n)
    | none => s
  let few := decide ((s.validOf dieSensors).length < 14)
  let wasFew := s.flag Reg.THM_STAT F.THM_STAT_FEW
  let s := s.setF Reg.THM_STAT F.THM_STAT_FEW (b2n few)
  if few && !wasFew then s.alarm 8 (s.sensItems ((dieSensors.find? (fun n => v.getD n false && !s.valid n)).getD 0)) else s

/-- FAST sweeps begin when the hottest valid die sensor reaches WARN − 8 °C (R475). -/
def State.evalFast (s : State) : State :=
  match s.hottestOf (s.validOf dieSensors) with
  | some n => if 16 * ((s.getF Reg.THM_LIMIT F.THM_LIMIT_WARN : Int) - 8) ≤ s.sensorTemp n then s.setF Reg.THM_STAT F.THM_STAT_FAST 1 else s
  | none => s

/-- THM_BAND_DRIFT for every port whose sensor moved more than DRIFT from T_cal (R485). (DEDUCED, log entry 110.) -/
def State.evalBands (s : State) : State :=
  s.thm.bands.foldl (fun s e =>
    let d := (s.sensorTemp (nearSensor e.1) - e.2.tcal).natAbs
    if !e.2.said ∧ 16 * s.getF Reg.THM_BAND F.THM_BAND_DRIFT < d then
      (s.onThm (fun h => { h with bands := aset (fun _ => Band.init) h.bands e.1 { e.2 with said := true } })).event Ev.THM_BAND_DRIFT ((8, e.1) :: s.sensItems (nearSensor e.1))
    else s) s

/-- The sensor that the throttle event names: the SUSPECT one of R480, the fastest or the hottest VALID one. (DEDUCED, log entry 108.) -/
def State.culprit (s : State) : Nat :=
  match dieSensors.find? (fun n => s.sensState n == 1 && decide (2048 ≤ s.sensorTemp n)) with
  | some n => n
  | none =>
    if s.flag Reg.THM_STAT F.THM_STAT_RTHR then s.fastestRise.getD 0 else s.getF Reg.THM_STAT F.THM_STAT_HOT_N

/-- STEP_T has passed since the last change: the next step engages, or the highest one releases (R482). -/
def State.throttleTimer (s : State) : State :=
  let hot := s.culprit
  if s.throttleCond then
    if s.throttle ≠ 0 ∧ s.throttle < s.getF Reg.THM_STEP F.THM_STEP_MAX then s.setThrottle (s.throttle + 1) hot else s
  else if s.releaseCond ∧ s.throttle ≠ 0 then s.setThrottle (s.throttle - 1) hot
  else s

/-- Shutdown (R478): a VALID sensor of `l` read 128 °C or more twice in a row. -/
def State.evalShutdown (s : State) (l : List Nat) : State :=
  if (s.validOf l).any (fun n => decide (2 ≤ (s.sensor n).hot)) then s.thermalShutdown else s

/-! ## Refresh levels (R215, R216) -/

/-- The refresh level after level `lvl` at temperature `t` in 1/16 °C. -/
def refreshLevel (lvl : Nat) (t : Int) : Nat :=
  if 1680 ≤ t ∨ (lvl = 2 ∧ 1632 ≤ t) then 2
  else if 1360 ≤ t ∨ (1 ≤ lvl ∧ 1312 ≤ t) then 1
  else 0

/-- Set the refresh level of stack k from its sensors; a stack whose controller is off sets its own. (DESIGN CHOICE, log entry 69.) -/
def State.evalRefresh (s : State) (k : Nat) : State :=
  if !s.isOn (23 + k) then s
  else
    let f := if k = 0 then F.FST_STAT_REF0 else F.FST_STAT_REF1
    let old := s.getF Reg.FST_STAT f
    let new := match s.hottestOf (s.validOf [28 + 2 * k, 29 + 2 * k]) with
      | some n => refreshLevel old (s.sensorTemp n)
      | none => 2
    if new = old then s else (s.setF Reg.FST_STAT f new).event Ev.FST_REFRESH_LEVEL [(8, k), (8, new)]

/-! ## The periodic events -/

/-- THM runs (R475). -/
def State.thmRuns (s : State) : Bool := s.isOn 33 && !s.pwr.dormant

/-- What follows every reading. (DEDUCED, log entry 108.) -/
def State.evalLimits (s : State) (l : List Nat) : State := (s.evalWarn.evalThrottle s.evalWarn.culprit).evalShutdown l

/-- One sweep over the die sensors (R474 to R480, R485). -/
def State.sweep (s : State) (reads : List SensorRead) : State :=
  let before := dieSensors.map s.valid
  let s := (reads.zipIdx.filter (fun e => decide (e.2 < 28))).foldl (fun s e => s.convert e.2 e.1) s
  let v := dieSensors.map s.valid
  let s := dieSensors.foldl (State.crossCheck v) s
  ((((s.evalCases before).evalRates).evalFast).evalBands).evalLimits dieSensors

/-- Read stack sensor 28 + i (R473, R495). -/
def State.readStack (s : State) (i : Nat) (r : StackRead) : State :=
  let n := 28 + i
  if !r.readable || !s.isOn (23 + i / 2) then (s.setSensState n 2).setSensor n Sensor.init
  else
    let t := satS 16 (16 * toSigned 8 r.degrees.toNat + s.userTrim n)
    let s := s.setSensState n 0
    (s.setSensor n { s.sensor n with hot := if 2048 ≤ t then (s.sensor n).hot + 1 else 0 }).setF (Reg.THM_SENS n) F.THM_SENS_TEMP (ofSigned 16 t)

/-- Compare the two sensors of stack k (R477). -/
def State.compareStack (s : State) (k : Nat) : State :=
  let a := 28 + 2 * k
  let d := aget (fun _ => 0) s.thm.diff k
  let far := s.valid a && s.valid (a + 1) && decide (96 < (s.sensorTemp a - s.sensorTemp (a + 1)).natAbs)
  let s := s.onThm (fun h => { h with diff := aset (fun _ => 0) h.diff k (if far then d + 1 else 0) })
  if far ∧ d + 1 = 4 then s.event Ev.THM_STACK_DIFF (s.sensItems (if s.sensorTemp a < s.sensorTemp (a + 1) then a + 1 else a)) else s

/-- The sensors of both stacks are read, and compared (R473, R477). -/
def State.stackSensors (s : State) (reads : List StackRead) : State :=
  if !s.thmRuns then s
  else
    let s := (reads.zipIdx.filter (fun e => decide (e.2 < 4))).foldl (fun s e => s.readStack e.2 e.1) s
    let s := ((s.compareStack 0).compareStack 1)
    ((s.evalRefresh 0).evalRefresh 1).evalLimits [28, 29, 30, 31]

/-- SWEEP_RATE_RESTORE: the hottest valid die sensor has stayed below WARN − 9 °C for 100 ms (R475). -/
def execSweepRateRestore (s : State) : Res :=
  match s.hottestOf (s.validOf dieSensors) with
  | some n =>
    .next (if s.sensorTemp n < 16 * ((s.getF Reg.THM_LIMIT F.THM_LIMIT_WARN : Int) - 9) then s.setF Reg.THM_STAT F.THM_STAT_FAST 0 else s)
  | none => .next s

/-! ## The overdrive temperature (R483, R488) -/

/-- The temperatures of the ACTIVE drivers that have sent one. -/
def State.driverTemps (s : State) : List Int :=
  ((s.trained.filter (fun g => s.drvState g == 2)).filterMap (fun g => (s.driver g).temp))

/-- The source value of θ and its validity. (DEDUCED, log entry 109.) -/
def State.odtSource (s : State) : Option Int :=
  let src := s.getF Reg.THM_ODT F.THM_ODT_SRC
  if src = 0 then
    if s.trained.any (fun g => s.drvState g == 2 && (s.driver g).fresh) then
      some (trnDiv (s.driverTemps.foldl (· + ·) 0) s.driverTemps.length)
    else none
  else if src = 1 then (s.hottestOf (s.validOf dieSensors)).map s.sensorTemp
  else
    let life := s.getF Reg.THM_ODT F.THM_ODT_HOST_TO
    if life = 0 ∨ (s.thm.hostWritten ∧ s.thm.hostAge ≤ life) then some (toSigned 16 (s.getF Reg.THM_ODT_HOST F.THM_ODT_HOST_T)) else none

/-- ODT_COMPUTE: every 1 ms. (DEDUCED, log entry 109.) -/
def execOdtCompute (s : State) : Res :=
  if !s.thmRuns then .next s
  else
    let s := s.onThm (fun h => { h with hostAge := min (h.hostAge + 1) 256 })
    let v := s.odtSource
    let s := (List.range 24).foldl (fun s g => if (s.driver g).fresh then s.setDriver g { s.driver g with fresh := false } else s) s
    match v with
    | some t =>
      let th := satS 16 (t + toSigned 16 (s.getF Reg.THM_ODT F.THM_ODT_OFFSET))
      .next ((s.setF Reg.THM_ODT_STAT F.THM_ODT_STAT_VALID 1).setF Reg.THM_ODT_STAT F.THM_ODT_STAT_THETA (ofSigned 16 th))
    | none => .next (s.setF Reg.THM_ODT_STAT F.THM_ODT_STAT_VALID 0)

/-- A write of THM_ODT_HOST (R488). (DEDUCED, log entry 109.) -/
def State.writeOdtHost (s : State) (v : Word) : State :=
  (s.setReg Reg.THM_ODT_HOST (maskFields Reg.THM_ODT_HOST v)).onThm (fun h => { h with hostWritten := true, hostAge := 0 })

/-- THM_ODT_HOST_WRITE. -/
def execThmOdtHostWrite (v : Word) (s : State) : Res := .next (s.viaReg Reg.THM_ODT_HOST v (fun s => s.writeOdtHost v))

/-! ## The ADC reference (R484, R495) -/

/-- gF + gU + c and oF + oU in force (R495). -/
def State.adcGain (s : State) : Int :=
  toSigned 16 (s.reg Reg.CAL_FADC_GAIN).toNat + toSigned 16 (s.getF Reg.CAL_UADC F.CAL_UADC_GAIN) + s.thm.adcC
def State.adcOff (s : State) : Int :=
  toSigned 16 (s.reg Reg.CAL_FADC_OFF).toNat + toSigned 16 (s.getF Reg.CAL_UADC F.CAL_UADC_OFF)

/-- CAL_EADC follows the effective values (R495, R513). -/
def State.syncEadc (s : State) : State :=
  (s.setF Reg.CAL_EADC F.CAL_EADC_GAIN (ofSigned 16 (satS 16 s.adcGain))).setF Reg.CAL_EADC F.CAL_EADC_OFF (ofSigned 16 (satS 16 s.adcOff))

/-- ADC_REF_CORRECT: c from sensor 13 (R484, R495). -/
def execAdcRefCorrect (s : State) : Res :=
  if !s.thmRuns then .next s
  else
    let c := rneDiv (toSigned 16 (s.reg Reg.CAL_FADC_TC).toNat * (s.sensorTemp 13 - 400)) 16
    .next ((s.onThm (fun h => { h with adcC := c })).syncEadc)

end Sys2Proof.Machine
end

