-- ==== Sys2Proof/Machine/Touchmark.lean ====
section
/-! DEFINITION. The Touchmark usage meter: parameters, log, measurement, commands, the port, the relay (R543 to R572). -/

namespace Sys2Proof.Machine

def State.onTmk (s : State) (f : MeterState → MeterState) : State := { s with tmk := f s.tmk }

/-- Replace the requests that the relay holds, and the response it has (R569). -/
def State.setRelays (s : State) (l : List (Nat × Nat × List Byte)) (r : Option (List Byte)) : State :=
  { s with tmk := { s.tmk with relays := l, relayResp := r } }

/-! ## Frames (R145, R567, R568) -/

/-- One byte of the CRC-16 of R145. -/
def crc16Bits : Nat → Nat → Nat
  | 0, c => c
  | k + 1, c => crc16Bits k (if c.testBit 15 then (2 * c % 65536) ^^^ 0x8BB7 else 2 * c % 65536)

/-- CRC-16 of R145. -/
def crc16 (bs : List Byte) : Nat := bs.foldl (fun c b => crc16Bits 8 (c ^^^ (256 * b.toNat))) 0

/-- A frame: its first two bytes, LEN, payload, CRC. -/
def tmkFrame (first seq : Nat) (payload : List Byte) : List Byte :=
  let b := [BitVec.ofNat 8 first, BitVec.ofNat 8 seq] ++ leBytes 2 payload.length ++ payload
  b ++ beBytes 2 (crc16 b)

/-- Size, LEN and CRC of a request frame are right. -/
def frameOk (f : List Byte) : Bool :=
  decide (6 ≤ f.length) && decide (f.length ≤ 4096) && leAt 2 2 f + 6 == f.length
    && beNat (f.drop (f.length - 2)) == crc16 (f.take (f.length - 2))

def framePayload (f : List Byte) : List Byte := slice 4 (f.length - 6) f

/-- The payload length that CMD `cmd` takes (R568). -/
def lenOk (cmd n : Nat) : Bool :=
  if cmd = 3 then n == 4
  else if cmd = 5 then n == 256
  else if cmd = 6 then n == 4
  else if cmd = 7 then n == 8
  else if cmd = 8 then decide (n ≤ 40)
  else if cmd = 10 then n == 1
  else (1 ≤ cmd && cmd ≤ 9) && n == 0

/-- The status of a request frame that is not served: BAD_FRAME or BAD_CMD. -/
def badRequest (f : List Byte) : Option Nat :=
  if !frameOk f then some 1 else if lenOk (leAt 0 1 f) (f.length - 6) then none else some 2

/-- The size of the response frame that a request can have (R569). -/
def responseSize (f : List Byte) : Nat :=
  if f.length < 6 then 6
  else match leAt 0 1 f with
  | 1 => 54
  | 2 => 70
  | 3 => 6 + 64 * leAt 6 2 f
  | 4 => 262
  | 5 => 14
  | 6 => 14
  | 7 => 22
  | 8 => 8
  | 9 => 22
  | 10 => 14
  | _ => 6

/-! ## The parameter block (R551 to R554) -/

/-- A block from its FLAGS, PGEN, AUDIT, METER_ID, the bytes 0x18 to 0x47, G_REF, XTAL and the bytes 0x50 to 0x58. -/
def paramBlock (flags pgen audit id : Nat) (mid : List Byte) (gref xtal : Nat) (tail : List Byte) : List Byte :=
  let b := [0x41, 0x5A, 0x54, 0x4D] ++ leBytes 2 1 ++ leBytes 2 flags ++ leBytes 4 pgen ++ leBytes 4 audit ++ leBytes 8 id
    ++ mid ++ leBytes 4 gref ++ leBytes 4 xtal ++ tail ++ List.replicate 163 0
  b ++ leBytes 4 (crc32c b)

/-- The ROM defaults (R554). -/
def defaultBlock (fuse : Bool) (id : Nat) : List Byte :=
  paramBlock (b2n fuse) 0 0 id
    (leBytes 4 1000000 ++ leBytes 4 1000000 ++ leBytes 4 65536 ++ leBytes 4 65536 ++ List.replicate 32 0) 0 0
    (leBytes 4 3600 ++ leBytes 4 1000 ++ [3])

/-- MAGIC, PVER and PCRC of a slot are right. -/
def blockValid (b : List Byte) : Bool :=
  b.length == 256 && b.take 4 == [0x41, 0x5A, 0x54, 0x4D] && leAt 4 2 b == 1 && leAt 0xFC 4 b == crc32c (b.take 0xFC)

/-- The active block. -/
def State.tmkBlock (s : State) : List Byte :=
  if s.tmk.active = 1 then s.tmk.slotA else if s.tmk.active = 2 then s.tmk.slotB else defaultBlock s.tmk.fuse s.dsn

/-- Fields of the active block. -/
def State.tmkU (s : State) (o : Nat) : Nat := leAt o 4 s.tmkBlock
def State.tmkS (s : State) (o : Nat) : Int := toSigned 32 (leAt o 4 s.tmkBlock)

def inRange (lo hi : Int) (x : Int) : Bool := decide (lo ≤ x) && decide (x ≤ hi)

/-- The writable fields of a WRITE_PARAM payload lie in their ranges and its reserved bytes are 0 (R551). -/
def paramOk (b : List Byte) : Bool :=
  let u (o : Nat) : Int := leAt o 4 b
  let g (o : Nat) : Int := toSigned 32 (leAt o 4 b)
  [0x18, 0x1C].all (fun o => inRange 10 1000000 (u o))
    && [0x20, 0x24].all (fun o => inRange 65536 65536000 (u o))
    && [0x28, 0x2C, 0x30, 0x34].all (fun o => inRange (-1048576) 1048576 (g o))
    && [0x38, 0x3C].all (fun o => inRange (-500000) 500000 (g o))
    && [0x40, 0x44].all (fun o => inRange (-50000) 50000 (g o))
    && inRange 60 2678400 (u 0x50) && inRange 1 100000 (u 0x54) && inRange 1 3 (leAt 0x58 1 b)
    && (slice 0x59 163 b).all (· == 0)

/-! ## The log (R562 to R565) -/

/-- A record still without LSEQ and MT: TYPE, RFLAGS and body. -/
structure LogRec where
  kind : Nat
  rflags : Nat
  body : List Byte
  deriving DecidableEq, Repr

/-- The 64 bytes of a record (R562). -/
def recBytes (r : LogRec) (lseq mt : Nat) : List Byte :=
  let b := [BitVec.ofNat 8 r.kind, BitVec.ofNat 8 r.rflags] ++ leBytes 2 lseq ++ leBytes 8 mt ++ (r.body ++ List.replicate 48 0).take 48
  b ++ leBytes 4 (crc32c b)

/-- A slot of the log as stored. -/
def logSlot (m : MeterState) (i : Nat) : List Byte := aget (fun _ => List.replicate 64 0xFF) m.log (i % 4096)

/-- The slot holds a valid record. -/
def recValid (b : List Byte) : Bool := b.length == 64 && leAt 0x3C 4 b == crc32c (b.take 0x3C) && !(b.all (· == 0xFF))

/-- Program the records at the head, PROG_REJECT records first; slot 0 of a sector erases its sector, and a slot that is not erased is
passed over (R564, R565). (DEDUCED, log entry 113.) -/
def logWrite : Nat → List LogRec → List LogRec → MeterState → MeterState
  | 0, _, _, m => m
  | n + 1, rej, recs, m =>
    match rej ++ recs with
    | [] => m
    | r :: _ =>
      let m := if m.head % 64 = 0 then { m with log := aclear m.log m.head 64 } else m
      if (logSlot m m.head).all (· == 0xFF) then
        let m := { m with
          log := aset (fun _ => List.replicate 64 0xFF) m.log m.head (recBytes r m.lseq m.mt)
          head := (m.head + 1) % 4096, lseq := (m.lseq + 1) % 65536 }
        if rej.isEmpty then logWrite n [] (recs.drop 1) m else logWrite n (rej.drop 1) recs m
      else logWrite n (rej ++ [⟨8, 0, leBytes 2 m.head⟩]) recs { m with head := (m.head + 1) % 4096 }

/-- Append records to the log. (DEDUCED, log entry 113.) -/
def State.tmkLog (s : State) (recs : List LogRec) : State := s.onTmk (logWrite 200 [] recs)

/-- Whether LSEQ `a` is newer than `b`. -/
def seqNewer (a b : Nat) : Bool :=
  let d := (a + 65536 - b) % 65536
  decide (1 ≤ d) && decide (d < 32768)

/-- The valid records of the kinds `p`, with their slots. -/
def validRecs (m : MeterState) (p : Nat → Bool) : List (Nat × List Byte) :=
  m.log.filter (fun e => recValid e.2 && p (leAt 0 1 e.2))

/-- The newest or the oldest of some records. -/
def pickRec (newest : Bool) (l : List (Nat × List Byte)) : Option (Nat × List Byte) :=
  l.foldl (fun b e => match b with
    | none => some e
    | some d => if seqNewer (leAt 2 2 e.2) (leAt 2 2 d.2) == newest then some e else some d) none

/-! ## Writing the block (R553, R556) -/

/-- The highest AUDIT found in the log (R554). -/
def logAudit (m : MeterState) : Nat :=
  (validRecs m (fun k => k == 1 || k == 4)).foldl (fun n e => max n (leAt (if leAt 0 1 e.2 = 1 then 0x0C + 32 else 0x0C + 4) 4 e.2)) 0

/-- AUDIT of the next block. -/
def State.nextAudit (s : State) : Nat :=
  if !s.tmk.fuse then leAt 0x0C 4 s.tmkBlock
  else if s.tmk.active = 0 then logAudit s.tmk + 1
  else (leAt 0x0C 4 s.tmkBlock + 1) % 2 ^ 32

/-- Write a block into the slot that is not active; none if its storage fails twice (R553). (DEDUCED, log entry 115.) -/
def State.storeBlock (s : State) (ok : Bool) (audit : Nat) (mid : List Byte) (gref xtal : Nat) (tail : List Byte) : Option State :=
  let b := paramBlock (b2n s.tmk.fuse) ((leAt 8 4 s.tmkBlock + 1) % 2 ^ 32) audit s.dsn mid gref xtal tail
  if !ok then none
  else some (s.onTmk (fun m =>
    if m.active = 1 then { m with slotB := b, active := 2, flags := setBit m.flags 1 }
    else { m with slotA := b, active := 1, flags := setBit m.flags 1 }))

/-- The body of a PARAM_CHANGE record for the active block. -/
def State.paramRec (s : State) (rflags source kind : Nat) : LogRec :=
  let b := s.tmkBlock
  ⟨4, rflags, slice 8 4 b ++ slice 0x0C 4 b ++ slice 0xFC 4 b ++ [BitVec.ofNat 8 source, BitVec.ofNat 8 kind]⟩

/-- PGEN and AUDIT of the active block, as a response. -/
def State.genAudit (s : State) : List Byte := slice 8 8 s.tmkBlock

/-! ## Measurement (R545 to R548) -/

/-- V_k × 2^64 in nV (R546): the offsets of the fields of channel n lie 4n or 8n on. -/
def State.sampleV (s : State) (n : Nat) (raw : BitVec 32) : Int :=
  let v := clampI (-1000000000) 1000000000 (toSigned 32 raw.toNat)
  v * s.tmkU (0x20 + 4 * n) * (2 ^ 24 + s.tmkS (0x2C + 8 * n)) * (2 ^ 24 + s.tmkS 0x48) - s.tmkS (0x40 + 4 * n) * 1000 * 2 ^ 64

/-- I_k × 2^48 × RSH, with RSH in µΩ, in mA (R546). -/
def State.sampleI (s : State) (n : Nat) (raw : BitVec 32) : Int :=
  let i := clampI (-50000000) 50000000 (toSigned 32 raw.toNat)
  (i - s.tmkS (0x38 + 4 * n)) * (2 ^ 24 + s.tmkS (0x28 + 8 * n)) * (2 ^ 24 + s.tmkS 0x48)

/-- The energy of a second of channel n in nJ (R546). (DEDUCED, log entry 114.) -/
def State.secondEnergy (s : State) (n : Nat) (l : List (BitVec 32 × BitVec 32)) : Int :=
  (l.foldl (fun a x => a + s.sampleV n x.2 * s.sampleI n x.1) 0) / ((2 ^ 112 * 4096000 * s.tmkU (0x18 + 4 * n) : Nat) : Int)

/-- The mean of V_k over the second reaches V_LIT on channel n, if LIT_CH names it (R548). -/
def State.channelLit (s : State) (n : Nat) (l : List (BitVec 32 × BitVec 32)) : Bool :=
  bit (leAt 0x58 1 s.tmkBlock) n && !l.isEmpty
    && decide (((s.tmkU 0x54 * 1000000 * 2 ^ 64 * l.length : Nat) : Int) ≤ l.foldl (fun a x => a + s.sampleV n x.2) 0)

/-- Whole millijoules move from the accumulator into the figure, which is never negative (R546): figure and remainder.
(DEDUCED, log entry 114.) -/
def moveEnergy (e : Nat) (acc : Int) : Nat × Int :=
  let t := (e : Int) * 1000000 + acc
  let e' := (max 0 (t / 1000000)).toNat
  (e', t - e' * 1000000)

/-- A sample beyond full scale (R545). -/
def overRange (x : MeterSample) : Bool :=
  [x.i0, x.i1].any (fun i => decide (50000000 < (toSigned 32 i.toNat).natAbs)) || [x.v0, x.v1].any (fun v => decide (1000000000 < (toSigned 32 v.toNat).natAbs))

/-- The wall-clock estimate (R560). -/
def MeterState.estimate (m : MeterState) : Option Nat := m.wall.map (fun o => ((m.mt : Int) + o).toNat)

/-- UNSEALED and the flags so far (R563). -/
def MeterState.closeFlags (m : MeterState) : Nat := if m.fuse then m.flags else setBit m.flags 3

/-- Close the period (R558, R559, R552). -/
def State.closePeriod (s : State) : State :=
  let m := s.tmk
  let b := s.tmkBlock
  let s := s.tmkLog [⟨1, m.closeFlags, leBytes 4 m.k ++ leBytes 8 m.e0 ++ leBytes 8 m.e1 ++ leBytes 4 m.lit
    ++ leBytes 8 (m.estimate.getD 0) ++ slice 0x0C 4 b ++ slice 8 4 b⟩]
  let p := leAt 0x50 4 b
  s.onTmk (fun m => { m with
    k := (m.k + 1) % 2 ^ 32, e0 := 0, e1 := 0, lit := 0
    flags := b2n (m.active == 0) + 2 * b2n (p != m.periodS)
    periodS := p, bound := m.bound + p })

/-- A meter second (R546 to R549, R558). -/
def State.meterSecond (s : State) (samples : List MeterSample) : State :=
  if !s.tmk.powered then s
  else
    let c0 := samples.map (fun x => (x.i0, x.v0))
    let c1 := samples.map (fun x => (x.i1, x.v1))
    let n0 := s.secondEnergy 0 c0
    let n1 := s.secondEnergy 1 c1
    let r0 := moveEnergy s.tmk.e0 (s.tmk.acc0 + n0)
    let r1 := moveEnergy s.tmk.e1 (s.tmk.acc1 + n1)
    let lit := s.channelLit 0 c0 || s.channelLit 1 c1
    let s := s.onTmk (fun m => { m with
      e0 := r0.1, acc0 := r0.2, e1 := r1.1, acc1 := r1.2, p0 := trnDiv n0 1000000, p1 := trnDiv n1 1000000
      lit := m.lit + b2n lit
      flags := if samples.any overRange then setBit m.flags 4 else m.flags
      mt := m.mt + 1 })
    if s.tmk.bound ≤ s.tmk.mt then s.closePeriod else s

/-- METER_SECOND. -/
def execMeterSecond (samples : List MeterSample) (s : State) : Res := .next (s.meterSecond samples)

/-! ## Power of the meter (R550, R553, R554, R564) -/

/-- VDD_TMK_DROP: POWER_DOWN is written with the partial figures if the supply is held long enough, and the meter stops. -/
def execVddTmkDrop (r : PowerCut) (s : State) : Res :=
  if !s.tmk.powered then .next s
  else
    let m := s.tmk
    let s := match r with
      | .held => s.tmkLog [⟨3, 0, leBytes 4 m.k ++ leBytes 8 m.e0 ++ leBytes 8 m.e1 ++ leBytes 4 m.lit⟩]
      | .cut bs => if bs.length = 64 then s.onTmk (fun m => { m with log := aset (fun _ => List.replicate 64 0xFF) m.log m.head bs }) else s
    .next (s.onTmk (fun m => { m with powered := false, resp := none, relayResp := none, gref := none, xtal := none, wall := none }))

/-- The active block at power-up: the valid slot of higher PGEN. -/
def activeSlot (a b : List Byte) : Nat :=
  if blockValid a then
    if blockValid b then
      let d := (leAt 8 4 b + 2 ^ 32 - leAt 8 4 a) % 2 ^ 32
      if 1 ≤ d ∧ d < 2 ^ 31 then 2 else 1
    else 1
  else if blockValid b then 2 else 0

/-- Where MT, the period and the figures go on from (R550): MT of the record, k, E0, E1, LIT, and whether there was no checkpoint.
(DEDUCED, log entry 112.) -/
def resumePoint (m : MeterState) : Nat × Nat × Nat × Nat × Nat × Bool :=
  let any := pickRec true (validRecs m (fun _ => true))
  match any with
  | none => (0, 0, 0, 0, 0, true)
  | some last =>
    let mt := leAt 4 8 last.2
    match pickRec true (validRecs m (fun k => k == 1 || k == 3)) with
    | none => (mt, 0, 0, 0, 0, true)
    | some p =>
      let k := leAt 0x0C 4 p.2
      if leAt 0 1 p.2 = 3 then (mt, k, leAt 0x10 8 p.2, leAt 0x18 8 p.2, leAt 0x20 4 p.2, false) else (mt, k + 1, 0, 0, 0, true)

/-- VDD_TMK_POWER_UP (R550, R553, R554, R564). (DEDUCED, log entries 112 and 115.) -/
def State.meterUp (s : State) : State :=
  if s.tmk.powered then s
  else
    let a := activeSlot s.tmk.slotA s.tmk.slotB
    let s := s.onTmk (fun m => { m with powered := true, active := a })
    let r := resumePoint s.tmk
    let last := pickRec true (validRecs s.tmk (fun _ => true))
    let p := s.tmkU 0x50
    let begun := match pickRec true (validRecs s.tmk (fun k => k == 1)) with
      | some e => leAt 4 8 e.2
      | none => 0
    let s := s.onTmk (fun m => { m with
      head := match last with
        | some e => (e.1 + 1) % 4096
        | none => 0
      lseq := match last with
        | some e => (leAt 2 2 e.2 + 1) % 65536
        | none => 0
      mt := match last with
        | some _ => r.1 + 1
        | none => 0
      k := r.2.1, e0 := r.2.2.1, e1 := r.2.2.2.1, lit := r.2.2.2.2.1, acc0 := 0, acc1 := 0, p0 := 0, p1 := 0
      flags := 1, periodS := p, bound := begun + p, lastSeq := 0 })
    let s := s.tmkLog [⟨2, b2n r.2.2.2.2.2 + 2 * b2n (a == 0), leBytes 8 r.1⟩]
    match pickRec true (validRecs s.tmk (fun k => k == 4 || k == 5)) with
    | some e =>
      let d := (leAt 8 4 s.tmkBlock + 2 ^ 32 - leAt 0x0C 4 e.2) % 2 ^ 32
      if a ≠ 0 ∧ 1 ≤ d ∧ d < 2 ^ 31 then s.tmkLog [s.paramRec 1 0 0] else s
    | none => s

/-- VDD_TMK_POWER_UP. -/
def execVddTmkPowerUp (s : State) : Res := .next s.meterUp

/-! ## Commands (R568) -/

/-- An answer: the state after it, STATUS and the payload. -/
abbrev MeterAns := State × Nat × List Byte

def State.ansIdent (s : State) : MeterAns :=
  let b := s.tmkBlock
  let m := s.tmk
  let oldest := match pickRec false (validRecs m (fun _ => true)) with
    | some e => e.1
    | none => m.head
  let flags := b2n m.fuse + 2 * b2n (m.active == 0) + 4 * b2n (leAt 0x48 4 b != 0) + 8 * b2n (leAt 0x4C 4 b != 0)
  (s, 0, leBytes 8 s.dsn ++ leBytes 4 Config.meterRom ++ leBytes 4 flags ++ slice 8 8 b ++ leBytes 8 m.mt ++ leBytes 2 m.head
    ++ leBytes 2 oldest ++ leBytes 2 m.lseq ++ leBytes 2 0 ++ slice 0xFC 4 b ++ leBytes 4 0)

/-- DEDUCED, log entry 116. -/
def State.ansNow (s : State) : MeterAns :=
  let m := s.tmk
  (s, 0, leBytes 8 m.mt ++ leBytes 4 m.k ++ leBytes 4 0 ++ leBytes 8 m.e0 ++ leBytes 8 m.e1 ++ leBytes 4 m.lit
    ++ leBytes 4 (ofSigned 32 m.p0) ++ leBytes 4 (ofSigned 32 m.p1) ++ leBytes 4 m.closeFlags ++ leBytes 8 (m.estimate.getD 0) ++ leBytes 8 0)

def State.ansLog (s : State) (pl : List Byte) : MeterAns :=
  let first := leAt 0 2 pl
  let n := leAt 2 2 pl
  if 4095 < first ∨ n < 1 ∨ 63 < n then (s, 3, [])
  else (s, 0, (List.range n).flatMap (fun i => logSlot s.tmk (first + i)))

/-- WRITE_PARAM (R551 to R553, R556): the writable fields of the payload, everything else the meter's own. -/
def State.ansWrite (s : State) (src : Nat) (pl : List Byte) (ok : Bool) : MeterAns :=
  if !paramOk pl then (s, 3, [])
  else match s.storeBlock ok s.nextAudit (slice 0x18 48 pl) (leAt 0x48 4 s.tmkBlock) (leAt 0x4C 4 s.tmkBlock) (slice 0x50 9 pl) with
  | none => (s, 5, [])
  | some s =>
    let s := s.tmkLog [s.paramRec 0 src 0]
    (s, 0, s.genAudit)

/-- SEAL (R555). (DEDUCED, log entry 115.) -/
def State.ansSeal (s : State) (src : Nat) (pl : List Byte) (ok : Bool) : MeterAns :=
  let b := s.tmkBlock
  if s.tmk.fuse then (s, 2, [])
  else if pl ≠ slice 0xFC 4 b then (s, 3, [])
  else
    let s := s.onTmk (fun m => { m with fuse := true })
    match s.storeBlock ok 0 (slice 0x18 48 b) (leAt 0x48 4 b) (leAt 0x4C 4 b) (slice 0x50 9 b) with
    | none => (s, 5, [])
    | some s =>
      let s := s.tmkLog [⟨5, 0, slice 8 4 s.tmkBlock ++ slice 0xFC 4 s.tmkBlock ++ [BitVec.ofNat 8 src]⟩]
      (s, 0, s.genAudit)

/-- SET_WALL (R560, R561). -/
def State.ansWall (s : State) (pl : List Byte) : MeterAns :=
  let new := leAt 0 8 pl
  let est := s.tmk.estimate
  let old := est.getD 0
  let step : Int := if est.isSome then (new : Int) - old else 0
  let cross := match pickRec true (validRecs s.tmk (fun k => k == 1)) with
    | some e => decide (new < leAt (0x0C + 24) 8 e.2)
    | none => false
  let body := leBytes 8 old ++ leBytes 8 new ++ leBytes 8 (ofSigned 64 step)
  let s := s.onTmk (fun m => { m with wall := some ((new : Int) - m.mt), flags := if step < 0 then setBit m.flags 2 else m.flags })
  let s := if est.isSome ∧ step = 0 then s else s.tmkLog [⟨6, b2n cross, body⟩]
  (s, 0, leBytes 8 old ++ leBytes 8 (ofSigned 64 step))

/-- NOTE. -/
def State.ansNote (s : State) (src : Nat) (pl : List Byte) : MeterAns :=
  let s := s.tmkLog [⟨7, 0, [BitVec.ofNat 8 src, BitVec.ofNat 8 pl.length] ++ List.replicate 6 0 ++ pl⟩]
  (s, 0, leBytes 2 ((s.tmk.head + 4095) % 4096))

/-- CAL_RESULT (R557). -/
def State.ansCal (s : State) : MeterAns :=
  let v (p : Option (Word × Nat)) : Nat := match p with
    | some x => x.1.toNat
    | none => 0x80000000
  let t (p : Option (Word × Nat)) : Nat := match p with
    | some x => x.2
    | none => 0
  (s, 0, leBytes 4 (v s.tmk.gref) ++ leBytes 4 (v s.tmk.xtal) ++ leBytes 8 (max (t s.tmk.gref) (t s.tmk.xtal)))

/-- CAL_APPLY (R553, R556, R557). (DEDUCED, log entry 116.) -/
def State.ansApply (s : State) (src : Nat) (pl : List Byte) (ok : Bool) : MeterAns :=
  let b := s.tmkBlock
  let k := leAt 0 1 pl
  if 1 < k then (s, 3, [])
  else match (if k = 0 then s.tmk.gref else s.tmk.xtal) with
  | none => (s, 4, [])
  | some (w, _) =>
    match s.storeBlock ok s.nextAudit (slice 0x18 48 b) (if k = 0 then w.toNat else leAt 0x48 4 b)
        (if k = 1 then w.toNat else leAt 0x4C 4 b) (slice 0x50 9 b) with
    | none => (s, 5, [])
    | some s =>
      let s := s.tmkLog [s.paramRec 0 src (k + 1)]
      (s, 0, s.genAudit)

/-- Serve command `cmd` with payload `pl` from source `src` (0 port, 1 relay); `ok` says whether storage can be written. -/
def State.tmkServe (s : State) (src cmd : Nat) (pl : List Byte) (ok : Bool) : MeterAns :=
  if !lenOk cmd pl.length then (s, 2, [])
  else match cmd with
  | 1 => s.ansIdent
  | 2 => s.ansNow
  | 3 => s.ansLog pl
  | 4 => (s, 0, s.tmkBlock)
  | 5 => s.ansWrite src pl ok
  | 6 => s.ansSeal src pl ok
  | 7 => s.ansWall pl
  | 8 => s.ansNote src pl
  | 9 => s.ansCal
  | 10 => s.ansApply src pl ok
  | _ => (s, 2, [])

/-- Hold a response for the port, or send it back over the relay. -/
def State.tmkAnswer (s : State) (src seq : Nat) (st : Nat) (pl : List Byte) : State :=
  let f := tmkFrame st seq (if st = 0 then pl else [])
  if src = 0 then s.onTmk (fun m => { m with resp := some f, lastSeq := seq })
  else (s.onTmk (fun m => { m with relayResp := some f })).emit (.tmkReply false f)

/-- The request frame of the relay that waits to be served. -/
def State.relayFrame (s : State) : Option (List Byte) :=
  match s.tmk.relays with
  | (_, _, f) :: _ => if s.tmk.relayResp.isNone && s.flag Reg.TMK_STAT F.TMK_STAT_LINK then some f else none
  | [] => none

/-- The meter's acknowledges of the address byte and the `n` bytes of a write transfer that it takes: none past byte 4,095 (R566, R567). -/
def portAcks (n : Nat) : List Bool := (List.range (n + 1)).map (fun k => decide (k ≤ 4096))

/-- Whether the meter acknowledges the address byte `addr` of a write transfer: its own, while no response waits to be read (R566, R567). -/
def State.portTakes (s : State) (addr : Byte) : Bool := addr == 0xB4 && s.tmk.resp.isNone

/-- The meter takes a request for command `cmd` whose payload passes `p` (R567). -/
def State.tmkRequest (s : State) (r : MeterReq) (cmd : Nat) (p : List Byte → Bool) (ok : Bool) : State :=
  if !s.tmk.powered then s
  else match r with
  | .port addr seq pl =>
    if !p pl then s
    else if !s.portTakes addr then s.emit (.tmkAck [false])
    else
      let a := (s.emit (.tmkAck (portAcks (6 + pl.length)))).tmkServe 0 cmd pl ok
      a.1.tmkAnswer 0 seq.toNat a.2.1 a.2.2
  | .relay =>
    match s.relayFrame with
    | some f =>
      if (badRequest f).isNone && leAt 0 1 f == cmd && p (framePayload f) then
        let a := s.tmkServe 1 cmd (framePayload f) ok
        a.1.tmkAnswer 1 (leAt 1 1 f) a.2.1 a.2.2
      else s
    | none => s

/-- The commands of R568. -/
def execIdent (r : MeterReq) (s : State) : Res := .next (s.tmkRequest r 1 (fun _ => true) true)
def execReadNow (r : MeterReq) (s : State) : Res := .next (s.tmkRequest r 2 (fun _ => true) true)
def execReadLog (r : MeterReq) (s : State) : Res := .next (s.tmkRequest r 3 (fun _ => true) true)
def execReadParam (r : MeterReq) (s : State) : Res := .next (s.tmkRequest r 4 (fun _ => true) true)
def execWriteParam (r : MeterReq) (ok : Bool) (s : State) : Res := .next (s.tmkRequest r 5 (fun _ => true) ok)
def execSeal (r : MeterReq) (ok : Bool) (s : State) : Res := .next (s.tmkRequest r 6 (fun _ => true) ok)
def execSetWall (r : MeterReq) (s : State) : Res := .next (s.tmkRequest r 7 (fun _ => true) true)
def execNote (r : MeterReq) (s : State) : Res := .next (s.tmkRequest r 8 (fun _ => true) true)
def execCalResult (r : MeterReq) (s : State) : Res := .next (s.tmkRequest r 9 (fun _ => true) true)
def execCalApplyGref (r : MeterReq) (ok : Bool) (s : State) : Res := .next (s.tmkRequest r 10 (fun p => p != [1]) ok)
def execCalApplyXtal (r : MeterReq) (ok : Bool) (s : State) : Res := .next (s.tmkRequest r 10 (fun p => p == [1]) ok)

/-- TMK_BAD_REQUEST: a frame that is answered with BAD_FRAME or BAD_CMD (R567, R568). -/
def execTmkBadRequest (r : BadReq) (s : State) : Res :=
  if !s.tmk.powered then .next s
  else match r with
  | .port addr f =>
    match badRequest f with
    | some st =>
      .next (if s.portTakes addr then (s.emit (.tmkAck (portAcks f.length))).tmkAnswer 0 (leAt 1 1 f) st [] else s.emit (.tmkAck [false]))
    | none => .next s
  | .relay =>
    match s.relayFrame with
    | some f =>
      match badRequest f with
      | some st => .next (s.tmkAnswer 1 (leAt 1 1 f) st [])
      | none => .next s
    | none => .next s

/-! ## The port (R567) -/

/-- PORT_READ_TRANSFER: the response held, BUSY while a request is handled, or NONE; another address than the meter's is not acknowledged
(R566, R567). (DEDUCED, log entry 117.) -/
def execPortReadTransfer (r : PortRead) (s : State) : Res :=
  if !s.tmk.powered then .next s
  else if r.addr ≠ 0xB5 then .next (s.emit (.tmkAck [false]))
  else
  let s := s.emit (.tmkAck [true])
  match s.tmk.resp, r.how with
  | some f, .whole => .next ((s.emit (.tmkReply true f)).onTmk (fun m => { m with resp := none }))
  | some f, _ => .next (s.emit (.tmkReply true f))
  | none, .early seq => .next (s.emit (.tmkReply true (tmkFrame 0xFE seq.toNat [])))
  | none, _ => .next (s.emit (.tmkReply true (tmkFrame 0xFD s.tmk.lastSeq [])))

/-- PORT_WRITE_TIMEOUT: the transfer is discarded without a response; nothing of it has reached the meter. -/
def execPortWriteTimeout (s : State) : Res := .next s

/-! ## The relay (R569) -/

/-- Send the next relayed request. -/
def State.relayNext (s : State) : State :=
  match s.tmk.relays with
  | (_, _, f) :: _ => (s.setF Reg.TMK_STAT F.TMK_STAT_BUSY 1).emit (.tmkRequest f)
  | [] => s.setF Reg.TMK_STAT F.TMK_STAT_BUSY 0

/-- The request frame of a TMK_RELAY has been read: check 11 against LIMIT, and it is sent after those before it. -/
def State.tmkData (s : State) (c idx : Nat) (bytes : List Byte) : State :=
  match s.desc? c idx with
  | none => s
  | some d =>
    let n := responseSize bytes
    if d.limit < n then s.finish c idx (Cpl.of 0x14 n d.limit 0x20)
    else
      let first := s.tmk.relays.isEmpty
      let s := s.setRelays (s.tmk.relays ++ [(c, idx, bytes)]) s.tmk.relayResp
      if first then s.relayNext else s

/-- TMK_RELAY: the request frame is read from host memory. -/
def execTmkRelay (c : Fin 256) (s : State) : Res :=
  .next (s.startWith c (isOp 0x24) (fun d s => s.readHost d.haddr d.length (.data c d.idx)))

/-- Complete the outstanding relay with a response frame. -/
def State.endRelay (s : State) (f : List Byte) : State :=
  match s.tmk.relays with
  | [] => s
  | (c, idx, req) :: rest =>
    let s := s.setRelays rest none
    match s.desc? c idx with
    | none => s
    | some d => (s.writeHost d.haddr2 f (some (c, idx))).finish c idx (Cpl.of 0 req.length f.length)

/-- TMK_RESPONSE: the response is written to HADDR2; a response to IDENT shows the seal fuse (R569, R571). -/
def execTmkResponse (s : State) : Res :=
  match s.tmk.relays, s.tmk.relayResp with
  | (_, _, req) :: _, some f =>
    let s := if leAt 0 1 req = 1 ∧ leAt 0 1 f = 0 then s.setF Reg.TMK_STAT F.TMK_STAT_SEALED (leAt 16 1 f % 2) else s
    .next (s.endRelay f).relayNext
  | _, _ => .next s

/-- Every relay completes with LINK_DOWN. (DEDUCED, log entry 117.) -/
def State.relaysDown : Nat → State → State
  | 0, s => s
  | n + 1, s =>
    match s.tmk.relays with
    | (_, _, req) :: _ => State.relaysDown n (s.endRelay (tmkFrame 0xF0 (leAt 1 1 req) []))
    | [] => s

/-- TMK_RELAY_TIMEOUT: the link fails, or no response in 100 ms (R569). While the link is down, the relays still end; it fails no more.
(DEDUCED, log entry 117.) -/
def execTmkRelayTimeout (s : State) : Res :=
  if !s.flag Reg.TMK_STAT F.TMK_STAT_LINK then
    .next (if s.tmk.relays.isEmpty then s else (State.relaysDown s.tmk.relays.length s).setF Reg.TMK_STAT F.TMK_STAT_BUSY 0)
  else
    let s := State.relaysDown s.tmk.relays.length s
    let s := (s.setF Reg.TMK_STAT F.TMK_STAT_LINK 0).setF Reg.TMK_STAT F.TMK_STAT_BUSY 0
    .next ((s.clearReady 2).event Ev.TMK_LINK_DOWN [])

/-- The internal link opens (R53 S5, R569). -/
def State.tmkOpen (s : State) : State := (s.setF Reg.TMK_STAT F.TMK_STAT_LINK 1).setReady 2

/-- TMK_LINK_RETURN. -/
def execTmkLinkReturn (s : State) : Res :=
  if s.flag Reg.TMK_STAT F.TMK_STAT_LINK || !s.rst.stepsDone.contains 5 || s.pwr.dormant || s.rst.hostReset then .next s
  else .next (s.tmkOpen.event Ev.TMK_LINK_UP [])

/-! ## Dose statistics (R571) -/

/-- A write of TMK_DOSE_CLR. -/
def State.writeDoseClr (s : State) (v : Word) : State :=
  if fieldOf F.TMK_DOSE_CLR_CLR v = 1 then s.onPipe (fun p => { p with doseClr := true }) else s

/-- TMK_DOSE_CLR. -/
def execTmkDoseClr (v : Word) (s : State) : Res :=
  .next (s.viaReg Reg.TMK_DOSE_CLR (withField F.TMK_DOSE_CLR_CLR 1 v) (fun s => s.writeDoseClr (withField F.TMK_DOSE_CLR_CLR 1 v)))

/-! ## The meter's calibration (R503, R557) -/

/-- The meter's own measurement ends with a proposal. -/
def State.meterProposal (s : State) (xtal : Bool) (w : Word) : State :=
  s.onTmk (fun m => if xtal then { m with xtal := some (w, m.mt) } else { m with gref := some (w, m.mt) })

end Sys2Proof.Machine
end

