-- ==== Sys2Proof/Machine/Calibration.lean ====
section
/-! DEFINITION. The calibration unit (R497 to R503, R506) and the ends of column-driver commands (R364, R366, R376). -/

namespace Sys2Proof.Machine

/-! ## Steps (R497, R498) -/

/-- The validity of ARG0 and ARG1 of a CAL_STEP (R497): DETAIL of the first that is rejected. -/
def calFault (d : Desc) : Option Nat :=
  let a := d.arg 1
  match d.arg 0 with
  | 1 => if a = 0 then none else some 0x28
  | 2 => if 1 ≤ a ∧ a ≤ 64 then none else some 0x28
  | 3 => if a ≤ 23 ∨ a = 0xFF then none else some 0x28
  | 4 => if a ≤ 1 then none else some 0x28
  | _ => some 0x24

/-- The drivers that a DAC_REF names: one, or every driver in use. -/
def State.calDrivers (s : State) (r : CalRun) : List Nat := if r.arg = 0xFF then s.drivers else [r.arg]

/-- Replace the running step. -/
def State.setRunStep (s : State) (r : CalRun) : State := s.onCal (fun c => { c with run := some r })

/-- Read DACREF of the next driver that can be read (R502). -/
def State.calNext : Nat → State → State
  | 0, s => s
  | n + 1, s =>
    match s.cal.run with
    | some r =>
      match r.todo with
      | g :: rest =>
        if s.seq = 2 ∧ s.drvUp g then s.sendDrv g false 0x04 0 .cal
        else State.calNext n (s.setRunStep { r with todo := rest, code := if r.code = 0 then 4 else r.code })
      | [] => s
    | none => s

/-- A step starts (R498). -/
def State.beginCal (s : State) (r : CalRun) : State :=
  let s := s.setF Reg.CAL_RSTAT F.CAL_RSTAT_BUSY 1
  let s := if usesCalref r then s.emit (.pin "CALREF_LOOP" true) else s
  let s := s.setRunStep (if r.step = 3 then { r with todo := s.calDrivers r } else r)
  if r.step = 3 then State.calNext 25 s else s

/-- Steps that wait, in the order in which they passed check 9 (R498). -/
def State.calOrder (s : State) (l : List CalRun) : List CalRun :=
  s.cal.passed.flatMap (fun j => l.filter (fun r => decide ((r.client, r.idx) = j)))
    ++ l.filter (fun r => !s.cal.passed.contains (r.client, r.idx))

/-- A CAL_STEP descriptor starts its step, or waits for the unit (R498). -/
def State.calStep (c : Nat) (d : Desc) (s : State) : State :=
  let r : CalRun := ⟨c, d.idx, d.arg 0, d.arg 1, [], 0, []⟩
  if s.cal.run.isNone ∧ s.cal.queue.isEmpty then s.beginCal r
  else s.onCal (fun k => { k with queue := s.calOrder (k.queue ++ [r]) })

/-- A CAL_STEP with ARG0 = n and, for TMK_CAL, ARG1. -/
def isCal (n : Nat) (d : Desc) : Bool := isOp 0x20 d && d.arg 0 == n

def execCalStepAdc (c : Fin 256) (s : State) : Res := .next (s.startWith c (isCal 1) (State.calStep c))
def execCalStepTimebase (c : Fin 256) (s : State) : Res := .next (s.startWith c (isCal 2) (State.calStep c))
def execCalStepDacRef (c : Fin 256) (s : State) : Res := .next (s.startWith c (isCal 3) (State.calStep c))
def execTmkCalAdc (c : Fin 256) (s : State) : Res :=
  .next (s.startWith c (fun d => isCal 4 d && d.arg 1 == 0) (State.calStep c))
def execTmkCalCrystal (c : Fin 256) (s : State) : Res :=
  .next (s.startWith c (fun d => isCal 4 d && d.arg 1 == 1) (State.calStep c))

/-- CAL_STEP_START: the next step that waits starts once the unit is free (R498). -/
def State.calStart (s : State) : State :=
  match s.cal.run, s.cal.queue with
  | none, r :: rest => (s.onCal (fun c => { c with queue := rest })).beginCal r
  | _, _ => s

def execCalStepStart (s : State) : Res := .next s.calStart

/-! ## The end of a step (R499 to R503) -/

/-- The CALREF voltage is absent or above its compliance (R491, R499). -/
def refAbsent (m : CalMeas) : Bool := decide (m.refMv.toNat < 100) || decide (5000 < m.refMv.toNat)

/-- V of the ADC from a raw mean, with the trims in force (R495). -/
def State.adcVolts (s : State) (raw : Word) : Int :=
  rneDiv (toSigned 32 raw.toNat * (2 ^ 20 + s.adcGain)) (2 ^ 20) + s.adcOff

/-- The first of some outcome codes whose case holds; 0 for none. (DEDUCED, log entry 111.) -/
def firstCode (l : List (Bool × Nat)) : Nat :=
  match l.find? (·.1) with
  | some e => e.2
  | none => 0

/-- ADC (R500): its outcome and the state after it. -/
def State.endAdc (s : State) (m : CalMeas) : Nat × State :=
  let z := s.adcVolts m.zero
  let v := s.adcVolts m.ref
  let e := rneDiv (100 * (s.getF Reg.CAL_FRREF ⟨23, 0⟩ : Int)) 1000
  let code := firstCode [(refAbsent m, 1),
    (decide (v - z ≤ 0) || decide (100 * (v - z) < 98 * e) || decide (102 * e < 100 * (v - z)), 2),
    (decide (200 < m.spreadUv.toNat), 3), (!s.valid 13, 5)]
  if code ≠ 0 then (code, s)
  else
    let gF := toSigned 16 (s.reg Reg.CAL_FADC_GAIN).toNat
    let gU := toSigned 16 (s.getF Reg.CAL_UADC F.CAL_UADC_GAIN)
    let oU := toSigned 16 (s.getF Reg.CAL_UADC F.CAL_UADC_OFF)
    let g := rneDiv ((2 ^ 20 + gF + gU) * e) (v - z).toNat - 2 ^ 20 - gF
    let s := s.setF Reg.CAL_RADC F.CAL_RADC_GAIN (ofSigned 16 (satS 16 g))
    (0, s.setF Reg.CAL_RADC F.CAL_RADC_OFF (ofSigned 16 (satS 16 (oU - z))))

/-- TIMEBASE with a gate of `gate` seconds (R501). -/
def State.endTimebase (s : State) (gate : Nat) (m : CalMeas) : Nat × State :=
  let nominal : Int := gate * 1200000000
  let code := firstCode [(decide (1000 < m.spreadPpb.toNat), 3), (!s.valid 21, 5),
    (decide (200 * m.count < (nominal - m.count).natAbs * 1000000), 6)]
  if code ≠ 0 then (code, s)
  else
    let f := (s.xtalFactor * m.count).toNat
    let s := s.setReg Reg.CAL_RTB (word (ofSigned 32 (satS 32 (rneDiv (1000000000 * (nominal * 256000000000 - f)) f))))
    let s := s.setF Reg.CAL_RTB_T F.CAL_RTB_T_V (ofSigned 16 (s.sensorTemp 21))
    let n := (rneDiv (2 * (f : Int)) (gate * 256000000000)).toNat % 2 ^ 32
    (0, (s.setReg Reg.GEN_AONK (word n)).onGen (fun g => { g with aonkNorm := n, aonkMeasured := true }))

/-- The outcome of one driver of a DAC_REF (R499, R502). (DEDUCED, log entry 111.) -/
def dacCode (r : CalRun) (g : Nat) : Nat :=
  match r.found.find? (fun e => e.1 == g) with
  | some e => if 2000 < (toSigned 16 (e.2.toNat / 65536)).natAbs then 2 else 0
  | none => 4

/-- Write the result of driver g. -/
def State.putRdac (s : State) (r : CalRun) (g : Nat) : State :=
  let w := (aget (fun _ => (0 : Word)) r.found g).toNat / 65536
  let p := toSigned 10 (s.getF (Reg.CAL_UDAC g) F.CAL_UDAC_TRIM) - rneDiv (toSigned 16 w) 10
  (s.setF (Reg.CAL_RDAC g) F.CAL_RDAC_MEAS w).setF (Reg.CAL_RDAC g) F.CAL_RDAC_PROPOSE (ofSigned 10 (satS 10 p))

/-- DAC_REF (R502). (DEDUCED, log entry 111.) -/
def State.endDac (s : State) (r : CalRun) (m : CalMeas) : Nat × State :=
  if refAbsent m then (1, s)
  else
    let l := s.calDrivers r
    let s := (l.filter (fun g => dacCode r g == 0)).foldl (fun s g => s.putRdac r g) s
    (((l.map (dacCode r)).find? (· != 0)).getD (if l.isEmpty then 4 else 0), s)

/-- TMK_CAL (R503): the meter measured, or it refused or failed; the calibration unit reports nothing else. -/
def State.endTmk (s : State) (arg : Nat) (m : CalMeas) : Nat × State :=
  if !m.meterOk || !s.tmk.powered || !s.flag Reg.TMK_STAT F.TMK_STAT_LINK then (7, s)
  else (0, s.meterProposal (arg == 1) m.proposal)

/-- A deferred crack-loop measurement is made as soon as the step ends (R498), unless CRACK_POL is NONE by then (R394). -/
def State.runDeferred (s : State) : State :=
  if s.cal.deferred then
    let s := s.onCal (fun c => { c with deferred := false })
    if s.crackPol = 0 ∨ s.pnl.measuring then s else s.crackStart
  else s

/-- CAL_STEP_END: results, CAL_RSTAT, the event of a failed step and the completion (R499). (DEDUCED, log entry 111.) -/
def State.calEnd (s : State) (m : CalMeas) : State :=
  match s.cal.run with
  | none => s
  | some r =>
    let (code, s) :=
      if r.step = 1 then s.endAdc m
      else if r.step = 2 then s.endTimebase r.arg m
      else if r.step = 3 then s.endDac r m
      else s.endTmk r.arg m
    let s := s.onCal (fun c => { c with run := none })
    let s := s.setReg Reg.CAL_RSTAT (word (code * 2 ^ 24 + r.step % 256 * 65536 + r.client % 256 * 256))
    let s := if usesCalref r then (s.emit (.pin "CALREF_LOOP" false)).runDeferred else s
    let tag := match s.desc? r.client r.idx with
      | some d => d.tag
      | none => 0
    let s := if code = 0 then s else s.event Ev.CAL_STEP_FAIL [(8, r.step), (32, r.arg), (8, code), (8, r.client), (16, tag)]
    s.finish r.client r.idx (Cpl.of 0)

def execCalStepEnd (m : CalMeas) (s : State) : Res := .next (s.calEnd m)

/-! ## Ends of driver commands (R364, R366, R376) -/

/-- DACREF of driver g has been read, or could not be. -/
def State.calResp (s : State) (g : Nat) (data : Option Word) : State :=
  match s.cal.run with
  | some r =>
    if r.step = 3 ∧ r.todo.head? = some g then
      State.calNext 25 (s.setRunStep { r with
        todo := r.todo.drop 1
        found := match data with
          | some w => ainsert (aerase r.found g) g w
          | none => r.found })
    else s
  | none => s

/-- BAT_CMD_RESP: a CMD_RESP frame. -/
def execBatCmdResp (g : Fin 24) (f : BatResp) (s : State) : Res :=
  if s.drvState g = 0 then .next s
  else if !f.valid then .next (s.bump (Reg.BAT_CNT_STCRC (g.val / 12)) 1)
  else
    let s := s.frameBack g
    match (s.driver g).cmd with
    | none => .next s
    | some c =>
      if f.tag.toNat ≠ c.tag then .next s
      else match c.use with
      | .train => .next (s.trainResp g f)
      | .host =>
        .next ((s.endDrvCmd g).endBatCmd f.result.toNat (if f.result = 0 ∧ !c.write then some f.data else none))
      | .cal => .next ((s.endDrvCmd g).calResp g (if f.result = 0 then some f.data else none))
      | _ => .next (s.endDrvCmd g)

/-- BAT_CMD_TIMEOUT: no CMD_RESP within 2 µs (R366); a driver that does not answer ends a DAC_REF (R502), and one that does not answer F2, N5 or N7
is reported once (R387). (DEDUCED, log entry 111.) -/
def execBatCmdTimeout (g : Fin 24) (s : State) : Res :=
  match (s.driver g).cmd with
  | none => .next s
  | some c =>
    let step := decide (s.seq = 1 ∧ (s.seqStep = 5 ∨ s.seqStep = 7)) || decide (s.seq = 3 ∧ s.seqStep = 2)
    let s := if c.use = .seq ∧ step = true then
        (s.setDriver g { s.driver g with queue := (s.driver g).queue.map (fun q => if q.use = .seq then { q with use := .seqQuiet } else q) }).event
          Ev.PNL_DISCH_NORESP [(8, g)]
      else s
    let s := (s.endDrvCmd g).event Ev.BAT_CMD_FAIL (drvItems g)
    match c.use with
    | .host => .next (s.endBatCmd 4 none)
    | .cal =>
      match s.cal.run with
      | some r => .next (s.setRunStep { r with todo := [] })
      | none => .next s
    | _ => .next s

/-! ## Applying trims (R506) -/

/-- A commit of group 30 has taken effect; `old` are the CAL_UDAC words before it: the changed drivers get their new trim. -/
def State.applyTrims (s : State) (old : List Word) : State :=
  let s := (List.range 24).foldl (fun s g =>
    if s.reg (Reg.CAL_UDAC g) = old.getD g 0 then s
    else if s.drvUp g then
      s.sendDrv g true 0x04 (word (s.getF (Reg.CAL_UDAC g) F.CAL_UDAC_TRIM)) .trim
    else s) s
  s.syncEadc

end Sys2Proof.Machine
end

