-- ==== Sys2Proof/Machine/Ridge.lean ====
section
/-! DEFINITION. The Ridge mesh: broadcasts and routing (R518 to R521, R528), roles (R523 to R527), the volume timebase (R529 to R532), hold
reports and alarms (R343, R533) and volume commands (R534). -/

namespace Sys2Proof.Machine

/-! ## Headers and broadcasts (R519, R520) -/

def hdrDst (h : RidgeHdr) : Nat := h.arg.toNat % 64
def hdrSrc (h : RidgeHdr) : Nat := h.arg.toNat / 256 % 64
def hdrBseq (h : RidgeHdr) : Nat := h.arg.toNat / 65536

/-- A role is held. -/
def State.hasRole (s : State) : Bool := s.flag Reg.RDG_ROLE F.RDG_ROLE_VALID

/-- What a broadcast is: new, a duplicate, or one to discard unread (R520). -/
inductive Sight where
  | fresh | duplicate | behind
  deriving DecidableEq, Repr

def sight (x : Nat × Nat) (b : Nat) : Sight :=
  let d := (b + 65536 - x.1) % 65536
  let back := (x.1 + 65536 - b) % 65536
  if x.2 = 0 then .fresh
  else if d = 0 then .duplicate
  else if d ≤ 32768 then .fresh
  else if back < 64 ∧ x.2.testBit back = true then .duplicate
  else .behind

/-- Take a broadcast: forward it with `body` and act on it (R520); isolated links and links that are not ACTIVE bring none (R517).
(DEDUCED, log entry 118.) -/
def State.takeBroadcast (s : State) (h : RidgeHdr) (code : Nat) (body : List Byte) (act : State → State) : State :=
  if !s.ridgeUp h.link.val then s
  else
    match sight (seenOf s.rdg (hdrSrc h)) (hdrBseq h) with
    | .duplicate => s.bump Reg.RDG_VCNT_DUP 1
    | .behind => s
    | .fresh =>
      let s := s.onRdg (fun r => { r with seen := aset (fun _ => (0, 0)) r.seen (hdrSrc h) (seenAfter (seenOf r (hdrSrc h)) (hdrBseq h)) })
      act (s.sendAll h.link.val code h.arg.toNat body)

/-- Whether epoch `a` is newer than `b` (R526). -/
def newer (a b : Nat) : Bool :=
  let d := (a + 2 ^ 32 - b % 2 ^ 32) % 2 ^ 32
  decide (1 ≤ d) && decide (d < 2 ^ 31)

/-- A unicast message: delivered at the holder of DST, forwarded, or bounced (R528). `rest` is its body after the EPOCH. -/
def State.takeUnicast (s : State) (h : RidgeHdr) (code epoch : Nat) (rest : List Byte) (act : State → State) : State :=
  if !s.ridgeUp h.link.val then s
  else if s.hasRole ∧ s.role = (hdrDst h) then act s
  else
    let e := s.roleEntry (hdrDst h)
    if e.known && e.reachable && (e.epoch == epoch || newer epoch e.epoch) then
      s.linkSend (4 + e.link) code h.arg.toNat (leBytes 4 epoch ++ rest)
    else if e.known && e.reachable then
      (s.bump Reg.RDG_VCNT_FWD 1).linkSend (4 + e.link) code (h.arg.toNat ||| 2 ^ 15) (leBytes 4 e.epoch ++ rest)
    else if code = 0x22 then s
    else
      let s := s.bump Reg.RDG_VCNT_BOUNCE 1
      if !s.hasRole then s
      else s.unicast (hdrSrc h) 0x22 (leBytes 4 (if e.known then e.epoch else 0)
        ++ [BitVec.ofNat 8 code, BitVec.ofNat 8 (hdrDst h), if e.known && newer e.epoch epoch then 0 else 1, 0] ++ leBytes 4 h.arg.toNat ++ leBytes 4 0)

/-! ## The role table (R526, R527, R535, R538) -/

def State.setRole (s : State) (r : Nat) (e : RoleEntry) : State :=
  s.onRdg (fun d => { d with roles := aset (fun _ => RoleEntry.init) d.roles r e })

/-- The reachable entries, by role. -/
def State.reachable (s : State) : List (Nat × RoleEntry) := s.rdg.roles.filter (fun e => e.2.known && e.2.reachable)

/-- This device is a head (R533). -/
def State.isHead (s : State) : Bool := s.flag Reg.GBL_STRAP F.GBL_STRAP_HOST_EN && s.hst.linkUp

/-- This device is a candidate (R529). -/
def State.isCand (s : State) : Bool := s.flag Reg.GBL_STRAP F.GBL_STRAP_TIMING_SRC && s.genSrc == 1 && s.hasRole

/-- CLASS from a lock state (R529). -/
def lockClass (n : Nat) : Nat := if n = 4 then 0 else if n = 5 ∨ n = 6 then 1 else 2

/-- This device's CLASS. While it follows, its own input keeps the lock state it had. (DEDUCED, log entry 119.) -/
def State.ownClass (s : State) : Nat :=
  if s.lockState ≠ 7 then lockClass s.lockState
  else if s.getF Reg.GEN_STAT F.GEN_STAT_FMT_DET = 0 then 2 else lockClass s.rdg.inLock

/-- This device is the elected source. -/
def State.isSource (s : State) : Bool := s.hasRole && s.rdg.elected == some s.role

/-- FLAGS of its ROLE_ANN. -/
def State.annFlags (s : State) : Nat := b2n s.isHead + 2 * b2n s.isCand + 4 * b2n s.isSource + 8 * b2n (s.part == .bc)

/-- Announce the role held (R525). -/
def State.announce (s : State) : State :=
  let hops := s.getF Reg.RDG_TSTAT F.RDG_TSTAT_HOPS
  s.flood 0x20 (leBytes 8 s.dsn ++ ([s.getF Reg.RDG_ROLE F.RDG_ROLE_COL, s.getF Reg.RDG_ROLE F.RDG_ROLE_ROW, s.annFlags, s.ownClass, 0,
    if s.isSource then 0 else if hops = 0x3F then 0xFF else hops, s.getF Reg.RDG_DIAM F.RDG_DIAM_ECC, 0].map (BitVec.ofNat 8)))

/-- ROLE_ANN_TICK. -/
def execRoleAnnTick (s : State) : Res := .next (if s.hasRole then s.announce else s)

/-- MIXED (R527): when it sets, RDG_MIXED_VIEWS for every enabled view of V4 to V7. (DEDUCED, log entry 120.) -/
def State.syncMixed (s : State) : State :=
  let m := s.part == .ba && s.reachable.any (fun e => bit e.2.flags 3)
  let was := s.flag Reg.RDG_ROLE F.RDG_ROLE_MIXED
  let s := s.setF Reg.RDG_ROLE F.RDG_ROLE_MIXED (b2n m)
  if m && !was then [4, 5, 6, 7].foldl (fun s v => if s.viewEn v then s.event Ev.RDG_MIXED_VIEWS [(8, v)] else s) s else s

/-- RDG_DIAM (R535). -/
def State.syncDiam (s : State) : State :=
  let ecc := s.reachable.foldl (fun n e => max n e.2.hops) 0
  let diam := s.reachable.foldl (fun n e => max n e.2.ecc) ecc
  let was := s.getF Reg.RDG_DIAM F.RDG_DIAM_DIAM
  let s := (s.setF Reg.RDG_DIAM F.RDG_DIAM_ECC (min ecc 255)).setF Reg.RDG_DIAM F.RDG_DIAM_DIAM (min diam 255)
  if 32 < diam ∧ was ≤ 32 then s.event Ev.RDG_DIAMETER [(8, s.role)] else s

/-- RDG_REACH shows the reachable roles, this device's own among them. (DEDUCED, log entry 120.) -/
def State.syncReach (s : State) : State :=
  let n := (s.reachable.map (·.1)).foldl setBit (if s.hasRole then 2 ^ s.role else 0)
  (s.setReg Reg.RDG_REACH_LO (word n)).setReg Reg.RDG_REACH_HI (word (n / 2 ^ 32))

/-- The reachable head of lowest role. -/
def State.bestHead (s : State) : Option Nat := ((s.reachable.filter (fun e => bit e.2.flags 0)).map (·.1)).head?

/-- Take the reachable head of lowest role into use, and send what waited for it (R533). -/
def State.takeHead (s : State) : State :=
  let s := match s.bestHead with
    | some r => (s.setF Reg.RDG_HEAD F.RDG_HEAD_VALID 1).setF Reg.RDG_HEAD F.RDG_HEAD_ROLE r
    | none => s.setReg Reg.RDG_HEAD 0
  let l := s.rdg.hostWait
  let s := s.onRdg (fun r => { r with hostHold := false, hostWait := [], hostTags := r.hostTags ++ l })
  l.foldl (fun s t => s.sendTag t) s

/-- The outstanding host requests have ended: a new head may be taken (R533). -/
def State.drainHost (s : State) : State := if s.rdg.hostHold && s.rdg.hostTags.isEmpty then s.takeHead else s

/-- The head in use changes only when it becomes unreachable (R533). A head uses its own link. (DEDUCED, log entry 120.) -/
def State.syncHead (s : State) : State :=
  let s := s.setF Reg.RDG_ROLE F.RDG_ROLE_HEAD (b2n s.isHead)
  if s.isHead then s.setReg Reg.RDG_HEAD 0
  else
    let e := s.roleEntry s.headRole
    if s.flag Reg.RDG_HEAD F.RDG_HEAD_VALID && e.reachable && bit e.flags 0 then s
    else if s.rdg.hostHold then s
    else if s.rdg.hostTags.isEmpty then s.takeHead
    else (s.setReg Reg.RDG_HEAD 0).onRdg (fun r => { r with hostHold := true })

/-! ## The timing source (R529) -/

/-- The lowest class, and then the lowest role, of the reachable candidates: class and role. -/
def State.bestCand (s : State) : Option (Nat × Nat) :=
  let l := (s.reachable.filter (fun e => bit e.2.flags 1)).map (fun e => (e.2.cls, e.1))
  let l := if s.isCand then l ++ [(s.ownClass, s.role)] else l
  l.foldl (fun b x => match b with
    | none => some x
    | some y => if x.1 < y.1 ∨ (x.1 = y.1 ∧ x.2 < y.2) then some x else some y) none

/-- No parent link and no distance to a source. -/
def State.noParent (s : State) : State :=
  let s := (s.setF Reg.RDG_TSTAT F.RDG_TSTAT_PARENT 7).setF Reg.RDG_TSTAT F.RDG_TSTAT_HOPS 0x3F
  (List.range 4).foldl (fun s l => s.setF (Reg.RDG_LISO l) F.RDG_LISO_PARENT 0) s

/-- A follower's STATE is FOLLOW; a candidate that is not the source follows it (R529). -/
def State.syncFollow (s : State) : State :=
  if s.genSrc = 1 ∧ s.isCand = true ∧ s.rdg.elected.isSome ∧ !s.isSource then
    if s.lockState = 7 then s else (s.onRdg (fun r => { r with inLock := s.lockState })).setLock 7
  else if s.genSrc = 1 ∧ s.lockState = 7 then
    s.restartLock
  else s

/-- The elected source changes. -/
def State.setSource (s : State) (r : Nat) : State :=
  if s.rdg.elected = some r then s
  else
    let s := s.onRdg (fun d => { d with elected := some r, offers := [], srcF := none, aligned := 0 })
    let s := s.onGen (fun g => { g with srcDigest := none })
    let s := s.setF Reg.RDG_TSTAT F.RDG_TSTAT_TS_ROLE r
    let s := s.setF Reg.RDG_TSTAT F.RDG_TSTAT_ELECTED (b2n s.isSource)
    let s := s.setF Reg.RDG_TSTAT F.RDG_TSTAT_TS_LOST 0
    let s := s.noParent
    let s := if s.isSource then s.setF Reg.RDG_TSTAT F.RDG_TSTAT_HOPS 0 else s
    s.syncFollow.event Ev.RDG_TS_CHANGE [(8, r)]

/-- RDG_TSTAT.CAND, and a first election when no source is known. (DEDUCED, log entry 119.) -/
def State.syncCand (s : State) : State :=
  let s := s.setF Reg.RDG_TSTAT F.RDG_TSTAT_CAND (b2n s.isCand)
  match s.rdg.elected, s.bestCand with
  | none, some c => s.setSource c.2
  | _, _ => s.syncFollow

/-- Everything that follows the role table. -/
def State.syncRoles (s : State) : State := ((((s.syncReach.syncMixed).syncDiam).syncHead).syncCand)

/-- TS_ELECTION: another candidate has had a lower CLASS for 1 s (R529). -/
def State.electLower (s : State) : State :=
  match s.rdg.elected, s.bestCand with
  | some r, some (c, b) =>
    let cur := if s.isSource then s.ownClass else (s.roleEntry r).cls
    if b ≠ r ∧ c < cur then s.setSource b else s
  | none, some (_, b) => s.setSource b
  | _, none => s

/-- DEDUCED, log entry 119. -/
def execTsElection (s : State) : Res := .next s.electLower

/-- Whether the elected source is a reachable candidate. -/
def State.sourceThere (s : State) : Bool :=
  match s.rdg.elected with
  | some r => if s.hasRole && s.role == r then s.isCand else (s.roleEntry r).reachable && bit (s.roleEntry r).flags 1
  | none => false

/-- TS_LOST: no BND, or the source unreachable, for 4 frame periods (R529, R531, R532). -/
def State.sourceLost (s : State) : State :=
  if s.rdg.elected.isNone || (s.isSource && s.isCand) then s
  else
    let s := (s.setF Reg.RDG_TSTAT F.RDG_TSTAT_TS_LOST 1).setF Reg.GEN_STAT F.GEN_STAT_ALIGNED 0
    let s := (s.onRdg (fun r => { r with aligned := 0 })).event Ev.RDG_TS_LOST [(8, s.rdg.elected.getD 0)]
    if s.sourceThere then s
    else
      match s.bestCand with
      | some c => s.setSource c.2
      | none => s

def execTsLost (s : State) : Res := .next s.sourceLost

/-! ## Taking and losing a role (R524 to R526) -/

/-- Re-evaluate isolation on every link, and the regulator pair (R517, R537). -/
def State.roleChanged (s : State) : State :=
  let s := s.signal 262
  let s := [4, 5, 6, 7].foldl (fun s q => s.evalIso q) s
  s.syncRoles.tryPair

/-- A device without a partner, in a volume of 16 to 64 devices, says so when it takes a role; `mask` holds the volume's roles (R79). -/
def State.sayUnpaired (s : State) (mask : Nat) : State :=
  if !s.flag Reg.GBL_STRAP F.GBL_STRAP_PAIR_REG && decide (16 ≤ popcount mask 64) then s.event Ev.PWR_UNPAIRED [] else s

/-- Take the role at (col, row) in the volume of the roles of `mask`. -/
def State.takeRole (s : State) (col row role epoch mask : Nat) : State :=
  let mixed := s.getF Reg.RDG_ROLE F.RDG_ROLE_MIXED
  let s := s.setReg Reg.RDG_ROLE (word (2 ^ 31 + role * 2 ^ 24 + col % 64 * 2 ^ 18 + row % 64 * 2 ^ 12 + mixed))
  let s := s.setReg Reg.RDG_EPOCH (word epoch)
  (s.onRdg (fun r => { r with roles := aerase r.roles role, derive_ := none })).roleChanged.sayUnpaired mask

/-- Hold no role. -/
def State.dropRole (s : State) : State :=
  if !s.hasRole then s
  else
    let s := s.setReg Reg.RDG_ROLE (word (s.getF Reg.RDG_ROLE F.RDG_ROLE_MIXED))
    (s.setReg Reg.RDG_EPOCH 0).roleChanged

/-- The highest role epoch known (R524). -/
def State.topEpoch (s : State) : Option Nat :=
  let l := (s.rdg.roles.filter (fun e => e.2.known)).map (fun e => e.2.epoch)
  let l := if s.hasRole then l ++ [s.epoch] else l
  let l := match s.rdg.derive_ with
    | some d => l ++ [d.1]
    | none => l
  l.foldl (fun b e => match b with
    | none => some e
    | some x => if newer e x then some e else some x) none

/-- The coordinate that a neighbour at (c, r) on link l implies (R525). (DEDUCED, log entry 118.) -/
def implied (l c r : Nat) : Int × Int :=
  if l = 3 then ((c : Int) + 1, (r : Int)) else if l = 1 then ((c : Int) - 1, (r : Int))
  else if l = 0 then ((c : Int), (r : Int) + 1) else ((c : Int), (r : Int) - 1)

/-- A neighbour's announcement of the new epoch gives this device its coordinate (R525). (DEDUCED, log entry 118.) -/
def State.derive (s : State) (l : Nat) (b : RoleAnn) : State :=
  match s.rdg.derive_ with
  | some (epoch, cols, mask) =>
    if b.epoch.toNat ≠ epoch then s
    else
      let s := s.onRdg (fun r => { r with derive_ := none })
      let (c, r) := implied l b.col.toNat b.row.toNat
      let role := (r * cols + c).toNat
      if 0 ≤ c ∧ c < cols ∧ 0 ≤ r ∧ role < 64 ∧ mask.testBit role = true then
        (s.takeRole c.toNat r.toNat role epoch mask).announce
      else (s.dropRole).event Ev.RDG_ROLE_REJECT [(8, l)]
  | none => s

/-- Volume commands that have their answers complete (R534): `f` finds the ones of interest. -/
def State.endVol (s : State) (v : VolPend) : State :=
  let miss := v.roles &&& (2 ^ 64 - 1 - v.good % 2 ^ 64)
  let s := s.onRdg (fun r => { r with vols := r.vols.filter (fun x => !(x.client == v.client && x.idx == v.idx)) })
  let s := (s.setReg Reg.RDG_VCMD_MISS_LO (word miss)).setReg Reg.RDG_VCMD_MISS_HI (word (miss / 2 ^ 32))
  let s := if miss = 0 then s else s.event Ev.RDG_VCMD_MISS [(8, (bitsOf miss 64).headD 0)]
  let s := if v.op = 3 ∧ s.hasRole ∧ v.roles.testBit s.role = true then s.onRdg (fun r => { r with selfReset := true }) else s
  s.finish v.client v.idx (Cpl.of 0)

/-- A role answered the volume commands that `p` picks. (DEDUCED, log entry 121.) -/
def State.volAnswer (s : State) (role : Nat) (good : Bool) (p : VolPend → Bool) : State :=
  let s := s.onRdg (fun r => { r with vols := r.vols.map (fun v =>
    if p v then { v with heard := setBit v.heard role, good := if good then setBit v.good role else v.good } else v) })
  (s.rdg.vols.filter (fun v => v.roles &&& v.heard == v.roles)).foldl State.endVol s

/-- Settle a conflict about the own role (R526): the newer epoch, and then the lower DSN, keeps it. (DEDUCED, log entry 121.) -/
def State.settle_ (s : State) (b : RoleAnn) : State :=
  if b.dsn.toNat = s.dsn then s
  else if newer b.epoch.toNat s.epoch || (b.epoch.toNat == s.epoch && decide (b.dsn.toNat < s.dsn)) then
    let r := s.role
    (s.dropRole).event Ev.RDG_ROLE_LOST [(8, r)]
  else s

/-- The table takes an announcement (R526). -/
def State.putAnn (s : State) (l r : Nat) (b : RoleAnn) : State :=
  let e := s.roleEntry r
  let take := !e.known || newer b.epoch.toNat e.epoch || (b.epoch.toNat == e.epoch && decide (b.dsn.toNat ≤ e.dsn))
  if (s.hasRole ∧ s.role = r) ∨ !take then s
  else
    s.setRole r ⟨true, b.dsn.toNat, b.epoch.toNat, b.col.toNat, b.row.toNat, b.flags.toNat, b.cls.toNat, b.hops.toNat + 1, b.hopsTs.toNat,
      b.ecc.toNat, l, true⟩

/-- What ROLE_ANN does once it is taken (R525 to R527, R534). (DEDUCED, log entry 118.) -/
def State.takeAnn (s : State) (h : RidgeHdr) (b : RoleAnn) : State :=
  let l := h.link.val
  let s := if b.hops = 0 then
      let s := s.onLink (4 + l) (fun k => { k with nbr := some (b.col.toNat, b.row.toNat), nbrRole := some (hdrSrc h) })
      ((s.derive l b).evalIso (4 + l)).tryPair
    else s
  let s := if s.hasRole ∧ s.role = (hdrSrc h) then s.settle_ b else s
  let s := (s.putAnn l (hdrSrc h) b).syncRoles
  s.volAnswer (hdrSrc h) true (fun v => v.op == 4 && v.epoch == b.epoch.toNat)

/-- The body of a ROLE_ANN with another HOPS. -/
def annBytes (b : RoleAnn) (hops : Nat) : List Byte :=
  leBytes 4 b.epoch.toNat ++ leBytes 8 b.dsn.toNat ++ [b.col, b.row, b.flags, b.cls, BitVec.ofNat 8 hops, b.hopsTs, b.ecc, 0]

/-- ROLE_ANN. -/
def execRoleAnn (h : RidgeHdr) (b : RoleAnn) (s : State) : Res :=
  .next (s.takeBroadcast h 0x20 (annBytes b (b.hops.toNat + 1)) (fun s => s.takeAnn h b))

/-- The body of a ROLE_SET after its EPOCH. -/
def roleSetBytes (b : RoleSet) : List Byte := [b.cols, b.orgCol, b.orgRow, 0] ++ leBytes 8 b.mask.toNat

/-- ROLE_SET (R525): the coordinate is derived from the next announcement of a neighbour. -/
def execRoleSet (h : RidgeHdr) (b : RoleSet) (s : State) : Res :=
  .next (s.takeBroadcast h 0x21 (leBytes 4 b.epoch.toNat ++ roleSetBytes b) (fun s =>
    match s.topEpoch with
    | some e => if newer b.epoch.toNat e || b.epoch.toNat == e && !s.hasRole then
        s.onRdg (fun r => { r with derive_ := some (b.epoch.toNat, b.cols.toNat, b.mask.toNat) }) else s
    | none => s.onRdg (fun r => { r with derive_ := some (b.epoch.toNat, b.cols.toNat, b.mask.toNat) })))

/-- ROLE_UNREACHABLE: no announcement for 5 × ANN (R525, R538). -/
def execRoleUnreachable (r : Fin 64) (s : State) : Res :=
  let e := s.roleEntry r
  if !e.known || !e.reachable then .next s
  else .next (((s.setRole r { e with reachable := false }).event Ev.RDG_PARTITION [(8, r.val)]).syncRoles)

/-- ALARM (R533). -/
def execAlarm (h : RidgeHdr) (epoch : Word) (event : BitVec 16) (s : State) : Res :=
  .next (s.takeBroadcast h 0x28 (leBytes 4 epoch.toNat ++ leBytes 2 event.toNat ++ leBytes 2 0) (fun s =>
    if s.isHead then s.event Ev.RDG_REMOTE_ALARM [(8, (hdrSrc h)), (16, event.toNat)] else s))

/-! ## Boundaries of the source (R239, R530 to R532) -/

/-- This device follows the source. -/
def State.follows (s : State) : Bool := s.lockState == 7 && !s.isSource

/-- The parent link, 7 for none. (DEDUCED, log entry 123.) -/
def State.parent (s : State) : Nat := s.getF Reg.RDG_TSTAT F.RDG_TSTAT_PARENT

/-- Make link l, which is `hops` away from the source, the parent. (DEDUCED, log entry 123.) -/
def State.setParent (s : State) (l hops : Nat) : State :=
  let s := (s.noParent.setF Reg.RDG_TSTAT F.RDG_TSTAT_PARENT l).setF Reg.RDG_TSTAT F.RDG_TSTAT_HOPS (min hops 0x3E)
  s.setF (Reg.RDG_LISO l) F.RDG_LISO_PARENT 1

/-- A BND with `hops` hops behind it offers link l as the parent (R530). (DEDUCED, log entry 123.) -/
def State.offer (s : State) (l hops : Nat) : State :=
  let s := s.onRdg (fun r => { r with offers := ainsert (aerase r.offers l) l hops })
  if s.parent = 7 then s.setParent l hops
  else if s.parent = l then s.setF Reg.RDG_TSTAT F.RDG_TSTAT_HOPS (min hops 0x3E)
  else if hops + 2 ≤ s.getF Reg.RDG_TSTAT F.RDG_TSTAT_HOPS then s.setParent l hops
  else s

/-- What a follower takes from a BND (R531, R239). -/
def State.takeBnd (s : State) (b : BndBody) : State :=
  let s := s.onGen (fun g => { g with given := some b.refNext.toNat, srcPeriod := some b.period.toNat })
  let s := (s.onRdg (fun r => { r with srcF := some (b.f.toNat % 2 ^ 48) })).setF Reg.RDG_TSTAT F.RDG_TSTAT_TS_LOST 0
  if s.gen.srcDigest = some b.digest then s
  else (s.onGen (fun g => { g with srcDigest := some b.digest })).checkDigest

def bndBytes (b : BndBody) (hops : Nat) : List Byte :=
  leBytes 4 b.epoch.toNat ++ leBytes 4 b.digest.toNat ++ leBytes 8 b.f.toNat ++ leBytes 8 b.refNext.toNat ++ leBytes 4 b.period.toNat
    ++ [BitVec.ofNat 8 hops, 0, 0, 0]

/-- BND. -/
def execBnd (h : RidgeHdr) (b : BndBody) (s : State) : Res :=
  let mine := s.follows && s.ridgeUp h.link.val && s.rdg.elected == some (hdrSrc h)
  let s := if mine then s.offer h.link.val (b.hops.toNat + 1) else s
  .next (s.takeBroadcast h 0x30 (bndBytes b (b.hops.toNat + 1)) (fun s => if mine then s.takeBnd b else s))

/-- PARENT_BND_MISSING: the parent's BND has been missing for 2 frame periods (R530). -/
def execParentBndMissing (s : State) : Res :=
  let p := s.parent
  if !s.follows || p == 7 then .next s
  else
    let s := s.onRdg (fun r => { r with offers := aerase r.offers p })
    let l := s.rdg.offers.filter (fun e => s.ridgeUp e.1)
    match l.foldl (fun b e => match b with
      | none => some e
      | some x => if e.2 < x.2 then some e else some x) none with
    | some e => .next (s.setParent e.1 e.2)
    | none => .next s.noParent

/-- MEAS: a window that the source re-placed applies at the boundary that starts frame APPLY (R242, R531). -/
def State.takeMeas (s : State) (b : MeasBody) : State :=
  let f := s.gen.fc + (b.apply.toNat + 2 ^ 32 - s.gen.fc % 2 ^ 32) % 2 ^ 32
  let v := b.view.toNat % 8
  let l := s.gen.replace.filter (fun r => decide (r.at_ ≤ f))
  let wins := (l.getLast?.map Replace.wins).getD s.gen.wins
  s.onGen (fun g => { g with
    replace := l.filter (fun r => r.at_ != f) ++ [⟨f, v, ainsert (aerase wins v) v (b.opening.toNat, b.dur.toNat)⟩]
      ++ g.replace.filter (fun r => decide (f < r.at_)) })

def execMeas (h : RidgeHdr) (b : MeasBody) (s : State) : Res :=
  .next (s.takeBroadcast h 0x31 (leBytes 4 b.epoch.toNat ++ leBytes 4 b.apply.toNat ++ [b.view, 0, 0, 0] ++ leBytes 4 b.opening.toNat
      ++ leBytes 4 b.dur.toNat ++ leBytes 4 0) (fun s =>
    if s.follows && s.rdg.elected == some (hdrSrc h) then s.takeMeas b else s))

/-- HOLD: a hold report (R343, R344). -/
def execHold (h : RidgeHdr) (b : HoldBody) (s : State) : Res :=
  .next (s.takeBroadcast h 0x32 (leBytes 4 b.epoch.toNat ++ leBytes 4 b.f.toNat ++ [b.slot, b.view, b.tgt, 0, 0, 0, 0, 0]) (fun s =>
    s.takeHold b.f.toNat b.slot.toNat b.view.toNat (b.tgt.toNat % 32) (hdrSrc h)))

/-! ## Time exchange (R530 to R532) -/

/-- TSYNC_TICK: a TSYNC_REQ on every link that takes part, stamped with the volume time `t`. -/
def execTsyncTick (t : Nat) (s : State) : Res :=
  if !s.isReady 7 || s.pwr.dormant then .next s
  else
    let s := s.reachTime t
    let n := s.rdg.tseq
    let s := s.onRdg (fun r => { r with tseq := (n + 1) % 2 ^ 32 })
    .next ((List.range 4).foldl (fun s l =>
      if s.ridgeUp l then
        (s.onRdg (fun r => { r with t1 := ainsert (aerase r.t1 l) l (n, t) })).linkSend (4 + l) 0x10 0
          (leBytes 8 t ++ leBytes 4 n ++ leBytes 4 0)
      else s) s)

/-- TSYNC_REQ: answered with the stamps of its receipt and of the answer's departure. Its scope is the link, so that an isolated link
answers it too (R517, R518). (DEDUCED, log entry 118.) -/
def execTsyncReq (q : Fin 4) (t1 : BitVec 64) (seq : Word) (t2 t3 : Nat) (s : State) : Res :=
  let _ := t1
  if s.getF (Reg.RDG_PST q.val) F.RDG_PST_STATE ≠ 5 then .next s
  else .next ((s.reachTime t3).linkSend (4 + q.val) 0x11 0 (leBytes 8 t2 ++ leBytes 8 t3 ++ leBytes 4 seq.toNat ++ leBytes 4 0))

/-- The volume time and every time of it that is held are `e` later (R531). (DEDUCED, log entry 122.) -/
def State.shiftTime (s : State) (e : Int) : State :=
  let mv := fun (t : Nat) => ((t : Int) + e).toNat
  let s := s.onGen (fun g => { g with
    vt := mv g.vt, bnd := mv g.bnd, ref := mv g.ref, lastSync := g.lastSync.map mv
    cams := g.cams.map (fun c => (c.1, { c.2 with openAt := c.2.openAt.map mv })) })
  let s := s.onFst (fun f => { f with bufs := f.bufs.map (fun b => (b.1, { b.2 with doneAt := mv b.2.doneAt })) })
  s.onPnl (fun p => { p with litAt := mv p.litAt })

/-- Step the volume time by `e` (R531): GEN_VT_STEP with the signed size, the counter, and ALIGNED clears. (DEDUCED, log entry 122.) -/
def State.stepTime (s : State) (e : Int) : State :=
  let s := s.shiftTime e
  let s := (s.bump Reg.RDG_VCNT_VT_STEP 1).setF Reg.GEN_STAT F.GEN_STAT_ALIGNED 0
  (s.onRdg (fun r => { r with vtStep := 0, aligned := 0 })).event Ev.GEN_VT_STEP [(64, ofSigned 64 e)]

/-- A step that waited for the end of the frame period (R531): the next boundary is the first one of the source that lies at least 768 row times
after the start of the last scan. -/
def State.stepAtBoundary (s : State) : State :=
  if s.rdg.vtStep = 0 then s
  else
    let s := s.stepTime s.rdg.vtStep
    let p := max 1 (s.gen.srcPeriod.getD s.period)
    let r := s.gen.given.getD (s.gen.ref + p)
    let lim := s.gen.bnd + (if s.nSlot = 0 then 0 else s.slotDelta (s.nSlot - 1) + 768 * s.rowT)
    let k := ceilDiv (lim - (r + s.boff)) p
    (s.onGen (fun g => { g with given := some (r + k * p) })).onRdg (fun d => { d with srcF := d.srcF.map (· + k) })

/-- A follower on e of its parent link (R531, R532). (DEDUCED, log entry 122.) -/
def State.align (s : State) (e : Int) : State :=
  let n := s.getF Reg.RDG_TSTAT F.RDG_TSTAT_HOPS
  let near := decide (e.natAbs ≤ 4 + 2 * n)
  let s := s.onRdg (fun r => { r with aligned := if near then r.aligned + 1 else 0 })
  let s := if 8 ≤ s.rdg.aligned then (s.setF Reg.GEN_STAT F.GEN_STAT_ALIGNED 1).setReg Reg.GEN_VT_UNC 0 else s
  if e = 0 ∨ (s.scanRuns = true ∧ e.natAbs ≤ 120000) then s.onRdg (fun r => { r with vtStep := 0 })
  else if s.scanRuns then s.onRdg (fun r => { r with vtStep := e })
  else s.stepTime e

/-- TSYNC_RSP: d and e of the link. -/
def execTsyncRsp (q : Fin 4) (t2 t3 : BitVec 64) (seq : Word) (t4 : Nat) (s : State) : Res :=
  match s.rdg.t1.find? (fun e => e.1 == q.val) with
  | none => .next s
  | some (_, n, t1) =>
    if n ≠ seq.toNat || !s.ridgeUp q.val then .next s
    else
      let s := s.reachTime t4
      let a : Int := (t4 : Int) - t1
      let b : Int := (t3.toNat : Int) - t2.toNat
      let d := rneDiv (a - b) 2
      let e := rneDiv (((t2.toNat : Int) - t1) - ((t4 : Int) - t3.toNat)) 2
      let s := s.setReg (Reg.RDG_LOFF q.val) (word (ofSigned 32 (satS 32 e)))
      let s := s.setF (Reg.RDG_LDLY q.val) F.RDG_LDLY_D (satU 16 d)
      let s := s.onRdg (fun r => { r with t1 := aerase r.t1 q.val })
      .next (if s.follows && s.parent == q.val then s.align e else s)

/-! ## Volume commands (R524, R534) -/

/-- The operand checks of VOL_CMD at check 8 (R95, R524, R534): DETAIL. -/
def State.volFault (s : State) (d : Desc) : Option Nat :=
  let a := d.arg 1
  match d.arg 0 with
  | 1 => if !s.hasRole then some 0x24 else if 2 < a then some 0x28 else none
  | 2 => if !s.hasRole then some 0x24 else if 1 < a then some 0x28 else none
  | 3 => if s.hasRole then none else some 0x24
  | 4 =>
    let cols := a % 128
    let c := a / 256 % 64
    let r := a / 65536 % 64
    if a ≠ cols + 256 * c + 65536 * r ∨ cols = 0 ∨ 64 < cols ∨ cols ≤ c ∨ 63 < r * cols + c then some 0x28
    else if (d.arg2 2).testBit (r * cols + c) then none else some 0x2C
  | _ => some 0x24

/-- F_EFF lies ahead of the frame counter in force. -/
def State.ahead (s : State) (feff : Nat) : Bool := newer feff (s.gen.fc % 2 ^ 32)

/-- Take a volume command for this device: its RESULT, and the state in which it waits for its boundary (R534). -/
def State.takeVcmd (s : State) (op param feff epoch : Nat) : Nat × State :=
  if newer s.epoch epoch then (2, s)
  else
    let late := !s.ahead feff
    let f := if late then (s.gen.fc + 1) % 2 ^ 32 else feff
    (b2n late, if op = 3 then s else s.onRdg (fun r => { r with sched := r.sched ++ [(f, op, param)] }))

/-- Issue VOL_STATE, VOL_HOLD or VOL_RESET (R534). -/
def State.volIssue (op : Nat) (c : Nat) (d : Desc) (s : State) : State :=
  let roles := d.arg2 2
  let feff := (s.gen.fc + 2) % 2 ^ 32
  let own := s.hasRole && roles.testBit s.role
  let v : VolPend := ⟨c, d.idx, op, roles, 0, 0, s.rdg.bseq, s.epoch⟩
  let s := s.flood 0x38 (leBytes 4 op ++ leBytes 4 (d.arg 1) ++ leBytes 4 feff ++ leBytes 8 roles)
  let s := s.onRdg (fun r => { r with vols := r.vols ++ [v] })
  let s := if own then (s.takeVcmd op (d.arg 1) feff s.epoch).2 else s
  s.volAnswer s.role own (fun x => x.client == c && x.idx == d.idx && own)

/-- A VOL_CMD with ARG0 = n. -/
def isVol (n : Nat) (d : Desc) : Bool := isOp 0x30 d && d.arg 0 == n

def execVolState (c : Fin 256) (s : State) : Res := .next (s.startWith c (isVol 1) (State.volIssue 1 c))
def execVolHold (c : Fin 256) (s : State) : Res := .next (s.startWith c (isVol 2) (State.volIssue 2 c))
def execVolReset (c : Fin 256) (s : State) : Res := .next (s.startWith c (isVol 3) (State.volIssue 3 c))

/-- VOL_ROLE (R524): the origin role with a new epoch, ROLE_SET, and the announcement. -/
def State.volRole (c : Nat) (d : Desc) (s : State) : State :=
  let a := d.arg 1
  let cols := a % 128
  let col := a / 256 % 64
  let row := a / 65536 % 64
  let epoch := match s.topEpoch with
    | some e => (e + 1) % 2 ^ 32
    | none => 1
  let s := s.takeRole col row (row * cols + col) epoch (d.arg2 2)
  let s := s.flood 0x21 ([BitVec.ofNat 8 cols, BitVec.ofNat 8 col, BitVec.ofNat 8 row, 0] ++ leBytes 8 (d.arg2 2))
  let s := s.announce
  let s := s.onRdg (fun r => { r with vols := r.vols ++ [⟨c, d.idx, 4, d.arg2 2, 0, 0, 0, epoch⟩] })
  s.volAnswer s.role true (fun x => x.client == c && x.idx == d.idx)

def execVolRole (c : Fin 256) (s : State) : Res := .next (s.startWith c (isVol 4) (State.volRole c))

/-- VCMD_TIMEOUT: 10 ms have passed since the oldest VOL_CMD in progress was issued (R534). -/
def execVcmdTimeout (s : State) : Res :=
  match s.rdg.vols with
  | v :: _ => .next (s.endVol v)
  | [] => .next s

/-- A VCMD is taken: a named device answers it with VACK (R534); `act` follows. -/
def State.takeVcmdMsg (s : State) (h : RidgeHdr) (op : Nat) (b : VcmdBody) (act : State → State) : State :=
  s.takeBroadcast h 0x38 (leBytes 4 b.epoch.toNat ++ leBytes 4 op ++ leBytes 4 b.param.toNat ++ leBytes 4 b.feff.toNat ++ leBytes 8 b.roles.toNat)
    (fun s =>
      if !(s.hasRole && b.roles.toNat.testBit s.role) then s
      else
        let (r, s) := s.takeVcmd op b.param.toNat b.feff.toNat b.epoch.toNat
        let r := if op = 3 ∧ r = 1 then 0 else r
        let s := s.unicast (hdrSrc h) 0x39 (leBytes 4 (s.roleEntry (hdrSrc h)).epoch ++ leBytes 2 (hdrBseq h) ++ [BitVec.ofNat 8 r, 0])
        if r = 2 then s else act s)

def execVcmdState (h : RidgeHdr) (b : VcmdBody) (s : State) : Res := .next (s.takeVcmdMsg h 1 b id)
def execVcmdHold (h : RidgeHdr) (b : VcmdBody) (s : State) : Res := .next (s.takeVcmdMsg h 2 b id)

/-- VACK. (DEDUCED, log entry 121.) -/
def execVack (h : RidgeHdr) (epoch : Word) (vseq : BitVec 16) (result : Byte) (s : State) : Res :=
  .next (s.takeUnicast h 0x39 epoch.toNat (leBytes 2 vseq.toNat ++ [result, 0]) (fun s =>
    s.volAnswer (hdrSrc h) (result == 0) (fun v => v.op != 4 && v.bseq == vseq.toNat)))

/-- The volume commands that apply at the boundary that starts frame `f`: operation and parameter (R534). -/
def State.dueVcmds (s : State) (f : Nat) : List (Nat × Nat) × State :=
  let due := s.rdg.sched.filter (fun e => !newer e.1 (f % 2 ^ 32))
  (due.map (·.2), s.onRdg (fun r => { r with sched := r.sched.filter (fun e => newer e.1 (f % 2 ^ 32)) }))

/-- The source announces its boundary (R529). -/
def State.sendBnd (s : State) : State :=
  if s.isSource then
    s.flood 0x30 (leBytes 4 (s.reg Reg.GEN_DIGEST).toNat ++ leBytes 8 s.gen.fc ++ leBytes 8 s.nextRef ++ leBytes 4 s.period ++ [0, 0, 0, 0])
  else s

/-- The source sends the windows of re-placement `r` that differ from those before it; a view that returns to its programmed window is sent with
that (R242, R531). -/
def State.sendReplace (s : State) (old : AMap (Nat × Nat)) (r : Replace) : State :=
  let back := (old.filter (fun e => !r.wins.any (fun x => x.1 == e.1))).map (fun e => (e.1, s.progWin e.1))
  (r.wins.filter (fun e => !old.contains e) ++ back).foldl (fun s e =>
    s.flood 0x31 (leBytes 4 (r.at_ % 2 ^ 32) ++ [BitVec.ofNat 8 e.1, 0, 0, 0] ++ leBytes 4 e.2.1 ++ leBytes 4 e.2.2 ++ leBytes 4 0)) s

/-- The source sends its re-placements to come, `old` the windows in use before the boundary (R242, R531). -/
def State.sendMeas (s : State) (old : AMap (Nat × Nat)) : State :=
  if !s.isSource then s
  else (s.gen.replace.foldl (fun (acc : AMap (Nat × Nat) × State) r => (r.wins, acc.2.sendReplace acc.1 r)) (old, s)).2

end Sys2Proof.Machine
end

