-- ==== Sys2Proof/Machine/Window.lean ====
section
/-! DEFINITION. The Premal window port: BAR4, the pointer, the journal and the overlay (R587 to R601). -/

namespace Sys2Proof.Machine

def State.onWin (s : State) (f : WinState → WinState) : State := { s with win := f s.win }

/-- BAR4 offsets that events carry (R591). -/
def wpPtrX : Nat := 0x10
def wpPtrY : Nat := 0x14
def wpData : Nat := 0x18

/-! ## Dropping and refusing (R591, R598) -/

/-- A BAR4 write dropped for a cause other than refusal (R600). -/
def State.winDrop (s : State) : State := s.bump Reg.WIN_CNT_DROP 1

/-- The transaction that makes the port refuse, if there is one: the first Open one, or else the first Failed one (R135, R598, R601).
(DEDUCED, log entry 71.) -/
def State.winBlocker (s : State) : Option Txn :=
  match s.stg.txns.find? (fun t => !t.failed) with
  | some t => some t
  | none => s.stg.txns.head?

/-- WIN_STAT.REFUSE (R598, R600). (DEDUCED, log entry 71.) -/
def State.syncRefuse (s : State) : State := s.setF Reg.WIN_STAT F.WIN_STAT_REFUSE (b2n s.winBlocker.isSome)

/-- WIN_STAT.JPEND (R600). -/
def State.syncJpend (s : State) : State := s.setF Reg.WIN_STAT F.WIN_STAT_JPEND s.win.journal.length

/-- Take a BAR4 write with byte enables `be` at `off`: dropped when partial, refused while a transaction is open, otherwise `f` acts. -/
def State.winWrite (s : State) (off be : Nat) (f : State → State) : State :=
  if be = 0 || !s.hostReaches then s
  else if be ≠ 15 then s.winDrop.event Ev.WIN_PARTIAL [(32, off)]
  else
    match s.winBlocker with
    | some t =>
      let s := (s.bump Reg.WIN_CNT_REFUSED 1).syncRefuse
      if s.win.refused then s
      else (s.onWin (fun w => { w with refused := true })).event Ev.WIN_REFUSED [(8, t.client)]
    | none => f ((s.onWin (fun w => { w with refused := false })).syncRefuse)

/-! ## The pointer (R592, R593) -/

/-- A write of WP_PTR_X (R592). -/
def State.winPtrX (s : State) (v : Word) : State := s.onWin (fun w => { w with shadow := v.toNat % 4096, armed := true })

/-- Whether the pointer (x, y) and the window lie inside the segment (R592). -/
def State.ptrOk (s : State) (x y : Nat) : Bool :=
  let w := s.win
  decide (1 ≤ w.ww ∧ 1 ≤ w.wh ∧ w.wx0 + w.ww ≤ s.width ∧ w.wy0 + w.wh ≤ s.height
    ∧ w.wx0 ≤ x ∧ x < w.wx0 + w.ww ∧ w.wy0 ≤ y ∧ y < w.wy0 + w.wh)

/-- A write of WP_PTR_Y (R592). -/
def State.winPtrY (s : State) (v : Word) : State :=
  let y := v.toNat % 2048
  if !s.win.armed then s.winDrop.event Ev.WIN_PTR_ORDER [(16, y)]
  else
    let x := s.win.shadow
    if s.ptrOk x y then
      s.onWin (fun w => { w with x := x, y := y, c := 0, armed := false, wrapped := false, stale := true, valid := true })
    else (s.onWin (fun w => { w with armed := false, valid := false })).event Ev.WIN_BAD_PTR [(16, x), (16, y)]

/-- One step of the pointer (R593). -/
def WinState.advance (w : WinState) : WinState :=
  if w.c < 2 then { w with c := w.c + 1 }
  else
    let w := { w with c := 0, x := w.x + 1 }
    if w.x ≠ w.wx0 + w.ww then w
    else
      let w := { w with x := w.wx0, y := w.y + 1 }
      if w.y ≠ w.wy0 + w.wh then w else { w with y := w.wy0, wrapped := true }

/-- A write of the window register at `off`: WP_WX0, WP_WY0, WP_WW or WP_WH (R591). -/
def State.winWindow (s : State) (off : Nat) (v : Word) : State :=
  let n := v.toNat
  s.onWin (fun w =>
    let w := if off = 0x20 then { w with wx0 := n % 4096 }
      else if off = 0x24 then { w with wy0 := n % 2048 }
      else if off = 0x28 then { w with ww := n % 8192 }
      else { w with wh := n % 2048 }
    { w with valid := false, armed := false, stale := true })

/-! ## The overlay (R588, R594, R595) -/

/-- The overlay's region (R208, R588). -/
def State.overlayPlace (s : State) : Placement := ⟨0x30000, 0x3000, 0, s.width, s.height⟩

/-- The samples of one row of an overlay block; a block whose zero-map bit is set reads as code 0. -/
def State.overlayBlockRow (s : State) (bx bY r : Nat) : List Nat :=
  let p := s.overlayPlace
  if s.win.written.testBit (bY * ceilDiv p.w 64 + bx) then
    (s.readBlock 0x6000 p false bx bY).1.getD r []
  else List.replicate 192 0

/-- Row y of the overlay. -/
def State.overlayRow (s : State) (y : Nat) : List Nat :=
  ((List.range (ceilDiv s.width 64)).flatMap (fun bx => s.overlayBlockRow bx (y / 4) (y % 4))).take (3 * s.width)

/-- Put a coded value into the overlay (R588, R594); there is no pixel outside the geometry in force. (DEDUCED, log entry 70.) -/
def State.overlayPut (s : State) (x y c v : Nat) : State :=
  if s.width ≤ x ∨ s.height ≤ y then s
  else
  let p := s.overlayPlace
  let bx := x / 64
  let bY := y / 4
  let i := bY * ceilDiv p.w 64 + bx
  let k := 3 * (x % 64) + c
  let row := (s.overlayBlockRow bx bY (y % 4)).zipIdx.map (fun e => if e.2 = k then v else e.1)
  let fresh := !s.win.written.testBit i
  let s := (List.range 4).foldl (fun s r =>
    if r = y % 4 then s.fsWrite (blockAddr p false bx bY + 432 * r) (rowBytes false row)
    else if fresh then s.fsWrite (blockAddr p false bx bY + 432 * r) (rowBytes false (List.replicate 192 0)) else s) s
  s.onWin (fun w => { w with written := setBit w.written i })

/-- The coded value of a 12-bit sample (R594). -/
def replicate12 (n : Nat) : Nat := n * 64 + n / 64

/-- An accepted data write enters the FIFO and journal, and the pointer advances (R594, R595). (DEDUCED, log entry 70.) -/
def State.winAccept (s : State) (v : Word) : State :=
  let w := s.win
  let w1 := w.advance
  let w2 := w1.advance
  let e : WinWrite := ⟨w.x, w.y, w.c, replicate12 (v.toNat % 4096), w1.x, w1.y, w1.c, replicate12 (v.toNat / 65536 % 4096)⟩
  ((s.onWin (fun _ => { w2 with journal := w.journal ++ [e], stale := true })).bump Reg.WIN_CNT_ACC 1).syncJpend

/-- The room of the FIFO and the journal together (R595, R600). -/
def journalRoom : Nat := 983296

/-- A data write (R594). -/
def State.winData (s : State) (off : Nat) (v : Word) : State :=
  if !s.winEnabled || !s.isReady 17 then
    let s := s.winDrop
    if s.win.disabled then s else (s.onWin (fun w => { w with disabled := true })).event Ev.WIN_DISABLED []
  else
    let s := s.onWin (fun w => { w with disabled := false })
    if !s.win.valid then s.winDrop.event Ev.WIN_NO_PTR [(32, off)] else s.winAccept v

/-- A write of the BAR4 word at `off` (R591): WP_DATA and the aperture, the pointer, the window; a write of the two read-only words is
dropped without an event (R7), and one of an unlisted offset with its event. -/
def State.winStore (s : State) (off be : Nat) (v : Word) : State :=
  if off = wpData ∨ 0x8000 ≤ off then s.winWrite off be (fun s => s.winData off v)
  else if off = wpPtrX then s.winWrite off be (fun s => s.winPtrX v)
  else if off = wpPtrY then s.winWrite off be (fun s => s.winPtrY v)
  else if 0x20 ≤ off ∧ off < 0x30 then s.winWrite off be (fun s => s.winWindow off v)
  else if be = 0 || !s.hostReaches then s
  else if be ≠ 15 then s.winDrop.event Ev.WIN_PARTIAL [(32, off)]
  else if off < 8 then s.winDrop
  else s.winDrop.event Ev.HST_UNMAPPED []

/-! ## Reading (R596, R597) -/

/-- The 12-bit sample at a pointer, as applied. A pointer outside the segment names no sample: a free value. -/
def State.winSample (s : State) (w : WinState) : Nat × State :=
  if w.x < s.width ∧ w.y < s.height then ((s.overlayRow w.y).getD (3 * w.x + w.c) 0 / 64, s)
  else
    let (n, s) := s.free
    (n % 4096, s)

/-- Fetch the two samples at the pointer into the latch. (DESIGN CHOICE, log entry 7; DEDUCED, log entry 70.) -/
def State.winFetch (s : State) : State :=
  let w := s.win
  let (a, s) := s.winSample w
  let (b, s) := s.winSample w.advance
  s.onWin (fun w => { w with latchA := a, latchB := b, stale := false })

/-- A read of WP_DATA (R596). -/
def State.winRead (s : State) : State :=
  if !s.hostReaches then s
  else if !s.winEnabled then s.emit (.readReply (BitVec.allOnes 32))
  else
    let s := s.emit (.readReply (word (s.win.latchA + 65536 * s.win.latchB)))
    if s.win.stale then s.winFetch else (s.onWin (fun w => w.advance.advance)).winFetch

/-! ## The order of the accesses (R595, R597)

While the FIFO and the journal are full the port holds further accesses, and takes them in order once there is room.
(DEDUCED, log entry 71.) -/

/-- A BAR4 access acts: a write of the word at an offset, or a WP_DATA read. -/
def State.winAct (s : State) : Option (Nat × Nat × Word) → State
  | some (off, be, v) => s.winStore off be v
  | none => s.winRead

/-- A BAR4 access arrives. -/
def State.winAccess (s : State) (a : Option (Nat × Nat × Word)) : State :=
  if journalRoom ≤ s.win.journal.length ∨ s.win.held ≠ [] then s.onWin (fun w => { w with held := w.held ++ [a] }) else s.winAct a

/-- The accesses that the full port held act, in order, as far as there is room. -/
def State.winRetry : List (Option (Nat × Nat × Word)) → State → State
  | [], s => s.onWin (fun w => { w with held := [] })
  | a :: t, s =>
    if journalRoom ≤ s.win.journal.length then s.onWin (fun w => { w with held := a :: t }) else State.winRetry t (s.winAct a)

/-- WP_PTR_X_WRITE. -/
def execWpPtrXWrite (be : BitVec 4) (v : Word) (s : State) : Res := .next (s.winAccess (some (wpPtrX, be.toNat, v)))

/-- WP_PTR_Y_WRITE. -/
def execWpPtrYWrite (be : BitVec 4) (v : Word) (s : State) : Res := .next (s.winAccess (some (wpPtrY, be.toNat, v)))

/-- WP_WINDOW_WRITE: WP_WX0, WP_WY0, WP_WW or WP_WH (R591). -/
def execWpWindowWrite (k : Fin 4) (be : BitVec 4) (v : Word) (s : State) : Res :=
  .next (s.winAccess (some (0x20 + 4 * k.val, be.toNat, v)))

/-- WP_DATA_WRITE: WP_DATA or a word of the aperture (R594), or an offset that BAR4 does not list (R591). -/
def execWpDataWrite (off : Nat) (be : BitVec 4) (v : Word) (s : State) : Res := .next (s.winAccess (some (off, be.toNat, v)))

/-- WP_DATA_READ. -/
def execWpDataRead (s : State) : Res := .next (s.winAccess none)

/-- JOURNAL_APPLY: the oldest accepted write is applied while the overlay is open (R595). -/
def execJournalApply (s : State) : Res :=
  match s.win.journal with
  | [] => .next s
  | e :: rest =>
    if !s.flag Reg.WIN_STAT F.WIN_STAT_OPEN || s.step2Stops then .next s
    else
      let s := s.onWin (fun w => { w with journal := rest })
      let s := ((s.overlayPut e.xa e.ya e.ca e.va).overlayPut e.xb e.yb e.cb e.vb).syncJpend
      .next (State.winRetry s.win.held s)

/-- What a read of the BAR4 word at `off` other than WP_DATA and the aperture shows (R591); an unlisted offset reads 0. -/
def State.winWord (s : State) (off : Nat) : Word :=
  let w := s.win
  if off = 0x00 then 0x22126418
  else if off = 0x04 then
    word (b2n s.winEnabled + 2 * b2n s.winBlocker.isSome + 4 * b2n w.valid + 8 * b2n w.armed + 16 * b2n w.stale + 32 * b2n w.wrapped
      + 64 * b2n (!w.journal.isEmpty))
  else if off = wpPtrX then word w.x
  else if off = wpPtrY then word (w.y + 4096 * w.c)
  else if off = 0x20 then word w.wx0
  else if off = 0x24 then word w.wy0
  else if off = 0x28 then word w.ww
  else if off = 0x2C then word w.wh
  else 0

/-! ## The boundary at which WIN_CFG.EN changes (R588, R589) -/

/-- EN takes effect as 1; with WPORT set that ends the episode of WIN_DISABLED (R601). -/
def State.winOn (s : State) : State :=
  (s.onWin (fun w => { w with written := 0, disabled := w.disabled && !s.isReady 17 })).setF Reg.WIN_STAT F.WIN_STAT_IN_FORCE 1

/-- EN takes effect as 0: what was accepted is discarded, and what the port held meets the disabled port. -/
def State.winOff (s : State) : State :=
  let n := s.win.journal.length
  let s := (s.onWin (fun w => { w with journal := [] })).syncJpend
  let s := (s.setF Reg.WIN_STAT F.WIN_STAT_IN_FORCE 0).event Ev.WIN_DISCARD [(32, n)]
  State.winRetry s.win.held s

end Sys2Proof.Machine
end

