-- ==== Sys2Proof/Machine/Commit.lean ====
section
/-! DEFINITION. Deciding a commit and bringing its values into force (R69, R70, R117, R120, R124 to R132, R629), with the consistency
rules of the function chapters. -/

namespace Sys2Proof.Machine

/-! ## Staged values by Takes effect (R8, R126) -/

/-- Where the staged fields of the register at `off` take effect; no register mixes two values. -/
def effectOf (off : Nat) : Effect :=
  match regAt off with
  | some (d, _, _) =>
    match d.fields.find? (fun f => f.access == .sr || f.access == .lk) with
    | some f => f.effect
    | none => .immediate
  | none => .immediate

/-- The values of `m` whose registers take effect at `e`. -/
def regsAt (e : Effect) (m : AMap Word) : AMap Word := m.filter (fun x => effectOf x.1 == e)

/-- The values in force with every Pending and waiting value over them (R124). -/
def State.waitingOver (s : State) : State :=
  (s.stg.pendings.foldl (fun s p => s.withRegs p.regs) s).withRegs (s.stg.idle.map (fun e => (e.1, e.2.1)))

/-- The state after the commit of `t` (R124). -/
def State.afterCommit (s : State) (t : Txn) : State := s.waitingOver.withRegs t.regs

/-! ## The rules that reject a commit (R124). Each answers the offsets of the registers at fault -/

/-- Whether `v` carries a rejected value in a field of the register at `off` (R10). -/
def rejects (off : Nat) (v : Word) : Bool :=
  match regAt off with
  | some (d, _, _) => d.fields.any (fun f => f.bad.any (fun r => decide (r.1 ≤ fieldOf f.fld v ∧ fieldOf f.fld v ≤ r.2)))
  | none => false

/-- One offset if `b` holds. -/
def atFault (b : Bool) (off : Nat) : List Nat := if b then [off] else []

/-- The function of a lockable domain is enabled (R70). -/
def State.domainEnabled (a : State) (d : Nat) : Bool :=
  if d < 7 then a.flag (lkBase (d + 1)) F.RDG_LCFG_EN
  else if d < 11 then a.flag (lkBase (d - 7)) F.RAF_PCFG_EN || a.getF (Reg.RAF_LOOP (d - 7)) F.RAF_LOOP_MODE != 0
  else if d < 15 then a.flag (Reg.MAG_CFG (d - 11)) F.MAG_CFG_EN
  else if d = 20 then a.reg Reg.SWG_MODE0 != 0 || a.reg Reg.SWG_MODE1 != 0
  else false

/-- PWR_LOCKOFF (R69, R70): a bit that is set stays set, and an enabled function is not locked off. -/
def lockFaults (s a : State) (t : Txn) : List Nat :=
  match t.regs.find? (fun e => e.1 == Reg.PWR_LOCKOFF) with
  | none => []
  | some (_, v) =>
    let old := (s.reg Reg.PWR_LOCKOFF).toNat
    let new := (s.stagedValue Reg.PWR_LOCKOFF v).toNat
    atFault ((List.range 32).any (fun d => (bit old d && !bit new d) || (bit new d && !bit old d && a.domainEnabled d))) Reg.PWR_LOCKOFF

/-- Links (R166, R515): enough lanes for MIN_WIDTH, and no loopback on an enabled port. (DEDUCED, log entry 53.) -/
def linkFaults (a : State) : List Nat :=
  (List.range 8).flatMap (fun q =>
    let n := popcount (a.laneEn q) 4
    atFault (a.lkEnabled q && (decide (n < a.minWidth q) || n == 0 || a.getF (lkBase q + 8) F.RAF_LOOP_MODE != 0)) (lkBase q))

/-- Views (R4, R200, R348, R527, R587). -/
def viewFaults (a : State) (t : Txn) : List Nat :=
  let mixed := a.part == .ba && a.flag Reg.RDG_ROLE F.RDG_ROLE_MIXED
  (List.range 8).flatMap (fun v =>
    let noBuf := (if a.lineLock v then !a.wantsBuffer (selLine v) else !a.wantsBuffer selBase)
      || (bitsOf (a.winEn v) 4).any (fun w => !a.wantsBuffer (selWindow v w))
    atFault ((a.lineLock v && a.winEn v != 0) || (a.viewEn v && decide (4 ≤ v) && (a.part == .bc || mixed)) || (a.viewEn v && noBuf))
        (Reg.VIEW_CFG v)
      ++ atFault (a.getF (Reg.VIEW_HTIME v) F.VIEW_HTIME_HOLD_MAX != 0
          && decide (a.getF (Reg.VIEW_HTIME v) F.VIEW_HTIME_HOLD_MAX < a.getF (Reg.VIEW_HTIME v) F.VIEW_HTIME_FADE)) (Reg.VIEW_HTIME v))
    ++ atFault (a.winEnabled && a.lineLock 0) (if t.regs.any (fun e => e.1 == Reg.WIN_CFG) then Reg.WIN_CFG else Reg.VIEW_CFG 0)

/-- Whether a view passes `p` in the values in force or after the commit, in the one of them in which it is enabled (R213). -/
def eitherEnabled (s a : State) (v : Nat) (p : State → Bool) : Bool := (s.viewEn v && p s) || (a.viewEn v && p a)

/-- The frame store (R213, R214). (DEDUCED, log entry 56.) -/
def storeFaults (s a : State) : List Nat :=
  let changed (sel : Nat) : Bool := decide (s.wanted sel ≠ a.wanted sel)
  let plateBusy := (List.range 16).any (fun i => (s.staging i).any (fun g => decide (s.gen.fc ≤ g.frame)))
  let plates := decide (s.getF Reg.FST_ALLOC F.FST_ALLOC_PLATE_N ≠ a.getF Reg.FST_ALLOC F.FST_ALLOC_PLATE_N)
    || decide (s.getF Reg.SWG_MODE0 F.SWG_MODE0_PLATE ≠ a.getF Reg.SWG_MODE0 F.SWG_MODE0_PLATE)
  atFault (a.newPlaces.isNone
      || (changed selBase && (List.range 8).any (fun v => eitherEnabled s a v (fun x => !x.lineLock v)))
      || (List.range 8).any (fun v => changed (selLine v) && eitherEnabled s a v (fun x => x.lineLock v))
      || (plates && plateBusy)
      || (a.part == .bc && a.getF Reg.FST_ALLOC F.FST_ALLOC_PLATE_N != 0)
      || a.demandTooHigh) Reg.FST_ALLOC
    ++ (List.range 8).flatMap (fun v => (List.range 4).flatMap (fun w =>
      let x := a.walloc v w
      let mw := fieldOf F.FST_WALLOC_MAXW x
      let mh := fieldOf F.FST_WALLOC_MAXH x
      atFault (((changed (selWindow v w) || changed (selMask v w)) && eitherEnabled s a v (fun y => bit (y.winEn v) w))
        || (fieldOf F.FST_WALLOC_EN x == 1 && (mw == 0 || decide (4096 < mw) || mh == 0 || decide (1536 < mh)))) (Reg.FST_WALLOC v w)))
    ++ atFault (decide (s.getF Reg.SWG_MODE0 F.SWG_MODE0_HIST ≠ a.getF Reg.SWG_MODE0 F.SWG_MODE0_HIST)
        && decide (s.getF Reg.PWR_STATE F.PWR_STATE_CUR ≤ 1)) Reg.SWG_MODE0

/-- Timing (R239, R246, R253): commit checks use the programmed windows (R242). -/
def timingFaults (a : State) (t : Txn) : List Nat :=
  atFault (a.genSrc == 1 && !a.flag Reg.GBL_STRAP F.GBL_STRAP_TIMING_SRC) Reg.GEN_CFG
    ++ atFault (a.genSrc == 2 && a.fcLoad.isSome) Reg.GEN_FCSET_HI
    ++ (if (List.range 9).any (fun k => bit t.mask (k + 1)) then (a.schedFaults []).map (·.1) else [])

/-- Whether the loads `ranges` of table `t` cover every byte from 0 to `n` − 1. -/
def covers (ranges : List (Nat × Nat × Nat)) (t n : Nat) : Bool :=
  let sorted : AMap Nat := (ranges.filter (fun r => r.1 == t)).foldl (fun m r =>
    ainsert (aerase m r.2.1) r.2.1 (max (aget (fun _ => 0) m r.2.1) (r.2.1 + r.2.2))) []
  decide (n ≤ sorted.foldl (fun e r => if r.1 ≤ e then max e r.2 else e) 0)

/-- The bytes of view v's table image in the state after the commit (R268). -/
def State.cubeBytes (a : State) (v : Nat) : Nat := 8 * [0, 17, 33, 0].getD (a.getF (Reg.CLR_3D v) F.CLR_3D_CUBE) 0 ^ 3

/-- The 3-D tables (R270, R455). `before` is the state after every waiting value. The pool must hold every copy after the commit, after the
exchanges of the next boundary, and after those that the gate holds. (DEDUCED, log entry 90.) -/
def colourFaults (s before a : State) (t : Txn) : List Nat :=
  let loads := t.loads ++ s.stg.pendings.flatMap (·.loads)
  let units (x : State) (v : Nat) : Nat := x.getF (Reg.CLR_ALLOC v) F.CLR_ALLOC_UNITS
  let changed := (List.range 8).filter (fun v => decide (units s v ≠ units a v))
  let held (loads : List Nat) : Nat := (List.range 8).foldl (fun n v =>
    n + (if changed.contains v then units a v else s.getF (Reg.CLR_ASTAT v) F.CLR_ASTAT_INACT_UNITS)
      + (if loads.contains (0x20000 + v) then units a v else s.getF (Reg.CLR_ASTAT v) F.CLR_ASTAT_ACT_UNITS)) 0
  let soon := (if s.gateArmed then [] else t.loads) ++ (s.stg.pendings.filter (fun p => !p.gated)).flatMap (·.loads)
  let full := [[], soon, loads].any (fun l => decide (227 < held l))
  (List.range 8).flatMap (fun v =>
    let tb := 0x20000 + v
    let size := a.cubeBytes v
    let cap := if changed.contains v && loads.contains tb then 32768 * units a v else s.tableCap tb (loads.contains tb)
    let cube (x : State) : Nat := x.getF (Reg.CLR_3D v) F.CLR_3D_CUBE
    atFault (decide (cube a ≠ 0 ∧ (32768 * units a v < size ∨ cap < size))
        || (changed.contains v && t.loads.contains tb)
        || ((changed.contains v || t.loads.contains tb) && full)) (Reg.CLR_ALLOC v)
      ++ atFault (decide (cube before ≠ cube a ∧ cube a ≠ 0) && !covers t.ranges tb size) (Reg.CLR_3D v))

/-- The defect map, bands, sequences, scan order, drivers and Lath times (R283, R324, R327, R353, R354, R379). -/
def pipeFaults (s a : State) (t : Txn) : List Nat :=
  let count := a.getF Reg.DMU_DEF F.DMU_DEF_COUNT
  let loaded := (t.loads ++ s.stg.pendings.flatMap (·.loads)).contains tDEFECT
  let get (e : Nat) : Nat := if loaded then s.tinNum tDEFECT (8 * e) 8 else s.tactNum tDEFECT (8 * e) 8
  let tc (b : Nat) : Int := toSigned 16 (a.getF (Reg.ODV_BAND b) F.ODV_BAND_TC)
  let badBand := ((List.range (a.getF Reg.ODV_CFG F.ODV_CFG_NBAND)).find? (fun b => decide (tc (b + 1) ≤ tc b))).map (· + 1)
  let w := a.width
  let d := a.getF Reg.BAT_CFG F.BAT_CFG_NDRV
  let o := 3 * w / max d 1
  let l := a.reg Reg.LTH_TIME0
  atFault (decide (prefixLen get count 0 none < count)) Reg.DMU_DEF
    ++ badBand.toList.map Reg.ODV_BAND
    ++ (List.range 8).flatMap (fun v =>
      let q := (a.reg (Reg.DTH_SEQ_LO v)).toNat + 2 ^ 32 * (a.reg (Reg.DTH_SEQ_HI v)).toNat
      let seen := (List.range 16).foldl (fun m k => setBit m (q / 16 ^ k % 16)) 0
      atFault (seen != 65535) (Reg.DTH_SEQ_LO v))
    ++ atFault (decide ((a.getF Reg.SCN_CFG F.SCN_CFG_ORDER = 1 ∨ a.getF Reg.SCN_CFG F.SCN_CFG_ORDER = 2) ∧ a.height ≠ 1536)) Reg.SCN_CFG
    ++ atFault (decide (d = 0 ∨ 3 * w % max d 1 ≠ 0 ∨ 1024 < o)) Reg.BAT_CFG
    ++ [0, 1].flatMap (fun h => (List.range d).flatMap (fun j =>
      atFault (decide (1024 < a.getF (Reg.BAT_DMAP h j) F.BAT_DMAP_FIRST + o)) (Reg.BAT_DMAP h j)))
    ++ atFault (decide (fieldOf F.LTH_TIME0_GON l < fieldOf F.LTH_TIME0_DHOLD l + 12)) Reg.LTH_TIME0

/-- The segment geometry (R372, R587). -/
def geomFaults (s a : State) : List Nat :=
  atFault (decide (s.reg Reg.SCN_GEOM ≠ a.reg Reg.SCN_GEOM)
    && (decide (s.getF Reg.PWR_STATE F.PWR_STATE_CUR ≤ 1) || s.winEnabled || (List.range 8).any (fun v => s.viewEn v || a.viewEn v))) Reg.SCN_GEOM

/-- The panel (R381, R398). -/
def panelFaults (a : State) : List Nat :=
  let used := (List.range 6).filter (fun n => a.flag (Reg.SCN_PRAIL n) F.SCN_PRAIL_USED)
  let pos (n : Nat) : Nat := a.getF (Reg.SCN_PRAIL n) F.SCN_PRAIL_POS
  let led := used.filter (fun n => a.getF (Reg.SCN_PRAIL n) F.SCN_PRAIL_CLASS == 3)
  let bad := used.filter (fun n => decide (used.length ≤ pos n) || used.any (fun m => m != n && pos m == pos n)
    || (led.contains n && decide (1 < led.length)))
  let p := a.reg Reg.SCN_PROT
  let r := fieldOf F.SCN_PROT_RLIM p
  bad.head?.toList.map Reg.SCN_PRAIL
    ++ atFault ((fieldOf F.SCN_PROT_CRACK_POL p != 0 && r == 0)
      || decide ((if fieldOf F.SCN_PROT_IFORCE p = 0 then 15000 else 1500) < r)) Reg.SCN_PROT

/-- Banks, magazines and limits (R426, R454, R487): the registers at fault in the pool are those that cause a new allocation. -/
def poolFaults (s a : State) : List Nat :=
  let ch := a.changedOwners s.poolOwners
  let codes (x : State) (o : Nat) : Word := if o = Reg.SWG_MODE0 then withField F.SWG_MODE0_HIST 0 (x.reg o) else x.reg o
  let causes := ch.flatMap (fun e =>
    if e.2 = 0 then []
    else if e.1 = 5 then [Reg.SWG_MODE0, Reg.SWG_MODE1].filter (fun o => decide (codes a o ≠ 0 ∧ codes s o = 0))
    else if e.1 = 10 then [Reg.BNK_ALLOC] else [Reg.MAG_CFG (e.1 - 6)])
  let lim := a.reg Reg.THM_LIMIT
  let rl := a.reg Reg.THM_RLIM
  let thr := fieldOf F.THM_LIMIT_THR lim
  let warn := fieldOf F.THM_LIMIT_WARN lim
  let rthr := fieldOf F.THM_RLIM_RTHR rl
  let rwarn := fieldOf F.THM_RLIM_RWARN rl
  (if (a.newPool s.poolOwners).isNone then causes else [])
    ++ (if a.part = .bc then (List.range 4).flatMap (fun p => atFault (a.flag (Reg.MAG_CFG p) F.MAG_CFG_EN) (Reg.MAG_CFG p)) else [])
    ++ atFault (decide (thr ≤ warn ∨ thr < 70 ∨ 118 < thr ∨ warn < 60 ∨ 110 < warn)) Reg.THM_LIMIT
    ++ atFault (decide (rthr ≤ rwarn ∨ rthr < 2 ∨ 20 < rthr ∨ rwarn < 1 ∨ 8 < rwarn)) Reg.THM_RLIM

/-- Every register at fault in the commit of `t` (R124). -/
def State.commitFaults (s : State) (t : Txn) : List Nat :=
  let b := s.waitingOver
  let a := b.withRegs t.regs
  (t.regs.filter (fun e => rejects e.1 e.2)).map (·.1)
    ++ lockFaults s a t ++ linkFaults a ++ viewFaults a t ++ storeFaults s a ++ timingFaults a t ++ colourFaults s b a t
    ++ pipeFaults s a t ++ geomFaults s a ++ panelFaults a ++ poolFaults s a

/-! ## What a value in force brings about -/

/-- Engine e is locked off: its host job and the queued jobs that no engine can run complete with FN_ABSENT; its chunk is run again on the
other engine (R70). (DEDUCED, log entry 59.) -/
def State.loseEngine (s : State) (e : Nat) : State :=
  let s : State := match (s.engine e).work with
    | .host c idx _ _ => (s.jobFault c idx).finish c idx (Cpl.of 0x22)
    | .stage i k => (s.setStaging i ((s.staging i).map (fun (g : Staging) => { g with given := g.given.filter (fun x => x != k) }))).setEngine e Engine.init
    | .ingest c idx k =>
      (s.onMag (fun m => { m with appends := m.appends.map (fun a =>
        if a.client = c ∧ a.idx = idx then { a with given := a.given.filter (fun x => x != k) } else a) })).setEngine e Engine.init
    | _ => s.setEngine e Engine.init
  let both := s.lockedOff 21 && s.lockedOff 22
  let gone := s.thc.queue.filter (fun j => match s.desc? j.1 j.2 with
    | some d => both || d.arg 0 / 65536 % 4 == e + 1
    | none => true)
  let s := gone.foldl (fun s j => (s.jobFault j.1 j.2).finish j.1 j.2 (Cpl.of 0x22)) s
  if both then s.mag.appends.foldl (fun s a => (s.dropAppend a.client a.idx).finish a.client a.idx (Cpl.of 0x22)) s else s

/-- Domain d is locked off: it goes off, what waits for it meets a locked-off domain (R68, R69). -/
def State.lockDomain (s : State) (d : Nat) : State :=
  let s := if d = 21 ∨ d = 22 then s.loseEngine (d - 21) else s
  let l := s.pwr.stalled.filter (fun e => e.1 == d)
  let s := (s.setDomain d false).onPwr (fun p => { p with
    stalled := p.stalled.filter (fun e => e.1 ≠ d), waking := p.waking.filter (fun x => x != d) })
  let s := l.foldl (fun s e => s.stallOn d e.2) s
  if d = 21 ∨ d = 22 then s.syncEngine (d - 21) else s

/-- PWR_LOCKOFF in force, `old` before: new domains lock off, and a function with every domain locked off is no longer ready (R58, R69).
(DEDUCED, log entry 57.) -/
def State.applyLockoff (s : State) (old : Word) : State :=
  let s := ((List.range 32).filter (fun d => s.lockedOff d && !bit old.toNat d)).foldl (fun s d => s.lockDomain d) s
  [10, 11, 12, 13, 14, 15, 16].foldl (fun s b => if s.fnAbsent b then s.clearReady b else s) s

/-- DMU_FMCLR.GO acts once (R303). -/
def State.clearFmask (s : State) : State :=
  if !s.flag Reg.DMU_FMCLR F.DMU_FMCLR_GO then s
  else
    let m := if s.flag Reg.DMU_FMCLR F.DMU_FMCLR_ALL then 0 else clearBit s.fmask (s.getF Reg.DMU_FMCLR F.DMU_FMCLR_COL)
    let s := { s with fmask := m }
    (s.setF Reg.DMU_STAT F.DMU_STAT_FMASK_N (popcount m 24576)).setF Reg.DMU_FMCLR F.DMU_FMCLR_GO 0

/-- What the DMU does with values that come into force: DMU_FMCLR acts, and DMU_STAT.LOCKED shows the panel layer's lock (R303, R304). -/
def State.dmuInForce (s : State) : State :=
  s.clearFmask.setF Reg.DMU_STAT F.DMU_STAT_LOCKED (s.getF Reg.DMU_PANEL F.DMU_PANEL_LOCK)

/-- The registers that place the frame boundaries (R629), and the measured windows' sources. -/
def isTiming (off : Nat) : Bool :=
  off / 0x40000 == 6 || (List.range 8).any (fun v => off == Reg.VIEW_CFG v)

/-- The registers that the frame store's placements follow (R212). -/
def isStore (off : Nat) : Bool :=
  off == Reg.SCN_GEOM || off == Reg.FST_ALLOC || off == Reg.SWG_MODE0 || off == Reg.SWG_MODE1
    || (List.range 8).any (fun v => (List.range 4).any (fun w => off == Reg.FST_WALLOC v w))

/-- The values of `m` come into force, with what follows from each (R126). `o` holds the values before. -/
def State.putInForce (o : State) (m : AMap Word) : State :=
  if m.isEmpty then o
  else
    let n := o.withRegs m
    let chg (off : Nat) : Bool := decide (o.reg off ≠ n.reg off)
    let s := n
    let s := if chg Reg.PWR_LOCKOFF then s.applyLockoff (o.reg Reg.PWR_LOCKOFF) else s
    let s := (List.range 8).foldl (fun s q => if chg (lkBase q) then s.applyLinkCfg q (o.reg (lkBase q)) else s) s
    let s := if chg Reg.RDG_VCFG then [4, 5, 6, 7].foldl (fun s q => s.evalIso q) s else s
    let s := if o.genSrc ≠ n.genSrc then s.sourceChanged else s
    let s := if chg Reg.GEN_CFG then s.checkFormat else s
    let s := if chg Reg.GEN_CFG then s.syncCand else s
    let s := (List.range 8).foldl (fun s v =>
      if chg (Reg.CLR_ALLOC v) then (s.placeColour v (s.getF (Reg.CLR_ALLOC v) F.CLR_ALLOC_UNITS)).startResync (0x20000 + v) else s) s
    let s := s.dmuInForce
    let s := if o.modeOf selHistory ≠ n.modeOf selHistory then s.clearLossMap selHistory else s
    let s := if m.any (fun e => isStore e.1) then s.replaceBuffers
      else if m.any (fun e => isTiming e.1) then s.syncDemand else s
    let s := s.placePool
    let s := (List.range 4).foldl (fun s p =>
      if o.flag (Reg.MAG_CFG p) F.MAG_CFG_EN = n.flag (Reg.MAG_CFG p) F.MAG_CFG_EN then s
      else s.setMagEn p (n.flag (Reg.MAG_CFG p) F.MAG_CFG_EN)) s
    let s := (List.range 4).foldl (fun s p =>
      if o.getF (Reg.MAG_CFG p) F.MAG_CFG_TTHR = n.getF (Reg.MAG_CFG p) F.MAG_CFG_TTHR then s else s.setMagTthr p) s
    let s := if m.any (fun e => e.1 / 0x40000 == 21) then s.applyTrims ((List.range 24).map (fun g => o.reg (Reg.CAL_UDAC g))) else s
    let s := if chg Reg.WIN_CFG then (if n.winEnabled then s.winOn else s.winOff) else s
    s.crackPolChanged o.crackPol

/-- The last reference after reference `r` whose successor, with the offset in force, is the first to lie after `lim`; `n` bounds the steps. -/
def State.passedRef (s : State) (lim r : Nat) : Nat → Nat
  | 0 => r
  | n + 1 => if lim < s.refAfter r + s.boff then r else s.passedRef lim (s.refAfter r) n

/-- Timing values in force with the scan stopped (R629): the schedule is theirs, and the next boundary is the first instant that it places
more than 2 µs later, from the last reference in force on; those that it puts before do not occur. -/
def State.placeNow (s : State) : State :=
  let w := s.keptWins
  let s := s.onGen (fun g => { g with wins := w })
  let s := s.putSlotTable (s.slotTable w s.boff)
  let lim := s.gen.vt + 2400
  let r := s.passedRef lim s.gen.ref ((lim - s.gen.ref) / max 1 s.pMin + 3)
  s.onGen (fun g => { g with ref := r, again := decide (lim < g.ref + s.boff) })

/-! ## Idle periods (R126, R127) -/

/-- A transaction whose WAIT_EFFECT completion waited has every value in force, or replaced: its completion is written (R127).
(DEDUCED, log entry 58.) -/
def State.endIdleWaits (s : State) : State :=
  let done := s.stg.idleWaits.filter (fun w => !s.stg.idle.any (fun e => e.2.2.1 == w.id))
  let s := s.onStg (fun g => { g with idleWaits := g.idleWaits.filter (fun w => g.idle.any (fun e => e.2.2.1 == w.id)) })
  done.foldl (fun s w => s.finish w.client w.commitIdx (Cpl.of 0 w.r0 w.r1).inEffect) s

/-- The at-idle values that wait and that the commit gate does not hold come into force (R126, R127, R132). -/
def State.putIdle (s : State) : State :=
  let m := (s.stg.idle.filter (fun e => !e.2.2.2)).map (fun e => (e.1, e.2.1))
  let s := (s.onStg (fun g => { g with idle := g.idle.filter (fun e => e.2.2.2) })).syncStg
  (s.putInForce m).endIdleWaits

/-- Whether an at-idle value waits that the commit gate does not hold. -/
def State.idleDue (s : State) : Bool := s.stg.idle.any (fun e => !e.2.2.2)

/-- An idle period starts: the waiting at-idle values come into force (R126). -/
def State.applyIdle (s : State) : State := if s.idleDue then s.putIdle.signal 258 else s

/-- The data of the gate's events (R137): the client and the identifier of the oldest Pending transaction that the gate holds; without one C0,
to which direct writes are attributed (R86). (DEDUCED, log entry 50.) -/
def State.gateItems (s : State) : List (Nat × Nat) :=
  match s.stg.pendings.find? (fun p => p.gated) with
  | some p => [(8, p.client), (32, p.id)]
  | none => (8, 0) :: ((s.stg.idle.find? (fun e => e.2.2.2)).toList.map (fun e => (32, e.2.2.1)))

/-- What follows when the scan that ran in `o` no longer runs: runs end, the overlay is free, and an idle period starts (R126, R341, R594). -/
def State.afterStop (o s : State) : State :=
  if o.scanRuns && !s.scanRuns then ((s.endAllRuns).setOverlayOpen true).applyIdle else s

/-! ## Deciding a commit -/

/-- STG_RSTAT and STG_RTXID at the end of a register-path command (R136). -/
def State.endStgCmd (s : State) (status : Nat) (id : Option Nat) : State :=
  let s := (s.setF Reg.STG_RSTAT F.STG_RSTAT_STATUS status).setF Reg.STG_RSTAT F.STG_RSTAT_BUSY 0
  match id with
  | some i => s.setReg Reg.STG_RTXID (word i)
  | none => s

/-- The rollbacks that waited for the checks of `t` end with NO_TXN (R131). -/
def State.endRollWaits (s : State) (t : Txn) : State :=
  let mine (e : Nat × Nat) : Bool := e.1 == t.client || e == (256, t.id)
  let l := s.stg.rollWait.filter mine
  let s := s.onStg (fun g => { g with rollWait := g.rollWait.filter (fun e => !mine e) })
  l.foldl (fun s e => if e.1 = 256 then s.endStgCmd 0x30 none else s.finish e.1 e.2 (Cpl.of 0x30)) s

/-- The end of the commit of `t` with completion `c` (R97, R136). (DEDUCED, log entries 58 and 61.) -/
def State.endCommit (s : State) (t : Txn) (c : Cpl) : State :=
  ((if t.viaReg then s.endStgCmd c.status (some t.id) else s.finish t.client t.commitIdx c).endRollWaits t).endDisable t.client

/-- The frame that the next boundary starts, with `m` in force there (R128, R233, R253, R531). -/
def State.nextFrame (s : State) (m : AMap Word) : Nat :=
  ((s.upcoming.withRegs m).fcLoad).getD s.frameNext

/-- RESULT0 and RESULT1 of a frame counter. (DEDUCED, log entry 58.) -/
def frameCpl (f : Nat) : Cpl := Cpl.of 0 (f % 2 ^ 32) (f / 2 ^ 32 % 65536)

/-- A commit that carries a value for a register with an at-idle value waiting replaces it (R127). -/
def State.dropIdle (s : State) (m : AMap Word) : State :=
  s.onStg (fun g => { g with idle := g.idle.filter (fun e => !m.any (fun x => x.1 == e.1)) })

/-- The at-idle values `m` of transaction `id` wait; `gated`: for the commit gate (R127, R132). -/
def State.waitIdle (s : State) (m : AMap Word) (id : Nat) (gated : Bool) : State :=
  s.onStg (fun g => { g with idle := m.foldl (fun l e => ainsert (aerase l e.1) e.1 (e.2, id, gated)) g.idle })

/-- The values of `t` all come into force at once: the scan is stopped and no gate is armed (R126). -/
def State.acceptNow (s : State) (t : Txn) : State :=
  let o := s
  let s := (s.dropIdle t.regs).syncStg
  let s := s.putInForce t.regs
  let s := if t.loads.isEmpty then s else s.exchange t.loads
  let s := if t.regs.any (fun e => isTiming e.1) then s.placeNow else s
  let s := if t.regs.isEmpty && t.loads.isEmpty then s else s.signal 258
  let c := frameCpl s.gen.fc
  (State.afterStop o s).endCommit t (if t.waitEffect then c.inEffect else c)

/-- The RESULTs of a commit whose frame-boundary values or loads wait (`timed`), or whose at-idle values alone do (R128). -/
def State.laterCpl (s : State) (bnd idle : AMap Word) (timed : Bool) : Cpl :=
  if timed then frameCpl (if s.gateArmed then s.gateAt else s.nextFrame bnd)
  else if idle.isEmpty then frameCpl s.gen.fc
  else if s.scanRuns then Cpl.of 0 0xFFFFFFFF 0xFFFF
  else frameCpl s.gateAt

/-- The scan runs or the gate is armed: frame-boundary values and loads make `t` Pending, at-idle values wait on their own, and at-commit values
are in force (R126, R127, R132). -/
def State.acceptLater (s : State) (t : Txn) : State :=
  let o := s
  let now := regsAt .atCommit t.regs
  let bnd := regsAt .atBoundary t.regs
  let idle := regsAt .atIdle t.regs
  let timed := !bnd.isEmpty || !t.loads.isEmpty
  let c := s.laterCpl bnd idle timed
  let gated := s.gateArmed
  let s := s.putInForce now
  let s := if timed then
      s.onStg (fun g => { g with pendings := g.pendings ++ [⟨t.id, t.client, t.mask, bnd, t.loads, gated, t.waitEffect, t.commitIdx⟩] })
    else s
  let s := ((s.dropIdle t.regs).waitIdle idle t.id (!s.scanRuns)).syncStg
  let s := if now.isEmpty then s else s.signal 258
  let waits := t.waitEffect && (timed || !idle.isEmpty)
  let s := if waits && !timed then
      s.onStg (fun g => { g with idleWaits := g.idleWaits ++ [⟨t.id, t.client, t.commitIdx, c.r0, c.r1⟩] })
    else s
  let s := s.endIdleWaits
  State.afterStop o (if waits then s.endRollWaits t else s.endCommit t (if t.waitEffect then c.inEffect else c))

/-- What slot 0 of the next frame is decided by: frame, view, deadline and targets. -/
def State.slotZeroKey (s : State) : Option (Nat × Nat × Nat × List Nat) :=
  s.slotZero.map (fun n => (n.frame, n.view, n.at_, n.regs.usedTargets n.view))

/-- The decision of slot 0 of the next frame is taken back: the runs are as they were before it (R248). -/
def State.undecide (s : State) : State :=
  let s := s.onHrt (fun h => { h with
    runs := h.before, ahead := false, plans := h.plans.filter (fun p => decide (p.frame ≠ s.frameNext ∨ p.slot ≠ 0)) })
  viewTargets.foldl (fun s e => s.syncRun e.1 e.2) s

/-- A commit whose checks ended outside a freeze window changed what decides slot 0 of the next frame, from what it was in `o`: the slot is
decided anew, and at once if the deadline that the new values place has passed (R248). (DEDUCED, log entry 134.) -/
def State.redecide (o s : State) : State :=
  if o.slotZeroKey = s.slotZeroKey then s
  else
    let s := if s.hrt.ahead then s.undecide else s
    match s.nextSlot with
    | some n => if n.ahead && decide (n.at_ ≤ s.gen.vt) then s.slotDeadline else s
    | none => s

/-- Outcome 4 of R124: the values of `t` come into force, become Pending or wait for idle (R126 to R128, R132). -/
def State.acceptCommit (s : State) (t : Txn) : State :=
  let o := s
  let s := if t.client = 0 then s.onStg (fun g => { g with lastC0 := t.id }) else s
  let s := s.leaveSlot t
  let s := if !s.scanRuns && !s.gateArmed then s.acceptNow t else s.acceptLater t
  if t.frozen then s else State.redecide o s

/-- The commit checks of `t` end outside a freeze window, or at the boundary that ends it (R124, R125). -/
def State.decideCommit (s : State) (t : Txn) : State :=
  let idx := if t.viaReg then none else some t.commitIdx
  if t.failed then (s.failCommit t 0xFFFFFFFF idx).endCommit t (Cpl.of 0x35)
  else
    match s.commitFaults t with
    | [] => s.acceptCommit t
    | off :: rest => (s.failCommit t (rest.foldl min off) idx).endCommit t (Cpl.of 0x36)

/-- Whether a descriptor of transaction `id` is in flight: started and not completed (R104, R136); so is a REG_WRITE that still reads its list,
which may stage into the transaction. -/
def State.txnBusy (s : State) (c id : Nat) : Bool :=
  (s.client c).descs.any (fun d => d.stage == .waiting &&
    (d.txn == id || (d.opcode == 4 && s.hst.reads.any (fun r => r.use == .data c d.idx))))

/-- COMMIT_DECIDE: client c's commit checks end. A register-path COMMIT whose transaction is gone ends with NO_TXN (R136). (DEDUCED, log entries 54
and 55.) -/
def State.commitEnds (s : State) (c : Nat) (inFreeze : Bool) : State :=
  match s.txnOf c with
  | none => if c = 0 ∧ s.stg.cmdWait.isSome then (s.onStg (fun g => { g with cmdWait := none })).endStgCmd 0x30 none else s
  | some t =>
    let waits := decide (c = 0) && s.stg.cmdWait == some t.id && !t.checking
    if c = 0 ∧ s.stg.cmdWait.any (fun i => i != t.id) then (s.onStg (fun g => { g with cmdWait := none })).endStgCmd 0x30 none
    else
    if t.frozen || !(t.checking || waits) || (waits && s.txnBusy c t.id) then s
    else
      let s := if waits then s.onStg (fun g => { g with cmdWait := none }) else s
      let t := if waits then { t with checking := true, viaReg := true, waitEffect := false } else t
      if inFreeze then s.setTxn t.id (fun _ => { t with frozen := true }) else s.decideCommit t

/-! ## Pending transactions come into force (R126, R127, R132) -/

/-- Pending transaction `p` comes into force at the boundary that starts the frame in force, or as at idle. -/
def State.applyPending (s : State) (p : Pending) : State :=
  let s := s.onStg (fun g => { g with pendings := g.pendings.filter (fun q => q.id ≠ p.id) })
  let s := s.putInForce p.regs
  let s := if p.loads.isEmpty then s else s.exchange p.loads
  let c := frameCpl s.gen.fc
  let s := s.syncStg
  if !p.waitEffect then s
  else if s.stg.idle.any (fun e => e.2.2.1 == p.id) then
    s.onStg (fun g => { g with idleWaits := g.idleWaits ++ [⟨p.id, p.client, p.commitIdx, c.r0, c.r1⟩] })
  else s.finish p.client p.commitIdx c.inEffect

/-- The gate holds no at-idle value any longer (R132). -/
def State.ungateIdle (s : State) : State :=
  s.onStg (fun g => { g with idle := g.idle.map (fun e => (e.1, e.2.1, e.2.2.1, false)) })

/-- Every Pending transaction of `l` comes into force, in the order their commits completed, and with the gate open and the scan stopped the
at-idle values that wait; vector 258 once (R126, R132). With the scan running at-idle values wait for the next idle period. -/
def State.applyPendings (s : State) (l : List Pending) : State :=
  let s := if s.gateArmed then s else s.ungateIdle
  let idle := !s.scanRuns && s.idleDue
  if l.isEmpty && !idle then s
  else
    let s := l.foldl (fun s p => s.applyPending p) s
    (if idle then s.putIdle else s).signal 258

end Sys2Proof.Machine
end

