-- ==== Sys2Proof/Machine/Reset.lean ====
section
/-! DEFINITION. The reset classes, start-up and the readiness it gives (R44, R47 to R58, R624). -/

namespace Sys2Proof.Machine

/-! ## What a reset keeps (R49) -/

/-- The registers of the alarm latch (R580). -/
def isAlarmReg (off : Nat) : Bool :=
  (decide (Reg.EVT_ALM_PEND_LO ≤ off) && decide (off ≤ Reg.EVT_ALM_BOOT)) || (decide (Reg.EVT_ALM_CODE 0 ≤ off) && blockOf off == 22)

/-- Whether a register keeps its value through a reset of class `c` (R49). -/
def keptBy (c : ResetClass) (off : Nat) : Bool :=
  match c with
  | .supply => false
  | .powerOn => off == Reg.GBL_RESET_CAUSE || isAlarmReg off
  | .warm => off == Reg.GBL_RESET_CAUSE || off == Reg.GBL_STRAP || isAlarmReg off
  | .hostPort => isAlarmReg off || !(blockOf off == 1 || blockOf off == 3 || blockOf off == 22)

/-- Every panel output and rail at its reset state at once (R41). -/
def State.panelPinsOff (s : State) : State := (List.range 6).foldl (fun s n => s.setRail n false) s.panelOutputsOff

/-- The part as a reset of class `c`, stronger than host-port, leaves it (R49): the registers that the class keeps, the meter, and what
stands outside the part; everything else restarts, and the frame store's contents are undefined. ALARM_N stays low through a power-on reset
while an alarm is latched, as R49 keeps the latch and the pin, where R41's table has the pin released while PORST_N is low.
(DESIGN CHOICE, log entry 129.) -/
def State.restart (s : State) (c : ResetClass) : State :=
  let low := !s.alarmPin
  let s := ({ s with drv := [] }).panelPinsOff.outputsDown
  let s := if low && decide (c = .supply) then s.emit (.pin "ALARM_N" true) else s
  let z := State.reset
  { z with
    part := s.part
    regs := s.regs.filter (fun e => keptBy c e.1)
    rst := { ResetState.init with applying := some c }
    mag := { MagState.init with ports := s.mag.ports.map (fun e => (e.1, { MagPort.init with present := e.2.present })) }
    tmk := { s.tmk with relays := [], relayResp := none }
    jtag := if c = .supply then z.jtag else s.jtag
    aon := if c = .warm then s.aon else 0
    gen := { GenState.init with aonkMeasured := decide (c ≠ .supply) && s.gen.aonkMeasured }
    freeN := s.freeN
    fsEpoch := s.fsEpoch + 1
    out := s.out
    pending := s.pending }

/-! ## Which reset is applied (R48) -/

/-- The strength of a reset class. -/
def ResetClass.rank : ResetClass → Nat
  | .supply => 3
  | .powerOn => 2
  | .warm => 1
  | .hostPort => 0

/-- A reset of class `c` is applied now: nothing of the same or a stronger class is being applied, and VDD_IO is there.
(DEDUCED, log entry 22.) -/
def State.takesReset (s : State) (c : ResetClass) : Bool :=
  !s.rst.off && (s.rst.applying.all (fun a => decide (a.rank < c.rank))) && (s.rst.waitPanel.isNone || decide (1 < c.rank))

/-- Set a bit of GBL_RESET_CAUSE. -/
def State.setCause (s : State) (f : Fld) : State := s.setF Reg.GBL_RESET_CAUSE f 1

/-- The cause bit of a source of warm reset, by its LAST code (R63, R64). -/
def warmCause (last : Nat) : Fld :=
  if last = 3 then F.GBL_RESET_CAUSE_WARM else if last = 4 then F.GBL_RESET_CAUSE_SOFT else F.GBL_RESET_CAUSE_VOLUME

/-- SUPPLY_RESET (R48, R49). -/
def execSupplyReset (s : State) : Res := .next (s.restart .supply)

/-- A power-on reset: COUNT clears, the cause bits are kept (R49), and the start-ups that the alarm latch has seen advance (R580). -/
def State.powerOnReset (s : State) : State :=
  let s := (s.restart .powerOn).setCause F.GBL_RESET_CAUSE_PORST
  let s := s.setF Reg.GBL_RESET_CAUSE F.GBL_RESET_CAUSE_COUNT 0
  let s := s.setF Reg.GBL_RESET_CAUSE F.GBL_RESET_CAUSE_LAST 2
  s.bumpF Reg.EVT_ALM_BOOT F.EVT_ALM_BOOT_BOOT

/-- PORST_N_ASSERT. -/
def execPorstNAssert (s : State) : Res := .next (if s.takesReset .powerOn then s.powerOnReset else s)

/-- A warm reset is applied (R49, R63). -/
def State.applyWarm (s : State) (last : Nat) : State :=
  let s := (s.restart .warm).setCause (warmCause last)
  let s := s.bumpF Reg.GBL_RESET_CAUSE F.GBL_RESET_CAUSE_COUNT
  s.setF Reg.GBL_RESET_CAUSE F.GBL_RESET_CAUSE_LAST last

/-- The PCIe link goes down: its configuration registers take their defaults and the device is no longer a head (R83, R533).
(DEDUCED, log entry 23.) -/
def State.pcieDown (s : State) : State :=
  if s.hst.linkUp then
    let s := (s.onHst (fun h => { h with linkUp := false, width := 0, rate := 0 })).configDefaults.syncHead
    if s.hasRole then s.announce else s
  else s

/-- The panel has a rail on, or its power-off or emergency discharge runs (R50, R391). -/
def State.panelRails (s : State) : Bool := s.getF Reg.SCN_PSTAT F.SCN_PSTAT_EN != 0 || s.seq == 3 || s.seq == 4

/-- A warm reset of source `last` (R48, R50, R51, R54): a part that has shut down or whose start-up stopped is reached by WARMRST_N alone,
and one with rejected straps by no warm reset (R47). With a panel rail on, the power-off comes first. (DEDUCED, log entry 23.) -/
def State.warmReset (s : State) (last : Nat) : State :=
  if !s.takesReset .warm || ((s.rst.shutdown || s.rst.stopped) && decide (last ≠ 3)) || (s.rst.stopped && s.rst.stepsDone.isEmpty) then s
  else if s.panelRails then
    State.afterStop s ((s.pcieDown.onRst (fun r => { r with waitPanel := some last })).beginOff true 0)
  else s.pcieDown.applyWarm last

/-- WARMRST_N_ASSERT. -/
def execWarmrstNAssert (s : State) : Res := .next (s.warmReset 3)

/-- A write of GBL_RESET (R52). -/
def State.writeReset (s : State) (v : Word) : State :=
  if fieldOf F.GBL_RESET_GO v = 0 then s
  else if fieldOf F.GBL_RESET_KEY v = 0xA5C3 then s.warmReset 4
  else s.event Ev.GBL_RESET_KEY []

/-- GBL_RESET_WRITE. -/
def execGblResetWrite (v : Word) (s : State) : Res := .next (s.viaHst (fun s => s.writeReset v))

/-- The panel's sequence has ended: a warm reset that waited for it is applied (R50). -/
def State.afterPanel (s : State) : State :=
  match s.rst.waitPanel with
  | some l => s.applyWarm l
  | none => s

/-- PANEL_OFF_TIMEOUT: the warm reset is applied with the panel's sequence unfinished (R50). -/
def execPanelOffTimeout (s : State) : Res :=
  .next (match s.rst.waitPanel with
    | some l => (s.applyWarm l).setCause F.GBL_RESET_CAUSE_PANEL_TO
    | none => s)

/-! ## Host-port reset (R49, R55) -/

/-- Descriptors in flight are abandoned: what works for them goes on without them or ends (R49). (DEDUCED, log entry 25.) -/
def State.abandonDescs (s : State) : State :=
  let s := [0, 1].foldl (fun s e => match (s.engine e).work with
    | .host _ _ _ _ => s.setEngine e Engine.init
    | .ingest _ _ _ => s.setEngine e Engine.init
    | _ => s) s
  let s := s.onThc (fun t => { t with queue := [], passed := [] })
  let s := s.onMag (fun m => { m with
    reads := [], appends := []
    ports := m.ports.map (fun e => (e.1, { e.2 with updates := e.2.updates.map (fun u => { u with client := 256 }) })) })
  let s := s.onCal (fun c => { c with run := c.run.map (fun r => { r with client := 256 }), queue := [] })
  let s := (s.setRelays [] none).setF Reg.TMK_STAT F.TMK_STAT_BUSY 0
  let s := s.onRdg (fun r => { r with vols := [], hostTags := [], hostWait := [], hostHold := false })
  { s with tabs := s.tabs.map (fun e => (e.1, { e.2 with waiters := [] })) }

/-- A host-port reset: HST, STG, the event ring and the trace registers restart, and every open or Pending transaction is discarded; the
alarm latch, the trace contents and all else are kept (R49). (DEDUCED, log entry 25.) -/
def State.hostReset (s : State) : State :=
  let loads := (s.stg.txns.flatMap (fun t => t.loads)) ++ (s.stg.pendings.flatMap (fun p => p.loads))
  let s := s.pcieDown.abandonDescs
  let s := s.restartRegs (keptBy .hostPort)
  let s := { s with
    hst := { HostState.init with nextRid := s.hst.nextRid, nextTag := s.hst.nextTag }
    stg := StageState.init
    evt := { EventState.init with trace := s.evt.trace } }
  let s := ((exchangeSet loads.eraseDups).foldl (fun s t => s.startResync t) s).syncStg
  let s := s.onPwr (fun p => { p with stalled := p.stalled.filter (fun e => match e.2 with
    | .internal _ => true
    | .remote _ _ _ => true
    | _ => false) })
  let s := ((s.dropReady 0).dropReady 1).dropReady 2
  let s := (s.setCause F.GBL_RESET_CAUSE_PERST).setF Reg.GBL_RESET_CAUSE F.GBL_RESET_CAUSE_LAST 6
  s.onRst (fun r => { r with hostReset := true })

/-- HOST_PORT_RESET_END (R55): a start-up that has not passed S5 sets the bits itself. -/
def execHostPortResetEnd (s : State) : Res :=
  .next (if !s.rst.hostReset then s
    else
      let s := s.onRst (fun r => { r with hostReset := false })
      if s.rst.stepsDone.contains 5 then ((s.setReady 0).setReady 1).tmkOpen else s)

/-! ## Start-up (R53, R54) -/

/-- A start-up stops (R47, R54). (DEDUCED, log entries 21 and 22.) -/
def State.stopStartup (s : State) (step : Nat) (f : Fld) : State :=
  let s := (s.alarm 0 [(8, step)]).setCause f
  let s := s.setF Reg.GBL_RESET_CAUSE F.GBL_RESET_CAUSE_STOP_STEP step
  let s := (s.coreDown).setReg Reg.GBL_READY 0
  s.onRst (fun r => { r with starting := false, stopped := true })

/-- A strap combination that is rejected (R47). -/
def strapsRejected (w : Word) : Bool :=
  let m := fieldOf F.GBL_STRAP_AVS_MODE w
  m == 3 || (fieldOf F.GBL_STRAP_PAIR_REG w == 1 && m == 2)

/-- STRAP_SAMPLE: step S1 (R44, R47, R53). -/
def execStrapSample (straps : BitVec 8) (s : State) : Res :=
  .next (if s.rst.applying = some .supply ∨ s.rst.applying = some .powerOn then
      let w := word straps.toNat
      let s := (s.setReg Reg.GBL_STRAP w).onRst (fun r => { r with applying := none })
      if strapsRejected w then s.stopStartup 1 F.GBL_RESET_CAUSE_STRAP
      else s.onRst (fun r => { r with starting := true, stepsDone := [1] })
    else s)

/-- WARM_RESET_RELEASE: start-up resumes at S2 (R48, R55). -/
def execWarmResetRelease (s : State) : Res :=
  .next (if s.rst.applying = some .warm then s.onRst (fun r => { r with applying := none, starting := true, stepsDone := [1] }) else s)

/-- STARTUP_RAIL_TIMEOUT: S2 still fails 100 ms after PORST_N rose (R54). -/
def execStartupRailTimeout (refclkBad : Bool) (s : State) : Res :=
  .next (if s.rst.starting && s.rst.stepsDone.contains 1 && !s.rst.stepsDone.contains 2 then
      s.stopStartup 2 (if refclkBad then F.GBL_RESET_CAUSE_REFCLK else F.GBL_RESET_CAUSE_RAIL)
    else s)

/-- The steps at whose end step `n` starts (R53). -/
def stepDeps (n : Nat) : List Nat :=
  if n ≤ 5 then [n - 1]
  else if n ≤ 7 then [5]
  else if n = 8 then [7]
  else if n = 9 ∨ n = 10 ∨ n = 13 ∨ n = 15 then [6]
  else if n = 12 then [10, 11, 8]
  else [9]

/-- The domains that step `n` turns on (R53). (DEDUCED, log entry 19.) -/
def stepDomains (p : Part) (n : Nat) : List Nat :=
  if n = 5 then [2]
  else if n = 7 then [33]
  else if n = 9 then [25, 26, 27, 28, 29, 30, 31, 32]
  else if n = 10 then [23, 24]
  else if n = 11 then [17, 18, 19, 15, 16]
  else if n = 13 then [3, 4, 5, 6, 7, 8, 9, 10]
  else if n = 14 then [20, 21, 22]
  else if n = 15 ∧ p = .ba then [11, 12, 13, 14]
  else []

/-- Domain `d` reaches on (R66, R68): banks woken from off are zeroed and their states follow; engines, ports and links take it up.
(DEDUCED, log entry 19.) -/
def State.domainUp (s : State) (d : Nat) : State :=
  if s.isOn d || s.heldOff d then s
  else
    let s := (s.setDomain d true).onPwr (fun p => { p with waking := p.waking.filter (fun x => x != d) })
    let s := if 25 ≤ d ∧ d ≤ 32 then s.syncBanks else s
    let s := if d = 21 ∨ d = 22 then s.syncEngine (d - 21) else s
    let s := if 11 ≤ d ∧ d ≤ 14 then s.beginAttach (d - 11) else s
    (List.range 8).foldl (fun s q =>
      if linkDomain q = d ∧ s.lkEnabled q = true ∧ s.lkState q = 0 then s.toDetect q none else s) s

/-- The domains whose steps run come on, each once every domain it depends on is on (R53, R66). (DEDUCED, log entry 19.) -/
def State.startDomains (s : State) : State :=
  [5, 7, 9, 10, 11, 13, 14, 15].foldl (fun s n =>
    if (stepDeps n).all s.rst.stepsDone.contains then
      (stepDomains s.part n).foldl (fun s d => if (domainDeps d).all s.isOn then s.domainUp d else s) s
    else s) s

/-- The self-tests of S14 run on the Thatch engines that are on (R53, R446). -/
def State.startTests (s : State) : State :=
  if s.rst.starting && s.rst.stepsDone.contains 9 && !s.rst.stepsDone.contains 14 then
    [0, 1].foldl (fun s e => if s.isOn (21 + e) && (s.engine e).work == .idle then s.setEngine e { Engine.init with work := .bist } else s) s
  else s

/-- Step `n` may end: the steps before it have ended, its domains are on but for those that are locked off (R69), and S6 has no voltage
write outstanding. (DEDUCED, log entry 19.) -/
def State.stepDue (s : State) (n : Nat) : Bool :=
  s.rst.starting && !s.rst.stepsDone.contains n && decide (2 ≤ n) && decide (n ≤ 15) && (stepDeps n).all s.rst.stepsDone.contains
    && (stepDomains s.part n).all (fun d => s.isOn d || s.lockedOff d) && (n != 6 || s.pwr.writing.isNone)

/-- S6 begins: the first voltage write, unless there is no AVSBus or the device is paired (R53). (DEDUCED, log entry 20.) -/
def State.startAvs (s : State) : State :=
  let s := s.setReg Reg.PWR_VSET (vsetWord s.vtCode)
  if s.noAvs || s.paired then s else s.startWrite (s.vcode s.aimPoint)

/-- R624: a device without a host port enables its Ridge links. -/
def State.openRidge (s : State) : State :=
  if s.flag Reg.GBL_STRAP F.GBL_STRAP_HOST_EN then s
  else [4, 5, 6, 7].foldl (fun s q =>
    let old := s.reg (lkBase q)
    (s.setF (lkBase q) F.RDG_LCFG_EN 1).applyLinkCfg q old) s

/-- A failure after S5 (R54). -/
def State.startFail (s : State) (step : Nat) : State := s.event Ev.GBL_STARTUP_FAIL [(8, step)]

/-- Set the ready bit of a function whose domains are not all locked off (R58). -/
def State.readyUnlessLocked (s : State) (b : Nat) : State := if s.fnAbsent b then s else s.setReady b

/-- The self-test of unit `b` of S14, by its ready bit, has ended; a unit that is locked off is not tested (R53, R58, R230, R449). -/
def State.selfTested (s : State) (b : Nat) (ok : Bool) : State :=
  if s.fnAbsent b then s
  else
    let s := if b = 12 then s.swgTested ok else s.thcTested (b - 13) ok
    if ok then s.setReady b else s.startFail 14

/-- The end of step `n` with result `r`, for a step that does not stop the start-up (R53). (DEDUCED, log entry 24.) -/
def State.stepEffect (s : State) (n : Nat) (r : StepResult) : State :=
  match n with
  | 5 =>
    let s := if s.rst.hostReset then s else ((s.setReady 0).setReady 1).tmkOpen
    s.startAvs
  | 6 => (if s.noAvs then s.setRate.setReady 3 else s).takeTarget
  | 7 => s.setReady 4
  | 9 => s.setReady 5
  | 10 =>
    if r.ok then (((s.setF Reg.FST_STAT F.FST_STAT_TRAINED 1).replaceBuffers).setReady 6).setReady 17
    else s.startFail 10
  | 11 => (s.setReady 7).setReady 8
  | 12 => if s.isReady 6 then s.setReady 9 else s
  | 13 => ((s.readyUnlessLocked 10).readyUnlessLocked 11).openRidge
  | 14 => ((s.selfTested 12 r.ok).selfTested 13 r.ok1).selfTested 14 r.ok2
  | 15 => if s.part = .ba then (List.range 4).foldl (fun s p => s.beginAttach p) (s.readyUnlessLocked 15) else s
  | _ => s

/-- A valid die or stack sensor reads 118 °C or more (R54). -/
def State.tooHot (s : State) : Bool := (List.range 32).any (fun n => s.valid n && decide (16 * 118 ≤ s.sensorTemp n))

/-- Every step has ended: the device is in STANDBY, with the half-pipes and the Batten lanes off, and the CRCs of the tables are computed (R72,
R297). -/
def State.endStartup (s : State) : State :=
  if (List.range 15).all (fun k => s.rst.stepsDone.contains (k + 1)) then
    (if s.seq = 0 then [15, 16, 18, 19].foldl (fun s d => s.setDomain d false) s else s).startCrc.onRst (fun r => { r with starting := false })
  else s

/-- STARTUP_STEP_END (R53, R54): S2 repeats while it fails, S3 and S8 can stop the start-up. -/
def State.startupStep (s : State) (n : Nat) (r : StepResult) : State :=
  if !s.stepDue n then s
  else if n = 2 ∧ r.ok = false then s
  else if n = 3 ∧ r.ok = false then s.stopStartup 3 F.GBL_RESET_CAUSE_FUSE
  else if n = 8 ∧ s.tooHot = true then s.stopStartup 8 F.GBL_RESET_CAUSE_THERMAL
  else
    let s := s.onRst (fun q => { q with stepsDone := q.stepsDone ++ [n] })
    ((s.stepEffect n r).startDomains.startTests).endStartup

def execStartupStepEnd (step : Nat) (r : StepResult) (s : State) : Res := .next (s.startupStep step r)

end Sys2Proof.Machine
end

