-- ==== Sys2Proof/Machine/Colour.lean ====
section
/-! DEFINITION. Input decode, matrix and 3-D table (R260 to R271). -/

namespace Sys2Proof.Machine

/-! ## The ROM tables (R260, R265): evaluated in fixed point with 256 fraction bits, and rounded once -/

/-- One in the fixed point used for the ROM tables. -/
def fxOne : Nat := 2 ^ 256

/-- Product in fixed point. -/
def fxMul (a b : Nat) : Nat := a * b / fxOne

/-- Square root in fixed point. -/
def fxSqrt (a : Nat) : Nat := rootFloor 2 (a * fxOne) 258 0

/-- `n` square roots. -/
def fxRoots : Nat → Nat → Nat
  | 0, a => a
  | n + 1, a => fxRoots n (fxSqrt a)

/-- Power by squaring over `fuel` bits of the exponent. (DEDUCED, log entry 86.) -/
def fxPow (a : Nat) : Nat → Nat → Nat
  | 0, _ => fxOne
  | fuel + 1, e =>
    let h := fxPow a fuel (e / 2)
    let h2 := fxMul h h
    if e % 2 = 1 then fxMul h2 a else h2

/-- The inverse of Y_PQ: the coded fraction E' whose light is x, for 0 < x (R260): x^m1 = (x^(1/2^13))^1305, and the outer power
2523 / 32. (DEDUCED, log entry 86.) -/
def pqInverse (x : Nat) : Nat :=
  let p := fxPow (fxRoots 13 x) 11 1305
  let num := fxOne * 3424 / 4096 + p * 2413 / 128
  let den := fxOne + p * 2392 / 128
  fxPow (fxRoots 5 (num * fxOne / den)) 12 2523

/-- The largest T of `fuel` bits for which T − 1/2 units of 2^-28 do not exceed Y_PQ(E'). -/
def pqSearch (e : Nat) : Nat → Nat → Nat
  | 0, acc => acc
  | fuel + 1, acc =>
    let t := acc + 2 ^ fuel
    if pqInverse ((2 * t - 1) * 2 ^ 227) ≤ e then pqSearch e fuel t else pqSearch e fuel acc

/-- T_PQ[j]. (DEDUCED, log entry 86.) -/
def tPq (j : Nat) : Nat :=
  if j = 0 then 0
  else if 4096 ≤ j then 2 ^ 28
  else pqSearch (min (64 * j) 262143 * fxOne / 262143) 29 0

/-- The terms of the exponential series from term `k` on, `term` being x^k / k!. -/
def expSeries (x : Nat) : Nat → Nat → Nat → Nat
  | 0, _, _ => 0
  | fuel + 1, k, term => term + expSeries x fuel (k + 1) (fxMul term x / (k + 1))

/-- T_HLG[j]. (DEDUCED, log entry 86.) -/
def tHlg (j : Nat) : Nat :=
  let e := min (64 * j) 262143
  if 4096 ≤ j then 2 ^ 28
  else if 2 * e ≤ 262143 then (rneDiv ((2 ^ 28 * e * e : Nat) : Int) (3 * 262143 * 262143)).toNat
  else
    let x := (e * fxOne / 262143 - fxOne * 55991073 / 100000000) * 100000000 / 17883277
    let neg := e * fxOne / 262143 < fxOne * 55991073 / 100000000
    let y := if neg then
        let z := (fxOne * 55991073 / 100000000 - e * fxOne / 262143) * 100000000 / 17883277
        fxOne * fxOne / expSeries z 120 0 fxOne
      else expSeries x 120 0 fxOne
    ((y + fxOne * 28466892 / 100000000) / 12 + 2 ^ 227) / 2 ^ 228

/-- Sh[j] = rne(16384 × cube root of j) (R265). -/
def shEntry (j : Nat) : Nat := (rootFloor 3 (8 * 16384 ^ 3 * j) 21 0 + 1) / 2

/-! ## Decode and matrix (R261, R264) -/

/-- The native word of a coded value, and whether the sat acted (R261). -/
def decodeValue (tf gain c : Nat) : Nat × Bool :=
  let n : Int :=
    if tf = 0 then rneDiv ((c * gain : Nat) : Int) 65536
    else
      let t := if tf = 1 then tPq else tHlg
      let j := c / 64
      let a := t j
      let l : Int := a + rneDiv (((t (j + 1) : Int) - a) * (c % 64 : Nat)) 64
      rneDiv (l * gain) (2 ^ 26)
  (satU 18 n, decide (262143 < n))

/-- The matrix output of colour c, and whether the clamp acted (R264). -/
def matrixValue (m off : Nat → Int) (n : List Nat) (c : Nat) : Nat × Bool :=
  let a := m (3 * c) * n.getD 0 0 + m (3 * c + 1) * n.getD 1 0 + m (3 * c + 2) * n.getD 2 0 + off c * 65536
  let r := rneDiv a 65536
  (satU 18 r, decide (r < 0 ∨ 262143 < r))

/-- The settings of a view, read once. -/
structure ViewColour where
  tf : Nat
  gain : Nat
  cube : Nat                        -- nodes per axis; 0 without a table
  linear : Bool
  m : List Int
  off : List Int
  deriving DecidableEq, Repr

def State.viewColour (s : State) (v : Nat) : ViewColour where
  tf := s.getF (Reg.CLR_DEC v) F.CLR_DEC_TF
  gain := s.getF (Reg.CLR_GAIN v) F.CLR_GAIN_GAIN
  cube := [0, 17, 33, 0].getD (s.getF (Reg.CLR_3D v) F.CLR_3D_CUBE) 0
  linear := s.flag (Reg.CLR_3D v) F.CLR_3D_SHAPE
  m := (List.range 9).map (fun k => toSigned 20 (s.getF (Reg.CLR_M v k) F.CLR_M_COEF))
  off := (List.range 3).map (fun c => toSigned 18 (s.getF (Reg.CLR_OFF v c) F.CLR_OFF_OFF))

/-- The index position q (R265). -/
def curve (linear : Bool) (m : Nat) : Nat :=
  if linear then m
  else
    let j := m / 64
    ((shEntry j : Int) + rneDiv (((shEntry (j + 1) : Int) - shEntry j) * (m % 64 : Nat)) 64).toNat

/-! ## The 3-D table (R266, R267) -/

/-- The corners of the tetrahedron and their fractions, in the order of R267's sum: the offsets (dr, dg, db) of the three corners
after C000, each with the fraction that multiplies the step to it. -/
def tetra (fr fg fb : Nat) : List ((Nat × Nat × Nat) × Nat) :=
  if fg ≤ fr ∧ fb ≤ fg then [((1, 0, 0), fr), ((1, 1, 0), fg), ((1, 1, 1), fb)]
  else if fb ≤ fr ∧ fg < fb then [((1, 0, 0), fr), ((1, 0, 1), fb), ((1, 1, 1), fg)]
  else if fr < fb ∧ fg ≤ fr then [((0, 0, 1), fb), ((1, 0, 1), fr), ((1, 1, 1), fg)]
  else if fr < fg ∧ fb ≤ fr then [((0, 1, 0), fg), ((1, 1, 0), fr), ((1, 1, 1), fb)]
  else if fb ≤ fg ∧ fr < fb then [((0, 1, 0), fg), ((0, 1, 1), fb), ((1, 1, 1), fr)]
  else [((0, 0, 1), fb), ((0, 1, 1), fg), ((1, 1, 1), fr)]

/-- The sum S of one output colour from the four entries (R267). -/
def tetraSum (w : Nat) (c0 : Int) : Int → List (Int × Nat) → Int
  | _, [] => w * c0
  | prev, (c, f) :: rest => (f : Int) * (c - prev) + tetraSum w c0 c rest

/-- The entry index of a node and the table's 64-bit entry. -/
def State.cubeEntry (s : State) (v n : Nat) (r g b : Nat) : Nat := s.tactNum (0x20000 + v) (8 * ((r * n + g) * n + b)) 8

/-- Whether half h reads an uncorrectable word at byte i of copy c of table t: what is held once for each half, half h reads from its
own words (R453, R455). -/
def State.bankBadHalf (s : State) (h t c i : Nat) : Bool :=
  !s.bnk.bad.isEmpty && (match s.bankWords t c i with
    | [w] => s.bnk.bad.contains w
    | ws => s.bnk.bad.contains (ws.getD h 0) && decide (h < ws.length))

/-- The corners of the tetrahedron that clamped values `m` fall into, as nodes with their fractions, in the order of R267's sum (R265 to R267). -/
def cubeCorners (vc : ViewColour) (m : List Nat) : List ((Nat × Nat × Nat) × Nat) :=
  let n := vc.cube
  let w := 262144 / (n - 1)
  let q := m.map (curve vc.linear)
  let i := q.map (fun x => min (x / w) (n - 2))
  let f := (q.zip i).map (fun e => e.1 - w * e.2)
  (((0, 0, 0), 0) :: tetra (f.getD 0 0) (f.getD 1 0) (f.getD 2 0)).map (fun e =>
    ((i.getD 0 0 + e.1.1, i.getD 1 0 + e.1.2.1, i.getD 2 0 + e.1.2.2), e.2))

/-- The entry index of a node of a cube of `n` nodes a side (R268). -/
def nodeIndex (n : Nat) (d : Nat × Nat × Nat) : Nat := (d.1 * n + d.2.1) * n + d.2.2

/-- The colour output of clamped values `m` through view v's table (R265 to R267) in half h: the words, or the entry index of a vertex
with an uncorrectable error. -/
def State.cube (s : State) (h v : Nat) (vc : ViewColour) (m : List Nat) : List Nat ⊕ Nat :=
  let n := vc.cube
  let w := 262144 / (n - 1)
  let corners := cubeCorners vc m
  match corners.find? (fun e => s.bankBadHalf h (0x20000 + v) (s.copyOf (0x20000 + v)) (8 * nodeIndex n e.1)) with
  | some e => .inr (nodeIndex n e.1)
  | none =>
    let es := corners.map (fun e => (s.cubeEntry v n e.1.1 e.1.2.1 e.1.2.2, e.2))
    .inl ((List.range 3).map (fun c =>
      let comp (x : Nat) : Int := (x / 2 ^ (18 * c) % 2 ^ 18 : Nat)
      let c0 := comp ((es.headD (0, 0)).1)
      satU 18 (rneDiv (tetraSum w c0 c0 (es.tail.map (fun e => (comp e.1, e.2)))) w)))

/-- What a pixel of colour output brings: its words, whether decode saturated, whether the matrix clamped, a poisoned entry, and the vertices. -/
structure ColourPixel where
  u : List Nat
  dsat : Bool
  mclip : Bool
  poison : Option Nat
  verts : List Nat                  -- the entries of the vertices read; none without a table
  deriving DecidableEq, Repr

/-- Decode and colour of one pixel's three coded values in half h (R258). -/
def State.colourPixel (s : State) (h v : Nat) (vc : ViewColour) (coded : List Nat) : ColourPixel :=
  let d := coded.map (decodeValue vc.tf vc.gain)
  let m := (List.range 3).map (matrixValue (fun k => vc.m.getD k 0) (fun c => vc.off.getD c 0) (d.map (·.1)))
  let ms := m.map (·.1)
  let ds := d.any (·.2)
  let mc := m.any (·.2)
  let vs := if vc.cube = 0 ∨ s.bnk.soft = [] then [] else (cubeCorners vc ms).map (fun e => nodeIndex vc.cube e.1)
  if vc.cube = 0 then ⟨ms, ds, mc, none, vs⟩
  else match s.cube h v vc ms with
    | .inl u => ⟨u, ds, mc, none, vs⟩
    | .inr e => ⟨ms, ds, mc, some e, vs⟩

end Sys2Proof.Machine
end

