-- ==== Sys2Proof/Machine/Scan.lean ====
section
/-! DEFINITION. The scan: composition (R191 to R195), colour, compensation (R279 to R289), overdrive (R306 to R316), dither (R317 to
R320), history (R309 to R312), and what goes to the Batten lanes and the Lath outputs (R243, R352 to R356, R368 to R370). -/

namespace Sys2Proof.Machine

/-! ## Composition (R191 to R195) -/

/-- The coverage of pixel (x, y) of a window with FSRC = 0 (R191). -/
def coverage (r : WRect) (x y : Nat) : Nat :=
  let d := min (min (x - r.x0 + r.extL) (r.x0 + r.w - 1 - x + r.extR)) (min (y - r.y0 + r.extT) (r.y0 + r.h - 1 - y + r.extB))
  if r.feather = 0 ∨ r.feather ≤ d then 256 else (rhuDiv ((256 * (2 * d + 1) : Nat) : Int) (2 * r.feather)).toNat

/-- The coverage of a mask value (R192). -/
def maskCoverage (m : Nat) : Nat := m + m / 128

/-- The faded coverage or value (R336). -/
def faded (g a : Nat) : Nat := if g = 256 then a else (rneDiv ((g * a : Nat) : Int) 256).toNat

/-- The buffer that a pick reads, and its gain. -/
def pickSource : Pick → Nat × Nat
  | .live i => (i, 256)
  | .held i g => (i, g)
  | .plate i => (selPlate i, 256)
  | _ => (0, 256)

/-- Draw window w of view v over row y (R191 to R193). -/
def State.drawWindow (s : State) (v w : Nat) (p : Pick) (y : Nat) (acc : List Nat) : List Nat :=
  match s.pickRect p with
  | none => acc
  | some r =>
    if y < r.y0 ∨ r.y0 + r.h ≤ y then acc
    else
      let wy := y - r.y0
      let (sel, g) := pickSource p
      let row := (s.readRow sel wy).1.toArray
      let mask := if r.fsrc = 1 then (s.readMaskRow (selMask v w + sel % 16) wy r.w).toArray else #[]
      acc.zipIdx.map (fun e =>
        let x := e.2 / 3
        if x < r.x0 ∨ r.x0 + r.w ≤ x then e.1
        else
          let a := faded g (if r.fsrc = 1 then maskCoverage (mask.getD (x - r.x0) 0) else coverage r x y)
          (rneDiv ((a * row.getD (3 * (x - r.x0) + e.2 % 3) 0 + (256 - a) * e.1 : Nat) : Int) 256).toNat)

/-- Whether row y of a line-locked slot is taken from L: it is not before the first row that was not in time (R195, R337). -/
def State.lineHeld (s : State) (p : SlotPlan) (y : Nat) : Bool :=
  match p.llFrom with
  | some q => decide (q ≤ s.placeOf y)
  | none => false

/-- Row y of a line-locked image: from the row buffer up to the first row that was not in time, from L after it (R22, R195, R337). -/
def State.lineRow (s : State) (p : SlotPlan) (y : Nat) : List Nat :=
  let sel := selLine p.view
  if s.lineHeld p y then
    match s.holdOf sel with
    | some i => (s.readRow i y).1
    | none => []
  else
    match s.bufOf sel p.frame with
    | some i => (aget (fun _ => ([], 0)) (s.buf i).direct y).1
    | none => []

/-- Row y of what the compositor starts from. -/
def State.baseRow (s : State) (p : SlotPlan) (y : Nat) : List Nat :=
  let k := p.picks.getD 0 .unused
  let row := match k with
    | .live i => (s.readRow i y).1
    | .held i g => (s.readRow i y).1.map (faded g)
    | .plate i => (s.readRow (selPlate i) y).1
    | .overlay => s.overlayRow y
    | .row => s.lineRow p y
    | _ => []
  (row ++ List.replicate (3 * s.width) 0).take (3 * s.width)

/-- Row y as composed (R193). -/
def State.composeRow (s : State) (p : SlotPlan) (y : Nat) : List Nat :=
  (List.range 4).foldl (fun acc w => s.drawWindow p.view w (p.picks.getD (w + 1) .unused) y acc) (s.baseRow p y)

/-- What reading row y of the slot's targets leaves behind: bad blocks of its block rows, at the first row of each that is read (R217,
R223). (DEDUCED, log entry 68.) -/
def State.touchRows (s : State) (p : SlotPlan) (h y : Nat) : State :=
  let one (s : State) (sel top n : Nat) (first : Bool) : State :=
    if first || s.firstOfBlock h y top n then (s.readRow sel (y - top)).2 else s
  let s := match p.picks.getD 0 .unused with
    | .live i => one s i 0 s.height false
    | .held i _ => one s i 0 s.height false
    | .plate i => one s (selPlate i) 0 s.height false
    | .row =>
      if s.lineHeld p y then
        match s.holdOf (selLine p.view) with
        | some i => one s i 0 s.height (p.llFrom.any (fun q => decide (s.placeOf y < q + 2)))
        | none => s
      else s
    | _ => s
  (List.range 4).foldl (fun s w =>
    let k := p.picks.getD (w + 1) .unused
    match s.pickRect k with
    | some r => if r.y0 ≤ y ∧ y < r.y0 + r.h then one s (pickSource k).1 r.y0 r.h false else s
    | none => s) s

/-! ## Colour of a row (R258) -/

/-- The pixels of a row of coded samples. -/
def pixelsOf : Nat → List Nat → List (List Nat)
  | 0, _ => []
  | n + 1, l => l.take 3 :: pixelsOf n (l.drop 3)

/-- Decode and colour of row y in half h. -/
def State.colourRow (s : State) (p : SlotPlan) (vc : ViewColour) (h y : Nat) : List ColourPixel :=
  (pixelsOf s.width (s.composeRow p y)).map (s.colourPixel h p.view vc)

/-! ## Compensation (R279 to R289) -/

/-- The tile of pixel (x, y) (R281). -/
def tileOf (x y : Nat) : Nat := 64 * (y / 64) + x / 64

/-- The words of tile t's record that half h reads. -/
def State.recordWords (s : State) (h t : Nat) : List Nat :=
  (List.range 10).map (fun j => (s.bankWords tWORK (s.copyOf tWORK) (18874368 + 128 * t + 8 * j)).getD h 0)

/-- Whether half h reads an uncorrectable record of tile t. -/
def State.recordBad (s : State) (h t : Nat) : Bool :=
  !s.bnk.bad.isEmpty && (s.recordWords h t).any s.bnk.bad.contains

/-- Whether half h reads an uncorrectable code of subpixel (x, y, c). -/
def State.codeBad (s : State) (h x y c : Nat) : Bool :=
  s.bankBadHalf h tWORK (s.copyOf tWORK) (12288 * y + 3 * x + c)

/-- K(i, j) of colour c in tile t, with k = 3(j + 1) + (i + 1) (R281, R291); an uncorrectable record gives the identity (R298). -/
def State.kernel (s : State) (h t c k : Nat) : Int :=
  if s.recordBad h t then (if k = 4 then 16384 else 0)
  else toSigned 16 (s.tactNum tWORK (18874368 + 128 * t + 24 + 18 * c + 2 * k) 2)

/-- The descriptor of colour c in tile t: B, S and O (R288, R291, R298). -/
def State.workDesc (s : State) (h t c : Nat) : Nat × Nat × Int :=
  if s.recordBad h t then (16384, 1, 0)
  else
    let d := s.tactNum tWORK (18874368 + 128 * t + 8 * c) 8
    (d % 65536, d / 65536 % 65536, toSigned 18 (d / 2 ^ 32 % 2 ^ 18))

/-- What compensation of one row works with: the half, the settings, the used OFF entries of the rows about it, and u of any subpixel of
the segment. -/
structure RowEnv where
  half : Nat
  w : Nat
  h : Nat
  ken : Bool
  spread : Nat
  defects : List Nat
  u : Nat → Nat → Nat → Nat

/-- Whether the column of subpixel (x, y, c) is masked, by the host or by a fault (R285, R286). -/
def State.colMasked (s : State) (x y c : Nat) : Bool :=
  let m := 12288 * halfOf y + 3 * x + c
  s.fmask.testBit m || (s.tact tCMASK (m / 8)).toNat.testBit (m % 8)

/-- The OFF entry of subpixel (x, y, c), unless its column is masked (R284, R285). -/
def State.offEntry (s : State) (e : RowEnv) (x y c : Nat) : Option Nat :=
  match e.defects.find? (fun d => defX d == x && defY d == y && defC d == c) with
  | some d => if s.colMasked x y c then none else some d
  | none => none

/-- x1 of subpixel (x, y, c) (R280, R281). -/
def State.cross (s : State) (e : RowEnv) (x y c : Nat) : Nat :=
  let u0 := e.u x y c
  if !e.ken then u0
  else
    let t := tileOf x y
    let at_ (k : Nat) : Nat :=
      let i := k % 3
      let j := k / 3
      if x + i = 0 ∨ y + j = 0 ∨ e.w < x + i ∨ e.h < y + j then u0 else e.u (x + i - 1) (y + j - 1) c
    let acc := (List.range 9).foldl (fun (a : Int) k => a + s.kernel e.half t c k * at_ k) 0
    satU 18 (rneDiv acc 16384)

/-- A neighbour's light times its weight (R284). -/
def movedPart (x1 w : Nat) : Nat := (rneDiv ((x1 * w : Nat) : Int) 256).toNat

/-- The light that subpixel (x, y, c) receives (R284 to R286). -/
def State.received (s : State) (e : RowEnv) (x y c : Nat) : Nat :=
  let off (x y : Nat) (sh : Nat) : Nat :=
    match s.offEntry e x y c with
    | some d => movedPart (s.cross e x y c) (d / 2 ^ sh % 256)
    | none => 0
  let side (x : Nat) (sh : Nat) : Nat :=
    if s.colMasked x y c then movedPart (s.cross e x y c) e.spread else off x y sh
  (if x = 0 then 0 else side (x - 1) 40) + (if x + 1 < e.w then side (x + 1) 32 else 0)
    + (if y = 0 then 0 else off x (y - 1) 56) + (if y + 1 < e.h then off x (y + 1) 48 else 0)

/-- What compensation makes of subpixel (x, y, c): y, and whether the sat of R284 acted. -/
def State.compensate (s : State) (e : RowEnv) (x y c : Nat) : Nat × Bool :=
  let sum := s.cross e x y c + s.received e x y c
  let x2 := satU 18 sum
  let t := tileOf x y
  let (b, st, o) := s.workDesc e.half t c
  let k := if s.codeBad e.half x y c || s.recordBad e.half t then 0 else (s.tact tWORK (12288 * y + 3 * x + c)).toNat
  let y' := satU 18 (rneDiv (((b + k * st) * x2 : Nat) : Int) 16384 + o)
  (if s.colMasked x y c || (s.offEntry e x y c).isSome then 0 else y', decide (262143 < sum))

/-- The used OFF entries of rows y − 1 to y + 1 that lie inside the segment and read without error (R282 to R284, R298). -/
def State.rowDefects (s : State) (y : Nat) : List Nat :=
  if s.flag Reg.DMU_DEF F.DMU_DEF_DEN then
    (List.range (s.getF Reg.DMU_DEF F.DMU_DEF_COUNT)).filterMap (fun i =>
      let d := s.tactNum tDEFECT (8 * i) 8
      if defType d = 1 ∧ y ≤ defY d + 1 ∧ defY d ≤ y + 1 ∧ defX d < s.width ∧ defY d < s.height
        ∧ s.bankBad tDEFECT (s.copyOf tDEFECT) (8 * i) = false
      then some d else none)
  else []

/-- The used defect entries that read uncorrectable: they are skipped for the slot (R298). (DEDUCED, log entry 68.) -/
def State.defectErrors (s : State) : State :=
  if s.banksClean || !s.flag Reg.DMU_DEF F.DMU_DEF_DEN then s
  else (List.range (s.getF Reg.DMU_DEF F.DMU_DEF_COUNT)).foldl (fun s i =>
    match s.bankWords tDEFECT (s.copyOf tDEFECT) (8 * i) with
    | w :: _ =>
      if s.bnk.bad.contains w then
        ((s.bankUe 2 w).bump Reg.DMU_CNT_POISON 1).event Ev.DMU_DEF_POISON [(16, i)]
      else s.readWord 2 w
    | [] => s) s

/-- The errors that half h meets in fetching the codes and records of row y (R298, R462). (DEDUCED, log entry 68.) -/
def State.workErrors (s : State) (h y : Nat) : State :=
  if s.banksClean then s
  else
    let one (s : State) (w t : Nat) : State :=
      if s.bnk.bad.contains w then
        ((s.bankUe (2 + h) w).bump Reg.DMU_CNT_POISON 1).event Ev.DMU_WORK_POISON [(16, t)]
      else s.readWord (2 + h) w
    let c := s.copyOf tWORK
    let s := (List.range (ceilDiv (3 * s.width) 8)).foldl (fun s k =>
      (s.bankWords tWORK c (12288 * y + 8 * k)).foldl (fun s w => one s w (tileOf (8 * k / 3) y)) s) s
    (List.range (ceilDiv s.width 64)).foldl (fun s tx =>
      (s.recordWords h (tileOf (64 * tx) y)).foldl (fun s w => one s w (tileOf (64 * tx) y)) s) s

/-- Compensation of row y from the colour of the rows about it. -/
def State.compRow (s : State) (h y : Nat) (u : Nat → Nat → Nat → Nat) : List (Nat × Bool) :=
  let e : RowEnv :=
    { half := h, w := s.width, h := s.height, ken := s.flag Reg.DMU_PANEL F.DMU_PANEL_KEN
      spread := s.getF Reg.DMU_CMCFG F.DMU_CMCFG_SPREAD, defects := s.rowDefects y, u := u }
  (List.range (3 * s.width)).map (fun i => s.compensate e (i / 3) y (i % 3))

/-! ## History (R309 to R312) -/

/-- The history buffer. -/
def State.histPlace (s : State) : Placement := ⟨0x33000, 0x3000, s.modeOf selHistory, s.width, s.height⟩

/-- The number of a history block. -/
def State.histIndex (s : State) (bx bY : Nat) : Nat := bY * ceilDiv s.width 64 + bx

/-- The codes that the last scan of row y of half h drove, block by block, from the block row read ahead; none for a block that is invalid
(R311, R312). (DEDUCED, log entry 91.) -/
def State.histRow (s : State) (h y : Nat) : List (Option (List Nat)) :=
  (aget (fun _ => []) s.pipe.ahead h).map (fun b => b.map (fun rows => rows.getD (y % 4) []))

/-- Half h reads the block row of row y before its first row; each invalid block is counted and reported (R225, R310 to R312). (DEDUCED, log
entry 68.) -/
def State.readHist (s : State) (h y : Nat) : State :=
  if !s.firstOfBlock h y 0 s.height then s
  else
    let (l, s) := (List.range (ceilDiv s.width 64)).foldl (fun (acc : List (Option (List (List Nat))) × State) bx =>
      let (l, s) := acc
      let i := s.histIndex bx (y / 4)
      if !s.pipe.hValid.testBit i then (l ++ [some (List.replicate 4 (List.replicate 192 0))], s)
      else
        let (rows, bad, s) := s.readBlock selHistory s.histPlace true bx (y / 4)
        if bad then (l ++ [none], (s.bump Reg.ODV_CNT_HINV 1).event Ev.ODV_HIST_BAD [(8, h), (16, i)]) else (l ++ [some rows], s)) ([], s)
    s.onPipe (fun p => { p with ahead := ainsert (aerase p.ahead h) h l })

/-- The codes of row y enter the history; a block row is written back once its last row is scanned (R225, R310, R311).
(DEDUCED, log entry 91.) -/
def State.putHist (s : State) (y : Nat) (codes : List Nat) : State :=
  let bY := y / 4
  let rows := aget (fun _ => [[], [], [], []]) s.pipe.hist bY
  let rows := rows.zipIdx.map (fun e => if e.2 = y % 4 then codes else e.1)
  let n := min 4 (s.height - 4 * bY)
  if (rows.take n).any List.isEmpty then
    s.onPipe (fun p => { p with hist := ainsert (aerase p.hist bY) bY rows })
  else
    let rows := (List.range 4).map (fun r => rows.getD (min r (n - 1)) [])
    let p := s.histPlace
    let s := if p.mode = 0 then
        rows.zipIdx.foldl (fun s e => s.writeRowRaw p true (4 * bY + e.2) 0 (padRow (64 * ceilDiv p.w 64) e.1)) s
      else
        (s.encodeRows selHistory p true bY rows).reportLoss selHistory 0 s.gen.fc
          ((List.range (ceilDiv s.width 64)).map (fun bx => s.histIndex bx bY))
    let bits := (List.range (ceilDiv s.width 64)).foldl (fun n bx => setBit n (s.histIndex bx bY)) s.pipe.hValid
    (s.onPipe (fun p => { p with hValid := bits, hist := aerase p.hist bY })).syncZero

/-! ## Overdrive (R308, R313 to R316) -/

/-- The target level L of y for colour c (R308). -/
def State.targetLevel (s : State) (c y : Nat) : Nat :=
  let j := y / 64
  let a : Int := s.lawEntry c j
  satU 18 (a + rneDiv (((s.lawEntry c (j + 1) : Int) - a) * (y % 64 : Nat)) 64)

/-- D(i, k) of band b and colour c (R313). -/
def State.odEntry (s : State) (b c i k : Nat) : Int :=
  toSigned 20 (s.tactNum tOD (4356 * (3 * b + c) + 4 * (33 * i + k)) 4)

/-- The correction sum S_b (R314). -/
def State.odSum (s : State) (b c h l : Nat) : Int :=
  let i := min (h / 512) 31
  let fh : Int := h - 512 * i
  let k := min (l / 8192) 31
  let fl : Int := l - 8192 * k
  (512 - fh) * (8192 - fl) * s.odEntry b c i k + fh * (8192 - fl) * s.odEntry b c (i + 1) k
    + (512 - fh) * fl * s.odEntry b c i (k + 1) + fh * fl * s.odEntry b c (i + 1) (k + 1)

/-- L' of level l over history h, and whether the sat acted (R314). -/
def State.overdrive (s : State) (c h l : Nat) : Nat × Bool :=
  let b := s.getF Reg.ODV_TEMP F.ODV_TEMP_BAND
  let beta : Int := s.getF Reg.ODV_TEMP F.ODV_TEMP_BETA
  let one := s.getF Reg.ODV_CFG F.ODV_CFG_NBAND == 0
  let sum := if one then 256 * s.odSum 0 c h l else (256 - beta) * s.odSum b c h l + beta * s.odSum (b + 1) c h l
  let x : Int := l + rneDiv sum (2 ^ 30)
  (satU 18 x, decide (x < 0 ∨ 262143 < x))

/-! ## Dither (R318) -/

/-- The threshold for subpixel (x, y, c) of view v in the frame in force; 7 without dither. -/
def State.threshold (s : State) (v x y c : Nat) : Nat :=
  let r := Reg.DTH_VCFG v
  if !s.flag r F.DTH_VCFG_EN then 7
  else
    let mx := (x + s.getF r F.DTH_VCFG_OFFX + 21 * c) % 64
    let my := (y + s.getF r F.DTH_VCFG_OFFY) % 64
    let seq := (s.reg (Reg.DTH_SEQ_LO v)).toNat + 2 ^ 32 * (s.reg (Reg.DTH_SEQ_HI v)).toNat
    let p := seq / 16 ^ (s.gen.fc % 16) % 16
    (s.tact tDTH (4096 * p + 64 * my + mx)).toNat % 16

/-- The drive code of level l at threshold t. -/
def driveCode (l t : Nat) : Nat := min 16383 (l / 16 + b2n (decide (t < l % 16)))

/-- Overdrive and dither of row y: the codes, and whether the sat of overdrive acted. -/
def State.driveRow (s : State) (v h y : Nat) (comp : List Nat) : List Nat × Bool :=
  let hist := (s.histRow h y).toArray
  let en := s.flag Reg.ODV_CFG F.ODV_CFG_EN
  let out := comp.zipIdx.map (fun e =>
    let x := e.2 / 3
    let c := e.2 % 3
    let l := s.targetLevel c e.1
    let (l', sat) := match hist.getD (x / 64) none with
      | some codes => if en then s.overdrive c (codes.getD (3 * (x % 64) + c) 0) l else (l, false)
      | none => (l, false)
    (driveCode l' (s.threshold v x y c), sat))
  (out.map (·.1), out.any (·.2))

/-- Add rne(code × EMIT × ROWT / 65,536) of every code of row y to the dose of its tile-colour while TMK_DOSE_CFG.EN is 1 (R570). -/
def State.addDose (s : State) (y : Nat) (codes : List Nat) : State :=
  if !s.flag Reg.TMK_DOSE_CFG F.TMK_DOSE_CFG_EN then s
  else
    let k := s.getF Reg.GEN_ROWT F.GEN_ROWT_EMIT * s.getF Reg.GEN_ROWT F.GEN_ROWT_ROWT
    s.onPipe (fun p => { p with dose := codes.zipIdx.foldl (fun d e =>
      let i := 3 * (64 * (y / 64) + e.2 / 192) + e.2 % 3
      aset (fun _ => 0) d i (min (aget (fun _ => 0) d i + (rneDiv ((e.1 * k : Nat) : Int) 65536).toNat) (2 ^ 64 - 1))) p.dose })

/-! ## One row of a slot -/

/-- The plan of the slot being scanned. -/
def State.planOf (s : State) (k : Nat) : Option SlotPlan :=
  s.hrt.plans.find? (fun p => p.frame == s.gen.fc && p.slot == k)

/-- Replace a plan. -/
def State.setPlan (s : State) (p : SlotPlan) : State :=
  s.onHrt (fun h => { h with plans := h.plans.map (fun q => if q.frame = p.frame ∧ q.slot = p.slot then p else q) })

/-- The first row of a line-locked slot that is not in time: the slot is substituted from it on (R195, R337). (DEDUCED, log entry 85.) -/
def State.lineMiss (s : State) (p : SlotPlan) (place : Nat) : State :=
  let v := p.view
  let r := s.run v 0
  let c := if (s.holdOf (selLine v)).isSome then 1 else 3
  let s := s.setPlan { p with llFrom := some place }
  let s := s.setRun v 0 { r with age := min (r.age + 1) 65535, choice := c, usedPB := r.usedPB || c == 3, fell := false, line := true }
  let s := s.syncRun v 0
  let s := (s.bump (Reg.VIEW_CNT_MISS v) 1).event Ev.ING_MISS [(8, v), (8, targetByte (selLine v)), (32, p.frame)]
  let s := if r.age ≠ 0 ∧ c ≠ r.choice then
      s.event Ev.HRT_CHOICE (s.hrtItems v 0 [(8, r.choice), (8, c), (16, min (r.age + 1) 65535)]) else s
  let s := s.setReg (Reg.VIEW_SLOTSTAT v) (withField F.VIEW_SLOTSTAT_BASE 2 (s.reg (Reg.VIEW_SLOTSTAT v)))
  s.setF (Reg.VIEW_HSTAT v) F.VIEW_HSTAT_SUBST (setBit (s.getF (Reg.VIEW_HSTAT v) F.VIEW_HSTAT_SUBST) 0)

/-- The Lath outputs of the row at position r of half h, in a slot whose scan starts at `t0`: its scan clock, and the emission clock that ends
its emission (R368 to R370); SWAP exchanges the edges. -/
def State.lathRow (s : State) (h r t0 : Nat) : State :=
  let swap := s.flag Reg.LTH_CFG F.LTH_CFG_SWAP
  let a := r % 4 + (if swap then 4 else 0)
  let b := r % 4 + (if swap then 0 else 4)
  let t := t0 + r * s.rowT
  let e := t0 + (r + 1 + s.getF Reg.GEN_ROWT F.GEN_ROWT_EMIT) * s.rowT
  (s.emit (.latch ("CK" ++ toString a) h r (t + s.getF Reg.LTH_TIME0 F.LTH_TIME0_GON) (t + s.rowT))).emit
    (.latch ("CK" ++ toString b) h r e (e + s.getF Reg.LTH_TIME1 F.LTH_TIME1_EMW))

/-- The start inputs of the scan and emission registers of each half in use, for a slot whose scan starts at `t0` (R368 to R370). -/
def State.lathStart (s : State) (t0 : Nat) : State :=
  let swap := s.flag Reg.LTH_CFG F.LTH_CFG_SWAP
  let w := s.getF Reg.LTH_TIME0 F.LTH_TIME0_STVS
  let a := t0 + s.getF Reg.LTH_TIME0 F.LTH_TIME0_GON
  let b := t0 + (1 + s.getF Reg.GEN_ROWT F.GEN_ROWT_EMIT) * s.rowT
  [0, 1].foldl (fun s h =>
    if s.halfUsed h then
      (s.emit (.latch (if swap then "STV_B" else "STV_A") h 0 (a - w) (a + w))).emit
        (.latch (if swap then "STV_A" else "STV_B") h 0 (b - w) (b + w))
    else s) s

/-! ### The drivers' share of a row (R354 to R356) -/

/-- a_j: the first pixel of driver j's span, for O codes a driver (R355). -/
def spanFirst (o j : Nat) : Nat := ceilDiv (o * j) 3

/-- ROT_j (R356). -/
def spanRot (o j : Nat) : Nat := 3 * spanFirst o j - o * j

/-- The codes of driver j, in the order of the link: from ROT_j on, then those that belong to the last pixel of the span before (R356).
(DEDUCED, log entry 87.) -/
def linkCodes (o j : Nat) (codes : List Nat) : List Nat :=
  let own := (codes.drop (o * j)).take o
  own.drop (spanRot o j) ++ own.take (spanRot o j)

/-- Where the LOAD block of a row ends, and its DLY, for column outputs that change at `x` PCLK with block slots that end at `grid`: the latest
slot whose end lies at least 64 UI before, in thirds of a UI; a PCLK is 50 of them, a block slot 195 (R358, R362). -/
def loadPlace (grid x : Nat) : Nat × Nat :=
  let lim := 50 * x - 192
  let e := lim - (lim + 195 - grid % 195) % 195
  (e, (rneDiv ((lim : Int) - e) 3).toNat)

/-- O of driver g, as its training wrote it (R374, R377). -/
def State.codesOf (s : State) (g : Nat) : Nat := (s.driver g).map.toNat / 65536 % 2048

/-- Send row y of half h, whose row time starts at `t0`, to its drivers: none to one that is not ACTIVE or DEGRADED, or to which the sequencer's
CMDs after a retraining have not gone (R354, R361 to R363, R366, R392). (DEDUCED, log entry 93.) -/
def State.sendRow (s : State) (h y t0 : Nat) (codes : List Nat) : State :=
  (List.range 12).foldl (fun s j =>
    let g := 12 * h + j
    let o := s.codesOf g
    let l := loadPlace (s.driver g).grid (t0 + s.getF Reg.LTH_TIME0 F.LTH_TIME0_DHOLD)
    if s.drvUp g && !(s.driver g).queue.any (fun c => c.use == .seq) then
      s.emit (.batSend g y (spanRot o j) o (linkCodes o j codes) l.1 l.2)
    else s) s

/-- Row time of position r in half h (R243, R279, R306). (DEDUCED, log entries 85 and 87.) -/
def State.scanRow (s : State) (p : SlotPlan) (h r : Nat) : State :=
  match s.rowAt h r with
  | none => s
  | some y =>
    let late := !s.lineReady p.view p.frame ((s.bufOf (selLine p.view) p.frame).getD 0) y
    let s := if p.picks.getD 0 .unused = .row ∧ p.llFrom = none ∧ late = true then s.lineMiss p (2 * r + h) else s
    let p := (s.planOf p.slot).getD p
    let s := s.touchRows p h y
    let vc := s.viewColour p.view
    let rows := (List.range 5).map (fun k =>
      if y + k < 2 ∨ s.height ≤ y + k - 2 then (#[] : Array ColourPixel) else (s.colourRow p vc h (y + k - 2)).toArray)
    let own := (rows.getD 2 #[]).toList
    let u (x z c : Nat) : Nat :=
      match (rows.getD (z + 2 - y) #[])[x]? with
      | some q => q.u.getD c 0
      | none => 0
    let s := if s.bnk.soft.isEmpty then s
      else (own.flatMap (·.verts)).foldl (fun s e =>
        match (s.bankWords (0x20000 + p.view) (s.copyOf (0x20000 + p.view)) (8 * e))[h]? with
        | some w => if s.bnk.soft.contains w then s.readWord h w else s
        | none => s) s
    let s := own.foldl (fun s q =>
      match q.poison with
      | some e =>
        let w := (s.bankWords (0x20000 + p.view) (s.copyOf (0x20000 + p.view)) (8 * e)).getD h 0
        ((s.bankUe h w).bump (Reg.CLR_CNT_POISON p.view) 1).event Ev.CLR_TBL_POISON [(8, p.view), (16, e)]
      | none => s) s
    let comp := s.compRow h y u
    let s := s.workErrors h y
    let s := s.bump Reg.DMU_CNT_RSAT (comp.filter (·.2)).length
    let s := s.readHist h y
    let (codes, sat) := s.driveRow p.view h y (comp.map (·.1))
    let s := s.putHist y codes
    let s := s.addDose y codes
    let s := s.onPipe (fun k => { k with
      dsat := k.dsat + (own.filter (·.dsat)).length
      mclip := k.mclip + (own.filter (·.mclip)).length
      odsat := k.odsat || sat })
    ((s.emit (.batRow h y codes)).sendRow h y (s.gen.bnd + s.slotDelta p.slot + r * s.rowT) codes).lathRow h r
      (s.gen.bnd + s.slotDelta p.slot)

/-! ## The start and the end of a slot -/

/-- LTH_STAT: the scan token of each half that is used is in flight while a slot is scanned, its emission token from (1 + EMIT) row times
after the scan starts until the last row's emission clock falls (R369, R370, R379). (DEDUCED, log entry 126.) -/
def State.syncLath (s : State) : State :=
  let s := s.onPipe (fun p => { p with emits := p.emits.filter (fun e => decide (s.gen.vt < e.2)) })
  let one (h : Nat) : Nat :=
    if s.halfUsed h then b2n (s.scanRuns && s.hrt.scanSlot.isSome) + 2 * b2n (s.pipe.emits.any (fun e => decide (e.1 ≤ s.gen.vt))) else 0
  s.setF Reg.LTH_STAT F.LTH_STAT_ACT (one 0 + 4 * one 1)

/-- The emission token of the slot whose scan starts now (R370). -/
def State.startEmission (s : State) : State :=
  let e := s.getF Reg.GEN_ROWT F.GEN_ROWT_EMIT
  let a := s.gen.vt
  s.onPipe (fun p => { p with
    emits := p.emits ++ [(a + (1 + e) * s.rowT, a + (768 + e) * s.rowT + s.getF Reg.LTH_TIME1 F.LTH_TIME1_EMW)] })

/-- A line-locked image whose source state changed between the deadline of its slot and the start of the slot, which is now, follows the state
at the start: ASLEEP, the whole slot is substituted by the walk; AWAKE, it is shown row by row (R337). (DEDUCED, log entry 85.) -/
def State.relock (s : State) (k : Nat) : State :=
  match s.hrt.plans.find? (fun p => p.frame == s.gen.fc && p.slot == k) with
  | none => s
  | some p =>
    let row := p.picks.getD 0 .unused == .row
    let asleep := (s.src (s.tsel p.view 0)).asleep
    if !s.lineLock p.view || s.hearthStep || row != asleep then s
    else
      let (q, s) := if row then s.substitute p.view 0 p.frame k s.gen.vt false
        else (.row, (s.setRun p.view 0 { s.run p.view 0 with age := (s.run p.view 0).age - 1 }).syncRun p.view 0)
      let p := { p with picks := p.picks.set 0 q }
      (s.onHrt (fun h => { h with plans := h.plans.map (fun x => if x.frame = p.frame ∧ x.slot = k then p else x) })).putSlotStat
        p.view p.frame p.picks false

/-- SLOT_SCAN_START: the scan of the next slot starts (R188, R243, R369, R370). A slot that has not been decided is decided now.
(DEDUCED, log entry 79.) -/
def State.startSlot (s : State) : State :=
  if !s.scanRuns || s.hrt.scanSlot.isSome || decide (s.nSlot ≤ s.hrt.scanned) then s
  else
    let k := s.hrt.scanned
    let s := if s.hrt.slots ≤ k then s.slotDeadline else s
    let s := (s.reachTime (s.gen.bnd + s.slotDelta k)).relock k
    let s := s.onHrt (fun h => { h with
      scanSlot := some k, scanned := k + 1, row := 0
      plans := h.plans.map (fun p => if p.frame = s.gen.fc ∧ p.slot = k then
        { p with picks := p.picks.zipIdx.map (fun e => match e.1 with
            | .held _ g => match s.holdBelow (s.tsel p.view e.2) p.frame with
                | some i => .held i g
                | none => .dark
            | q => q) } else p) })
    let s := s.onPipe (fun p => { p with dsat := 0, mclip := 0, odsat := false })
    ((s.defectErrors.startEmission).syncLath).lathStart (s.gen.bnd + s.slotDelta k)

def execSlotScanStart (s : State) : Res := .next s.startSlot

/-- Free the plate staging buffers that the end of view v's slot k frees (R422). -/
def State.freePlates (s : State) (p : SlotPlan) : State :=
  (List.range 16).foldl (fun s i =>
    match s.staging i with
    | none => s
    | some g =>
      let shownBy := g.shownBy.filter (fun u => u.1 != p.view || p.picks.getD u.2 .unused == .plate i)
      let later := g.frame == s.gen.fc && (List.range s.nSlot).any (fun k => decide (p.slot < k) && g.users.any (fun u => u.1 == s.slotView k))
      let future := decide (s.gen.fc < g.frame)
      if g.complete && shownBy.isEmpty && !later && !future then s.freeStaging i
      else if !g.complete && g.frame == s.gen.fc && !later then s.freeStaging i
      else s.setStaging i (some { g with shownBy := shownBy })) s

/-- The end of a line-locked slot (R195, R224, R337): of an image that was AWAKE the run goes on or ends; a frame whose rows were all in time is
complete by now. Its rows leave the row buffer. -/
def State.endLineSlot (s : State) (p : SlotPlan) : State :=
  if p.picks.getD 0 .unused ≠ .row ∧ s.lineLock p.view = false then s
  else
    let s := if p.picks.getD 0 .unused ≠ .row ∨ p.llFrom.isSome then s
      else ((s.endRun p.view 0 true).onHrt (fun h => { h with anyLive := true })).leaveHearth
    match s.bufOf (selLine p.view) p.frame with
    | some i =>
      let s := if s.meetsAll i then s.completeFrame none i else s
      s.setBuf i { s.buf i with direct := [] }
    | none => s

/-- The end of the slot whose plan is `p`. -/
def State.endSlot (s : State) (p : SlotPlan) : State :=
  let v := p.view
  let s := s.setReg (Reg.CLR_LAST_DSAT v) (word s.pipe.dsat)
  let s := s.setReg (Reg.CLR_LAST_MCLIP v) (word s.pipe.mclip)
  let s := if s.pipe.dsat ≠ 0 then s.bump (Reg.CLR_CNT_DSAT v) 1 else s
  let s := if s.pipe.mclip ≠ 0 then s.bump (Reg.CLR_CNT_MCLIP v) 1 else s
  let s := if s.pipe.odsat then s.bump Reg.ODV_CNT_SAT 1 else s
  let s := (s.endLineSlot p).freePlates p
  let s := if v = 0 then s.setOverlayOpen true else s
  let s := s.onHrt (fun h => { h with
    plans := h.plans.filter (fun q => !(q.frame == p.frame && q.slot == p.slot)), scanSlot := none, row := 0 })
  if s.pnl.stopSlot then State.afterStop s (s.onPnl (fun q => { q with scanning := false, stopSlot := false })) else s

/-- ROW_TIME: the next row of each half (R243). `fsErrs` are the errors that its frame-store reads meet, `bankErrs` those that have arisen in words of
the banks. -/
def State.rowTime (s : State) (fsErrs bankErrs : List ReadError) : State :=
  match s.hrt.scanSlot.bind s.planOf with
  | none => s
  | some p =>
    if !s.scanRuns then s
    else
      let r := s.hrt.row
      let s := s.reachTime (s.gen.bnd + s.slotDelta p.slot + r * s.rowT)
      let s := s.takeEcc fsErrs
      let s := s.spoilWords bankErrs
      let s := s.scanRow p 0 r
      let s := s.scanRow ((s.planOf p.slot).getD p) 1 r
      let s := s.onHrt (fun h => { h with row := r + 1 })
      (if r + 1 < 768 then s else s.endSlot ((s.planOf p.slot).getD p)).syncLath

def execRowTime (fsErrs bankErrs : List ReadError) (s : State) : Res := .next (s.rowTime fsErrs bankErrs)

end Sys2Proof.Machine
end

