-- ==== Sys2Proof/Machine/Panel.lean ====
section
/-! DEFINITION. The panel's power-on, power-off and emergency discharge, step by step (R382 to R391), and the events that stop the scan at
once (R51, R388, R395). -/

namespace Sys2Proof.Machine

/-! ## Rails -/

/-- The used rails of the latched values in the order in which the power-on raises them (R381, R382). -/
def State.railOrder (s : State) : List Nat :=
  (List.range 6).flatMap (fun k => (List.range 6).filter (fun n =>
    fieldOf F.SCN_PRAIL_USED (s.latched (Reg.SCN_PRAIL n)) == 1 && fieldOf F.SCN_PRAIL_POS (s.latched (Reg.SCN_PRAIL n)) == k))

/-- VDD_IO is gone: only the meter goes on, and AON is off with the rest (R71, R72). (DEDUCED, log entry 26.) -/
def State.powerGone (s : State) : State :=
  ((s.restart .supply).setDomain 0 false).onRst (fun r => { r with applying := none, off := true })

/-! ## Power-on (R384) -/

/-- A power-on starts at N1, with the half-pipes and Batten lanes on and the fixed regions' banks out of retention (R72, R383, R460). -/
def State.startPanelOn (s : State) : State :=
  let s := s.banksOn
  let s := ([18, 19, 15, 16].foldl (fun s d => s.domainUp d) s).latchPanel
  let s := (s.setSeq 1 1).setTarget 0
  let s := s.onPnl (fun p => { p with
    raised := [], inDelay := false, aborted := false, wantOn := false, wantOff := false, stopFrame := false, stopSlot := false
    stopCause := 0, n1Measured := false, n1Bad := 0 })
  let s := s.onPnl (fun p => { p with todo := s.railOrder })
  if s.crackPol = 0 ∨ s.pnl.measuring then s
  else if s.calrefBusy then s.onCal (fun c => { c with deferred := true })
  else s.crackStart

/-- The device heads for DORMANT from STANDBY: every magazine is unmounted first (R72, R406). -/
def State.headDormant (s : State) : State :=
  (List.range 4).foldl (fun s p => s.beginUnmount p 0) (s.setTarget 3)

/-- What follows when the panel has gone off: OFF, a reset that waited, the power-on or the DORMANT that was asked for (R50, R72, R73). -/
def State.panelDone (s : State) : State :=
  if s.rst.off then s.powerGone
  else if s.rst.waitPanel.isSome then s.afterPanel
  else if s.pnl.wantOn then s.startPanelOn
  else if s.pwr.heading then s.headDormant
  else s

/-- Raise the next rail in N3; after the last one N4 releases the drivers and trains them. -/
def State.raiseRail (s : State) : State :=
  match s.pnl.todo with
  | n :: _ => (s.setRail n true).onPnl (fun p => { p with raised := p.raised ++ [n], inDelay := false })
  | [] => s.drivers.foldl (fun s g => s.startTrain g) ((s.setSeq 1 4).setBatRst true)

/-- The rail that N3 or F5 is at has its power-good level; its delay runs. -/
def State.railDelay (s : State) (n : Nat) (b : Bool) : State := (s.setPg n b).onPnl (fun p => { p with inDelay := true })

/-- The rail that N3 or F5 is at is done. -/
def State.railDone (s : State) : State := s.onPnl (fun p => { p with todo := p.todo.drop 1, inDelay := false })

/-- A CMD of the sequencer to every ACTIVE driver: DISCH with HOLD (R384, R392). -/
def State.seqDisch (s : State) (hold : Bool) : State :=
  s.trained.foldl (fun s g =>
    if s.drvState g = 2 then s.sendDrv g true 0x03 (word (fieldOf F.SCN_PCOL_DLEVEL (s.latched Reg.SCN_PCOL) + 256 * b2n hold)) .seq
    else s) s

/-- N5: ILIM, then DISCH with HOLD = 1. -/
def State.seqLimits (s : State) : State :=
  (s.trained.foldl (fun s g =>
    if s.drvState g = 2 then s.sendDrv g true 0x02 (word (fieldOf F.SCN_PCOL_ILIM (s.latched Reg.SCN_PCOL))) .seq else s) s).seqDisch true

/-- Drivers that have not answered the sequencer when the step ends (R387). -/
def State.noAnswers (s : State) : State :=
  let mine := fun (c : DrvCmd) => c.use == .seq || c.use == .seqQuiet
  s.trained.foldl (fun s g =>
    let d := s.driver g
    let all := d.cmd.toList ++ d.queue
    if all.any mine then
      let s := (s.setDriver g { d with cmd := d.cmd.filter (fun c => !mine c), queue := d.queue.filter (fun c => !mine c) }).pumpDrv g
      if all.any (fun c => c.use == .seq) then s.event Ev.PNL_DISCH_NORESP [(8, g)] else s
    else s) s

/-- The panel is off: STANDBY, and what was waiting for it. -/
def State.panelOffEnd (s : State) : State :=
  let s := (s.panelOutputsOff).setSeq 0 0
  let s := s.onPnl (fun p => { p with raised := [], todo := [], inDelay := false, aborted := false, stopCause := 0, wantOff := false })
  s.arriveStandby.panelDone

/-- A power-on that does not light the panel (R385); `fail` is the LAST_FAIL code. -/
def State.abortOn (s : State) (fail : Nat) : State :=
  let s := ((s.setF Reg.PWR_REQ F.PWR_REQ_STATE 1).setF Reg.SCN_PSTAT F.SCN_PSTAT_LAST_FAIL fail).dropHeading
  let s := s.onPnl (fun p => { p with wantOn := false, wantOff := false, stopCause := 0 })
  if s.pnl.raised.isEmpty then s.panelOffEnd
  else
    let s := ((s.setSeq 3 4).setTarget 2).onPnl (fun p => { p with aborted := true, inDelay := false })
    s.setPanelPins [(0, false), (2, true), (3, true)]

/-- The end of N1: its checks, then N2 and the first rail of N3. The reading of N1 alone decides about the crack loop (R395). (DEDUCED, log
entry 137.) -/
def State.endN1 (s : State) (pins : PanelPins) : State :=
  let bad := s.pnl.n1Bad
  if s.crackPol ≠ 0 ∧ s.pnl.n1Measured = false then s
  else if pins.pfailLow || pins.vddLow then (s.event Ev.PNL_PFAIL_HELD []).abortOn 7
  else if 2 ≤ s.crackPol ∧ bad ≠ 0 then (s.alarm (if bad = 1 then 4 else 5) []).abortOn 5
  else
    let s := (s.setPanelPins [(2, true), (3, true), (1, true)]).setBatRst false
    (s.setSeq 1 3).raiseRail

/-- The end of N8: the history starts from zero and the panel is on (R310, R384). -/
def State.endN8 (s : State) : State :=
  let s := s.setPanelPins [(4, false), (5, false), (1, false)]
  let s := ((s.onPipe (fun p => { p with hValid := 0, hist := [] })).syncZero).event Ev.PNL_ON_DONE []
  let s := (s.setSeq 2 0).setF Reg.PWR_STATE F.PWR_STATE_CUR 0
  let s := ((s.setF Reg.PWR_STATE F.PWR_STATE_TARGET 0).setF Reg.PWR_STATE F.PWR_STATE_TRANS 0).signal 260
  let s := (s.syncBanks.dropOff).onPnl (fun p => { p with litAt := s.gen.vt })
  if s.pnl.wantOff then (s.onPnl (fun p => { p with wantOff := false })).beginOff false s.pnl.stopCause else s

/-- The step of the power-on that runs ends. -/
def State.onStep (s : State) (pins : PanelPins) : State :=
  match s.seqStep with
  | 1 => s.endN1 pins
  | 3 =>
    match s.pnl.todo with
    | n :: _ => if s.pnl.inDelay then s.railDone.raiseRail else s.railDelay n true
    | [] => s.raiseRail
  | 4 => if s.trained.any (fun g => s.drvState g == 1) then s else (s.setSeq 1 5).seqLimits
  | 5 => ((s.noAnswers).setSeq 1 6).setPanelPins [(2, false), (3, false), (0, true)]
  | 6 => ((s.setPanelPin 0 false).setSeq 1 7).seqDisch false
  | 7 => ((s.noAnswers).setSeq 1 8).setPanelPins [(4, true), (5, true)]
  | 8 => s.endN8
  | _ => s

/-! ## Power-off (R386) -/

/-- F6 and the end of the sequence. -/
def State.endOff (s : State) : State :=
  let s := if s.pnl.aborted then s else s.event Ev.PNL_OFF_DONE []
  let s := if s.pnl.stopCause = 0 then s else s.setF Reg.SCN_PSTAT F.SCN_PSTAT_LAST_FAIL s.pnl.stopCause
  s.panelOffEnd

/-- Remove the next rail in F5, or end with F6. -/
def State.dropRail (s : State) : State :=
  match s.pnl.todo with
  | n :: _ => s.setRail n false
  | [] => s.endOff

/-- The step of the power-off that runs ends. -/
def State.offStep (s : State) : State :=
  match s.seqStep with
  | 1 =>
    if s.pnl.scanning then s
    else (((s.onPnl (fun p => { p with stopFrame := false, stopSlot := false })).setSeq 3 2).setPanelPin 1 true).sendDisch
      (fieldOf F.SCN_PCOL_DLEVEL (s.latched Reg.SCN_PCOL))
  | 2 => ((s.noAnswers).setSeq 3 3).setPanelPin 0 true
  | 3 => (s.setSeq 3 4).setPanelPins [(0, false), (2, true), (3, true)]
  | 4 => ((s.setSeq 3 5).onPnl (fun p => { p with todo := p.raised.reverse, inDelay := false })).dropRail
  | 5 =>
    match s.pnl.todo with
    | n :: _ => if s.pnl.inDelay then s.railDone.dropRail else s.railDelay n false
    | [] => s.dropRail
  | _ => s

/-- PNL_SEQ_STEP_END: the step that runs ends (R384, R386); PFAIL follows PNL_PFAIL_N (R399). -/
def State.panelStep (s : State) (pins : PanelPins) : State :=
  let s := s.setF Reg.SCN_PSTAT F.SCN_PSTAT_PFAIL (b2n pins.pfailLow)
  if s.seq = 1 then s.onStep pins else if s.seq = 3 then s.offStep else s

def execPnlSeqStepEnd (pins : PanelPins) (s : State) : Res := .next (s.panelStep pins).syncLath

/-- PNL_PG_TIMEOUT: a rail's power-good does not change within PG_TO (R385, R386). -/
def State.pgTimeout (s : State) : State :=
  match s.pnl.todo with
  | n :: _ =>
    if s.pnl.inDelay then s
    else if s.seq = 1 ∧ s.seqStep = 3 then (s.alarm 2 [(8, n)]).abortOn 1
    else if s.seq = 3 ∧ s.seqStep = 5 then ((s.event Ev.PNL_PG_STUCK [(8, n)]).railDone).dropRail
    else s
  | [] => s

def execPnlPgTimeout (s : State) : Res := .next s.pgTimeout

/-! ## Emergency discharge (R389) -/

/-- The end of the discharge: the alarm, LAST_FAIL and the counter, and STANDBY, or the shutdown that it came from (R51). PG keeps the levels last
seen: no PNL_PGn is waited for. (DEDUCED, log entries 26 and 27.) -/
def State.emergEnd (s : State) : State :=
  let cause := s.pnl.emerg
  let s := (s.panelOutputsOff).setSeq 0 0
  let s := (s.alarm 3 [(8, cause)]).setF Reg.SCN_PSTAT F.SCN_PSTAT_LAST_FAIL cause
  let s := s.bump Reg.SCN_CNT_EMERG 1
  let s := s.onPnl (fun p => { p with raised := [], emerg := 0, emergStep := 0, emergSkip := false, stopCause := 0 })
  if s.rst.off then s.powerGone
  else if s.rst.shutdownDue then (s.panelDomainsOff.shutDown).afterPanel
  else ((s.setF Reg.PWR_REQ F.PWR_REQ_STATE 1).arriveStandby).panelDone

/-- EMERG_STEP: 6, 406, 606 and 1,000 µs after the trigger. -/
def State.emergNext (s : State) : State :=
  if s.seq ≠ 4 then s
  else
    let n := s.pnl.emergStep
    let s := s.onPnl (fun p => { p with emergStep := n + 1 })
    if n = 0 then (if s.pnl.emergSkip then s else s.setPanelPin 0 true)
    else if n = 1 then s.setPanelPins [(0, false), (2, true), (3, true)]
    else if n = 2 then ((List.range 6).foldl (fun s r => s.setRail r false) s).setBatRst false
    else s.emergEnd

def execEmergStep (s : State) : Res := .next s.emergNext.syncLath

/-! ## What can stop the scan at once -/

/-- FST_RECAL: every 100 ms each controller recalibrates; three failures in a row on either lose training (R217). -/
def execFstRecal (ok0 ok1 : Bool) (s : State) : Res :=
  if !s.isReady 6 then .next s
  else
    let n := fun i (ok : Bool) => if ok then 0 else s.fst.recal.getD i 0 + 1
    let r := [n 0 ok0, n 1 ok1]
    let s := s.onFst (fun f => { f with recal := r })
    .next (if r.any (fun k => decide (3 ≤ k)) then State.afterStop s s.loseTraining else s)

/-- EMERG_TRIGGER (R388). -/
def execEmergTrigger (cause : EmergCause) (s : State) : Res := .next (State.afterStop s (s.emergTrigger cause))

/-- CRACK_MEASURE_END (R395). -/
def execCrackMeasureEnd (r : CrackReading) (s : State) : Res := .next (State.afterStop s (s.crackEnd r))

/-- THM_SWEEP (R475). -/
def execThmSweep (reads : List SensorRead) (s : State) : Res :=
  .next (if s.thmRuns then State.afterStop s (s.sweep reads) else s)

/-- STACK_SENSOR_READ (R473). -/
def execStackSensorRead (reads : List StackRead) (s : State) : Res := .next (State.afterStop s (s.stackSensors reads))

/-- VDD_IO_REMOVED: with the panel lit the discharge runs first (R72). (DEDUCED, log entry 26.) -/
def execVddIoRemoved (s : State) : Res :=
  .next (if s.rst.off then s
    else if s.seq = 0 then s.powerGone
    else State.afterStop s ((s.beginEmerg 4).onRst (fun r => { r with off := true })))

end Sys2Proof.Machine
end

