-- ==== Sys2Proof/Machine/Power.lean ====
section
/-! DEFINITION. Device states, DORMANT and its wake, automatic power-down, and the host link (R66, R68, R71 to R74, R83, R133, R249). -/

namespace Sys2Proof.Machine

/-! ## Requests (R70, R72, R73, R391) -/

/-- Refuse a request: the state is unchanged (R72). -/
def State.refuse (s : State) (n : Nat) : State := s.setF Reg.PWR_STATE F.PWR_STATE_REFUSE n

/-- A ring of client `c` holds a descriptor that has not completed. -/
def State.ringBusy (s : State) (c : Nat) : Bool :=
  let k := s.client c
  !k.descs.isEmpty || k.fetching != 0
    || (s.flag (Reg.HST_CCFG c) F.HST_CCFG_EN && k.sqTail != s.getF (Reg.HST_CPOS c) F.HST_CPOS_SQ_HEAD)

/-- Why DORMANT is refused now: the REFUSE value, or none (R72, R133). -/
def State.dormantRefused (s : State) : Option Nat :=
  if !s.stg.txns.isEmpty then some 1
  else if (List.range 256).any s.ringBusy then some 2
  else if (s.reg Reg.PWR_DORM).toNat % 8 = 0 then some 3
  else none

/-- The request that replaces DORMANT attaches the magazines again that the entry has unmounted, not those that MAG_CTL has parked (R73, R402). -/
def State.reattach (s : State) : State := (List.range 4).foldl (fun s p => if s.magState p = 6 then s.beginAttach p else s) s

/-- The wake attaches every present magazine, a parked one as well (R74, R406). -/
def State.unpark (s : State) : State :=
  (List.range 4).foldl (fun s p => if s.magState p = 6 then s.onPort p (fun m => { m with reseat := false }) else s) s

/-- ACTIVE is requested. (DEDUCED, log entry 30.) -/
def State.requestActive (s : State) : State :=
  if !s.isReady 9 then s.refuse 4
  else
    let was := s.pwr.heading
    let s := (s.refuse 0).dropHeading
    if s.seq = 0 then (if was then s.startPanelOn.reattach else s.startPanelOn)
    else if s.seq = 1 then (s.setTarget 0).onPnl (fun p => { p with wantOff := false })
    else if s.seq = 3 then (s.setTarget 0).onPnl (fun p => { p with wantOn := true })
    else s

/-- STANDBY is requested. -/
def State.requestStandby (s : State) : State :=
  let was := s.pwr.heading
  let s := ((s.refuse 0).dropHeading).beginOff false 0
  if was && s.seq == 0 then ((s.setF Reg.PWR_STATE F.PWR_STATE_TARGET 2).setF Reg.PWR_STATE F.PWR_STATE_TRANS 0).reattach
  else s

/-- DORMANT is requested: refused at once while a condition fails, and reached through STANDBY. While the panel goes off on the way, TARGET
shows STANDBY, and DORMANT from the panel's end on: R70 and R72 do not say which. (DESIGN CHOICE, log entry 129.) -/
def State.requestDormant (s : State) : State :=
  match s.dormantRefused with
  | some n => s.refuse n
  | none =>
    let s := s.refuse 0
    if s.seq = 4 then s
    else
      let s := (s.onPwr (fun p => { p with heading := true })).beginOff false 0
      if s.seq = 0 then s.headDormant else s

/-- A request for state `n`, coded as PWR_REQ.STATE; a reserved value is rejected (R10). -/
def State.powerRequest (s : State) (n : Nat) : State :=
  if 3 ≤ n then s.event Ev.GBL_REJECT_WRITE []
  else
    let s := s.setF Reg.PWR_REQ F.PWR_REQ_STATE n
    if n = 0 then s.requestActive else if n = 1 then s.requestStandby else s.requestDormant

/-- PWR_REQ_ACTIVE (R72). -/
def execPwrReqActive (_v : Word) (s : State) : Res := .next (s.viaHst (fun s => s.powerRequest 0))
/-- PWR_REQ_STANDBY (R72). -/
def execPwrReqStandby (_v : Word) (s : State) : Res := .next (s.viaHst (fun s => s.powerRequest 1))
/-- PWR_REQ_DORMANT (R72). -/
def execPwrReqDormant (_v : Word) (s : State) : Res := .next (s.viaHst (fun s => s.powerRequest 2))

/-! ## Entry to DORMANT (R72, R133, R249, R460) -/

/-- The gate opens and every Pending transaction applies as at idle (R133). -/
def State.openPendings (s : State) : State :=
  let s := if s.gateArmed then (s.setF Reg.STG_GATE_HI F.STG_GATE_HI_ARM 0).event Ev.STG_GATE_EARLY s.gateItems else s
  let timed := s.stg.pendings.any (fun p => p.regs.any (fun e => isTiming e.1))
  let s := s.applyPendings s.stg.pendings
  if timed then s.placeNow else s

/-- Banks at entry: allocated banks go to RET under BNK_RET, every other bank is OFF (R460). -/
def State.banksDown (s : State) : State :=
  let keep := s.flag Reg.PWR_DORM F.PWR_DORM_BNK_RET
  ((List.range 128).foldl (fun s b => s.setBankState b (if keep && s.bankOwner b != 0 then 1 else 0)) s).dropOff

/-- Wake source `n` is latched in WOKE_SRC and the wake sequence runs (R73, R74). (DEDUCED, log entry 28.) -/
def State.beginWake (s : State) (n : Nat) : State :=
  (s.setF Reg.PWR_STATE F.PWR_STATE_WOKE_SRC (2 ^ n)).onPwr (fun p => { p with wakeLatched := true, wakeSeen := none })

/-- A source that was active before the entry ended wakes the device at once (R73). -/
def State.wakeIfSeen (s : State) : State :=
  match s.pwr.wakeSeen with
  | some n => s.beginWake n
  | none => s

/-- A transaction that is still Open or Failed at entry is discarded (R131). -/
def State.discardOpen (s : State) : State :=
  s.stg.txns.foldl (fun s t => (s.dropTxn t).event Ev.STG_DISCARDED [(8, t.client), (32, t.id)]) s

/-- What entry to DORMANT still writes: open transactions are discarded, Pending ones apply, the events and the trace go out (R131, R133). -/
def State.drainAll (s : State) : State :=
  let s := s.discardOpen.openPendings
  (State.flushEvents (s.evt.pend.length + 1) s).drainTrace

/-- The time at entry to DORMANT (R249). -/
def State.entryTime (s : State) : State :=
  s.aonkAtEntry.onGen (fun g => { g with
    ve := g.vt, ae := s.aon, fe := g.fc, be := g.bnd, cams := [], lastSync := none, periods := [], lineRun := 0 })

/-- Entry to DORMANT. The configuration space is kept (R67, R74), and no reading is younger than a millisecond at the wake (R479). (DEDUCED, log
entry 28.) -/
def State.enterDormant (s : State) : State :=
  let s := s.drainAll
  let s := s.onHst (fun h => { h with linkUp := false, width := 0, rate := 0 })
  let s := s.entryTime
  let s := (List.range 8).foldl (fun s q => if s.lkState q = 0 then s else s.toDisabled q false) s
  let s := (s.allOff).banksDown
  let s := [0, 1].foldl (fun s e => s.syncEngine e) s
  let s := (s.setTarget 3).setF Reg.PWR_STATE F.PWR_STATE_TRANS 0
  let s := s.onThm (fun h => { h with sens := h.sens.map (fun (e : Nat × Sensor) => (e.1, { e.2 with past := [] })) })
  (s.onPwr (fun p => { p with dormant := true, heading := false })).wakeIfSeen

/-- The entry may finish: the device heads for DORMANT in STANDBY, every magazine is unmounted and no commit checks run.
(DEDUCED, log entry 28.) -/
def State.entryDue (s : State) : Bool :=
  s.pwr.heading && s.seq == 0 && s.getF Reg.PWR_STATE F.PWR_STATE_TARGET == 3
    && (List.range 4).all (fun p => s.magState p == 0 || s.magState p == 8) && !s.stg.txns.any (fun t => t.checking)

def execDormantEntry (s : State) : Res := .next (if s.entryDue then s.enterDormant else s)

/-! ## Wake (R73, R74, R249, R461) -/

/-- Wake source `n` (0 timer, 1 PCIE_PERST_N, 2 Ridge) is enabled; a Ridge wake needs an enabled link. -/
def State.wakeEnabled (s : State) (n : Nat) : Bool :=
  bit (s.reg Reg.PWR_DORM).toNat n && (n != 2 || [4, 5, 6, 7].any s.lkEnabled)

/-- A wake source arrives: in DORMANT the wake begins; during entry, from the request on, it is latched (R73). -/
def State.wakeSource (s : State) (n : Nat) : State :=
  if !s.wakeEnabled n || !(s.pwr.dormant || s.pwr.heading) || s.pwr.wakeLatched || s.pwr.wakeSeen.isSome then s
  else if s.pwr.dormant then s.beginWake n
  else s.onPwr (fun p => { p with wakeSeen := some n })

def execDormantWake (src : Fin 3) (s : State) : Res := .next (s.wakeSource src.val)

/-- The volume time, the frame counter and the boundaries after a wake, `a` AONCLK cycles after entry (R249). (DEDUCED, log entry 28.) -/
def State.wakeTime (s : State) (a : Nat) : State :=
  let g := s.gen
  let v := ((g.ve : Int) + rneDiv ((a : Int) * (s.reg Reg.GEN_AONK).toNat) 65536).toNat
  let p := max 1 s.period
  let n := (v - g.be) / p
  let s := { s with aon := (g.ae + a) % 2 ^ 32 }
  let s := s.onGen (fun g => { g with
    vt := v, fc := (g.fe + n) % 2 ^ 48, bnd := g.be + n * p, ref := g.be + n * p - s.boff, again := false, delay := 0, slew := 0, jump := 0
    given := none, replace := [], frac := 0 })
  let s := s.setF Reg.GEN_STAT F.GEN_STAT_DELAYED 0
  let s := s.setF Reg.GEN_STAT F.GEN_STAT_ALIGNED (b2n (s.genSrc == 0))
  let unc := if s.gen.aonkMeasured then 31 + a / 65536 else 31 + 50 * (a / 32768)
  let s := (s.setReg Reg.GEN_VT_UNC (word unc)).setReg Reg.GEN_AONK (word s.gen.aonkNorm)
  (s.restartLock).stepFrames

/-- The banks after a wake: those in RET are ON; without BNK_RET, or when VDD_SRAM had fallen, the contents are lost, those of the
Swage assembly buffer and the trace buffer with them (R460, R461). -/
def State.banksWake (s : State) (fell : Bool) : State :=
  let lost := fell || !s.flag Reg.PWR_DORM F.PWR_DORM_BNK_RET
  let s := s.syncBanks
  let s := (List.range 128).foldl (fun s b => if s.bankState b = 1 then s.setBankState b 2 else s) s
  if lost then ((s.loseTables).loseTrace).onFst (fun f => { f with asm := [] }) else s

/-- The frame store after a wake (R74, R588): without FS_KEEP its contents are undefined, and a failed training loses it.
(DEDUCED, log entry 28.) -/
def State.storeWake (s : State) (trained : Bool) : State :=
  let s := if s.flag Reg.PWR_DORM F.PWR_DORM_FS_KEEP then s
    else
      let s := ({ s with fsEpoch := s.fsEpoch + 1 } : State).loseLayers
      let s := s.onFst (fun f => { f with mem := [], bufs := [], asm := [], ue := [] })
      let s := (targetSels.foldl (fun s t => s.assignFrames t) s).syncMap
      let s := (List.range 16).foldl (fun s i => if (s.staging i).isSome then s.freeStaging i else s) s
      (s.onWin (fun w => { w with written := 0, journal := [], held := [] })).syncJpend
  if trained then s else s.loseTraining

/-- The domains that are on in STANDBY, in dependency order (R66, R71). -/
def standbyDomains : List Nat := [2, 33, 25, 26, 27, 28, 29, 30, 31, 32, 23, 24, 17, 3, 4, 5, 6, 7, 8, 9, 10, 11, 12, 13, 14, 20, 21, 22]

/-- The wake sequence ends in STANDBY. (DEDUCED, log entry 28.) -/
def State.wakeEnd (s : State) (r : WakeResult) : State :=
  let s := s.onPwr (fun p => { p with dormant := false, wakeLatched := false, wakeSeen := none })
  let s := (s.wakeTime r.aonCycles).unpark
  let s := standbyDomains.foldl (fun s d => if s.lockedOff d then s else s.domainUp d) s
  let s := (s.banksWake r.sramLost).storeWake r.trained
  let s := (s.onPipe (fun p => { p with hValid := 0, hist := [] })).syncZero
  let s := (s.setF Reg.PWR_STATE F.PWR_STATE_CUR 2).setF Reg.PWR_STATE F.PWR_STATE_TARGET 2
  (s.setF Reg.PWR_STATE F.PWR_STATE_TRANS 0).signal 260

/-- DORMANT_WAKE_END (R74). -/
def execDormantWakeEnd (r : WakeResult) (s : State) : Res :=
  .next (if s.pwr.dormant && s.pwr.wakeLatched then s.wakeEnd r else s)

/-! ## Host port -/

/-- PCIE_PERST_N_ASSERT (R48, R73, R74): ignored without a host port and while the core is off; in DORMANT a wake, and on the way there a wake
that is latched, if WAKE_PERST allows it. In DORMANT with WAKE_PERST at 0 it does nothing: R74 makes it a wake only with WAKE_PERST at 1, and
does not say what it is otherwise. (DESIGN CHOICE, log entry 129.) -/
def execPciePerstNAssert (s : State) : Res :=
  .next (if !s.flag Reg.GBL_STRAP F.GBL_STRAP_HOST_EN || s.coreOff || s.rst.hostReset || s.rst.waitPanel.isSome then s
    else if s.pwr.dormant || (s.pwr.heading && s.wakeEnabled 1) then s.wakeSource 1
    else s.hostReset)

/-- PCIE_LINK_DOWN (R83). -/
def execPcieLinkDown (s : State) : Res := .next s.pcieDown

/-- PCIE_LINK_UP (R533): the device becomes a head. -/
def execPcieLinkUp (s : State) : Res :=
  .next (if s.hst.linkUp || !s.flag Reg.GBL_STRAP F.GBL_STRAP_HOST_EN || !s.isOn 2 || s.rst.hostReset || s.pwr.dormant then s
    else
      let s := (s.trainHost.syncMsixCtl.recordBand 32).syncHead
      if s.hasRole then s.announce else s)

/-! ## Automatic power-down (R66, R68) -/

/-- A table load, table read or resynchronisation needs the half-pipe storage. (DEDUCED, log entry 29.) -/
def State.pipeNeeded (s : State) : Bool :=
  s.tabs.any (fun e => e.2.resync || !e.2.waiters.isEmpty)
    || s.hst.clients.any (fun e => e.2.descs.any (fun d => d.stage == .waiting && (d.opcode == 6 || d.opcode == 7)))

/-- The condition of R66 under which the power manager turns domain d off, with its PWR_AUTO bit. (DEDUCED, log entry 29.) -/
def State.autoOff (s : State) (d : Nat) : Bool :=
  let run := decide (s.getF Reg.PWR_STATE F.PWR_STATE_CUR ≤ 1)
  let link := s.flag Reg.PWR_AUTO F.PWR_AUTO_LINK_OFF
  if 3 ≤ d ∧ d ≤ 6 then run && link && !s.lkEnabled (d + 1) && s.getF (lkBase (d + 1) + 8) F.RAF_LOOP_MODE == 0
  else if 7 ≤ d ∧ d ≤ 10 then
    let q := d - 7
    (run && link && !s.lkEnabled q && s.getF (Reg.RAF_LOOP q) F.RAF_LOOP_MODE == 0)
      || (s.getF Reg.PWR_STATE F.PWR_STATE_CUR == 1 && s.flag Reg.PWR_AUTO F.PWR_AUTO_HEARTH_RAF_OFF && s.lkEnabled q
        && decide (5 ≤ (s.link q).quiet) && !(s.link q).woken)
  else if 11 ≤ d ∧ d ≤ 14 then run && link && (s.magState (d - 11) == 8 || s.magState (d - 11) == 0)
  else if d = 18 ∨ d = 19 then s.seq == 0 && !s.pipeNeeded
  else if d = 20 then run && s.flag Reg.PWR_AUTO F.PWR_AUTO_SWG_OFF && !s.anyCoded
  else if d = 21 ∨ d = 22 then
    run && s.getF Reg.PWR_AUTO F.PWR_AUTO_THC_IDLE != 0 && (s.engine (d - 21)).work == .idle && s.thc.queue.isEmpty
  else if 25 ≤ d ∧ d ≤ 32 then
    run && s.flag Reg.PWR_AUTO F.PWR_AUTO_BNK_OFF && (List.range 16).all (fun k => s.bankOwner (16 * (d - 25) + k) == 0)
  else false

/-- Turn domain d off: a Rafter port that was enabled leaves ACTIVE without a GOODBYE (R172). -/
def State.domainDown (s : State) (d : Nat) : State :=
  let s := if 7 ≤ d ∧ d ≤ 10 ∧ s.lkState (d - 7) ≠ 0 then s.toDisabled (d - 7) false else s
  let s := s.setDomain d false
  let s := if 25 ≤ d ∧ d ≤ 32 then s.syncBanks.dropOff else s
  if d = 21 ∨ d = 22 then s.syncEngine (d - 21) else s

/-- DOMAIN_AUTO_OFF. -/
def execDomainAutoOff (d : Fin 34) (s : State) : Res :=
  .next (if s.isOn d && s.autoOff d && (domainUsers d).all (fun u => !s.isOn u) && !s.pwr.stalled.any (fun e => e.1 == d.val) then
      s.domainDown d
    else s)

/-- DOMAIN_WAKE_REQUEST (R68). -/
def execDomainWakeRequest (r : DomainRequest) (s : State) : Res :=
  .next (match r with
    | .write off be v => s.viaHst (fun s => match s.stallDomain off with
      | some d => s.stallOn d (.write off be v none)
      | none => s)
    | .read off => s.viaHst (fun s => match s.stallDomain off with
      | some d => s.stallOn d (.read off none)
      | none => s)
    | .internal d => if s.isOn d then s else s.stallOn d (.internal d))

end Sys2Proof.Machine
end

