-- ==== Sys2Proof/Machine/Boundary.lean ====
section
/-! DEFINITION. The frame boundary (R126, R132, R184, R233, R242, R247, R253, R301, R315, R388, R531, R571, R629). -/

namespace Sys2Proof.Machine

/-! ## Parts of the boundary -/

/-- The commit gate at the boundary that starts frame `f` (R132, R253). (DEDUCED, log entry 50.) -/
def State.gateBoundary (s : State) (f : Nat) (opens : Bool) : State :=
  if !s.gateArmed then s
  else if opens then (s.setF Reg.STG_GATE_HI F.STG_GATE_HI_ARM 0).event Ev.STG_GATE_EARLY s.gateItems
  else if s.gateAt = f then s.setF Reg.STG_GATE_HI F.STG_GATE_HI_ARM 0
  else s

/-- The centre temperature of band k. -/
def State.bandTc (s : State) (k : Nat) : Int := toSigned 16 (s.getF (Reg.ODV_BAND k) F.ODV_BAND_TC)

/-- b and beta at temperature `t` (R315). (DEDUCED, log entry 92.) -/
def State.bandOf (s : State) (t : Int) : Nat × Nat :=
  let n := s.getF Reg.ODV_CFG F.ODV_CFG_NBAND + 1
  let b := ((List.range n).filter (fun k => decide (s.bandTc k ≤ t))).foldl max 0
  let b := min b (n - 2)
  let w := s.bandTc (b + 1) - s.bandTc b
  if n = 1 ∨ w ≤ 0 then (b, 0) else (b, (clampI 0 256 (rneDiv (256 * (t - s.bandTc b)) w.toNat)).toNat)

/-- The overdrive temperature is latched (R315). -/
def State.latchTheta (s : State) : State :=
  let ok := s.flag Reg.THM_ODT_STAT F.THM_ODT_STAT_VALID
  let th := if ok then s.getF Reg.THM_ODT_STAT F.THM_ODT_STAT_THETA else s.getF Reg.ODV_TEMP F.ODV_TEMP_THETA
  let (b, beta) := s.bandOf (toSigned 16 th)
  let was := s.flag Reg.ODV_STAT F.ODV_STAT_TSTALE
  let s := (s.setF Reg.ODV_TEMP F.ODV_TEMP_THETA th).setF Reg.ODV_TEMP F.ODV_TEMP_BAND b
  let s := (s.setF Reg.ODV_TEMP F.ODV_TEMP_BETA beta).setF Reg.ODV_STAT F.ODV_STAT_TSTALE (b2n (!ok))
  if ok || was then s else s.event Ev.ODV_TEMP_STALE []

/-- DMU_STAT.REFDIFF against GEN_ROWT in force (R301). -/
def State.checkRef (s : State) : State :=
  let r := s.getF Reg.DMU_PREF F.DMU_PREF_ROWT_REF
  let e := s.getF Reg.DMU_PREF F.DMU_PREF_EMIT_REF
  let diff := (r != 0 && r != s.rowT) || (e != 0 && e != s.getF Reg.GEN_ROWT F.GEN_ROWT_EMIT)
  let was := s.flag Reg.DMU_STAT F.DMU_STAT_REFDIFF
  let s := s.setF Reg.DMU_STAT F.DMU_STAT_REFDIFF (b2n diff)
  if diff && !was then s.event Ev.DMU_REF_DIFF [] else s

/-- Plate frames that were never shown are freed once their frame has passed (R422). -/
def State.passPlates (s : State) : State :=
  (List.range 16).foldl (fun s i => match s.staging i with
    | some g => if g.frame < s.gen.fc ∧ g.shown = false then s.freeStaging i else s
    | none => s) s

/-- The body of ING_TIMING for the next frame, by the schedule in force (R197). -/
def State.timingBody (s : State) : List Byte :=
  leBytes 8 s.nextBnd ++ [BitVec.ofNat 8 s.nSlot] ++ List.replicate 7 0
    ++ (List.range s.nSlot).flatMap (fun k =>
      let v := s.slotView k
      leBytes 4 (ofSigned 32 ((s.slotDelta k : Int) - 120 * s.getF (Reg.VIEW_DL v) F.VIEW_DL_LEAD)) ++ [BitVec.ofNat 8 v, 0, 0, 0])

/-- ING_TIMING for the next frame goes to every ACTIVE Rafter port while VIEW_ING_CFG.TIMING_MSG is 1 (R196, R197). -/
def State.sendTiming (s : State) : State :=
  if s.flag Reg.VIEW_ING_CFG F.VIEW_ING_CFG_TIMING_MSG then
    (List.range 4).foldl (fun s q => if s.lkState q = 5 then s.linkSend q 0x50 ((s.gen.fc + 1) % 2 ^ 32) s.timingBody else s) s
  else s

/-- The BOUNDARY trace record (R582). -/
def State.traceBoundary (s : State) : State :=
  s.trace 3 (leBytes 4 s.boff ++ leBytes 4 s.pherr ++ [BitVec.ofNat 8 s.lockState, BitVec.ofNat 8 (s.getF Reg.THM_STAT F.THM_STAT_STEP)]
    ++ leBytes 2 (s.getF Reg.THM_STAT F.THM_STAT_HOT) ++ leBytes 4 (s.reg Reg.GEN_DIGEST).toNat)

/-- A volume command takes effect (R345, R534). (DEDUCED, log entry 60.) -/
def State.applyVcmd (s : State) (c : Nat × Nat) : State :=
  if c.1 = 1 then s.powerRequest c.2
  else if c.1 = 2 then s.setF Reg.VIEW_HVOL F.VIEW_HVOL_VHOLD (c.2 % 2)
  else s

/-- DEDUCED, log entry 60. -/
def State.applyVcmds (s : State) : State :=
  let (l, s) := s.dueVcmds s.gen.fc
  l.foldl State.applyVcmd s

/-- Frame periods without a DATA flit on each Rafter port, and the device state HEARTH (R72, R340). (DEDUCED, log entry 31.) -/
def State.hearthState (s : State) : State :=
  let s := (List.range 4).foldl (fun s q => s.onLink q (fun k => { k with quiet := min 5 (k.quiet + 1) })) s
  let cur := s.getF Reg.PWR_STATE F.PWR_STATE_CUR
  if cur = 0 ∧ 4 ≤ s.hrt.substRun ∧ s.seq = 2 ∧ s.nSlot ≠ 0 then
    ((s.setF Reg.PWR_STATE F.PWR_STATE_CUR 1).setF Reg.PWR_STATE F.PWR_STATE_TARGET 1).signal 260
  else if cur = 1 ∧ s.nSlot = 0 then s.leaveHearth
  else s

/-- The scan stops or starts at the boundary (R72, R384, R388). -/
def State.scanBoundary (s : State) : State :=
  if s.pnl.stopFrame && s.scanRuns then State.afterStop s (s.onPnl (fun p => { p with scanning := false, stopFrame := false }))
  else if s.seq = 2 ∧ s.scanRuns = false ∧ s.pnl.litAt + 1200 ≤ s.gen.bnd then s.onPnl (fun p => { p with scanning := true })
  else s

/-- The overlay closes at the boundary of a frame in which V0 has a slot (R595). -/
def State.closeOverlay (s : State) : State :=
  if s.scanRuns && (List.range s.nSlot).any (fun k => s.slotView k == 0) then s.setOverlayOpen false else s

/-- The commits whose checks ended in the freeze window before this boundary are decided, after the values due at it (R125).
(DEDUCED, log entry 54.) -/
def State.decideFrozen (s : State) : State :=
  (s.stg.txns.filter (fun t => t.frozen)).foldl (fun s t => s.decideCommit t) s

/-- The dose accumulators clear once if asked (R571). -/
def State.clearDose (s : State) : State :=
  if s.pipe.doseClr then s.onPipe (fun p => { p with dose := [], doseClr := false }) else s

/-- The volume time, the frame counter and the references step to frame `n` (R232, R233, R238). (DEDUCED, log entry 61.) -/
def State.stepFrame (s : State) (n : NextFrame) : State :=
  let slew := s.slewLeft
  let b := n.ref + n.table.boff + n.delay
  let frac := s.fracLeft
  ((s.reachTime b).onGen (fun g => { g with
    frac := frac, fc := n.fc, bnd := b, ref := n.ref, again := false, delay := n.delay, slew := slew, jump := 0, given := none
    wins := n.wins
    replace := g.replace.filter (fun r => decide (n.fc < r.at_)) })).onRdg (fun r => { r with srcF := none })

/-- The schedule of frame `n` is in force, with its delay (R245, R247). -/
def State.putFrame (s : State) (n : NextFrame) : State :=
  let s := (s.putSlotTable n.table).setF Reg.GEN_STAT F.GEN_STAT_DELAYED (b2n (n.delay != 0))
  if n.short = 0 then s else s.event Ev.GEN_BND_DELAY [(32, n.short)]

/-- The load through GEN_FCSET ends, or the counter was realigned (R253, R531). (DEDUCED, log entry 76.) -/
def State.sayCounter (s : State) (n : NextFrame) (old : Nat) : State :=
  if n.loaded then
    (s.setF Reg.GEN_FCSET_HI F.GEN_FCSET_HI_LOAD 0).event Ev.GEN_FC_LOAD [(32, old % 2 ^ 32), (32, n.fc % 2 ^ 32)]
  else if n.opens then s.event Ev.RDG_FC_REALIGN []
  else s

/-- FRAME_BOUNDARY. -/
def State.boundary (s : State) : State :=
  if !s.isReady 7 || s.pwr.dormant then s
  else
    let s := s.stepAtBoundary
    let o := s
    let n := s.nextFrameOf
    let stepped := n.fc != (o.gen.fc + 1) % 2 ^ 48
    let s := ((s.stepFrame n).gateBoundary n.fc n.opens).applyPendings n.due
    let s := ((s.putFrame n).sayCounter n o.gen.fc).decideFrozen
    let s := if stepped then s.stepFrames else s.rotateAll
    let s := s.hearthBoundary ((List.range 8).filter (fun v => o.viewEn v && !s.viewEn v)) stepped
    let s := ((s.schedBoundary n.fc).passPlates).hearthState
    let s := (s.measure.sendMeas o.gen.wins).sendBnd
    let s := (s.latchTheta.checkRef).clearDose
    let s := ((s.traceBoundary.sendTiming).scanBoundary).syncLath
    (s.applyVcmds).closeOverlay

def execFrameBoundary (s : State) : Res := .next s.boundary

end Sys2Proof.Machine
end

