-- ==== Sys2Proof/Machine/RegWrite.lean ====
section
/-! DEFINITION. Writes and reads of BAR0 (R7, R9, R10, R62, R68, R85, R123), the register path of the staging unit (R131, R132, R136) and the
counter-clear registers. -/

namespace Sys2Proof.Machine

/-! ## Plain registers (R7, R10) -/

/-- Whether `v` carries a rejected value in a field that software writes (R10). -/
def carriesRejected (d : RegDef) (v : Word) : Bool :=
  d.fields.any (fun f => f.access != .ro && f.bad.any (fun r => decide (r.1 ≤ fieldOf f.fld v ∧ fieldOf f.fld v ≤ r.2)))

/-- The register after a write of `v`: RW fields take their value, 1 clears W1C bits, RO and WO fields stay (R7). -/
def writtenWord (d : RegDef) (v old : Word) : Word :=
  d.fields.foldl (fun w f => match f.access with
    | .rw => withField f.fld (fieldOf f.fld v) w
    | .w1c => withField f.fld ((bitsOf (fieldOf f.fld v) 32).foldl clearBit (fieldOf f.fld w)) w
    | _ => w) old

/-- A write of a register without an effect of its own. -/
def State.plainWrite (s : State) (off : Nat) (v : Word) : State :=
  match regAt off with
  | none => s.event Ev.HST_UNMAPPED []
  | some (d, _, _) =>
    if carriesRejected d v then s.event Ev.GBL_REJECT_WRITE [] else s.setReg off (writtenWord d v (s.reg off))

/-! ## Counter-clear registers (R171 and the counters of each chapter) -/

/-- The counter-clear registers whose bit n clears the counter n places after the first: register, first counter, counters. -/
def counterRuns : List (Nat × Nat × Nat) :=
  (List.range 4).flatMap (fun p => [(Reg.RAF_CNT_CLR p, Reg.RAF_CNT_CRC p, 7), (Reg.RDG_CNT_CLR p, Reg.RDG_CNT_CRC p, 7),
      (Reg.MAG_CNT_CLR p, Reg.MAG_CNT_RDERR p, 4)])
    ++ [0, 1].flatMap (fun h => [(Reg.BAT_CNT_CLR h, Reg.BAT_CNT_ROWCRC h, 4), (Reg.THC_CNT_CLR h, Reg.THC_CNT_JOBS h, 5)])
    ++ [(Reg.RDG_VCNT_CLR, Reg.RDG_VCNT_FWD, 4), (Reg.GEN_CNT_CLR, Reg.GEN_CNT_UNLOCK, 3), (Reg.VIEW_CNT_CLR, Reg.VIEW_CNT_BAD, 9),
        (Reg.VIEW_HCNT_CLR, Reg.VIEW_CNT_VHOLD_RX, 3), (Reg.DMU_CNT_CLR, Reg.DMU_CNT_RSAT, 2), (Reg.ODV_CNT_CLR, Reg.ODV_CNT_SAT, 2),
        (Reg.SCN_CNT_CLR, Reg.SCN_CNT_EMERG, 2), (Reg.FST_CNT_CLR, Reg.FST_CNT_CE, 2), (Reg.SWG_CNT_CLR, Reg.SWG_CNT_BLK, 5),
        (Reg.BNK_CNT_CLR, Reg.BNK_CNT_CE, 4), (Reg.BNK_CONF_CLR, Reg.BNK_CNT_CONF 0, 16), (Reg.THM_CNT_CLR, Reg.THM_CNT_WARN, 3),
        (Reg.WIN_CNT_CLR, Reg.WIN_CNT_ACC, 3)]

/-- Other counters that bit n of a counter-clear register clears. -/
def counterExtras (off n : Nat) : List Nat :=
  if off = Reg.VIEW_CNT_CLR ∧ 16 ≤ n ∧ n < 24 then [Reg.VIEW_CNT_MISS (n - 16), Reg.VIEW_CNT_LATE (n - 16)]
  else if off = Reg.CLR_CNT_CLR ∧ n < 8 then [Reg.CLR_CNT_DSAT n, Reg.CLR_CNT_MCLIP n, Reg.CLR_CNT_POISON n]
  else if off = Reg.EVT_CNT_CLR ∧ n < 3 then [[Reg.EVT_CNT_REC, Reg.EVT_CNT_LOST, Reg.EVT_TRC_DROP].getD n 0]
  else []

/-- Whether `off` is a counter-clear register. -/
def isCounterClear (off : Nat) : Bool :=
  counterRuns.any (fun r => r.1 == off) || off == Reg.CLR_CNT_CLR || off == Reg.EVT_CNT_CLR

/-- A write of a counter-clear register. -/
def State.writeCounterClear (s : State) (off : Nat) (v : Word) : State :=
  let s := (counterRuns.filter (fun r => r.1 == off)).foldl (fun s r => s.clearCounters r.2.1 v.toNat r.2.2) s
  (bitsOf v.toNat 32).foldl (fun s n => (counterExtras off n).foldl (fun s c => s.setReg c 0) s) s

/-! ## The register path of the staging unit (R131, R136) -/

/-- BEGIN, checked as STG_BEGIN would be. -/
def State.cmdBegin (s : State) : State :=
  let mask := s.pair64 Reg.STG_MASK_LO Reg.STG_MASK_HI
  if (s.maskAbsent mask).isSome then s.endStgCmd 0x22 none
  else if (s.maskFault mask).isSome then s.endStgCmd 0x11 none
  else if !s.isReady 0 then s.endStgCmd 0x20 none
  else
    match s.beginCheck 0 mask with
    | some st => s.endStgCmd st none
    | none =>
      let (s, id) := s.openTxn 0 mask
      s.endStgCmd 0 (some id)

/-- The functions behind the groups of `t` that are absent or locked off (R58). -/
def State.txnAbsent (s : State) (t : Txn) : Bool := (maskNeeds t.mask).any s.fnAbsent

/-- The checks of the commit of `t` start (R124, R125). (DEDUCED, log entries 51 and 55.) -/
def State.startChecks (s : State) (t : Txn) (viaReg wait : Bool) (idx : Nat) : State :=
  (s.setTxn t.id (fun t => { t with checking := true, viaReg := viaReg, waitEffect := wait, commitIdx := idx })).setF
    (Reg.STG_SLOT_STATE t.slot) F.STG_SLOT_STATE_STATE 3

/-- COMMIT of C0's transaction, as STG_COMMIT with WAIT_EFFECT = 0. It waits for descriptors of the transaction. (DEDUCED, log entry 51.) -/
def State.cmdCommit (s : State) : State :=
  match s.txnOf 0 with
  | none => s.endStgCmd 0x30 none
  | some t =>
    let s := s.setReg Reg.STG_RTXID (word t.id)
    if s.txnAbsent t then (s.abortCommit 0 none).endStgCmd 0x22 (some t.id)
    else if !(s.isReady 0 && (maskNeeds t.mask).all s.isReady) then (s.abortCommit 0 none).endStgCmd 0x20 (some t.id)
    else
      let s := s.setF Reg.STG_RSTAT F.STG_RSTAT_BUSY 1
      if t.checking || s.txnBusy 0 t.id then s.onStg (fun g => { g with cmdWait := some t.id })
      else s.startChecks t true false 0

/-- ROLLBACK of C0's transaction; while its commit checks run it waits for them. -/
def State.cmdRollback (s : State) : State :=
  match s.txnOf 0 with
  | none => s.endStgCmd 0x30 none
  | some t =>
    if !s.isReady 0 then s.endStgCmd 0x20 none
    else if t.checking then
      (s.setF Reg.STG_RSTAT F.STG_RSTAT_BUSY 1).onStg (fun g => { g with rollWait := g.rollWait ++ [(256, t.id)] })
    else (s.dropTxn t).endStgCmd 0 (some t.id)

/-- FORCE_ROLLBACK of the transaction in slot `n`. -/
def State.cmdForce (s : State) (n : Nat) : State :=
  match s.stg.txns.find? (fun t => t.slot == n) with
  | none => s.endStgCmd 0x30 none
  | some t =>
    if !s.isReady 0 then s.endStgCmd 0x20 none
    else if t.checking then
      (s.setF Reg.STG_RSTAT F.STG_RSTAT_BUSY 1).onStg (fun g => { g with rollWait := g.rollWait ++ [(256, t.id)] })
    else ((s.dropTxn t).event Ev.STG_FORCED [(8, t.client), (32, t.id)]).endStgCmd 0 none

/-- A write of STG_CMD (R136). (DEDUCED, log entry 51.) -/
def State.writeStgCmd (s : State) (v : Word) : State :=
  let op := fieldOf F.STG_CMD_OP v
  if s.flag Reg.STG_RSTAT F.STG_RSTAT_BUSY then s.event Ev.STG_CMD_BUSY ((8, 0) :: (s.txnOf 0).toList.map (fun t => (32, t.id)))
  else if 5 ≤ op then s.event Ev.GBL_REJECT_WRITE []
  else if op = 1 then s.cmdBegin
  else if op = 2 then s.cmdCommit
  else if op = 3 then s.cmdRollback
  else if op = 4 then s.cmdForce (fieldOf F.STG_CMD_SLOT v)
  else s

def execStgCmdBegin (v : Word) (s : State) : Res := .next (s.viaHst (fun s => s.writeStgCmd (withField F.STG_CMD_OP 1 v)))
def execStgCmdCommit (v : Word) (s : State) : Res := .next (s.viaHst (fun s => s.writeStgCmd (withField F.STG_CMD_OP 2 v)))
def execStgCmdRollback (v : Word) (s : State) : Res := .next (s.viaHst (fun s => s.writeStgCmd (withField F.STG_CMD_OP 3 v)))
def execForceRollback (v : Word) (s : State) : Res := .next (s.viaHst (fun s => s.writeStgCmd (withField F.STG_CMD_OP 4 v)))

/-! ## The commit gate (R132) -/

/-- Values that the gate holds wait. -/
def State.gateHolds (s : State) : Bool := s.stg.pendings.any (fun p => p.gated) || s.stg.idle.any (fun e => e.2.2.2)

/-- A write of STG_GATE_LO. (DEDUCED, log entry 50.) -/
def State.writeGateLo (s : State) (v : Word) : State :=
  if s.gateHolds then s.event Ev.STG_GATE_BUSY s.gateItems else s.setReg Reg.STG_GATE_LO v

/-- A write of STG_GATE_HI. (DEDUCED, log entry 50.) -/
def State.writeGateHi (s : State) (v : Word) : State :=
  let new := maskFields Reg.STG_GATE_HI v
  if fieldOf F.STG_GATE_HI_ARM v = 0 then
    let s := s.setReg Reg.STG_GATE_HI new
    if s.gateHolds then s.event Ev.STG_GATE_EARLY s.gateItems else s
  else
    let at_ := s.getF Reg.STG_GATE_LO F.STG_GATE_LO_AT_LO + 2 ^ 32 * fieldOf F.STG_GATE_HI_AT_HI v
    if s.gateHolds then s.event Ev.STG_GATE_BUSY s.gateItems
    else if at_ ≤ s.gen.fc ∨ s.gen.fc + 0xFFFF < at_ then s.event Ev.STG_GATE_LATE s.gateItems
    else s.setReg Reg.STG_GATE_HI new

def execGateArm (v : Word) (s : State) : Res := .next (s.viaHst (fun s => s.writeGateHi (withField F.STG_GATE_HI_ARM 1 v)))
/-- DEDUCED, log entry 50. -/
def execGateDisarm (v : Word) (s : State) : Res := .next (s.viaHst (fun s => s.writeGateHi (withField F.STG_GATE_HI_ARM 0 v)))
def execStgGateLoWrite (v : Word) (s : State) : Res := .next (s.viaHst (fun s => s.writeGateLo v))

/-! ## Relay-window steering (R113) -/

/-- The window whose HST_RLY_SEL lies at `off`. -/
def selWindowOf (off : Nat) : Option Nat := (List.range 4).find? (fun w => off == Reg.HST_RLY_SEL w)

/-- A value of HST_RLY_SEL whose BASE is rejected. -/
def selRejected (v : Word) : Bool :=
  let b := fieldOf F.HST_RLY_SEL_BASE v
  if fieldOf F.HST_RLY_SEL_SPACE v = 0 then decide (0x18 ≤ b ∧ b ≤ 0x1B) else decide (2 ≤ b)

/-- An access of the own device through window w waits for a domain to wake (R68). -/
def State.windowStalled (s : State) (w : Nat) : Bool := s.pwr.stalled.any (fun e => e.2.win? == some w)

/-- Window w has accesses outstanding or waiting. -/
def State.windowBusy (s : State) (w : Nat) : Bool :=
  s.hst.relays.any (fun r => r.window == w) || s.hst.winWait.any (fun e => e.1 == w) || s.windowStalled w

/-- A write of HST_RLY_SELw, in force once every earlier access through the window has finished. -/
def State.writeRlySel (s : State) (w : Nat) (v : Word) : State :=
  if selRejected v then s.event Ev.GBL_REJECT_WRITE []
  else if s.windowBusy w then s.onHst (fun h => { h with winWait := h.winWait ++ [(w, .sel v)] })
  else s.setReg (Reg.HST_RLY_SEL w) (maskFields (Reg.HST_RLY_SEL w) v)

/-! ## The registers with effects of their own -/

/-- A write of HST_MSIX_CTL: dropped on a head (R115). -/
def State.writeMsixCtl (s : State) (v : Word) : State :=
  if s.hst.linkUp then s else (s.plainWrite Reg.HST_MSIX_CTL v).sendPending

/-- A write of a client register (R89 to R91, R111). (DEDUCED, log entry 37.) -/
def State.writeClientReg (s : State) (off : Nat) (v : Word) : State :=
  let c := (off - 0xD0000) / 0x40
  let k := off % 0x40
  if k = 0 then s.writeCcfg c v
  else if k = 8 ∨ k = 0xC ∨ k = 0x10 ∨ k = 0x14 then s.writeRingBase c ((k - 8) / 4) v
  else s.plainWrite off v

/-- A write of PWR_OP: REQ changes the aim (R75, R76). -/
def State.writePwrOp (s : State) (v : Word) : State := (s.plainWrite Reg.PWR_OP v).avsAim

/-- A write of PWR_AUTO: the unallocated banks follow BNK_OFF (R459). -/
def State.writePwrAuto (s : State) (v : Word) : State := ((s.plainWrite Reg.PWR_AUTO v).syncBanks).dropOff

/-- A write of a register of a link: loopback and patterns (R162 to R164, R168). -/
def State.writeLinkReg (s : State) (off : Nat) (v : Word) : State :=
  match (List.range 8).find? (fun q => off == lkBase q + 8 || off == lkBase q + 0xC) with
  | some q => if off = lkBase q + 8 then s.writeLoop q v else s.writePrbs q v
  | none => s.plainWrite off v

/-- A write of an EVT register (R578, R579, R581, R582, R584, R585). -/
def State.writeEvtReg (s : State) (off : Nat) (v : Word) : State :=
  if off = Reg.EVT_CFG then s.writeEvtCfg v
  else if off = Reg.EVT_RBASE_LO ∨ off = Reg.EVT_RBASE_HI then s.writeEvtBase off v
  else if off = Reg.EVT_RHEAD then s.writeRhead v
  else if off = Reg.EVT_ALM_PEND_LO then s.clearAlarms false v
  else if off = Reg.EVT_ALM_PEND_HI then s.clearAlarms true v
  else if off = Reg.EVT_TRC then s.writeTrc v
  else if off = Reg.EVT_TRC_MARK then s.trace 6 (leBytes 4 v.toNat)
  else s.plainWrite off v

/-- A write of a register that acts by its place: a relay select, a magazine control, or one of a block with writes of its own. -/
def State.blockWrite (s : State) (off : Nat) (v : Word) : State :=
  match selWindowOf off with
  | some w => s.writeRlySel w v
  | none =>
    match (List.range 4).find? (fun p => off == Reg.MAG_CTL p) with
    | some p => s.writeMagCtl p v
    | none =>
      if blockOf off = 3 ∧ 0xD0000 ≤ off ∧ off < 0xD4000 then s.writeClientReg off v
      else if blockOf off = 4 ∨ blockOf off = 5 then s.writeLinkReg off v
      else if blockOf off = 22 then s.writeEvtReg off v
      else s.plainWrite off v

/-- A write of a register that is not staged, its domain being on. -/
def State.applyWrite (s : State) (off : Nat) (v : Word) : State :=
  if isCounterClear off then s.writeCounterClear off v
  else if off = Reg.GBL_RESET then s.writeReset v
  else if off = Reg.STG_CMD then s.writeStgCmd v
  else if off = Reg.STG_GATE_LO then s.writeGateLo v
  else if off = Reg.STG_GATE_HI then s.writeGateHi v
  else if off = Reg.PWR_REQ then s.powerRequest (fieldOf F.PWR_REQ_STATE v)
  else if off = Reg.PWR_OP then s.writePwrOp v
  else if off = Reg.PWR_AUTO then s.writePwrAuto v
  else if off = Reg.PWR_AVS_FLT then (s.clearFlt v).releaseLimit v
  else if off = Reg.HST_MSIX_CTL then s.writeMsixCtl v
  else if off = Reg.BAT_CMD then s.writeBatCmd v
  else if off = Reg.FST_MAP_SEL then s.writeMapSel v
  else if off = Reg.SWG_BIST then s.writeSwgBist v
  else if off = Reg.THC_BIST 0 then s.writeThcBist 0 v
  else if off = Reg.THC_BIST 1 then s.writeThcBist 1 v
  else if off = Reg.THC_CFG then s.writeThcCfg v
  else if off = Reg.THM_ODT_HOST then s.writeOdtHost v
  else if off = Reg.TMK_DOSE_CLR then s.writeDoseClr v
  else s.blockWrite off v

/-- A write of a register block of BAR0 with every byte enabled: a staged register needs no domain (R117), any other stalls while its
domain is off (R62, R68). `win` is the relay window it came through. (DEDUCED, log entry 49.) -/
def State.regWrite (s : State) (off : Nat) (v : Word) (win : Option Nat) : State :=
  if isStaged off then (s.stageDirect off v).layLoads
  else
    match s.stallDomain off with
    | some d => s.stallOn d (.write off 15 v win)
    | none => s.applyWrite off v

/-! ## The MSI-X structures (R85) -/

/-- A write of a word of the MSI-X table; a vector that is no longer masked sends its message (R111). (DEDUCED, log entry 36.) -/
def State.writeMsix (s : State) (off : Nat) (v : Word) : State :=
  let k := (off - 0xF00000) / 4
  let s := s.onHst (fun h => { h with msixTable := aset (fun i => if i % 4 = 3 then 1 else 0) h.msixTable k v })
  s.sendPendingVec (k / 4)

/-- A write of a BAR0 offset outside the relay windows (R85), which came through relay window `win` or none. (DEDUCED, log entry 35.) -/
def State.barWrite (s : State) (off be : Nat) (v : Word) (win : Option Nat) : State :=
  if be = 0 then s
  else if be ≠ 15 then s.event Ev.HST_PARTIAL_WRITE []
  else if off < 0x640000 then s.regWrite off v win
  else if 0xF00000 ≤ off ∧ off < 0xF01080 ∧ off % 4 = 0 then s.writeMsix off v
  else if 0xF02000 ≤ off ∧ off < 0xF02028 then s
  else s.event Ev.HST_UNMAPPED []

/-! ## Reads -/

/-- What a read of a register returns (R7, R255); 0 at an unassigned offset. -/
def State.regValue (s : State) (off : Nat) : Word := (s.readTime off).getD (s.reg off)

/-- A word of the MSI-X structures (R85). -/
def State.msixRead (s : State) (off : Nat) : Word :=
  if off < 0xF02000 then s.msixWord ((off - 0xF00000) / 16) (off / 4 % 4) else word (s.hst.msixPba / 2 ^ (8 * (off - 0xF02000)))

/-- Read a BAR0 offset outside the relay windows, its domain being on: the value and the latches that the read sets.
(DEDUCED, log entry 35.) -/
def State.barValue (s : State) (off : Nat) : Word × State :=
  if off < 0x640000 then
    let s := s.readPrbs off
    (s.regValue off, s.latchTime off)
  else if (0xF00000 ≤ off ∧ off < 0xF01080) ∨ (0xF02000 ≤ off ∧ off < 0xF02028) then (s.msixRead off, s)
  else (0, s)

/-- The domain that a read must wait for. -/
def State.readStall (s : State) (off : Nat) : Option Nat := if off < 0x640000 then s.stallDomain off else none

/-- Answer read request `r` of offset `off`, or stall it. -/
def State.answer (s : State) (off : Nat) (r : Stalled) : State :=
  match s.readStall off with
  | some d => s.stallOn d r
  | none =>
    let (v, s) := s.barValue off
    s.answerRead r v

/-! ## Domains that come on (R68) -/

/-- A stalled request of a domain that is on proceeds. -/
def State.proceed (s : State) (r : Stalled) : State :=
  match r with
  | .write off be v win => s.barWrite off be.toNat v win
  | .read off _ => s.answer off r
  | .remote off _ _ => s.answer off r
  | .internal _ => s

/-- The stalled requests of domain `d` proceed, oldest first. -/
def State.serveStalled (s : State) (d : Nat) : State :=
  let l := s.pwr.stalled.filter (fun e => e.1 == d)
  let s := s.onPwr (fun p => { p with stalled := p.stalled.filter (fun e => e.1 != d) })
  l.foldl (fun s e => s.proceed e.2) s

/-- Domain `d`, which wakes or has requests stalled, is on, once every domain it depends on is. -/
def State.domainArrives (s : State) (d : Nat) : State :=
  if (s.pwr.waking.contains d || (s.isOn d && s.pwr.stalled.any (fun e => e.1 == d))) && (domainDeps d).all s.isOn then
    (s.domainUp d).serveStalled d
  else s

/-- COUNTER_CLEAR_WRITE. -/
def execCounterClearWrite (off : Nat) (v : Word) (s : State) : Res := .next (if isCounterClear off then s.viaHst (fun s => s.regWrite off v none) else s)

/-- STAGED_REG_WRITE (R123). -/
def execStagedRegWrite (off : Nat) (be : BitVec 4) (v : Word) (s : State) : Res :=
  .next (if isStaged off then s.viaHst (fun s => s.barWrite off be.toNat v none) else s)

end Sys2Proof.Machine
end

