-- ==== Sys2Proof/Machine/Descriptors.lean ====
section
/-! DEFINITION. Descriptors: the checks at the head of a ring (R100), staging transactions and register lists through a ring (R95, R96, R103,
R121, R124, R131), table loads and reads (R25, R94, R102, R130), the answers to host-memory reads and their faults (R108), and what waits
for domains that come on or fail to (R68). -/

namespace Sys2Proof.Machine

/-! ## Tables that descriptors name (R94, R226, R268, R290, R322, R570, R584) -/

def tDOSE : Nat := 0x60000
def tTRACE : Nat := 0x70000

/-- The tables that TBL_READ reads beside the loadable ones, but for loss maps. -/
def readOnlyTables : List Nat := [tFMASK, tWORK, tDOSE, tTRACE]

/-- The coded buffer whose loss map table `t` is: its placement (R226). -/
def State.lossTable (s : State) (t : Nat) : Option Placement :=
  if t / 0x10000 = 0xF0 ∧ selOk (t % 0x10000) = true then (s.region (t % 0x10000)).filter (fun p => p.mode != 0) else none

/-- Whether TBL_READ knows table `t` now: TRACE is not read while it captures. -/
def State.readable (s : State) (t : Nat) : Bool :=
  loadableTables.contains t || t == tFMASK || t == tWORK || t == tDOSE
    || (t == tTRACE && !s.flag Reg.EVT_TRC F.EVT_TRC_RUN) || (s.lossTable t).isSome

/-- Whether table `t` has an inactive copy. -/
def hasCopies (t : Nat) : Bool := loadableTables.contains t || t == tWORK

/-- The allocation of one copy of what `t` names (R102); 0 for what is no table. -/
def State.copySize (s : State) (t : Nat) (inactive : Bool) : Nat :=
  match s.lossTable t with
  | some p => ceilDiv (blocksOf p.w p.h) 2
  | none =>
    if t = tDOSE then 36864
    else if t = tTRACE then 32 * s.traceCap
    else if hasCopies t || t == tFMASK then s.tableCap t inactive else 0

/-- The domains that a load or read of `t` wakes (R68, R117): the half-pipes, or the frame-store controllers. (DEDUCED, log entry 42.) -/
def tableDomains (t : Nat) : List Nat :=
  if t = tCMASK ∨ t = tFMASK ∨ t = tLAW ∨ t = tOD ∨ t = tDTH ∨ t = tDOSE then [18, 19]
  else if layerTables.contains t ∨ t / 0x10000 = 0xF0 then [23, 24] else []

/-! ## Checks 1 to 9 (R100) -/

/-- Check 2: DETAIL of the first field that names an absent or locked-off function (R58, R119). -/
def State.absentAt (s : State) (c : Nat) (d : Desc) : Option Nat :=
  let op := d.opcode
  if op = 0x01 then s.maskAbsent (d.arg2 0)
  else if op = 0x02 then
    (s.stg.txns.find? (fun t => t.client == c && t.id == d.arg 0 && s.txnAbsent t)).map (fun _ => 0)
  else if op = 0x10 ∨ op = 0x11 then
    let eng := d.arg 0 / 65536 % 4
    if s.fnAbsent 13 && s.fnAbsent 14 then some 0
    else if (eng == 1 && s.fnAbsent 13) || (eng == 2 && s.fnAbsent 14) then some 0x24 else none
  else if 0x18 ≤ op ∧ op ≤ 0x1B then
    if s.fnAbsent 16 || (op == 0x18 && d.arg 0 == 2 && s.fnAbsent 13 && s.fnAbsent 14) then some 0
    else if s.lockedOff (11 + d.magPort) then some 0x18 else none
  else if op = 0x30 ∧ s.fnAbsent 11 = true then some 0
  else none

/-- Check 3: DETAIL of the privileged opcode or flag of a descriptor from C4 to C255 (R93, R94). -/
def privAt (c : Nat) (d : Desc) : Option Nat :=
  if c < 4 then none else if d.opcode = 0x30 then some 0 else if d.resume then some 1 else none

/-- Check 7: LENGTH as R94 and R414 allow. -/
def lengthOk (d : Desc) : Bool :=
  let n := d.length
  match d.opcode with
  | 0x01 => n == 8
  | 0x02 => n == 8
  | 0x03 => n == 4
  | 0x04 => n % 8 == 0 && decide (n ≤ 65536)
  | 0x05 => n % 4 == 0 && decide (n ≤ 65536)
  | 0x18 => if d.arg 0 = 1 then n == 28 else if d.arg 0 = 3 then n == 4 else true
  | 0x19 => n == 20
  | 0x1A => n == 8
  | 0x1B => n == 4
  | 0x20 => n == 8
  | 0x24 => decide (n ≤ 4096)
  | 0x30 => n == 16
  | _ => true

/-- The job of another descriptor in flight names the state address of `d` (R438). -/
def State.stateInUse (s : State) (d : Desc) : Bool :=
  (List.range 4).any (fun c => (s.client c).descs.any (fun e =>
    e.stage == .waiting && (e.opcode == 0x10 || e.opcode == 0x11) && e.arg2 1 == d.arg2 1))

/-- The field of a codec job that check 8 refuses, lowest offset first (R438). -/
def State.codecFault (s : State) (c : Nat) (d : Desc) : Option Nat :=
  let a := d.arg 0
  let comp := d.opcode == 0x10
  let level := a / 16 % 16
  let clog2 := a / 256 % 32
  let eng := a / 65536 % 4
  let box := a % 4 == 1
  let clogOk := decide (14 ≤ clog2) && decide (clog2 ≤ 20)
  let badArg := decide (1 < a % 4) || decide (a / 4 % 4 ≠ 0) || decide (a / 8192 % 8 ≠ 0) || decide (a / 262144 ≠ 0) || eng == 3
    || (comp && !(decide (1 ≤ level) && decide (level ≤ 9))) || (comp && box && !clogOk)
    || (eng == 1 && s.stageOnly 0) || (eng == 2 && s.stageOnly 1) || (eng == 0 && s.stageOnly 0 && s.stageOnly 1)
  let st := d.arg2 1
  if d.limit = 0 ∨ (comp && box && clogOk && decide (d.limit < wCont d.length clog2)) = true then some 0x20
  else if badArg then some 0x24
  else if c < 4 ∧ (st % 4096 ≠ 0 ∨ (st ≠ 0 ∧ s.stateInUse d = true) ∨ (d.resume = true ∧ st = 0)) then some 0x28
  else none

/-- The field of a CREATE that check 8 refuses, lowest offset first (R415). -/
def createFault (d : Desc) : Option Nat :=
  let w := d.arg 3 % 65536
  let h := d.arg 3 / 65536
  let x := d.arg 4 % 65536
  let y := d.arg 4 / 65536
  let e := d.arg 6
  if d.plate ≠ 0 then some 0x18
  else if 256 * d.arg 1 ≤ ceilDiv (8 * d.arg 2) 4096 then some 0x28
  else if d.arg 2 = 0 ∨ 1048576 < d.arg 2 then some 0x2C
  else if w = 0 ∨ 4096 < w ∨ h = 0 ∨ 1536 < h then some 0x30
  else if 4096 < x + w ∨ 1536 < y + h ∨ (e / 256 % 2 = 0 ∧ (x ≠ 0 ∨ y ≠ 0)) then some 0x34
  else if (List.range 4).any (fun k => decide (64 < d.arg 5 / 256 ^ k % 256)) then some 0x38
  else if 64 < e % 256 ∨ e / 512 % 128 ≠ 0 ∨ e / 65536 % 16 = 0 ∨ 9 < e / 65536 % 16 ∨ e / 1048576 ≠ 0 then some 0x3C
  else none

/-- The field of a PLATE_PLAY that check 8 refuses (R417). (DEDUCED, log entry 100.) -/
def State.playField (s : State) (d : Desc) : Option Nat :=
  let a := d.arg 0
  if a &&& 0x3377 ≠ a ∨ d.playOp = 0 ∨ d.playOp = 3 ∨ 4 < d.playTgt ∨ d.playEnd = 3 then some 0x24
  else if d.playOp = 2 then (if 15 < d.arg 1 then some 0x28 else none)
  else if d.playF0 ≤ s.gen.fc then some 0x2C
  else if d.arg 4 = 0 then some 0x34
  else none

/-- The field of a plate descriptor that check 8 refuses (R414 to R420). -/
def State.plateFault (s : State) (d : Desc) : Option Nat :=
  if d.target &&& 0x30FFF ≠ d.target then some 0x18
  else
    match d.opcode with
    | 0x18 => if d.arg 0 = 0 ∨ 3 < d.arg 0 then some 0x24 else if d.arg 0 = 1 then createFault d else none
    | 0x19 => s.playField d
    | 0x1A => if 2 < d.arg 0 then some 0x24 else none
    | _ => if d.arg 0 ≠ 0 then some 0x24 else none

/-- Check 8: status and DETAIL. (DEDUCED, log entry 38.) -/
def State.fieldFault (s : State) (c : Nat) (d : Desc) : Option (Nat × Nat) :=
  let op := d.opcode
  let field (f : Option Nat) : Option (Nat × Nat) := f.map (fun x => (0x11, x))
  if d.resume && !(op == 0x10 || op == 0x11) then some (0x11, 1)
  else if op = 0x01 then field (s.maskFault (d.arg2 0))
  else if op = 0x02 then (if d.arg 1 / 2 ≠ 0 then some (0x11, 0x28) else none)
  else if op = 0x04 ∨ op = 0x05 then
    if d.haddr % 4 ≠ 0 then some (0x13, 8) else if op = 0x05 ∧ d.haddr2 % 4 ≠ 0 then some (0x13, 0x10) else none
  else if op = 0x06 then (if loadableTables.contains d.target then none else some (0x11, 0x18))
  else if op = 0x07 then
    if !s.readable d.target then some (0x11, 0x18)
    else if 1 < d.arg 0 ∨ (hasCopies d.target = false ∧ d.arg 0 ≠ 0) then some (0x11, 0x24) else none
  else if op = 0x10 ∨ op = 0x11 then field (s.codecFault c d)
  else if 0x18 ≤ op ∧ op ≤ 0x1B then field (s.plateFault d)
  else if op = 0x20 then field (calFault d)
  else if op = 0x30 then field (s.volFault d)
  else none

/-- RESULT1 of check 6: the capacity of the operand's target (R102). -/
def State.targetSize (s : State) (d : Desc) : Nat :=
  match d.opcode with
  | 0x04 => 65536
  | 0x05 => 65536
  | 0x06 => s.copySize d.target true
  | 0x07 => s.copySize d.target (d.arg 0 == 1)
  | _ => 0

/-- Checks 1 to 8: the completion of a descriptor that fails one (R100). A descriptor of length 0 ends at check 5.
(DEDUCED, log entry 38.) -/
def State.headFault (s : State) (c : Nat) (d : Desc) : Option Cpl :=
  if !opcodes.contains d.opcode then some (Cpl.of 0x10)
  else
    match s.absentAt c d, privAt c d with
    | some f, _ => some (Cpl.of 0x22 0 0 f)
    | none, some f => some (Cpl.of 0x15 0 0 f)
    | none, none =>
      if d.flags / 8 ≠ 0 then some (Cpl.of 0x11 0 0 1)
      else if d.length = 0 then none
      else if d.length = 0xFFFFFFFF then some (Cpl.of 0x14 0xFFFFFFFF (s.targetSize d) 4)
      else if !lengthOk d then some (Cpl.of 0x12 0 0 4)
      else (s.fieldFault c d).map (fun f => Cpl.of f.1 0 0 f.2)

/-- A descriptor ends at its checks: a commit closes its transaction (R103). -/
def State.endHead (s : State) (c : Nat) (d : Desc) (cpl : Cpl) : State :=
  (if d.opcode = 2 then s.abortCommit c (some d.idx) else s).finish c d.idx cpl

/-- The transaction that a load of client `c` belongs to (R103): its Open or Failed one, unless a commit is deciding it. -/
def State.loadTxn (s : State) (c : Nat) : Nat :=
  match s.txnOf c with
  | some t => if t.checking then 0 else t.id
  | none => 0

/-- The descriptor at the head of client `c`'s ring meets checks 1 to 9 (R60, R100). -/
def State.headChecks (s : State) (c : Nat) : State :=
  match (s.client c).descs.find? (fun d => !(d.stage == .waiting || d.stage == .finished)) with
  | none => s
  | some d =>
    if d.stage != .fetched || !s.flag (Reg.HST_CSTAT c) F.HST_CSTAT_RUN then s
    else
      let own := if d.opcode = 6 ∧ d.length ≠ 0 then s.loadTxn c else 0
      let s := s.setDesc c d.idx (fun d => { d with txn := own })
      let g := Reg.HST_CCFG c
      match s.headFault c d with
      | some cpl => s.endHead c d cpl
      | none =>
        if d.length = 0 ∨ s.needsMet d = true then s.passCheck c d
        else if s.flag g F.HST_CCFG_FAIL_FAST then s.endHead c d (Cpl.of 0x20)
        else s.setDesc c d.idx (fun d => { d with stage := .held (s.getF g F.HST_CCFG_RDY_WAIT != 0) })

/-- DESCRIPTOR_HEAD. -/
def execDescriptorHead (c : Fin 256) (s : State) : Res := .next (s.headChecks c)

/-! ## Transactions through a ring (R95, R121, R124, R131) -/

/-- STG_BEGIN: the mask is checked again at check 10 (R119, R134). -/
def State.stgBegin (c : Nat) (d : Desc) (s : State) : State :=
  match s.maskFault (d.arg2 0), s.beginCheck c (d.arg2 0) with
  | some where_, _ => s.finish c d.idx (Cpl.of 0x11 0 0 where_)
  | none, some st => s.finish c d.idx (Cpl.of st)
  | none, none =>
    let (s, id) := s.openTxn c (d.arg2 0)
    s.finish c d.idx (Cpl.of 0 id)

def execStgBegin (c : Fin 256) (s : State) : Res := .next (s.startWith c (isOp 0x01) (State.stgBegin c))

/-- STG_COMMIT: the commit checks start. (DEDUCED, log entry 40.) -/
def State.stgCommit (c : Nat) (d : Desc) (s : State) : State :=
  match s.txnOf c with
  | none => s.finish c d.idx (Cpl.of 0x30)
  | some t =>
    if t.id ≠ d.arg 0 then s.finish c d.idx (Cpl.of 0x30)
    else if t.checking then s.onStg (fun g => { g with rollWait := g.rollWait ++ [(c, d.idx)] })
    else s.startChecks t false (d.arg 1 == 1) d.idx

/-- DEDUCED, log entry 40. -/
def execStgCommit (c : Fin 256) (s : State) : Res := .next (s.startWith c (isOp 0x02) (State.stgCommit c))

/-- STG_ROLLBACK; while the transaction's commit checks run it waits for them. -/
def State.stgRollback (c : Nat) (d : Desc) (s : State) : State :=
  match s.txnOf c with
  | none => s.finish c d.idx (Cpl.of 0x30)
  | some t =>
    if t.id ≠ d.arg 0 then s.finish c d.idx (Cpl.of 0x30)
    else if t.checking then s.onStg (fun g => { g with rollWait := g.rollWait ++ [(c, d.idx)] })
    else (s.dropTxn t).finish c d.idx (Cpl.of 0)

def execStgRollback (c : Fin 256) (s : State) : Res := .next (s.startWith c (isOp 0x03) (State.stgRollback c))

/-! ## Register lists (R96, R122) -/

/-- The entries of a list: offset and value; a REG_READ entry has no value. -/
def listEntries (wr : Bool) : Nat → List Byte → List (Nat × Word)
  | 0, _ => []
  | n + 1, bs =>
    (leAt 0 4 bs, if wr then word (leAt 4 4 bs) else 0) :: listEntries wr n (bs.drop (if wr then 8 else 4))

/-- The entries of the list of descriptor `d`. -/
def Desc.entries (d : Desc) (bs : List Byte) : List (Nat × Word) :=
  if d.opcode = 4 then listEntries true (d.length / 8) bs else listEntries false (d.length / 4) bs

/-- Whether an entry is staged into the client's transaction: an SR register, or an LK register before its lock (R134).
(DEDUCED, log entry 39.) -/
def State.listStages (s : State) (off : Nat) : Bool := isStaged off && !(isLk off && s.panelLocked)

/-- The check of one entry (R96, R123). -/
def State.entryFault (s : State) (c : Nat) (wr : Bool) (off : Nat) : Option Nat :=
  if off % 4 ≠ 0 ∨ 0xC00000 ≤ off ∨ blockOf off = 1 then some 0x11
  else if wr && s.listStages off then
    match s.txnOf c with
    | none => some 0x30
    | some t => if bit (heldMask t.mask) (groupOf off) then none else some 0x34
  else none

/-- The first entry that fails, with its index as DETAIL. -/
def State.listFault (s : State) (c : Nat) (wr : Bool) : Nat → List (Nat × Word) → Option Cpl
  | _, [] => none
  | i, e :: t =>
    match s.entryFault c wr e.1 with
    | some st => some (Cpl.of st 0 0 i)
    | none => s.listFault c wr (i + 1) t

/-- The distinct registers that client `c`'s transaction would hold with the staged entries of a list (R122). -/
def State.listHolds (s : State) (c : Nat) (l : List (Nat × Word)) : Nat :=
  let old := match s.txnOf c with
    | some t => t.regs.map (·.1)
    | none => []
  (old ++ ((l.map (·.1)).filter s.listStages)).eraseDups.length

/-- The domains that a list still has to wake: staged entries and locked-off domains wake none (R68, R69, R117). -/
def State.listDomains (s : State) (wr : Bool) (l : List (Nat × Word)) : List Nat :=
  (l.filterMap (fun e =>
    if (wr && isStaged e.1) || decide (0x640000 ≤ e.1) then none
    else (s.stallDomain e.1).filter (fun d => !s.lockedOff d))).eraseDups

/-- One entry of a REG_WRITE of client `c` applies. -/
def State.applyEntry (s : State) (c : Nat) (e : Nat × Word) : State :=
  if isStaged e.1 then
    if isLk e.1 && s.panelLocked then s.event Ev.GBL_LK_WRITE []
    else
      match s.txnOf c with
      | some t => (s.stageIn t e.1 e.2).layLoads
      | none => s
  else
    match s.stallDomain e.1 with
    | some d => s.event Ev.PWR_LOCKED_ACCESS [(8, d)]
    | none => s.applyWrite e.1 e.2

/-- One entry of a REG_READ: its value. -/
def State.readEntry (s : State) (off : Nat) : Word × State :=
  match s.readStall off with
  | some d => (lockedValue d (.read off none), s.event Ev.PWR_LOCKED_ACCESS [(8, d)])
  | none => s.barValue off

/-- The values of a REG_READ, in list order. -/
def State.readEntries : List (Nat × Word) → State → List Byte × State
  | [], s => ([], s)
  | e :: t, s =>
    let (v, s) := s.readEntry e.1
    let (bs, s) := State.readEntries t s
    (leBytes 4 v.toNat ++ bs, s)

/-- The checked list of descriptor `d` applies, or waits for the domains it has to wake. -/
def State.applyList (s : State) (c : Nat) (d : Desc) (bs : List Byte) : State :=
  let wr := d.opcode == 4
  let l := d.entries bs
  match s.listDomains wr l with
  | [] =>
    if wr then (l.foldl (fun s e => s.applyEntry c e) s).finish c d.idx (Cpl.of 0 d.length)
    else
      let (vs, s) := State.readEntries l s
      (s.writeHost d.haddr2 vs (some (c, d.idx))).finish c d.idx (Cpl.of 0 d.length d.length)
  | ds => (ds.foldl (fun s e => State.wake 6 e s) s).onHst (fun h => { h with lists := h.lists ++ [(c, d.idx, bs)] })

/-- The list of descriptor `d` has been read: checks 10 and 11, then it applies (R96, R100, R102, R103, R122). (DEDUCED, log entry 39.) -/
def State.runList (s : State) (c : Nat) (d : Desc) (bs : List Byte) : State :=
  let wr := d.opcode == 4
  let l := d.entries bs
  let own := if wr && l.any (fun e => s.listStages e.1) then s.loadTxn c else 0
  let s := s.setDesc c d.idx (fun d => { d with txn := own })
  match s.listFault c wr 0 l with
  | some cpl => s.finish c d.idx cpl
  | none =>
    if wr ∧ stageLimit < s.listHolds c l then s.finish c d.idx (tooLarge (8 * s.listHolds c l) 32768)
    else if wr = false ∧ d.limit < d.length then s.finish c d.idx (tooLarge d.length d.limit 0x20)
    else s.applyList c d bs

/-- The lists that wait are tried again. -/
def State.retryLists (s : State) : State :=
  let l := s.hst.lists
  l.foldl (fun s e => match s.desc? e.1 e.2.1 with
    | some d => s.applyList e.1 d e.2.2
    | none => s) (s.onHst (fun h => { h with lists := [] }))

/-- REG_WRITE: the list is read (R96). -/
def execRegWrite (c : Fin 256) (s : State) : Res :=
  .next (s.startWith c (isOp 0x04) (fun d s => s.readHost d.haddr d.length (.data c d.idx)))

/-- REG_READ: the list is read (R96). -/
def execRegRead (c : Fin 256) (s : State) : Res :=
  .next (s.startWith c (isOp 0x05) (fun d s => s.readHost d.haddr d.length (.data c d.idx)))

/-! ## Table loads and reads (R25, R94, R102, R103, R130) -/

/-- Bytes of which those that `bad` marks are free values: what an uncorrectable unit or word gives is not stated.
(DESIGN CHOICE, log entry 7.) -/
def State.spoil (bad : Nat → Bool) : List Byte → Nat → State → List Byte × State
  | [], _, s => ([], s)
  | b :: t, i, s =>
    let (b, s) := if bad i then (let (n, s) := s.free; (BitVec.ofNat 8 n, s)) else (b, s)
    let (l, s) := State.spoil bad t (i + 1) s
    (b :: l, s)

/-- Bytes [a, a + n) of the frame store as TBL_READ gives them: uncorrectable units count (R217). -/
def State.readUnits (s : State) (a : Nat) (bs : List Byte) : List Byte × State :=
  let us := s.fst.ue.filter (fun u => decide (a < 32 * u + 32) && decide (32 * u < a + bs.length))
  if us.isEmpty then (bs, s)
  else State.spoil (fun i => us.contains ((a + i) / 32)) bs 0 (s.takeEcc (us.map (fun u => ⟨false, u⟩)))

/-- The first bytes of the aligned words that bytes [o, o + n) touch. -/
def wordStarts (o n : Nat) : List Nat :=
  ((List.range (n / 8 + 2)).map (fun i => o / 8 * 8 + 8 * i)).filter (fun i => decide (i < o + n))

/-- Bytes from offset `o` of what lies in the banks' words that `at_` gives for a byte: their errors are met, uncorrectable ones with client and
TAG (R462, R465). -/
def State.readWords (s : State) (c tag : Nat) (at_ : Nat → List Nat) (o : Nat) (bs : List Byte) : List Byte × State :=
  let ws := (wordStarts o bs.length).flatMap at_
  let s := s.touchWords ws
  if s.banksClean then (bs, s)
  else
    let bad := s.bnk.bad.filter ws.contains
    let marks (i : Nat) : Bool := (at_ (o + i)).any bad.contains
    let hit := ws.filter (fun w => s.bnk.bad.contains w || s.bnk.soft.contains w)
    State.spoil marks bs 0 (hit.foldl (fun s w => s.readWord 12 w [(8, c), (16, tag)]) s)

/-- The words that TBL_READ reads for byte `i` of copy `k` of table `t`: the records of WORK from the first of their two banks (R453), a colour table
from both halves. (DESIGN CHOICE, log entry 138.) -/
def State.readFrom (s : State) (t k i : Nat) : List Nat :=
  if t = tWORK then (s.bankWords t k i).take 1 else s.bankWords t k i

/-- EVT_TRACE_UE for every record with an uncorrectable word in bytes [o, o + n) of the trace buffer (R584). -/
def State.traceUe (s : State) (o n : Nat) : State :=
  if s.bnk.bad.isEmpty then s
  else
    let hit := (wordStarts o n).filter (fun i => (s.traceWord i).any s.bnk.bad.contains)
    hit.foldl (fun s i => s.event Ev.EVT_TRACE_UE [(32, i / 32)]) s

/-- What TBL_READ reads: `d` has passed its checks. -/
def State.readTable (s : State) (c : Nat) (d : Desc) : List Byte × State :=
  let t := d.target
  let o := d.toff
  let n := d.length
  let active := d.arg 0 == 0
  let k := if active then s.copyOf t else 1 - s.copyOf t
  if (s.lossTable t).isSome then s.readUnits (s.lossMap (t % 0x10000) + o) (s.fsRead (s.lossMap (t % 0x10000) + o) n)
  else if t = tDOSE then
    ((List.range n).map (fun i => BitVec.ofNat 8 (aget (fun _ => 0) s.pipe.dose ((o + i) / 8) / 256 ^ ((o + i) % 8))), s)
  else if t = tTRACE then
    let bs := (List.range n).map (fun i => (aget (fun _ => []) s.evt.trace ((o + i) / 32)).getD ((o + i) % 32) 0)
    let r := s.readWords c d.tag (fun i => (s.traceWord i).toList) o bs
    (r.1, r.2.traceUe o n)
  else
    let bs := s.tableBytes t o n active
    if layerTables.contains t then s.readUnits (layerAddr t k o) bs else s.readWords c d.tag (s.readFrom t k) o bs

/-- A load or read of `d` has to wait: the inactive copy is resynchronising; a load of a gain layer needs the layers and the working copy
(R130, R293). (DEDUCED, log entry 42.) -/
def State.copyBusy (s : State) (d : Desc) : Bool :=
  let t := d.target
  if d.opcode = 6 ∧ layerTables.contains t = true then (layerTables ++ [tWORK]).any (fun u => (s.table u).resync)
  else (d.opcode == 6 || d.arg 0 == 1) && (s.table t).resync

/-- A load or read that has passed its checks waits for its copy, its domains and a throttle that stops the DMA master, and then moves its
bytes; a load reads its image in transfers of up to 4 KiB (R68, R130, R481). -/
def State.tableGo (s : State) (c : Nat) (d : Desc) : State :=
  let t := d.target
  let ds := (tableDomains t).filter (fun e => !s.isOn e)
  if s.copyBusy d || !ds.isEmpty || s.step2Stops then
    let s := ds.foldl (fun s e => State.wake 6 e s) s
    s.setTable t { s.table t with waiters := (s.table t).waiters ++ [(c, d.idx)] }
  else if d.opcode = 6 then s.readHost (d.haddr + d.moved) (min 4096 (d.length - d.moved)) (.data c d.idx)
  else
    let (bs, s) := s.readTable c d
    (s.writeHost d.haddr2 bs (some (c, d.idx))).finish c d.idx (Cpl.of 0 d.length d.length)

/-- The loads and reads of `l` are tried again. -/
def State.retryTables (s : State) (l : List (Nat × Nat)) : State :=
  l.foldl (fun s e => match s.desc? e.1 e.2 with
    | some d => s.tableGo e.1 d
    | none => s) s

/-- Every load and read that waits, taken out of its table. -/
def State.takeWaiters (s : State) : List (Nat × Nat) × State :=
  (s.tabs.flatMap (fun e => e.2.waiters),
    s.tabs.foldl (fun s e => if e.2.waiters.isEmpty then s else s.setTable e.1 { s.table e.1 with waiters := [] }) s)

/-- TBL_LOAD: checks 10 and 11; it belongs to the client's transaction (R102, R103). Under the lock the panel layer is read-only (R296): a load into
it needs group 18 named, which R134 then refuses. (DESIGN CHOICE, log entry 138: the status.) -/
def State.tblLoad (c : Nat) (d : Desc) (s : State) : State :=
  let t := d.target
  let s := s.setDesc c d.idx (fun d => { d with txn := s.loadTxn c })
  match s.txnOf c with
  | none => s.finish c d.idx (Cpl.of 0x30)
  | some x =>
    if !bit (if s.panelLocked then x.mask else heldMask x.mask) (tableGroup t) then s.finish c d.idx (Cpl.of 0x34)
    else if s.copySize t true < d.toff + d.length then s.finish c d.idx (tooLarge (d.toff + d.length) (s.copySize t true) 4)
    else
      (s.setTxn x.id (fun x => { x with
        loads := if x.loads.contains t then x.loads else x.loads ++ [t]
        ranges := x.ranges ++ [(t, d.toff, d.length)] })).tableGo c d

def execTblLoad (c : Fin 256) (s : State) : Res := .next (s.startWith c (isOp 0x06) (State.tblLoad c))

/-- TBL_READ: check 11 (R102). -/
def State.tblRead (c : Nat) (d : Desc) (s : State) : State :=
  let size := s.copySize d.target (d.arg 0 == 1)
  if size < d.toff + d.length then s.finish c d.idx (tooLarge (d.toff + d.length) size 4)
  else if d.limit < d.length then s.finish c d.idx (tooLarge d.length d.limit 0x20)
  else s.tableGo c d

def execTblRead (c : Fin 256) (s : State) : Res := .next (s.startWith c (isOp 0x07) (State.tblRead c))

/-- The transaction of a load is still in its slot. (DEDUCED, log entry 42.) -/
def State.loadLives (s : State) (c : Nat) (d : Desc) : Bool :=
  match s.txnOf c with
  | some t => t.id == d.txn
  | none => false

/-- A transfer of a load has been read: it is written into the inactive copy, and the next one follows; a gain layer's load completes after its
rebuild (R283, R293, R481). (DEDUCED, log entry 42.) -/
def State.loadData (s : State) (c : Nat) (d : Desc) (bs : List Byte) : State :=
  let s := if s.loadLives c d then s.writeInactive d.target (d.toff + d.moved) bs else s
  let d := { d with moved := d.moved + bs.length }
  let s := s.setDesc c d.idx (fun e => { e with moved := d.moved })
  if d.moved < d.length then s.tableGo c d
  else if layerTables.contains d.target then s
  else
    let s := if d.target = tDEFECT then s.syncPrefix else s
    s.finish c d.idx (Cpl.of 0 d.length d.length)

/-- A gain layer's load of client `c` whose rebuild runs. -/
def State.rebuilding (s : State) (c : Nat) : Option Desc :=
  (s.client c).descs.find? (fun d =>
    d.stage == .waiting && d.opcode == 6 && layerTables.contains d.target
      && !(s.table d.target).waiters.contains (c, d.idx) && !s.hst.reads.any (fun r => r.use == .data c d.idx))

/-- TABLE_REBUILD_END (R293); while throttle step 2 stops the class, no rebuild goes on (R481). (DEDUCED, log entry 136.) -/
def execTableRebuildEnd (c : Fin 256) (s : State) : Res :=
  match (if s.step2Stops then none else s.rebuilding c) with
  | none => .next s
  | some d =>
    let s := if s.loadLives c d then s.rebuild d.target d.toff d.length else s
    .next (s.finish c d.idx (Cpl.of 0 d.length d.length))

/-- Every load and read that waits is tried again. -/
def State.retryWaiters (s : State) : State :=
  let (l, s) := s.takeWaiters
  s.retryTables l

/-- RESYNC_END: the loads and reads that waited for it go on (R130); while throttle step 2 stops the class, no resynchronisation goes on (R481).
(DEDUCED, log entry 136.) -/
def execResyncEnd (table : Nat) (s : State) : Res :=
  if !(s.table table).resync || s.step2Stops then .next s
  else
    let (l, s) := s.endResync table
    let (m, s) := s.takeWaiters
    .next (s.retryTables (l ++ m))

/-- COMMIT_DECIDE; the loads and reads that a pause of 0 holds are tried again. (DEDUCED, log entries 55 and 136.) -/
def execCommitDecide (c : Fin 256) (inFreeze : Bool) (s : State) : Res := .next (s.commitEnds c inFreeze).retryWaiters

/-- THROTTLE_STEP_TIMER; the loads and reads that the throttle held go on once it lets them (R481, R482). -/
def execThrottleStepTimer (s : State) : Res := .next s.throttleTimer.retryWaiters

/-! ## Host-memory reads answered (R105, R437, R533) and failed (R108) -/

/-- The bytes of a source operand have been read; a descriptor that has ended meanwhile takes none. -/
def State.operandRead (s : State) (c idx : Nat) (bs : List Byte) : State :=
  match s.desc? c idx with
  | none => s
  | some d =>
    if d.stage != .waiting then s
    else
    match d.opcode with
    | 0x04 => s.runList c d bs
    | 0x05 => s.runList c d bs
    | 0x06 => s.loadData c d bs
    | 0x18 => s.appendData c idx bs
    | 0x24 => s.tmkData c idx bs
    | _ => s.jobData c idx false bs

/-- A reply to role `src` about its request `tag` (R533). -/
def State.hostReply (s : State) (src tag kind addr : Nat) (bs : List Byte) : State :=
  s.unicast src 0x40 (hostBody (s.roleEntry src).epoch tag kind addr bs.length bs)

/-- Outstanding read `r` has its bytes. -/
def State.readDone (s : State) (r : HostRead) (bs : List Byte) : State :=
  let s := s.onHst (fun h => { h with reads := h.reads.filter (fun x => x.rid != r.rid) })
  match r.use with
  | .fetch c idx n => s.takeDescs c idx n bs
  | .data c idx => s.operandRead c idx bs
  | .jobState c idx => s.jobData c idx true bs
  | .relay _ src tag => (chunks48 (bs.length + 1) 0 bs).foldl (fun s k => s.hostReply src tag 2 k.1 k.2) s

/-- HOST_MEMORY_READ_DATA: the answer to a read on the device's own PCIe link. -/
def execHostMemoryReadData (rid : Nat) (bytes : List Byte) (s : State) : Res :=
  match s.hst.reads.find? (fun r => r.rid == rid) with
  | some r => .next (if s.hst.linkUp && bytes.length == r.len then s.readDone r bytes else s)
  | none => .next s

/-- What works for a descriptor gives it up. -/
def State.dropWork (s : State) (c idx : Nat) : State :=
  match s.desc? c idx with
  | none => s
  | some d =>
    match d.opcode with
    | 0x10 => s.jobFault c idx
    | 0x11 => s.jobFault c idx
    | 0x18 => s.dropAppend c idx
    | 0x1A => s.dropRead c idx
    | _ => s

/-- A fetch has failed: the ring halts (R108). (DEDUCED, log entry 44.) -/
def State.fetchFault (s : State) (c : Nat) : State :=
  ((s.setClient c { s.client c with fetching := 0 }).haltRing c 1).ringFault c 0

/-- Outstanding read `r` has failed on the device's own link. -/
def State.readFault (s : State) (r : HostRead) : State :=
  let s := s.onHst (fun h => { h with reads := h.reads.filter (fun x => x.rid != r.rid) })
  match r.use with
  | .fetch c _ _ => s.fetchFault c
  | .data c idx => (s.dropWork c idx).dataFault c idx
  | .jobState c idx => (s.dropWork c idx).dataFault c idx
  | .relay _ src tag => s.hostReply src tag 8 0 []

/-- HOST_MEM_FAULT (R108). -/
def execHostMemFault (w : HostFaultAt) (s : State) : Res :=
  if !s.hst.linkUp then .next s
  else
    match w with
    | .read rid =>
      match s.hst.reads.find? (fun r => r.rid == rid) with
      | some r => .next (s.readFault r)
      | none => .next s
    | .completion c => .next (s.cplFault c (s.client c).lastTag)
    | .dataWrite c idx => .next (s.writeFault c idx)

/-! ## Domains that come on, or do not (R68) -/

/-- The descriptors whose lists need domain `d` complete with NOT_READY. -/
def State.failLists (s : State) (d : Nat) : State :=
  let bad (e : Nat × Nat × List Byte) : Bool := match s.desc? e.1 e.2.1 with
    | some x => (s.listDomains (x.opcode == 4) (x.entries e.2.2)).contains d
    | none => true
  let l := s.hst.lists.filter bad
  let s := s.onHst (fun h => { h with lists := h.lists.filter (fun e => !bad e) })
  l.foldl (fun s e => s.finish e.1 e.2.1 (Cpl.of 0x20)) s

/-- The loads and reads that need domain `d` complete with NOT_READY. -/
def State.failTables (s : State) (d : Nat) : State :=
  let (l, s) := s.takeWaiters
  l.foldl (fun s e => match s.desc? e.1 e.2 with
    | some x => if (tableDomains x.target).contains d then s.finish e.1 e.2 (Cpl.of 0x20) else s.tableGo e.1 x
    | none => s) s

/-- Thatch domain `d` does not come on: the queued jobs that no engine can run complete with NOT_READY. (DEDUCED, log entry 43.) -/
def State.failJobs (s : State) (d : Nat) : State :=
  let l := s.thc.queue.filter (fun j => s.jobAllowed (d - 21) j && [0, 1].all (fun e => !(s.jobAllowed e j && s.isOn (21 + e))))
  l.foldl (fun s j => (s.jobFault j.1 j.2).finish j.1 j.2 (Cpl.of 0x20)) s

end Sys2Proof.Machine
end

