-- ==== Sys2Proof/Machine/Jtag.lean ====
section
/-! DEFINITION. The JTAG port: the test access port of IEEE 1149.1 with its mandatory instructions and IDCODE (R13, R620). The codes, the
length of the instruction register, IDCODE and the cells of the boundary register are the part's own. -/

namespace Sys2Proof.Machine

/-- The next state of the test access port on a rising edge of TCK. (PRESUMED, log entry 48.) -/
def TapState.next (t : TapState) (tms : Bool) : TapState :=
  match t with
  | .testLogicReset => if tms then .testLogicReset else .runTestIdle
  | .runTestIdle => if tms then .selectDr else .runTestIdle
  | .selectDr => if tms then .selectIr else .captureDr
  | .captureDr => if tms then .exit1Dr else .shiftDr
  | .shiftDr => if tms then .exit1Dr else .shiftDr
  | .exit1Dr => if tms then .updateDr else .pauseDr
  | .pauseDr => if tms then .exit2Dr else .pauseDr
  | .exit2Dr => if tms then .updateDr else .shiftDr
  | .updateDr => if tms then .selectDr else .runTestIdle
  | .selectIr => if tms then .testLogicReset else .captureIr
  | .captureIr => if tms then .exit1Ir else .shiftIr
  | .shiftIr => if tms then .exit1Ir else .shiftIr
  | .exit1Ir => if tms then .updateIr else .pauseIr
  | .pauseIr => if tms then .exit2Ir else .pauseIr
  | .exit2Ir => if tms then .updateIr else .shiftIr
  | .updateIr => if tms then .selectDr else .runTestIdle

/-- The low `n` bits of `v`, lowest first. -/
def bitList (v n : Nat) : List Bool := (List.range n).map (fun i => v.testBit i)

/-- Shift one place toward TDO, TDI entering behind. -/
def shiftIn (l : List Bool) (tdi : Bool) : List Bool := l.drop 1 ++ [tdi]

/-- The register that an instruction selects; all ones is BYPASS. (PRESUMED, log entry 48.) -/
def selectReg (ir : List Bool) : TapReg :=
  if ir.all id then .bypass
  else if Config.jtagCode ir = 0 then .bypass
  else if Config.jtagCode ir = 1 then .idcode
  else if Config.jtagCode ir = 2 then .extest
  else .boundary

def State.onJtag (s : State) (f : JtagState → JtagState) : State := { s with jtag := f s.jtag }

/-- What Capture-DR loads; the boundary register takes the levels of the pins, which the model does not hold.
(DESIGN CHOICE, log entry 7.) -/
def State.captureDr (s : State) : State :=
  match s.jtag.reg with
  | .bypass => s.onJtag (fun j => { j with drShift := [false] })
  | .idcode => s.onJtag (fun j => { j with drShift := bitList Config.idcode.toNat 32 })
  | .boundary | .extest =>
    let (n, s) := s.free
    s.onJtag (fun j => { j with drShift := bitList n Config.boundaryCells })

/-- What Capture-IR loads: 01 in the two bits next to TDO, the others the part's own. (DESIGN CHOICE, log entry 7.) -/
def State.captureIr (s : State) : State :=
  let (n, s) := s.free
  s.onJtag (fun j => { j with irShift := [true, false] ++ bitList n Config.irMore })

/-- What the state that the edge leaves does. -/
def State.tapAct (s : State) (tdi : Bool) : State :=
  match s.jtag.tap with
  | .captureDr => s.captureDr
  | .shiftDr => s.onJtag (fun j => { j with drShift := shiftIn j.drShift tdi })
  | .captureIr => s.captureIr
  | .shiftIr => s.onJtag (fun j => { j with irShift := shiftIn j.irShift tdi })
  | _ => s

/-- Instruction `r` comes into force: the boundary latches drive the pins from its start to its end if it is EXTEST. -/
def State.tapSelect (s : State) (r : TapReg) : State :=
  let t := s.onJtag (fun j => { j with reg := r })
  if r = .extest then t.emit (.boundary (some s.jtag.cells))
  else if s.jtag.reg = .extest then t.emit (.boundary none)
  else t

/-- The boundary latches take what was shifted in. -/
def State.tapLatch (s : State) : State :=
  let t := s.onJtag (fun j => { j with cells := j.drShift })
  match s.jtag.reg with
  | .boundary => t
  | .extest => t.emit (.boundary (some t.jtag.cells))
  | _ => s

/-- What the state that the edge reaches does; TDO is driven in Shift-DR and Shift-IR. -/
def State.tapEnter (s : State) : State :=
  match s.jtag.tap with
  | .testLogicReset => s.tapSelect .idcode
  | .updateIr => s.tapSelect (selectReg s.jtag.irShift)
  | .updateDr => s.tapLatch
  | .shiftDr => s.emit (.tdo (s.jtag.drShift.headD false))
  | .shiftIr => s.emit (.tdo (s.jtag.irShift.headD false))
  | _ => s

/-- JTAG_TCK_EDGE: a rising edge of TCK with the falling edge after it, or TRST_N going low. (PRESUMED, log entry 48.) -/
def execJtagTckEdge (e : JtagEdge) (s : State) : Host.Outcome State Fault Refusal :=
  if s.rst.off then .next s
  else
    match e with
    | .trst => .next ((s.onJtag (fun j => { j with tap := .testLogicReset })).tapSelect .idcode)
    | .tck tms tdi => .next ((s.tapAct tdi).onJtag (fun j => { j with tap := j.tap.next tms })).tapEnter

end Sys2Proof.Machine
end

