-- ==== Sys2Proof/Machine/Packets.lean ====
section
/-! DEFINITION. What arrives in flits: the packet decoder of a Rafter port, cut-through and acceptance (R158, R174 to R182), link messages
(R160, R196, R518), and the answer to every flit (R154, R155, R161). -/

namespace Sys2Proof.Machine

/-! ## The packet decoder (R158, R174, R175, R182, R198) -/

/-- The packet that the decoder is in has come to its end. -/
def PktDecoder.endPacket (d : PktDecoder) (k : Packet) : PktDecoder := { d with got := [], cur := none, rows := 0, put := 0, fin := d.fin ++ [k] }

/-- The decoder goes on with packet `k`, of which `n` bytes are to be skipped. -/
def PktDecoder.skipPacket (d : PktDecoder) (k : Packet) (n : Nat) : PktDecoder :=
  if n = 0 then d.endPacket k else { d with got := [], cur := some k, skip := n }

/-- The header of a packet of kind `w` has been parsed, `read` bytes of it after the common header (R182, R198). -/
def State.parsed (s : State) (p : Nat) (w : PktWhat) (t len f read : Nat) : State :=
  let (k, s) := s.checkPacket w t len f
  match k.what with
  | .fail .badLen => s.onDec p (fun d => { d.endPacket k with wait := true })
  | .fail _ => s.onDec p (fun d => d.skipPacket k (len - read))
  | .span y0 n _ => s.onDec p (fun d => { d with got := [], cur := some k, row := y0, rows := n, put := 0 })
  | _ => s.onDec p (fun d => d.endPacket k)

/-- The rectangle of a WRECT's body, which starts at byte 16 (R180). -/
def rectAt (b : List Byte) : WRect :=
  ⟨leAt 16 2 b, leAt 18 2 b, leAt 20 2 b, leAt 22 2 b, leAt 24 1 b, leAt 25 1 b, leAt 26 1 b, leAt 27 1 b, leAt 28 1 b, leAt 29 1 b⟩

/-- A byte of a header: PTYPE 0 is PAD; the common header is 16 bytes, that of a SPAN 24 and a WRECT 32 (R174 to R181). `b` is the header so
far. -/
def State.headerByte (s : State) (p : Nat) (b : List Byte) : State :=
  let ty := leAt 0 1 b
  let t := leAt 1 1 b
  let len := leAt 4 4 b
  let f := leAt 8 6 b
  let s := s.onDec p (fun d => { d with got := b })
  if b.length = 1 ∧ ty = 0 then s.onDec p (fun d => { d with got := [], pad := true })
  else if b.length = 16 then
    if 3 < ty then s.onDec p (fun d => { d.endPacket ⟨t, f, .fail .badType, .freed⟩ with wait := true })
    else if ty = 3 then s.parsed p .done t len f 0
    else if ty = 1 then
      (if spanTarget t then s else s.onDec p (fun d => d.skipPacket ⟨t, f, .fail .badTarget, .freed⟩ len))
    else if tgtKind t ≠ 1 then s.onDec p (fun d => d.skipPacket ⟨t, f, .fail .badTarget, .freed⟩ len)
    else if len ≠ 16 then s.onDec p (fun d => { d.endPacket ⟨t, f, .fail .badLen, .freed⟩ with wait := true })
    else s
  else if b.length = 24 ∧ ty = 1 then s.parsed p (.span (leAt 16 2 b) (leAt 18 2 b) (leAt 20 2 b)) t len f 8
  else if b.length = 32 then s.parsed p (.wrect (rectAt b)) t len f 16
  else s

/-- The pixels of the SPAN's row that the bytes so far hold are written, unless its buffer is no longer the frame's or the frame is complete
(R182, R184, R187). -/
def State.putPixels (s : State) (p : Nat) (k : Packet) (pix : Nat) : State :=
  let d := (s.link p).dec
  let s := match k.hold with
    | .live i => s.writeSpanRow k.target i k.frame d.row pix d.put d.got
    | _ => s
  s.onDec p (fun d => { d with put := max d.put (spanPixels (tgtKind k.target) pix d.got.length) })

/-- A byte of a SPAN's data: after its last byte the row is written as far as it is not yet. -/
def State.rowByte (s : State) (p : Nat) (k : Packet) (pix : Nat) (b : List Byte) : State :=
  let s := s.onDec p (fun d => { d with got := b })
  if b.length < spanRowBytes (tgtKind k.target) pix then s
  else (s.putPixels p k pix).onDec p (fun d =>
    if d.rows ≤ 1 then d.endPacket k else { d with got := [], row := d.row + 1, rows := d.rows - 1, put := 0 })

/-- Payload byte `i` of a DATA flit. `off` is the flit's PKT_OFF where it is known and valid; a decoder that waits takes nothing before the
byte that it names (R174, R198). -/
def State.takeByte (s : State) (p : Nat) (off : Option Nat) (i : Nat) (b : Byte) : State :=
  let d := (s.link p).dec
  if d.pad || (d.wait && off != some i) then s
  else
    let s := s.onDec p (fun d => { d with wait := false, pos := i + 1 })
    match d.cur with
    | none => s.headerByte p (d.got ++ [b])
    | some k =>
      match k.what with
      | .span _ _ pix => if d.rows = 0 then s else s.rowByte p k pix (d.got ++ [b])
      | _ => s.onDec p (fun d => d.skipPacket k (d.skip - 1))

/-- What the sectors so far hold of the row that a SPAN is in is written (R182). -/
def State.putForwarded (s : State) (p : Nat) : State :=
  let d := (s.link p).dec
  match d.cur with
  | some k =>
    match k.what with
    | .span _ _ pix => if d.rows = 0 then s else s.putPixels p k pix
    | _ => s
  | none => s

/-- Payload bytes from byte `i` on. -/
def State.takeBytes (s : State) (p : Nat) (off : Option Nat) (i : Nat) (bs : List Byte) : State :=
  ((bs.zipIdx i).foldl (fun s e => s.takeByte p off e.2 e.1) s).putForwarded p

/-- The packets that have ended take effect one after another (R182). -/
def State.acceptPackets (s : State) (p : Nat) : State :=
  (List.range (s.link p).dec.fin.length).foldl (fun s _ =>
    match (s.link p).dec.fin with
    | k :: rest => (s.onDec p (fun d => { d with fin := rest })).acceptPacket p k
    | [] => s) s

/-- The flit has ended: after a PAD the decoder waits for the next PKT_OFF, and it stands where the next flit starts (R158, R174). -/
def State.endFlit (s : State) (q : Nat) : State :=
  let s := s.onDec q (fun d => { d with wait := d.wait || d.pad, pad := false, pos := 0 })
  s.onLink q (fun k => { k with fwd := 0, decAt := k.dec })

/-! ## Link messages (R160, R196, R518) -/

/-- Whether a link takes messages of CODE `c` with LEN `n`: the codes of R196 on a Rafter port, those of R518 with their LEN on a Ridge link. -/
def messageOk (q c n : Nat) : Bool :=
  if q < 4 then [0x01, 0x40, 0x41].contains c
  else
    match [(0x01, 0), (0x10, 2), (0x11, 3), (0x18, 1), (0x20, 3), (0x21, 2), (0x22, 2), (0x28, 1), (0x30, 4), (0x31, 3), (0x32, 2), (0x38, 3),
        (0x39, 1)].lookup c with
    | some m => n == m
    | none => c == 0x40 && decide (1 ≤ n ∧ n ≤ 8)

/-- The messages of `n` bytes, up to END: CODE and ARG of each that is taken, none for each that is rejected; `fuel` bounds them. -/
def messagesIn (q : Nat) : Nat → Nat → List Byte → List (Option (Nat × Nat))
  | 0, _, _ => []
  | fuel + 1, n, b =>
    let c := leAt 0 1 b
    let len := leAt 1 1 b
    if n = 0 ∨ c = 0 then []
    else if n < 8 + 8 * len then [none]
    else (if messageOk q c len then some (c, leAt 4 4 b) else none) :: messagesIn q fuel (n - (8 + 8 * len)) (b.drop (8 + 8 * len))

/-- The messages of an LMSG payload: one sequence in the flit, on a Ridge link one in each sector. -/
def flitMessages (q : Nat) (payload : List Byte) : List (Option (Nat × Nat)) :=
  if payload.isEmpty then []
  else if q < 4 then messagesIn q 38 304 payload
  else (List.range 4).flatMap (fun k => messagesIn q 9 76 (slice (76 * k) 76 payload))

/-- One message of an accepted flit. Those of a Ridge link act through the rows of their own. (DESIGN CHOICE, log entry 62.) -/
def State.takeMessage (s : State) (q : Nat) (m : Option (Nat × Nat)) : State :=
  if s.lkState q ≠ 5 then s
  else
    match m with
    | none => s.protoError q
    | some (c, arg) =>
      if 4 ≤ q then s
      else if c = 0x01 then s.takeGoodbye q
      else if c = 0x40 then s.takeSrcSleep arg
      else s.takeSrcWake arg

/-! ## Flits (R154, R157, R158, R161) -/

/-- The payload of an accepted DATA flit: what was not forwarded already is decoded, and the packets that have ended act. (DESIGN CHOICE, log
entry 62.) -/
def State.takeData (s : State) (p : Nat) (f : Flit) : State :=
  let off := f.pktOff.toNat
  if f.payload.isEmpty ∧ (s.link p).fwd = 0 then
    if off < 304 then s.onLink p (fun k => { k with dec := { k.dec with wait := false }, decAt := { k.dec with wait := false } }) else s
  else
    let i := (s.link p).dec.pos
    let s := s.takeBytes p (if off < 304 then some off else none) i (f.payload.drop i)
    (s.acceptPackets p).endFlit p

/-- The payload of an accepted flit; with a reserved PKT_OFF it is not passed on (R143, R161, R515). -/
def State.takePayload (s : State) (q : Nat) (f : Flit) : State :=
  let off := f.pktOff.toNat
  if q < 4 ∧ 304 ≤ off ∧ off ≠ 511 then (s.onLink q (fun k => { k with fwd := 0, dec := .lost, decAt := .lost })).protoError q
  else if f.ftype = 1 then s.takeData q f
  else (flitMessages q f.payload).foldl (fun s m => s.takeMessage q m) (s.dropFlit q)

/-- A sequenced flit whose sectors all pass (R154, R157, R161). -/
def State.takeSequenced (s : State) (q : Nat) (f : Flit) : State :=
  let d := (f.seq.toNat + 4096 - s.rxNext q) % 4096
  let room := (s.getF (lkLlcr q) F.RAF_LLCR_CREDIT_GRANT + 4096 - f.seq.toNat) % 4096
  if d = 0 then
    if room = 0 ∨ 2047 < room then (((s.dropFlit q).bump (lkBase q + 0x40) 1).lkEvent q Ev.RAF_CREDIT_OVR).nakE q
    else (s.acceptFlit q f).takePayload q f
  else if d ≤ 2047 then (s.dropFlit q).flitAhead q
  else (s.dropFlit q).bump (lkBase q + 0x38) 1

/-- A flit whose sectors all pass (R151, R154, R161). The acknowledgement and the credit of one with a reserved FTYPE are processed. (DESIGN
CHOICE, log entry 129.) -/
def State.takeFlit (s : State) (q : Nat) (f : Flit) : State :=
  let s := s.onLink q (fun k => { k with badRun := 0 })
  let ty := f.ftype.toNat
  if ty = 3 then (if (s.link q).sawFlit then s.protoError q else s)
  else
    let s := s.onLink q (fun k => { k with sawFlit := true, limit := f.credit.toNat })
    let s := s.takeAck q f.ackType.toNat f.ackSeq.toNat
    if s.lkState q ≠ 5 ∨ ty = 0 then s
    else if seqType q ty then s.takeSequenced q f
    else
      let s := s.dropFlit q
      (if f.seq.toNat = s.rxNext q then s.nakE q else s).protoError q

/-- FLIT_RECEIVE (R154 to R157, R161): only an ACTIVE link runs the link layer; in LOOP_FAR the flit goes back (R164). (DESIGN CHOICE, log
entry 62.) -/
def execFlitReceive (q : Fin 8) (f : Flit) (s : State) : Res :=
  if s.lkState q = 9 then .next (s.emit (.farLoop q (.flitReceive q f)))
  else if s.lkState q ≠ 5 then .next s
  else .next (if badSectors f = 0 then s.takeFlit q f else s.takeBad q f)

/-- SECTOR_FORWARD: the sector goes to the packet decoder at once, in order after the sectors before it (R158). Its flit's PKT_OFF is not known
before the last sector, so a decoder that waits takes nothing yet. (DESIGN CHOICE, log entry 62.) -/
def execSectorForward (q : Fin 8) (sector : Sector) (s : State) : Res :=
  let n := sector.no.val
  if s.lkState q = 5 ∧ (s.link q).fwd = n then
    let s := s.onLink q (fun k => { k with fwd := n + 1 })
    .next (if q.val < 4 then s.takeBytes q none (76 * n) sector.payload else s)
  else .next s

end Sys2Proof.Machine
end

