-- ==== Sys2Proof/Machine/Relay.lean ====
section
/-! DEFINITION. The relay windows of a head (R85, R113, R114), the HOST messages of the mesh (R27, R112, R533), ROLE_MOVED (R528), volume
resets (R534) and the LINK trace records (R582). -/

namespace Sys2Proof.Machine

/-! ## Relay windows (R113, R114) -/

/-- The answer to an access through a relay window: a read returns `v`, a write has no answer. -/
def State.answerOp (s : State) (isRead : Bool) (v : Word) : State := if isRead then s.emit (.readReply v) else s

/-- Whether an access is a read. -/
def isReadOp (op : RelayOp) : Bool :=
  match op with
  | .read => true
  | .write _ _ => false

/-- A relayed access fails (R114). -/
def State.relayFail (s : State) (isRead : Bool) : State :=
  (s.answerOp isRead (BitVec.allOnes 32)).event Ev.HST_RELAY_FAIL []

/-- A write at offset `a` of the doorbell pages (R88). -/
def State.doorbell (s : State) (a be : Nat) (v : Word) : State :=
  if a % 4096 = 0 then s.writeSqTail (a / 4096 % 256) be v
  else if a % 4096 = 4 then s.writeCqHead (a / 4096 % 256) be v
  else s

/-- An access through window w of the device's own BAR0, or its BAR2, at offset `a`. -/
def State.ownAccess (s : State) (w : Nat) (bar2 : Bool) (a : Nat) (op : RelayOp) : State :=
  match op with
  | .read => if bar2 then s.emit (.readReply 0) else s.answer a (.read a (some w))
  | .write be v => if bar2 then s.doorbell a be.toNat v else s.barWrite a be.toNat v (some w)

/-- An access through window w at offset `off` of the window is issued, as HST_RLY_SELw steers it (R113, R114). -/
def State.issueRelay (s : State) (w off : Nat) (op : RelayOp) : State :=
  let r := Reg.HST_RLY_SEL w
  if !s.flag r F.HST_RLY_SEL_EN then (s.answerOp (isReadOp op) (BitVec.allOnes 32)).event Ev.HST_RELAY_OFF []
  else
    let role := s.getF r F.HST_RLY_SEL_ROLE
    let bar2 := s.flag r F.HST_RLY_SEL_SPACE
    let a := s.getF r F.HST_RLY_SEL_BASE * 0x80000 + off
    let e := s.roleEntry role
    if s.hasRole && s.role == role then s.ownAccess w bar2 a op
    else if !(e.known && e.reachable) then s.relayFail (isReadOp op)
    else
      let tag := s.hst.nextTag
      let s := s.onHst (fun h => { h with nextTag := (tag + 1) % 65536, relays := h.relays ++ [⟨tag, w, (isReadOp op)⟩] })
      let addr := a + 2 ^ 32 * b2n bar2
      let body := match op with
        | .read => hostBody e.epoch tag 5 addr 0 []
        | .write _ v => hostBody e.epoch tag 6 addr 4 (leBytes 4 v.toNat)
      s.unicast role 0x40 body

/-- What waits for window w goes on in order: a new steering once nothing is outstanding (R113), an access once none of the own device
before it waits for a domain (R114). -/
def State.pumpList (w : Nat) : List WinWait → State → State
  | [], s => s
  | e :: t, s =>
    let held := s.windowStalled w || (match e with
      | .sel _ => s.hst.relays.any (fun r => r.window == w)
      | .access _ _ => false)
    if held then s.onHst (fun h => { h with winWait := h.winWait ++ (e :: t).map (fun x => (w, x)) })
    else State.pumpList w t (match e with
      | .sel v => s.setReg (Reg.HST_RLY_SEL w) (maskFields (Reg.HST_RLY_SEL w) v)
      | .access off op => s.issueRelay w off op)

def State.pumpWindow (s : State) (w : Nat) : State :=
  let l := (s.hst.winWait.filter (fun e => e.1 == w)).map (·.2)
  State.pumpList w l (s.onHst (fun h => { h with winWait := h.winWait.filter (fun e => e.1 != w) }))

/-- An access through relay window w (R85, R113). -/
def State.relayAccess (s : State) (w off : Nat) (op : RelayOp) : State :=
  let be := match op with
    | .read => 15
    | .write be _ => be.toNat
  if be = 0 then s
  else if be ≠ 15 then s.event Ev.HST_PARTIAL_WRITE []
  else if s.windowStalled w || s.hst.winWait.any (fun e => e.1 == w) then s.onHst (fun h => { h with winWait := h.winWait ++ [(w, .access off op)] })
  else s.issueRelay w off op

/-- RELAY_ACCESS. -/
def execRelayAccess (w : Fin 4) (off : Nat) (acc : RelayOp) (s : State) : Res := .next (s.viaHst (fun s => s.relayAccess w off acc))

/-- HST_RLY_SEL_WRITE. -/
def execHstRlySelWrite (w : Fin 4) (v : Word) (s : State) : Res := .next (s.viaHst (fun s => s.writeRlySel w v))

/-- BAR0_WRITE: a relay window, or the device's own registers and structures (R7, R85). -/
def execBar0Write (off : Nat) (be : BitVec 4) (v : Word) (s : State) : Res :=
  .next (s.viaHst (fun s =>
    if 0xC00000 ≤ off ∧ off < 0xE00000 then s.relayAccess ((off - 0xC00000) / 0x80000) (off % 0x80000) (.write be v)
    else s.barWrite off be.toNat v none))

/-! ## Domains that come on, or fail to (R68) -/

/-- What waits for each relay window goes on. -/
def State.pumpWindows (s : State) : State := (List.range 4).foldl State.pumpWindow s

/-- DOMAIN_ON: what waited for the domain goes on. -/
def execDomainOn (d : Fin 34) (s : State) : Res :=
  .next (s.domainArrives d).pumpWindows.retryLists.retryWaiters

/-- PWR_WAKE_FAIL: domain `d` is not on 2 ms after the request (R68). (DEDUCED, log entry 43.) -/
def execPwrWakeFail (d : Fin 34) (s : State) : Res :=
  if s.isOn d || !s.pwr.waking.contains d.val then .next s
  else
    let s := ((s.dropStalled d).event Ev.PWR_WAKE_FAIL [(8, d.val)]).pumpWindows
    let s := (s.failLists d).failTables d
    .next (if d.val = 21 ∨ d.val = 22 then s.failJobs d else s)

/-- The outstanding access `p` ends: with the value it read, or in failure (R114). -/
def State.endRelay1 (s : State) (p : RelayPend) (v : Option Word) : State :=
  let s := s.onHst (fun h => { h with relays := h.relays.filter (fun r => r.tag != p.tag) })
  let s := match v with
    | some v => s.answerOp p.isRead v
    | none => s.relayFail p.isRead
  s.pumpWindow p.window

/-- RELAY_TIMEOUT: no reply within 900 µs (R114). -/
def execRelayTimeout (tag : Nat) (s : State) : Res :=
  match s.hst.relays.find? (fun r => r.tag == tag) with
  | some p => .next (s.endRelay1 p none)
  | none => .next s

/-! ## ROLE_MOVED (R528) -/

/-- A bounced HOST message toward `role`: the oldest access through a window of that role fails (R114). (DEDUCED, log entry 47.) -/
def State.bounced (s : State) (role : Nat) : State :=
  match s.hst.relays.find? (fun r => s.getF (Reg.HST_RLY_SEL r.window) F.HST_RLY_SEL_ROLE == role) with
  | some p => s.endRelay1 p none
  | none => s

/-- ROLE_MOVED. -/
def execRoleMoved (h : RidgeHdr) (b : RoleMoved) (s : State) : Res :=
  .next (s.takeUnicast h 0x22 b.epoch.toNat ([b.code, b.role, b.reason, 0] ++ leBytes 4 b.arg.toNat ++ leBytes 4 0) (fun s =>
    let s := s.event Ev.RDG_ROLE_MOVED []
    if b.code = 0x40 then s.bounced b.role.toNat else s))

/-! ## HOST messages (R533) -/

/-- A HOST message of KIND `kind` is taken where it is meant for, or goes on. (DEDUCED, log entry 46.) -/
def State.takeHost (s : State) (h : RidgeHdr) (b : HostBody) (kind count : Nat) (act : State → State) : State :=
  s.takeUnicast h 0x40 b.epoch.toNat
    (leBytes 2 b.rtag.toNat ++ [BitVec.ofNat 8 kind, BitVec.ofNat 8 count] ++ leBytes 8 b.addr.toNat ++ b.data) act

/-- HOST_READ_REQUEST: a head reads host memory for the sender. -/
def execHostReadRequest (h : RidgeHdr) (b : HostBody) (rlen : Word) (s : State) : Res :=
  .next (s.takeHost h { b with data := leBytes 4 rlen.toNat } 0 0 (fun s =>
    if !s.isHead then s.hostReply (hdrSrc h) b.rtag.toNat 8 0 []
    else s.readHost b.addr.toNat rlen.toNat (.relay h.link.val (hdrSrc h) b.rtag.toNat)))

/-- A relayed write or MSI-X message at a head is issued as it is, and answered with KIND 3 (R106, R115, R533). (DEDUCED, log entry 124.) -/
def State.hostPut (s : State) (h : RidgeHdr) (b : HostBody) : State :=
  if !s.isHead then s.hostReply (hdrSrc h) b.rtag.toNat 8 0 []
  else (s.emit (.hostWrite b.addr.toNat b.data)).hostReply (hdrSrc h) b.rtag.toNat 3 0 []

def execHostWrite (h : RidgeHdr) (b : HostBody) (s : State) : Res :=
  .next (s.takeHost h b 1 b.data.length (fun s => s.hostPut h b))

/-- DEDUCED, log entry 46. -/
def execHostMsix (h : RidgeHdr) (b : HostBody) (s : State) : Res :=
  .next (s.takeHost h b 4 b.data.length (fun s => s.hostPut h b))

/-- Every part of the read of tag `t` has its bytes: they are put together, and the read is done. -/
def State.joinRead (s : State) (rid : Nat) : State :=
  let mine (t : HostTag) : Bool := t.kind == 0 && t.use.any (fun r => r.rid == rid)
  let l := s.rdg.hostTags.filter mine
  if l.any (fun t => decide (t.got.length < leNat t.bytes)) || s.rdg.hostWait.any mine then s
  else
    let s := s.onRdg (fun r => { r with hostTags := r.hostTags.filter (fun t => !mine t) })
    let s := match s.hst.reads.find? (fun r => r.rid == rid) with
      | some r => s.readDone r (l.flatMap (fun (t : HostTag) => t.got))
      | none => s
    s.drainHost

/-- Read data for tag `tag` at byte `addr` of its request. -/
def State.takeReadData (s : State) (tag addr : Nat) (bs : List Byte) : State :=
  match s.rdg.hostTags.find? (fun t => t.tag == tag && t.kind == 0 && t.got.length == addr) with
  | some t =>
    let s := s.onRdg (fun r => { r with hostTags := r.hostTags.map (fun x => if x.tag = tag then { x with got := x.got ++ bs } else x) })
    match t.use with
    | some r => s.joinRead r.rid
    | none => s
  | none => s

/-- HOST_READ_DATA. -/
def execHostReadData (h : RidgeHdr) (b : HostBody) (s : State) : Res :=
  .next (s.takeHost h b 2 b.data.length (fun s => s.takeReadData b.rtag.toNat b.addr.toNat b.data))

/-- The tag of a relayed write or message is answered; completions that waited for it are written (R104, R106). -/
def State.dropTag (s : State) (t : HostTag) : State :=
  let s := s.onRdg (fun r => { r with hostTags := r.hostTags.filter (fun x => x.tag != t.tag) })
  let s := match t.client with
    | some (c, _) => State.flushCpl c (s.client c).descs.length s
    | none => s
  s.drainHost

/-- HOST_WRITE_DONE. (DEDUCED, log entry 124.) -/
def execHostWriteDone (h : RidgeHdr) (b : HostBody) (s : State) : Res :=
  .next (s.takeHost h b 3 b.data.length (fun s =>
    match s.rdg.hostTags.find? (fun t => t.tag == b.rtag.toNat && t.kind != 0) with
    | some t => s.dropTag t
    | none => s))

/-- An event record from its bytes in the ring (R574). -/
def recordOf (bs : List Byte) : PendEvent :=
  let fl := leAt 2 1 bs
  ⟨leAt 0 2 bs, leAt 20 4 bs, leAt 24 4 bs, leAt 28 4 bs, bit fl 2, bit fl 3, leAt 4 4 bs, leAt 8 8 bs, leAt 8 8 bs + 1200 * leAt 16 4 bs⟩

/-- A relayed write to the event ring has failed: the ring stops, and its record is pending again (R579). (DEDUCED, log entry 47.) -/
def State.evtWriteFailed (s : State) (bs : List Byte) : State :=
  let e := recordOf bs
  let s := (s.setF Reg.EVT_STAT F.EVT_STAT_FAULT 1).onEvt (fun v => { v with faultRec := true })
  if e.code = Ev.EVT_RING_FAULT then s
  else if e.code = Ev.EVENTS_LOST then
    (s.onEvt (fun v => { v with lostMask := v.lostMask ||| e.d1, lostCount := v.lostCount + e.count, lostFirst := e.first })).syncEvtStat
  else (s.onEvt (fun v => { v with pend := e :: v.pend })).syncEvtStat

/-- A relayed host access has failed: ROUTE_FAIL, or a ring fault for a fetch or a completion (R108, R112, R533). -/
def State.hostFailed (s : State) (t : HostTag) : State :=
  let s : State :=
    match t.use with
    | some r =>
      let s := s.onRdg (fun g => { g with hostTags := g.hostTags.filter (fun x => !x.use.any (fun y => y.rid == r.rid)) })
      if !s.hst.reads.any (fun x => x.rid == r.rid) then s
      else
        let s := s.onHst (fun h => { h with reads := h.reads.filter (fun x => x.rid != r.rid) })
        match r.use with
        | .fetch c _ _ => s.fetchFault c
        | .data c idx => (s.dropWork c idx).finish c idx (Cpl.of 0x45)
        | .jobState c idx => (s.dropWork c idx).finish c idx (Cpl.of 0x45)
        | .relay _ _ _ => s
    | none =>
      let s := s.onRdg (fun g => { g with hostTags := g.hostTags.filter (fun x => x.tag != t.tag) })
      match t.client with
      | some (c, idx) => if t.cpl then s.cplFault c (leAt 0 2 t.bytes) else (s.dropWork c idx).finish c idx (Cpl.of 0x45)
      | none => if t.kind = 1 then s.evtWriteFailed t.bytes else s
  s.drainHost

/-- HOST_REQUEST_FAILED: the PCIe request of the tag failed. An MSI-X message is left to its timeout. (DEDUCED, log entry 47.) -/
def execHostRequestFailed (h : RidgeHdr) (b : HostBody) (s : State) : Res :=
  .next (s.takeHost h b 8 b.data.length (fun s =>
    match s.rdg.hostTags.find? (fun t => t.tag == b.rtag.toNat && t.kind != 4) with
    | some t => s.hostFailed t
    | none =>
      match s.hst.relays.find? (fun r => r.tag == b.rtag.toNat) with
      | some p => s.endRelay1 p none
      | none => s))

/-- HOST_RELAY_TIMEOUT: 900 µs without an answer; an MSI-X message is sent once more. (DEDUCED, log entry 47.) -/
def execHostRelayTimeout (tag : Nat) (s : State) : Res :=
  match s.rdg.hostTags.find? (fun t => t.tag == tag) with
  | none => .next s
  | some t =>
    if t.kind = 4 ∧ t.resent = false then
      let s := s.onRdg (fun r => { r with hostTags := r.hostTags.map (fun x => if x.tag = tag then { x with resent := true } else x) })
      .next (s.sendTag t)
    else if t.kind = 0 ∧ leNat t.bytes ≤ t.got.length then .next s
    else .next (s.hostFailed t)

/-- HOST_RELAY_READ: the host reads this device's BAR0, or its BAR2, through a window of the head (R113). -/
def execHostRelayRead (h : RidgeHdr) (b : HostBody) (s : State) : Res :=
  .next (s.takeHost h b 5 b.data.length (fun s =>
    let off := b.addr.toNat % 2 ^ 32
    if bit b.addr.toNat 32 then s.remoteReply (hdrSrc h) b.rtag.toNat 0 else s.answer off (.remote off (hdrSrc h) b.rtag.toNat)))

/-- HOST_RELAY_WRITE: the host writes this device's BAR0, or its doorbells, through a window of the head; it is answered with KIND 7 and no
data. (DEDUCED, log entry 46.) -/
def execHostRelayWrite (h : RidgeHdr) (b : HostBody) (s : State) : Res :=
  .next (s.takeHost h b 6 b.data.length (fun s =>
    let off := b.addr.toNat % 2 ^ 32
    let v := word (leAt 0 4 b.data)
    let s := if bit b.addr.toNat 32 then s.doorbell off 15 v else s.barWrite off 15 v none
    s.hostReply (hdrSrc h) b.rtag.toNat 7 0 []))

/-- HOST_RELAY_READ_DATA: the answer to an access through a window. -/
def execHostRelayReadData (h : RidgeHdr) (b : HostBody) (s : State) : Res :=
  .next (s.takeHost h b 7 b.data.length (fun s =>
    match s.hst.relays.find? (fun r => r.tag == b.rtag.toNat) with
    | some p => s.endRelay1 p (some (word (leAt 0 4 b.data)))
    | none => s))

/-! ## Volume resets (R534) -/

/-- VCMD_RESET: the device answers and starts a warm reset. (DEDUCED, log entry 121.) -/
def execVcmdReset (h : RidgeHdr) (b : VcmdBody) (s : State) : Res := .next (s.takeVcmdMsg h 3 b (fun s => s.warmReset 5))

/-- VOL_RESET_SELF: 100 µs after the completion of a VOL_RESET that names its issuer. -/
def execVolResetSelf (s : State) : Res := .next (if s.rdg.selfReset then (s.onRdg (fun r => { r with selfReset := false })).warmReset 5 else s)

/-! ## LINK records (R582) -/

/-- The counts of link q that a LINK record reports: CRC, NAK, replay, accepted flits. -/
def State.linkCounts (s : State) (q : Nat) : List Nat :=
  [(s.reg (lkBase q + 0x30)).toNat, (s.reg (lkBase q + 0x34)).toNat, (s.reg (lkBase q + 0x44)).toNat, (s.link q).taken]

/-- The increase of a count since the last record; a count that was cleared counts from 0. -/
def rise (now last : Nat) : Nat := if now < last then now else now - last

/-- TRACE_LINK_TICK: every 1 ms a record for each ACTIVE port and link. -/
def execTraceLinkTick (s : State) : Res :=
  .next ((List.range 8).foldl (fun s q =>
    if s.lkState q ≠ 5 then s
    else
      let now := s.linkCounts q
      let old := (s.link q).traced
      let inc (i : Nat) : Nat := rise (now.getD i 0) (old.getD i 0)
      let s := s.onLink q (fun k => { k with traced := now })
      s.trace 4 ([BitVec.ofNat 8 (q / 4), BitVec.ofNat 8 (q % 4)] ++ leBytes 2 (inc 0) ++ leBytes 2 (inc 1) ++ leBytes 2 (inc 2)
        ++ leBytes 4 (inc 3) ++ leBytes 2 (s.getF (lkLlcr q) F.RAF_LLCR_RX_FILL) ++ leBytes 2 0)) s)

end Sys2Proof.Machine
end

