-- ==== Sys2Proof/Machine/Dispatch.lean ====
section
/-! DEFINITION. One arm per command. -/

namespace Sys2Proof.Machine

def exec (i : Instr) (s : State) : Host.Outcome State Fault Refusal :=
  match i with
  | .supplyReset => Sys2Proof.Machine.execSupplyReset s
  | .porstNAssert => Sys2Proof.Machine.execPorstNAssert s
  | .warmrstNAssert => Sys2Proof.Machine.execWarmrstNAssert s
  | .pciePerstNAssert => Sys2Proof.Machine.execPciePerstNAssert s
  | .gblResetWrite v => Sys2Proof.Machine.execGblResetWrite v s
  | .warmResetRelease => Sys2Proof.Machine.execWarmResetRelease s
  | .panelOffTimeout => Sys2Proof.Machine.execPanelOffTimeout s
  | .hostPortResetEnd => Sys2Proof.Machine.execHostPortResetEnd s
  | .strapSample straps => Sys2Proof.Machine.execStrapSample straps s
  | .startupStepEnd step r => Sys2Proof.Machine.execStartupStepEnd step r s
  | .startupRailTimeout refclkBad => Sys2Proof.Machine.execStartupRailTimeout refclkBad s
  | .pwrReqActive v => Sys2Proof.Machine.execPwrReqActive v s
  | .pwrReqStandby v => Sys2Proof.Machine.execPwrReqStandby v s
  | .pwrReqDormant v => Sys2Proof.Machine.execPwrReqDormant v s
  | .dormantEntry => Sys2Proof.Machine.execDormantEntry s
  | .dormantWake src => Sys2Proof.Machine.execDormantWake src s
  | .dormantWakeEnd r => Sys2Proof.Machine.execDormantWakeEnd r s
  | .domainWakeRequest r => Sys2Proof.Machine.execDomainWakeRequest r s
  | .domainOn d => Sys2Proof.Machine.execDomainOn d s
  | .pwrWakeFail d => Sys2Proof.Machine.execPwrWakeFail d s
  | .domainAutoOff d => Sys2Proof.Machine.execDomainAutoOff d s
  | .vtRecompute => Sys2Proof.Machine.execVtRecompute s
  | .avsVoltageConfirmed => Sys2Proof.Machine.execAvsVoltageConfirmed s
  | .pwrAvsTimeout => Sys2Proof.Machine.execPwrAvsTimeout s
  | .regStatusRead sts => Sys2Proof.Machine.execRegStatusRead sts s
  | .pwrAvsRelease v => Sys2Proof.Machine.execPwrAvsRelease v s
  | .pair m => Sys2Proof.Machine.execPair m s
  | .pcieLinkDown => Sys2Proof.Machine.execPcieLinkDown s
  | .bar0Write off be v => Sys2Proof.Machine.execBar0Write off be v s
  | .stagedRegWrite off be v => Sys2Proof.Machine.execStagedRegWrite off be v s
  | .sqTail c be v => Sys2Proof.Machine.execSqTail c be v s
  | .cqHead c be v => Sys2Proof.Machine.execCqHead c be v s
  | .ringEnable c v => Sys2Proof.Machine.execRingEnable c v s
  | .ringDisable c v => Sys2Proof.Machine.execRingDisable c v s
  | .hstRlySelWrite w v => Sys2Proof.Machine.execHstRlySelWrite w v s
  | .relayAccess w off acc => Sys2Proof.Machine.execRelayAccess w off acc s
  | .relayTimeout tag => Sys2Proof.Machine.execRelayTimeout tag s
  | .msixUnmask vec => Sys2Proof.Machine.execMsixUnmask vec s
  | .descriptorFetch c => Sys2Proof.Machine.execDescriptorFetch c s
  | .descriptorHead c => Sys2Proof.Machine.execDescriptorHead c s
  | .readyTimeout c => Sys2Proof.Machine.execReadyTimeout c s
  | .descriptorUnhold c => Sys2Proof.Machine.execDescriptorUnhold c s
  | .hostMemFault w => Sys2Proof.Machine.execHostMemFault w s
  | .irqTimer c => Sys2Proof.Machine.execIrqTimer c s
  | .nop c => Sys2Proof.Machine.execNop c s
  | .stgBegin c => Sys2Proof.Machine.execStgBegin c s
  | .stgCommit c => Sys2Proof.Machine.execStgCommit c s
  | .commitDecide c inFreeze => Sys2Proof.Machine.execCommitDecide c inFreeze s
  | .stgRollback c => Sys2Proof.Machine.execStgRollback c s
  | .regWrite c => Sys2Proof.Machine.execRegWrite c s
  | .regRead c => Sys2Proof.Machine.execRegRead c s
  | .tblLoad c => Sys2Proof.Machine.execTblLoad c s
  | .tblRead c => Sys2Proof.Machine.execTblRead c s
  | .thcComp c => Sys2Proof.Machine.execThcComp c s
  | .thcDecomp c => Sys2Proof.Machine.execThcDecomp c s
  | .plateCreate c => Sys2Proof.Machine.execPlateCreate c s
  | .plateAppend c => Sys2Proof.Machine.execPlateAppend c s
  | .plateClose c => Sys2Proof.Machine.execPlateClose c s
  | .platePlayStart c => Sys2Proof.Machine.execPlatePlayStart c s
  | .platePlayStop c => Sys2Proof.Machine.execPlatePlayStop c s
  | .plateReadPages c => Sys2Proof.Machine.execPlateReadPages c s
  | .plateReadDecoded c => Sys2Proof.Machine.execPlateReadDecoded c s
  | .plateReadEntry c => Sys2Proof.Machine.execPlateReadEntry c s
  | .plateDelete c => Sys2Proof.Machine.execPlateDelete c s
  | .calStepAdc c => Sys2Proof.Machine.execCalStepAdc c s
  | .calStepTimebase c => Sys2Proof.Machine.execCalStepTimebase c s
  | .calStepDacRef c => Sys2Proof.Machine.execCalStepDacRef c s
  | .tmkCalAdc c => Sys2Proof.Machine.execTmkCalAdc c s
  | .tmkCalCrystal c => Sys2Proof.Machine.execTmkCalCrystal c s
  | .calStepStart => Sys2Proof.Machine.execCalStepStart s
  | .calStepEnd m => Sys2Proof.Machine.execCalStepEnd m s
  | .tmkRelay c => Sys2Proof.Machine.execTmkRelay c s
  | .tmkResponse => Sys2Proof.Machine.execTmkResponse s
  | .tmkRelayTimeout => Sys2Proof.Machine.execTmkRelayTimeout s
  | .tmkLinkReturn => Sys2Proof.Machine.execTmkLinkReturn s
  | .volState c => Sys2Proof.Machine.execVolState c s
  | .volHold c => Sys2Proof.Machine.execVolHold c s
  | .volReset c => Sys2Proof.Machine.execVolReset c s
  | .volRole c => Sys2Proof.Machine.execVolRole c s
  | .vcmdTimeout => Sys2Proof.Machine.execVcmdTimeout s
  | .volResetSelf => Sys2Proof.Machine.execVolResetSelf s
  | .stgCmdBegin v => Sys2Proof.Machine.execStgCmdBegin v s
  | .stgCmdCommit v => Sys2Proof.Machine.execStgCmdCommit v s
  | .stgCmdRollback v => Sys2Proof.Machine.execStgCmdRollback v s
  | .forceRollback v => Sys2Proof.Machine.execForceRollback v s
  | .gateArm v => Sys2Proof.Machine.execGateArm v s
  | .gateDisarm v => Sys2Proof.Machine.execGateDisarm v s
  | .stgGateLoWrite v => Sys2Proof.Machine.execStgGateLoWrite v s
  | .resyncEnd table => Sys2Proof.Machine.execResyncEnd table s
  | .frameBoundary => Sys2Proof.Machine.execFrameBoundary s
  | .frameReference => Sys2Proof.Machine.execFrameReference s
  | .genlockSync t lines => Sys2Proof.Machine.execGenlockSync t lines s
  | .genlockNoSignal => Sys2Proof.Machine.execGenlockNoSignal s
  | .camShutterEdge n rising t => Sys2Proof.Machine.execCamShutterEdge n rising t s
  | .aonkMeasure count => Sys2Proof.Machine.execAonkMeasure count s
  | .slotDeadline => Sys2Proof.Machine.execSlotDeadline s
  | .holdDecision => Sys2Proof.Machine.execHoldDecision s
  | .slotScanStart => Sys2Proof.Machine.execSlotScanStart s
  | .rowTime fsErrs bankErrs => Sys2Proof.Machine.execRowTime fsErrs bankErrs s
  | .flitReceive q f => Sys2Proof.Machine.execFlitReceive q f s
  | .sectorForward q sector => Sys2Proof.Machine.execSectorForward q sector s
  | .flitSend q => Sys2Proof.Machine.execFlitSend q s
  | .nakTo q => Sys2Proof.Machine.execNakTo q s
  | .replayTimeout q => Sys2Proof.Machine.execReplayTimeout q s
  | .signalDetect q lanes => Sys2Proof.Machine.execSignalDetect q lanes s
  | .receiverDetect q => Sys2Proof.Machine.execReceiverDetect q s
  | .trainingBlock q lane b => Sys2Proof.Machine.execTrainingBlock q lane b s
  | .trainTo q => Sys2Proof.Machine.execTrainTo q s
  | .cap q f => Sys2Proof.Machine.execCap q f s
  | .capTo q => Sys2Proof.Machine.execCapTo q s
  | .linkDown q => Sys2Proof.Machine.execLinkDown q s
  | .rcvTo q => Sys2Proof.Machine.execRcvTo q s
  | .goodbye q => Sys2Proof.Machine.execGoodbye q s
  | .loopFarSignalLost q => Sys2Proof.Machine.execLoopFarSignalLost q s
  | .loopNesEnter q v => Sys2Proof.Machine.execLoopNesEnter q v s
  | .loopNepEnter q v => Sys2Proof.Machine.execLoopNepEnter q v s
  | .loopExit q v => Sys2Proof.Machine.execLoopExit q v s
  | .rafPrbsWrite q v => Sys2Proof.Machine.execRafPrbsWrite q v s
  | .portSignalWake p => Sys2Proof.Machine.execPortSignalWake p s
  | .counterClearWrite off v => Sys2Proof.Machine.execCounterClearWrite off v s
  | .span p h y0 nrows rowPix data => Sys2Proof.Machine.execSpan p h y0 nrows rowPix data s
  | .wrect p h b => Sys2Proof.Machine.execWrect p h b s
  | .done p h => Sys2Proof.Machine.execDone p h s
  | .pad p => Sys2Proof.Machine.execPad p s
  | .srcSleep p arg => Sys2Proof.Machine.execSrcSleep p arg s
  | .srcWake p arg => Sys2Proof.Machine.execSrcWake p arg s
  | .batStatusFrame g f => Sys2Proof.Machine.execBatStatusFrame g f s
  | .batCmdResp g f => Sys2Proof.Machine.execBatCmdResp g f s
  | .batStLost g => Sys2Proof.Machine.execBatStLost g s
  | .batCmdTimeout g => Sys2Proof.Machine.execBatCmdTimeout g s
  | .batTrainTimeout g => Sys2Proof.Machine.execBatTrainTimeout g s
  | .batCmdWrite v => Sys2Proof.Machine.execBatCmdWrite v s
  | .batCmdRead v => Sys2Proof.Machine.execBatCmdRead v s
  | .pnlSeqStepEnd pins => Sys2Proof.Machine.execPnlSeqStepEnd pins s
  | .pnlPgTimeout => Sys2Proof.Machine.execPnlPgTimeout s
  | .emergTrigger cause => Sys2Proof.Machine.execEmergTrigger cause s
  | .emergStep => Sys2Proof.Machine.execEmergStep s
  | .crackMeasure => Sys2Proof.Machine.execCrackMeasure s
  | .crackMeasureEnd r => Sys2Proof.Machine.execCrackMeasureEnd r s
  | .magPresenceChange p low => Sys2Proof.Machine.execMagPresenceChange p low s
  | .attachStep p r => Sys2Proof.Machine.execAttachStep p r s
  | .nvmeCompletion p tag r => Sys2Proof.Machine.execNvmeCompletion p tag r s
  | .magRemove p cause => Sys2Proof.Machine.execMagRemove p cause s
  | .smartPoll p => Sys2Proof.Machine.execSmartPoll p s
  | .magUnmount p v => Sys2Proof.Machine.execMagUnmount p v s
  | .magFormat p v => Sys2Proof.Machine.execMagFormat p v s
  | .plateStageStart => Sys2Proof.Machine.execPlateStageStart s
  | .engineJobStart e => Sys2Proof.Machine.execEngineJobStart e s
  | .thcOperationEnd e => Sys2Proof.Machine.execThcOperationEnd e s
  | .throttlePauseEnd e => Sys2Proof.Machine.execThrottlePauseEnd e s
  | .thcCfgWrite v => Sys2Proof.Machine.execThcCfgWrite v s
  | .thcBistGo e v => Sys2Proof.Machine.execThcBistGo e v s
  | .swgBistGo v => Sys2Proof.Machine.execSwgBistGo v s
  | .bistEnd unit ok => Sys2Proof.Machine.execBistEnd unit ok s
  | .fstRecal ok0 ok1 => Sys2Proof.Machine.execFstRecal ok0 ok1 s
  | .fstPatrolScrub errs => Sys2Proof.Machine.execFstPatrolScrub errs s
  | .bnkScrub errs => Sys2Proof.Machine.execBnkScrub errs s
  | .bnkRetention => Sys2Proof.Machine.execBnkRetention s
  | .thmSweep reads => Sys2Proof.Machine.execThmSweep reads s
  | .stackSensorRead reads => Sys2Proof.Machine.execStackSensorRead reads s
  | .sweepRateRestore => Sys2Proof.Machine.execSweepRateRestore s
  | .throttleStepTimer => Sys2Proof.Machine.execThrottleStepTimer s
  | .odtCompute => Sys2Proof.Machine.execOdtCompute s
  | .adcRefCorrect => Sys2Proof.Machine.execAdcRefCorrect s
  | .thmOdtHostWrite v => Sys2Proof.Machine.execThmOdtHostWrite v s
  | .tsyncTick t => Sys2Proof.Machine.execTsyncTick t s
  | .tsyncReq q t1 seq t2 t3 => Sys2Proof.Machine.execTsyncReq q t1 seq t2 t3 s
  | .tsyncRsp q t2 t3 seq t4 => Sys2Proof.Machine.execTsyncRsp q t2 t3 seq t4 s
  | .roleAnnTick => Sys2Proof.Machine.execRoleAnnTick s
  | .roleAnn h b => Sys2Proof.Machine.execRoleAnn h b s
  | .roleSet h b => Sys2Proof.Machine.execRoleSet h b s
  | .roleMoved h b => Sys2Proof.Machine.execRoleMoved h b s
  | .roleUnreachable r => Sys2Proof.Machine.execRoleUnreachable r s
  | .alarm h epoch event => Sys2Proof.Machine.execAlarm h epoch event s
  | .bnd h b => Sys2Proof.Machine.execBnd h b s
  | .meas h b => Sys2Proof.Machine.execMeas h b s
  | .hold h b => Sys2Proof.Machine.execHold h b s
  | .vcmdState h b => Sys2Proof.Machine.execVcmdState h b s
  | .vcmdHold h b => Sys2Proof.Machine.execVcmdHold h b s
  | .vcmdReset h b => Sys2Proof.Machine.execVcmdReset h b s
  | .vack h epoch vseq result => Sys2Proof.Machine.execVack h epoch vseq result s
  | .hostReadRequest h b rlen => Sys2Proof.Machine.execHostReadRequest h b rlen s
  | .hostWrite h b => Sys2Proof.Machine.execHostWrite h b s
  | .hostReadData h b => Sys2Proof.Machine.execHostReadData h b s
  | .hostWriteDone h b => Sys2Proof.Machine.execHostWriteDone h b s
  | .hostMsix h b => Sys2Proof.Machine.execHostMsix h b s
  | .hostRelayRead h b => Sys2Proof.Machine.execHostRelayRead h b s
  | .hostRelayWrite h b => Sys2Proof.Machine.execHostRelayWrite h b s
  | .hostRelayReadData h b => Sys2Proof.Machine.execHostRelayReadData h b s
  | .hostRequestFailed h b => Sys2Proof.Machine.execHostRequestFailed h b s
  | .hostRelayTimeout tag => Sys2Proof.Machine.execHostRelayTimeout tag s
  | .tsElection => Sys2Proof.Machine.execTsElection s
  | .tsLost => Sys2Proof.Machine.execTsLost s
  | .parentBndMissing => Sys2Proof.Machine.execParentBndMissing s
  | .meterSecond samples => Sys2Proof.Machine.execMeterSecond samples s
  | .vddTmkDrop r => Sys2Proof.Machine.execVddTmkDrop r s
  | .vddTmkPowerUp => Sys2Proof.Machine.execVddTmkPowerUp s
  | .ident r => Sys2Proof.Machine.execIdent r s
  | .readNow r => Sys2Proof.Machine.execReadNow r s
  | .readLog r => Sys2Proof.Machine.execReadLog r s
  | .readParam r => Sys2Proof.Machine.execReadParam r s
  | .writeParam r ok => Sys2Proof.Machine.execWriteParam r ok s
  | .seal r ok => Sys2Proof.Machine.execSeal r ok s
  | .setWall r => Sys2Proof.Machine.execSetWall r s
  | .note r => Sys2Proof.Machine.execNote r s
  | .calResult r => Sys2Proof.Machine.execCalResult r s
  | .calApplyGref r ok => Sys2Proof.Machine.execCalApplyGref r ok s
  | .calApplyXtal r ok => Sys2Proof.Machine.execCalApplyXtal r ok s
  | .portReadTransfer r => Sys2Proof.Machine.execPortReadTransfer r s
  | .portWriteTimeout => Sys2Proof.Machine.execPortWriteTimeout s
  | .tmkDoseClr v => Sys2Proof.Machine.execTmkDoseClr v s
  | .eventRecordWrite => Sys2Proof.Machine.execEventRecordWrite s
  | .evtRingFault => Sys2Proof.Machine.execEvtRingFault s
  | .evtIrqTimer => Sys2Proof.Machine.execEvtIrqTimer s
  | .evtRheadWrite v => Sys2Proof.Machine.execEvtRheadWrite v s
  | .evtCfgWrite v => Sys2Proof.Machine.execEvtCfgWrite v s
  | .evtAlmPendClear hi v => Sys2Proof.Machine.execEvtAlmPendClear hi v s
  | .evtTrcWrite v => Sys2Proof.Machine.execEvtTrcWrite v s
  | .evtTrcMark v => Sys2Proof.Machine.execEvtTrcMark v s
  | .traceLinkTick => Sys2Proof.Machine.execTraceLinkTick s
  | .wpPtrXWrite be v => Sys2Proof.Machine.execWpPtrXWrite be v s
  | .wpPtrYWrite be v => Sys2Proof.Machine.execWpPtrYWrite be v s
  | .wpDataWrite off be v => Sys2Proof.Machine.execWpDataWrite off be v s
  | .wpWindowWrite k be v => Sys2Proof.Machine.execWpWindowWrite k be v s
  | .wpDataRead => Sys2Proof.Machine.execWpDataRead s
  | .journalApply => Sys2Proof.Machine.execJournalApply s
  | .hostMemoryReadData rid bytes => Sys2Proof.Machine.execHostMemoryReadData rid bytes s
  | .tableRebuildEnd c => Sys2Proof.Machine.execTableRebuildEnd c s
  | .dmuCrcEnd => Sys2Proof.Machine.execDmuCrcEnd s
  | .pcieLinkUp => Sys2Proof.Machine.execPcieLinkUp s
  | .pcieConfigWrite w => Sys2Proof.Machine.execPcieConfigWrite w s
  | .genLoRead pair => Sys2Proof.Machine.execGenLoRead pair s
  | .genlockLine kind h => Sys2Proof.Machine.execGenlockLine kind h s
  | .tmkBadRequest r => Sys2Proof.Machine.execTmkBadRequest r s
  | .vddIoRemoved => Sys2Proof.Machine.execVddIoRemoved s
  | .jtagTckEdge e => Sys2Proof.Machine.execJtagTckEdge e s

end Sys2Proof.Machine
end

