-- ==== Sys2Proof/Machine/Step.lean ====
section
/-! DEFINITION. One step: the command at the front of the queue, or the passing of time where none waits. -/

namespace Sys2Proof.Machine

/-- Take the command at the front of the queue and carry it out; on an empty queue the block idles. (DESIGN CHOICE, log entries 1 and 2.) -/
def step (s : State) : Host.Outcome State Fault Refusal :=
  match s.pending with
  | c :: rest => exec c { s with pending := rest }
  | [] => .next s.idle

/-- `s` with the command that a table word spells put at the front of its queue. (DESIGN CHOICE, log entry 1.) -/
def State.withFetchWord (s : State) (nbits w : Nat) : State :=
  match decodeTableWord nbits w with
  | some c => { s with pending := c :: s.pending }
  | none => s

end Sys2Proof.Machine
end

