-- ==== Sys2Proof/Machine/LineCode.lean ====
section
/-! DEFINITION. What stands on the wires for a flit, a training block and a row that `State.out` names, and the fields of a received flit:
byte layouts, CRCs, lanes and scramblers (R140 to R145, R147, R355, R358 to R361). -/

namespace Sys2Proof.Machine

/-! ## Scramblers -/

/-- One step of the additive shift register of generator x^n + x^k + 1 that holds `x`: the bit it gives, and what it holds next.
(DEDUCED, log entry 65.) -/
def lfsrStep (n k x : Nat) : Bool × Nat :=
  (x.testBit (n - 1), (2 * x + (if x.testBit (n - 1) != x.testBit (k - 1) then 1 else 0)) % 2 ^ n)

/-- The next `m` bits of the register. -/
def lfsrBits (n k : Nat) : Nat → Nat → List Bool
  | 0, _ => []
  | m + 1, x => (lfsrStep n k x).1 :: lfsrBits n k m (lfsrStep n k x).2

/-- Bits XORed with the sequence of a register. -/
def scrambled (n k seed : Nat) (bits : List Bool) : List Bool :=
  (bits.zip (lfsrBits n k bits.length seed)).map (fun e => e.1 != e.2)

/-! ## Flits (R140 to R145) -/

/-- A sector: its control word, its payload bytes and their CRC (R142). -/
def sectorBytes (ctl : Nat) (payload : List Byte) : List Byte :=
  let b := leBytes 2 ctl ++ payload
  b ++ beBytes 2 (crc16 b)

/-- The control words of a flit that the device sends; no ingress packet starts in it (R143). -/
def ctlWords (ftype seq ackType ackSeq credit : Nat) : List Nat :=
  [ftype * 4096 + seq, ackType * 16384 + ackSeq, credit, 0x1FF]

/-- The 320 bytes of a flit; its payload is padded with 0 (R142). (DESIGN CHOICE, log entry 64.) -/
def flitBytes (ftype seq ackType ackSeq credit : Nat) (payload : List Byte) : List Byte :=
  let p := (payload ++ List.replicate 304 0).take 304
  (List.range 4).flatMap (fun k => sectorBytes ((ctlWords ftype seq ackType ackSeq credit).getD k 0) (slice (76 * k) 76 p))

/-- Whether sector k of 320 received bytes passes its CRC. -/
def sectorOk (b : List Byte) (k : Nat) : Bool :=
  crc16 (slice (80 * k) 78 b) == 256 * (b.getD (80 * k + 78) 0).toNat + (b.getD (80 * k + 79) 0).toNat

/-- The payload bytes of 320 received bytes. -/
def flitPayload (b : List Byte) : List Byte := (List.range 4).flatMap (fun k => slice (80 * k + 2) 76 b)

/-- What FLIT_RECEIVE states of 320 received bytes (R142, R143). (DESIGN CHOICE, log entry 64.) -/
def flitOf (b : List Byte) : Flit :=
  let ctl (k : Nat) := leAt (80 * k) 2 b
  { good := BitVec.ofNat 4 (((List.range 4).map (fun k => if sectorOk b k then 2 ^ k else 0)).sum)
    ftype := BitVec.ofNat 4 (ctl 0 / 4096)
    seq := BitVec.ofNat 12 (ctl 0)
    ackType := BitVec.ofNat 2 (ctl 1 / 16384)
    ackSeq := BitVec.ofNat 12 (ctl 1)
    credit := BitVec.ofNat 12 (ctl 2)
    pktOff := BitVec.ofNat 9 (ctl 3)
    payload := flitPayload b }

/-- The bytes of a flit that travel on logical lane l at width w (R140). -/
def laneOf (w l : Nat) (b : List Byte) : List Byte := (b.zipIdx.filter (fun e => e.2 % w == l)).map (·.1)

/-- A byte's bits as sent, [7:6] first. (DEDUCED, log entry 65.) -/
def sentBits (b : Byte) : List Bool := (List.range 8).map (fun k => b.toNat.testBit (7 - k))

/-- The level of a bit pair (R140). -/
def grayLevel (hi lo : Bool) : Int := if hi then (if lo then 1 else 3) else (if lo then -1 else -3)

/-- Bits as levels, two bits a symbol. -/
def levels : List Bool → List Int
  | a :: b :: t => grayLevel a b :: levels t
  | _ => []

/-- The levels on logical lane l of the flits sent since the last training sequence (R140, R141). (DESIGN CHOICE, log entry 64.) -/
def laneLevels (w l : Nat) (flits : List (List Byte)) : List Int :=
  levels (scrambled 31 28 (0x7FFFFF00 + l) (flits.flatMap (fun f => (laneOf w l f).flatMap sentBits)))

/-! ## Training blocks (R147) -/

def trainMarker : List Int :=
  List.replicate 8 3 ++ List.replicate 8 (-3) ++ List.replicate 4 3 ++ List.replicate 4 (-3) ++ [3, 3, -3, -3, 3, -3, 3, -3]

/-- The next bit and state of the PRBS13 generator x^13 + x^12 + x^2 + x + 1. (DEDUCED, log entry 65.) -/
def prbs13 : Nat → Nat → List Bool
  | 0, _ => []
  | m + 1, x =>
    let fb := (x.testBit 12 != x.testBit 11) != (x.testBit 1 != x.testBit 0)
    x.testBit 12 :: prbs13 m ((2 * x + (if fb then 1 else 0)) % 8192)

/-- The 1,024 symbols of a training block whose PRBS13 section goes on from state `x`. (DESIGN CHOICE, log entry 64.) -/
def trainBlock (word x : Nat) : List Int :=
  trainMarker ++ (List.range 16).flatMap (fun k => if word.testBit k then [3, -3] else [-3, 3]) ++ levels (prbs13 1920 x)

/-! ## The Touchmark port (R566) -/

/-- The levels of SDA for the bytes of a transfer: each most significant bit first, then the ninth clock, low where it is acknowledged
(R566). -/
def portBits (bytes : List Byte) (acks : List Bool) : List Bool := (bytes.zip acks).flatMap (fun e => sentBits e.1 ++ [!e.2])

/-! ## Rows on the Batten lanes (R355, R358 to R361) -/

/-- The order in which a half-pipe takes the pixels of a row of width w for d drivers (R355). (DEDUCED, log entry 87.) -/
def scanSeq (w d : Nat) : List Nat :=
  let o := 3 * w / d
  let a := spanFirst o
  let n := (List.range d).foldl (fun m j => max m (a (j + 1) - a j)) 0
  (List.range n).flatMap (fun step => (List.range d).filterMap (fun j =>
    if n + a j ≤ a (j + 1) + step then some (a (j + 1) + step - n) else none))

/-- What BAT_STATUS_FRAME states of the 15 bytes of a STATUS frame, and BAT_CMD_RESP of those of a CMD_RESP; none for a reserved TYPE, whose frame
is discarded (R364). (DESIGN CHOICE, log entry 64.) -/
def batFrameOf (b : List Byte) : Option (BatStatus ⊕ BatResp) :=
  let ok := crc16 (b.take 13) == beNat (slice 13 2 b)
  let f (k : Nat) : Bool := (leAt 2 1 b).testBit k
  match leAt 0 1 b with
  | 1 => some (.inl
      { valid := ok, lock := f 0, short := f 1, rowCrc := f 2, blkErr := f 3, otw := f 4
        shortOut := BitVec.ofNat 10 (leAt 3 2 b), shortN := BitVec.ofNat 8 (leAt 5 1 b)
        crcY := BitVec.ofNat 11 (leAt 6 2 b), temp := BitVec.ofNat 16 (leAt 8 2 b) })
  | 2 => some (.inr
      { valid := ok, tag := BitVec.ofNat 8 (leAt 2 1 b), result := BitVec.ofNat 8 (leAt 3 1 b)
        data := word (leAt 5 4 b) })
  | _ => none

/-- The blocks of a driver's stream that lane l carries: block n is on lane n mod 2 (R358). -/
def batLane (l : Nat) (blocks : List (List Byte)) : List (List Byte) := (blocks.zipIdx.filter (fun e => e.2 % 2 == l)).map (·.1)

/-- A block's 16 payload bytes: those given, then 0 (R360). -/
def blockBytes16 (b : List Byte) : List Byte := (b ++ List.replicate 16 0).take 16

/-- The ROW block of a row (R360). (DESIGN CHOICE, log entry 64.) -/
def rowBlock (y rot o : Nat) : List Byte := blockBytes16 ([0x11] ++ leBytes 2 y ++ [BitVec.ofNat 8 rot] ++ leBytes 2 o)

/-- The payload bytes of a row's data blocks: 14 bits a code, padded with 0 to whole blocks (R361). (DESIGN CHOICE, log entry 64.) -/
def rowData (codes : List Nat) : List Byte :=
  let b := packBits (codes.flatMap (natBits 14))
  b ++ List.replicate (16 * ceilDiv (14 * codes.length) 128 - b.length) 0

/-- The LOAD block that ends a row (R360, R361); dly is DLY (R362). (DESIGN CHOICE, log entry 64.) -/
def loadBlock (codes : List Nat) (dly : Nat) : List Byte :=
  blockBytes16 ([0x12] ++ beBytes 2 (crc16 (rowData codes)) ++ [BitVec.ofNat 8 dly])

/-- The CMD, TRAIN, START and IDLE blocks (R360). -/
def cmdBlock (op tag addr : Nat) (data : Word) : List Byte :=
  blockBytes16 ([0x13, BitVec.ofNat 8 op, BitVec.ofNat 8 tag, BitVec.ofNat 8 addr] ++ leBytes 4 data.toNat)
def batTrainBlock (lane g count : Nat) : List Byte :=
  [0x01, BitVec.ofNat 8 lane, BitVec.ofNat 8 g, BitVec.ofNat 8 count] ++ List.replicate 12 0x4B
def startBlock : List Byte := blockBytes16 [0x02]
def idleBlock : List Byte := blockBytes16 [0x10]

/-- The bits of a block as sent: the sync header, then the payload, each byte least significant bit first (R358). -/
def blockBits (control : Bool) (payload : List Byte) : List Bool := [control, !control] ++ payload.flatMap (fun b => natBits 8 b.toNat)

/-- The payload bits of the blocks that lane l carries after START (R359). (DESIGN CHOICE, log entry 64.) -/
def batScrambled (lane : Nat) (payloads : List (List Byte)) : List Bool :=
  scrambled 23 18 (0x7FFF00 + lane) (payloads.flatMap (fun p => p.flatMap (fun b => natBits 8 b.toNat)))

end Sys2Proof.Machine
end

