-- ==== Sys2Proof/WellFormed.lean ====
section
/-! DEFINITION. Which commands the outside can send: the limits on their operands that the types do not hold. -/

namespace Sys2Proof

/-- An offset of BAR0: 16 MiB, aligned 32-bit accesses (R84, R85). -/
def regOffset (off : Nat) : Bool := decide (off < 0x1000000) && decide (off % 4 = 0)

/-- A request aimed at a domain. -/
def requestOk (r : DomainRequest) : Bool :=
  match r with
  | .write off _ _ => regOffset off
  | .read off => regOffset off
  | .internal _ => true

/-- A message of the pair link carries voltage codes of PWR_VSET (R76, R78). -/
def pairOk (m : PairMsg) : Bool :=
  match m with
  | .request c => decide (c < 256)
  | .rate c => decide (c < 256)
  | .confirm c => decide (c < 256)
  | .stepDown _ => true

/-- A descriptor of a ring of at most 65,536 entries (R87). -/
def faultPlaceOk (w : HostFaultAt) : Bool :=
  match w with
  | .read _ => true
  | .completion _ => true
  | .dataWrite _ idx => decide (idx < 65536)

/-- A 32-byte unit of the 32 GiB frame store (R208). -/
def readErrorOk (e : ReadError) : Bool := decide (e.unit < 2 ^ 30)

/-- What a slot of the meter's log holds is 64 bytes (R550). -/
def cutOk (r : PowerCut) : Bool :=
  match r with
  | .held => true
  | .cut slot => slot.length == 64

/-- A frame is at most 4,096 bytes, 6 of them beside the payload; bit 0 of an address byte tells a read from a write (R566, R567). -/
def meterReqOk (r : MeterReq) : Bool :=
  match r with
  | .port addr _ payload => decide (payload.length ≤ 4090) && addr.toNat % 2 == 0
  | .relay => true

/-- Bit 0 of an address byte tells a read from a write (R566). -/
def badReqOk (r : BadReq) : Bool :=
  match r with
  | .port addr _ => addr.toNat % 2 == 0
  | .relay => true

/-- Configuration space is 4 KiB. -/
def configOk (w : ConfigWrite) : Bool :=
  match w with
  | .msix _ _ => true
  | .command _ _ => true
  | .powerState _ => true
  | .other off _ => decide (off < 4096) && decide (off % 4 = 0)

/-- Whether the operands of a command lie within their limits. (DESIGN CHOICE, log entry 18.) -/
def Instr.wf (i : Instr) : Bool :=
  match i with
  | .supplyReset => true
  | .porstNAssert => true
  | .warmrstNAssert => true
  | .pciePerstNAssert => true
  | .gblResetWrite _ => true
  | .warmResetRelease => true
  | .panelOffTimeout => true
  | .hostPortResetEnd => true
  | .strapSample _ => true
  | .startupStepEnd step _ => decide (1 ≤ step) && decide (step ≤ 15)
  | .startupRailTimeout _ => true
  | .pwrReqActive _ => true
  | .pwrReqStandby _ => true
  | .pwrReqDormant _ => true
  | .dormantEntry => true
  | .dormantWake _ => true
  | .dormantWakeEnd _ => true
  | .domainWakeRequest r => requestOk r
  | .domainOn _ => true
  | .pwrWakeFail _ => true
  | .domainAutoOff _ => true
  | .vtRecompute => true
  | .avsVoltageConfirmed => true
  | .pwrAvsTimeout => true
  | .regStatusRead _ => true
  | .pwrAvsRelease _ => true
  | .pair m => pairOk m
  | .pcieLinkDown => true
  | .bar0Write off _ _ => regOffset off
  | .stagedRegWrite off _ _ => regOffset off
  | .sqTail _ _ _ => true
  | .cqHead _ _ _ => true
  | .ringEnable _ _ => true
  | .ringDisable _ _ => true
  | .hstRlySelWrite _ _ => true
  | .relayAccess _ off _ => decide (off < 0x80000) && decide (off % 4 = 0)
  | .relayTimeout tag => decide (tag < 65536)
  | .msixUnmask _ => true
  | .descriptorFetch _ => true
  | .descriptorHead _ => true
  | .readyTimeout _ => true
  | .descriptorUnhold _ => true
  | .hostMemFault w => faultPlaceOk w
  | .irqTimer _ => true
  | .nop _ => true
  | .stgBegin _ => true
  | .stgCommit _ => true
  | .commitDecide _ _ => true
  | .stgRollback _ => true
  | .regWrite _ => true
  | .regRead _ => true
  | .tblLoad _ => true
  | .tblRead _ => true
  | .thcComp _ => true
  | .thcDecomp _ => true
  | .plateCreate _ => true
  | .plateAppend _ => true
  | .plateClose _ => true
  | .platePlayStart _ => true
  | .platePlayStop _ => true
  | .plateReadPages _ => true
  | .plateReadDecoded _ => true
  | .plateReadEntry _ => true
  | .plateDelete _ => true
  | .calStepAdc _ => true
  | .calStepTimebase _ => true
  | .calStepDacRef _ => true
  | .tmkCalAdc _ => true
  | .tmkCalCrystal _ => true
  | .calStepStart => true
  | .calStepEnd _ => true
  | .tmkRelay _ => true
  | .tmkResponse => true
  | .tmkRelayTimeout => true
  | .tmkLinkReturn => true
  | .volState _ => true
  | .volHold _ => true
  | .volReset _ => true
  | .volRole _ => true
  | .vcmdTimeout => true
  | .volResetSelf => true
  | .stgCmdBegin _ => true
  | .stgCmdCommit _ => true
  | .stgCmdRollback _ => true
  | .forceRollback _ => true
  | .gateArm _ => true
  | .gateDisarm _ => true
  | .stgGateLoWrite _ => true
  | .resyncEnd _ => true
  | .frameBoundary => true
  | .frameReference => true
  | .genlockSync _ _ => true
  | .genlockNoSignal => true
  | .camShutterEdge _ _ _ => true
  | .aonkMeasure _ => true
  | .slotDeadline => true
  | .holdDecision => true
  | .slotScanStart => true
  | .rowTime fsErrs bankErrs => fsErrs.all readErrorOk && bankErrs.all (fun e => decide (e.unit < 8388608))
  | .flitReceive _ f => decide (f.payload.length = 0 ∨ f.payload.length = 304)
  | .sectorForward _ k => decide (k.payload.length = 0 ∨ k.payload.length = 76)
  | .flitSend _ => true
  | .nakTo _ => true
  | .replayTimeout _ => true
  | .signalDetect _ _ => true
  | .receiverDetect _ => true
  | .trainingBlock _ _ _ => true
  | .trainTo _ => true
  | .cap _ _ => true
  | .capTo _ => true
  | .linkDown _ => true
  | .rcvTo _ => true
  | .goodbye _ => true
  | .loopFarSignalLost _ => true
  | .loopNesEnter _ _ => true
  | .loopNepEnter _ _ => true
  | .loopExit _ _ => true
  | .rafPrbsWrite _ _ => true
  | .portSignalWake _ => true
  | .counterClearWrite off _ => regOffset off
  | .span _ _ _ _ _ data => decide (data.length < 2 ^ 32)
  | .wrect _ _ _ => true
  | .done _ _ => true
  | .pad _ => true
  | .srcSleep _ _ => true
  | .srcWake _ _ => true
  | .batStatusFrame _ _ => true
  | .batCmdResp _ _ => true
  | .batStLost _ => true
  | .batCmdTimeout _ => true
  | .batTrainTimeout _ => true
  | .batCmdWrite _ => true
  | .batCmdRead _ => true
  | .pnlSeqStepEnd _ => true
  | .pnlPgTimeout => true
  | .emergTrigger _ => true
  | .emergStep => true
  | .crackMeasure => true
  | .crackMeasureEnd _ => true
  | .magPresenceChange _ _ => true
  | .attachStep _ _ => true
  | .nvmeCompletion _ tag _ => decide (tag < 65536)
  | .magRemove _ _ => true
  | .smartPoll _ => true
  | .magUnmount _ _ => true
  | .magFormat _ _ => true
  | .plateStageStart => true
  | .engineJobStart _ => true
  | .thcOperationEnd _ => true
  | .throttlePauseEnd _ => true
  | .thcCfgWrite _ => true
  | .thcBistGo _ _ => true
  | .swgBistGo _ => true
  | .bistEnd _ _ => true
  | .fstRecal _ _ => true
  | .fstPatrolScrub errs => errs.all readErrorOk
  | .bnkScrub errs => errs.all (fun e => decide (e.unit < 8388608))
  | .bnkRetention => true
  | .thmSweep reads => reads.length == 28
  | .stackSensorRead reads => reads.length == 4
  | .sweepRateRestore => true
  | .throttleStepTimer => true
  | .odtCompute => true
  | .adcRefCorrect => true
  | .thmOdtHostWrite _ => true
  | .tsyncTick _ => true
  | .tsyncReq _ _ _ _ _ => true
  | .tsyncRsp _ _ _ _ _ => true
  | .roleAnnTick => true
  | .roleAnn _ _ => true
  | .roleSet _ _ => true
  | .roleMoved _ _ => true
  | .roleUnreachable _ => true
  | .alarm _ _ _ => true
  | .bnd _ _ => true
  | .meas _ _ => true
  | .hold _ _ => true
  | .vcmdState _ _ => true
  | .vcmdHold _ _ => true
  | .vcmdReset _ _ => true
  | .vack _ _ _ _ => true
  | .hostReadRequest _ b rlen => b.data.isEmpty && decide (1 ≤ rlen.toNat) && decide (rlen.toNat ≤ 4096)
  | .hostWrite _ b => decide (1 ≤ b.data.length) && decide (b.data.length ≤ 48)
  | .hostReadData _ b => decide (1 ≤ b.data.length) && decide (b.data.length ≤ 48)
  | .hostWriteDone _ b => b.data.isEmpty
  | .hostMsix _ b => b.data.length == 4
  | .hostRelayRead _ b => b.data.isEmpty
  | .hostRelayWrite _ b => b.data.length == 4
  | .hostRelayReadData _ b => b.data.isEmpty || b.data.length == 4
  | .hostRequestFailed _ b => b.data.isEmpty
  | .hostRelayTimeout tag => decide (tag < 65536)
  | .tsElection => true
  | .tsLost => true
  | .parentBndMissing => true
  | .meterSecond samples => samples.length == 4096
  | .vddTmkDrop r => cutOk r
  | .vddTmkPowerUp => true
  | .ident r => meterReqOk r
  | .readNow r => meterReqOk r
  | .readLog r => meterReqOk r
  | .readParam r => meterReqOk r
  | .writeParam r _ => meterReqOk r
  | .seal r _ => meterReqOk r
  | .setWall r => meterReqOk r
  | .note r => meterReqOk r
  | .calResult r => meterReqOk r
  | .calApplyGref r _ => meterReqOk r
  | .calApplyXtal r _ => meterReqOk r
  | .portReadTransfer r => r.addr.toNat % 2 == 1
  | .portWriteTimeout => true
  | .tmkDoseClr _ => true
  | .eventRecordWrite => true
  | .evtRingFault => true
  | .evtIrqTimer => true
  | .evtRheadWrite _ => true
  | .evtCfgWrite _ => true
  | .evtAlmPendClear _ _ => true
  | .evtTrcWrite _ => true
  | .evtTrcMark _ => true
  | .traceLinkTick => true
  | .wpPtrXWrite _ _ => true
  | .wpPtrYWrite _ _ => true
  | .wpDataWrite off _ _ => decide (off < 0x10000) && decide (off % 4 = 0)
  | .wpWindowWrite _ _ _ => true
  | .wpDataRead => true
  | .journalApply => true
  | .hostMemoryReadData _ _ => true
  | .tableRebuildEnd _ => true
  | .dmuCrcEnd => true
  | .pcieLinkUp => true
  | .pcieConfigWrite w => configOk w
  | .genLoRead _ => true
  | .genlockLine _ _ => true
  | .tmkBadRequest r => badReqOk r
  | .vddIoRemoved => true
  | .jtagTckEdge _ => true

end Sys2Proof
end

