-- ==== Sys2Proof/Safety.lean ====
section
/-! DEFINITION. What the claims call a sound state, and what a step may leave unchanged, in the terms that the statements use. -/

namespace Sys2Proof.Machine

/-- The register file is in its canonical form: offsets strictly rising, and no entry equal to the register's reset value (R7, R49). Equal
register files are then equal data. -/
def State.regsOk (s : State) : Bool := awf (resetWord s.part) s.regs

/-- Every waiting command is one that the outside can send. -/
def State.queueOk (s : State) : Bool := s.pending.all Instr.wf

/-- The registers that an event can change (R576, R582, R584, R585). -/
def eventRegs : List Nat := [Reg.EVT_STAT, Reg.EVT_CNT_LOST, Reg.EVT_TRC_TRIG, Reg.EVT_TRC_POS, Reg.EVT_TRC_DROP]

/-- The registers that alarm `n` can change (R580). -/
def alarmRegs (n : Nat) : List Nat :=
  [Reg.EVT_ALM_PEND_LO, Reg.EVT_ALM_AON n, Reg.EVT_ALM_INFO n, Reg.EVT_ALM_CODE n] ++ eventRegs

/-- The registers that writing completions of client `c` can change (R91, R104, R583). -/
def cplRegs (c : Nat) : List Nat := [Reg.HST_CSTAT c, Reg.HST_CPOS c, Reg.EVT_TRC_DROP]

/-- The registers outside the offsets of `l` read the same in both states. -/
def SameRegs (s t : State) (l : List Nat) : Prop := ∀ off, off ∉ l → t.reg off = s.reg off

/-- The areas of the state: the register file, each family's own state, the inside of the seal (`tmk`) and the requests held for it
(`relay`), what went out, and the queue. -/
inductive Area where
  | part | regs | rst | pwr | hst | stg | tabs | evt | gen | rdg | fst | links | thm | drv | pipe | cal
  | pnl | hrt | bnk | win | mag | thc | tmk | relay | jtag | fmask | aon | freeN | fsEpoch | out | pending
  deriving DecidableEq, Repr

/-- What lies inside the seal (R543): the meter, without the requests that the relay holds for it. -/
def State.meter (s : State) : MeterState := { s.tmk with relays := [], relayResp := none }

/-- Area `a` is the same in both states. -/
def AreaSame (s t : State) : Area → Prop
  | .part => t.part = s.part
  | .regs => t.regs = s.regs
  | .rst => t.rst = s.rst
  | .pwr => t.pwr = s.pwr
  | .hst => t.hst = s.hst
  | .stg => t.stg = s.stg
  | .tabs => t.tabs = s.tabs
  | .evt => t.evt = s.evt
  | .gen => t.gen = s.gen
  | .rdg => t.rdg = s.rdg
  | .fst => t.fst = s.fst
  | .links => t.links = s.links
  | .thm => t.thm = s.thm
  | .drv => t.drv = s.drv
  | .pipe => t.pipe = s.pipe
  | .cal => t.cal = s.cal
  | .pnl => t.pnl = s.pnl
  | .hrt => t.hrt = s.hrt
  | .bnk => t.bnk = s.bnk
  | .win => t.win = s.win
  | .mag => t.mag = s.mag
  | .thc => t.thc = s.thc
  | .tmk => t.meter = s.meter
  | .relay => t.tmk.relays = s.tmk.relays ∧ t.tmk.relayResp = s.tmk.relayResp
  | .jtag => t.jtag = s.jtag
  | .fmask => t.fmask = s.fmask
  | .aon => t.aon = s.aon
  | .freeN => t.freeN = s.freeN
  | .fsEpoch => t.fsEpoch = s.fsEpoch
  | .out => t.out = s.out
  | .pending => t.pending = s.pending

/-- Every area but those of `l` is the same in both states. -/
def Untouched (s t : State) (l : List Area) : Prop := ∀ a, a ∉ l → AreaSame s t a

/-- Everything but the part, the queue and the inside of the seal. -/
def wide : List Area :=
  [.regs, .rst, .pwr, .hst, .stg, .tabs, .evt, .gen, .rdg, .fst, .links, .thm, .drv, .pipe, .cal, .pnl, .hrt, .bnk,
   .win, .mag, .thc, .jtag, .fmask, .aon, .freeN, .fsEpoch, .out, .relay]

/-- The areas that a command can change: every other area it leaves as it was, whatever the state. -/
def reach : Instr → List Area
  | .supplyReset | .porstNAssert | .warmrstNAssert | .gblResetWrite _ | .panelOffTimeout | .domainOn _ | .pwrWakeFail _
  | .bar0Write _ _ _ | .stagedRegWrite _ _ _ | .relayAccess _ _ _ | .relayTimeout _ | .volResetSelf | .counterClearWrite _ _
  | .pnlSeqStepEnd _ | .pnlPgTimeout | .emergStep | .roleMoved _ _ | .vcmdReset _ _ | .hostReadData _ _ | .hostRelayWrite _ _
  | .hostRelayReadData _ _ | .hostRequestFailed _ _ | .hostMemoryReadData _ _ | .vddIoRemoved => wide
  | .pciePerstNAssert => [.regs, .rst, .pwr, .hst, .stg, .tabs, .evt, .rdg, .links, .cal, .win, .mag, .thc, .relay, .out]
  | .warmResetRelease => [.rst]
  | .hostPortResetEnd => [.regs, .rst, .hst, .rdg, .links, .out]
  | .strapSample _ | .startupRailTimeout _ =>
    [.regs, .rst, .pwr, .hst, .stg, .evt, .gen, .rdg, .links, .thm, .drv, .cal, .pnl, .bnk, .mag, .thc, .relay, .out]
  | .startupStepEnd _ _ =>
    [.regs, .rst, .pwr, .hst, .stg, .evt, .gen, .rdg, .fst, .links, .thm, .drv, .cal, .pnl, .bnk, .mag, .thc, .relay, .out]
  | .pwrReqActive _ | .pwrReqStandby _ | .pwrReqDormant _ =>
    [.regs, .pwr, .hst, .evt, .rdg, .fst, .links, .thm, .cal, .pnl, .mag, .thc, .out]
  | .dormantEntry =>
    [.regs, .pwr, .hst, .stg, .tabs, .evt, .gen, .rdg, .fst, .links, .thm, .drv, .pnl, .bnk, .win, .mag, .thc, .fmask, .freeN, .out]
  | .dormantWake _ => [.regs, .pwr]
  | .dormantWakeEnd _ =>
    [.regs, .pwr, .hst, .tabs, .evt, .gen, .rdg, .fst, .links, .thm, .pipe, .pnl, .bnk, .win, .mag, .thc, .fmask, .aon, .fsEpoch, .out]
  | .domainWakeRequest _ | .thcCfgWrite _ | .swgBistGo _ => [.regs, .pwr, .evt, .links, .out]
  | .domainAutoOff _ => [.regs, .pwr, .hst, .evt, .rdg, .links, .thm, .bnk, .out]
  | .vtRecompute => [.regs, .pwr, .out]
  | .avsVoltageConfirmed | .pair _ => [.regs, .pwr, .hst, .rdg, .links, .out]
  | .pwrAvsTimeout | .pwrAvsRelease _ => [.regs, .pwr, .evt, .out]
  | .regStatusRead _ => [.regs, .pwr, .hst, .evt, .rdg, .links, .out]
  | .pcieLinkDown | .hostReadRequest _ _ _ | .pcieConfigWrite _ => [.regs, .hst, .rdg, .links, .out]
  | .sqTail _ _ _ | .cqHead _ _ _ | .tmkLinkReturn | .eventRecordWrite => [.regs, .hst, .evt, .rdg, .links, .out]
  | .ringEnable _ _ | .ringDisable _ _ | .readyTimeout _ | .nop _ | .stgBegin _ | .stgCommit _ | .stgRollback _ | .plateReadEntry _
  | .volState _ | .volHold _ | .volReset _ | .vcmdTimeout | .vack _ _ _ _ | .hostWriteDone _ _ =>
    [.regs, .hst, .stg, .tabs, .evt, .rdg, .links, .win, .out]
  | .hstRlySelWrite _ _ => [.regs, .hst, .evt]
  | .msixUnmask _ | .descriptorFetch _ | .irqTimer _ | .regWrite _ | .regRead _ | .tmkRelay _ => [.hst, .rdg, .links, .out]
  | .descriptorHead _ => [.regs, .hst, .stg, .tabs, .evt, .rdg, .links, .cal, .win, .thc, .out]
  | .descriptorUnhold _ => [.hst, .cal, .thc]
  | .hostMemFault _ | .hostRelayTimeout _ => [.regs, .hst, .stg, .tabs, .evt, .rdg, .links, .win, .mag, .thc, .out]
  | .commitDecide _ _ | .crackMeasureEnd _ | .fstRecal _ _ =>
    [.regs, .pwr, .hst, .stg, .tabs, .evt, .gen, .rdg, .fst, .links, .thm, .drv, .pnl, .hrt, .bnk, .win, .mag, .thc, .fmask, .freeN, .out]
  | .tblLoad _ | .tblRead _ | .resyncEnd _ | .throttleStepTimer =>
    [.regs, .pwr, .hst, .stg, .tabs, .evt, .rdg, .fst, .links, .bnk, .win, .freeN, .out]
  | .thcComp _ | .thcDecomp _ => [.hst, .thc]
  | .plateCreate _ | .plateAppend _ | .plateClose _ | .platePlayStart _ | .platePlayStop _ | .plateReadPages _
  | .plateReadDecoded _ | .plateDelete _ => [.regs, .hst, .stg, .tabs, .evt, .rdg, .links, .win, .mag, .out]
  | .calStepAdc _ | .calStepTimebase _ | .calStepDacRef _ | .tmkCalAdc _ | .tmkCalCrystal _ => [.regs, .hst, .drv, .cal, .out]
  | .calStepStart => [.regs, .drv, .cal, .out]
  | .calStepEnd _ => [.regs, .hst, .stg, .tabs, .evt, .gen, .rdg, .links, .cal, .pnl, .win, .tmk, .relay, .out]
  | .tmkResponse | .tmkRelayTimeout => [.regs, .hst, .stg, .tabs, .evt, .rdg, .links, .win, .relay, .out]
  | .volRole _ | .roleAnn _ _ => [.regs, .pwr, .hst, .stg, .tabs, .evt, .gen, .rdg, .links, .win, .out]
  | .stgCmdBegin _ | .stgCmdCommit _ | .stgCmdRollback _ | .forceRollback _ => [.regs, .stg, .tabs, .evt, .win]
  | .gateArm _ | .gateDisarm _ | .stgGateLoWrite _ | .evtRingFault | .evtRheadWrite _ | .evtCfgWrite _ | .evtTrcMark _ => [.regs, .evt]
  | .frameBoundary =>
    [.regs, .pwr, .hst, .stg, .tabs, .evt, .gen, .rdg, .fst, .links, .thm, .drv, .pipe, .cal, .pnl, .hrt, .bnk, .win, .mag, .thc,
     .fmask, .freeN, .out]
  | .frameReference | .genlockSync _ _ | .genlockNoSignal | .camShutterEdge _ _ _ => [.regs, .evt, .gen]
  | .aonkMeasure _ | .genlockLine _ _ => [.regs, .gen]
  | .slotDeadline => [.regs, .pwr, .hst, .evt, .gen, .rdg, .fst, .links, .hrt, .mag, .out]
  | .holdDecision => [.gen, .rdg, .links, .hrt, .out]
  | .slotScanStart => [.regs, .pwr, .hst, .evt, .gen, .rdg, .fst, .links, .pipe, .hrt, .bnk, .mag, .out]
  | .rowTime _ _ =>
    [.regs, .pwr, .hst, .stg, .tabs, .evt, .gen, .rdg, .fst, .links, .thm, .drv, .pipe, .pnl, .hrt, .bnk, .win, .mag, .thc, .fmask,
     .freeN, .out]
  | .flitReceive _ _ => [.regs, .pwr, .hst, .evt, .rdg, .fst, .links, .thm, .hrt, .bnk, .freeN, .out]
  | .sectorForward _ _ => [.regs, .evt, .fst, .links, .bnk]
  | .flitSend _ | .trainingBlock _ _ _ => [.regs, .pwr, .hst, .evt, .rdg, .links, .thm, .freeN, .out]
  | .nakTo _ | .pad _ => [.links]
  | .replayTimeout _ | .trainTo _ | .cap _ _ | .capTo _ | .linkDown _ | .rcvTo _ | .goodbye _ | .loopFarSignalLost _
  | .portSignalWake _ => [.regs, .pwr, .hst, .evt, .rdg, .links, .thm, .out]
  | .signalDetect _ _ => [.regs, .links, .thm]
  | .receiverDetect _ => [.out]
  | .loopNesEnter _ _ | .loopNepEnter _ _ | .loopExit _ _ => [.regs, .pwr, .evt, .links, .thm, .freeN, .out]
  | .rafPrbsWrite _ _ => [.regs, .pwr, .evt, .links, .freeN, .out]
  | .span _ _ _ _ _ _ | .wrect _ _ _ | .done _ _ => [.regs, .evt, .fst, .links, .hrt, .bnk]
  | .srcSleep _ _ => [.hrt]
  | .srcWake _ _ => [.regs, .evt, .hrt]
  | .batStatusFrame _ _ => [.regs, .hst, .evt, .rdg, .links, .thm, .drv, .pnl, .fmask, .freeN, .out]
  | .batCmdResp _ _ | .batCmdTimeout _ => [.regs, .evt, .drv, .cal, .out]
  | .batStLost _ => [.regs, .evt, .drv]
  | .batTrainTimeout _ => [.regs, .evt, .drv, .out]
  | .batCmdWrite _ | .batCmdRead _ => [.regs, .pwr, .evt, .links, .drv, .out]
  | .emergTrigger _ | .thmSweep _ | .stackSensorRead _ =>
    [.regs, .rst, .pwr, .hst, .stg, .tabs, .evt, .gen, .rdg, .fst, .links, .thm, .drv, .cal, .pnl, .hrt, .bnk, .win, .mag, .thc,
     .relay, .fmask, .freeN, .out]
  | .crackMeasure => [.cal, .pnl, .out]
  | .magPresenceChange _ _ => [.regs, .pwr, .hst, .stg, .tabs, .evt, .rdg, .fst, .links, .thm, .win, .mag, .thc, .out]
  | .attachStep _ _ => [.regs, .hst, .evt, .rdg, .links, .thm, .mag, .out]
  | .nvmeCompletion _ _ _ => [.regs, .pwr, .hst, .stg, .tabs, .evt, .rdg, .fst, .links, .thm, .bnk, .win, .mag, .thc, .out]
  | .magRemove _ _ => [.regs, .hst, .stg, .tabs, .evt, .rdg, .fst, .links, .thm, .win, .mag, .thc, .out]
  | .smartPoll _ => [.regs, .mag, .out]
  | .magUnmount _ _ | .magFormat _ _ => [.regs, .pwr, .hst, .evt, .rdg, .fst, .links, .thm, .mag, .thc, .out]
  | .plateStageStart => [.regs, .fst, .mag, .out]
  | .engineJobStart _ => [.regs, .pwr, .hst, .rdg, .links, .mag, .thc, .out]
  | .thcOperationEnd _ => [.regs, .hst, .stg, .tabs, .evt, .rdg, .fst, .links, .bnk, .win, .mag, .thc, .out]
  | .throttlePauseEnd _ | .bnkRetention | .sweepRateRestore | .dmuCrcEnd => [.regs]
  | .thcBistGo _ _ => [.regs, .pwr, .evt, .links, .thc, .out]
  | .bistEnd _ _ => [.regs, .hst, .evt, .rdg, .links, .thc, .out]
  | .fstPatrolScrub _ => [.regs, .evt, .fst]
  | .bnkScrub _ | .evtTrcWrite _ => [.regs, .evt, .bnk]
  | .odtCompute => [.regs, .thm, .drv]
  | .adcRefCorrect => [.regs, .thm]
  | .thmOdtHostWrite _ => [.regs, .pwr, .evt, .links, .thm, .out]
  | .tsyncTick _ => [.gen, .rdg, .links, .out]
  | .tsyncReq _ _ _ _ _ => [.gen, .links, .out]
  | .tsyncRsp _ _ _ _ _ => [.regs, .evt, .gen, .rdg, .fst, .pnl]
  | .roleAnnTick => [.rdg, .links, .out]
  | .roleSet _ _ | .vcmdState _ _ | .vcmdHold _ _ => [.regs, .rdg, .links, .out]
  | .roleUnreachable _ | .bnd _ _ => [.regs, .evt, .gen, .rdg, .links, .out]
  | .alarm _ _ _ => [.regs, .evt, .rdg, .links, .out]
  | .meas _ _ => [.regs, .gen, .rdg, .links, .out]
  | .hold _ _ => [.regs, .evt, .rdg, .links, .hrt, .out]
  | .hostWrite _ _ | .hostMsix _ _ => [.regs, .links, .out]
  | .hostRelayRead _ _ => [.regs, .pwr, .evt, .gen, .links, .freeN, .out]
  | .tsElection | .tsLost => [.regs, .evt, .gen, .rdg]
  | .parentBndMissing => [.regs, .rdg]
  | .meterSecond _ | .vddTmkDrop _ | .vddTmkPowerUp => [.tmk, .relay]
  | .ident _ | .readNow _ | .readLog _ | .readParam _ | .writeParam _ _ | .seal _ _ | .setWall _ | .note _ | .calResult _
  | .calApplyGref _ _ | .calApplyXtal _ _ | .portReadTransfer _ | .tmkBadRequest _ => [.tmk, .relay, .out]
  | .portWriteTimeout => []
  | .tmkDoseClr _ => [.regs, .pwr, .evt, .links, .pipe, .out]
  | .evtIrqTimer => [.hst, .evt, .rdg, .links, .out]
  | .evtAlmPendClear _ _ => [.regs, .out]
  | .traceLinkTick => [.regs, .evt, .links]
  | .wpPtrXWrite _ _ | .wpPtrYWrite _ _ | .wpDataWrite _ _ _ | .wpWindowWrite _ _ _ | .wpDataRead => [.regs, .evt, .win, .freeN, .out]
  | .journalApply => [.regs, .evt, .fst, .win, .freeN, .out]
  | .tableRebuildEnd _ => [.regs, .hst, .stg, .tabs, .evt, .rdg, .fst, .links, .bnk, .win, .out]
  | .pcieLinkUp => [.regs, .hst, .rdg, .links, .thm, .freeN, .out]
  | .genLoRead _ => [.regs, .pwr, .evt, .gen, .links, .out]
  | .jtagTckEdge _ => [.jtag, .freeN, .out]

/-- The non-volatile storage of the meter is sound: a programmed log slot holds 64 bytes and lies among the 4,096, the head is one of
them (R562, R564), a parameter slot is erased or holds 256 bytes, and the active one is not erased (R551, R553). -/
def MeterState.ok (m : MeterState) : Prop :=
  m.head < 4096 ∧ awf (fun _ => List.replicate 64 0xFF) m.log = true ∧ (∀ e ∈ m.log, e.1 < 4096 ∧ e.2.length = 64)
    ∧ (m.slotA = [] ∨ m.slotA.length = 256) ∧ (m.slotB = [] ∨ m.slotB.length = 256)
    ∧ (m.active = 1 → m.slotA.length = 256) ∧ (m.active = 2 → m.slotB.length = 256) ∧ m.active ≤ 2

end Sys2Proof.Machine
end

