-- ==== Sys2Proof/Certificates/Slice0/Obligations.lean ====
section
/-! DEFINITION. The statements for the provers: what each family of commands does, and what every command and every step keeps. -/

open Sys2Proof Sys2Proof.Machine

/-! ## Every command -/

/-- A step carries out the command at the front of the queue on the state without it; with nothing waiting the block idles, which is the
model's choice (log entry 2). -/
def Obligations.StepRunsFrontCommand : Prop :=
  (∀ (c : Instr) (rest : List Instr) (s : State), s.pending = c :: rest → step s = exec c { s with pending := rest })
  ∧ ∀ s : State, s.pending = [] → step s = .next s.idle

/-- Every command completes in every state: none ends in a fault or a refusal. -/
def Obligations.EveryCommandAnswers : Prop :=
  ∀ (c : Instr) (s : State), ∃ t, exec c s = .next t

/-- A command changes no area of the state beyond those that `reach` names for it; no command changes the part or the queue (R49, R543).
-/
def Obligations.CommandReach : Prop :=
  (∀ (c : Instr) (s t : State), exec c s = .next t → Untouched s t (reach c))
  ∧ ∀ c : Instr, Area.part ∉ reach c ∧ Area.pending ∉ reach c

/-- The commands of the meter itself, and the calibration step that measures for it. -/
def touchesMeter : Instr → Bool
  | .meterSecond _ | .vddTmkDrop _ | .vddTmkPowerUp | .ident _ | .readNow _ | .readLog _ | .readParam _ | .writeParam _ _ | .seal _ _
  | .setWall _ | .note _ | .calResult _ | .calApplyGref _ _ | .calApplyXtal _ _ | .tmkBadRequest _ | .portReadTransfer _
  | .calStepEnd _ => true
  | _ => false

/-- R543: no register, descriptor, reset or device state reaches the inside of the seal, except through the requests of the Touchmark port
protocol; what a step of the device may change there, whatever its state, is then nothing. -/
def Obligations.SealBoundary : Prop :=
  ∀ (c : Instr) (s t : State), touchesMeter c = false → exec c s = .next t → t.meter = s.meter

/-- The meter's non-volatile storage is sound after reset. What goes beyond the rules' words is the model's own (log entry 6). -/
def Obligations.MeterSoundAtReset : Prop := State.reset.tmk.ok

/-- Every step, from every state, keeps the meter's non-volatile storage sound (R551, R553, R562, R564). -/
def Obligations.MeterStaysSound : Prop :=
  ∀ s t : State, s.tmk.ok → step s = .next t → t.tmk.ok

/-- R555: a blown seal fuse stays blown, whatever the command and the state. -/
def Obligations.SealIsForever : Prop :=
  ∀ s t : State, s.tmk.fuse = true → step s = .next t → t.tmk.fuse = true

/-- A register access at `off` through BAR0 reaches the device, and the domain of its block is on (R62, R68, R83). -/
def Reaches (s : State) (off : Nat) : Prop := s.hostReaches = true ∧ s.stallDomain off = none

/-! ## Events, alarms, ready bits and completions -/

/-- R576, R578, R585: an event with the ring enabled joins the pending entry of its code and DATA0 if there is one, and otherwise takes an
entry of its own while fewer than 64 are pending; with the ring disabled it takes none. It changes no register but those of `eventRegs`.
R580: an alarm sets its pending bit, advances its count and, when it is the first of its entry, records the AON counter; it changes no
register but its own, the pending bits and those of an event. -/
def Obligations.EventsAndAlarms : Prop :=
  (∀ (s : State) (code : Nat) (items : List (Nat × Nat)), s.flag Reg.EVT_CFG F.EVT_CFG_EN = true →
      (∀ e ∈ s.evt.pend, ¬(e.code = code ∧ e.d0 = (placeItems items).d0)) → s.evt.pend.length < 64 →
      (s.event code items).evt.pend = s.evt.pend ++
        [⟨code, (placeItems items).d0, (placeItems items).d1, (placeItems items).d2, false, (placeItems items).trunc, 1, s.gen.vt, s.gen.vt⟩])
  ∧ (∀ (s : State) (code : Nat) (items : List (Nat × Nat)) (e : PendEvent) (rest : List PendEvent),
      s.flag Reg.EVT_CFG F.EVT_CFG_EN = true → s.evt.pend = e :: rest → e.code = code → e.d0 = (placeItems items).d0 →
      (s.event code items).evt.pend = { e with count := min (e.count + 1) 0xFFFFFFFF, last := s.gen.vt } :: rest)
  ∧ (∀ (s : State) (code : Nat) (items : List (Nat × Nat)), s.flag Reg.EVT_CFG F.EVT_CFG_EN = false →
      (s.event code items).evt.pend = s.evt.pend)
  ∧ (∀ (s : State) (code : Nat) (items : List (Nat × Nat)), SameRegs s (s.event code items) eventRegs
      ∧ Untouched s (s.event code items) [.regs, .evt])
  ∧ ∀ (s : State) (n : Nat) (items : List (Nat × Nat)), n < 10 →
    bit ((s.alarm n items).reg Reg.EVT_ALM_PEND_LO).toNat n = true
    ∧ (∀ k, k < 32 → k ≠ n → bit ((s.alarm n items).reg Reg.EVT_ALM_PEND_LO).toNat k = bit (s.reg Reg.EVT_ALM_PEND_LO).toNat k)
    ∧ (bit (s.reg Reg.EVT_ALM_PEND_LO).toNat n = false →
        (s.alarm n items).reg (Reg.EVT_ALM_AON n) = word s.aon
        ∧ (s.alarm n items).getF (Reg.EVT_ALM_CODE n) F.EVT_ALM_CODE_COUNT = 1)
    ∧ (bit (s.reg Reg.EVT_ALM_PEND_LO).toNat n = true →
        (s.alarm n items).reg (Reg.EVT_ALM_AON n) = s.reg (Reg.EVT_ALM_AON n)
        ∧ (s.alarm n items).getF (Reg.EVT_ALM_CODE n) F.EVT_ALM_CODE_COUNT
            = min (s.getF (Reg.EVT_ALM_CODE n) F.EVT_ALM_CODE_COUNT + 1) 0xFFFF)
    ∧ SameRegs s (s.alarm n items) (alarmRegs n)
    ∧ Untouched s (s.alarm n items) [.regs, .evt, .hst, .rdg, .links, .out]

/-- The device's own writes to a register file keep it canonical and change the register written alone. R51, R54, R57: setting a ready bit
sets it alone, and sets nothing while the core is off; a set bit that clears outside a reset raises the event with its number. -/
def Obligations.RegistersAndReadyBits : Prop :=
  (∀ (s : State) (off : Nat) (v : Word), s.regsOk = true →
    (s.setReg off v).regsOk = true ∧ (s.setReg off v).reg off = v ∧ SameRegs s (s.setReg off v) [off])
  ∧ (∀ (s : State) (b : Nat), s.coreOff = true → s.setReady b = s)
  ∧ (∀ (s : State) (b : Nat), b < 32 → s.coreOff = false → (s.setReady b).isReady b = true ∧ (∀ k, k < 32 → k ≠ b →
      (s.setReady b).isReady k = s.isReady k)
      ∧ SameRegs s (s.setReady b) [Reg.GBL_READY])
  ∧ (∀ (s : State) (b : Nat), b < 32 → s.isReady b = true → (s.clearReady b).isReady b = false
      ∧ (∀ k, k < 32 → k ≠ b → (s.clearReady b).isReady k = s.isReady k)
      ∧ SameRegs s (s.clearReady b) (Reg.GBL_READY :: eventRegs))
  ∧ ∀ (s : State) (b : Nat), s.isReady b = false → s.clearReady b = s

/-- R104: a descriptor that finishes at the head of its ring order leaves the ring's records, and its completion goes to the tail of the
completion ring, which advances; one that is not the oldest waits as finished. Neither changes another client's ring. -/
def Obligations.CompletionsInOrder : Prop :=
  (∀ (s : State) (c idx : Nat) (d e : Desc) (rest : List Desc) (p : Cpl), c < 256 → s.getF (Reg.HST_CCFG c) F.HST_CCFG_CQ_LOG2 ≤ 10 →
      s.hst.linkUp = true → s.rdg.hostTags = [] → s.rdg.hostWait = [] → p.status = 0 →
      (s.client c).descs = d :: e :: rest → d.idx = idx → e.stage ≠ .finished → e.idx ≠ idx → (s.client c).cqDead = false →
      ((s.finish c idx p).client c).descs.map Desc.idx = (e :: rest).map Desc.idx
      ∧ (s.finish c idx p).getF (Reg.HST_CPOS c) F.HST_CPOS_CQ_TAIL
          = (s.getF (Reg.HST_CPOS c) F.HST_CPOS_CQ_TAIL + 1) % ringSize (s.getF (Reg.HST_CCFG c) F.HST_CCFG_CQ_LOG2))
  ∧ (∀ (s : State) (c idx : Nat) (d e : Desc) (rest : List Desc) (p : Cpl), p.status = 0 →
      (s.client c).descs = d :: e :: rest → e.idx = idx → d.idx ≠ idx → d.stage ≠ .finished →
      ((s.finish c idx p).client c).descs.map Desc.idx = (d :: e :: rest).map Desc.idx
      ∧ (s.finish c idx p).out = s.out)
  ∧ ∀ (s : State) (c k idx : Nat) (p : Cpl), k ≠ c → (s.finish c idx p).client k = s.client k

/-! ## Reset, start-up and the host port -/

/-- The state that R49 restarts with the core: volume time, frame counter, host port, staging unit, tables, commands in flight and the
undefined frame store; the inside of the seal is unaffected. -/
def Restarted (s t : State) : Prop :=
  t.gen.vt = 0 ∧ t.gen.fc = 0 ∧ t.hst = .init ∧ t.stg = .init ∧ t.tabs = [] ∧ t.evt = .init ∧ t.links = [] ∧ t.fsEpoch = s.fsEpoch + 1
    ∧ t.meter = s.meter

/-- R49: what a supply reset and a power-on reset leave. A power-on reset keeps the cause bits and the alarm latch, whose count of
start-ups advances (R580); R48: it is ignored while the same or a stronger class is applied. What goes beyond the rules' words is the
model's own (log entries 3, 4 and 129). -/
def Obligations.SupplyAndPowerOnReset : Prop :=
  (∀ s : State, ∃ t, exec .supplyReset s = .next t ∧ (∀ off, t.reg off = resetWord s.part off)
      ∧ t.reg Reg.GBL_RESET_CAUSE = 0x00010001 ∧ t.aon = 0 ∧ t.rst.applying = some .supply ∧ Restarted s t)
  ∧ (∀ s : State, s.takesReset .powerOn = true → ∃ t, exec .porstNAssert s = .next t
      ∧ t.reg Reg.GBL_RESET_CAUSE = withField F.GBL_RESET_CAUSE_LAST 2
          (withField F.GBL_RESET_CAUSE_COUNT 0 (withField F.GBL_RESET_CAUSE_PORST 1 (s.reg Reg.GBL_RESET_CAUSE)))
      ∧ t.getF Reg.EVT_ALM_BOOT F.EVT_ALM_BOOT_BOOT = min (s.getF Reg.EVT_ALM_BOOT F.EVT_ALM_BOOT_BOOT + 1) 0xFFFF
      ∧ (∀ off, off ≠ Reg.GBL_RESET_CAUSE → off ≠ Reg.EVT_ALM_BOOT →
          t.reg off = if isAlarmReg off then s.reg off else resetWord s.part off)
      ∧ t.aon = 0 ∧ t.rst.applying = some .powerOn ∧ Restarted s t)
  ∧ (∀ s : State, s.takesReset .powerOn = false → exec .porstNAssert s = .next s)

/-- What a warm reset of source `last` leaves (R49, R63): COUNT advances and saturates, the strap values, the alarm latch and the AON
counter are kept, and every other register is at its reset value. -/
def WarmLeft (s t : State) (last : Nat) (bit : Fld) : Prop :=
  t.reg Reg.GBL_RESET_CAUSE = withField F.GBL_RESET_CAUSE_LAST last
      (withField F.GBL_RESET_CAUSE_COUNT (min (s.getF Reg.GBL_RESET_CAUSE F.GBL_RESET_CAUSE_COUNT + 1) 0xFF)
        (withField bit 1 (s.reg Reg.GBL_RESET_CAUSE)))
    ∧ (∀ off, off ≠ Reg.GBL_RESET_CAUSE → t.reg off = if off = Reg.GBL_STRAP ∨ isAlarmReg off then s.reg off else resetWord s.part off)
    ∧ t.aon = s.aon ∧ t.rst.applying = some .warm ∧ Restarted s t

/-- R48 to R50, R52: a warm reset from WARMRST_N and from a write of GBL_RESET, applied at once while no panel rail is on and waiting for
the panel's power-off otherwise; what the panel's time limit adds; and the writes of GBL_RESET that reset nothing. What goes beyond the
rules' words is the model's own (log entries 3 and 23). -/
def Obligations.WarmReset : Prop :=
  (∀ s : State, s.takesReset .warm = true → (s.rst.stopped = true → s.rst.stepsDone ≠ []) → s.panelRails = false →
      ∃ t, exec .warmrstNAssert s = .next t ∧ WarmLeft s t 3 F.GBL_RESET_CAUSE_WARM)
  ∧ (∀ s : State, s.takesReset .warm = true → (s.rst.stopped = true → s.rst.stepsDone ≠ []) → s.panelRails = true →
      ∃ t, exec .warmrstNAssert s = .next t ∧ t.rst.waitPanel = some 3 ∧ t.reg Reg.GBL_RESET_CAUSE = s.reg Reg.GBL_RESET_CAUSE
        ∧ t.hst.linkUp = false)
  ∧ (∀ s : State, ∀ v : Word, fieldOf F.GBL_RESET_GO v = 1 → fieldOf F.GBL_RESET_KEY v = 0xA5C3 → s.hostReaches = true →
      s.takesReset .warm = true →
      s.rst.stopped = false → s.rst.shutdown = false → s.panelRails = false →
      ∃ t, exec (.gblResetWrite v) s = .next t ∧ WarmLeft s t 4 F.GBL_RESET_CAUSE_SOFT)
  ∧ (∀ s : State, ∀ v : Word, fieldOf F.GBL_RESET_GO v = 1 → fieldOf F.GBL_RESET_KEY v ≠ 0xA5C3 → s.hostReaches = true →
      exec (.gblResetWrite v) s = .next (s.event Ev.GBL_RESET_KEY []))
  ∧ (∀ s : State, ∀ v : Word, fieldOf F.GBL_RESET_GO v = 0 → exec (.gblResetWrite v) s = .next s)
  ∧ (∀ s : State, s.rst.waitPanel = some 3 →
      ∃ t, exec .panelOffTimeout s = .next t ∧ t.flag Reg.GBL_RESET_CAUSE F.GBL_RESET_CAUSE_PANEL_TO = true
        ∧ t.flag Reg.GBL_RESET_CAUSE F.GBL_RESET_CAUSE_WARM = true ∧ t.getF Reg.GBL_RESET_CAUSE F.GBL_RESET_CAUSE_LAST = 3
        ∧ t.rst.applying = some .warm ∧ Restarted s t)
  ∧ (∀ s : State, s.rst.applying = some .warm → ∃ t, exec .warmResetRelease s = .next t
      ∧ t = s.onRst (fun r => { r with applying := none, starting := true, stepsDone := [1] }))

/-- R48, R49, R55, R83, R533: the host port's reset and its end, the PCIe link, and its configuration space. The reset discards every
transaction and descriptor, clears the ready bits HST, CAL and TMK and keeps the alarm latch; its end sets them again once the start-up
has passed S5; a device without a host port ignores it. What goes beyond the rules' words is the model's own (log entries 25, 34, 129 and
132). -/
def Obligations.HostPortResetAndLink : Prop :=
  (∀ s : State, s.flag Reg.GBL_STRAP F.GBL_STRAP_HOST_EN = true → s.coreOff = false → s.rst.hostReset = false → s.rst.waitPanel = none →
      s.pwr.dormant = false → (s.pwr.heading = true → s.wakeEnabled 1 = false) →
      ∃ t, exec .pciePerstNAssert s = .next t ∧ t.stg.txns = [] ∧ t.stg.pendings = [] ∧ t.hst.clients = [] ∧ t.hst.linkUp = false
        ∧ t.evt.pend = [] ∧ t.evt.trace = s.evt.trace
        ∧ t.isReady 0 = false ∧ t.isReady 1 = false ∧ t.isReady 2 = false ∧ (∀ b, 3 ≤ b → b < 32 → t.isReady b = s.isReady b)
        ∧ t.getF Reg.GBL_RESET_CAUSE F.GBL_RESET_CAUSE_LAST = 6 ∧ t.flag Reg.GBL_RESET_CAUSE F.GBL_RESET_CAUSE_PERST = true
        ∧ t.getF Reg.GBL_RESET_CAUSE F.GBL_RESET_CAUSE_COUNT = s.getF Reg.GBL_RESET_CAUSE F.GBL_RESET_CAUSE_COUNT
        ∧ t.reg Reg.GBL_STRAP = s.reg Reg.GBL_STRAP
        ∧ ((∀ x ∈ s.stg.txns, x.loads = []) → (∀ x ∈ s.stg.pendings, x.loads = []) →
            ∀ off, isAlarmReg off = true → t.reg off = s.reg off)
        ∧ t.rst.hostReset = true)
  ∧ (∀ s : State, s.flag Reg.GBL_STRAP F.GBL_STRAP_HOST_EN = false → exec .pciePerstNAssert s = .next s)
  ∧ (∀ s : State, s.coreOff = true → exec .pciePerstNAssert s = .next s)
  ∧ (∀ s : State, s.rst.hostReset = true → s.rst.stepsDone.contains 5 = true → s.coreOff = false →
      ∃ t, exec .hostPortResetEnd s = .next t ∧ t.rst.hostReset = false ∧ t.isReady 0 = true ∧ t.isReady 1 = true ∧ t.isReady 2 = true
        ∧ SameRegs s t [Reg.GBL_READY, Reg.TMK_STAT])
  ∧ (∀ s : State, s.rst.hostReset = true → s.rst.stepsDone.contains 5 = false →
      ∃ t, exec .hostPortResetEnd s = .next t ∧ t.rst.hostReset = false ∧ SameRegs s t [])
  ∧ (∀ s : State, s.hst.linkUp = true →
      ∃ t, exec .pcieLinkDown s = .next t ∧ t.hst.linkUp = false ∧ t.hst.msixEnable = false ∧ t.hst.msixMask = false
        ∧ t.hst.busMaster = false ∧ t.hst.d3 = false ∧ t.hst.cfg = [] ∧ SameRegs s t [Reg.HST_MSIX_CTL, Reg.RDG_ROLE, Reg.RDG_HEAD])
  ∧ (∀ s : State, s.hst.linkUp = false → s.flag Reg.GBL_STRAP F.GBL_STRAP_HOST_EN = true → s.isOn 2 = true →
      s.rst.hostReset = false → s.pwr.dormant = false →
      ∃ t, exec .pcieLinkUp s = .next t ∧ t.hst.linkUp = true ∧ t.hst.width ∈ [1, 2, 4, 8] ∧ 1 ≤ t.hst.rate
        ∧ t.hst.rate ≤ (if s.flag Reg.GBL_STRAP F.GBL_STRAP_HOST_SPEED then 4 else 5)
        ∧ SameRegs s t [Reg.HST_MSIX_CTL, Reg.RDG_ROLE, Reg.RDG_HEAD])
  ∧ (∀ s : State, ∀ en mask : Bool, ∃ t, exec (.pcieConfigWrite (.msix en mask)) s = .next t ∧ t.hst.msixEnable = en
        ∧ t.hst.msixMask = mask ∧ SameRegs s t [Reg.HST_MSIX_CTL])
  ∧ (∀ s : State, ∀ bm mem : Bool, ∃ t, exec (.pcieConfigWrite (.command bm mem)) s = .next t ∧ t.hst.busMaster = bm ∧ SameRegs s t [])
  ∧ (∀ s : State, ∀ d3 : Bool, ∃ t, exec (.pcieConfigWrite (.powerState d3)) s = .next t ∧ t.hst.d3 = d3 ∧ SameRegs s t [])
  ∧ (∀ s : State, ∀ off : Nat, ∀ v : Word, s.cfgFixed off = true → exec (.pcieConfigWrite (.other off v)) s = .next s)
  ∧ (∀ s : State, ∀ off : Nat, ∀ v : Word, s.cfgFixed off = false → ∃ t, exec (.pcieConfigWrite (.other off v)) s = .next t
        ∧ aget cfgReset t.hst.cfg off = v &&& word (cfgMask off)
        ∧ (∀ o, o ≠ off → aget cfgReset t.hst.cfg o = aget cfgReset s.hst.cfg o) ∧ SameRegs s t [] ∧ Untouched s t [.hst])
  ∧ (∀ s : State, s.cfgWord 0x00 = 0x64181FB5 ∧ (s.cfgWord 0x08).toNat / 256 = 0x038000 ∧ s.cfgWord 0x0C = 0 ∧ s.cfgWord 0x30 = 0
        ∧ (s.cfgWord 0x2C).toNat % 65536 = 0x1FB5)

/-- What a start-up that stops at `step` leaves (R54, R63): every domain but AON and TMK off, no ready bit, alarm entry 0 pending, the step
and its cause bit recorded. -/
def StartupStopped (s t : State) (step : Nat) (cause : Fld) : Prop :=
  (∀ d, 2 ≤ d → d < 34 → t.isOn d = false) ∧ t.reg Reg.GBL_READY = 0
    ∧ bit (t.reg Reg.EVT_ALM_PEND_LO).toNat 0 = true ∧ t.getF Reg.GBL_RESET_CAUSE F.GBL_RESET_CAUSE_STOP_STEP = step
    ∧ t.flag Reg.GBL_RESET_CAUSE cause = true ∧ t.rst.starting = false ∧ t.rst.stopped = true
    ∧ SameRegs s t (alarmRegs 0 ++ [Reg.GBL_STRAP, Reg.GBL_RESET_CAUSE, Reg.GBL_READY, Reg.PWR_DOM_ON0, Reg.PWR_DOM_ON1]
        ++ (List.range 8).map Reg.BNK_PSTAT ++ (List.range 2).map Reg.THC_ESTAT ++ (List.range 8).map (fun q => lkBase q + 0x10) ++ (List.range 4).map (fun p => Reg.MAG_PSTAT p))

/-- R44, R47, R53, R54: the straps, their rejection, and the time limit of step S2. What goes beyond the rules' words is the model's own
(log entries 16, 21 and 22). -/
def Obligations.StrapsAndStopOfStartup : Prop :=
  (∀ (s : State) (w : BitVec 8), s.rst.applying = some .supply ∨ s.rst.applying = some .powerOn → strapsRejected (word w.toNat) = false →
      ∃ t, exec (.strapSample w) s = .next t ∧ t.reg Reg.GBL_STRAP = word w.toNat ∧ t.rst.applying = none ∧ t.rst.starting = true
        ∧ t.rst.stepsDone = [1] ∧ SameRegs s t [Reg.GBL_STRAP])
  ∧ (∀ (s : State) (w : BitVec 8), s.rst.applying = some .supply ∨ s.rst.applying = some .powerOn → strapsRejected (word w.toNat) = true →
      ∃ t, exec (.strapSample w) s = .next t ∧ t.reg Reg.GBL_STRAP = word w.toNat ∧ StartupStopped s t 1 F.GBL_RESET_CAUSE_STRAP)
  ∧ (∀ s : State, ∀ bad : Bool, s.rst.starting = true → s.rst.stepsDone.contains 1 = true → s.rst.stepsDone.contains 2 = false →
      ∃ t, exec (.startupRailTimeout bad) s = .next t
        ∧ StartupStopped s t 2 (if bad then F.GBL_RESET_CAUSE_REFCLK else F.GBL_RESET_CAUSE_RAIL))

/-- The ready bits that step `n` of R53 sets at its end with result `r`: those of its row, but for a host port in reset (S5), a supply without
AVSBus (S6), a frame store that fails or is missing (S10, S12), functions that are locked off (S13 to S15), and self-tests that fail (S14)
(R53 to R55, R58, R76). -/
def stepReady (s : State) (n : Nat) (r : StepResult) : List Nat :=
  if n = 5 then (if s.rst.hostReset then [] else [0, 1, 2]) else if n = 6 then (if s.noAvs then [3] else []) else if n = 7 then [4]
  else if n = 9 then [5] else if n = 10 then (if r.ok then [6, 17] else []) else if n = 11 then [7, 8]
  else if n = 12 then (if s.isReady 6 then [9] else []) else if n = 13 then [10, 11].filter (fun b => !s.fnAbsent b)
  else if n = 14 then ([(12, r.ok), (13, r.ok1), (14, r.ok2)].filter (fun e => e.2 && !s.fnAbsent e.1)).map (·.1)
  else if n = 15 ∧ s.part = .ba ∧ s.fnAbsent 15 = false then [15] else []

/-- R53 to R55, R58: a step that is due ends, with the ready bits of its row and no others, and the start-up ends with its last step; S2
repeats while it fails; S3 and S8 can stop the start-up; a self-test that fails in S14 and a frame store that fails in S10 leave their
bits and raise GBL_STARTUP_FAIL; a step that is not due ends nothing. What goes beyond the rules' words is the model's own (log entries
16, 17, 19 and 20). -/
def Obligations.StartupSteps : Prop :=
  (∀ (s : State) (n : Nat) (r : StepResult), s.stepDue n = true → s.coreOff = false → (n = 2 ∨ n = 3 → r.ok = true) →
      (n = 8 → s.tooHot = false) →
      ∃ t, exec (.startupStepEnd n r) s = .next t ∧ t.rst.stepsDone = s.rst.stepsDone ++ [n]
        ∧ (∀ b, b < 32 → t.isReady b = (s.isReady b || (stepReady s n r).contains b))
        ∧ t.rst.starting = !(List.range 15).all (fun k => t.rst.stepsDone.contains (k + 1)) ∧ t.rst.stopped = false)
  ∧ (∀ (s : State) (r : StepResult), s.stepDue 2 = true → r.ok = false → exec (.startupStepEnd 2 r) s = .next s)
  ∧ (∀ (s : State) (r : StepResult), s.stepDue 3 = true → r.ok = false →
      ∃ t, exec (.startupStepEnd 3 r) s = .next t ∧ StartupStopped s t 3 F.GBL_RESET_CAUSE_FUSE)
  ∧ (∀ (s : State) (r : StepResult), s.stepDue 8 = true → s.tooHot = true →
      ∃ t, exec (.startupStepEnd 8 r) s = .next t ∧ StartupStopped s t 8 F.GBL_RESET_CAUSE_THERMAL)
  ∧ (∀ (s : State) (r : StepResult), s.stepDue 10 = true → s.coreOff = false → r.ok = false →
      ∃ t, exec (.startupStepEnd 10 r) s = .next t ∧ t.rst.stepsDone = s.rst.stepsDone ++ [10]
        ∧ t.isReady 6 = s.isReady 6 ∧ t.isReady 17 = s.isReady 17 ∧ t.flag Reg.FST_STAT F.FST_STAT_TRAINED = s.flag Reg.FST_STAT F.FST_STAT_TRAINED)
  ∧ (∀ (s : State) (n : Nat) (r : StepResult), s.stepDue n = false → exec (.startupStepEnd n r) s = .next s)

/-- R71, R72: without VDD_IO the device is OFF at once while the panel is down, and after the emergency discharge otherwise; only the
meter goes on. What goes beyond the rules' words is the model's own (log entry 26). -/
def Obligations.SupplyRemoved : Prop :=
  (∀ s : State, s.rst.off = false → s.seq = 0 → ∃ t, exec .vddIoRemoved s = .next t ∧ t.rst.off = true ∧ t.rst.applying = none
      ∧ (∀ off, off ≠ Reg.PWR_DOM_ON0 → t.reg off = resetWord s.part off) ∧ (∀ d, d < 34 → d ≠ 1 → t.isOn d = false) ∧ Restarted s t)
  ∧ (∀ s : State, s.rst.off = true → exec .vddIoRemoved s = .next s)
  ∧ (∀ s : State, s.rst.off = false → s.seq ≠ 0 → s.seq ≠ 4 → s.scanRuns = false →
      ∃ t, exec .vddIoRemoved s = .next t ∧ t.rst.off = true ∧ t.seq = 4 ∧ t.meter = s.meter)

/-! ## Device states, domains and operating points -/

/-- R70, R72, R73, R391: requests for ACTIVE, STANDBY and DORMANT, from every state of the panel's sequencer. A refused request changes
REQ and REFUSE alone; one that comes during a power-on or a power-off is acted on after it; in an emergency discharge it changes the
registers of the request alone. What goes beyond the rules' words is the model's own (log entries 30 and 129). -/
def Obligations.PowerRequests : Prop :=
  (∀ (s : State) (v : Word), s.hostReaches = false →
      exec (.pwrReqActive v) s = .next s ∧ exec (.pwrReqStandby v) s = .next s ∧ exec (.pwrReqDormant v) s = .next s)
  ∧ (∀ (s : State) (v : Word), s.hostReaches = true → s.isReady 9 = false → ∃ t, exec (.pwrReqActive v) s = .next t
      ∧ t.getF Reg.PWR_REQ F.PWR_REQ_STATE = 0 ∧ t.getF Reg.PWR_STATE F.PWR_STATE_REFUSE = 4 ∧ SameRegs s t [Reg.PWR_REQ, Reg.PWR_STATE]
      ∧ Untouched s t [.regs])
  ∧ (∀ (s : State) (v : Word), s.hostReaches = true → s.isReady 9 = true → s.seq = 0 → ∃ t, exec (.pwrReqActive v) s = .next t
      ∧ t.getF Reg.PWR_STATE F.PWR_STATE_REFUSE = 0 ∧ t.getF Reg.PWR_STATE F.PWR_STATE_TRANS = 1
      ∧ t.getF Reg.PWR_STATE F.PWR_STATE_TARGET = 0 ∧ t.seq = 1 ∧ t.seqStep = 1 ∧ t.pwr.heading = false
      ∧ ∀ d ∈ [15, 16, 18, 19], s.heldOff d = false → t.isOn d = true)
  ∧ (∀ (s : State) (v : Word), s.hostReaches = true → s.isReady 9 = true → s.seq ≠ 0 → ∃ t, exec (.pwrReqActive v) s = .next t
      ∧ t.getF Reg.PWR_REQ F.PWR_REQ_STATE = 0 ∧ t.getF Reg.PWR_STATE F.PWR_STATE_REFUSE = 0 ∧ t.pwr.heading = false ∧ t.seq = s.seq
      ∧ (s.seq = 1 ∨ s.seq = 3 → t.getF Reg.PWR_STATE F.PWR_STATE_TRANS = 1 ∧ t.getF Reg.PWR_STATE F.PWR_STATE_TARGET = 0)
      ∧ t.pnl = (if s.seq = 1 then { s.pnl with wantOff := false } else if s.seq = 3 then { s.pnl with wantOn := true } else s.pnl)
      ∧ SameRegs s t [Reg.PWR_REQ, Reg.PWR_STATE] ∧ Untouched s t [.regs, .pwr, .pnl])
  ∧ (∀ (s : State) (v : Word), s.hostReaches = true → s.seq = 2 → ∃ t, exec (.pwrReqStandby v) s = .next t
      ∧ t.getF Reg.PWR_STATE F.PWR_STATE_REFUSE = 0 ∧ t.getF Reg.PWR_STATE F.PWR_STATE_TARGET = 2 ∧ t.seq = 3 ∧ t.seqStep = 1
      ∧ t.pnl.stopFrame = true ∧ t.pnl.scanning = s.pnl.scanning
      ∧ SameRegs s t [Reg.PWR_REQ, Reg.PWR_STATE, Reg.SCN_PSTAT] ∧ Untouched s t [.regs, .pwr, .pnl])
  ∧ (∀ (s : State) (v : Word), s.hostReaches = true → s.seq = 0 → s.pwr.heading = false → ∃ t,
      exec (.pwrReqStandby v) s = .next t ∧ t.getF Reg.PWR_REQ F.PWR_REQ_STATE = 1 ∧ t.getF Reg.PWR_STATE F.PWR_STATE_REFUSE = 0
      ∧ SameRegs s t [Reg.PWR_REQ, Reg.PWR_STATE] ∧ Untouched s t [.regs, .pwr])
  ∧ (∀ (s : State) (v : Word), s.hostReaches = true → s.seq = 0 → s.pwr.heading = true → ∃ t,
      exec (.pwrReqStandby v) s = .next t ∧ t.getF Reg.PWR_REQ F.PWR_REQ_STATE = 1 ∧ t.getF Reg.PWR_STATE F.PWR_STATE_REFUSE = 0
      ∧ t.getF Reg.PWR_STATE F.PWR_STATE_TARGET = 2 ∧ t.getF Reg.PWR_STATE F.PWR_STATE_TRANS = 0 ∧ t.pwr.heading = false)
  ∧ (∀ (s : State) (v : Word), s.hostReaches = true → s.seq ≠ 0 → s.seq ≠ 2 → ∃ t, exec (.pwrReqStandby v) s = .next t
      ∧ t.getF Reg.PWR_REQ F.PWR_REQ_STATE = 1 ∧ t.getF Reg.PWR_STATE F.PWR_STATE_REFUSE = 0 ∧ t.pwr.heading = false ∧ t.seq = s.seq
      ∧ (s.seq = 1 → t.getF Reg.PWR_STATE F.PWR_STATE_TRANS = 1 ∧ t.getF Reg.PWR_STATE F.PWR_STATE_TARGET = 2)
      ∧ t.pnl = (if s.seq = 1 then { s.pnl with wantOff := true, stopCause := 0 } else if s.seq = 3 then { s.pnl with wantOn := false }
          else s.pnl)
      ∧ SameRegs s t [Reg.PWR_REQ, Reg.PWR_STATE] ∧ Untouched s t [.regs, .pwr, .pnl])
  ∧ (∀ (s : State) (v : Word) (n : Nat), s.hostReaches = true → s.dormantRefused = some n → ∃ t, exec (.pwrReqDormant v) s = .next t
      ∧ t.getF Reg.PWR_REQ F.PWR_REQ_STATE = 2 ∧ t.getF Reg.PWR_STATE F.PWR_STATE_REFUSE = n
      ∧ SameRegs s t [Reg.PWR_REQ, Reg.PWR_STATE] ∧ Untouched s t [.regs])
  ∧ (∀ (s : State) (v : Word), s.hostReaches = true → s.dormantRefused = none → s.seq = 2 → ∃ t, exec (.pwrReqDormant v) s = .next t
      ∧ t.getF Reg.PWR_STATE F.PWR_STATE_REFUSE = 0 ∧ t.pwr.heading = true ∧ t.seq = 3
      ∧ SameRegs s t [Reg.PWR_REQ, Reg.PWR_STATE, Reg.SCN_PSTAT])
  ∧ (∀ (s : State) (v : Word), s.hostReaches = true → s.dormantRefused = none → s.seq = 0 → ∃ t, exec (.pwrReqDormant v) s = .next t
      ∧ t.getF Reg.PWR_REQ F.PWR_REQ_STATE = 2 ∧ t.getF Reg.PWR_STATE F.PWR_STATE_REFUSE = 0 ∧ t.pwr.heading = true
      ∧ t.getF Reg.PWR_STATE F.PWR_STATE_TRANS = 1 ∧ t.getF Reg.PWR_STATE F.PWR_STATE_TARGET = 3 ∧ t.seq = 0
      ∧ (∀ p, p < 4 → s.magState p = 1 → s.flag (Reg.MAG_CFG p) F.MAG_CFG_EN = true →
          t.magState p = (if (s.port p).present then 6 else 0)))
  ∧ (∀ (s : State) (v : Word), s.hostReaches = true → s.dormantRefused = none → s.seq ≠ 0 → s.seq ≠ 2 → ∃ t,
      exec (.pwrReqDormant v) s = .next t ∧ t.getF Reg.PWR_REQ F.PWR_REQ_STATE = 2 ∧ t.getF Reg.PWR_STATE F.PWR_STATE_REFUSE = 0
      ∧ t.pwr.heading = (s.pwr.heading || s.seq != 4) ∧ t.seq = s.seq
      ∧ (s.seq = 1 → t.getF Reg.PWR_STATE F.PWR_STATE_TRANS = 1 ∧ t.getF Reg.PWR_STATE F.PWR_STATE_TARGET = 2)
      ∧ t.pnl = (if s.seq = 1 then { s.pnl with wantOff := true, stopCause := 0 } else if s.seq = 3 then { s.pnl with wantOn := false }
          else s.pnl)
      ∧ SameRegs s t [Reg.PWR_REQ, Reg.PWR_STATE] ∧ Untouched s t [.regs, .pwr, .pnl])

/-- R72 to R74, R249: entry to DORMANT, a wake source, and the end of the wake. What goes beyond the rules' words is the model's own (log
entry 28). -/
def Obligations.Dormant : Prop :=
  (∀ s : State, s.entryDue = true → ∃ t, exec .dormantEntry s = .next t ∧ t.pwr.dormant = true ∧ t.pwr.heading = false
      ∧ t.hst.linkUp = false ∧ (∀ d, 2 ≤ d → d < 34 → t.isOn d = false)
      ∧ t.getF Reg.PWR_STATE F.PWR_STATE_TARGET = 3 ∧ t.getF Reg.PWR_STATE F.PWR_STATE_TRANS = 0 ∧ t.meter = s.meter)
  ∧ (∀ s : State, s.entryDue = false → exec .dormantEntry s = .next s)
  ∧ (∀ (s : State) (n : Fin 3), s.wakeEnabled n = true → s.pwr.dormant = true → s.pwr.wakeLatched = false → s.pwr.wakeSeen = none →
      ∃ t, exec (.dormantWake n) s = .next t ∧ t.getF Reg.PWR_STATE F.PWR_STATE_WOKE_SRC = 2 ^ n.val ∧ t.pwr.wakeLatched = true
        ∧ SameRegs s t [Reg.PWR_STATE] ∧ Untouched s t [.regs, .pwr])
  ∧ (∀ (s : State) (n : Fin 3), s.wakeEnabled n = true → s.pwr.dormant = false → s.pwr.heading = true → s.pwr.wakeLatched = false →
      s.pwr.wakeSeen = none → exec (.dormantWake n) s = .next { s with pwr := { s.pwr with wakeSeen := some n.val } })
  ∧ (∀ (s : State) (n : Fin 3), s.wakeEnabled n = false → exec (.dormantWake n) s = .next s)
  ∧ (∀ (s : State) (r : WakeResult), s.pwr.dormant = true → s.pwr.wakeLatched = true → r.trained = true → s.coreOff = false →
      ∃ t, exec (.dormantWakeEnd r) s = .next t ∧ t.pwr.dormant = false ∧ t.aon = (s.gen.ae + r.aonCycles) % 2 ^ 32
        ∧ t.getF Reg.PWR_STATE F.PWR_STATE_CUR = 2 ∧ t.getF Reg.PWR_STATE F.PWR_STATE_TARGET = 2
        ∧ t.getF Reg.PWR_STATE F.PWR_STATE_TRANS = 0
        ∧ (∀ d ∈ standbyDomains, s.lockedOff d = false → t.isOn d = true))

/-- R62, R66, R68, R69: a request aimed at a domain that is off stalls and starts the wake of it and of what it depends on; aimed at a
locked-off domain it reads as all ones with the event; what waited is served when the domain is on, or dropped with PWR_WAKE_FAIL when it
does not come; a domain whose condition holds goes off. What goes beyond the rules' words is the model's own (log entries 29, 43 and 130).
-/
def Obligations.DomainsWakeAndSleep : Prop :=
  (∀ (s : State) (off : Nat), s.hostReaches = true → s.coreOff = false → s.isOn (domainOf off) = false →
      s.lockedOff (domainOf off) = false →
      ∃ t, exec (.domainWakeRequest (.read off)) s = .next t ∧ t.pwr.stalled = s.pwr.stalled ++ [(domainOf off, .read off none)]
        ∧ (s.pwr.dormant = false → t.pwr.waking.contains (domainOf off) = true)
        ∧ SameRegs s t [] ∧ Untouched s t [.pwr])
  ∧ (∀ (s : State) (off : Nat), s.hostReaches = true → s.coreOff = false → s.isOn (domainOf off) = false →
      s.lockedOff (domainOf off) = true → off ≠ statusOf (domainOf off) →
      exec (.domainWakeRequest (.read off)) s
        = .next ((s.event Ev.PWR_LOCKED_ACCESS [(8, domainOf off)]).emit (.readReply (BitVec.allOnes 32))))
  ∧ (∀ (s : State) (d : Fin 34), s.hostReaches = true → s.coreOff = false → 3 ≤ d.val → d.val ≤ 10 → domainOf (statusOf d) = d.val →
      s.isOn d = false → s.lockedOff d = true →
      exec (.domainWakeRequest (.read (statusOf d))) s
        = .next ((s.event Ev.PWR_LOCKED_ACCESS [(8, d.val)]).emit (.readReply (withField F.RAF_PST_STATE 0 (BitVec.allOnes 32)))))
  ∧ (∀ (s : State) (d : Fin 34), s.hostReaches = true → s.coreOff = false → 11 ≤ d.val → d.val ≤ 14 → domainOf (statusOf d) = d.val →
      s.isOn d = false → s.lockedOff d = true →
      exec (.domainWakeRequest (.read (statusOf d))) s
        = .next ((s.event Ev.PWR_LOCKED_ACCESS [(8, d.val)]).emit (.readReply (withField F.MAG_PSTAT_STATE 8 (BitVec.allOnes 32)))))
  ∧ (∀ (s : State) (off : Nat) (be : BitVec 4) (v : Word), s.hostReaches = true → s.coreOff = false → s.isOn (domainOf off) = false →
      s.lockedOff (domainOf off) = false →
      ∃ t, exec (.domainWakeRequest (.write off be v)) s = .next t
        ∧ t.pwr.stalled = s.pwr.stalled ++ [(domainOf off, .write off be v none)]
        ∧ (s.pwr.dormant = false → t.pwr.waking.contains (domainOf off) = true) ∧ SameRegs s t [] ∧ Untouched s t [.pwr])
  ∧ (∀ (s : State) (d : Fin 34), s.coreOff = false → s.isOn d = false → s.lockedOff d = false →
      ∃ t, exec (.domainWakeRequest (.internal d)) s = .next t ∧ t.pwr.stalled = s.pwr.stalled ++ [(d.val, .internal d)]
        ∧ (s.pwr.dormant = false → t.pwr.waking.contains d.val = true) ∧ SameRegs s t [] ∧ Untouched s t [.pwr])
  ∧ (∀ (s : State) (d : Fin 34), s.coreOff = false → s.isOn d = false → s.lockedOff d = true →
      exec (.domainWakeRequest (.internal d)) s = .next (s.event Ev.PWR_LOCKED_ACCESS [(8, d.val)]))
  ∧ (∀ (s : State) (off : Nat) (be : BitVec 4) (v : Word), s.hostReaches = true → s.coreOff = false → s.isOn (domainOf off) = false →
      s.lockedOff (domainOf off) = true →
      exec (.domainWakeRequest (.write off be v)) s = .next (s.event Ev.PWR_LOCKED_ACCESS [(8, domainOf off)]))
  ∧ (∀ (s : State) (d : Fin 34), s.isOn d = true → exec (.domainWakeRequest (.internal d)) s = .next s)
  ∧ (∀ (s : State) (off : Nat) (be : BitVec 4) (v : Word), s.isOn (domainOf off) = true ∨ s.hostReaches = false →
      exec (.domainWakeRequest (.read off)) s = .next s ∧ exec (.domainWakeRequest (.write off be v)) s = .next s)
  ∧ (∀ (s : State) (d : Fin 34), s.isOn d = false → s.heldOff d = false → s.pwr.waking.contains d.val = true →
      (domainDeps d).all s.isOn = true →
      (s.domainUp d).isOn d = true ∧ (s.domainUp d).pwr.waking.contains d.val = false
      ∧ exec (.domainOn d) s = .next ((s.domainUp d).serveStalled d).pumpWindows.retryLists.retryWaiters)
  ∧ (∀ (s : State) (d : Fin 34), s.isOn d = false → s.heldOff d = false → s.pwr.waking.contains d.val = true →
      (domainDeps d).all s.isOn = true →
      s.pwr.stalled = [] → s.hst.winWait = [] → s.hst.lists = [] → s.tabs = [] →
      ∃ t, exec (.domainOn d) s = .next t ∧ t.isOn d = true ∧ t.pwr.waking.contains d.val = false)
  ∧ (∀ (s : State) (d : Fin 34) (off : Nat), s.isOn d = false → s.pwr.waking.contains d.val = true →
      s.pwr.stalled = [(d.val, .read off none)] →
      s.hst.winWait = [] → s.hst.lists = [] → s.tabs = [] → s.thc.queue = [] →
      ∃ t, exec (.pwrWakeFail d) s = .next t ∧ t.pwr.stalled = [] ∧ t.pwr.waking.contains d.val = false
        ∧ t.out = s.out ++ [.readReply (BitVec.allOnes 32)] ∧ SameRegs s t eventRegs)
  ∧ (∀ (s : State) (d : Fin 34), s.isOn d = false → s.pwr.waking.contains d.val = true →
      (s.dropStalled d).pwr.stalled = s.pwr.stalled.filter (fun e => e.1 ≠ d.val) ∧ (s.dropStalled d).pwr.waking.contains d.val = false
      ∧ ∃ t, exec (.pwrWakeFail d) s = .next t
        ∧ t = (if d.val = 21 ∨ d.val = 22 then
              ((((s.dropStalled d).event Ev.PWR_WAKE_FAIL [(8, d.val)]).pumpWindows.failLists d).failTables d).failJobs d
            else (((s.dropStalled d).event Ev.PWR_WAKE_FAIL [(8, d.val)]).pumpWindows.failLists d).failTables d))
  ∧ (∀ (s : State) (d : Fin 34), s.isOn d = true ∨ s.pwr.waking.contains d.val = false → exec (.pwrWakeFail d) s = .next s)
  ∧ (∀ (s : State) (d : Fin 34), s.isOn d = true → s.autoOff d = true → (domainUsers d).all (fun u => !s.isOn u) = true →
      (∀ e ∈ s.pwr.stalled, e.1 ≠ d.val) → ∃ t, exec (.domainAutoOff d) s = .next t ∧ t.isOn d = false)
  ∧ (∀ (s : State) (d : Fin 34), s.autoOff d = false → exec (.domainAutoOff d) s = .next s)

/-- R75 to R77, R80: the recomputation of the voltages, a confirmed write, its time limit and the release of the fault limit, on a device
without a partner. What goes beyond the rules' words is the model's own (log entries 10, 20 and 129). -/
def Obligations.OperatingPoint : Prop :=
  (∀ s : State, s.coreOff = false → s.noAvs = true → s.pwr.pairLost = false →
      ∃ t, exec .vtRecompute s = .next t ∧ t.reg Reg.PWR_VSET = vsetWord s.vtCode
        ∧ t.getF Reg.PWR_OP F.PWR_OP_CUR = min t.aimPoint t.safePoint
        ∧ SameRegs s t [Reg.PWR_VSET, Reg.PWR_OP] ∧ Untouched s t [.regs])
  ∧ (∀ s : State, s.coreOff = true → exec .vtRecompute s = .next s)
  ∧ (∀ (s : State) (v : Nat), s.avsOpen = true → s.noAvs = false → s.paired = false → s.pwr.pairLost = false → s.pwr.writing = none →
      v = (vsetWord s.vtCode).toNat / 256 ^ s.aimPoint % 256 →
      ∃ t, exec .vtRecompute s = .next t
        ∧ (v ≠ s.getF Reg.PWR_OP F.PWR_OP_VCONF ∨ s.pwr.confirmed = false ∨ s.pwr.unsure ≠ none →
          t.pwr = { s.pwr with writing := some (s.aimPoint, v, s.getF Reg.PWR_AVS_CFG F.PWR_AVS_CFG_RETRY), target := none, promised := none }
          ∧ t.out = s.out ++ [.avsWrite 0 v] ++ (if s.getF Reg.GBL_STRAP F.GBL_STRAP_AVS_MODE = 0 then [.avsWrite 1 v] else []))
        ∧ t.getF Reg.PWR_OP F.PWR_OP_CUR = min t.aimPoint t.safePoint
        ∧ SameRegs s t [Reg.PWR_VSET, Reg.PWR_OP] ∧ Untouched s t [.regs, .pwr, .out])
  ∧ (∀ (s : State) (n v k : Nat), s.coreOff = false → s.pwr.writing = some (n, v, k) → s.pwr.target = none → s.pwr.promised = none →
      s.pwr.pairLost = false → s.paired = false → v < 256 →
      ∃ t, exec .avsVoltageConfirmed s = .next t ∧ t.getF Reg.PWR_OP F.PWR_OP_VCONF = v ∧ t.pwr.writing = none ∧ t.pwr.unsure = none
        ∧ t.getF Reg.PWR_OP F.PWR_OP_CUR = min s.aimPoint (s.maxPoint v) ∧ t.isReady 3 = true
        ∧ SameRegs s t [Reg.PWR_OP, Reg.GBL_READY])
  ∧ (∀ s : State, s.pwr.writing = none → exec .avsVoltageConfirmed s = .next s)
  ∧ (∀ (s : State) (n v k : Nat), s.pwr.writing = some (n, v, k + 1) → s.rst.starting = false →
      s.getF Reg.GBL_STRAP F.GBL_STRAP_AVS_MODE ≠ 0 →
      ∃ t, exec .pwrAvsTimeout s = .next t ∧ t.pwr.writing = some (n, v, k) ∧ t.out = s.out ++ [.avsWrite 0 v]
        ∧ SameRegs s t [] ∧ Untouched s t [.pwr, .out])
  ∧ (∀ (s : State) (n v : Nat), s.pwr.writing = some (n, v, 0) → s.pwr.target = none →
      ∃ t, exec .pwrAvsTimeout s = .next t ∧ t.pwr = { s.pwr with writing := none, unsure := some (min v (s.pwr.unsure.getD v)) }
        ∧ t.flag Reg.PWR_AVS_FLT F.PWR_AVS_FLT_TIMEOUT = true
        ∧ t.getF Reg.PWR_OP F.PWR_OP_CUR ≤ s.maxPoint v ∧ t.getF Reg.PWR_OP F.PWR_OP_CUR ≤ s.aimPoint
        ∧ SameRegs s t (eventRegs ++ [Reg.PWR_AVS_FLT, Reg.PWR_OP]) ∧ Untouched s t [.regs, .pwr, .evt])
  ∧ (∀ (s : State) (v : Word), s.hostReaches = true → fieldOf F.PWR_AVS_FLT_RELEASE v = 1 → s.pwr.cleanMs < 1000 →
      ∃ t, exec (.pwrAvsRelease v) s = .next t ∧ t.getF Reg.PWR_OP F.PWR_OP_LIMIT = s.getF Reg.PWR_OP F.PWR_OP_LIMIT
        ∧ (∀ k, k < 6 → bit (t.reg Reg.PWR_AVS_FLT).toNat k = (bit (s.reg Reg.PWR_AVS_FLT).toNat k && !bit v.toNat k))
        ∧ SameRegs s t (Reg.PWR_AVS_FLT :: eventRegs))
  ∧ (∀ (s : State) (v : Word), s.hostReaches = true → fieldOf F.PWR_AVS_FLT_RELEASE v = 1 → 1000 ≤ s.pwr.cleanMs → s.noAvs = true →
      ∃ t, exec (.pwrAvsRelease v) s = .next t ∧ t.getF Reg.PWR_OP F.PWR_OP_LIMIT = 3
        ∧ SameRegs s t [Reg.PWR_AVS_FLT, Reg.PWR_OP])

/-- Status `r` shows a fault: a warning, or a manufacturer-specific bit that MFR_MASK selects (R80). -/
def regFaulty (s : State) (r : RegulatorStatus) : Bool :=
  r.ocw || r.uvw || r.otw || decide (r.mfr.toNat &&& s.getF Reg.PWR_AVS_CFG F.PWR_AVS_CFG_MFR_MASK ≠ 0)

/-- PWR_AVS_FLT of `t` shows the warnings of `r` beside what `s` showed; its other bits stand (R80). -/
def WarningsShown (s t : State) (r : RegulatorStatus) : Prop :=
  t.flag Reg.PWR_AVS_FLT F.PWR_AVS_FLT_OCW = (s.flag Reg.PWR_AVS_FLT F.PWR_AVS_FLT_OCW || r.ocw)
  ∧ t.flag Reg.PWR_AVS_FLT F.PWR_AVS_FLT_UVW = (s.flag Reg.PWR_AVS_FLT F.PWR_AVS_FLT_UVW || r.uvw)
  ∧ t.flag Reg.PWR_AVS_FLT F.PWR_AVS_FLT_OTW = (s.flag Reg.PWR_AVS_FLT F.PWR_AVS_FLT_OTW || r.otw)
  ∧ t.flag Reg.PWR_AVS_FLT F.PWR_AVS_FLT_MFR = (s.flag Reg.PWR_AVS_FLT F.PWR_AVS_FLT_MFR
      || decide (r.mfr.toNat &&& s.getF Reg.PWR_AVS_CFG F.PWR_AVS_CFG_MFR_MASK ≠ 0))
  ∧ ∀ k, 4 ≤ k → k < 32 → bit (t.reg Reg.PWR_AVS_FLT).toNat k = bit (s.reg Reg.PWR_AVS_FLT).toNat k

/-- The device has stepped down from the point that it ran at: LIMIT is the point below, the rate follows, and the leader of a pair tells its
partner (R80). -/
def SteppedDown (s t : State) : Prop :=
  t.getF Reg.PWR_OP F.PWR_OP_LIMIT = s.getF Reg.PWR_OP F.PWR_OP_CUR - 1
  ∧ t.getF Reg.PWR_OP F.PWR_OP_CUR ≤ s.getF Reg.PWR_OP F.PWR_OP_CUR - 1
  ∧ (s.paired = true → s.pwr.pairFormed = true →
      .pairMsg (.stepDown (Fin.ofNat 4 (s.getF Reg.PWR_OP F.PWR_OP_CUR - 1))) ∈ t.out)

/-- R78, R80: the regulators' status, read every millisecond, and the messages of the pair link. A first fault steps LIMIT below the
current point, and one that is still read 10 ms after the step's voltage is confirmed does so again; one that persists at OP0 for 100 ms
is alarm entry 1; a device that reads no regulator counts on. The leader of a pair takes requests and rates and writes the higher voltage;
the follower takes rates, confirmed voltages and steps down. What goes beyond the rules' words is the model's own (log entries 32 and
131). -/
def Obligations.RegulatorsAndPair : Prop :=
  (∀ (s : State) (r : RegulatorStatus), regFaulty s r = false → s.readsRegs = true →
      ∃ t, exec (.regStatusRead r) s = .next t ∧ t.pwr.regFault = false ∧ t.pwr.cleanMs = s.pwr.cleanMs + 1 ∧ t.pwr.op0FaultMs = 0
        ∧ SameRegs s t [] ∧ Untouched s t [.pwr])
  ∧ (∀ (s : State) (r : RegulatorStatus), regFaulty s r = true → s.readsRegs = true → s.pwr.regFault = false →
      ∃ t, exec (.regStatusRead r) s = .next t ∧ WarningsShown s t r ∧ t.pwr.regFault = true ∧ t.pwr.cleanMs = 0 ∧ SteppedDown s t)
  ∧ (∀ (s : State) (r : RegulatorStatus), regFaulty s r = true → s.readsRegs = true → s.pwr.regFault = true → s.pwr.stepWait = false →
      9 ≤ s.pwr.sinceConfirm → s.getF Reg.PWR_OP F.PWR_OP_CUR ≠ 0 →
      ∃ t, exec (.regStatusRead r) s = .next t ∧ WarningsShown s t r ∧ t.pwr.cleanMs = 0 ∧ SteppedDown s t)
  ∧ (∀ (s : State) (r : RegulatorStatus), regFaulty s r = true → s.readsRegs = true → s.pwr.regFault = true →
      s.pwr.stepWait = true ∨ s.pwr.sinceConfirm < 9 ∨ s.getF Reg.PWR_OP F.PWR_OP_CUR = 0 → s.pwr.op0FaultMs ≠ 99 →
      ∃ t, exec (.regStatusRead r) s = .next t ∧ WarningsShown s t r ∧ t.pwr.regFault = true ∧ t.pwr.cleanMs = 0
        ∧ t.pwr.op0FaultMs = (if s.getF Reg.PWR_OP F.PWR_OP_CUR = 0 ∨ (s.pwr.stepWait = true ∧ s.pwr.unsure ≠ none) then s.pwr.op0FaultMs + 1
            else 0)
        ∧ SameRegs s t [Reg.PWR_AVS_FLT] ∧ Untouched s t [.regs, .pwr])
  ∧ (∀ (s : State) (r : RegulatorStatus), regFaulty s r = true → s.readsRegs = true → s.pwr.regFault = true →
      s.getF Reg.PWR_OP F.PWR_OP_CUR = 0 → s.pwr.op0FaultMs = 99 →
      ∃ t, exec (.regStatusRead r) s = .next t ∧ WarningsShown s t r ∧ bit (t.reg Reg.EVT_ALM_PEND_LO).toNat 1 = true
        ∧ SameRegs s t (Reg.PWR_AVS_FLT :: alarmRegs 1))
  ∧ (∀ (s : State) (r : RegulatorStatus), s.readsRegs = false → s.coreOff = false →
      exec (.regStatusRead r) s = .next { s with pwr := { s.pwr with cleanMs := s.pwr.cleanMs + 1 } })
  ∧ (∀ (s : State) (r : RegulatorStatus), s.coreOff = true → exec (.regStatusRead r) s = .next s)
  ∧ (∀ (s : State) (m : PairMsg), s.pwr.pairFormed = false → exec (.pair m) s = .next s)
  ∧ (∀ (s : State) (v : Nat), s.coreOff = false → s.pwr.pairFormed = true → s.pwr.pairLeader = false → v < 256 →
      s.pwr.pairLost = false → s.pwr.writing = none →
      ∃ t, exec (.pair (.confirm v)) s = .next t ∧ t.getF Reg.PWR_OP F.PWR_OP_VCONF = v ∧ t.pwr.confirmed = true
        ∧ t.getF Reg.PWR_OP F.PWR_OP_CUR = min s.aimPoint (s.maxPoint v) ∧ t.isReady 3 = true
        ∧ SameRegs s t [Reg.PWR_OP, Reg.GBL_READY])
  ∧ (∀ (s : State) (v : Nat), s.pwr.pairFormed = true → s.pwr.pairLeader = false →
      ∃ t, exec (.pair (.rate v)) s = .next t ∧ t.out = s.out ++ [.pairMsg (.rate v)] ∧ t.pwr.promised = some v
        ∧ t.getF Reg.PWR_OP F.PWR_OP_CUR ≤ s.maxPoint v
        ∧ SameRegs s t [Reg.PWR_OP] ∧ Untouched s t [.regs, .pwr, .out])
  ∧ (∀ (s : State) (v : Nat), s.pwr.pairFormed = true → s.pwr.pairLeader = false → exec (.pair (.request v)) s = .next s)
  ∧ (∀ (s : State) (v : Nat) (l : Fin 4), s.pwr.pairFormed = true → s.pwr.pairLeader = true →
      exec (.pair (.request v)) s = .next (State.avsAim { s with pwr := { s.pwr with partnerReq := v } })
      ∧ exec (.pair (.rate v)) s = .next (State.avsAim { s with pwr := { s.pwr with partnerRate := v } })
      ∧ exec (.pair (.confirm v)) s = .next s ∧ exec (.pair (.stepDown l)) s = .next s)
  ∧ (∀ (s : State) (v w : Nat), s.avsOpen = true → s.noAvs = false → s.paired = true → s.pwr.pairFormed = true → s.pwr.pairLeader = true →
      s.pwr.pairLost = false → s.pwr.writing = none → s.inS6 = false → 0 < v → w = max (s.vcode s.aimPoint) v →
      s.getF Reg.PWR_OP F.PWR_OP_VCONF < w →
      ∃ t, exec (.pair (.request v)) s = .next t
        ∧ t.pwr = { s.pwr with
            partnerReq := v, writing := some (s.aimPoint, w, s.getF Reg.PWR_AVS_CFG F.PWR_AVS_CFG_RETRY), target := none, promised := none }
        ∧ .avsWrite 0 w ∈ t.out ∧ SameRegs s t [Reg.PWR_OP] ∧ Untouched s t [.regs, .pwr, .out])
  ∧ (∀ (s : State) (l : Fin 4), s.pwr.pairFormed = true → s.paired = true → s.pwr.pairLeader = false →
      ∃ t, exec (.pair (.stepDown l)) s = .next t ∧ t.getF Reg.PWR_OP F.PWR_OP_LIMIT = min l.val (s.getF Reg.PWR_OP F.PWR_OP_LIMIT)
        ∧ t.getF Reg.PWR_OP F.PWR_OP_CUR ≤ l.val ∧ SameRegs s t [Reg.PWR_OP])


/-! ## Register writes and relay windows -/

/-- The register writes that are commands of their own, each with its register and the word written. -/
def blockWrites (p : Fin 4) (e : Fin 2) (q : Fin 8) (v : Word) : List (Instr × Nat × Word) :=
  [(.batCmdWrite v, Reg.BAT_CMD, v), (.batCmdRead v, Reg.BAT_CMD, v), (.thcCfgWrite v, Reg.THC_CFG, v),
   (.thcBistGo e v, Reg.THC_BIST e, withField F.THC_BIST_GO 1 v), (.swgBistGo v, Reg.SWG_BIST, withField F.SWG_BIST_GO 1 v),
   (.magUnmount p v, Reg.MAG_CTL p, withField F.MAG_CTL_UNMOUNT 1 v), (.magFormat p v, Reg.MAG_CTL p, withField F.MAG_CTL_FORMAT 1 v),
   (.thmOdtHostWrite v, Reg.THM_ODT_HOST, v), (.tmkDoseClr v, Reg.TMK_DOSE_CLR, withField F.TMK_DOSE_CLR_CLR 1 v),
   (.rafPrbsWrite q v, lkBase q + 0xC, v), (.loopNesEnter q v, lkBase q + 8, withField F.RAF_LOOP_MODE 1 v),
   (.loopNepEnter q v, lkBase q + 8, withField F.RAF_LOOP_MODE 2 v), (.loopExit q v, lkBase q + 8, withField F.RAF_LOOP_MODE 0 v)]

/-- The commands of a host access to the blocks that never stall. -/
def hostWrites (w : Fin 4) (off : Nat) (op : RelayOp) (hi : Bool) (vec : Fin 264) (v : Word) : List Instr :=
  [.gblResetWrite v, .pwrAvsRelease v, .hstRlySelWrite w v, .relayAccess w off op, .msixUnmask vec, .stgCmdBegin v, .stgCmdCommit v,
   .stgCmdRollback v, .forceRollback v, .gateArm v, .gateDisarm v, .stgGateLoWrite v, .counterClearWrite off v, .stagedRegWrite off 15 v,
   .bar0Write off 15 v, .evtRheadWrite v, .evtCfgWrite v, .evtAlmPendClear hi v, .evtTrcWrite v, .evtTrcMark v]

/-- R7, R10, R85: writes to BAR0. No byte enabled writes nothing; a partial write is dropped with its event; an access that no window
decodes raises HST_UNMAPPED; a read-write register takes its fields at once, and a rejected field value changes nothing. R62, R68, R83: a
write to a block whose domain is off stalls; an access that does not reach the device does nothing. What goes beyond the rules' words is
the model's own (log entry 35). -/
def Obligations.RegisterWrites : Prop :=
  (∀ (s : State) (off : Nat) (v : Word), exec (.bar0Write off 0 v) s = .next s)
  ∧ (∀ (s : State) (p : Fin 4) (e : Fin 2) (q : Fin 8) (v w : Word) (i : Instr) (off d : Nat), (i, off, w) ∈ blockWrites p e q v →
      s.hostReaches = true → s.stallDomain off = some d → exec i s = .next (s.stallOn d (.write off 15 w none)))
  ∧ (∀ (s : State) (p : Fin 4) (e : Fin 2) (q : Fin 8) (v w : Word) (i : Instr) (off : Nat), (i, off, w) ∈ blockWrites p e q v →
      s.hostReaches = false → exec i s = .next s)
  ∧ (∀ (s : State) (w : Fin 4) (off : Nat) (op : RelayOp) (hi : Bool) (vec : Fin 264) (v : Word) (i : Instr),
      i ∈ hostWrites w off op hi vec v → s.hostReaches = false → exec i s = .next s)
  ∧ (∀ (s : State) (off : Nat) (be : BitVec 4) (v : Word), s.hostReaches = true → be ≠ 0 → be ≠ 15 →
      exec (.bar0Write off be v) s = .next (s.event Ev.HST_PARTIAL_WRITE []))
  ∧ (∀ (s : State) (off : Nat) (v : Word), s.hostReaches = true → 0xF02028 ≤ off ∨ (0xE00000 ≤ off ∧ off < 0xF00000) →
      exec (.bar0Write off 15 v) s = .next (s.event Ev.HST_UNMAPPED []))
  ∧ (∀ (s : State) (c : Fin 256) (v : Word), s.hostReaches = true → fieldOf F.HST_CIMOD_COUNT v ≠ 0 →
      ∃ t, exec (.bar0Write (Reg.HST_CIMOD c) 15 v) s = .next t
        ∧ t.getF (Reg.HST_CIMOD c) F.HST_CIMOD_COUNT = fieldOf F.HST_CIMOD_COUNT v
        ∧ t.getF (Reg.HST_CIMOD c) F.HST_CIMOD_TIME_US = fieldOf F.HST_CIMOD_TIME_US v
        ∧ SameRegs s t [Reg.HST_CIMOD c] ∧ Untouched s t [.regs])
  ∧ (∀ (s : State) (c : Fin 256) (v : Word), s.hostReaches = true → fieldOf F.HST_CIMOD_COUNT v = 0 →
      exec (.bar0Write (Reg.HST_CIMOD c) 15 v) s = .next (s.event Ev.GBL_REJECT_WRITE []))
  ∧ (∀ (s : State) (off : Nat) (v : Word), isCounterClear off = false →
      exec (.counterClearWrite off v) s = .next s)
  ∧ (∀ (s : State) (p : Fin 4) (v : Word), s.hostReaches = true → s.isOn (7 + p) = true →
      ∃ t, exec (.counterClearWrite (Reg.RAF_CNT_CLR p) v) s = .next t
        ∧ (∀ n, n < 7 → t.reg (Reg.RAF_CNT_CRC p + 4 * n) = if bit v.toNat n then 0 else s.reg (Reg.RAF_CNT_CRC p + 4 * n))
        ∧ SameRegs s t ((List.range 7).map (fun n => Reg.RAF_CNT_CRC p + 4 * n)) ∧ Untouched s t [.regs])

/-- R113, R114: steering of a relay window; an access through it that is off, aimed at the device itself, at a role that is not reachable,
or sent through the mesh; and an access without a reply. What goes beyond the rules' words is the model's own (log entries 46 and 47). -/
def Obligations.RelayWindows : Prop :=
  (∀ (s : State) (w : Fin 4) (v : Word), s.hostReaches = true → selRejected v = true →
      exec (.hstRlySelWrite w v) s = .next (s.event Ev.GBL_REJECT_WRITE []))
  ∧ (∀ (s : State) (w : Fin 4) (v : Word), s.hostReaches = true → selRejected v = false → s.windowBusy w = true →
      ∃ t, exec (.hstRlySelWrite w v) s = .next t ∧ t.hst.winWait = s.hst.winWait ++ [(w.val, .sel v)] ∧ SameRegs s t []
        ∧ Untouched s t [.hst])
  ∧ (∀ (s : State) (w : Fin 4) (v : Word), s.hostReaches = true → selRejected v = false → s.windowBusy w = false →
      ∃ t, exec (.hstRlySelWrite w v) s = .next t
        ∧ t.getF (Reg.HST_RLY_SEL w) F.HST_RLY_SEL_EN = fieldOf F.HST_RLY_SEL_EN v
        ∧ t.getF (Reg.HST_RLY_SEL w) F.HST_RLY_SEL_SPACE = fieldOf F.HST_RLY_SEL_SPACE v
        ∧ t.getF (Reg.HST_RLY_SEL w) F.HST_RLY_SEL_BASE = fieldOf F.HST_RLY_SEL_BASE v
        ∧ t.getF (Reg.HST_RLY_SEL w) F.HST_RLY_SEL_ROLE = fieldOf F.HST_RLY_SEL_ROLE v
        ∧ SameRegs s t [Reg.HST_RLY_SEL w] ∧ Untouched s t [.regs])
  ∧ (∀ (s : State) (w : Fin 4) (off : Nat), s.hostReaches = true → s.windowStalled w = false →
      s.flag (Reg.HST_RLY_SEL w) F.HST_RLY_SEL_EN = false →
      (∀ e ∈ s.hst.winWait, e.1 ≠ w.val) →
      exec (.relayAccess w off .read) s
        = .next ((s.emit (.readReply (BitVec.allOnes 32))).event Ev.HST_RELAY_OFF []))
  ∧ (∀ (s : State) (w : Fin 4) (off a : Nat), s.hostReaches = true → s.windowStalled w = false →
      s.flag (Reg.HST_RLY_SEL w) F.HST_RLY_SEL_EN = true →
      (∀ e ∈ s.hst.winWait, e.1 ≠ w.val) → s.hasRole = true → s.role = s.getF (Reg.HST_RLY_SEL w) F.HST_RLY_SEL_ROLE →
      s.flag (Reg.HST_RLY_SEL w) F.HST_RLY_SEL_SPACE = false → a = s.getF (Reg.HST_RLY_SEL w) F.HST_RLY_SEL_BASE * 0x80000 + off →
      a < 0x640000 → s.isOn (domainOf a) = true →
      exec (.relayAccess w off .read) s = .next ((s.barValue a).2.emit (.readReply (s.barValue a).1)))
  ∧ (∀ (s : State) (w : Fin 4) (off : Nat), s.hostReaches = true → s.windowStalled w = false →
      s.flag (Reg.HST_RLY_SEL w) F.HST_RLY_SEL_EN = true →
      (∀ e ∈ s.hst.winWait, e.1 ≠ w.val) → s.role ≠ s.getF (Reg.HST_RLY_SEL w) F.HST_RLY_SEL_ROLE →
      (s.roleEntry (s.getF (Reg.HST_RLY_SEL w) F.HST_RLY_SEL_ROLE)).reachable = false →
      exec (.relayAccess w off .read) s
        = .next ((s.emit (.readReply (BitVec.allOnes 32))).event Ev.HST_RELAY_FAIL []))
  ∧ (∀ (s : State) (w : Fin 4) (off : Nat) (e : RoleEntry), s.hostReaches = true → s.windowStalled w = false →
      s.flag (Reg.HST_RLY_SEL w) F.HST_RLY_SEL_EN = true →
      (∀ x ∈ s.hst.winWait, x.1 ≠ w.val) → s.role ≠ s.getF (Reg.HST_RLY_SEL w) F.HST_RLY_SEL_ROLE →
      e = s.roleEntry (s.getF (Reg.HST_RLY_SEL w) F.HST_RLY_SEL_ROLE) → e.known = true → e.reachable = true →
      ∃ t, exec (.relayAccess w off .read) s = .next t
        ∧ t.hst.relays = s.hst.relays ++ [⟨s.hst.nextTag, w, true⟩]
        ∧ t.out = s.out ++ [.linkMsg (4 + e.link) 0x40 (s.getF (Reg.HST_RLY_SEL w) F.HST_RLY_SEL_ROLE % 64 + 256 * s.role)
            (hostBody e.epoch s.hst.nextTag 5 (s.getF (Reg.HST_RLY_SEL w) F.HST_RLY_SEL_BASE * 0x80000 + off
              + 2 ^ 32 * b2n (s.flag (Reg.HST_RLY_SEL w) F.HST_RLY_SEL_SPACE)) 0 [])]
        ∧ SameRegs s t [] ∧ Untouched s t [.hst, .links, .out])
  ∧ (∀ (s : State) (tag : Nat) (p : RelayPend), s.hst.relays.find? (fun r => r.tag == tag) = some p → s.hst.winWait = [] →
      ∃ t, exec (.relayTimeout tag) s = .next t ∧ t.hst.relays = s.hst.relays.filter (fun r => r.tag != p.tag)
        ∧ t.out = s.out ++ (if p.isRead then [.readReply (BitVec.allOnes 32)] else [])
        ∧ SameRegs s t eventRegs ∧ Untouched s t [.regs, .hst, .evt, .out])
  ∧ (∀ (s : State) (tag : Nat), (∀ r ∈ s.hst.relays, r.tag ≠ tag) → exec (.relayTimeout tag) s = .next s)

/-! ## Rings and interrupts -/

/-- R88 to R90: the two doorbells of a client. The refused writes leave the ring as it was and record why. R89, R90, R109: enabling a ring
resets its four indices and its error; disabling it leaves no descriptor that has not started; a size out of range, a changed size of an
enabled ring and a base with low bits refuse the write. R111: an unmasked vector whose pending bit is set sends its message and clears the
bit; the time of a moderated vector runs out. What goes beyond the rules' words is the model's own (log entries 16, 37 and 129). -/
def Obligations.RingsAndInterrupts : Prop :=
  (∀ (s : State) (c : Fin 256) (v : Word), exec (.sqTail c 0 v) s = .next s ∧ exec (.cqHead c 0 v) s = .next s)
  ∧ (∀ (s : State) (c : Fin 256) (be : BitVec 4) (v : Word), s.hostReaches = false →
      exec (.sqTail c be v) s = .next s ∧ exec (.cqHead c be v) s = .next s ∧ exec (.ringEnable c v) s = .next s
      ∧ exec (.ringDisable c v) s = .next s)
  ∧ (∀ (s : State) (c : Fin 256) (be : BitVec 4) (v : Word), s.hostReaches = true → be ≠ 0 → be ≠ 15 →
      (∃ t, exec (.sqTail c be v) s = .next t ∧ t.getF (Reg.HST_CSTAT c) F.HST_CSTAT_ERR = 6 ∧ t.client c = s.client c
        ∧ SameRegs s t (Reg.HST_CSTAT c :: eventRegs))
      ∧ ∃ t, exec (.cqHead c be v) s = .next t ∧ t.getF (Reg.HST_CSTAT c) F.HST_CSTAT_ERR = 6 ∧ t.client c = s.client c
        ∧ SameRegs s t (Reg.HST_CSTAT c :: eventRegs))
  ∧ (∀ (s : State) (c : Fin 256) (v : Word), s.hostReaches = true → s.flag (Reg.HST_CCFG c) F.HST_CCFG_EN = false →
      ∃ t, exec (.sqTail c 15 v) s = .next t ∧ t.getF (Reg.HST_CSTAT c) F.HST_CSTAT_ERR = 4 ∧ t.client c = s.client c
        ∧ SameRegs s t (Reg.HST_CSTAT c :: eventRegs))
  ∧ (∀ (s : State) (c : Fin 256) (v : Word), s.hostReaches = true → s.flag (Reg.HST_CCFG c) F.HST_CCFG_EN = true →
      s.sqSize c ≤ v.toNat % 65536 →
      ∃ t, exec (.sqTail c 15 v) s = .next t ∧ t.getF (Reg.HST_CSTAT c) F.HST_CSTAT_ERR = 3 ∧ t.client c = s.client c
        ∧ SameRegs s t (Reg.HST_CSTAT c :: eventRegs))
  ∧ (∀ (s : State) (c : Fin 256) (v : Word), s.hostReaches = true → s.flag (Reg.HST_CCFG c) F.HST_CCFG_EN = true →
      v.toNat % 65536 < s.sqSize c →
      ∃ t, exec (.sqTail c 15 v) s = .next t ∧ t.client c = { s.client c with sqTail := v.toNat % 65536 }
        ∧ (∀ k, k ≠ c.val → t.client k = s.client k) ∧ SameRegs s t [] ∧ Untouched s t [.hst])
  ∧ (∀ (s : State) (c : Fin 256) (v : Word) (tail head size : Nat), s.hostReaches = true →
      s.flag (Reg.HST_CCFG c) F.HST_CCFG_EN = true →
      tail = s.getF (Reg.HST_CPOS c) F.HST_CPOS_CQ_TAIL → head = (s.client c).cqHead → size = s.cqSize c → v.toNat % 65536 < size →
      (v.toNat % 65536 + size - head) % size ≤ (tail + size - head) % size →
      ∃ t, exec (.cqHead c 15 v) s = .next t ∧ t.client c = { s.client c with cqHead := v.toNat % 65536 }
        ∧ (∀ k, k ≠ c.val → t.client k = s.client k) ∧ SameRegs s t [] ∧ Untouched s t [.hst])
  ∧ (∀ (s : State) (c : Fin 256) (v : Word) (tail head size : Nat), s.hostReaches = true →
      s.flag (Reg.HST_CCFG c) F.HST_CCFG_EN = true →
      tail = s.getF (Reg.HST_CPOS c) F.HST_CPOS_CQ_TAIL → head = (s.client c).cqHead → size = s.cqSize c → v.toNat % 65536 < size →
      (tail + size - head) % size < (v.toNat % 65536 + size - head) % size →
      ∃ t, exec (.cqHead c 15 v) s = .next t ∧ t.getF (Reg.HST_CSTAT c) F.HST_CSTAT_ERR = 3 ∧ t.client c = s.client c
        ∧ SameRegs s t (Reg.HST_CSTAT c :: eventRegs))
  ∧ (∀ (s : State) (c : Fin 256) (v : Word), s.hostReaches = true → fieldOf F.HST_CCFG_SQ_LOG2 v ≤ 10 →
      fieldOf F.HST_CCFG_CQ_LOG2 v ≤ 10 →
      s.flag (Reg.HST_CCFG c) F.HST_CCFG_EN = false → (s.client c).sqbLow = false → (s.client c).cqbLow = false →
      ∃ t, exec (.ringEnable c v) s = .next t ∧ t.flag (Reg.HST_CCFG c) F.HST_CCFG_EN = true ∧ t.reg (Reg.HST_CPOS c) = 0
        ∧ (t.client c).sqTail = 0 ∧ (t.client c).cqHead = 0 ∧ (t.client c).pass = 0 ∧ (t.client c).cqDead = false
        ∧ t.getF (Reg.HST_CSTAT c) F.HST_CSTAT_ERR = 0 ∧ t.flag (Reg.HST_CSTAT c) F.HST_CSTAT_HALT = false
        ∧ t.flag (Reg.HST_CSTAT c) F.HST_CSTAT_RUN = true
        ∧ t.getF (Reg.HST_CCFG c) F.HST_CCFG_PRIV = s.getF (Reg.HST_CCFG c) F.HST_CCFG_PRIV
        ∧ SameRegs s t [Reg.HST_CCFG c, Reg.HST_CPOS c, Reg.HST_CSTAT c] ∧ Untouched s t [.regs, .hst])
  ∧ (∀ (s : State) (c : Fin 256) (v : Word), s.hostReaches = true →
      10 < fieldOf F.HST_CCFG_SQ_LOG2 v ∨ 10 < fieldOf F.HST_CCFG_CQ_LOG2 v
        ∨ (s.flag (Reg.HST_CCFG c) F.HST_CCFG_EN = true ∧ fieldOf F.HST_CCFG_SQ_LOG2 v ≠ s.getF (Reg.HST_CCFG c) F.HST_CCFG_SQ_LOG2)
        ∨ (s.flag (Reg.HST_CCFG c) F.HST_CCFG_EN = false ∧ (s.client c).sqbLow = true) →
      ∃ t, exec (.ringEnable c v) s = .next t ∧ t.getF (Reg.HST_CSTAT c) F.HST_CSTAT_ERR = 5 ∧ t.client c = s.client c
        ∧ SameRegs s t (Reg.HST_CSTAT c :: eventRegs) ∧ Untouched s t [.regs, .evt])
  ∧ (∀ (s : State) (c : Fin 256) (v : Word), (∀ x ∈ s.stg.txns, x.slot < 8) → s.hostReaches = true →
      s.flag (Reg.HST_CCFG c) F.HST_CCFG_EN = true →
      fieldOf F.HST_CCFG_SQ_LOG2 v = s.getF (Reg.HST_CCFG c) F.HST_CCFG_SQ_LOG2 → s.getF (Reg.HST_CCFG c) F.HST_CCFG_SQ_LOG2 ≤ 10 →
      fieldOf F.HST_CCFG_CQ_LOG2 v = s.getF (Reg.HST_CCFG c) F.HST_CCFG_CQ_LOG2 → s.getF (Reg.HST_CCFG c) F.HST_CCFG_CQ_LOG2 ≤ 10 →
      ∃ t, exec (.ringDisable c v) s = .next t ∧ t.flag (Reg.HST_CCFG c) F.HST_CCFG_EN = false
        ∧ t.flag (Reg.HST_CSTAT c) F.HST_CSTAT_RUN = false ∧ (t.client c).fetching = 0
        ∧ (∀ d ∈ (t.client c).descs, d.stage = .waiting ∨ d.stage = .finished)
        ∧ t.flag (Reg.HST_CSTAT c) F.HST_CSTAT_QUIESCED = ((t.client c).descs.isEmpty && !(t.client c).discardDue)
        ∧ ((s.client c).descs = [] → s.txnOf c = none → (t.client c).discardDue = false
            ∧ ∀ p ∈ t.stg.pendings, p.client ≠ c.val))
  ∧ (∀ (s : State) (vec : Fin 264), s.hostReaches = true → s.hst.linkUp = true → s.hst.msixEnable = true →
      s.hst.msixMask = false → bit s.hst.msixPba vec = true →
      ∃ t, exec (.msixUnmask vec) s = .next t ∧ bit t.hst.msixPba vec = false ∧ (t.msixWord vec 3).toNat % 2 = 0
        ∧ t.out = s.out ++ [.msix vec ((s.msixWord vec 0).toNat + 2 ^ 32 * (s.msixWord vec 1).toNat) (s.msixWord vec 2)]
        ∧ SameRegs s t [] ∧ Untouched s t [.hst, .out])
  ∧ (∀ (s : State) (vec : Fin 264), s.hostReaches = true → bit s.hst.msixPba vec = false →
      ∃ t, exec (.msixUnmask vec) s = .next t ∧ (t.msixWord vec 3).toNat % 2 = 0 ∧ t.out = s.out ∧ SameRegs s t []
        ∧ Untouched s t [.hst])
  ∧ (∀ (s : State) (c : Fin 256), (s.client c).irqPend ≠ 0 → s.flag (Reg.HST_CCFG c) F.HST_CCFG_IRQ_EN = true →
      s.getF (Reg.HST_CIMOD c) F.HST_CIMOD_TIME_US ≠ 0 →
      exec (.irqTimer c) s = .next ((s.setClient c { s.client c with irqPend := 0 }).signal c)
      ∧ SameRegs s ((s.setClient c { s.client c with irqPend := 0 }).signal c) [])
  ∧ (∀ (s : State) (c : Fin 256), (s.client c).irqPend = 0 ∨ s.flag (Reg.HST_CCFG c) F.HST_CCFG_IRQ_EN = false
        ∨ s.getF (Reg.HST_CIMOD c) F.HST_CIMOD_TIME_US = 0 →
      exec (.irqTimer c) s = .next s)

/-! ## Descriptors on their way through a ring -/

/-- R105: a fetch reads at most 8 descriptors, none past the end of the ring, and keeps a completion entry for each; what arrives joins
the ring in order; a read that is answered with another length changes nothing. -/
def Obligations.Fetching : Prop :=
  (∀ (s : State) (c : Fin 256), s.fetchCount c = 0 → exec (.descriptorFetch c) s = .next s)
  ∧ (∀ (s : State) (c : Fin 256) (n : Nat), s.fetchCount c = n → n ≠ 0 → s.hst.linkUp = true →
      ∃ t, exec (.descriptorFetch c) s = .next t ∧ t.client c = { s.client c with fetching := n } ∧ n ≤ 8
        ∧ s.getF (Reg.HST_CPOS c) F.HST_CPOS_SQ_HEAD + n ≤ s.sqSize c
        ∧ t.out = s.out ++ [.hostRead s.hst.nextRid (s.pair64 (Reg.HST_SQB_LO c) (Reg.HST_SQB_HI c)
            + 64 * s.getF (Reg.HST_CPOS c) F.HST_CPOS_SQ_HEAD) (64 * n)]
        ∧ SameRegs s t [] ∧ Untouched s t [.hst, .out])
  ∧ (∀ (s : State) (rid addr len c idx n : Nat) (bytes : List Byte), c < 256 → s.hst.linkUp = true →
      s.getF (Reg.HST_CCFG c) F.HST_CCFG_SQ_LOG2 ≤ 10 →
      s.hst.reads.find? (fun r => r.rid == rid) = some ⟨rid, addr, len, .fetch c idx n⟩ → bytes.length = len →
      ∃ t, exec (.hostMemoryReadData rid bytes) s = .next t
        ∧ (t.client c).descs = (s.client c).descs ++ cutDescs (s.sqSize c) n idx bytes ∧ (t.client c).fetching = 0
        ∧ t.getF (Reg.HST_CPOS c) F.HST_CPOS_SQ_HEAD = (idx + n) % s.sqSize c
        ∧ (∀ r ∈ t.hst.reads, r.rid ≠ rid) ∧ SameRegs s t [Reg.HST_CPOS c, Reg.HST_CSTAT c] ∧ Untouched s t [.regs, .hst])
  ∧ (∀ (s : State) (r : HostRead) (bytes : List Byte), s.hst.reads.find? (fun x => x.rid == r.rid) = some r → bytes.length ≠ r.len →
      exec (.hostMemoryReadData r.rid bytes) s = .next s)

/-- Descriptor `d` of client `c` has started: the client's turn goes on, and the descriptor is under way (R104, R107). -/
def begun (s : State) (c : Nat) (d : Desc) : State := (s.countTurn c).setDesc c d.idx (fun d => { d with stage := .waiting })

/-- The first descriptor of client `c` that has not started. -/
def headDesc (s : State) (c : Nat) : Option Desc :=
  (s.client c).descs.find? (fun d => !(d.stage == .waiting || d.stage == .finished))

/-- R60, R61, R100: the checks at the head of a ring. An opcode that is not defined ends at once; a NOP passes; a STG_ROLLBACK while HST
is not ready fails at once or is held, as its client is configured, and goes on when the bit sets or ends when its time runs out. A codec
job and a calibration step take their places in the orders of R439 and R498 as they pass. R101, R104, R97, R107: a NOP of the client that
the arbiter picks, which may start, completes as OK; alone in its ring on a head, its completion is written at the tail of the completion
ring at once, and the ring is empty. What goes beyond the rules' words is the model's own (log entry 38). -/
def Obligations.HeadOfRing : Prop :=
  (∀ (s : State) (c : Fin 256) (d : Desc), headDesc s c = some d → d.stage = .fetched → s.flag (Reg.HST_CSTAT c) F.HST_CSTAT_RUN = true →
      opcodes.contains d.opcode = false →
      exec (.descriptorHead c) s = .next ((s.setDesc c d.idx (fun d => { d with txn := 0 })).finish c d.idx (Cpl.of 0x10)))
  ∧ (∀ (s : State) (c : Fin 256) (d : Desc), headDesc s c = some d → d.stage = .fetched → s.flag (Reg.HST_CSTAT c) F.HST_CSTAT_RUN = true →
      d.opcode = 0 → d.flags < 4 → d.length ≠ 0xFFFFFFFF →
      ∃ t, exec (.descriptorHead c) s = .next t
        ∧ (t.client c).descs = (s.client c).descs.map (fun e => if e.idx = d.idx then { e with txn := 0, stage := .ready } else e)
        ∧ SameRegs s t [] ∧ Untouched s t [.hst])
  ∧ (∀ (s : State) (c : Fin 256) (d : Desc), headDesc s c = some d → d.stage = .fetched → s.flag (Reg.HST_CSTAT c) F.HST_CSTAT_RUN = true →
      d.opcode = 3 → d.flags < 4 → d.length = 4 → s.isReady 0 = false → s.flag (Reg.HST_CCFG c) F.HST_CCFG_FAIL_FAST = true →
      exec (.descriptorHead c) s = .next ((s.setDesc c d.idx (fun d => { d with txn := 0 })).finish c d.idx (Cpl.of 0x20)))
  ∧ (∀ (s : State) (c : Fin 256) (d : Desc), headDesc s c = some d → d.stage = .fetched → s.flag (Reg.HST_CSTAT c) F.HST_CSTAT_RUN = true →
      d.opcode = 3 → d.flags < 4 → d.length = 4 → s.isReady 0 = false → s.flag (Reg.HST_CCFG c) F.HST_CCFG_FAIL_FAST = false →
      ∃ t, exec (.descriptorHead c) s = .next t
        ∧ (t.client c).descs = (s.client c).descs.map (fun e => if e.idx = d.idx then
            { e with txn := 0, stage := .held (s.getF (Reg.HST_CCFG c) F.HST_CCFG_RDY_WAIT != 0) } else e)
        ∧ SameRegs s t [] ∧ Untouched s t [.hst])
  ∧ (∀ (s : State) (c : Fin 256) (d : Desc), (s.client c).descs.find? (fun d => d.stage == .held true) = some d → s.needsMet d = false →
      s.flag (Reg.HST_CSTAT c) F.HST_CSTAT_RUN = true → d.opcode ≠ 2 → exec (.readyTimeout c) s = .next (s.finish c d.idx (Cpl.of 0x21)))
  ∧ (∀ (s : State) (c : Fin 256) (d : Desc), (s.client c).descs.find? (fun d => d.stage == .held true) = some d →
      s.needsMet d = true ∨ s.flag (Reg.HST_CSTAT c) F.HST_CSTAT_RUN = false →
      exec (.readyTimeout c) s = .next s)
  ∧ (∀ (s : State) (c : Fin 256) (d : Desc),
      (s.client c).descs.find? (fun d => d.stage == .held true || d.stage == .held false) = some d → s.needsMet d = true →
      ∃ t, exec (.descriptorUnhold c) s = .next t
        ∧ (t.client c).descs = (s.client c).descs.map (fun e => if e.idx = d.idx then { e with stage := .ready } else e)
        ∧ t.thc.passed = (if d.opcode = 0x10 ∨ d.opcode = 0x11 then s.thc.passed.filter (fun j => j ≠ (c.val, d.idx)) ++ [(c.val, d.idx)]
            else s.thc.passed)
        ∧ t.cal.passed = (if d.opcode = 0x20 then s.cal.passed.filter (fun j => j ≠ (c.val, d.idx)) ++ [(c.val, d.idx)] else s.cal.passed)
        ∧ t.thc.queue = s.thc.queue ∧ t.cal.queue = s.cal.queue ∧ SameRegs s t [] ∧ Untouched s t [.hst, .thc, .cal])
  ∧ (∀ (s : State) (c : Fin 256) (d : Desc),
      (s.client c).descs.find? (fun d => d.stage == .held true || d.stage == .held false) = some d → s.needsMet d = false →
      exec (.descriptorUnhold c) s = .next s)
  ∧ (∀ (s : State) (c : Fin 256) (d : Desc), s.startable c (fun d => d.opcode == 0 || d.length == 0) = some d →
      exec (.nop c) s = .next ((begun s c d).finish c d.idx (Cpl.of 0)))
  ∧ (∀ (s : State) (c : Fin 256), s.startable c (fun d => d.opcode == 0 || d.length == 0) = none → exec (.nop c) s = .next s)
  ∧ (∀ (s : State) (c : Fin 256) (d : Desc) (sq cq tail : Nat), (s.client c).descs = [d] → d.stage = .ready → d.opcode = 0 → d.txn = 0 →
      s.arbiter = some c.val → (s.client c).cqDead = false → (s.client c).discardDue = false → s.stg.closing = [] →
      s.hst.linkUp = true → s.rdg.hostTags = [] → s.rdg.hostWait = [] → s.flag (Reg.HST_CCFG c) F.HST_CCFG_IRQ_EN = false →
      sq = s.sqSize c → cq = s.cqSize c → s.getF (Reg.HST_CCFG c) F.HST_CCFG_CQ_LOG2 ≤ 10 →
      tail = s.getF (Reg.HST_CPOS c) F.HST_CPOS_CQ_TAIL →
      ∃ t, exec (.nop c) s = .next t ∧ (t.client c).descs = []
        ∧ t.out = s.out ++ [.hostWrite (s.pair64 (Reg.HST_CQB_LO c) (Reg.HST_CQB_HI c) + 16 * tail)
            (cplBytes (slice 2 2 d.raw) (Cpl.of 0) (((s.client c).pass + 1) % 2) ((d.idx + 1) % sq))]
        ∧ t.getF (Reg.HST_CPOS c) F.HST_CPOS_CQ_TAIL = (tail + 1) % cq
        ∧ (t.client c).pass = (if tail + 1 = cq then (s.client c).pass + 1 else (s.client c).pass)
        ∧ SameRegs s t (cplRegs c) ∧ Untouched s t [.regs, .hst, .evt, .out])

/-- R108: a failed fetch and a failed completion write halt the ring; a failed data access completes its descriptor as HOST_MEM_FAULT;
each with its event. What goes beyond the rules' words is the model's own (log entries 44 and 45). -/
def Obligations.RingFaults : Prop :=
  (∀ (s : State) (rid addr len c idx n : Nat), c < 256 → s.hst.linkUp = true →
      s.hst.reads.find? (fun r => r.rid == rid) = some ⟨rid, addr, len, .fetch c idx n⟩ →
      ∃ t, exec (.hostMemFault (.read rid)) s = .next t ∧ t.flag (Reg.HST_CSTAT c) F.HST_CSTAT_HALT = true
        ∧ t.getF (Reg.HST_CSTAT c) F.HST_CSTAT_ERR = 1 ∧ t.flag (Reg.HST_CSTAT c) F.HST_CSTAT_RUN = false
        ∧ (t.client c).fetching = 0 ∧ SameRegs s t (Reg.HST_CSTAT c :: eventRegs))
  ∧ (∀ (s : State) (c : Fin 256), s.hst.linkUp = true → s.stg.closing = [] → (s.client c).discardDue = false →
      ∃ t, exec (.hostMemFault (.completion c)) s = .next t ∧ (t.client c).cqDead = true ∧ t.flag (Reg.HST_CSTAT c) F.HST_CSTAT_HALT = true
        ∧ t.getF (Reg.HST_CSTAT c) F.HST_CSTAT_ERR = 2 ∧ t.flag (Reg.HST_CSTAT c) F.HST_CSTAT_RUN = false
        ∧ SameRegs s t (Reg.HST_CSTAT c :: eventRegs))
  ∧ (∀ (s : State) (c : Fin 256) (idx : Nat) (d : Desc), s.hst.linkUp = true → s.desc? c idx = some d →
      writesData d.opcode = true → d.length ≠ 0 → d.stage = .finished → d.cpl.status ≤ 1 →
      exec (.hostMemFault (.dataWrite c idx)) s
        = .next ((((s.event Ev.HST_RING_FAULT [(8, c.val), (16, d.tag)]).signal 261)).finish c idx (Cpl.of 0x40)))
  ∧ (∀ (s : State) (c : Fin 256) (idx : Nat) (d : Desc), s.hst.linkUp = true → s.desc? c idx = some d →
      writesData d.opcode = true → d.length ≠ 0 → d.stage ≠ .finished →
      exec (.hostMemFault (.dataWrite c idx)) s = .next (s.setDesc c idx (fun e => { e with wfail := true })))
  ∧ (∀ (s : State) (c idx : Nat) (d e : Desc) (rest : List Desc) (p : Cpl), p.status ≤ 1 →
      (s.client c).descs = d :: e :: rest → e.idx = idx → d.idx ≠ idx → e.wfail = true → e.txn = 0 → d.stage ≠ .finished →
      ∃ x, ((s.finish c idx p).client c).descs[1]? = some x ∧ x.stage = .finished ∧ x.cpl.status = 0x40)
  ∧ (∀ (s : State) (w : HostFaultAt), s.hst.linkUp = false → exec (.hostMemFault w) s = .next s)

/-! ## Staging transactions -/

/-- The registers that opening or closing the transaction in slot `n` of client `c` changes (R135, R136). -/
def slotRegs (n c : Nat) : List Nat :=
  [Reg.STG_SLOT_ID n, Reg.STG_SLOT_STATE n, Reg.STG_SLOT_MASK_LO n, Reg.STG_SLOT_MASK_HI n, Reg.HST_CSTAT c, Reg.WIN_STAT,
   Reg.STG_HELD_LO, Reg.STG_HELD_HI, Reg.STG_IDLE_PEND, Reg.STG_RSTAT]

/-- R95, R118 to R121, R136: STG_BEGIN opens a transaction in the lowest free slot with the identifier after the last one, or ends as
BAD_FIELD, TXN_OPEN, TXN_LIMIT or TXN_CONFLICT, in that order. The lowest free slot is the model's choice (log entry 129). -/
def Obligations.TransactionsOpen : Prop :=
  (∀ (s : State) (c : Fin 256) (d : Desc) (n : Nat), s.startable c (isOp 0x01) = some d → s.maskFault (d.arg2 0) = some n →
      exec (.stgBegin c) s = .next ((begun s c d).finish c d.idx (Cpl.of 0x11 0 0 n)))
  ∧ (∀ (s : State) (c : Fin 256) (d : Desc), s.startable c (isOp 0x01) = some d → s.maskFault (d.arg2 0) = none →
      (s.txnOf c).isSome = true →
      exec (.stgBegin c) s = .next ((begun s c d).finish c d.idx (Cpl.of 0x31)))
  ∧ (∀ (s : State) (c : Fin 256) (d : Desc), s.startable c (isOp 0x01) = some d → s.maskFault (d.arg2 0) = none →
      s.txnOf c = none → 8 ≤ s.stg.txns.length →
      exec (.stgBegin c) s = .next ((begun s c d).finish c d.idx (Cpl.of 0x32)))
  ∧ (∀ (s : State) (c : Fin 256) (d : Desc), s.startable c (isOp 0x01) = some d → s.maskFault (d.arg2 0) = none →
      s.txnOf c = none → s.stg.txns.length < 8 →
      s.heldGroups &&& heldMask (d.arg2 0) ≠ 0 → exec (.stgBegin c) s = .next ((begun s c d).finish c d.idx (Cpl.of 0x33)))
  ∧ (∀ (s : State) (c : Fin 256) (d : Desc) (n : Nat), s.startable c (isOp 0x01) = some d → s.maskFault (d.arg2 0) = none →
      s.txnOf c = none → s.stg.txns.length < 8 →
      s.heldGroups &&& heldMask (d.arg2 0) = 0 → s.freeSlot = some n →
      ∃ u, exec (.stgBegin c) s = .next (u.finish c d.idx (Cpl.of 0 (nextTxnId s.stg.lastId)))
        ∧ u.stg.lastId = nextTxnId s.stg.lastId
        ∧ u.stg.txns = s.stg.txns ++ [⟨n, nextTxnId s.stg.lastId, c, d.arg2 0, false, false, [], [], [], false, false, 0, false⟩]
        ∧ u.reg (Reg.STG_SLOT_ID n) = word (nextTxnId s.stg.lastId) ∧ u.reg (Reg.STG_SLOT_MASK_LO n) = word (d.arg2 0)
        ∧ u.getF (Reg.STG_SLOT_STATE n) F.STG_SLOT_STATE_CLIENT = c.val ∧ u.getF (Reg.STG_SLOT_STATE n) F.STG_SLOT_STATE_STATE = 1
        ∧ u.flag (Reg.HST_CSTAT c) F.HST_CSTAT_TXN = true ∧ u.flag Reg.WIN_STAT F.WIN_STAT_REFUSE = true
        ∧ u.reg Reg.STG_HELD_LO = word u.heldGroups ∧ SameRegs s u (slotRegs n c) ∧ Untouched s u [.regs, .hst, .stg])

/-- R122 to R124, R131, R136: direct writes that stage a value leave the value in force; STG_COMMIT starts its checks; STG_ROLLBACK closes
with nothing applied. What goes beyond the rules' words is the model's own (log entries 40 and 49). -/
def Obligations.StagingAndClosing : Prop :=
  (∀ (s : State) (off : Nat) (v : Word), s.hostReaches = true → isStaged off = true → off < 0x640000 →
      isLk off = false → s.txnOf 0 = none →
      exec (.stagedRegWrite off 15 v) s = .next (s.event Ev.STG_NO_TXN [(8, 0)]))
  ∧ (∀ (s : State) (off : Nat) (v : Word), s.hostReaches = true → isLk off = true → isStaged off = true →
      off < 0x640000 → s.panelLocked = true →
      exec (.stagedRegWrite off 15 v) s = .next (s.event Ev.GBL_LK_WRITE []))
  ∧ (∀ (s : State) (off : Nat) (v : Word) (x : Txn), s.hostReaches = true → isStaged off = true → off < 0x640000 → isLk off = false →
      s.txnOf 0 = some x →
      bit x.mask (groupOf off) = false →
      exec (.stagedRegWrite off 15 v) s = .next ((s.failTxn x.id).event Ev.STG_GROUP_NOT_HELD [(8, 0), (32, x.id)]))
  ∧ (∀ (s : State) (off : Nat) (v : Word) (x : Txn), s.hostReaches = true → isStaged off = true → off < 0x640000 → isLk off = false →
      s.txnOf 0 = some x →
      bit x.mask (groupOf off) = true → x.regs.length < stageLimit →
      ∃ t, exec (.stagedRegWrite off 15 v) s = .next t
        ∧ (t.txnOf 0).map (fun y => aget (fun _ => 0) y.regs off) = some (maskFields off v)
        ∧ SameRegs s t [] ∧ Untouched s t [.stg])
  ∧ (∀ (s : State) (off : Nat) (be : BitVec 4) (v : Word), isStaged off = false → exec (.stagedRegWrite off be v) s = .next s)
  ∧ (∀ (s : State) (c : Fin 256) (d : Desc), s.startable c (isOp 0x02) = some d → (∀ x ∈ s.txnOf c, x.id ≠ d.arg 0) →
      exec (.stgCommit c) s = .next ((begun s c d).finish c d.idx (Cpl.of 0x30)))
  ∧ (∀ (s : State) (c : Fin 256) (d : Desc) (x : Txn), s.startable c (isOp 0x02) = some d → s.txnOf c = some x → x.id = d.arg 0 →
      x.checking = false →
      ∃ t, exec (.stgCommit c) s = .next t
        ∧ t.txnOf c = some { x with checking := true, viaReg := false, waitEffect := d.arg 1 == 1, commitIdx := d.idx }
        ∧ t.getF (Reg.STG_SLOT_STATE x.slot) F.STG_SLOT_STATE_STATE = 3
        ∧ SameRegs s t [Reg.STG_SLOT_STATE x.slot] ∧ Untouched s t [.regs, .hst, .stg])
  ∧ (∀ (s : State) (c : Fin 256) (d : Desc), s.startable c (isOp 0x03) = some d → (∀ x ∈ s.txnOf c, x.id ≠ d.arg 0) →
      exec (.stgRollback c) s = .next ((begun s c d).finish c d.idx (Cpl.of 0x30)))
  ∧ (∀ (s : State) (c : Fin 256) (d : Desc) (x : Txn), s.startable c (isOp 0x03) = some d → s.txnOf c = some x → x.id = d.arg 0 →
      x.checking = false → x.loads = [] →
      ∃ u, exec (.stgRollback c) s = .next (u.finish c d.idx (Cpl.of 0)) ∧ u.stg.txns = s.stg.txns.filter (fun y => y.id ≠ x.id)
        ∧ SameRegs s u (slotRegs x.slot x.client) ∧ Untouched s u [.regs, .hst, .stg, .win])

/-- R122, R125, R128, R136: the end of a commit's checks. A failed transaction and one at fault close with their record; a clean commit of
values that take effect at a frame boundary, made through STG_CMD while the scan runs, leaves every register in force and waits as
Pending; inside a freeze window nothing is decided. What goes beyond the rules' words is the model's own (log entries 54, 55, 134 and
136). -/
def Obligations.CommitsDecided : Prop :=
  (∀ (s : State) (c : Fin 256) (b : Bool), c.val ≠ 0 → s.txnOf c = none → exec (.commitDecide c b) s = .next s.retryWaiters)
  ∧ (∀ (s : State) (c : Fin 256) (x : Txn), s.txnOf c = some x → x.checking = true → x.frozen = false →
      (c.val = 0 → s.stg.cmdWait = none) → (∀ e ∈ s.tabs, e.2.waiters = []) →
      ∃ t, exec (.commitDecide c true) s = .next t ∧ t.txnOf c = some { x with frozen := true } ∧ SameRegs s t [] ∧ Untouched s t [.stg])
  ∧ (∀ (s : State) (c : Fin 256) (x : Txn), s.txnOf c = some x → x.checking = true → x.frozen = false → x.failed = true →
      (c.val = 0 → s.stg.cmdWait = none) →
      exec (.commitDecide c false) s
        = .next ((s.failCommit x 0xFFFFFFFF (if x.viaReg then none else some x.commitIdx)).endCommit x (Cpl.of 0x35)).retryWaiters)
  ∧ (∀ (s : State) (c : Fin 256) (x : Txn) (off : Nat) (rest : List Nat), s.txnOf c = some x → x.checking = true → x.frozen = false →
      x.failed = false → (c.val = 0 → s.stg.cmdWait = none) → s.commitFaults x = off :: rest →
      exec (.commitDecide c false) s
        = .next ((s.failCommit x (rest.foldl min off) (if x.viaReg then none else some x.commitIdx)).endCommit x (Cpl.of 0x36)).retryWaiters
      ∧ ∀ o ∈ s.commitFaults x, rest.foldl min off ≤ o)
  ∧ (∀ (s : State) (x : Txn), s.txnOf 0 = some x → x.checking = true → x.frozen = false → x.failed = false → x.viaReg = true →
      x.waitEffect = false → x.slot < 8 → x.client = 0 → s.commitFaults x = [] → s.scanRuns = true → s.gateArmed = false → x.regs ≠ [] →
      x.loads = [] → regsAt .atBoundary x.regs = x.regs → s.stg.idleWaits = [] → s.stg.rollWait = [] → s.stg.cmdWait = none →
      (s.client 0).discardDue = false → (∀ e ∈ s.tabs, e.2.waiters = []) →
      State.slotZeroKey { s with stg := { s.stg with
          pendings := s.stg.pendings ++ [⟨x.id, 0, x.mask, x.regs, [], false, false, x.commitIdx⟩] } } = s.slotZeroKey →
      ∃ t, exec (.commitDecide 0 false) s = .next t
        ∧ t.stg.pendings = s.stg.pendings ++ [⟨x.id, 0, x.mask, x.regs, [], false, false, x.commitIdx⟩]
        ∧ t.stg.txns = s.stg.txns.filter (fun y => y.id ≠ x.id)
        ∧ t.getF Reg.STG_RSTAT F.STG_RSTAT_STATUS = 0 ∧ t.flag Reg.STG_RSTAT F.STG_RSTAT_BUSY = false
        ∧ t.reg Reg.STG_RTXID = word x.id ∧ SameRegs s t (Reg.STG_RTXID :: slotRegs x.slot 0))

/-- R96, R103, R122: a register list through a ring: its list is read, the first entry at fault ends it with nothing applied, and a
register that is not staged takes its value before the completion. What goes beyond the rules' words is the model's own (log entry 39). -/
def Obligations.RegisterLists : Prop :=
  (∀ (s : State) (c : Fin 256) (d : Desc), s.startable c (isOp 0x04) = some d → s.hst.linkUp = true →
      ∃ t, exec (.regWrite c) s = .next t ∧ t.out = s.out ++ [.hostRead s.hst.nextRid d.haddr d.length]
        ∧ t.hst.reads = s.hst.reads ++ [⟨s.hst.nextRid, d.haddr, d.length, .data c d.idx⟩] ∧ SameRegs s t [] ∧ Untouched s t [.hst, .out])
  ∧ (∀ (s : State) (c : Fin 256) (d : Desc), s.startable c (isOp 0x05) = some d → s.hst.linkUp = true →
      ∃ t, exec (.regRead c) s = .next t ∧ t.out = s.out ++ [.hostRead s.hst.nextRid d.haddr d.length]
        ∧ t.hst.reads = s.hst.reads ++ [⟨s.hst.nextRid, d.haddr, d.length, .data c d.idx⟩] ∧ SameRegs s t [] ∧ Untouched s t [.hst, .out])
  ∧ (∀ (s : State) (rid addr c idx off : Nat) (d : Desc) (bytes : List Byte), s.hst.linkUp = true →
      s.hst.reads.find? (fun r => r.rid == rid) = some ⟨rid, addr, 8, .data c idx⟩ → bytes.length = 8 → s.desc? c idx = some d →
      d.stage = .waiting → d.opcode = 4 → d.length = 8 → off = leAt 0 4 bytes → off % 4 = 0 → off < 0x640000 → blockOf off ≠ 1 → isStaged off = false →
      s.isOn (domainOf off) = true → s.txnOf c = none →
      exec (.hostMemoryReadData rid bytes) s
        = .next ((((s.onHst (fun h => { h with reads := h.reads.filter (fun x => x.rid != rid) })).setDesc c idx (fun d => { d with txn := 0 })).applyWrite
            off (word (leAt 4 4 bytes))).finish c idx (Cpl.of 0 8)))
  ∧ (∀ (s : State) (rid addr c idx off : Nat) (d : Desc) (bytes : List Byte), s.hst.linkUp = true →
      s.hst.reads.find? (fun r => r.rid == rid) = some ⟨rid, addr, 8, .data c idx⟩ → bytes.length = 8 → s.desc? c idx = some d →
      d.stage = .waiting → d.opcode = 4 → d.length = 8 → off = leAt 0 4 bytes → isStaged off = false → off % 4 ≠ 0 ∨ 0xC00000 ≤ off ∨ blockOf off = 1 →
      exec (.hostMemoryReadData rid bytes) s
        = .next (((s.onHst (fun h => { h with reads := h.reads.filter (fun x => x.rid != rid) })).setDesc c idx (fun d => { d with txn := 0 })).finish
            c idx (Cpl.of 0x11 0 0 0)))

/-- R94, R102, R103, R130: a table load belongs to its client's transaction, which holds the table's group, and fits the copy; a table
read copies its bytes to host memory. Both wait for a copy that resynchronises. What goes beyond the rules' words is the model's own (log
entries 42 and 136). -/
def Obligations.TableLoadsAndReads : Prop :=
  (∀ (s : State) (c : Fin 256) (d : Desc), s.startable c (isOp 0x06) = some d → s.txnOf c = none →
      exec (.tblLoad c) s = .next (((begun s c d).setDesc c d.idx (fun e => { e with txn := 0 })).finish c d.idx (Cpl.of 0x30)))
  ∧ (∀ (s : State) (c : Fin 256) (d : Desc) (x : Txn), s.startable c (isOp 0x06) = some d → s.txnOf c = some x →
      bit x.mask (tableGroup d.target) = false →
      exec (.tblLoad c) s = .next (((begun s c d).setDesc c d.idx (fun e => { e with txn := s.loadTxn c })).finish c d.idx (Cpl.of 0x34)))
  ∧ (∀ (s : State) (c : Fin 256) (d : Desc) (x : Txn), s.startable c (isOp 0x06) = some d → s.txnOf c = some x →
      bit x.mask (tableGroup d.target) = true → d.toff + d.length ≤ s.copySize d.target true → layerTables.contains d.target = false →
      (s.table d.target).resync = false → (tableDomains d.target).all s.isOn = true → s.step2Stops = false → s.hst.linkUp = true →
      d.moved = 0 →
      ∃ t, exec (.tblLoad c) s = .next t ∧ t.out = s.out ++ [.hostRead s.hst.nextRid d.haddr (min 4096 d.length)]
        ∧ (∃ y, t.txnOf c = some y ∧ d.target ∈ y.loads ∧ (d.target, d.toff, d.length) ∈ y.ranges ∧ y.regs = x.regs)
        ∧ SameRegs s t [] ∧ Untouched s t [.hst, .stg, .out])
  ∧ (∀ (s : State) (c : Fin 256) (d : Desc), s.startable c (isOp 0x07) = some d →
      s.copySize d.target (d.arg 0 == 1) < d.toff + d.length →
      exec (.tblRead c) s
        = .next ((begun s c d).finish c d.idx (tooLarge (d.toff + d.length) (s.copySize d.target (d.arg 0 == 1)) 4)))
  ∧ (∀ (s : State) (c : Fin 256) (d : Desc), s.startable c (isOp 0x07) = some d →
      d.toff + d.length ≤ s.copySize d.target (d.arg 0 == 1) → d.length ≤ d.limit → d.opcode = 7 → d.arg 0 = 0 →
      (tableDomains d.target).all s.isOn = true → s.step2Stops = false →
      exec (.tblRead c) s
        = .next ((((begun s c d).readTable c d).2.writeHost d.haddr2 ((begun s c d).readTable c d).1 (some (c.val, d.idx))).finish c d.idx
            (Cpl.of 0 d.length d.length)))
  ∧ (∀ (s : State) (c : Fin 256) (d : Desc) (n : Nat), s.startable c (isOp 0x07) = some d →
      d.toff + d.length ≤ s.copySize d.target (d.arg 0 == 1) → d.length ≤ d.limit → d.opcode = 7 → d.arg 0 = 1 → d.target = n →
      (s.table n).resync = true → (tableDomains n).all s.isOn = true →
      exec (.tblRead c) s
        = .next ((begun s c d).setTable n { s.table n with waiters := (s.table n).waiters ++ [(c.val, d.idx)] }))
  ∧ (∀ (s : State) (n : Nat), (s.table n).resync = true → s.step2Stops = false → (∀ e ∈ s.tabs, e.2.waiters = []) →
      (s.table n).waiters = [] →
      ∃ t, exec (.resyncEnd n) s = .next t ∧ (t.table n).resync = false
      ∧ (t.table n).inact = (if n / 0x10000 = 2 then (s.table n).act.filter (fun e => decide (e.1 < s.tableCap n false)) else (s.table n).act)
        ∧ (t.table n).act = (s.table n).act)
  ∧ (∀ (s : State) (n : Nat), (s.table n).resync = false ∨ s.step2Stops = true → exec (.resyncEnd n) s = .next s)

/-- R131, R132, R136: the register path of the staging unit and the commit gate. What goes beyond the rules' words is the model's own (log
entries 50, 51 and 129). -/
def Obligations.RegisterPath : Prop :=
  (∀ (s : State) (v : Word), s.flag Reg.STG_RSTAT F.STG_RSTAT_BUSY = true →
      s.hostReaches = true →
      exec (.stgCmdBegin v) s = .next (s.event Ev.STG_CMD_BUSY ((8, 0) :: (s.txnOf 0).toList.map (fun t => (32, t.id)))))
  ∧ (∀ (s : State) (v : Word) (mask n id : Nat), s.hostReaches = true → s.flag Reg.STG_RSTAT F.STG_RSTAT_BUSY = false →
      mask = s.pair64 Reg.STG_MASK_LO Reg.STG_MASK_HI → s.maskAbsent mask = none → s.maskFault mask = none → s.isReady 0 = true →
      s.txnOf 0 = none → s.stg.txns.length < 8 → s.heldGroups &&& heldMask mask = 0 → s.freeSlot = some n → id = nextTxnId s.stg.lastId →
      ∃ t, exec (.stgCmdBegin v) s = .next t ∧ t.getF Reg.STG_RSTAT F.STG_RSTAT_STATUS = 0 ∧ t.reg Reg.STG_RTXID = word id
        ∧ t.stg.txns = s.stg.txns ++ [⟨n, id, 0, mask, false, false, [], [], [], false, false, 0, false⟩]
        ∧ SameRegs s t (Reg.STG_RTXID :: slotRegs n 0))
  ∧ (∀ (s : State) (v : Word) (mask st : Nat), s.hostReaches = true → s.flag Reg.STG_RSTAT F.STG_RSTAT_BUSY = false →
      mask = s.pair64 Reg.STG_MASK_LO Reg.STG_MASK_HI →
      (if (s.maskAbsent mask).isSome then some 0x22 else if (s.maskFault mask).isSome then some 0x11 else if s.isReady 0 = false then some 0x20
        else if (s.txnOf 0).isSome then some 0x31 else if 8 ≤ s.stg.txns.length then some 0x32
        else if s.heldGroups &&& heldMask mask ≠ 0 then some 0x33 else none) = some st →
      ∃ t, exec (.stgCmdBegin v) s = .next t ∧ t.getF Reg.STG_RSTAT F.STG_RSTAT_STATUS = st ∧ t.flag Reg.STG_RSTAT F.STG_RSTAT_BUSY = false
        ∧ SameRegs s t [Reg.STG_RSTAT] ∧ Untouched s t [.regs])
  ∧ (∀ (s : State) (v : Word), s.hostReaches = true → s.flag Reg.STG_RSTAT F.STG_RSTAT_BUSY = true →
      exec (.stgCmdCommit v) s = .next (s.event Ev.STG_CMD_BUSY ((8, 0) :: (s.txnOf 0).toList.map (fun t => (32, t.id))))
      ∧ exec (.stgCmdRollback v) s = .next (s.event Ev.STG_CMD_BUSY ((8, 0) :: (s.txnOf 0).toList.map (fun t => (32, t.id))))
      ∧ exec (.forceRollback v) s = .next (s.event Ev.STG_CMD_BUSY ((8, 0) :: (s.txnOf 0).toList.map (fun t => (32, t.id)))))
  ∧ (∀ (s : State) (v : Word), s.hostReaches = true → s.flag Reg.STG_RSTAT F.STG_RSTAT_BUSY = false → s.txnOf 0 = none →
      (∃ t, exec (.stgCmdCommit v) s = .next t ∧ t.getF Reg.STG_RSTAT F.STG_RSTAT_STATUS = 0x30 ∧ SameRegs s t [Reg.STG_RSTAT])
      ∧ ∃ t, exec (.stgCmdRollback v) s = .next t ∧ t.getF Reg.STG_RSTAT F.STG_RSTAT_STATUS = 0x30 ∧ SameRegs s t [Reg.STG_RSTAT])
  ∧ (∀ (s : State) (v : Word) (x : Txn), s.hostReaches = true → s.flag Reg.STG_RSTAT F.STG_RSTAT_BUSY = false → s.txnOf 0 = some x →
      x.checking = false → x.slot < 8 → s.txnAbsent x = false → s.isReady 0 = true → (maskNeeds x.mask).all s.isReady = true →
      s.txnBusy 0 x.id = false →
      ∃ t, exec (.stgCmdCommit v) s = .next t ∧ t.flag Reg.STG_RSTAT F.STG_RSTAT_BUSY = true ∧ t.reg Reg.STG_RTXID = word x.id
        ∧ t.txnOf 0 = some { x with checking := true, viaReg := true, waitEffect := false, commitIdx := 0 }
        ∧ SameRegs s t [Reg.STG_RTXID, Reg.STG_RSTAT, Reg.STG_SLOT_STATE x.slot])
  ∧ (∀ (s : State) (v : Word) (x : Txn), s.hostReaches = true → s.flag Reg.STG_RSTAT F.STG_RSTAT_BUSY = false → s.txnOf 0 = some x →
      x.checking = false → s.isReady 0 = true → exec (.stgCmdRollback v) s = .next ((s.dropTxn x).endStgCmd 0 (some x.id)))
  ∧ (∀ (s : State) (v : Word) (x : Txn), s.hostReaches = true → s.flag Reg.STG_RSTAT F.STG_RSTAT_BUSY = false → s.txnOf 0 = some x →
      x.checking = false → s.isReady 0 = true → x.loads = [] →
      ∃ t, exec (.stgCmdRollback v) s = .next t ∧ t.stg.txns = s.stg.txns.filter (fun y => y.id ≠ x.id)
        ∧ t.getF Reg.STG_RSTAT F.STG_RSTAT_STATUS = 0 ∧ t.flag Reg.STG_RSTAT F.STG_RSTAT_BUSY = false ∧ t.reg Reg.STG_RTXID = word x.id
        ∧ SameRegs s t (Reg.STG_RTXID :: slotRegs x.slot x.client) ∧ Untouched s t [.regs, .hst, .stg, .win])
  ∧ (∀ (s : State) (v : Word) (x : Txn), s.hostReaches = true → s.flag Reg.STG_RSTAT F.STG_RSTAT_BUSY = false → s.txnOf 0 = some x →
      s.isReady 0 = true → x.checking = true →
      ∃ t, exec (.stgCmdRollback v) s = .next t ∧ t.flag Reg.STG_RSTAT F.STG_RSTAT_BUSY = true
        ∧ t.stg = { s.stg with rollWait := s.stg.rollWait ++ [(256, x.id)] } ∧ SameRegs s t [Reg.STG_RSTAT] ∧ Untouched s t [.regs, .stg])
  ∧ (∀ (s : State) (v : Word) (x : Txn), s.hostReaches = true → s.flag Reg.STG_RSTAT F.STG_RSTAT_BUSY = false → s.txnOf 0 = some x →
      s.txnAbsent x = false → s.isReady 0 = true → (maskNeeds x.mask).all s.isReady = true → x.checking = true ∨ s.txnBusy 0 x.id = true →
      ∃ t, exec (.stgCmdCommit v) s = .next t ∧ t.flag Reg.STG_RSTAT F.STG_RSTAT_BUSY = true ∧ t.reg Reg.STG_RTXID = word x.id
        ∧ t.stg = { s.stg with cmdWait := some x.id } ∧ SameRegs s t [Reg.STG_RTXID, Reg.STG_RSTAT] ∧ Untouched s t [.regs, .stg])
  ∧ (∀ (s : State) (v : Word) (x : Txn), s.hostReaches = true → s.flag Reg.STG_RSTAT F.STG_RSTAT_BUSY = false →
      s.stg.txns.find? (fun t => t.slot == fieldOf F.STG_CMD_SLOT v) = some x → x.checking = false → s.isReady 0 = true →
      exec (.forceRollback v) s
        = .next (((s.dropTxn x).event Ev.STG_FORCED [(8, x.client), (32, x.id)]).endStgCmd 0 none))
  ∧ (∀ (s : State) (v : Word) (x : Txn), s.hostReaches = true → s.flag Reg.STG_RSTAT F.STG_RSTAT_BUSY = false →
      s.stg.txns.find? (fun t => t.slot == fieldOf F.STG_CMD_SLOT v) = some x → x.checking = false → s.isReady 0 = true → x.loads = [] →
      ∃ t, exec (.forceRollback v) s = .next t ∧ t.stg.txns = s.stg.txns.filter (fun y => y.id ≠ x.id)
        ∧ t.getF Reg.STG_RSTAT F.STG_RSTAT_STATUS = 0 ∧ t.flag Reg.STG_RSTAT F.STG_RSTAT_BUSY = false
        ∧ SameRegs s t (slotRegs x.slot x.client ++ eventRegs) ∧ Untouched s t [.regs, .hst, .stg, .win, .evt])
  ∧ (∀ (s : State) (v : Word) (x : Txn), s.hostReaches = true → s.flag Reg.STG_RSTAT F.STG_RSTAT_BUSY = false →
      s.stg.txns.find? (fun t => t.slot == fieldOf F.STG_CMD_SLOT v) = some x → x.checking = true → s.isReady 0 = true →
      ∃ t, exec (.forceRollback v) s = .next t ∧ t.flag Reg.STG_RSTAT F.STG_RSTAT_BUSY = true
        ∧ t.stg = { s.stg with rollWait := s.stg.rollWait ++ [(256, x.id)] } ∧ SameRegs s t [Reg.STG_RSTAT] ∧ Untouched s t [.regs, .stg])
  ∧ (∀ (s : State) (v : Word), s.hostReaches = true → s.flag Reg.STG_RSTAT F.STG_RSTAT_BUSY = false →
      (s.stg.txns.find? (fun t => t.slot == fieldOf F.STG_CMD_SLOT v)).isNone = true ∨ s.isReady 0 = false →
      ∃ t, exec (.forceRollback v) s = .next t ∧ t.flag Reg.STG_RSTAT F.STG_RSTAT_BUSY = false
        ∧ t.getF Reg.STG_RSTAT F.STG_RSTAT_STATUS
          = (if (s.stg.txns.find? (fun t => t.slot == fieldOf F.STG_CMD_SLOT v)).isNone then 0x30 else 0x20)
        ∧ SameRegs s t [Reg.STG_RSTAT] ∧ Untouched s t [.regs])
  ∧ (∀ (s : State) (v : Word), s.hostReaches = true → s.gateHolds = true →
      exec (.gateArm v) s = .next (s.event Ev.STG_GATE_BUSY s.gateItems)
        ∧ exec (.stgGateLoWrite v) s = .next (s.event Ev.STG_GATE_BUSY s.gateItems))
  ∧ (∀ (s : State) (v : Word) (f : Nat), s.hostReaches = true → s.gateHolds = false →
      f = s.getF Reg.STG_GATE_LO F.STG_GATE_LO_AT_LO + 2 ^ 32 * fieldOf F.STG_GATE_HI_AT_HI v → (f ≤ s.gen.fc ∨ s.gen.fc + 0xFFFF < f) →
      exec (.gateArm v) s = .next (s.event Ev.STG_GATE_LATE s.gateItems))
  ∧ (∀ (s : State) (v : Word) (f : Nat), s.hostReaches = true → s.gateHolds = false →
      f = s.getF Reg.STG_GATE_LO F.STG_GATE_LO_AT_LO + 2 ^ 32 * fieldOf F.STG_GATE_HI_AT_HI v → s.gen.fc < f → f ≤ s.gen.fc + 0xFFFF →
      ∃ t, exec (.gateArm v) s = .next t ∧ t.gateArmed = true ∧ t.gateAt = f ∧ SameRegs s t [Reg.STG_GATE_HI] ∧ Untouched s t [.regs])
  ∧ (∀ (s : State) (v : Word), s.hostReaches = true → s.gateHolds = false →
      (∃ t, exec (.gateDisarm v) s = .next t ∧ t.gateArmed = false ∧ SameRegs s t [Reg.STG_GATE_HI] ∧ Untouched s t [.regs])
      ∧ ∃ t, exec (.stgGateLoWrite v) s = .next t ∧ t.reg Reg.STG_GATE_LO = v ∧ SameRegs s t [Reg.STG_GATE_LO] ∧ Untouched s t [.regs])
  ∧ (∀ (s : State) (v : Word), s.hostReaches = true → s.gateHolds = true →
      ∃ t, exec (.gateDisarm v) s = .next t ∧ t.gateArmed = false ∧ t.stg = s.stg ∧ SameRegs s t (Reg.STG_GATE_HI :: eventRegs))

/-! ## Time -/

/-- R184, R232, R233: a frame boundary with nothing pending, loaded or received steps the frame counter by one and moves the references
and the volume time on; with TBASE not ready, or in DORMANT, nothing happens. R241: at a frame reference each camera input ends its frame
period: an input that gave no valid sample has missed one more; one that is open waits for its closing edge, at most one period more. What
goes beyond the rules' words is the model's own (log entries 15, 16, 17 and 73). -/
def Obligations.BoundariesAndReferences : Prop :=
  (∀ (s : State) (n : NextFrame), s.isReady 7 = true → s.pwr.dormant = false → s.stg.pendings = [] → s.stg.txns = [] → s.rdg.sched = [] →
      s.rdg.vtStep = 0 → s.rdg.srcF = none → s.fcLoad = none → s.pnl.stopFrame = false → n = s.nextFrameOf →
      ∃ t, exec .frameBoundary s = .next t ∧ t.gen.fc = (s.gen.fc + 1) % 2 ^ 48 ∧ t.gen.ref = s.nextRef
        ∧ t.gen.bnd = s.nextRef + n.table.boff + n.delay ∧ t.gen.vt = max s.gen.vt t.gen.bnd ∧ t.gen.jump = 0 ∧ t.gen.given = none)
  ∧ (∀ s : State, s.isReady 7 = false ∨ s.pwr.dormant = true → exec .frameBoundary s = .next s)
  ∧ (∀ s : State, s.isReady 7 = true → s.pwr.dormant = false →
      ∃ t, exec .frameReference s = .next t ∧ t.gen.vt = max s.gen.vt s.nextRef
        ∧ (∀ n, n < 8 → (s.cam n).carried = false → (s.cam n).got = true → t.cam n = { s.cam n with got := false, opened := false })
        ∧ (∀ n, n < 8 → (s.cam n).carried = false → (s.cam n).got = false → (s.cam n).opened = false ∨ (s.cam n).openAt = none →
            (t.cam n).opened = false ∧ (t.cam n).miss = (s.cam n).miss + 1 ∧ (t.cam n).good = 0)
        ∧ (∀ n, n < 8 → (s.cam n).carried = false → (s.cam n).got = false → (s.cam n).opened = true → (s.cam n).openAt ≠ none →
            t.cam n = { s.cam n with opened := false, carried := true })
        ∧ (∀ n, n < 8 → (s.cam n).carried = true →
            (t.cam n).carried = false ∧ (t.cam n).openAt = none ∧ (t.cam n).miss = (s.cam n).miss + 2 ∧ (t.cam n).good = 0)
        ∧ SameRegs s t ((List.range 8).map Reg.GEN_CAM_OPEN ++ (List.range 8).map Reg.GEN_CAM_DUR
            ++ [Reg.GEN_CNT_SHUT_MISS, Reg.GEN_STAT] ++ eventRegs))
  ∧ (∀ s : State, s.isReady 7 = false ∨ s.pwr.dormant = true → exec .frameReference s = .next s)

/-- R234 to R238: the format of the genlock line, a genlock reference that matches in LOCKED and at the end of ACQUIRE, one at another
rate, and a signal that is lost. What goes beyond the rules' words is the model's own (log entry 72). -/
def Obligations.Genlock : Prop :=
  (∀ (s : State) (k : Fin 3) (h : Nat), s.isReady 7 = true → s.gen.lineKind = k.val → 15 ≤ s.gen.lineRun → s.fmtFits k = true →
      16800 ≤ h → h ≤ 84000 →
      ∃ t, exec (.genlockLine k h) s = .next t ∧ t.getF Reg.GEN_STAT F.GEN_STAT_FMT_DET = k.val + 1
        ∧ t.getF Reg.GEN_LINE F.GEN_LINE_H = h
        ∧ t.lockState = (if s.genSrc = 1 ∧ s.lockState = 1 then 2 else s.lockState)
        ∧ SameRegs s t [Reg.GEN_STAT, Reg.GEN_LINE] ∧ Untouched s t [.regs, .gen])
  ∧ (∀ (s : State) (k : Fin 3) (h : Nat), s.isReady 7 = true → s.gen.lineKind ≠ k.val →
      ∃ t, exec (.genlockLine k h) s = .next t ∧ t.gen.lineRun = 1 ∧ t.gen.lineKind = k.val ∧ SameRegs s t [] ∧ Untouched s t [.gen])
  ∧ (∀ (s : State) (t0 u n : Nat), s.isReady 7 = true → s.getF Reg.GEN_STAT F.GEN_STAT_FMT_DET ≠ 0 → 500 ≤ n → n ≤ 1250 → s.genSrc = 1 →
      s.lockState = 4 → s.gen.lastSync = some u → s.rateFits (s.syncPeriod n (t0 - u)) = true → (s.phaseError t0).natAbs ≤ 1200 →
      ∃ t, exec (.genlockSync t0 n) s = .next t ∧ t.getF Reg.GEN_LINE F.GEN_LINE_LINES = n
        ∧ t.reg Reg.GEN_PHERR = word (ofSigned 32 (s.phaseError t0)) ∧ t.lockState = 4 ∧ t.gen.badRun = 0 ∧ t.gen.lastSync = some t0
        ∧ t.gen.periods = (s.syncPeriod n (t0 - u) :: s.gen.periods).take 16 ∧ SameRegs s t [Reg.GEN_LINE, Reg.GEN_PHERR]
      ∧ Untouched s t [.regs, .gen])
  ∧ (∀ (s : State) (t0 u n : Nat), s.isReady 7 = true → s.getF Reg.GEN_STAT F.GEN_STAT_FMT_DET ≠ 0 → 500 ≤ n → n ≤ 1250 → s.genSrc = 1 →
      s.lockState = 3 → s.gen.lastSync = some u → s.rateFits (s.syncPeriod n (t0 - u)) = true → (s.phaseError t0).natAbs ≤ 120 →
      7 ≤ s.gen.okRun →
      ∃ t, exec (.genlockSync t0 n) s = .next t ∧ t.lockState = 4 ∧ t.flag Reg.GEN_STAT F.GEN_STAT_ALIGNED = true
        ∧ t.reg Reg.GEN_VT_UNC = 0
        ∧ SameRegs s t ([Reg.GEN_LINE, Reg.GEN_PHERR, Reg.GEN_STAT, Reg.GEN_VT_UNC] ++ eventRegs))
  ∧ (∀ (s : State) (t0 u n : Nat), s.isReady 7 = true → s.getF Reg.GEN_STAT F.GEN_STAT_FMT_DET ≠ 0 → 500 ≤ n → n ≤ 1250 → s.genSrc = 1 →
      s.lockState ≠ 7 → s.lockState ≠ 6 → s.gen.lastSync = some u → s.rateFits (s.syncPeriod n (t0 - u)) = false →
      ∃ t, exec (.genlockSync t0 n) s = .next t ∧ t.lockState = 6
        ∧ (t.reg Reg.GEN_CNT_UNLOCK).toNat = min ((s.reg Reg.GEN_CNT_UNLOCK).toNat + 1) 0xFFFFFFFF
        ∧ SameRegs s t ([Reg.GEN_LINE, Reg.GEN_STAT, Reg.GEN_CNT_UNLOCK] ++ eventRegs))
  ∧ (∀ (s : State) (t0 n : Nat), s.getF Reg.GEN_STAT F.GEN_STAT_FMT_DET = 0 ∨ n < 500 ∨ 1250 < n → exec (.genlockSync t0 n) s = .next s)
  ∧ (∀ s : State, s.genSrc = 1 → s.lockState = 4 →
      ∃ t, exec .genlockNoSignal s = .next t ∧ t.lockState = 5 ∧ t.gen.lastSync = none
        ∧ SameRegs s t ([Reg.GEN_STAT, Reg.GEN_CNT_UNLOCK] ++ eventRegs) ∧ Untouched s t [.regs, .gen, .evt])
  ∧ (∀ s : State, s.genSrc = 1 → s.lockState ≠ 7 → s.lockState ≠ 4 →
      ∃ t, exec .genlockNoSignal s = .next t ∧ t.lockState = 1 ∧ t.getF Reg.GEN_STAT F.GEN_STAT_FMT_DET = 0 ∧ t.reg Reg.GEN_LINE = 0
        ∧ t.gen.slew = 0 ∧ t.gen.jump = 0 ∧ SameRegs s t [Reg.GEN_STAT, Reg.GEN_LINE] ∧ Untouched s t [.regs, .gen])
  ∧ (∀ s : State, s.genSrc ≠ 1 ∨ s.lockState = 7 →
      ∃ t, exec .genlockNoSignal s = .next t ∧ t.lockState = s.lockState ∧ t.getF Reg.GEN_STAT F.GEN_STAT_FMT_DET = 0
        ∧ t.reg Reg.GEN_LINE = 0 ∧ t.gen.lastSync = none ∧ SameRegs s t [Reg.GEN_STAT, Reg.GEN_LINE] ∧ Untouched s t [.regs, .gen])
  ∧ (∀ (s : State) (k : Fin 3) (h : Nat), s.isReady 7 = true → s.gen.lineKind = k.val → 15 ≤ s.gen.lineRun →
      s.fmtFits k = false ∨ h < 16800 ∨ 84000 < h →
      ∃ t, exec (.genlockLine k h) s = .next t ∧ t.getF Reg.GEN_STAT F.GEN_STAT_FMT_DET = 0 ∧ t.gen.lastSync = none
        ∧ t.lockState = s.lockState ∧ SameRegs s t [Reg.GEN_STAT, Reg.GEN_LINE] ∧ Untouched s t [.regs, .gen])

/-- R240, R249, R255: the edges of a camera shutter input, a measurement of the AON clock, and a read of the low half of a time register,
which holds its high half until that is read. What goes beyond the rules' words is the model's own (log entries 73, 74 and 77). -/
def Obligations.ClocksAndShutters : Prop :=
  (∀ (s : State) (n : Fin 8) (r : Bool) (t0 : Nat), s.isReady 7 = true → s.camOpens n r = true → (s.cam n).opened = false →
      ∃ t, exec (.camShutterEdge n r t0) s = .next t
      ∧ t.cam n = { s.cam n with opened := true, openAt := some t0, openOff := s.sinceRef t0 }
        ∧ (∀ k, k ≠ n.val → t.cam k = s.cam k) ∧ SameRegs s t [] ∧ Untouched s t [.gen])
  ∧ (∀ (s : State) (n : Fin 8) (r : Bool) (t0 : Nat), s.isReady 7 = true → s.camOpens n r = true → (s.cam n).opened = true →
      exec (.camShutterEdge n r t0) s = .next ((s.bump Reg.GEN_CNT_SHUT_EXTRA 1).event Ev.GEN_SHUT_EXTRA [(8, n.val)]))
  ∧ (∀ (s : State) (n : Fin 8) (r : Bool) (o d : Nat), s.isReady 7 = true → s.camOpens n r = false → (s.cam n).openAt = some o →
      1200 ≤ d → d + 1200 ≤ s.period → s.camAvg n = 1 → (s.cam n).carried = false →
      ∃ t, exec (.camShutterEdge n r (o + d)) s = .next t ∧ t.reg (Reg.GEN_CAM_OPEN n) = word (s.cam n).openOff
        ∧ t.reg (Reg.GEN_CAM_DUR n) = word d ∧ t.camValid n = true ∧ (t.cam n).miss = 0 ∧ (t.cam n).got = true
        ∧ SameRegs s t ([Reg.GEN_CAM_OPEN n, Reg.GEN_CAM_DUR n, Reg.GEN_STAT] ++ eventRegs) ∧ Untouched s t [.regs, .gen, .evt])
  ∧ (∀ (s : State) (n : Fin 8) (r : Bool) (t0 : Nat), s.camOpens n r = false → (s.cam n).openAt = none →
      exec (.camShutterEdge n r t0) s = .next s)
  ∧ (∀ (s : State) (n : Fin 8) (r : Bool) (o d : Nat), s.isReady 7 = true → s.camOpens n r = false → (s.cam n).openAt = some o →
      d < 1200 ∨ s.period < d + 1200 → (s.cam n).carried = false →
      ∃ t, exec (.camShutterEdge n r (o + d)) s = .next t ∧ t.cam n = { s.cam n with openAt := none, good := 0 }
        ∧ (∀ k, k ≠ n.val → t.cam k = s.cam k) ∧ SameRegs s t [] ∧ Untouched s t [.gen])
  ∧ (∀ (s : State) (m : Nat), s.isReady 7 = true → s.pwr.dormant = false → s.getF Reg.PWR_STATE F.PWR_STATE_CUR ≠ 1 →
      ∃ t, exec (.aonkMeasure m) s = .next t ∧ t.gen.aonkMeasured = true
        ∧ t.reg Reg.GEN_AONK = word ((rneDiv ((m : Int) * s.xtalFactor) (16 * 256000000000)).toNat % 2 ^ 32)
        ∧ SameRegs s t [Reg.GEN_AONK] ∧ Untouched s t [.regs, .gen])
  ∧ (∀ s : State, s.isReady 7 = false ∨ s.pwr.dormant = true ∨ s.getF Reg.PWR_STATE F.PWR_STATE_CUR = 1 →
      ∀ m, exec (.aonkMeasure m) s = .next s)
  ∧ (∀ (s : State) (k : Fin 3) (v hi : Nat), s.hostReaches = true → s.stallDomain Reg.GEN_FC_LO = none →
      v = [s.gen.fc, s.gen.vt, s.gen.bnd].getD k 0 → hi = [Reg.GEN_FC_HI, Reg.GEN_VT_HI, Reg.GEN_BND_HI].getD k 0 →
      ∃ t, exec (.genLoRead k) s = .next t ∧ t.out = s.out ++ [.readReply (word v)] ∧ t.readTime hi = some (word (v / 2 ^ 32))
        ∧ (∀ f, ({ t with gen := { t.gen with fc := f, vt := f, bnd := f } } : State).readTime hi = some (word (v / 2 ^ 32)))
        ∧ SameRegs s t [] ∧ Untouched s t [.gen, .out])

/-! ## Slots and rows -/

/-- R188, R189, R202, R248, R338: a slot of the frame in force is decided at its deadline, once, and then slot 0 of the next frame; what
the decision takes for a target that is complete and for one that is missed. What goes beyond the rules' words is the model's own (log
entries 15, 17, 79 and 134). -/
def Obligations.SlotsDecided : Prop :=
  (∀ s : State, s.scanRuns = false → s.seq ≠ 2 → exec .slotDeadline s = .next s)
  ∧ (∀ (s : State) (k : Nat), s.scanRuns = true → s.hrt.slots = k → k < s.nSlot →
      ∃ t, exec .slotDeadline s = .next t ∧ t.hrt.slots = k + 1 ∧ t.hrt.anySlot = true
        ∧ t.gen.vt = max s.gen.vt (s.gen.bnd + s.slotDelta k - s.lead (s.slotView k))
        ∧ (∃ p ∈ t.hrt.plans, p.frame = s.gen.fc ∧ p.slot = k ∧ p.view = s.slotView k ∧ p.picks.length = 5))
  ∧ (∀ (s : State) (x : SlotDue), s.scanRuns = true → s.nSlot ≤ s.hrt.slots → s.hrt.ahead = false → s.slotZero = some x →
      ∃ t, exec .slotDeadline s = .next t ∧ t.hrt.slots = s.hrt.slots ∧ t.hrt.ahead = true
        ∧ (∃ p ∈ t.hrt.plans, p.frame = x.frame ∧ p.slot = 0 ∧ p.view = x.view ∧ p.picks.length = 5))
  ∧ (∀ s : State, s.scanRuns = true → s.nSlot ≤ s.hrt.slots → s.hrt.ahead = true → exec .slotDeadline s = .next s)
  ∧ (∀ (s : State) (v x f k d i : Nat), v < 8 → x < 5 → s.lineLock v = false → s.hearthStep = false → s.vhold = false →
      s.plateNamed v x f = none → s.bufOf (s.tsel v x) f = some i → (s.buf i).complete = true → (s.buf i).doneAt ≤ d →
      (s.run v x).age = 0 →
      (s.decideTarget v x f k d).1 = .live i ∧ (s.decideTarget v x f k d).2.1 = false)
  ∧ (∀ (s : State) (v x f k d i : Nat), v < 8 → x < 5 → s.lineLock v = false → s.vhold = false →
      s.plateNamed v x f = none → s.doneBy v x f d = false → (s.run v x).age = 0 → (s.src (s.tsel v x)).asleep = false →
      (s.chain v x false).head? = some 1 → s.holdBelow (s.tsel v x) f = some i →
      s.getF (Reg.VIEW_HTIME v) F.VIEW_HTIME_HOLD_MAX = 0 →
      (s.decideTarget v x f k d).1 = .held i 256
        ∧ ((s.decideTarget v x f k d).2.2.reg (Reg.VIEW_CNT_MISS v)).toNat = min ((s.reg (Reg.VIEW_CNT_MISS v)).toNat + 1) 0xFFFFFFFF
        ∧ ((s.decideTarget v x f k d).2.2.run v x).age = 1)
  ∧ (∀ s : State, s.vhold = false → exec .holdDecision s = .next s)
  ∧ (∀ (s : State) (n : SlotDue), s.vhold = true → s.scanRuns = true → s.nextSlot = some n →
      ∃ t m, exec .holdDecision s = .next t ∧ t.hrt.found = some (n.frame, n.slot, m)
        ∧ (∀ x ∈ n.regs.usedTargets n.view, bit m x = (s.hearthStep || !s.doneBy n.view x n.frame (n.at_ - 3600)))
        ∧ SameRegs s t [] ∧ Untouched s t [.gen, .rdg, .links, .hrt, .out])

/-- R188, R243, R318, R369: the scan of a decided slot starts, and each row time drives one row of each half: a code of at most 16,383 for
each subpixel of the row. R356, R361: each driver that is up receives its share of the codes in the order of its link, 14 bits a code.
R362: the LOAD block ends in the latest block slot whose end lies at least 64 unit intervals before the change of the columns, which DLY
places within ±25 ps; the numbers are thirds of a unit interval. What goes beyond the rules' words is the model's own (log entries 15, 17,
93 and 94). -/
def Obligations.RowsScanned : Prop :=
  (∀ s : State, s.scanRuns = false ∨ s.hrt.scanSlot ≠ none ∨ s.nSlot ≤ s.hrt.scanned → exec .slotScanStart s = .next s)
  ∧ (∀ (s : State) (k : Nat), s.scanRuns = true → s.hrt.scanSlot = none → s.hrt.scanned = k → k < s.nSlot → k < s.hrt.slots →
      ∃ t, exec .slotScanStart s = .next t ∧ t.hrt.scanSlot = some k ∧ t.hrt.scanned = k + 1 ∧ t.hrt.row = 0
        ∧ t.gen.vt = max s.gen.vt (s.gen.bnd + s.slotDelta k) ∧ t.pipe.dsat = 0 ∧ t.pipe.mclip = 0 ∧ t.pipe.odsat = false
        ∧ t.hrt.plans.length = s.hrt.plans.length
        ∧ (s.bnk.bad = [] → s.bnk.soft = [] → (∀ p, s.planOf k = some p → s.lineLock p.view = false) →
            SameRegs s t [Reg.LTH_STAT] ∧ Untouched s t [.regs, .gen, .hrt, .pipe, .out]))
  ∧ (∀ (s : State) (es bs : List ReadError), s.hrt.scanSlot = none ∨ s.scanRuns = false → exec (.rowTime es bs) s = .next s)
  ∧ (∀ (s : State) (k y : Nat) (p : SlotPlan), s.scanRuns = true → s.hrt.scanSlot = some k → s.planOf k = some p → p.view < 8 →
      s.hrt.row + 1 < 768 → s.rowAt 0 s.hrt.row = some y →
      ∃ t, exec (.rowTime [] []) s = .next t ∧ t.hrt.row = s.hrt.row + 1 ∧ t.hrt.scanSlot = some k
        ∧ t.gen.vt = max s.gen.vt (s.gen.bnd + s.slotDelta p.slot + s.hrt.row * s.rowT)
        ∧ ∃ codes, .batRow 0 y codes ∈ t.out ∧ codes.length = 3 * s.width ∧ (∀ c ∈ codes, c ≤ 16383)
          ∧ ∀ j, j < 12 → s.drvUp j = true → (∀ c ∈ (s.driver j).queue, c.use ≠ .seq) →
              .batSend j y (spanRot (s.codesOf j) j) (s.codesOf j) (linkCodes (s.codesOf j) j codes)
                (loadPlace (s.driver j).grid (s.gen.bnd + s.slotDelta p.slot + s.hrt.row * s.rowT + s.getF Reg.LTH_TIME0 F.LTH_TIME0_DHOLD)).1
                (loadPlace (s.driver j).grid (s.gen.bnd + s.slotDelta p.slot + s.hrt.row * s.rowT + s.getF Reg.LTH_TIME0 F.LTH_TIME0_DHOLD)).2
                ∈ t.out)
  ∧ (∀ (s : State) (k : Nat) (p : SlotPlan), s.scanRuns = true → s.hrt.scanSlot = some k → s.planOf k = some p →
      s.hrt.row + 1 < 768 → s.rowAt 0 s.hrt.row = none → s.rowAt 1 s.hrt.row = none →
      ∃ t, exec (.rowTime [] []) s = .next t ∧ t.hrt.row = s.hrt.row + 1 ∧ t.out = s.out ∧ SameRegs s t [Reg.LTH_STAT]
        ∧ Untouched s t [.regs, .gen, .hrt, .pipe])
  ∧ (∀ grid x e d : Nat, grid < 195 → 387 ≤ 50 * x → (e, d) = loadPlace grid x →
      e % 195 = grid ∧ e + 192 ≤ 50 * x ∧ 50 * x < e + 192 + 195 ∧ 2 * (3 * d + e + 192) ≤ 2 * (50 * x) + 3
        ∧ 2 * (50 * x) ≤ 2 * (3 * d + e + 192) + 3)
  ∧ (∀ (codes : List Nat) (k c : Nat), (∀ x ∈ codes, x < 16384) → codes[k]? = some c →
      leNat (rowData codes) / 2 ^ (14 * k) % 2 ^ 14 = c ∧ (rowData codes).length % 16 = 0
        ∧ 8 * (rowData codes).length < 14 * codes.length + 128)

/-! ## Windows and colour tables -/

/-- R191, R192, R193: the compositor starts from the base frame and applies W0 to W3 in that order, each inside its rectangle, with the
coverage of the feather or of the mask and one rounding; what it makes of 18-bit values is an 18-bit value. A frame held with a fade has
its coverage scaled (R336). -/
def Obligations.WindowsComposed : Prop :=
  (∀ (s : State) (p : SlotPlan) (y : Nat),
      s.composeRow p y = s.drawWindow p.view 3 (p.picks.getD 4 .unused) y (s.drawWindow p.view 2 (p.picks.getD 3 .unused) y
        (s.drawWindow p.view 1 (p.picks.getD 2 .unused) y (s.drawWindow p.view 0 (p.picks.getD 1 .unused) y (s.baseRow p y)))))
  ∧ (∀ (s : State) (v w y : Nat) (k : Pick) (r : WRect) (acc : List Nat), s.pickRect k = some r → y < r.y0 ∨ r.y0 + r.h ≤ y →
      s.drawWindow v w k y acc = acc)
  ∧ (∀ (s : State) (v w y i old : Nat) (k : Pick) (r : WRect) (acc : List Nat), s.pickRect k = some r → acc[i]? = some old →
      i / 3 < r.x0 ∨ r.x0 + r.w ≤ i / 3 → (s.drawWindow v w k y acc)[i]? = some old)
  ∧ (∀ (s : State) (v w x y i a m u old : Nat) (k : Pick) (r : WRect) (acc : List Nat), s.pickRect k = some r → acc[i]? = some old →
      i / 3 = x → r.x0 ≤ x → x < r.x0 + r.w → r.y0 ≤ y → y < r.y0 + r.h →
      u = (s.readRow (pickSource k).1 (y - r.y0)).1.getD (3 * (x - r.x0) + i % 3) 0 →
      m = (s.readMaskRow (selMask v w + (pickSource k).1 % 16) (y - r.y0) r.w).getD (x - r.x0) 0 →
      a = faded (pickSource k).2 (if r.fsrc = 1 then m + m >>> 7 else coverage r x y) →
      (s.drawWindow v w k y acc)[i]? = some (rneDiv ((a * u + (256 - a) * old : Nat) : Int) 256).toNat)
  ∧ (∀ a u old : Nat, a ≤ 256 → u < 2 ^ 18 → old < 2 ^ 18 →
      a * u + (256 - a) * old < 2 ^ 26 ∧ 0 ≤ rneDiv ((a * u + (256 - a) * old : Nat) : Int) 256
        ∧ rneDiv ((a * u + (256 - a) * old : Nat) : Int) 256 < 2 ^ 18)
  ∧ (∀ (r : WRect) (x y dl dr dt db d : Nat), r.x0 ≤ x → x < r.x0 + r.w → r.y0 ≤ y → y < r.y0 + r.h →
      dl + r.x0 = x + r.extL → dr + x + 1 = r.x0 + r.w + r.extR → dt + r.y0 = y + r.extT → db + y + 1 = r.y0 + r.h + r.extB →
      d = min (min dl dr) (min dt db) →
      coverage r x y = (if r.feather = 0 ∨ d ≥ r.feather then 256 else (rhuDiv (256 * (2 * d + 1) : Nat) (2 * r.feather)).toNat)
        ∧ coverage r x y ≤ 256)
  ∧ (∀ (r : WRect) (y : Nat), r.feather = 3 → r.extL = 0 → r.extR = 9 → r.extT = 9 → r.extB = 9 → 3 ≤ r.w → r.y0 ≤ y → y < r.y0 + r.h →
      [0, 1, 2].map (fun j => coverage r (r.x0 + j) y) = [43, 128, 213])
  ∧ (∀ a : Nat, faded 256 a = a) ∧ [0x00, 0x80, 0xFF].map (fun m => m + m >>> 7) = [0, 129, 256]

/-- The six conditions of R267 on the fractions of red, green and blue. -/
def tetraCases (fr fg fb : Nat) : List Bool :=
  [fr ≥ fg && fg ≥ fb, fr ≥ fb && fb > fg, fb > fr && fr ≥ fg, fg > fr && fr ≥ fb, fg ≥ fb && fb > fr, fb > fg && fg > fr]

/-- The sum of each row of R267's table, over the entries C(dr, dg, db). -/
def tetraSums (w fr fg fb : Int) (e : Nat → Nat → Nat → Int) : List Int :=
  [w * e 0 0 0 + fr * (e 1 0 0 - e 0 0 0) + fg * (e 1 1 0 - e 1 0 0) + fb * (e 1 1 1 - e 1 1 0),
   w * e 0 0 0 + fr * (e 1 0 0 - e 0 0 0) + fb * (e 1 0 1 - e 1 0 0) + fg * (e 1 1 1 - e 1 0 1),
   w * e 0 0 0 + fb * (e 0 0 1 - e 0 0 0) + fr * (e 1 0 1 - e 0 0 1) + fg * (e 1 1 1 - e 1 0 1),
   w * e 0 0 0 + fg * (e 0 1 0 - e 0 0 0) + fr * (e 1 1 0 - e 0 1 0) + fb * (e 1 1 1 - e 1 1 0),
   w * e 0 0 0 + fg * (e 0 1 0 - e 0 0 0) + fb * (e 0 1 1 - e 0 1 0) + fr * (e 1 1 1 - e 0 1 1),
   w * e 0 0 0 + fb * (e 0 0 1 - e 0 0 0) + fg * (e 0 1 1 - e 0 0 1) + fr * (e 1 1 1 - e 0 1 1)]

/-- R266, R267: the node and the fraction of each colour, and the tetrahedral interpolation between the entries there, for a table without
an uncorrectable word; every ordering of the fractions meets exactly one condition, and the clamp never acts. -/
def Obligations.ColourTableInterpolated : Prop :=
  (∀ fr fg fb : Nat, (tetraCases fr fg fb).count true = 1)
  ∧ (∀ (s : State) (h v n w k mr mg mb ir ig ib fr fg fb : Nat) (vc : ViewColour) (e : Nat → Nat → Nat → Nat → Int) (sum : Nat → Int),
      vc.cube = n → (n = 17 ∧ w = 16384) ∨ (n = 33 ∧ w = 8192) → s.bnk.bad = [] → s.bnk.soft = [] →
      curve vc.linear mr ≤ 262144 → curve vc.linear mg ≤ 262144 → curve vc.linear mb ≤ 262144 →
      ir = min (curve vc.linear mr / w) (n - 2) → fr = curve vc.linear mr - w * ir →
      ig = min (curve vc.linear mg / w) (n - 2) → fg = curve vc.linear mg - w * ig →
      ib = min (curve vc.linear mb / w) (n - 2) → fb = curve vc.linear mb - w * ib →
      (∀ c dr dg db, e c dr dg db = (s.cubeEntry v n (ir + dr) (ig + dg) (ib + db) / 2 ^ (18 * c) % 2 ^ 18 : Nat)) →
      (tetraCases fr fg fb)[k]? = some true → (∀ c, (tetraSums w fr fg fb (e c))[k]? = some (sum c)) →
      w = 262144 / (n - 1) ∧ fr ≤ w ∧ fg ≤ w ∧ fb ≤ w ∧ w * ir ≤ curve vc.linear mr ∧ w * ig ≤ curve vc.linear mg
      ∧ w * ib ≤ curve vc.linear mb
        ∧ (∀ c, 0 ≤ rneDiv (sum c) w ∧ rneDiv (sum c) w < 2 ^ 18)
        ∧ s.cube h v vc [mr, mg, mb] = .inl [satU 18 (rneDiv (sum 0) w), satU 18 (rneDiv (sum 1) w), satU 18 (rneDiv (sum 2) w)])

/-! ## Links -/

/-- R153 to R158: what an ACTIVE link does with a flit: one that is whole and next in order is accepted; a gap asks for E again; a flit
already taken is counted; one with a failed sector is counted and not taken. R151, R153, R155 to R157: the flit that an ACTIVE link sends:
a new flit of up to four messages while credit and replay room last, an idle flit otherwise, each with the acknowledgement; a NAK asked
for again; and a replay of what is outstanding. R142, R143, R145: the bytes of a flit give back its fields and its payload, with every CRC
right. What goes beyond the rules' words is the model's own (log entries 17, 62, 63, 128 and 129). -/
def Obligations.Flits : Prop :=
  (∀ (s : State) (q : Fin 8) (f : Flit), s.lkState q ≠ 5 → s.lkState q ≠ 9 → exec (.flitReceive q f) s = .next s)
  ∧ (∀ (s : State) (q : Fin 8) (f : Flit), s.lkState q = 9 → exec (.flitReceive q f) s = .next (s.emit (.farLoop q (.flitReceive q f))))
  ∧ (∀ (s : State) (q : Fin 8) (f : Flit) (room : Nat), s.lkState q = 5 → badSectors f = 0 → f.ftype = 2 → f.ackType = 0 →
      flitMessages q f.payload = [] → 4 ≤ q.val ∨ f.pktOff.toNat < 304 ∨ f.pktOff.toNat = 511 →
      f.seq.toNat = s.rxNext q → room = (s.getF (lkLlcr q) F.RAF_LLCR_CREDIT_GRANT + 4096 - f.seq.toNat) % 4096 → 1 ≤ room → room ≤ 2047 →
      ∃ t, exec (.flitReceive q f) s = .next t ∧ t.rxNext q = (s.rxNext q + 1) % 4096 ∧ (t.link q).limit = f.credit.toNat
        ∧ (t.link q).accepted = true ∧ (t.link q).nakDue = false ∧ (t.link q).naks = 0 ∧ (t.link q).badRun = 0
        ∧ (t.link q).taken = (s.link q).taken + 1 ∧ (t.link q).fwd = 0
        ∧ (t.link q).out = (s.link q).out ∧ (∀ k, k ≠ q.val → t.link k = s.link k)
        ∧ t.getF (lkLlcr q) F.RAF_LLCR_RX_FILL ≤ s.getF (lkLlcr q) F.RAF_LLCR_RX_FILL + 1
        ∧ SameRegs s t [lkLlst q, lkLlcr q] ∧ Untouched s t [.regs, .links, .freeN])
  ∧ (∀ (s : State) (q : Fin 8) (f : Flit) (d : Nat), s.lkState q = 5 → badSectors f = 0 → f.ftype = 2 → f.ackType = 0 →
      d = (f.seq.toNat + 4096 - s.rxNext q) % 4096 → 1 ≤ d → d ≤ 2047 → (s.link q).nakFor = false →
      (s.link q).gap = false →
      ∃ t, exec (.flitReceive q f) s = .next t ∧ (t.link q).nakDue = true ∧ (t.link q).nakFor = true
        ∧ (t.reg (lkBase q + 0x34)).toNat = min ((s.reg (lkBase q + 0x34)).toNat + 1) 0xFFFFFFFF
        ∧ SameRegs s t [lkBase q + 0x34] ∧ Untouched s t [.regs, .links])
  ∧ (∀ (s : State) (q : Fin 8) (f : Flit), s.lkState q = 5 → badSectors f = 0 → f.ftype = 2 → f.ackType = 0 →
      2047 < (f.seq.toNat + 4096 - s.rxNext q) % 4096 →
      ∃ t, exec (.flitReceive q f) s = .next t ∧ (t.link q).taken = (s.link q).taken
        ∧ (t.reg (lkBase q + 0x38)).toNat = min ((s.reg (lkBase q + 0x38)).toNat + 1) 0xFFFFFFFF
        ∧ SameRegs s t [lkBase q + 0x38] ∧ Untouched s t [.regs, .links])
  ∧ (∀ (s : State) (q : Fin 8) (f : Flit), s.lkState q = 5 → badSectors f ≠ 0 → (s.link q).badRun + 1 < 8 →
      ∃ t, exec (.flitReceive q f) s = .next t ∧ t.lkState q = 5 ∧ t.rxNext q = s.rxNext q
        ∧ (t.reg (lkBase q + 0x30)).toNat = min ((s.reg (lkBase q + 0x30)).toNat + badSectors f) 0xFFFFFFFF
        ∧ (t.link q).badRun = (s.link q).badRun + 1 ∧ (t.link q).fwd = 0 ∧ (t.link q).dec = (s.link q).decAt
        ∧ SameRegs s t ([lkBase q + 0x30, lkBase q + 0x34, lkBase q + 0x38] ++ eventRegs))
  ∧ (∀ (s : State) (q : Fin 8) (k : Sector), s.lkState q = 5 → (s.link q).fwd = k.no.val → 4 ≤ q.val →
      exec (.sectorForward q k) s = .next (s.onLink q (fun l => { l with fwd := k.no.val + 1 })))
  ∧ (∀ (s : State) (q : Fin 8) (k : Sector), s.lkState q = 5 → (s.link q).fwd = k.no.val → q.val < 4 →
      exec (.sectorForward q k) s
        = .next ((s.onLink q (fun l => { l with fwd := k.no.val + 1 })).takeBytes q none (76 * k.no.val) k.payload))
  ∧ (∀ (s : State) (q : Fin 8) (k : Sector), s.lkState q ≠ 5 ∨ (s.link q).fwd ≠ k.no.val → exec (.sectorForward q k) s = .next s)
  ∧ (∀ (s : State) (q : Fin 8), s.lkState q < 2 ∨ s.lkState q = 7 ∨ 8 < s.lkState q → exec (.flitSend q) s = .next s)
  ∧ (∀ (s : State) (q : Fin 8), s.lkState q = 5 → (s.link q).resend = [] → s.maySend q = false → (s.link q).nakDue = false →
      (s.link q).naks < 16 → s.creditHeld q = false →
      ∃ t fill, exec (.flitSend q) s = .next t ∧ fill ≤ rxDepth q
        ∧ fill ≤ (s.rxNext q + rxDepth q + 4096 - s.getF (lkLlcr q) F.RAF_LLCR_CREDIT_GRANT) % 4096
        ∧ t.out = s.out ++ [.linkFlit q 0 0 (s.ackField q).1 (s.ackField q).2 ((s.rxNext q + rxDepth q - fill) % 4096) []]
        ∧ t.getF (lkLlcr q) F.RAF_LLCR_CREDIT_GRANT = (s.rxNext q + rxDepth q - fill) % 4096
        ∧ t.getF (lkLlcr q) F.RAF_LLCR_RX_FILL = fill ∧ SameRegs s t [lkLlcr q] ∧ Untouched s t [.regs, .links, .out, .freeN])
  ∧ (∀ (s : State) (q : Fin 8), s.lkState q = 5 → (s.link q).resend = [] → s.maySend q = true → (s.link q).nakDue = false →
      (s.link q).naks < 16 →
      ∃ t g, exec (.flitSend q) s = .next t
        ∧ t.out = s.out ++ [.linkFlit q 2 (s.txNext q) (s.ackField q).1 (s.ackField q).2 g (packMessages q (s.link q).queue).1]
        ∧ t.txNext q = (s.txNext q + 1) % 4096 ∧ (t.link q).out = (s.link q).out ++ [⟨s.txNext q, (packMessages q (s.link q).queue).1⟩]
        ∧ (t.link q).queue = (s.link q).queue.drop (packMessages q (s.link q).queue).2
        ∧ SameRegs s t [lkLlcr q, lkLlst q] ∧ Untouched s t [.regs, .links, .out, .freeN])
  ∧ (∀ (s : State) (q : Fin 8) (f : SentFlit) (rest : List SentFlit), s.lkState q = 5 → (s.link q).resend = f :: rest →
      (s.link q).nakDue = false → (s.link q).naks < 16 →
      ∃ t g, exec (.flitSend q) s = .next t
        ∧ t.out = s.out ++ [.linkFlit q 2 f.seq (s.ackField q).1 (s.ackField q).2 g f.payload] ∧ (t.link q).resend = rest
        ∧ (t.link q).out = (s.link q).out ∧ SameRegs s t [lkLlcr q] ∧ Untouched s t [.regs, .links, .out, .freeN])
  ∧ (∀ (s : State) (q : Fin 8), s.lkState q = 2 ∨ s.lkState q = 3 ∨ s.lkState q = 6 ∧ (s.link q).capPhase = false →
      (s.link q).blocksLeft ≠ 1 →
      ∃ t, exec (.flitSend q) s = .next t ∧ (t.link q).blocksLeft = (s.link q).blocksLeft - 1 ∧ SameRegs s t []
        ∧ t.out = s.out ++ (s.enabledLanes q).zipIdx.map
            (fun e => .linkTrain q e.1 (trainWord e.2 (s.lockedLane q e.2) false (s.lkState q == 6) 0))
        ∧ Untouched s t [.links, .out])
  ∧ (∀ (s : State) (q : Fin 8), s.lkState q = 5 → (s.link q).nakFor = true → (s.link q).nakDue = false →
      exec (.nakTo q) s = .next (s.onLink q (fun k => { k with nakDue := true })))
  ∧ (∀ (s : State) (q : Fin 8), s.lkState q ≠ 5 ∨ (s.link q).nakFor = false → exec (.nakTo q) s = .next s)
  ∧ (∀ (s : State) (q : Fin 8), s.lkState q = 5 → (s.link q).out ≠ [] → (s.link q).replays + 1 < 4 →
      ∃ t, exec (.replayTimeout q) s = .next t ∧ (t.link q).resend = (s.link q).out ∧ (t.link q).out = (s.link q).out
        ∧ (t.link q).replays = (s.link q).replays + 1
        ∧ (t.reg (lkBase q + 0x44)).toNat = min ((s.reg (lkBase q + 0x44)).toNat + 1) 0xFFFFFFFF
        ∧ SameRegs s t [lkBase q + 0x44] ∧ Untouched s t [.regs, .links])
  ∧ (∀ (s : State) (q : Fin 8), s.lkState q ≠ 5 ∨ (s.link q).out = [] → exec (.replayTimeout q) s = .next s)
  ∧ (∀ (ftype seq ackType ackSeq credit : Nat) (payload : List Byte), ftype < 16 → seq < 4096 → ackType < 4 → ackSeq < 4096 →
      credit < 4096 →
      payload.length ≤ 304 →
      (flitBytes ftype seq ackType ackSeq credit payload).length = 320
      ∧ flitOf (flitBytes ftype seq ackType ackSeq credit payload)
          = ⟨15, BitVec.ofNat 4 ftype, BitVec.ofNat 12 seq, BitVec.ofNat 2 ackType, BitVec.ofNat 12 ackSeq, BitVec.ofNat 12 credit, 0x1FF,
             payload ++ List.replicate (304 - payload.length) 0⟩
      ∧ flitPayload (flitBytes ftype seq ackType ackSeq credit payload) = payload ++ List.replicate (304 - payload.length) 0)

/-- Link `q` has gone to DETECT (R146, R152): its numbers, credit and buffers are cleared. -/
def Detected (s t : State) (q : Nat) : Prop :=
  t.lkState q = 1 ∧ (t.link q).out = [] ∧ (t.link q).queue = [] ∧ t.rxNext q = 0 ∧ t.txNext q = 0
    ∧ SameRegs s t ([lkPst q, lkLlst q, lkLlcr q, Reg.RDG_LISO (q - 4)] ++ eventRegs)

/-- R146 to R151: bring-up, up to the exchange of capabilities, and what ends it. R150, R151, R161, R170: the exchange of capabilities.
What goes beyond the rules' words is the model's own (log entries 16, 17 and 129). -/
def Obligations.LinkBringUp : Prop :=
  (∀ (s : State) (q : Fin 8) (lanes : BitVec 4), s.lkState q = 1 → s.minWidth q ≤ popcount (lanes.toNat &&& s.laneEn q) 4 →
      ∃ t, exec (.signalDetect q lanes) s = .next t ∧ t.lkState q = 2 ∧ (t.link q).lanes = [] ∧ (t.link q).blocksLeft = 0
        ∧ SameRegs s t [lkPst q] ∧ Untouched s t [.regs, .links, .thm])
  ∧ (∀ (s : State) (q : Fin 8) (lanes : BitVec 4), s.lkState q ≠ 1 ∨ popcount (lanes.toNat &&& s.laneEn q) 4 < s.minWidth q →
      exec (.signalDetect q lanes) s = .next s)
  ∧ (∀ (s : State) (q : Fin 8), s.lkState q = 1 → exec (.receiverDetect q) s = .next (s.emit (.linkPhy q "receiver detect")))
  ∧ (∀ (s : State) (q : Fin 8), s.lkState q ≠ 1 → exec (.receiverDetect q) s = .next s)
  ∧ (∀ (s : State) (q : Fin 8) (l : Fin 4) (b : TrainBlock), s.lkState q = 2 ∨ s.lkState q = 3 → bit (s.laneEn q) l = true →
      s.getF (lkBase q) F.RAF_PCFG_FAR_LOOP = 0 → (s.link q).capPhase = false → (s.link q).blocksLeft = 0 →
      ∃ t, exec (.trainingBlock q l b) s = .next t
        ∧ (t.lkState q = 3 ↔ ∀ j ∈ s.enabledLanes q, (t.lane q j).locked = true) ∧ (t.lkState q = 2 ∨ t.lkState q = 3)
        ∧ ((t.link q).blocksLeft = 0 ∨ (t.link q).blocksLeft = 16 ∧ t.trainedWidth q ≠ 0 ∧ t.minWidth q ≤ t.trainedWidth q)
        ∧ (t.trainedWidth q ≠ 0 → t.minWidth q ≤ t.trainedWidth q → t.trainedWidth q = t.fullWidth q → (t.link q).blocksLeft = 16)
        ∧ ((stepLane (s.lane q l) b).locked = false → t.lane q l = stepLane (s.lane q l) b ∧ ∀ j, j ≠ l.val → t.lane q j = s.lane q j)
        ∧ (t.link q).lastSeen = ((s.link q).lastSeen || b.marker && b.last)
        ∧ SameRegs s t [lkPst q] ∧ Untouched s t [.regs, .links, .thm, .freeN])
  ∧ (∀ (s : State) (q : Fin 8) (l : Fin 4) (b : TrainBlock), bit (s.laneEn q) l = false → s.lkState q ≠ 9 →
      exec (.trainingBlock q l b) s = .next s)
  ∧ (∀ (s : State) (q : Fin 8) (l : Fin 4) (b : TrainBlock), s.lkState q = 9 →
      exec (.trainingBlock q l b) s = .next (s.emit (.farLoop q (.trainingBlock q l b))))
  ∧ (∀ (s : State) (q : Fin 8), s.lkState q = 2 ∨ s.lkState q = 3 → (s.link q).blocksLeft = 1 →
      ∃ t, exec (.flitSend q) s = .next t ∧ t.lkState q = 4 ∧ (t.link q).blocksLeft = 0
        ∧ (∀ j ∈ (s.enabledLanes q).drop (s.lkWidth q), .laneIdle q j ∈ t.out)
        ∧ SameRegs s t [lkPst q] ∧ Untouched s t [.regs, .links, .out])
  ∧ (∀ (s : State) (q : Fin 8), s.lkState q = 2 ∨ s.lkState q = 3 → q.val ≠ s.pairLink →
      ∃ t, exec (.trainTo q) s = .next t ∧ Detected s t q
        ∧ (if s.trainedWidth q ≠ 0 then t.getF (lkPst q) F.RAF_PST_LAST_FAIL = 3
            else t.getF (lkPst q) F.RAF_PST_LAST_FAIL = 1 ∨ t.getF (lkPst q) F.RAF_PST_LAST_FAIL = 2))
  ∧ (∀ (s : State) (q : Fin 8), s.lkState q ≠ 2 → s.lkState q ≠ 3 → exec (.trainTo q) s = .next s)
  ∧ (∀ (s : State) (q : Fin 8) (f : CapFlit), s.lkState q = 4 ∨ s.lkState q = 6 ∧ (s.link q).capPhase = true →
      (s.link q).lastSeen = true → f.good = true → capFail q f = none →
      ∃ t, exec (.cap q f) s = .next t ∧ (t.link q).lastCap = some f ∧ (f.capSeen = true → (t.link q).capGot = true)
        ∧ t.reg (lkBase q + 0x20) = f.ident
        ∧ t.getF (lkBase q + 0x24) F.RAF_PCAP_REPLAY_DEPTH = f.depth.toNat ∧ t.getF (lkBase q + 0x24) F.RAF_PCAP_PORT = f.port.toNat % 16
        ∧ SameRegs s t ([lkBase q + 0x20, lkBase q + 0x24]
            ++ if q.val < 4 then [] else [Reg.RDG_PDSN_LO (q.val - 4), Reg.RDG_PDSN_HI (q.val - 4)])
        ∧ Untouched s t [.regs, .links])
  ∧ (∀ (s : State) (q : Fin 8) (f : CapFlit), s.lkState q = 4 → (s.link q).lastSeen = true → f.good = true → f.ver ≠ 1 →
      q.val ≠ s.pairLink →
      ∃ t, exec (.cap q f) s = .next t ∧ Detected s t q ∧ t.getF (lkPst q) F.RAF_PST_LAST_FAIL = 6)
  ∧ (∀ (s : State) (q : Fin 8) (f : CapFlit), s.lkState q = 4 → (s.link q).lastSeen = true → f.good = false →
      exec (.cap q f) s = .next (s.onLink q (fun k => { k with capPrev := false })))
  ∧ (∀ (s : State) (q : Fin 8) (f : CapFlit), s.lkState q = 4 ∧ (s.link q).lastSeen = false ∨ s.lkState q < 4
      ∨ s.lkState q = 5 ∧ (s.link q).sawFlit = false → exec (.cap q f) s = .next s)
  ∧ (∀ (s : State) (q : Fin 8), s.lkState q = 4 → q.val ≠ s.pairLink →
      ∃ t, exec (.capTo q) s = .next t ∧ Detected s t q ∧ t.getF (lkPst q) F.RAF_PST_LAST_FAIL = 4)
  ∧ (∀ (s : State) (q : Fin 8), s.lkState q ≠ 4 → exec (.capTo q) s = .next s)
  ∧ (∀ (s : State) (q : Fin 8), s.lkState q = 4 → (s.link q).capSeen = true → (s.link q).capGot = true → (s.link q).capSent < 7 →
      (s.link q).accepted = false →
      ∃ t, exec (.flitSend q) s = .next t
        ∧ t.out = s.out ++ [.linkFlit q 3 0 0 0 (t.getF (lkLlcr q) F.RAF_LLCR_CREDIT_GRANT) (s.ownCap q)]
        ∧ (t.link q).capSent = (s.link q).capSent + 1 ∧ t.lkState q = 4
        ∧ SameRegs s t [lkLlcr q] ∧ Untouched s t [.regs, .links, .out, .freeN])
  ∧ (∀ (s : State) (q : Fin 8), s.lkState q = 4 → q.val < 4 → (s.link q).capSeen = true → (s.link q).capGot = true →
      (s.link q).capSent = 7 →
      ∃ t, exec (.flitSend q) s = .next t ∧ t.lkState q = 5 ∧ (t.link q).wasActive = true
        ∧ SameRegs s t (lkPst q :: lkLlcr q :: eventRegs))

/-- The registers of link `q` that a loopback write can change. -/
def loopRegs (q : Nat) : List Nat :=
  [lkPst q, lkLlst q, lkLlcr q, lkBase q + 8] ++ (List.range (lkLanes q)).map (fun l => lkBase q + 0x60 + 4 * l)

/-- R152, R160, R164, R172: a link that loses its signal goes to RECOVERY with its link layer kept; one that does not recover, one whose
partner says GOODBYE and a far-end loopback without signal go to DETECT; signal on a port that is off but enabled wakes it. R162, R163,
R168: near-end loopbacks are entered from DISABLED alone and left for DISABLED; the pattern checker's counts clear when it is turned on.
What goes beyond the rules' words is the model's own (log entries 16, 17, 128 and 129). -/
def Obligations.LinkLossAndLoopbacks : Prop :=
  (∀ (s : State) (q : Fin 8), s.lkState q = 5 → q.val ≠ s.pairLink →
      ∃ t, exec (.linkDown q) s = .next t ∧ t.lkState q = 6 ∧ (t.link q).out = (s.link q).out ∧ (t.link q).queue = (s.link q).queue
        ∧ t.rxNext q = s.rxNext q ∧ t.txNext q = s.txNext q ∧ (t.link q).lanes = [] ∧ (t.link q).dec = (s.link q).decAt
        ∧ (t.reg (lkBase q + 0x48)).toNat = min ((s.reg (lkBase q + 0x48)).toNat + 1) 0xFFFFFFFF
        ∧ SameRegs s t ([lkPst q, lkBase q + 0x48] ++ eventRegs))
  ∧ (∀ (s : State) (q : Fin 8), s.lkState q ≠ 5 → exec (.linkDown q) s = .next s ∧ exec (.goodbye q) s = .next s)
  ∧ (∀ (s : State) (q : Fin 8), s.lkState q = 6 → q.val ≠ s.pairLink →
      ∃ t, exec (.rcvTo q) s = .next t ∧ Detected s t q ∧ t.getF (lkPst q) F.RAF_PST_LAST_FAIL = 8)
  ∧ (∀ (s : State) (q : Fin 8), s.lkState q ≠ 6 → exec (.rcvTo q) s = .next s)
  ∧ (∀ (s : State) (q : Fin 8), s.lkState q = 5 → q.val ≠ s.pairLink →
      ∃ t, exec (.goodbye q) s = .next t ∧ Detected s t q
        ∧ t.getF (lkPst q) F.RAF_PST_LAST_FAIL = s.getF (lkPst q) F.RAF_PST_LAST_FAIL)
  ∧ (∀ (s : State) (q : Fin 8), s.lkState q = 9 → q.val ≠ s.pairLink →
      ∃ t, exec (.loopFarSignalLost q) s = .next t ∧ Detected s t q
        ∧ t.getF (lkPst q) F.RAF_PST_LAST_FAIL = s.getF (lkPst q) F.RAF_PST_LAST_FAIL)
  ∧ (∀ (s : State) (q : Fin 8), s.lkState q ≠ 9 → exec (.loopFarSignalLost q) s = .next s)
  ∧ (∀ (s : State) (p : Fin 4), s.isOn (7 + p) = false → s.lkEnabled p = true → s.heldOff (7 + p) = false →
      s.getF Reg.PWR_STATE F.PWR_STATE_CUR = 1 → (domainDeps (7 + p)).all s.isOn = true →
      ∃ t, exec (.portSignalWake p) s = .next t ∧ t.isOn (7 + p) = true ∧ t.lkState p = 1 ∧ (t.link p).woken = true
        ∧ SameRegs s t ([Reg.PWR_DOM_ON0, lkPst p, lkLlst p, lkLlcr p, Reg.RDG_LISO 0] ++ eventRegs))
  ∧ (∀ (s : State) (p : Fin 4), s.isOn (7 + p) = true ∨ s.lkEnabled p = false ∨ s.heldOff (7 + p) = true
      ∨ s.getF Reg.PWR_STATE F.PWR_STATE_CUR ≠ 1 ∨ (domainDeps (7 + p)).all s.isOn = false →
      exec (.portSignalWake p) s = .next s)
  ∧ (∀ (s : State) (q : Fin 8) (v : Word), s.hostReaches = true → s.stallDomain (lkBase q + 8) = none → s.lkState q = 0 →
      (∃ t, exec (.loopNesEnter q v) s = .next t ∧ t.lkState q = 7 ∧ t.getF (lkBase q + 8) F.RAF_LOOP_MODE = 1
        ∧ SameRegs s t (loopRegs q) ∧ Untouched s t [.regs, .links, .freeN])
      ∧ ∃ t, exec (.loopNepEnter q v) s = .next t ∧ t.lkState q = 8 ∧ t.getF (lkBase q + 8) F.RAF_LOOP_MODE = 2
        ∧ SameRegs s t (loopRegs q) ∧ Untouched s t [.regs, .links, .freeN])
  ∧ (∀ (s : State) (q : Fin 8) (v : Word), s.hostReaches = true → s.stallDomain (lkBase q + 8) = none → s.lkState q ≠ 0 →
      exec (.loopNesEnter q v) s = .next (s.lkEvent q Ev.RAF_LOOP_REJECT)
      ∧ exec (.loopNepEnter q v) s = .next (s.lkEvent q Ev.RAF_LOOP_REJECT))
  ∧ (∀ (s : State) (q : Fin 8) (v : Word), s.hostReaches = true → s.stallDomain (lkBase q + 8) = none →
      ∃ t, exec (.loopExit q v) s = .next t ∧ t.lkState q = (if s.lkState q = 7 ∨ s.lkState q = 8 then 0 else s.lkState q)
        ∧ t.getF (lkBase q + 8) F.RAF_LOOP_MODE = 0 ∧ SameRegs s t (loopRegs q) ∧ Untouched s t [.regs, .links, .freeN])
  ∧ (∀ (s : State) (q : Fin 8) (v : Word), s.hostReaches = true → s.stallDomain (lkBase q + 0xC) = none → fieldOf F.RAF_PRBS_PAT v = 3 →
      exec (.rafPrbsWrite q v) s = .next (s.event Ev.GBL_REJECT_WRITE []))
  ∧ (∀ (s : State) (q : Fin 8) (v : Word), s.hostReaches = true → s.stallDomain (lkBase q + 0xC) = none → fieldOf F.RAF_PRBS_PAT v ≠ 3 →
      fieldOf F.RAF_PRBS_CHK_EN v = 1 →
      s.flag (lkBase q + 0xC) F.RAF_PRBS_CHK_EN = false →
      ∃ t, exec (.rafPrbsWrite q v) s = .next t ∧ t.flag (lkBase q + 0xC) F.RAF_PRBS_CHK_EN = true
        ∧ t.getF (lkBase q + 0xC) F.RAF_PRBS_PAT = fieldOf F.RAF_PRBS_PAT v
        ∧ (∀ l, l < lkLanes q → t.reg (lkBase q + 0x60 + 4 * l) = 0)
        ∧ SameRegs s t ((lkBase q + 0xC) :: (List.range (lkLanes q)).map (fun l => lkBase q + 0x60 + 4 * l)) ∧ Untouched s t [.regs])

/-! ## Pixel ingress -/

/-- The packet with header `h` on port `p` passes its header check and goes to buffer `i` (R174 to R177, R182, R183). -/
def Accepted (s : State) (p : Nat) (h : PktHeader) (i : Nat) : Prop :=
  (s.link p).dec.wait = false ∧ h.badType = false ∧ s.frameInRange h.frame.toNat = true ∧ (s.placed (tgtSel h.target.toNat)).isSome = true
    ∧ (s.lineLock (tgtView h.target.toNat) = decide (tgtKind h.target.toNat = 3) ∨ tgtKind h.target.toNat = 0)
    ∧ s.bufOf (tgtSel h.target.toNat) h.frame.toNat = some i ∧ (s.buf i).complete = false

/-- R174 to R182, R185, R186, R330, R332: packets. A waiting port takes none; a bad type makes it wait; a frame that has passed is
counted; an accepted SPAN marks its rows, a WRECT sets the window's rectangle and a DONE its bit, which completes a frame whose rows are
all marked; the two source messages put targets to sleep at the next boundary and wake them at once. What goes beyond the rules' words is
the model's own (log entries 62, 80 and 82). -/
def Obligations.Packets : Prop :=
  (∀ (s : State) (p : Fin 4), exec (.pad p) s = .next (s.onLink p (fun k => { k with dec := { k.dec with wait := true } })))
  ∧ (∀ (s : State) (p : Fin 4) (h : PktHeader) (y0 n px : BitVec 16) (data : List Byte) (b : WrectBody), (s.link p).dec.wait = true →
      exec (.span p h y0 n px data) s = .next s ∧ exec (.wrect p h b) s = .next s ∧ exec (.done p h) s = .next s)
  ∧ (∀ (s : State) (p : Fin 4) (h : PktHeader) (y0 n px : BitVec 16) (data : List Byte) (b : WrectBody) (c : Instr),
      (s.link p).dec.wait = false → h.badType = true → c ∈ [.span p h y0 n px data, .wrect p h b, .done p h] →
      ∃ t, exec c s = .next t ∧ (t.link p).dec = { (s.link p).dec with wait := true } ∧ t.fst = s.fst
        ∧ (t.reg Reg.VIEW_CNT_BAD).toNat = min ((s.reg Reg.VIEW_CNT_BAD).toNat + 1) 0xFFFFFFFF
        ∧ SameRegs s t (Reg.VIEW_CNT_BAD :: eventRegs) ∧ Untouched s t [.regs, .evt, .links])
  ∧ (∀ (s : State) (p : Fin 4) (h : PktHeader), (s.link p).dec.wait = false → h.badType = false → doneTarget h.target.toNat = true →
      h.len = 0 → h.frame.toNat < s.gen.fc →
      ∃ t, exec (.done p h) s = .next t
        ∧ (t.reg Reg.VIEW_CNT_STALE).toNat = min ((s.reg Reg.VIEW_CNT_STALE).toNat + 1) 0xFFFFFFFF
        ∧ (∀ q, t.link q = s.link q) ∧ SameRegs s t (Reg.VIEW_CNT_STALE :: eventRegs) ∧ Untouched s t [.regs, .evt, .links])
  ∧ (∀ (s : State) (p : Fin 4) (h : PktHeader) (i : Nat), Accepted s p h i → h.target = 0 → h.len = 0 →
      allMarked (s.buf i).rows s.height = false →
      ∃ t, exec (.done p h) s = .next t ∧ t.buf i = { s.buf i with named := true, done := true } ∧ (∀ j, j ≠ i → t.buf j = s.buf j)
        ∧ (∀ q, t.link q = s.link q) ∧ SameRegs s t [] ∧ Untouched s t [.fst, .hrt, .links])
  ∧ (∀ (s : State) (p : Fin 4) (h : PktHeader) (i : Nat) (q : Placement), Accepted s p h i → h.target = 0 → h.len = 0 →
      allMarked (s.buf i).rows s.height = true → (s.buf i).poisoned = false → (s.buf i).missed = false → (s.src 0).asleep = false →
      s.placed i = some q → q.mode = 0 →
      (three 0).any (fun j => (s.buf j).complete && !(s.buf j).hold && decide (h.frame.toNat < (s.buf j).frame.getD 0)) = false →
      ∃ t, exec (.done p h) s = .next t
        ∧ t.buf i = { s.buf i with named := true, done := true, complete := true, doneAt := s.gen.vt }
        ∧ t.reg Reg.VIEW_BLAST = word h.frame.toNat ∧ SameRegs s t [Reg.VIEW_BLAST] ∧ Untouched s t [.regs, .fst, .hrt, .links])
  ∧ (∀ (s : State) (p : Fin 4) (h : PktHeader) (b : WrectBody) (i : Nat), Accepted s p h i → tgtKind h.target.toNat = 1 → h.len = 16 →
      s.badRect (tgtView h.target.toNat) (tgtWin h.target.toNat) (wrectOf b) = false → (s.buf i).done = false →
      ∃ t, exec (.wrect p h b) s = .next t ∧ (t.buf i).rect = some (wrectOf b) ∧ (t.buf i).named = true
        ∧ ((s.buf i).rect = none → (t.buf i).rows = 0 ∧ (t.buf i).masks = 0) ∧ (∀ j, j ≠ i → t.buf j = s.buf j)
        ∧ (∀ q, t.link q = s.link q) ∧ SameRegs s t [] ∧ Untouched s t [.fst, .hrt, .links])
  ∧ (∀ (s : State) (p : Fin 4) (h : PktHeader) (b : WrectBody) (i : Nat), Accepted s p h i → tgtKind h.target.toNat = 1 → h.len = 16 →
      s.badRect (tgtView h.target.toNat) (tgtWin h.target.toNat) (wrectOf b) = true →
      ∃ t, exec (.wrect p h b) s = .next t ∧ t.buf i = { s.buf i with poisoned := true }
        ∧ (t.reg Reg.VIEW_CNT_BAD).toNat = min ((s.reg Reg.VIEW_CNT_BAD).toNat + 1) 0xFFFFFFFF
        ∧ (∀ q, t.link q = s.link q) ∧ SameRegs s t (Reg.VIEW_CNT_BAD :: eventRegs) ∧ Untouched s t [.regs, .fst, .evt, .links])
  ∧ (∀ (s : State) (p : Fin 4) (h : PktHeader) (y0 n px : BitVec 16) (data : List Byte) (i : Nat) (q : Placement), Accepted s p h i →
      h.target = 0 → px.toNat = s.width → n ≠ 0 → y0.toNat + n.toNat ≤ s.height → data.length = n.toNat * spanRowBytes 0 px.toNat →
      h.len.toNat = 8 + data.length → (s.buf i).done = false → s.placed i = some q → q.mode = 0 →
      ∃ t, exec (.span p h y0 n px data) s = .next t
        ∧ t.buf i = { s.buf i with named := true, rows := (s.buf i).rows ||| rowBits y0.toNat n.toNat }
        ∧ (∀ j, j ≠ i → t.buf j = s.buf j) ∧ (∀ q, t.link q = s.link q) ∧ SameRegs s t [] ∧ Untouched s t [.fst, .hrt, .links])
  ∧ (∀ (s : State) (p : Fin 4) (h : PktHeader) (y0 n px : BitVec 16) (data : List Byte) (i : Nat), Accepted s p h i →
      h.target = 0 → px.toNat = s.width → n ≠ 0 → s.height < y0.toNat + n.toNat → data.length = n.toNat * spanRowBytes 0 px.toNat →
      h.len.toNat = 8 + data.length →
      ∃ t, exec (.span p h y0 n px data) s = .next t ∧ t.buf i = { s.buf i with poisoned := true }
        ∧ (∀ q, t.link q = s.link q) ∧ SameRegs s t (Reg.VIEW_CNT_BAD :: eventRegs) ∧ Untouched s t [.regs, .fst, .evt, .links])
  ∧ (∀ (s : State) (p : Fin 4) (arg : Word), ∃ t, exec (.srcSleep p arg) s = .next t
      ∧ (∀ k, (t.src k).due = ((s.src k).due || (decide (k ∈ namedTargets arg.toNat) && !(s.src k).asleep)))
      ∧ (∀ k, (t.src k).asleep = (s.src k).asleep) ∧ SameRegs s t [] ∧ Untouched s t [.hrt])
  ∧ (∀ (s : State) (p : Fin 4) (arg : Word), ∃ t, exec (.srcWake p arg) s = .next t
      ∧ (∀ k, (t.src k).asleep = ((s.src k).asleep && !decide (k ∈ namedTargets arg.toNat)))
      ∧ SameRegs s t ((List.range 8).map Reg.VIEW_HSTAT ++ eventRegs) ∧ Untouched s t [.regs, .hrt, .evt])

/-! ## Column drivers -/

/-- R363 to R366, R376: the frames of a column driver's back-channel, its time limits, training step by step, and the commands that
software sends it. A driver that is OFF is not listened to. What goes beyond the rules' words is the model's own (log entries 17 and 135).
-/
def Obligations.ColumnDrivers : Prop :=
  (∀ (s : State) (g : Fin 24) (f : BatStatus) (r : BatResp), s.drvState g = 0 →
      exec (.batStatusFrame g f) s = .next s ∧ exec (.batCmdResp g r) s = .next s)
  ∧ (∀ (s : State) (g : Fin 24) (f : BatStatus), s.drvState g = 4 → (s.driver g).phase = 0 → f.valid = true → f.short = false →
      f.rowCrc = false → f.blkErr = false →
      ∃ t, exec (.batStatusFrame g f) s = .next t ∧ t.drvState g = 4
        ∧ t.driver g = { s.driver g with temp := some (toSigned 16 f.temp.toNat), fresh := true }
        ∧ t.flag (dstat g) F.BAT_DSTAT_LOCK = f.lock ∧ t.getF (dstat g) F.BAT_DSTAT_SHORT_N = f.shortN.toNat
        ∧ SameRegs s t [dstat g] ∧ Untouched s t [.regs, .drv])
  ∧ (∀ (s : State) (g : Fin 24) (f : BatStatus), s.drvState g = 2 → f.valid = false → (s.driver g).phase = 0 →
      exec (.batStatusFrame g f) s = .next (s.bump (Reg.BAT_CNT_STCRC (g / 12)) 1))
  ∧ (∀ (s : State) (g : Fin 24) (f : BatStatus), s.drvState g = 2 → (s.driver g).phase = 0 → f.valid = true → f.lock = true →
      f.short = false →
      f.rowCrc = false → f.blkErr = false →
      ∃ t, exec (.batStatusFrame g f) s = .next t
        ∧ t.driver g = { s.driver g with temp := some (toSigned 16 f.temp.toNat), fresh := true, lockMiss := 0 }
        ∧ (∀ k, k ≠ g.val → t.driver k = s.driver k) ∧ t.flag (dstat g) F.BAT_DSTAT_LOCK = true
        ∧ t.getF (dstat g) F.BAT_DSTAT_SHORT_N = f.shortN.toNat ∧ t.drvState g = 2 ∧ SameRegs s t [dstat g] ∧ Untouched s t [.regs, .drv])
  ∧ (∀ (s : State) (g : Fin 24) (f : BatStatus), s.drvState g = 2 → (s.driver g).phase = 0 → (s.driver g).lockMiss ≠ 0 → f.valid = true →
      f.lock = false → f.short = false → f.rowCrc = false → f.blkErr = false →
      ∃ t, exec (.batStatusFrame g f) s = .next t ∧ t.drvState g = 1 ∧ (t.driver g).phase = 1 ∧ t.out = s.out ++ [.batTrain g]
        ∧ (t.reg (Reg.BAT_CNT_RETRAIN (g / 12))).toNat = min ((s.reg (Reg.BAT_CNT_RETRAIN (g / 12))).toNat + 1) 0xFFFFFFFF
        ∧ SameRegs s t ([dstat g, Reg.BAT_CNT_RETRAIN (g / 12)] ++ eventRegs) ∧ Untouched s t [.regs, .drv, .thm, .evt, .out, .freeN])
  ∧ (∀ (s : State) (g : Fin 24) (f : BatStatus), s.drvState g = 3 → (s.driver g).phase = 0 → (s.driver g).back = 3 → f.valid = true →
      f.lock = true → f.short = false → f.rowCrc = false → f.blkErr = false →
      ∃ t, exec (.batStatusFrame g f) s = .next t ∧ t.drvState g = 2 ∧ SameRegs s t (dstat g :: eventRegs)
        ∧ Untouched s t [.regs, .drv, .evt])
  ∧ (∀ (s : State) (g : Fin 24) (f : BatStatus), s.drvState g = 1 → (s.driver g).phase = 1 → 3 ≤ (s.driver g).good → f.valid = true →
      f.short = false → f.rowCrc = false → f.blkErr = false →
      ∃ t, exec (.batStatusFrame g f) s = .next t ∧ t.drvState g = 1 ∧ (t.driver g).phase = 2 ∧ (t.driver g).good = 0
        ∧ SameRegs s t [dstat g] ∧ Untouched s t [.regs, .drv])
  ∧ (∀ (s : State) (g : Fin 24), s.drvState g = 2 →
      ∃ t, exec (.batStLost g) s = .next t ∧ t.drvState g = 3 ∧ SameRegs s t (dstat g :: eventRegs) ∧ Untouched s t [.regs, .drv, .evt])
  ∧ (∀ (s : State) (g : Fin 24), s.drvState g ≠ 2 → exec (.batStLost g) s = .next s)
  ∧ (∀ (s : State) (g : Fin 24), s.drvState g = 1 →
      ∃ t, exec (.batTrainTimeout g) s = .next t ∧ t.drvState g = 4 ∧ (t.driver g).phase = 0
        ∧ (∀ c, (s.driver g).cmd = some c → c.use ≠ .train → (t.driver g).cmd = some c)
        ∧ (∀ c ∈ (t.driver g).cmd.toList ++ (t.driver g).queue, c.use ≠ .train)
        ∧ SameRegs s t (dstat g :: eventRegs) ∧ Untouched s t [.regs, .drv, .evt, .out])
  ∧ (∀ (s : State) (g : Fin 24), s.drvState g ≠ 1 → exec (.batTrainTimeout g) s = .next s)
  ∧ (∀ (s : State) (g : Fin 24) (r : BatResp), s.drvState g = 2 → r.valid = false →
      exec (.batCmdResp g r) s = .next (s.bump (Reg.BAT_CNT_STCRC (g / 12)) 1))
  ∧ (∀ (s : State) (g : Fin 24) (r : BatResp) (c : DrvCmd), s.drvState g = 2 → r.valid = true → (s.driver g).cmd = some c →
      r.tag.toNat ≠ c.tag → exec (.batCmdResp g r) s = .next s)
  ∧ (∀ (s : State) (g : Fin 24) (r : BatResp) (c : DrvCmd), s.drvState g = 2 → r.valid = true → (s.driver g).cmd = some c →
      r.tag.toNat = c.tag → c.use = .host → c.write = false → r.result = 0 → (s.driver g).queue = [] →
      ∃ t, exec (.batCmdResp g r) s = .next t ∧ (t.driver g).cmd = none ∧ t.reg Reg.BAT_CMDRD = r.data
        ∧ t.flag Reg.BAT_CMDST F.BAT_CMDST_BUSY = false ∧ t.getF Reg.BAT_CMDST F.BAT_CMDST_RESULT = 0
        ∧ SameRegs s t [Reg.BAT_CMDST, Reg.BAT_CMDRD] ∧ Untouched s t [.regs, .drv])
  ∧ (∀ (s : State) (g : Fin 24) (r : BatResp) (c : DrvCmd), s.drvState g = 1 → r.valid = true → (s.driver g).cmd = some c →
      r.tag.toNat = c.tag → c.use = .train → (s.driver g).phase = 5 → r.result = 0 → r.data = (s.driver g).map →
      ∃ t, exec (.batCmdResp g r) s = .next t ∧ t.drvState g = 2 ∧ (t.driver g).phase = 0
        ∧ SameRegs s t [dstat g] ∧ Untouched s t [.regs, .drv, .out])
  ∧ (∀ (s : State) (g : Fin 24) (r : BatResp) (c : DrvCmd), s.drvState g = 1 → r.valid = true → (s.driver g).cmd = some c →
      r.tag.toNat = c.tag → c.use = .train → r.result ≠ 0 →
      ∃ t, exec (.batCmdResp g r) s = .next t ∧ t.drvState g = 4 ∧ SameRegs s t (dstat g :: eventRegs)
        ∧ Untouched s t [.regs, .drv, .evt, .out])
  ∧ (∀ (s : State) (g : Fin 24), (s.driver g).cmd = none → exec (.batCmdTimeout g) s = .next s)
  ∧ (∀ (s : State) (g : Fin 24) (c : DrvCmd), (s.driver g).cmd = some c → c.use = .host → (s.driver g).queue = [] →
      ∃ t, exec (.batCmdTimeout g) s = .next t ∧ (t.driver g).cmd = none ∧ t.getF Reg.BAT_CMDST F.BAT_CMDST_RESULT = 4
        ∧ t.flag Reg.BAT_CMDST F.BAT_CMDST_BUSY = false ∧ SameRegs s t (Reg.BAT_CMDST :: eventRegs) ∧ Untouched s t [.regs, .drv, .evt])
  ∧ (∀ (s : State) (g : Fin 24) (c : DrvCmd), (s.driver g).cmd = some c → c.use = .seq → (s.driver g).queue = [] → s.seq = 3 →
      s.seqStep = 2 →
      ∃ t, exec (.batCmdTimeout g) s = .next t ∧ (t.driver g).cmd = none ∧ SameRegs s t eventRegs ∧ Untouched s t [.regs, .drv, .evt]
        ∧ (s.flag Reg.EVT_CFG F.EVT_CFG_EN = true → s.evt.pend = [] →
            t.evt.pend.map PendEvent.code = [Ev.PNL_DISCH_NORESP, Ev.BAT_CMD_FAIL]))
  ∧ (∀ (s : State) (v : Word), Reaches s Reg.BAT_CMD → s.flag Reg.BAT_CMDST F.BAT_CMDST_BUSY = true →
      exec (.batCmdWrite v) s = .next (s.event Ev.BAT_CMD_FAIL (drvItems (fieldOf F.BAT_CMD_DRV v)))
      ∧ exec (.batCmdRead v) s = .next (s.event Ev.BAT_CMD_FAIL (drvItems (fieldOf F.BAT_CMD_DRV v))))
  ∧ (∀ (s : State) (v : Word) (c : Instr), Reaches s Reg.BAT_CMD → s.flag Reg.BAT_CMDST F.BAT_CMDST_BUSY = false →
      c = .batCmdWrite v ∨ c = .batCmdRead v → 24 ≤ fieldOf F.BAT_CMD_DRV v ∨ s.drvUp (fieldOf F.BAT_CMD_DRV v) = false →
      ∃ t, exec c s = .next t ∧ t.flag Reg.BAT_CMDST F.BAT_CMDST_BUSY = false
        ∧ t.getF Reg.BAT_CMDST F.BAT_CMDST_RESULT = (if 24 ≤ fieldOf F.BAT_CMD_DRV v then 1 else 5)
        ∧ SameRegs s t [Reg.BAT_CMDST] ∧ Untouched s t [.regs])
  ∧ (∀ (s : State) (v : Word) (g : Nat), Reaches s Reg.BAT_CMD → s.flag Reg.BAT_CMDST F.BAT_CMDST_BUSY = false →
      g = fieldOf F.BAT_CMD_DRV v → g < 24 → s.drvUp g = true → (s.driver g).cmd = none → (s.driver g).queue = [] →
      fieldOf F.BAT_CMD_ADDR v ≠ 1 →
      ∃ t, exec (.batCmdWrite v) s = .next t ∧ t.flag Reg.BAT_CMDST F.BAT_CMDST_BUSY = true
        ∧ t.out = s.out ++ [.batCmd g 1 (s.driver g).nextTag (fieldOf F.BAT_CMD_ADDR v) (s.reg Reg.BAT_CMDDATA)]
        ∧ SameRegs s t [Reg.BAT_CMDST] ∧ Untouched s t [.regs, .drv, .out])
  ∧ (∀ (s : State) (v : Word) (g : Nat), Reaches s Reg.BAT_CMD → s.flag Reg.BAT_CMDST F.BAT_CMDST_BUSY = false →
      g = fieldOf F.BAT_CMD_DRV v → g < 24 → s.drvUp g = true → (s.driver g).cmd = none → (s.driver g).queue = [] →
      ∃ t, exec (.batCmdRead v) s = .next t ∧ t.flag Reg.BAT_CMDST F.BAT_CMDST_BUSY = true
        ∧ t.out = s.out ++ [.batCmd g 2 (s.driver g).nextTag (fieldOf F.BAT_CMD_ADDR v) 0]
        ∧ SameRegs s t [Reg.BAT_CMDST] ∧ Untouched s t [.regs, .drv, .out])

/-! ## The panel -/

/-- R384 to R388: the panel sequencer, step by step: the checks of N1, the rails of N3, the drivers' training, and the panel on; the
power-off and its end; and a rail whose power-good does not come. What goes beyond the rules' words is the model's own (log entries 16,
17, 27 and 137). -/
def Obligations.PanelSequence : Prop :=
  (∀ (s : State) (pins : PanelPins), s.seq ≠ 1 → s.seq ≠ 3 →
      exec (.pnlSeqStepEnd pins) s = .next (s.setF Reg.SCN_PSTAT F.SCN_PSTAT_PFAIL (b2n pins.pfailLow)).syncLath)
  ∧ (∀ (s : State) (pins : PanelPins), s.seq = 1 → s.seqStep = 1 → s.crackPol ≠ 0 → s.pnl.n1Measured = false →
      ∃ t, exec (.pnlSeqStepEnd pins) s = .next t ∧ t.flag Reg.SCN_PSTAT F.SCN_PSTAT_PFAIL = pins.pfailLow ∧ t.seqStep = 1
        ∧ SameRegs s t [Reg.SCN_PSTAT, Reg.LTH_STAT] ∧ Untouched s t [.regs, .pipe])
  ∧ (∀ (s : State) (pins : PanelPins), s.seq = 1 → s.seqStep = 1 → s.crackPol = 0 → pins.pfailLow = true → s.pnl.raised = [] →
      s.pnl.pins < 256 →
      s.rst.off = false → s.rst.waitPanel = none →
      ∃ t, exec (.pnlSeqStepEnd pins) s = .next t ∧ t.seq = 0 ∧ t.getF Reg.SCN_PSTAT F.SCN_PSTAT_LAST_FAIL = 7
        ∧ t.getF Reg.PWR_REQ F.PWR_REQ_STATE = 1 ∧ t.getF Reg.PWR_STATE F.PWR_STATE_CUR = 2 ∧ t.pnl.pins = 0)
  ∧ (∀ (s : State) (pins : PanelPins) (n : Nat) (rest : List Nat), s.seq = 1 → s.seqStep = 1 → s.crackPol = 0 → pins.pfailLow = false →
      pins.vddLow = false → s.pnl.todo = n :: rest → n < 6 →
      ∃ t, exec (.pnlSeqStepEnd pins) s = .next t ∧ t.seq = 1 ∧ t.seqStep = 3 ∧ t.pnl.raised = s.pnl.raised ++ [n]
        ∧ bit (t.getF Reg.SCN_PSTAT F.SCN_PSTAT_EN) n = true ∧ bit t.pnl.pins 1 = true ∧ bit t.pnl.pins 2 = true ∧ bit t.pnl.pins 3 = true
        ∧ SameRegs s t [Reg.SCN_PSTAT, Reg.LTH_STAT] ∧ Untouched s t [.regs, .pnl, .out, .pipe])
  ∧ (∀ (s : State) (pins : PanelPins) (n : Nat) (rest : List Nat), s.seq = 1 → s.seqStep = 3 → s.pnl.todo = n :: rest → n < 6 →
      s.pnl.inDelay = false →
      ∃ t, exec (.pnlSeqStepEnd pins) s = .next t ∧ bit (t.getF Reg.SCN_PSTAT F.SCN_PSTAT_PG) n = true ∧ t.pnl.inDelay = true
        ∧ t.pnl.todo = n :: rest ∧ t.seqStep = 3 ∧ SameRegs s t [Reg.SCN_PSTAT, Reg.LTH_STAT] ∧ Untouched s t [.regs, .pnl, .pipe])
  ∧ (∀ (s : State) (pins : PanelPins) (n m : Nat) (rest : List Nat), s.seq = 1 → s.seqStep = 3 → s.pnl.todo = n :: m :: rest → m < 6 →
      s.pnl.inDelay = true →
      ∃ t, exec (.pnlSeqStepEnd pins) s = .next t ∧ bit (t.getF Reg.SCN_PSTAT F.SCN_PSTAT_EN) m = true ∧ t.pnl.inDelay = false
        ∧ t.pnl.todo = m :: rest ∧ t.pnl.raised = s.pnl.raised ++ [m] ∧ SameRegs s t [Reg.SCN_PSTAT, Reg.LTH_STAT] ∧ Untouched s t [.regs, .pnl, .out, .pipe])
  ∧ (∀ (s : State) (pins : PanelPins), s.seq = 1 → s.seqStep = 4 → (∃ g ∈ s.trained, s.drvState g = 1) →
      exec (.pnlSeqStepEnd pins) s = .next (s.setF Reg.SCN_PSTAT F.SCN_PSTAT_PFAIL (b2n pins.pfailLow)).syncLath)
  ∧ (∀ (s : State) (pins : PanelPins), s.seq = 1 → s.seqStep = 4 → (∀ g ∈ s.trained, s.drvState g ≠ 1) →
      ∃ t, exec (.pnlSeqStepEnd pins) s = .next t ∧ t.seqStep = 5 ∧ SameRegs s t [Reg.SCN_PSTAT, Reg.LTH_STAT] ∧ Untouched s t [.regs, .drv, .out, .pipe])
  ∧ (∀ (s : State) (pins : PanelPins), s.seq = 1 → s.seqStep = 5 ∨ s.seqStep = 6 ∨ s.seqStep = 7 →
      ∃ t, exec (.pnlSeqStepEnd pins) s = .next t ∧ t.seq = 1 ∧ t.seqStep = s.seqStep + 1
        ∧ bit t.pnl.pins 0 = (if s.seqStep = 5 then true else if s.seqStep = 6 then false else bit s.pnl.pins 0)
        ∧ SameRegs s t (Reg.SCN_PSTAT :: Reg.LTH_STAT :: eventRegs) ∧ Untouched s t [.regs, .drv, .pnl, .evt, .out, .pipe])
  ∧ (∀ (s : State) (pins : PanelPins), s.seq = 1 → s.seqStep = 8 → s.pnl.wantOff = false →
      ∃ t, exec (.pnlSeqStepEnd pins) s = .next t ∧ t.seq = 2 ∧ t.seqStep = 0 ∧ t.pipe.hValid = 0
        ∧ t.getF Reg.PWR_STATE F.PWR_STATE_CUR = 0 ∧ t.getF Reg.PWR_STATE F.PWR_STATE_TRANS = 0
        ∧ SameRegs s t ([Reg.SCN_PSTAT, Reg.LTH_STAT, Reg.PWR_STATE, Reg.ODV_STAT] ++ (List.range 8).map Reg.BNK_PSTAT ++ eventRegs))
  ∧ (∀ (s : State) (pins : PanelPins), s.seq = 3 → s.seqStep = 1 → s.pnl.scanning = true →
      exec (.pnlSeqStepEnd pins) s = .next (s.setF Reg.SCN_PSTAT F.SCN_PSTAT_PFAIL (b2n pins.pfailLow)).syncLath)
  ∧ (∀ (s : State) (pins : PanelPins), s.seq = 3 → s.seqStep = 1 → s.pnl.scanning = false →
      ∃ t, exec (.pnlSeqStepEnd pins) s = .next t ∧ t.seqStep = 2 ∧ bit t.pnl.pins 1 = true
        ∧ SameRegs s t [Reg.SCN_PSTAT, Reg.LTH_STAT] ∧ Untouched s t [.regs, .pnl, .drv, .out, .pipe])
  ∧ (∀ (s : State) (pins : PanelPins), s.seq = 3 → s.seqStep = 3 →
      ∃ t, exec (.pnlSeqStepEnd pins) s = .next t ∧ t.seqStep = 4 ∧ bit t.pnl.pins 0 = false ∧ bit t.pnl.pins 2 = true
        ∧ bit t.pnl.pins 3 = true ∧ SameRegs s t [Reg.SCN_PSTAT, Reg.LTH_STAT] ∧ Untouched s t [.regs, .pnl, .out, .pipe])
  ∧ (∀ (s : State) (pins : PanelPins), s.seq = 3 → s.seqStep = 5 → s.pnl.todo = [] → s.pnl.aborted = false → s.pnl.wantOn = false →
      s.pwr.heading = false → s.rst.off = false → s.rst.waitPanel = none → s.pnl.pins < 256 →
      ∃ t, exec (.pnlSeqStepEnd pins) s = .next t ∧ t.seq = 0 ∧ t.seqStep = 0 ∧ t.pnl.pins = 0 ∧ t.pnl.raised = []
        ∧ t.getF Reg.PWR_STATE F.PWR_STATE_CUR = 2 ∧ (∀ g, g < 24 → t.drvState g = 0) ∧ t.isOn 18 = false
        ∧ t.getF Reg.SCN_PSTAT F.SCN_PSTAT_LAST_FAIL
            = (if s.pnl.stopCause = 0 then s.getF Reg.SCN_PSTAT F.SCN_PSTAT_LAST_FAIL else s.pnl.stopCause % 16))
  ∧ (∀ s : State, s.pnl.todo = [] ∨ s.pnl.inDelay = true → exec .pnlPgTimeout s = .next s)
  ∧ (∀ (s : State) (n r : Nat) (rest l : List Nat), s.seq = 1 → s.seqStep = 3 → s.pnl.todo = n :: rest → s.pnl.inDelay = false →
      s.pnl.raised = r :: l →
      ∃ t, exec .pnlPgTimeout s = .next t ∧ t.seq = 3 ∧ t.seqStep = 4 ∧ t.pnl.aborted = true
        ∧ t.getF Reg.SCN_PSTAT F.SCN_PSTAT_LAST_FAIL = 1 ∧ t.getF Reg.PWR_REQ F.PWR_REQ_STATE = 1
        ∧ bit (t.reg Reg.EVT_ALM_PEND_LO).toNat 2 = true
        ∧ SameRegs s t ([Reg.SCN_PSTAT, Reg.PWR_REQ, Reg.PWR_STATE] ++ alarmRegs 2))
  ∧ (∀ (s : State) (n m : Nat) (rest : List Nat), s.seq = 3 → s.seqStep = 5 → s.pnl.todo = n :: m :: rest → s.pnl.inDelay = false →
      m < 6 →
      ∃ t, exec .pnlPgTimeout s = .next t ∧ t.seqStep = 5 ∧ t.pnl.todo = m :: rest
        ∧ bit (t.getF Reg.SCN_PSTAT F.SCN_PSTAT_EN) m = false ∧ SameRegs s t (Reg.SCN_PSTAT :: eventRegs)
        ∧ Untouched s t [.regs, .pnl, .evt, .out])

/-- R51, R388, R389, R391, R394, R395: the emergency discharge, from its trigger to its end, and the measurements of the crack loop: three
readings above the limit, or two open ones, change its state. What goes beyond the rules' words is the model's own (log entries 17, 27 and
135). -/
def Obligations.PanelProtection : Prop :=
  (∀ (s : State) (c : EmergCause), s.rst.applying.isSome = true → exec (.emergTrigger c) s = .next s)
  ∧ (∀ s : State, s.scanRuns = false → s.seq = 2 → s.rst.applying = none →
      ∃ t, exec (.emergTrigger .pfail) s = .next t ∧ t.seq = 4 ∧ t.pnl.emerg = 3 ∧ t.pnl.emergStep = 0 ∧ t.pnl.scanning = false
        ∧ t.flag Reg.SCN_PSTAT F.SCN_PSTAT_PFAIL = true ∧ t.getF Reg.PWR_STATE F.PWR_STATE_TARGET = 2 ∧ bit t.pnl.pins 1 = true
        ∧ SameRegs s t [Reg.SCN_PSTAT, Reg.PWR_STATE] ∧ Untouched s t [.regs, .pwr, .pnl, .drv, .out, .freeN])
  ∧ (∀ s : State, s.seq = 0 ∨ s.seq = 4 → exec (.emergTrigger .vddIo) s = .next s ∧ exec (.emergTrigger .crack) s = .next s)
  ∧ (∀ (s : State) (n : Fin 6), bit (s.getF Reg.SCN_PSTAT F.SCN_PSTAT_PG) n = false → exec (.emergTrigger (.pgLost n)) s = .next s)
  ∧ (∀ s : State, s.rst.shutdown = false → s.seq = 0 → s.rst.applying = none →
      ∃ t, exec (.emergTrigger .thermal) s = .next t ∧ t.rst.shutdown = true ∧ (∀ b, b < 18 → t.isReady b = false)
        ∧ (∀ d, 2 ≤ d → d < 34 → t.isOn d = false) ∧ t.flag Reg.GBL_RESET_CAUSE F.GBL_RESET_CAUSE_THERMAL = true
        ∧ bit (t.reg Reg.EVT_ALM_PEND_LO).toNat 9 = true ∧ t.meter = s.meter)
  ∧ (∀ s : State, s.seq ≠ 4 → exec .emergStep s = .next s.syncLath)
  ∧ (∀ s : State, s.seq = 4 → s.pnl.emergStep = 0 → s.pnl.emergSkip = false →
      ∃ t, exec .emergStep s = .next t ∧ t.pnl.emergStep = 1 ∧ bit t.pnl.pins 0 = true ∧ SameRegs s t [Reg.LTH_STAT] ∧ Untouched s t [.regs, .pnl, .out, .pipe])
  ∧ (∀ s : State, s.seq = 4 → s.pnl.emergStep = 1 →
      ∃ t, exec .emergStep s = .next t ∧ t.pnl.emergStep = 2 ∧ bit t.pnl.pins 0 = false ∧ bit t.pnl.pins 2 = true
        ∧ bit t.pnl.pins 3 = true ∧ SameRegs s t [Reg.LTH_STAT] ∧ Untouched s t [.regs, .pnl, .out, .pipe])
  ∧ (∀ s : State, s.seq = 4 → s.pnl.emergStep = 2 →
      ∃ t, exec .emergStep s = .next t ∧ t.pnl.emergStep = 3 ∧ t.getF Reg.SCN_PSTAT F.SCN_PSTAT_EN = 0 ∧ bit t.pnl.pins 6 = false
        ∧ bit t.pnl.pins 7 = false ∧ (∀ g, g < 24 → bit s.pnl.pins (6 + g / 12) = true → t.drvState g = 0)
        ∧ SameRegs s t ([Reg.SCN_PSTAT, Reg.LTH_STAT] ++ (List.range 24).map dstat) ∧ Untouched s t [.regs, .drv, .pnl, .out, .pipe])
  ∧ (∀ s : State, s.seq = 4 → s.pnl.emergStep = 3 → s.rst.shutdownDue = false → s.rst.off = false → s.rst.waitPanel = none →
      s.pnl.wantOn = false → s.pwr.heading = false → s.pnl.emerg < 16 → s.pnl.pins < 256 →
      ∃ t, exec .emergStep s = .next t ∧ t.seq = 0 ∧ t.pnl.pins = 0 ∧ t.getF Reg.SCN_PSTAT F.SCN_PSTAT_LAST_FAIL = s.pnl.emerg
        ∧ (t.reg Reg.SCN_CNT_EMERG).toNat = min ((s.reg Reg.SCN_CNT_EMERG).toNat + 1) 0xFFFFFFFF
        ∧ bit (t.reg Reg.EVT_ALM_PEND_LO).toNat 3 = true ∧ t.getF Reg.PWR_REQ F.PWR_REQ_STATE = 1
        ∧ t.getF Reg.PWR_STATE F.PWR_STATE_CUR = 2)
  ∧ (∀ s : State, s.crackPol = 0 ∨ s.pnl.measuring = true ∨ s.pwr.dormant = true → exec .crackMeasure s = .next s)
  ∧ (∀ s : State, s.crackPol ≠ 0 → s.pnl.measuring = false → s.getF Reg.PWR_STATE F.PWR_STATE_CUR ≤ 2 → s.pwr.dormant = false →
      s.calrefBusy = false →
      ∃ t, exec .crackMeasure s = .next t ∧ t.pnl.measuring = true ∧ t.pnl.force = (if s.flag Reg.SCN_PROT F.SCN_PROT_IFORCE then 1000 else 100) ∧ t.out = s.out ++ [.crackForce t.pnl.force]
        ∧ SameRegs s t [] ∧ Untouched s t [.pnl, .out])
  ∧ (∀ (s : State) (r : CrackReading), s.pnl.measuring = false → s.scanRuns = false → exec (.crackMeasureEnd r) s = .next s)
  ∧ (∀ (s : State) (r : CrackReading), s.pnl.measuring = true → s.seq ≠ 1 → s.scanRuns = false → crackKind s r = 0 →
      s.getF Reg.SCN_CRACK F.SCN_CRACK_STATE = 0 →
      ∃ t, exec (.crackMeasureEnd r) s = .next t ∧ t.pnl.measuring = false ∧ t.pnl.crackOk = s.pnl.crackOk + 1 ∧ t.pnl.crackHigh = 0
        ∧ t.flag Reg.SCN_CRACK F.SCN_CRACK_VALID = true ∧ t.getF Reg.SCN_CRACK F.SCN_CRACK_OHMS = crackOhms s.pnl.force r % 2 ^ 20
        ∧ t.out = s.out ++ [.crackForce 0] ∧ SameRegs s t [Reg.SCN_CRACK] ∧ Untouched s t [.regs, .pnl, .out])
  ∧ (∀ (s : State) (r : CrackReading), s.pnl.measuring = true → s.seq ≠ 1 → s.scanRuns = false → crackKind s r = 1 →
      2 ≤ s.pnl.crackHigh → s.getF Reg.SCN_CRACK F.SCN_CRACK_STATE = 0 → s.crackPol = 1 →
      ∃ t, exec (.crackMeasureEnd r) s = .next t ∧ t.getF Reg.SCN_CRACK F.SCN_CRACK_STATE = 1
        ∧ (t.reg Reg.SCN_CNT_CRACK).toNat = min ((s.reg Reg.SCN_CNT_CRACK).toNat + 1) 0xFFFFFFFF
        ∧ bit (t.reg Reg.EVT_ALM_PEND_LO).toNat 4 = true ∧ SameRegs s t ([Reg.SCN_CRACK, Reg.SCN_CNT_CRACK] ++ alarmRegs 4))

/-! ## Magazines and plates -/

/-- R402 to R406, R411, R413, R424: a magazine's port: presence, the attach sequence step by step, removal, unmounting and formatting, and
the completion of its NVMe commands. What goes beyond the rules' words is the model's own (log entries 95, 96 and 99). -/
def Obligations.MagazinePorts : Prop :=
  (∀ (s : State) (p : Fin 4), s.magState p = 0 → (s.port p).present = false → (s.port p).reseat = false →
      s.flag (Reg.MAG_CFG p) F.MAG_CFG_EN = true → s.isReady 15 = true → s.isOn (11 + p) = true →
      ∃ t, exec (.magPresenceChange p true) s = .next t ∧ t.magState p = 1 ∧ (t.port p).present = true ∧ (t.port p).step = 0
        ∧ (t.port p).cmds = [] ∧ SameRegs s t [Reg.MAG_PSTAT p] ∧ Untouched s t [.regs, .mag])
  ∧ (∀ (s : State) (p : Fin 4), s.magState p = 5 →
      ∃ t, exec (.magPresenceChange p false) s = .next t ∧ t.magState p = 0
        ∧ t.port p = { MagPort.init with nextTag := (s.port p).nextTag }
        ∧ t.pair64 (Reg.MAG_NSZE_LO p) (Reg.MAG_NSZE_HI p) = 0 ∧ t.reg (Reg.MAG_GEN p) = 0
        ∧ (∀ k, k < 16 → (t.sched k).all (fun g => g.port ≠ p.val) = true))
  ∧ (∀ (s : State) (p : Fin 4), s.magState p = 8 →
      ∃ t, exec (.magPresenceChange p false) s = .next t ∧ t.magState p = 8 ∧ (t.port p).present = false ∧ SameRegs s t []
        ∧ Untouched s t [.mag])
  ∧ (∀ (s : State) (p : Fin 4) (r : AttachResult), s.magState p ≠ 1 → exec (.attachStep p r) s = .next s)
  ∧ (∀ (s : State) (p : Fin 4), s.magState p = 1 → (s.port p).step = 0 →
      exec (.attachStep p (.waited false)) s = .next s
      ∧ ∃ t, exec (.attachStep p (.waited true)) s = .next t ∧ (t.port p).step = 1 ∧ t.magState p = 1
        ∧ t.out = s.out ++ [.pin ("MG" ++ toString p.val ++ "_PWR_EN") true] ∧ SameRegs s t [] ∧ Untouched s t [.mag, .out])
  ∧ (∀ (s : State) (p : Fin 4) (w : Fin 3) (r : Fin 4), s.magState p = 1 → (s.port p).step = 3 →
      (∃ t, exec (.attachStep p .noLink) s = .next t ∧ t.magState p = 7 ∧ SameRegs s t [Reg.MAG_PSTAT p] ∧ Untouched s t [.regs])
      ∧ ∃ t, exec (.attachStep p (.link w r)) s = .next t ∧ (t.port p).step = 4 ∧ t.getF (Reg.MAG_PSTAT p) F.MAG_PSTAT_WIDTH = 2 ^ w.val
        ∧ t.getF (Reg.MAG_PSTAT p) F.MAG_PSTAT_RATE = min r.val (3 - s.getF (Reg.MAG_CFG p) F.MAG_CFG_SPEED)
        ∧ SameRegs s t [Reg.MAG_PSTAT p] ∧ Untouched s t [.regs, .mag, .thm])
  ∧ (∀ (s : State) (p : Fin 4) (nvme sw : Bool) (q : BitVec 16), s.magState p = 1 → (s.port p).step = 4 →
      (nvme = false ∨ sw = true ∨ q.toNat < 15) →
      ∃ t, exec (.attachStep p (.endpoint nvme sw q)) s = .next t ∧ t.magState p = 2
        ∧ SameRegs s t (Reg.MAG_PSTAT p :: eventRegs))
  ∧ (∀ (s : State) (p : Fin 4) (q : BitVec 16), s.magState p = 1 → (s.port p).step = 4 → 15 ≤ q.toNat → (s.port p).cmds = [] →
      ∃ t, exec (.attachStep p (.endpoint true false q)) s = .next t ∧ (t.port p).step = 5 ∧ (t.port p).depth = min 256 (q.toNat + 1)
        ∧ t.out = s.out ++ [.nvme p (s.port p).nextTag (.admin "Identify controller" 0)]
        ∧ SameRegs s t [Reg.MAG_QSTAT p] ∧ Untouched s t [.regs, .mag, .out])
  ∧ (∀ (s : State) (p : Fin 4) (tag : Nat) (r : NvmeResult), (∀ c ∈ (s.port p).cmds, c.tag ≠ tag ∨ c.sent = false) →
      exec (.nvmeCompletion p tag r) s = .next s)
  ∧ (∀ (s : State) (p : Fin 4) (tag : Nat) (cmd : NvmeCmd) (k : BitVec 16), (s.port p).cmds = [⟨tag, .smart, cmd, true⟩] →
      (s.port p).unmounting = none →
      ∃ t, exec (.nvmeCompletion p tag (.smart k 0)) s = .next t ∧ t.getF (Reg.MAG_TEMP p) F.MAG_TEMP_KELVIN = k.toNat
        ∧ t.getF (Reg.MAG_TEMP p) F.MAG_TEMP_CRIT = 0 ∧ (t.port p).cmds = []
        ∧ SameRegs s t [Reg.MAG_TEMP p, Reg.MAG_QSTAT p] ∧ Untouched s t [.regs, .mag])
  ∧ (∀ (s : State) (p : Fin 4) (tag n : Nat) (cmd : NvmeCmd), s.magState p = 1 → (s.port p).cmds = [⟨tag, .identify n, cmd, true⟩] →
      (s.port p).unmounting = none →
      ∃ t, exec (.nvmeCompletion p tag .failed) s = .next t ∧ t.magState p = 2 ∧ (t.port p).cmds = []
        ∧ SameRegs s t ([Reg.MAG_PSTAT p, Reg.MAG_QSTAT p] ++ eventRegs))
  ∧ (∀ (s : State) (p : Fin 4) (tag : Nat) (cmd : NvmeCmd), (s.port p).cmds = [⟨tag, .unmount 3, cmd, true⟩] →
      (s.port p).unmounting = some 6 → s.flag (Reg.MAG_CFG p) F.MAG_CFG_EN = true →
      ∃ t, exec (.nvmeCompletion p tag .done) s = .next t ∧ t.magState p = (if (s.port p).present then 6 else 0)
        ∧ (t.port p).unmounting = none ∧ (t.port p).cmds = [] ∧ (t.port p).reseat = (s.port p).present)
  ∧ (∀ (s : State) (p : Fin 4) (tag : Nat) (cmd : NvmeCmd), (s.port p).cmds = [⟨tag, .unmount 3, cmd, true⟩] →
      s.flag (Reg.MAG_CFG p) F.MAG_CFG_EN = false →
      ∃ t, exec (.nvmeCompletion p tag .done) s = .next t ∧ t.magState p = 8 ∧ (t.port p).unmounting = none ∧ (t.port p).cmds = []
        ∧ (t.port p).reseat = false)
  ∧ (∀ (s : State) (p : Fin 4) (tag : Nat) (cmd : NvmeCmd), (s.port p).cmds = [⟨tag, .unmount 3, cmd, true⟩] →
      (s.port p).unmounting = some 8 → s.flag (Reg.MAG_CFG p) F.MAG_CFG_EN = true → (s.port p).present = true → s.isReady 15 = true →
      s.isOn (11 + p) = true →
      ∃ t, exec (.nvmeCompletion p tag .done) s = .next t ∧ t.magState p = 1 ∧ (t.port p).step = 0 ∧ (t.port p).cmds = [])
  ∧ (∀ (s : State) (p : Fin 4) (cause : RemoveCause), s.magPowered p = false → exec (.magRemove p cause) s = .next s)
  ∧ (∀ (s : State) (p : Fin 4), s.magPowered p = true → (s.port p).present = true → s.platesInFlight p = false →
      ∃ t, exec (.magRemove p .cmdTimeout) s = .next t ∧ t.magState p = 7 ∧ (t.port p).reseat = true ∧ (t.port p).cmds = []
        ∧ (t.reg (Reg.MAG_CNT_TIMEOUT p)).toNat = min ((s.reg (Reg.MAG_CNT_TIMEOUT p)).toNat + 1) 0xFFFFFFFF)
  ∧ (∀ (s : State) (p : Fin 4), s.magState p ≠ 3 → s.magState p ≠ 4 → s.magState p ≠ 5 → exec (.smartPoll p) s = .next s)
  ∧ (∀ (s : State) (p : Fin 4), s.magState p = 5 → (s.port p).cmds = [] →
      ∃ t, exec (.smartPoll p) s = .next t
        ∧ t.out = s.out ++ [.nvme p (s.port p).nextTag (.admin "Get Log Page SMART/Health" 2)]
        ∧ SameRegs s t [Reg.MAG_QSTAT p] ∧ Untouched s t [.regs, .mag, .out])
  ∧ (∀ (s : State) (p : Fin 4) (v : Word), Reaches s (Reg.MAG_CTL p) → fieldOf F.MAG_CTL_FORMAT v = 0 → s.magState p = 5 →
      (s.port p).unmounting = none →
      (s.port p).formatting = false → s.platesInFlight p = false → (s.port p).cmds = [] → 0 < (s.port p).depth → s.mag.scheds = [] →
      s.mag.stages = [] →
      ∃ t, exec (.magUnmount p v) s = .next t ∧ (t.port p).unmounting = some 6 ∧ t.magState p = 5
        ∧ t.out = s.out ++ [.nvme p (s.port p).nextTag .flush] ∧ SameRegs s t [Reg.MAG_QSTAT p] ∧ Untouched s t [.regs, .mag, .out])
  ∧ (∀ (s : State) (p : Fin 4) (v : Word), Reaches s (Reg.MAG_CTL p) → fieldOf F.MAG_CTL_FORMAT v = 0 →
      (s.port p).unmounting.isSome = true →
      exec (.magUnmount p v) s = .next s)
  ∧ (∀ (s : State) (p : Fin 4) (v : Word), Reaches s (Reg.MAG_CTL p) → fieldOf F.MAG_CTL_UNMOUNT v = 0 → fieldOf F.MAG_CTL_KEY v ≠ 0xF0A7 →
      exec (.magFormat p v) s = .next (s.event Ev.MAG_CTL_REJECT [(8, p.val)]))
  ∧ (∀ (s : State) (p : Fin 4) (v : Word), Reaches s (Reg.MAG_CTL p) → fieldOf F.MAG_CTL_UNMOUNT v = 0 → fieldOf F.MAG_CTL_KEY v = 0xF0A7 →
      s.magState p = 3 ∨ s.magState p = 4 → (s.port p).formatting = false → (s.port p).unmounting = none →
      ∃ t, exec (.magFormat p v) s = .next t ∧ (t.port p).formatting = true ∧ t.magState p = 3 ∧ (t.port p).gen = s.maxGen p + 1
        ∧ SameRegs s t [Reg.MAG_PSTAT p, Reg.MAG_QSTAT p, Reg.MAG_VOLID_LO p, Reg.MAG_VOLID_HI p] ∧ Untouched s t [.regs, .mag, .out])

/-- The port that a plate descriptor names is mounted and stays so (R414). -/
def PlatesUsable (s : State) (p : Nat) : Prop := s.mounted p = true ∧ (s.port p).unmounting = none

/-- R414 to R421: the plate descriptors: each needs a mounted port; what each checks first, and what it starts: a change of the directory,
a read of host memory, a schedule, or reads of the plate. PLATE_STAGE_START takes the frame whose deadline is first. What goes beyond the
rules' words is the model's own (log entries 98, 100, 101, 102 and 103). -/
def Obligations.Plates : Prop :=
  (∀ (s : State) (c : Fin 256) (d : Desc) (i : Instr) (p : Desc → Bool), s.startable c p = some d →
      (i, p) ∈ ([(.plateCreate c, fun d => isOp 0x18 d && d.arg 0 == 1), (.plateAppend c, fun d => isOp 0x18 d && d.arg 0 == 2),
        (.plateClose c, fun d => isOp 0x18 d && d.arg 0 == 3), (.platePlayStart c, fun d => isOp 0x19 d && d.playOp == 1),
        (.platePlayStop c, fun d => isOp 0x19 d && d.playOp == 2), (.plateReadPages c, fun d => isOp 0x1A d && d.arg 0 == 0),
        (.plateReadDecoded c, fun d => isOp 0x1A d && d.arg 0 == 1), (.plateReadEntry c, fun d => isOp 0x1A d && d.arg 0 == 2),
        (.plateDelete c, isOp 0x1B)] : List (Instr × (Desc → Bool))) → s.mounted d.magPort = false →
      exec i s = .next ((begun s c d).finish c d.idx (Cpl.of 0x44 (s.magState d.magPort))))
  ∧ (∀ (s : State) (c : Fin 256) (d : Desc) (e : Nat) (runs : List (Nat × Nat)),
      s.startable c (fun d => isOp 0x18 d && d.arg 0 == 1) = some d → PlatesUsable s d.magPort → (s.port d.magPort).updates = [] →
      (List.range 4096).find? (fun e => entState (s.entry d.magPort e) == 0) = some e →
      runs = takeRuns (d.arg 1) (freeRuns (s.port d.magPort).dir (s.lastCluster d.magPort) []) → runs.length ≤ 12 →
      d.arg 1 ≤ runs.foldl (fun n r => n + r.2) 0 →
      exec (.plateCreate c) s = .next ((begun s c d).queueUpdate d.magPort ⟨c, d.idx, 1, e, createEntry d runs⟩))
  ∧ (∀ (s : State) (c : Fin 256) (d : Desc), s.startable c (fun d => isOp 0x18 d && d.arg 0 == 2) = some d → PlatesUsable s d.magPort →
      (s.fnAbsent 13 && s.fnAbsent 14) = false → s.ownsOpen d.magPort d.plate c = false →
      exec (.plateAppend c) s = .next ((begun s c d).finish c d.idx (badFieldAt 0x18)))
  ∧ (∀ (s : State) (c : Fin 256) (d : Desc) (b : List Byte), s.startable c (fun d => isOp 0x18 d && d.arg 0 == 2) = some d →
      PlatesUsable s d.magPort → (s.fnAbsent 13 && s.fnAbsent 14) = false → b = s.entry d.magPort d.plate →
      s.ownsOpen d.magPort d.plate c = true → d.length = entFrameBytes b →
      (s.plateFrames d.magPort d.plate).1 < entFramesMax b →
      4096 * ceilDiv (wCont d.length 18) 4096 ≤ 4096 * (entSpace b - (s.plateFrames d.magPort d.plate).2) → s.hst.linkUp = true →
      ∃ t, exec (.plateAppend c) s = .next t ∧ t.out = s.out ++ [.hostRead s.hst.nextRid d.haddr d.length]
        ∧ t.mag.appends = s.mag.appends ++ [⟨c, d.idx, d.magPort, d.plate, b, [], [], [], 0, 0⟩]
        ∧ SameRegs s t [] ∧ Untouched s t [.hst, .mag, .out])
  ∧ (∀ (s : State) (c : Fin 256) (d : Desc), s.startable c (fun d => isOp 0x18 d && d.arg 0 == 3) = some d → PlatesUsable s d.magPort →
      s.ownsOpen d.magPort d.plate c = false →
      exec (.plateClose c) s = .next ((begun s c d).finish c d.idx (badFieldAt 0x18)))
  ∧ (∀ (s : State) (c : Fin 256) (d : Desc) (b : List Byte), s.startable c (fun d => isOp 0x18 d && d.arg 0 == 3) = some d →
      PlatesUsable s d.magPort → b = s.entry d.magPort d.plate → s.ownsOpen d.magPort d.plate c = true →
      exec (.plateClose c) s = .next ((begun s c d).queueUpdate d.magPort ⟨c, d.idx, 3, d.plate,
        [2] ++ slice 1 0x1F b ++ leBytes 4 (s.plateFrames d.magPort d.plate).1 ++ slice 0x24 0xC b
          ++ leBytes 8 (s.plateFrames d.magPort d.plate).2 ++ b.drop 0x38⟩))
  ∧ (∀ (s : State) (c : Fin 256) (d : Desc) (n : Nat), s.startable c (fun d => isOp 0x19 d && d.playOp == 1) = some d →
      PlatesUsable s d.magPort → s.playFault d = some n →
      exec (.platePlayStart c) s = .next ((begun s c d).finish c d.idx (badFieldAt n)))
  ∧ (∀ (s : State) (c : Fin 256) (d : Desc) (k : Nat), s.startable c (fun d => isOp 0x19 d && d.playOp == 1) = some d →
      PlatesUsable s d.magPort → s.playFault d = none → (List.range 16).find? (fun k => (s.sched k).isNone) = some k →
      2 * (s.heldScheds.length + 1) ≤ s.getF Reg.FST_ALLOC F.FST_ALLOC_PLATE_N →
      ∃ u, exec (.platePlayStart c) s = .next (u.finish c d.idx (Cpl.of 0 k))
        ∧ u.sched k = some ⟨d.magPort, d.plate, d.playView, d.playTgt, d.arg 1, d.playF0, d.arg 4, d.playEnd, none⟩
        ∧ (∀ j g, j ≠ k → s.sched j = some g → g.view ≠ d.playView ∨ g.tgt ≠ d.playTgt → u.sched j = some g)
        ∧ u.flag (Reg.MAG_PLAY k) F.MAG_PLAY_HELD = true ∧ u.getF (Reg.MAG_PLAY k) F.MAG_PLAY_PLATE = d.plate
        ∧ u.reg (Reg.MAG_PLAY_POS k) = 0xFFFFFFFF
        ∧ SameRegs s u [Reg.MAG_PLAY k, Reg.MAG_PLAY_POS k] ∧ Untouched s u [.regs, .hst, .mag])
  ∧ (∀ (s : State) (c : Fin 256) (d : Desc), s.startable c (fun d => isOp 0x19 d && d.playOp == 2) = some d → PlatesUsable s d.magPort →
      16 ≤ d.arg 1 ∨ s.sched (d.arg 1) = none →
      exec (.platePlayStop c) s = .next ((begun s c d).finish c d.idx (badFieldAt 0x28)))
  ∧ (∀ (s : State) (c : Fin 256) (d : Desc) (g : Sched), s.startable c (fun d => isOp 0x19 d && d.playOp == 2) = some d →
      PlatesUsable s d.magPort → d.arg 1 < 16 → s.sched (d.arg 1) = some g → g.until_ = none →
      ∃ u, exec (.platePlayStop c) s = .next (u.finish c d.idx (Cpl.of 0))
        ∧ u.sched (d.arg 1) = some { g with until_ := some (s.gen.fc + 1) } ∧ (∀ j, j ≠ d.arg 1 → u.sched j = s.sched j)
        ∧ SameRegs s u [] ∧ Untouched s u [.hst, .mag])
  ∧ (∀ (s : State) (c : Fin 256) (d : Desc), s.startable c (fun d => isOp 0x1A d && d.arg 0 == 0) = some d → PlatesUsable s d.magPort →
      (s.plateFrames d.magPort d.plate).1 ≤ d.arg 1 →
      exec (.plateReadPages c) s = .next ((begun s c d).finish c d.idx (badFieldAt 0x28)))
  ∧ (∀ (s : State) (c : Fin 256) (d : Desc) (a : Nat), s.startable c (fun d => isOp 0x1A d && d.arg 0 == 0) = some d →
      PlatesUsable s d.magPort → d.arg 1 < (s.plateFrames d.magPort d.plate).1 →
      lbaIn (entExtents (s.entry d.magPort d.plate)) (d.arg 1 / 512) = some a → (s.port d.magPort).cmds = [] →
      0 < (s.port d.magPort).depth →
      ∃ t, exec (.plateReadPages c) s = .next t
        ∧ t.out = s.out ++ [.nvme d.magPort (s.port d.magPort).nextTag (.read a 1)]
        ∧ t.mag.reads = s.mag.reads ++ [⟨c, d.idx, d.magPort, d.plate, false, 0, 0, [], 0⟩]
        ∧ SameRegs s t [Reg.MAG_QSTAT d.magPort] ∧ Untouched s t [.regs, .hst, .mag, .out])
  ∧ (∀ (s : State) (c : Fin 256) (d : Desc), s.startable c (fun d => isOp 0x1A d && d.arg 0 == 1) = some d → PlatesUsable s d.magPort →
      d.arg 1 < (s.plateFrames d.magPort d.plate).1 → d.limit < entFrameBytes (s.entry d.magPort d.plate) →
      exec (.plateReadDecoded c) s
        = .next ((begun s c d).finish c d.idx (tooLarge (entFrameBytes (s.entry d.magPort d.plate)) d.limit 0x20)))
  ∧ (∀ (s : State) (c : Fin 256) (d : Desc) (a : Nat), s.startable c (fun d => isOp 0x1A d && d.arg 0 == 1) = some d →
      PlatesUsable s d.magPort → d.arg 1 < (s.plateFrames d.magPort d.plate).1 → entFrameBytes (s.entry d.magPort d.plate) ≤ d.limit →
      lbaIn (entExtents (s.entry d.magPort d.plate)) (d.arg 1 / 512) = some a → (s.port d.magPort).cmds = [] →
      0 < (s.port d.magPort).depth →
      ∃ t, exec (.plateReadDecoded c) s = .next t
        ∧ t.out = s.out ++ [.nvme d.magPort (s.port d.magPort).nextTag (.read a 1)]
        ∧ t.mag.reads = s.mag.reads ++ [⟨c, d.idx, d.magPort, d.plate, true, 0, 0, [], 0⟩]
        ∧ SameRegs s t [Reg.MAG_QSTAT d.magPort] ∧ Untouched s t [.regs, .hst, .mag, .out])
  ∧ (∀ (s : State) (c : Fin 256) (d : Desc), s.startable c (fun d => isOp 0x1A d && d.arg 0 == 2) = some d → PlatesUsable s d.magPort →
      256 ≤ d.limit →
      exec (.plateReadEntry c) s
        = .next (((begun s c d).writeHost d.haddr2 (s.entry d.magPort d.plate) (some (c.val, d.idx))).finish c d.idx (Cpl.of 0 256 256)))
  ∧ (∀ (s : State) (c : Fin 256) (d : Desc), s.startable c (isOp 0x1B) = some d → PlatesUsable s d.magPort →
      entState (s.entry d.magPort d.plate) = 0 →
      exec (.plateDelete c) s = .next ((begun s c d).finish c d.idx (badFieldAt 0x18)))
  ∧ (∀ (s : State) (c : Fin 256) (d : Desc), s.startable c (isOp 0x1B) = some d → PlatesUsable s d.magPort →
      entState (s.entry d.magPort d.plate) ≠ 0 → s.mag.appends = [] → s.mag.scheds = [] →
      exec (.plateDelete c) s = .next ((begun s c d).queueUpdate d.magPort ⟨c, d.idx, 4, d.plate, List.replicate 256 0⟩))
  ∧ (∀ s : State, s.stageWanted = [] → exec .plateStageStart s = .next s)
  ∧ (∀ (s : State) (f k p e n v x i a : Nat), s.stageWanted = [(f, k, p, e, n, v, x)] → s.mag.stages = [] → s.freePlateBuf = some i →
      lbaIn (entExtents (s.entry p e)) (n / 512) = some a → (s.port p).cmds = [] → 0 < (s.port p).depth →
      ∃ t, exec .plateStageStart s = .next t ∧ (∃ g, t.staging i = some g ∧ g.port = p ∧ g.plate = e ∧ g.pframe = n ∧ g.frame = f
          ∧ g.users = [(v, x)] ∧ g.complete = false)
        ∧ t.out = s.out ++ [.nvme p (s.port p).nextTag (.read a 1)]
        ∧ SameRegs s t [Reg.MAG_QSTAT p, Reg.FST_MAP_ADDR, Reg.FST_MAP_SIZE, Reg.FST_MAP_FRAME] ∧ Untouched s t [.regs, .fst, .mag, .out])
  ∧ (∀ (s : State) (c : Fin 256) (d : Desc), s.startable c (fun d => isOp 0x18 d && d.arg 0 == 2) = some d → PlatesUsable s d.magPort →
      (s.fnAbsent 13 && s.fnAbsent 14) = true →
      exec (.plateAppend c) s = .next ((begun s c d).finish c d.idx (Cpl.of 0x22)))

/-! ## Thatch and Swage -/

/-- R230, R437, R439, R447 to R449, R481: the queue of codec jobs, an engine that takes a job and ends it, the pauses of the throttle, and
the self-tests of the engines and of Swage. What goes beyond the rules' words is the model's own (log entries 104 and 105). -/
def Obligations.Codecs : Prop :=
  (∀ (s : State) (c : Fin 256) (d : Desc) (i : Instr) (op : Nat), (i, op) ∈ ([(.thcComp c, 0x10), (.thcDecomp c, 0x11)] : List (Instr × Nat)) →
      s.startable c (isOp op) = some d →
      ∃ t, exec i s = .next t ∧ t.thc = { s.thc with queue := s.thc.queue ++ [(c.val, d.idx)] } ∧ SameRegs s t []
      ∧ Untouched s t [.hst, .thc])
  ∧ (∀ (s : State) (e : Fin 2), s.stageWork = none → s.ingestWork = none → s.thc.queue = [] → exec (.engineJobStart e) s = .next s)
  ∧ (∀ (s : State) (c idx : Nat) (d : Desc), s.stageWork = none → s.ingestWork = none → s.thc.queue = [(c, idx)] → s.engineFree 0 = true →
      s.isOn 21 = true → s.desc? c idx = some d → d.arg 0 / 65536 % 4 = 0 → s.stageOnly 0 = false → d.resume = false → s.hst.linkUp = true →
      ∃ t, exec (.engineJobStart 0) s = .next t ∧ t.engine 0 = ⟨.host c idx (some []) none, 0⟩ ∧ t.thc.queue = []
        ∧ t.engine 1 = s.engine 1 ∧ t.out = s.out ++ [.hostRead s.hst.nextRid d.haddr d.length]
        ∧ SameRegs s t [Reg.THC_ESTAT 0] ∧ Untouched s t [.regs, .hst, .thc, .out])
  ∧ (∀ (s : State) (e : Fin 2), s.thcPaused e = true ∨ (s.engine e).work = .idle → exec (.thcOperationEnd e) s = .next s)
  ∧ (∀ (s : State) (e : Fin 2) (c idx n : Nat) (img data : List Byte), s.thcPaused e = false → s.thcThrottled = false →
      s.engine e = ⟨.host c idx (some img) (some data), n + 2⟩ →
      ∃ t, exec (.thcOperationEnd e) s = .next t ∧ t.engine e = ⟨.host c idx (some img) (some data), n + 1⟩
        ∧ SameRegs s t [Reg.THC_ESTAT e] ∧ Untouched s t [.regs, .thc])
  ∧ (∀ (s : State) (e : Fin 2) (c idx : Nat) (d : Desc) (img data : List Byte), c < 256 → s.thcPaused e = false → s.thcThrottled = false →
      s.engine e = ⟨.host c idx (some img) (some data), 1⟩ → s.desc? c idx = some d →
      ∃ t, exec (.thcOperationEnd e) s = .next t ∧ t = s.jobEnd e c idx img data ∧ t.engine e = Engine.init
        ∧ (t.reg (Reg.THC_CNT_JOBS e)).toNat = min ((s.reg (Reg.THC_CNT_JOBS e)).toNat + 1) 0xFFFFFFFF)
  ∧ (∀ (s : State) (e : Fin 2), s.thcThrottled = true → s.getF Reg.THM_PAUSE0 F.THM_PAUSE0_P1 = 0 →
      exec (.throttlePauseEnd e) s = .next s)
  ∧ (∀ (s : State) (e : Fin 2), s.thcThrottled = false ∨ s.getF Reg.THM_PAUSE0 F.THM_PAUSE0_P1 ≠ 0 →
      ∃ t, exec (.throttlePauseEnd e) s = .next t ∧ t.thcPaused e = false ∧ SameRegs s t [Reg.THC_ESTAT e] ∧ Untouched s t [.regs])
  ∧ (∀ (s : State) (v : Word), Reaches s Reg.THC_CFG → s.part = .bc → v.toNat % 4 ≠ 0 →
      exec (.thcCfgWrite v) s = .next (s.event Ev.GBL_REJECT_WRITE []))
  ∧ (∀ (s : State) (v : Word), Reaches s Reg.THC_CFG → s.part = .ba ∨ v.toNat % 4 = 0 →
      ∃ t, exec (.thcCfgWrite v) s = .next t ∧ t.reg Reg.THC_CFG = v &&& 3 ∧ SameRegs s t [Reg.THC_CFG] ∧ Untouched s t [.regs])
  ∧ (∀ (s : State) (e : Fin 2) (v : Word), Reaches s (Reg.THC_BIST e) → s.getF (Reg.THC_ESTAT e) F.THC_ESTAT_STATE ≠ 1 → exec (.thcBistGo e v) s = .next (s.event Ev.THC_BIST_REFUSED [(8, e.val)]))
  ∧ (∀ (s : State) (e : Fin 2) (v : Word), Reaches s (Reg.THC_BIST e) → s.getF (Reg.THC_ESTAT e) F.THC_ESTAT_STATE = 1 →
      s.isOn (21 + e) = true →
      ∃ t, exec (.thcBistGo e v) s = .next t ∧ t.flag (Reg.THC_BIST e) F.THC_BIST_GO = true
        ∧ t.flag (Reg.THC_BIST e) F.THC_BIST_DONE = false ∧ t.getF (Reg.THC_ESTAT e) F.THC_ESTAT_STATE = 5
        ∧ SameRegs s t [Reg.THC_BIST e, Reg.THC_ESTAT e] ∧ Untouched s t [.regs, .thc])
  ∧ (∀ (s : State) (v : Word), Reaches s Reg.SWG_BIST → s.flag Reg.SWG_BIST F.SWG_BIST_GO = false → s.anyCoded = true →
      exec (.swgBistGo v) s = .next (s.event Ev.SWG_BIST_REFUSED []))
  ∧ (∀ (s : State) (v : Word), Reaches s Reg.SWG_BIST → s.flag Reg.SWG_BIST F.SWG_BIST_GO = false → s.anyCoded = false →
      ∃ t, exec (.swgBistGo v) s = .next t ∧ t.flag Reg.SWG_BIST F.SWG_BIST_GO = true ∧ t.flag Reg.SWG_BIST F.SWG_BIST_DONE = false
        ∧ SameRegs s t [Reg.SWG_BIST] ∧ Untouched s t [.regs])
  ∧ (∀ (s : State) (ok : Bool), s.flag Reg.SWG_BIST F.SWG_BIST_GO = false → exec (.bistEnd 0 ok) s = .next s)
  ∧ (∀ (s : State) (ok : Bool), s.flag Reg.SWG_BIST F.SWG_BIST_GO = true →
      ∃ t, exec (.bistEnd 0 ok) s = .next t ∧ t.flag Reg.SWG_BIST F.SWG_BIST_GO = false ∧ t.flag Reg.SWG_BIST F.SWG_BIST_DONE = true
        ∧ t.flag Reg.SWG_BIST F.SWG_BIST_FAIL = (!ok) ∧ t.isReady 12 = (s.isReady 12 && ok)
        ∧ SameRegs s t ([Reg.SWG_BIST, Reg.GBL_READY] ++ eventRegs))
  ∧ (∀ (s : State) (e : Fin 2) (u : Fin 3) (ok : Bool), u.val = 1 + e → s.flag (Reg.THC_BIST e) F.THC_BIST_GO = true →
      ∃ t, exec (.bistEnd u ok) s = .next t ∧ t.flag (Reg.THC_BIST e) F.THC_BIST_GO = false
        ∧ t.flag (Reg.THC_BIST e) F.THC_BIST_DONE = true ∧ t.flag (Reg.THC_BIST e) F.THC_BIST_FAIL = (!ok)
        ∧ t.isReady (13 + e) = (s.isReady (13 + e) && ok) ∧ (t.engine e).work = .idle
        ∧ SameRegs s t ([Reg.THC_BIST e, Reg.THC_ESTAT e, Reg.GBL_READY] ++ eventRegs))

/-! ## Memories -/

/-- R217, R293, R297, R460, R467: the frame store's recalibration and patrol, the banks' scrubbing and retention, the end of a gain
layer's rebuild, and the CRCs of the panel layer. What goes beyond the rules' words is the model's own (log entries 17, 68 and 136). -/
def Obligations.Memories : Prop :=
  (∀ (s : State) (a b : Bool), s.isReady 6 = false → exec (.fstRecal a b) s = .next s)
  ∧ (∀ s : State, s.isReady 6 = true → ∃ t, exec (.fstRecal true true) s = .next t ∧ t.fst.recal = [0, 0] ∧ t.isReady 6 = true
      ∧ SameRegs s t [] ∧ Untouched s t [.fst])
  ∧ (∀ (s : State) (b : Bool), s.isReady 6 = true → 2 ≤ s.fst.recal.getD 0 0 →
      ∃ t, exec (.fstRecal false b) s = .next t ∧ t.isReady 6 = false ∧ t.isReady 17 = false ∧ t.isReady 9 = false
        ∧ t.flag Reg.FST_STAT F.FST_STAT_TRAINED = false ∧ (s.seq = 2 → t.seq = 3)
        ∧ SameRegs s t ([Reg.FST_STAT, Reg.GBL_READY, Reg.SCN_PSTAT, Reg.PWR_STATE] ++ eventRegs))
  ∧ (∀ (s : State) (e : ReadError), 32 * e.unit < 0x30000000 → e.correctable = true →
      ∃ t, exec (.fstPatrolScrub [e]) s = .next t
        ∧ (t.reg Reg.FST_CNT_CE).toNat = min ((s.reg Reg.FST_CNT_CE).toNat + 1) 0xFFFFFFFF
        ∧ SameRegs s t (Reg.FST_CNT_CE :: eventRegs) ∧ Untouched s t [.regs, .evt])
  ∧ (∀ (s : State) (e : ReadError), 0x33000000 ≤ 32 * e.unit → 32 * e.unit < 0x36000000 → e.correctable = false →
      ∃ t, exec (.fstPatrolScrub [e]) s = .next t ∧ e.unit ∈ t.fst.ue ∧ t.fst.mem = s.fst.mem
        ∧ (t.reg Reg.FST_CNT_UE).toNat = min ((s.reg Reg.FST_CNT_UE).toNat + 1) 0xFFFFFFFF
        ∧ SameRegs s t ([Reg.FST_CNT_UE, Reg.FST_ERR_ADDR] ++ eventRegs) ∧ Untouched s t [.regs, .fst, .evt])
  ∧ (∀ (s : State) (e : ReadError), (0x30000000 ≤ 32 * e.unit ∧ 32 * e.unit < 0x33000000) ∨ 0x36000000 ≤ 32 * e.unit →
      exec (.fstPatrolScrub [e]) s = .next s)
  ∧ (∀ (s : State) (es : List ReadError), s.flag Reg.BNK_SCRUB F.BNK_SCRUB_EN = false ∨ s.isReady 5 = false →
      exec (.bnkScrub es) s = .next s)
  ∧ (∀ (s : State) (e : ReadError), s.flag Reg.BNK_SCRUB F.BNK_SCRUB_EN = true → s.isReady 5 = true →
      s.getF Reg.THM_STAT F.THM_STAT_STEP < 2 → s.bnk.bad = [] → e.unit < 128 * 65536 → s.bankState (e.unit / 65536) = 2 →
      e.correctable = true →
      ∃ t, exec (.bnkScrub [e]) s = .next t
        ∧ (t.reg Reg.BNK_CNT_CE).toNat = min ((s.reg Reg.BNK_CNT_CE).toNat + 1) 0xFFFFFFFF ∧ t.bnk.bad = []
        ∧ SameRegs s t (Reg.BNK_CNT_CE :: eventRegs) ∧ Untouched s t [.regs, .evt, .bnk])
  ∧ (∀ (s : State) (e : ReadError), s.flag Reg.BNK_SCRUB F.BNK_SCRUB_EN = true → s.isReady 5 = true →
      s.getF Reg.THM_STAT F.THM_STAT_STEP < 2 → s.bnk.bad = [] → e.unit < 128 * 65536 → s.bankState (e.unit / 65536) = 2 →
      e.correctable = false →
      ∃ t, exec (.bnkScrub [e]) s = .next t
        ∧ (t.reg Reg.BNK_CNT_UE).toNat = min ((s.reg Reg.BNK_CNT_UE).toNat + 1) 0xFFFFFFFF ∧ t.bnk.bad = [e.unit]
        ∧ t.getF Reg.BNK_UE_ADDR F.BNK_UE_ADDR_BANK = e.unit / 65536 ∧ t.getF Reg.BNK_UE_ADDR F.BNK_UE_ADDR_WORD = e.unit % 65536
        ∧ SameRegs s t ([Reg.BNK_CNT_UE, Reg.BNK_UE_ADDR] ++ eventRegs) ∧ Untouched s t [.regs, .evt, .bnk])
  ∧ (∀ s : State, s.getF Reg.PWR_STATE F.PWR_STATE_CUR = 2 → s.flag Reg.BNK_CFG F.BNK_CFG_STBY_RET = true →
      ∃ t, exec .bnkRetention s = .next t
        ∧ (∀ b, b < 110 → t.bankState b = if s.bankState b = 2 then 1 else s.bankState b)
        ∧ (∀ b, 110 ≤ b → b < 128 → t.bankState b = s.bankState b)
        ∧ SameRegs s t ((List.range 7).map Reg.BNK_PSTAT) ∧ Untouched s t [.regs])
  ∧ (∀ s : State, s.getF Reg.PWR_STATE F.PWR_STATE_CUR ≠ 2 ∨ s.flag Reg.BNK_CFG F.BNK_CFG_STBY_RET = false →
      exec .bnkRetention s = .next s)
  ∧ (∀ (s : State) (c : Fin 256), s.rebuilding c = none → exec (.tableRebuildEnd c) s = .next s)
  ∧ (∀ (s : State) (c : Fin 256) (d : Desc), s.rebuilding c = some d → s.loadLives c d = true →
      exec (.tableRebuildEnd c) s = .next ((s.rebuild d.target d.toff d.length).finish c d.idx (Cpl.of 0 d.length d.length)))
  ∧ (∀ s : State, s.getF Reg.DMU_STAT F.DMU_STAT_CRC_BUSY = 0 → exec .dmuCrcEnd s = .next s)
  ∧ (∀ s : State, s.getF Reg.DMU_STAT F.DMU_STAT_CRC_BUSY ≠ 0 →
      ∃ t, exec .dmuCrcEnd s = .next t ∧ t.getF Reg.DMU_STAT F.DMU_STAT_CRC_BUSY = 0
        ∧ t.reg (Reg.DMU_CRC 0) = word (crc32c (s.tableBytes tPGAIN 0 (s.tableCap tPGAIN false) true))
        ∧ SameRegs s t (Reg.DMU_STAT :: (List.range 6).map Reg.DMU_CRC) ∧ Untouched s t [.regs])

/-! ## Temperatures and the throttle -/

/-- The state in which θ is computed: one more millisecond has passed since the host's value was written (R483). -/
def OdtAged (s : State) : State := s.onThm (fun h => { h with hostAge := min (h.hostAge + 1) 256 })

/-- R473 to R475, R481 to R484, R488, R495: a sweep converts every die sensor that has not failed and fails those whose count lies outside
the fused range; a read of the stack sensors; the end of the fast sweeps; a step of the throttle; the overdrive temperature; the
correction of the ADC reference. What goes beyond the rules' words is the model's own (log entries 17, 108, 109 and 136). -/
def Obligations.Thermal : Prop :=
  (∀ (s : State) (reads : List SensorRead), s.thmRuns = false → exec (.thmSweep reads) s = .next s)
  ∧ (∀ (s : State) (reads : List SensorRead), s.thmRuns = true → reads.length = 28 →
      (∀ n, n < 28 → (reads.getD n ⟨true, 0⟩).inRange = true → s.dieTemp n (reads.getD n ⟨true, 0⟩).count.toNat < 2048) →
      ∃ t, exec (.thmSweep reads) s = .next t
        ∧ (∀ n, n < 28 → s.sensState n ≠ 3 → (reads.getD n ⟨true, 0⟩).inRange = true →
            t.sensorTemp n = s.dieTemp n (reads.getD n ⟨true, 0⟩).count.toNat)
        ∧ (∀ n, n < 28 → s.sensState n = 3 ∨ (reads.getD n ⟨true, 0⟩).inRange = false → t.sensState n = 3)
        ∧ (∀ n, n < 4 → t.reg (Reg.THM_SENS (28 + n)) = s.reg (Reg.THM_SENS (28 + n))))
  ∧ (∀ (s : State) (reads : List StackRead), s.thmRuns = false → exec (.stackSensorRead reads) s = .next s)
  ∧ (∀ (s : State) (reads : List StackRead), s.thmRuns = true → reads.length = 4 →
      (∀ i, i < 4 → satS 16 (16 * toSigned 8 (reads.getD i ⟨true, 0⟩).degrees.toNat + s.userTrim (28 + i)) < 2048) →
      ∃ t, exec (.stackSensorRead reads) s = .next t
        ∧ (∀ i, i < 4 → (reads.getD i ⟨true, 0⟩).readable = true → s.isOn (23 + i / 2) = true → t.valid (28 + i) = true
            ∧ t.sensorTemp (28 + i) = satS 16 (16 * toSigned 8 (reads.getD i ⟨true, 0⟩).degrees.toNat + s.userTrim (28 + i)))
        ∧ (∀ i, i < 4 → (reads.getD i ⟨true, 0⟩).readable = false ∨ s.isOn (23 + i / 2) = false → t.sensState (28 + i) = 2)
        ∧ (∀ n, n < 28 → t.reg (Reg.THM_SENS n) = s.reg (Reg.THM_SENS n)))
  ∧ (∀ (s : State) (n : Nat), s.hottestOf (s.validOf dieSensors) = some n →
      16 * ((s.getF Reg.THM_LIMIT F.THM_LIMIT_WARN : Int) - 9) ≤ s.sensorTemp n → exec .sweepRateRestore s = .next s)
  ∧ (∀ (s : State) (n : Nat), s.hottestOf (s.validOf dieSensors) = some n →
      s.sensorTemp n < 16 * ((s.getF Reg.THM_LIMIT F.THM_LIMIT_WARN : Int) - 9) →
      ∃ t, exec .sweepRateRestore s = .next t ∧ t.fast = false ∧ SameRegs s t [Reg.THM_STAT] ∧ Untouched s t [.regs])
  ∧ (∀ s : State, s.throttleCond = true → s.throttle ≠ 0 → s.throttle < s.getF Reg.THM_STEP F.THM_STEP_MAX →
      (∀ e ∈ s.tabs, e.2.waiters = []) →
      ∃ t, exec .throttleStepTimer s = .next t ∧ t.throttle = s.throttle + 1
        ∧ (t.reg Reg.THM_CNT_STEP).toNat = min ((s.reg Reg.THM_CNT_STEP).toNat + 1) 0xFFFFFFFF
        ∧ SameRegs s t ([Reg.THM_STAT, Reg.THM_CNT_STEP] ++ eventRegs) ∧ Untouched s t [.regs, .evt])
  ∧ (∀ s : State, s.throttleCond = true → s.throttle = 0 ∨ s.getF Reg.THM_STEP F.THM_STEP_MAX ≤ s.throttle →
      exec .throttleStepTimer s = .next s.retryWaiters)
  ∧ (∀ s : State, s.throttleCond = false → s.releaseCond = true → s.throttle ≠ 0 →
      (∀ e ∈ s.tabs, e.2.waiters = []) →
      ∃ t, exec .throttleStepTimer s = .next t ∧ t.throttle = s.throttle - 1
        ∧ (s.throttle = 1 → t.thcPaused 0 = false ∧ t.thcPaused 1 = false)
        ∧ SameRegs s t ([Reg.THM_STAT, Reg.THM_CNT_STEP, Reg.THC_ESTAT 0, Reg.THC_ESTAT 1] ++ eventRegs) ∧ Untouched s t [.regs, .evt])
  ∧ (∀ s : State, s.throttleCond = false → s.releaseCond = false ∨ s.throttle = 0 → exec .throttleStepTimer s = .next s.retryWaiters)
  ∧ (∀ s : State, (∀ e ∈ s.tabs, e.2.waiters = []) → s.retryWaiters = s)
  ∧ (∀ s : State, s.thmRuns = false → exec .odtCompute s = .next s)
  ∧ (∀ s : State, s.thmRuns = true → (OdtAged s).odtSource = none →
      ∃ t, exec .odtCompute s = .next t ∧ t.flag Reg.THM_ODT_STAT F.THM_ODT_STAT_VALID = false
        ∧ t.getF Reg.THM_ODT_STAT F.THM_ODT_STAT_THETA = s.getF Reg.THM_ODT_STAT F.THM_ODT_STAT_THETA
        ∧ SameRegs s t [Reg.THM_ODT_STAT] ∧ Untouched s t [.regs, .thm, .drv])
  ∧ (∀ (s : State) (v : Int), s.thmRuns = true → (OdtAged s).odtSource = some v →
      ∃ t, exec .odtCompute s = .next t ∧ t.flag Reg.THM_ODT_STAT F.THM_ODT_STAT_VALID = true
        ∧ toSigned 16 (t.getF Reg.THM_ODT_STAT F.THM_ODT_STAT_THETA) = satS 16 (v + toSigned 16 (s.getF Reg.THM_ODT F.THM_ODT_OFFSET))
        ∧ SameRegs s t [Reg.THM_ODT_STAT] ∧ Untouched s t [.regs, .thm, .drv])
  ∧ (∀ (s : State) (v : Word), Reaches s Reg.THM_ODT_HOST → ∃ t, exec (.thmOdtHostWrite v) s = .next t
      ∧ t.getF Reg.THM_ODT_HOST F.THM_ODT_HOST_T = v.toNat % 65536 ∧ t.thm = { s.thm with hostWritten := true, hostAge := 0 }
      ∧ SameRegs s t [Reg.THM_ODT_HOST] ∧ Untouched s t [.regs, .thm])
  ∧ (∀ s : State, s.thmRuns = false → exec .adcRefCorrect s = .next s)
  ∧ (∀ (s : State) (c : Int), s.thmRuns = true →
      c = rneDiv (toSigned 16 (s.reg Reg.CAL_FADC_TC).toNat * (s.sensorTemp 13 - 400)) 16 →
      ∃ t, exec .adcRefCorrect s = .next t ∧ t.thm = { s.thm with adcC := c }
        ∧ toSigned 16 (t.getF Reg.CAL_EADC F.CAL_EADC_GAIN)
          = satS 16 (toSigned 16 (s.reg Reg.CAL_FADC_GAIN).toNat + toSigned 16 (s.getF Reg.CAL_UADC F.CAL_UADC_GAIN) + c)
        ∧ SameRegs s t [Reg.CAL_EADC] ∧ Untouched s t [.regs, .thm])

/-! ## Calibration -/

/-- The step `r` that runs ends with `m`: `u` is the state before its completion is written, with the outcome `code` in CAL_RSTAT (R499). -/
def CalDone (s : State) (r : CalRun) (m : CalMeas) (code : Nat) (u : State) : Prop :=
  exec (.calStepEnd m) s = .next (u.finish r.client r.idx (Cpl.of 0))
  ∧ u.cal.run = none ∧ u.cal.queue = s.cal.queue
  ∧ u.getF Reg.CAL_RSTAT F.CAL_RSTAT_CODE = code ∧ u.getF Reg.CAL_RSTAT F.CAL_RSTAT_STEP = r.step % 256
  ∧ u.getF Reg.CAL_RSTAT F.CAL_RSTAT_CLIENT = r.client % 256 ∧ u.getF Reg.CAL_RSTAT F.CAL_RSTAT_BUSY = 0

/-- R497 to R503: a CAL_STEP starts its step or waits for the unit; the next step that waits starts; and how a step ends: the reference
absent or wrong, a spread too wide, a driver that cannot be read, a meter that refuses, and what each step measures. What goes beyond the
rules' words is the model's own (log entry 111). -/
def Obligations.Calibration : Prop :=
  (∀ (s : State) (c : Fin 256) (d : Desc) (i : Instr) (p : Desc → Bool), s.startable c p = some d →
      (i, p) ∈ ([(.calStepAdc c, isCal 1), (.calStepTimebase c, isCal 2), (.calStepDacRef c, isCal 3),
        (.tmkCalAdc c, fun d => isCal 4 d && d.arg 1 == 0), (.tmkCalCrystal c, fun d => isCal 4 d && d.arg 1 == 1)] : List (Instr × (Desc → Bool))) →
      s.cal.run.isSome = true ∨ s.cal.queue ≠ [] →
      ∃ t, exec i s = .next t ∧ t.cal = { s.cal with queue := s.calOrder (s.cal.queue ++ [⟨c, d.idx, d.arg 0, d.arg 1, [], 0, []⟩]) }
        ∧ SameRegs s t [] ∧ Untouched s t [.hst, .cal])
  ∧ (∀ (s : State) (c : Fin 256) (d : Desc), s.startable c (isCal 1) = some d → s.cal.run = none → s.cal.queue = [] →
      ∃ t, exec (.calStepAdc c) s = .next t ∧ t.cal.run = some ⟨c, d.idx, 1, d.arg 1, [], 0, []⟩
        ∧ t.flag Reg.CAL_RSTAT F.CAL_RSTAT_BUSY = true ∧ t.out = s.out ++ [.pin "CALREF_LOOP" true]
        ∧ SameRegs s t [Reg.CAL_RSTAT] ∧ Untouched s t [.regs, .hst, .cal, .out])
  ∧ (∀ (s : State) (c : Fin 256) (d : Desc), s.startable c (isCal 2) = some d → s.cal.run = none → s.cal.queue = [] →
      ∃ t, exec (.calStepTimebase c) s = .next t ∧ t.cal.run = some ⟨c, d.idx, 2, d.arg 1, [], 0, []⟩
        ∧ t.flag Reg.CAL_RSTAT F.CAL_RSTAT_BUSY = true ∧ SameRegs s t [Reg.CAL_RSTAT] ∧ Untouched s t [.regs, .hst, .cal])
  ∧ (∀ (s : State) (c : Fin 256) (d : Desc), s.startable c (isCal 3) = some d → s.cal.run = none → s.cal.queue = [] → d.arg 1 < 24 →
      s.seq ≠ 2 ∨ s.drvUp (d.arg 1) = false →
      ∃ t, exec (.calStepDacRef c) s = .next t ∧ t.cal.run = some ⟨c, d.idx, 3, d.arg 1, [], 4, []⟩
        ∧ t.flag Reg.CAL_RSTAT F.CAL_RSTAT_BUSY = true ∧ t.out = s.out ++ [.pin "CALREF_LOOP" true]
        ∧ SameRegs s t [Reg.CAL_RSTAT] ∧ Untouched s t [.regs, .hst, .cal, .out])
  ∧ (∀ (s : State) (c : Fin 256) (d : Desc), s.startable c (isCal 3) = some d → s.cal.run = none → s.cal.queue = [] → d.arg 1 < 24 →
      s.seq = 2 → s.drvUp (d.arg 1) = true → (s.driver (d.arg 1)).cmd = none → (s.driver (d.arg 1)).queue = [] →
      ∃ t, exec (.calStepDacRef c) s = .next t ∧ t.cal.run = some ⟨c, d.idx, 3, d.arg 1, [d.arg 1], 0, []⟩
        ∧ ((t.driver (d.arg 1)).cmd.any (fun k => !k.write && k.addr == 0x04 && k.use == .cal)) = true
        ∧ SameRegs s t [Reg.CAL_RSTAT] ∧ Untouched s t [.regs, .hst, .cal, .drv, .out])
  ∧ (∀ (s : State) (c : Fin 256) (d : Desc), s.startable c (fun d => isCal 4 d && d.arg 1 == 0) = some d → s.cal.run = none →
      s.cal.queue = [] →
      ∃ t, exec (.tmkCalAdc c) s = .next t ∧ t.cal.run = some ⟨c, d.idx, 4, 0, [], 0, []⟩
        ∧ t.out = s.out ++ [.pin "CALREF_LOOP" true] ∧ SameRegs s t [Reg.CAL_RSTAT] ∧ Untouched s t [.regs, .hst, .cal, .out])
  ∧ (∀ (s : State) (c : Fin 256) (d : Desc), s.startable c (fun d => isCal 4 d && d.arg 1 == 1) = some d → s.cal.run = none →
      s.cal.queue = [] →
      ∃ t, exec (.tmkCalCrystal c) s = .next t ∧ t.cal.run = some ⟨c, d.idx, 4, 1, [], 0, []⟩
        ∧ SameRegs s t [Reg.CAL_RSTAT] ∧ Untouched s t [.regs, .hst, .cal])
  ∧ (∀ s : State, s.cal.run.isSome = true ∨ s.cal.queue = [] → exec .calStepStart s = .next s)
  ∧ (∀ (s : State) (r : CalRun) (l : List CalRun), s.cal.run = none → s.cal.queue = r :: l → r.step ≠ 3 →
      ∃ t, exec .calStepStart s = .next t ∧ t.cal = { s.cal with run := some r, queue := l }
        ∧ t.flag Reg.CAL_RSTAT F.CAL_RSTAT_BUSY = true
        ∧ t.out = s.out ++ (if usesCalref r then [.pin "CALREF_LOOP" true] else [])
        ∧ SameRegs s t [Reg.CAL_RSTAT] ∧ Untouched s t [.regs, .cal, .out])
  ∧ (∀ (s : State) (m : CalMeas), s.cal.run = none → exec (.calStepEnd m) s = .next s)
  ∧ (∀ (s : State) (r : CalRun) (m : CalMeas), s.cal.run = some r → r.step = 1 ∨ r.step = 3 → s.cal.deferred = false →
      m.refMv.toNat < 100 ∨ 5000 < m.refMv.toNat →
      ∃ u, CalDone s r m 1 u ∧ u.out = s.out ++ [.pin "CALREF_LOOP" false]
        ∧ SameRegs s u (Reg.CAL_RSTAT :: eventRegs) ∧ Untouched s u [.regs, .cal, .evt, .out])
  ∧ (∀ (s : State) (r : CalRun) (m : CalMeas) (z v e : Int), s.cal.run = some r → r.step = 1 → s.cal.deferred = false →
      refAbsent m = false →
      z = s.adcVolts m.zero → v = s.adcVolts m.ref → e = rneDiv (100 * (s.getF Reg.CAL_FRREF ⟨23, 0⟩ : Int)) 1000 →
      v - z ≤ 0 ∨ 100 * (v - z) < 98 * e ∨ 102 * e < 100 * (v - z) →
      ∃ u, CalDone s r m 2 u ∧ SameRegs s u (Reg.CAL_RSTAT :: eventRegs) ∧ Untouched s u [.regs, .cal, .evt, .out])
  ∧ (∀ (s : State) (r : CalRun) (m : CalMeas) (z v e : Int), s.cal.run = some r → r.step = 1 → s.cal.deferred = false →
      refAbsent m = false →
      z = s.adcVolts m.zero → v = s.adcVolts m.ref → e = rneDiv (100 * (s.getF Reg.CAL_FRREF ⟨23, 0⟩ : Int)) 1000 →
      0 < v - z → 98 * e ≤ 100 * (v - z) → 100 * (v - z) ≤ 102 * e → m.spreadUv.toNat ≤ 200 → s.valid 13 = true →
      ∃ u, CalDone s r m 0 u
        ∧ toSigned 16 (u.getF Reg.CAL_RADC F.CAL_RADC_GAIN)
          = satS 16 (rneDiv ((2 ^ 20 + toSigned 16 (s.reg Reg.CAL_FADC_GAIN).toNat + toSigned 16 (s.getF Reg.CAL_UADC F.CAL_UADC_GAIN)) * e) (v - z).toNat
              - 2 ^ 20 - toSigned 16 (s.reg Reg.CAL_FADC_GAIN).toNat)
        ∧ toSigned 16 (u.getF Reg.CAL_RADC F.CAL_RADC_OFF) = satS 16 (toSigned 16 (s.getF Reg.CAL_UADC F.CAL_UADC_OFF) - z)
        ∧ SameRegs s u [Reg.CAL_RSTAT, Reg.CAL_RADC] ∧ Untouched s u [.regs, .cal, .out])
  ∧ (∀ (s : State) (r : CalRun) (m : CalMeas), s.cal.run = some r → r.step = 2 → 1000 < m.spreadPpb.toNat →
      ∃ u, CalDone s r m 3 u ∧ SameRegs s u (Reg.CAL_RSTAT :: eventRegs) ∧ Untouched s u [.regs, .cal, .evt])
  ∧ (∀ (s : State) (r : CalRun) (m : CalMeas) (f : Nat), s.cal.run = some r → r.step = 2 → m.spreadPpb.toNat ≤ 1000 → s.valid 21 = true →
      ((r.arg * 1200000000 : Int) - m.count).natAbs * 1000000 ≤ 200 * m.count → f = (s.xtalFactor * m.count).toNat →
      ∃ u, CalDone s r m 0 u
        ∧ toSigned 32 (u.reg Reg.CAL_RTB).toNat
          = satS 32 (rneDiv (1000000000 * ((r.arg * 1200000000 : Int) * 256000000000 - f)) f)
        ∧ toSigned 16 (u.getF Reg.CAL_RTB_T F.CAL_RTB_T_V) = s.sensorTemp 21
        ∧ u.reg Reg.GEN_AONK = word ((rneDiv (2 * (f : Int)) (r.arg * 256000000000)).toNat % 2 ^ 32) ∧ u.gen.aonkMeasured = true
        ∧ SameRegs s u [Reg.CAL_RSTAT, Reg.CAL_RTB, Reg.CAL_RTB_T, Reg.GEN_AONK] ∧ Untouched s u [.regs, .cal, .gen])
  ∧ (∀ (s : State) (r : CalRun) (m : CalMeas) (g : Nat) (w : Word), s.cal.run = some r → r.step = 3 → r.arg = g → g < 24 →
      r.found = [(g, w)] →
      s.cal.deferred = false → refAbsent m = false → (toSigned 16 (w.toNat / 65536)).natAbs ≤ 2000 →
      ∃ u, CalDone s r m 0 u ∧ u.getF (Reg.CAL_RDAC g) F.CAL_RDAC_MEAS = w.toNat / 65536
        ∧ toSigned 10 (u.getF (Reg.CAL_RDAC g) F.CAL_RDAC_PROPOSE)
          = satS 10 (toSigned 10 (s.getF (Reg.CAL_UDAC g) F.CAL_UDAC_TRIM) - rneDiv (toSigned 16 (w.toNat / 65536)) 10)
        ∧ SameRegs s u [Reg.CAL_RSTAT, Reg.CAL_RDAC g] ∧ Untouched s u [.regs, .cal, .out])
  ∧ (∀ (s : State) (r : CalRun) (m : CalMeas) (g : Nat), s.cal.run = some r → r.step = 3 → r.arg = g → g < 24 → r.found = [] →
      s.cal.deferred = false → refAbsent m = false →
      ∃ u, CalDone s r m 4 u ∧ SameRegs s u (Reg.CAL_RSTAT :: eventRegs) ∧ Untouched s u [.regs, .cal, .evt, .out])
  ∧ (∀ (s : State) (r : CalRun) (m : CalMeas), s.cal.run = some r → r.step = 4 → r.arg = 1 →
      m.meterOk = false ∨ s.tmk.powered = false ∨ s.flag Reg.TMK_STAT F.TMK_STAT_LINK = false →
      ∃ u, CalDone s r m 7 u ∧ SameRegs s u (Reg.CAL_RSTAT :: eventRegs) ∧ Untouched s u [.regs, .cal, .evt])
  ∧ (∀ (s : State) (r : CalRun) (m : CalMeas), s.cal.run = some r → r.step = 4 → r.arg = 0 → s.cal.deferred = false →
      m.meterOk = false ∨ s.tmk.powered = false ∨ s.flag Reg.TMK_STAT F.TMK_STAT_LINK = false →
      ∃ u, CalDone s r m 7 u ∧ u.out = s.out ++ [.pin "CALREF_LOOP" false]
        ∧ SameRegs s u (Reg.CAL_RSTAT :: eventRegs) ∧ Untouched s u [.regs, .cal, .evt, .out])
  ∧ (∀ (s : State) (r : CalRun) (m : CalMeas), s.cal.run = some r → r.step = 4 → r.arg = 0 → s.cal.deferred = false →
      m.meterOk = true → s.tmk.powered = true → s.flag Reg.TMK_STAT F.TMK_STAT_LINK = true →
      ∃ u, CalDone s r m 0 u ∧ u.tmk = { s.tmk with gref := some (m.proposal, s.tmk.mt) }
        ∧ u.out = s.out ++ [.pin "CALREF_LOOP" false]
        ∧ SameRegs s u [Reg.CAL_RSTAT] ∧ Untouched s u [.regs, .cal, .tmk, .out])
  ∧ (∀ (s : State) (r : CalRun) (m : CalMeas), s.cal.run = some r → r.step = 4 → r.arg = 1 →
      m.meterOk = true → s.tmk.powered = true → s.flag Reg.TMK_STAT F.TMK_STAT_LINK = true →
      ∃ u, CalDone s r m 0 u ∧ u.tmk = { s.tmk with xtal := some (m.proposal, s.tmk.mt) }
        ∧ SameRegs s u [Reg.CAL_RSTAT] ∧ Untouched s u [.regs, .cal, .tmk])

/-! ## Touchmark -/

/-- R568 to R572: a relayed request is read from host memory; a response goes back to it and shows the seal; a link that fails completes
what it holds; the link's return; the transfers of the meter's own port; a request that is no command; the dose counters. What goes beyond
the rules' words is the model's own (log entry 117). -/
def Obligations.TouchmarkRelay : Prop :=
  (∀ (s : State) (c : Fin 256) (d : Desc), s.startable c (isOp 0x24) = some d → s.hst.linkUp = true →
      ∃ t, exec (.tmkRelay c) s = .next t ∧ t.out = s.out ++ [.hostRead s.hst.nextRid d.haddr d.length]
        ∧ t.hst.reads = s.hst.reads ++ [⟨s.hst.nextRid, d.haddr, d.length, .data c d.idx⟩] ∧ SameRegs s t [] ∧ Untouched s t [.hst, .out])
  ∧ (∀ s : State, s.tmk.relays = [] ∨ s.tmk.relayResp = none → exec .tmkResponse s = .next s)
  ∧ (∀ (s : State) (c idx : Nat) (d : Desc) (req f : List Byte) (l : List (Nat × Nat × List Byte)),
      s.tmk.relays = (c, idx, req) :: l → s.tmk.relayResp = some f → s.desc? c idx = some d → leAt 0 1 req ≠ 1 ∨ leAt 0 1 f ≠ 0 →
      exec .tmkResponse s = .next ((((s.setRelays l none).writeHost d.haddr2 f (some (c, idx))).finish c idx
        (Cpl.of 0 req.length f.length)).relayNext))
  ∧ (∀ (s : State) (c idx : Nat) (d : Desc) (req f : List Byte), c < 256 →
      s.tmk.relays = [(c, idx, req)] → s.tmk.relayResp = some f → s.desc? c idx = some d → leAt 0 1 req = 1 → leAt 0 1 f = 0 →
      ∃ t, exec .tmkResponse s = .next t ∧ t.tmk = { s.tmk with relays := [], relayResp := none }
        ∧ t.getF Reg.TMK_STAT F.TMK_STAT_SEALED = leAt 16 1 f % 2 ∧ t.getF Reg.TMK_STAT F.TMK_STAT_BUSY = 0)
  ∧ (∀ s : State, s.flag Reg.TMK_STAT F.TMK_STAT_LINK = false → s.tmk.relays = [] → exec .tmkRelayTimeout s = .next s)
  ∧ (∀ (s : State) (c idx : Nat) (d : Desc) (req : List Byte), c < 256 → s.flag Reg.TMK_STAT F.TMK_STAT_LINK = false →
      s.tmk.relays = [(c, idx, req)] → s.desc? c idx = some d →
      ∃ t, exec .tmkRelayTimeout s = .next t ∧ t.flag Reg.TMK_STAT F.TMK_STAT_BUSY = false
        ∧ t.tmk = { s.tmk with relays := [], relayResp := none }
        ∧ t.hst.clients = (((s.setRelays [] none).writeHost d.haddr2 (tmkFrame 0xF0 (leAt 1 1 req) []) (some (c, idx))).finish c idx
            (Cpl.of 0 req.length 6)).hst.clients)
  ∧ (∀ s : State, s.flag Reg.TMK_STAT F.TMK_STAT_LINK = true → s.tmk.relays = [] →
      ∃ t, exec .tmkRelayTimeout s = .next t ∧ t.flag Reg.TMK_STAT F.TMK_STAT_LINK = false
        ∧ t.flag Reg.TMK_STAT F.TMK_STAT_BUSY = false ∧ t.isReady 2 = false
        ∧ SameRegs s t ([Reg.TMK_STAT, Reg.GBL_READY] ++ eventRegs) ∧ Untouched s t [.regs, .evt, .hst, .rdg, .links, .out])
  ∧ (∀ (s : State) (c idx : Nat) (d : Desc) (req : List Byte), c < 256 → s.flag Reg.TMK_STAT F.TMK_STAT_LINK = true →
      s.tmk.relays = [(c, idx, req)] → s.desc? c idx = some d →
      ∃ t, exec .tmkRelayTimeout s = .next t ∧ t.flag Reg.TMK_STAT F.TMK_STAT_LINK = false ∧ t.isReady 2 = false
        ∧ t.tmk = { s.tmk with relays := [], relayResp := none }
        ∧ t.hst.clients = (((s.setRelays [] none).writeHost d.haddr2 (tmkFrame 0xF0 (leAt 1 1 req) []) (some (c, idx))).finish c idx
            (Cpl.of 0 req.length 6)).hst.clients)
  ∧ (∀ s : State, s.flag Reg.TMK_STAT F.TMK_STAT_LINK = true ∨ s.rst.stepsDone.contains 5 = false ∨ s.pwr.dormant = true ∨ s.rst.hostReset = true →
      exec .tmkLinkReturn s = .next s)
  ∧ (∀ s : State, s.flag Reg.TMK_STAT F.TMK_STAT_LINK = false → s.rst.stepsDone.contains 5 = true → s.pwr.dormant = false →
      s.rst.hostReset = false → s.coreOff = false →
      ∃ t, exec .tmkLinkReturn s = .next t ∧ t.flag Reg.TMK_STAT F.TMK_STAT_LINK = true ∧ t.isReady 2 = true
        ∧ SameRegs s t ([Reg.TMK_STAT, Reg.GBL_READY] ++ eventRegs))
  ∧ (∀ (s : State) (r : PortRead), s.tmk.powered = false → exec (.portReadTransfer r) s = .next s)
  ∧ (∀ (s : State) (r : PortRead), s.tmk.powered = true → r.addr ≠ 0xB5 → exec (.portReadTransfer r) s = .next (s.emit (.tmkAck [false])))
  ∧ (∀ (s : State) (f : List Byte), s.tmk.powered = true → s.tmk.resp = some f →
      ∃ t, exec (.portReadTransfer ⟨0xB5, .whole⟩) s = .next t ∧ t.tmk = { s.tmk with resp := none }
        ∧ t.out = s.out ++ [.tmkAck [true], .tmkReply true f] ∧ SameRegs s t [] ∧ Untouched s t [.tmk, .out])
  ∧ (∀ (s : State) (r : PortRead) (f : List Byte), s.tmk.powered = true → s.tmk.resp = some f → r.addr = 0xB5 → r.how ≠ .whole →
      exec (.portReadTransfer r) s = .next ((s.emit (.tmkAck [true])).emit (.tmkReply true f)))
  ∧ (∀ (s : State) (seq : Byte), s.tmk.powered = true → s.tmk.resp = none →
      exec (.portReadTransfer ⟨0xB5, .early seq⟩) s
        = .next ((s.emit (.tmkAck [true])).emit (.tmkReply true (tmkFrame 0xFE seq.toNat []))))
  ∧ (∀ (s : State), s.tmk.powered = true → s.tmk.resp = none →
      exec (.portReadTransfer ⟨0xB5, .whole⟩) s
        = .next ((s.emit (.tmkAck [true])).emit (.tmkReply true (tmkFrame 0xFD s.tmk.lastSeq []))))
  ∧ (∀ s : State, exec .portWriteTimeout s = .next s)
  ∧ (∀ (s : State) (v : Word), s.hostReaches = true → s.stallDomain Reg.TMK_DOSE_CLR = none →
      ∃ t, exec (.tmkDoseClr v) s = .next t ∧ t.pipe = { s.pipe with doseClr := true }
      ∧ SameRegs s t [] ∧ Untouched s t [.pipe])
  ∧ (∀ (s : State) (f : List Byte) (n : Nat), s.tmk.powered = true → s.tmk.resp = none → badRequest f = some n →
      ∃ t, exec (.tmkBadRequest (.port 0xB4 f)) s = .next t ∧ t.out = s.out ++ [.tmkAck (portAcks f.length)]
        ∧ t.tmk = { s.tmk with resp := some (tmkFrame n (leAt 1 1 f) []), lastSeq := leAt 1 1 f } ∧ SameRegs s t []
      ∧ Untouched s t [.tmk, .out])
  ∧ (∀ (s : State) (a : Byte) (f : List Byte) (n : Nat), s.tmk.powered = true → badRequest f = some n → a ≠ 0xB4 ∨ s.tmk.resp ≠ none →
      exec (.tmkBadRequest (.port a f)) s = .next (s.emit (.tmkAck [false])))
  ∧ (∀ (s : State) (f : List Byte) (n : Nat), s.tmk.powered = true → s.relayFrame = some f → badRequest f = some n →
      ∃ t, exec (.tmkBadRequest .relay) s = .next t
        ∧ t.tmk = { s.tmk with relayResp := some (tmkFrame n (leAt 1 1 f) []) }
        ∧ t.out = s.out ++ [.tmkReply false (tmkFrame n (leAt 1 1 f) [])] ∧ SameRegs s t [] ∧ Untouched s t [.relay, .out])

/-- The meter answers request `seq` of its port with status `st` and payload `pl`; beside that its state is `m` (R567). -/
def PortAnswer (i : Instr) (s : State) (m : MeterState) (seq : Byte) (st : Nat) (pl : List Byte) : Prop :=
  ∃ t, exec i s = .next t ∧ t.tmk = { m with resp := some (tmkFrame st seq.toNat pl), lastSeq := seq.toNat }
    ∧ SameRegs s t [] ∧ Untouched s t [.tmk, .out]

/-- The requests of R568, with the command code of each; `ok` says whether storage can be written. -/
def meterRequests (ok : Bool) : List ((MeterReq → Instr) × Nat) :=
  [(.ident, 1), (.readNow, 2), (.readLog, 3), (.readParam, 4), (fun r => .writeParam r ok, 5), (fun r => .seal r ok, 6), (.setWall, 7),
    (.note, 8), (.calResult, 9)]

/-- The log takes a record at its head: the slot is the first of a sector, which is erased, or is erased itself (R564). -/
def LogReady (m : MeterState) : Prop := m.head < 4096 ∧ (m.head % 64 = 0 ∨ (logSlot m m.head).all (· == 0xFF) = true)

/-- R546 to R568: a second of measurement and the close of a period; power lost and back; and every request of the meter, at its port and
over the relay. What goes beyond the rules' words is the model's own (log entries 112, 113, 114, 115 and 116). -/
def Obligations.MeterCommands : Prop :=
  (∀ (s : State) (l : List MeterSample), s.tmk.powered = false → exec (.meterSecond l) s = .next s)
  ∧ (∀ (s : State) (l : List MeterSample) (n0 n1 : Int), s.tmk.powered = true → s.tmk.mt + 1 < s.tmk.bound →
      n0 = s.secondEnergy 0 (l.map (fun x => (x.i0, x.v0))) → n1 = s.secondEnergy 1 (l.map (fun x => (x.i1, x.v1))) →
      ∃ t, exec (.meterSecond l) s = .next t ∧ t.tmk.mt = s.tmk.mt + 1
        ∧ (t.tmk.e0, t.tmk.acc0) = moveEnergy s.tmk.e0 (s.tmk.acc0 + n0) ∧ (t.tmk.e1, t.tmk.acc1) = moveEnergy s.tmk.e1 (s.tmk.acc1 + n1)
        ∧ t.tmk.p0 = trnDiv n0 1000000 ∧ t.tmk.p1 = trnDiv n1 1000000 ∧ s.tmk.lit ≤ t.tmk.lit ∧ t.tmk.lit ≤ s.tmk.lit + 1
        ∧ t.tmk.log = s.tmk.log ∧ t.tmk.k = s.tmk.k ∧ SameRegs s t [] ∧ Untouched s t [.tmk])
  ∧ (∀ (s : State) (l : List MeterSample), s.tmk.powered = true → s.tmk.bound ≤ s.tmk.mt + 1 →
      ∃ t, exec (.meterSecond l) s = .next t ∧ t.tmk.mt = s.tmk.mt + 1 ∧ t.tmk.k = (s.tmk.k + 1) % 2 ^ 32 ∧ t.tmk.e0 = 0 ∧ t.tmk.e1 = 0
        ∧ t.tmk.lit = 0 ∧ t.tmk.bound = s.tmk.bound + leAt 0x50 4 s.tmkBlock ∧ t.tmkBlock = s.tmkBlock
        ∧ SameRegs s t [] ∧ Untouched s t [.tmk])
  ∧ (∀ (s : State) (r : PowerCut), s.tmk.powered = false → exec (.vddTmkDrop r) s = .next s)
  ∧ (∀ s : State, s.tmk.powered = true → LogReady s.tmk →
      ∃ t, exec (.vddTmkDrop .held) s = .next t ∧ t.tmk.powered = false ∧ t.tmk.resp = none ∧ t.tmk.gref = none ∧ t.tmk.xtal = none
        ∧ t.tmk.wall = none ∧ t.tmk.fuse = s.tmk.fuse
        ∧ logSlot t.tmk s.tmk.head = recBytes ⟨3, 0, leBytes 4 s.tmk.k ++ leBytes 8 s.tmk.e0 ++ leBytes 8 s.tmk.e1 ++ leBytes 4 s.tmk.lit⟩
            s.tmk.lseq s.tmk.mt
        ∧ SameRegs s t [] ∧ Untouched s t [.tmk, .relay])
  ∧ (∀ (s : State) (bs : List Byte), s.tmk.powered = true → bs.length = 64 → s.tmk.head < 4096 →
      ∃ t, exec (.vddTmkDrop (.cut bs)) s = .next t ∧ t.tmk.powered = false ∧ logSlot t.tmk s.tmk.head = bs
        ∧ SameRegs s t [] ∧ Untouched s t [.tmk, .relay])
  ∧ (∀ s : State, s.tmk.powered = true → exec .vddTmkPowerUp s = .next s)
  ∧ (∀ s : State, s.tmk.powered = false →
      ∃ t, exec .vddTmkPowerUp s = .next t ∧ t.tmk.powered = true ∧ t.tmk.active = activeSlot s.tmk.slotA s.tmk.slotB
        ∧ (t.tmk.k, t.tmk.e0, t.tmk.e1, t.tmk.lit) = ((resumePoint s.tmk).2.1, (resumePoint s.tmk).2.2.1, (resumePoint s.tmk).2.2.2.1,
            (resumePoint s.tmk).2.2.2.2.1)
        ∧ t.tmk.acc0 = 0 ∧ t.tmk.acc1 = 0 ∧ t.tmk.fuse = s.tmk.fuse ∧ SameRegs s t [] ∧ Untouched s t [.tmk])
  ∧ (∀ (s : State) (ok : Bool) (i : MeterReq → Instr) (n : Nat) (r : MeterReq), (i, n) ∈ meterRequests ok → s.tmk.powered = false →
      exec (i r) s = .next s)
  ∧ (∀ (s : State) (ok : Bool) (i : MeterReq → Instr) (n : Nat) (seq : Byte) (pl f : List Byte), (i, n) ∈ meterRequests ok →
      s.tmk.powered = true → s.tmk.resp = some f → exec (i (.port 0xB4 seq pl)) s = .next (s.emit (.tmkAck [false])))
  ∧ (∀ (s : State) (ok : Bool) (i : MeterReq → Instr) (n : Nat) (a seq : Byte) (pl : List Byte), (i, n) ∈ meterRequests ok →
      s.tmk.powered = true → a ≠ 0xB4 → exec (i (.port a seq pl)) s = .next (s.emit (.tmkAck [false])))
  ∧ (∀ (s : State) (ok : Bool) (i : MeterReq → Instr) (n : Nat) (seq : Byte) (pl : List Byte), (i, n) ∈ meterRequests ok →
      s.tmk.powered = true → s.tmk.resp = none → ∃ t, exec (i (.port 0xB4 seq pl)) s = .next t
        ∧ t.out = s.out ++ [.tmkAck (portAcks (6 + pl.length))] ∧ ∃ st q, t.tmk.resp = some (tmkFrame st seq.toNat q))
  ∧ (∀ (s : State) (ok : Bool) (i : MeterReq → Instr) (n : Nat), (i, n) ∈ meterRequests ok → s.relayFrame = none →
      exec (i .relay) s = .next s)
  ∧ (∀ (s : State) (ok : Bool) (i : MeterReq → Instr) (n : Nat) (f : List Byte), (i, n) ∈ meterRequests ok → s.tmk.powered = true →
      s.relayFrame = some f → badRequest f = none → leAt 0 1 f = n →
      exec (i .relay) s = .next ((s.tmkServe 1 n (framePayload f) ok).1.tmkAnswer 1 (leAt 1 1 f) (s.tmkServe 1 n (framePayload f) ok).2.1
        (s.tmkServe 1 n (framePayload f) ok).2.2))
  ∧ (∀ (s : State) (ok : Bool) (f : List Byte), s.tmk.powered = true → s.relayFrame = some f → badRequest f = none → leAt 0 1 f = 10 →
      exec (if framePayload f = [1] then .calApplyXtal .relay ok else .calApplyGref .relay ok) s
        = .next ((s.tmkServe 1 10 (framePayload f) ok).1.tmkAnswer 1 (leAt 1 1 f) (s.tmkServe 1 10 (framePayload f) ok).2.1
          (s.tmkServe 1 10 (framePayload f) ok).2.2))
  ∧ (∀ (s : State) (seq : Byte), s.tmk.powered = true → s.tmk.resp = none →
      PortAnswer (.ident (.port 0xB4 seq [])) s s.tmk seq 0 s.ansIdent.2.2)
  ∧ (∀ (s : State) (seq : Byte), s.tmk.powered = true → s.tmk.resp = none →
      PortAnswer (.readNow (.port 0xB4 seq [])) s s.tmk seq 0 (leBytes 8 s.tmk.mt ++ leBytes 4 s.tmk.k ++ leBytes 4 0 ++ leBytes 8 s.tmk.e0
        ++ leBytes 8 s.tmk.e1 ++ leBytes 4 s.tmk.lit ++ leBytes 4 (ofSigned 32 s.tmk.p0) ++ leBytes 4 (ofSigned 32 s.tmk.p1)
        ++ leBytes 4 s.tmk.closeFlags ++ leBytes 8 (s.tmk.estimate.getD 0) ++ leBytes 8 0))
  ∧ (∀ (s : State) (seq : Byte) (a n : Nat), s.tmk.powered = true → s.tmk.resp = none → a ≤ 4095 → 1 ≤ n → n ≤ 63 →
      PortAnswer (.readLog (.port 0xB4 seq (leBytes 2 a ++ leBytes 2 n))) s s.tmk seq 0 ((List.range n).flatMap (fun i => logSlot s.tmk (a + i))))
  ∧ (∀ (s : State) (seq : Byte) (a n : Nat), s.tmk.powered = true → s.tmk.resp = none → a < 65536 → n < 65536 → 4095 < a ∨ n = 0 ∨ 63 < n →
      PortAnswer (.readLog (.port 0xB4 seq (leBytes 2 a ++ leBytes 2 n))) s s.tmk seq 3 [])
  ∧ (∀ (s : State) (seq : Byte), s.tmk.powered = true → s.tmk.resp = none →
      PortAnswer (.readParam (.port 0xB4 seq [])) s s.tmk seq 0 s.tmkBlock)
  ∧ (∀ (s : State) (seq : Byte) (pl : List Byte) (ok : Bool), s.tmk.powered = true → s.tmk.resp = none → pl.length = 256 →
      paramOk pl = false →
      PortAnswer (.writeParam (.port 0xB4 seq pl) ok) s s.tmk seq 3 [])
  ∧ (∀ (s : State) (seq : Byte) (pl : List Byte), s.tmk.powered = true → s.tmk.resp = none → pl.length = 256 → paramOk pl = true →
      PortAnswer (.writeParam (.port 0xB4 seq pl) false) s s.tmk seq 5 [])
  ∧ (∀ (s : State) (seq : Byte) (pl : List Byte), s.tmk.powered = true → s.tmk.resp = none → pl.length = 256 → paramOk pl = true →
      s.tmkBlock.length = 256 →
      ∃ t, exec (.writeParam (.port 0xB4 seq pl) true) s = .next t ∧ t.tmk.active = (if s.tmk.active = 1 then 2 else 1)
        ∧ blockValid t.tmkBlock = true ∧ slice 0x18 48 t.tmkBlock = slice 0x18 48 pl ∧ slice 0x50 9 t.tmkBlock = slice 0x50 9 pl
        ∧ slice 0x48 8 t.tmkBlock = slice 0x48 8 s.tmkBlock ∧ leAt 8 4 t.tmkBlock = (leAt 8 4 s.tmkBlock + 1) % 2 ^ 32
        ∧ (s.tmk.fuse = false → leAt 0x0C 4 t.tmkBlock = leAt 0x0C 4 s.tmkBlock)
        ∧ (s.tmk.fuse = true → s.tmk.active ≠ 0 → leAt 0x0C 4 t.tmkBlock = (leAt 0x0C 4 s.tmkBlock + 1) % 2 ^ 32)
        ∧ t.tmk.resp = some (tmkFrame 0 seq.toNat t.genAudit) ∧ SameRegs s t [] ∧ Untouched s t [.tmk, .out])
  ∧ (∀ (s : State) (seq : Byte) (pl : List Byte) (ok : Bool), s.tmk.powered = true → s.tmk.resp = none → pl.length = 4 →
      s.tmk.fuse = true → PortAnswer (.seal (.port 0xB4 seq pl) ok) s s.tmk seq 2 [])
  ∧ (∀ (s : State) (seq : Byte) (pl : List Byte) (ok : Bool), s.tmk.powered = true → s.tmk.resp = none → pl.length = 4 →
      s.tmk.fuse = false → pl ≠ slice 0xFC 4 s.tmkBlock → PortAnswer (.seal (.port 0xB4 seq pl) ok) s s.tmk seq 3 [])
  ∧ (∀ (s : State) (seq : Byte), s.tmk.powered = true → s.tmk.resp = none → s.tmk.fuse = false → (slice 0xFC 4 s.tmkBlock).length = 4 →
      ∃ t, exec (.seal (.port 0xB4 seq (slice 0xFC 4 s.tmkBlock)) true) s = .next t ∧ t.tmk.fuse = true ∧ blockValid t.tmkBlock = true
        ∧ leAt 6 2 t.tmkBlock = 1 ∧ leAt 0x0C 4 t.tmkBlock = 0 ∧ t.tmk.resp = some (tmkFrame 0 seq.toNat t.genAudit)
        ∧ SameRegs s t [] ∧ Untouched s t [.tmk, .out])
  ∧ (∀ (s : State) (seq : Byte), s.tmk.powered = true → s.tmk.resp = none → s.tmk.fuse = false → (slice 0xFC 4 s.tmkBlock).length = 4 →
      s.tmk.active ≠ 0 →
      PortAnswer (.seal (.port 0xB4 seq (slice 0xFC 4 s.tmkBlock)) false) s { s.tmk with fuse := true } seq 5 [])
  ∧ (∀ (s : State) (seq : Byte) (w : Nat), s.tmk.powered = true → s.tmk.resp = none → w < 2 ^ 64 →
      ∃ t, exec (.setWall (.port 0xB4 seq (leBytes 8 w))) s = .next t ∧ t.tmk.wall = some ((w : Int) - s.tmk.mt) ∧ t.tmk.mt = s.tmk.mt
        ∧ (s.tmk.wall = none → t.tmk.resp = some (tmkFrame 0 seq.toNat (leBytes 8 0 ++ leBytes 8 0)))
        ∧ (s.tmk.estimate = some w → t.tmk.log = s.tmk.log) ∧ SameRegs s t [] ∧ Untouched s t [.tmk, .out])
  ∧ (∀ (s : State) (seq : Byte) (pl : List Byte), s.tmk.powered = true → s.tmk.resp = none → pl.length ≤ 40 → LogReady s.tmk →
      ∃ t, exec (.note (.port 0xB4 seq pl)) s = .next t
        ∧ logSlot t.tmk s.tmk.head = recBytes ⟨7, 0, [0, BitVec.ofNat 8 pl.length] ++ List.replicate 6 0 ++ pl⟩ s.tmk.lseq s.tmk.mt
        ∧ t.tmk.head = (s.tmk.head + 1) % 4096 ∧ t.tmk.lseq = (s.tmk.lseq + 1) % 65536
        ∧ t.tmk.resp = some (tmkFrame 0 seq.toNat (leBytes 2 s.tmk.head)) ∧ SameRegs s t [] ∧ Untouched s t [.tmk, .out])
  ∧ (∀ (s : State) (seq : Byte) (g x : Word) (a b : Nat), s.tmk.powered = true → s.tmk.resp = none →
      s.tmk.gref = some (g, a) → s.tmk.xtal = some (x, b) →
      PortAnswer (.calResult (.port 0xB4 seq [])) s s.tmk seq 0 (leBytes 4 g.toNat ++ leBytes 4 x.toNat ++ leBytes 8 (max a b)))
  ∧ (∀ (s : State) (seq : Byte), s.tmk.powered = true → s.tmk.resp = none → s.tmk.gref = none → s.tmk.xtal = none →
      PortAnswer (.calResult (.port 0xB4 seq [])) s s.tmk seq 0 (leBytes 4 0x80000000 ++ leBytes 4 0x80000000 ++ leBytes 8 0))
  ∧ (∀ (s : State) (seq : Byte) (ok : Bool), s.tmk.powered = true → s.tmk.resp = none → s.tmk.gref = none →
      PortAnswer (.calApplyGref (.port 0xB4 seq [0]) ok) s s.tmk seq 4 [])
  ∧ (∀ (s : State) (seq : Byte) (ok : Bool), s.tmk.powered = true → s.tmk.resp = none → s.tmk.xtal = none →
      PortAnswer (.calApplyXtal (.port 0xB4 seq [1]) ok) s s.tmk seq 4 [])
  ∧ (∀ (s : State) (seq : Byte) (w : Word) (a : Nat), s.tmk.powered = true → s.tmk.resp = none → s.tmk.gref = some (w, a) →
      s.tmkBlock.length = 256 →
      ∃ t, exec (.calApplyGref (.port 0xB4 seq [0]) true) s = .next t ∧ leAt 0x48 4 t.tmkBlock = w.toNat
      ∧ leAt 0x4C 4 t.tmkBlock = leAt 0x4C 4 s.tmkBlock
        ∧ leAt 8 4 t.tmkBlock = (leAt 8 4 s.tmkBlock + 1) % 2 ^ 32 ∧ t.tmk.resp = some (tmkFrame 0 seq.toNat t.genAudit)
        ∧ SameRegs s t [] ∧ Untouched s t [.tmk, .out])
  ∧ (∀ (s : State) (seq : Byte) (w : Word) (a : Nat), s.tmk.powered = true → s.tmk.resp = none → s.tmk.xtal = some (w, a) →
      s.tmkBlock.length = 256 →
      ∃ t, exec (.calApplyXtal (.port 0xB4 seq [1]) true) s = .next t ∧ leAt 0x4C 4 t.tmkBlock = w.toNat
      ∧ leAt 0x48 4 t.tmkBlock = leAt 0x48 4 s.tmkBlock
        ∧ leAt 8 4 t.tmkBlock = (leAt 8 4 s.tmkBlock + 1) % 2 ^ 32 ∧ t.tmk.resp = some (tmkFrame 0 seq.toNat t.genAudit)
        ∧ SameRegs s t [] ∧ Untouched s t [.tmk, .out])

/-! ## The Ridge mesh -/

/-- The broadcast `h` is new to this device and comes over a link that takes part (R517, R520). -/
def Fresh (s : State) (h : RidgeHdr) : Prop :=
  s.ridgeUp h.link = true ∧ sight (seenOf s.rdg (hdrSrc h)) (hdrBseq h) = .fresh

/-- A message on every link that takes part, except link `skip` (R520). -/
def onLinks (s : State) (skip code arg : Nat) (body : List Byte) : List Out :=
  ((List.range 4).filter (fun l => l != skip && s.ridgeUp l)).map (fun l => Out.linkMsg (4 + l) code arg body)

/-- Broadcast `h` has been remembered and sent on, and then `more` (R520). -/
def SentOn (s t : State) (h : RidgeHdr) (code : Nat) (body : List Byte) (more : List Out) : Prop :=
  t.out = s.out ++ onLinks s h.link code h.arg.toNat body ++ more
  ∧ seenOf t.rdg (hdrSrc h) = seenAfter (seenOf s.rdg (hdrSrc h)) (hdrBseq h)

/-- This device holds the role that the unicast message `h` names (R528). -/
def ForMe (s : State) (h : RidgeHdr) : Prop := s.ridgeUp h.link = true ∧ s.hasRole = true ∧ s.role = hdrDst h

/-- The body of a VCMD (R518, R534). -/
def vcmdBytes (op : Nat) (b : VcmdBody) : List Byte :=
  leBytes 4 b.epoch.toNat ++ leBytes 4 op ++ leBytes 4 b.param.toNat ++ leBytes 4 b.feff.toNat ++ leBytes 8 b.roles.toNat

/-- The VACK that answers VCMD `h` with RESULT `r` (R534). -/
def vackOut (s : State) (h : RidgeHdr) (r : Nat) : Out :=
  .linkMsg (4 + (s.roleEntry (hdrSrc h)).link) 0x39 (hdrSrc h % 64 + 256 * s.role)
    (leBytes 4 (s.roleEntry (hdrSrc h)).epoch ++ leBytes 2 (hdrBseq h) ++ [BitVec.ofNat 8 r, 0])

/-- R517, R520, R524, R531, R533, R534: a broadcast is taken once and sent on; what ALARM, BND, MEAS, HOLD and the volume commands do
where they are taken; VOL_CMD descriptors, their answers, and the reset of their issuer. What goes beyond the rules' words is the model's
own (log entries 120, 121 and 125). -/
def Obligations.MeshMessages : Prop :=
  (∀ (s : State) (h : RidgeHdr) (i : Instr) (ra : RoleAnn) (rs : RoleSet) (e : Word) (ev : BitVec 16) (mb : MeasBody) (hb : HoldBody)
      (vb : VcmdBody),
      i ∈ [Instr.roleAnn h ra, .roleSet h rs, .alarm h e ev, .meas h mb, .hold h hb, .vcmdState h vb, .vcmdHold h vb, .vcmdReset h vb] →
      s.ridgeUp h.link = false ∨ sight (seenOf s.rdg (hdrSrc h)) (hdrBseq h) = .behind → exec i s = .next s)
  ∧ (∀ (s : State) (h : RidgeHdr) (i : Instr) (ra : RoleAnn) (rs : RoleSet) (e : Word) (ev : BitVec 16) (mb : MeasBody) (hb : HoldBody)
      (vb : VcmdBody),
      i ∈ [Instr.roleAnn h ra, .roleSet h rs, .alarm h e ev, .meas h mb, .hold h hb, .vcmdState h vb, .vcmdHold h vb, .vcmdReset h vb] →
      s.ridgeUp h.link = true → sight (seenOf s.rdg (hdrSrc h)) (hdrBseq h) = .duplicate → exec i s = .next (s.bump Reg.RDG_VCNT_DUP 1))
  ∧ (∀ (s : State) (h : RidgeHdr) (e : Word) (ev : BitVec 16), Fresh s h → s.isHead = false →
      ∃ t, exec (.alarm h e ev) s = .next t ∧ SentOn s t h 0x28 (leBytes 4 e.toNat ++ leBytes 2 ev.toNat ++ leBytes 2 0) []
        ∧ SameRegs s t [] ∧ Untouched s t [.rdg, .links, .out])
  ∧ (∀ (s : State) (h : RidgeHdr) (e : Word) (ev : BitVec 16), Fresh s h → s.isHead = true →
      ∃ u, exec (.alarm h e ev) s = .next (u.event Ev.RDG_REMOTE_ALARM [(8, hdrSrc h), (16, ev.toNat)])
        ∧ SentOn s u h 0x28 (leBytes 4 e.toNat ++ leBytes 2 ev.toNat ++ leBytes 2 0) [] ∧ SameRegs s u []
      ∧ Untouched s u [.rdg, .links, .out])
  ∧ (∀ (s : State) (h : RidgeHdr) (b : BndBody), Fresh s h → s.follows = false ∨ s.rdg.elected ≠ some (hdrSrc h) →
      ∃ t, exec (.bnd h b) s = .next t ∧ SentOn s t h 0x30 (bndBytes b (b.hops.toNat + 1)) []
        ∧ SameRegs s t [] ∧ Untouched s t [.rdg, .links, .out])
  ∧ (∀ (s : State) (h : RidgeHdr) (b : BndBody), Fresh s h → s.follows = true → s.rdg.elected = some (hdrSrc h) → s.parent = 7 →
      s.gen.srcDigest = some b.digest →
      ∃ t, exec (.bnd h b) s = .next t ∧ SentOn s t h 0x30 (bndBytes b (b.hops.toNat + 1)) []
        ∧ t.gen = { s.gen with given := some b.refNext.toNat, srcPeriod := some b.period.toNat } ∧ t.rdg.srcF = some (b.f.toNat % 2 ^ 48)
        ∧ t.parent = h.link ∧ t.getF Reg.RDG_TSTAT F.RDG_TSTAT_HOPS = min (b.hops.toNat + 1) 0x3E
        ∧ t.flag Reg.RDG_TSTAT F.RDG_TSTAT_TS_LOST = false
        ∧ SameRegs s t (Reg.RDG_TSTAT :: (List.range 4).map Reg.RDG_LISO) ∧ Untouched s t [.regs, .rdg, .links, .out, .gen])
  ∧ (∀ (s : State) (h : RidgeHdr) (b : MeasBody), Fresh s h → s.follows = false ∨ s.rdg.elected ≠ some (hdrSrc h) →
      ∃ t, exec (.meas h b) s = .next t ∧ SameRegs s t [] ∧ Untouched s t [.rdg, .links, .out])
  ∧ (∀ (s : State) (h : RidgeHdr) (b : MeasBody) (f : Nat), Fresh s h → s.follows = true → s.rdg.elected = some (hdrSrc h) →
      s.gen.fc ≤ f → f < s.gen.fc + 2 ^ 32 → f % 2 ^ 32 = b.apply.toNat →
      ∃ t, exec (.meas h b) s = .next t
        ∧ (t.gen.replace.any (fun r => r.at_ == f && aget (fun _ => (0, 0)) r.wins (b.view.toNat % 8) == (b.opening.toNat, b.dur.toNat))) = true
        ∧ SameRegs s t [] ∧ Untouched s t [.rdg, .links, .out, .gen])
  ∧ (∀ (s : State) (h : RidgeHdr) (b : HoldBody), Fresh s h → s.vhold = false →
      ∃ t, exec (.hold h b) s = .next t ∧ SameRegs s t [] ∧ Untouched s t [.rdg, .links, .out])
  ∧ (∀ (s : State) (h : RidgeHdr) (b : HoldBody) (next : Nat), Fresh s h → s.vhold = true → next = s.nextFrameOf.fc % 2 ^ 32 →
      (b.f.toNat = next ∧ (b.slot.toNat ≠ 0 ∨ s.hrt.ahead = false)
        ∨ b.f.toNat ≠ next ∧ b.f.toNat = s.gen.fc % 2 ^ 32 ∧ s.hrt.slots ≤ b.slot.toNat) →
      ∃ t, exec (.hold h b) s = .next t
        ∧ t.hrt = { s.hrt with reports := s.hrt.reports ++ [(b.f.toNat, b.slot.toNat, b.view.toNat, b.tgt.toNat % 32)] }
        ∧ SameRegs s t [] ∧ Untouched s t [.rdg, .links, .out, .hrt])
  ∧ (∀ (s : State) (h : RidgeHdr) (b : HoldBody) (next : Nat), Fresh s h → s.vhold = true → next = s.nextFrameOf.fc % 2 ^ 32 →
      (b.f.toNat = next ∧ b.slot.toNat = 0 ∧ s.hrt.ahead = true
        ∨ b.f.toNat ≠ next ∧ (b.f.toNat ≠ s.gen.fc % 2 ^ 32 ∨ b.slot.toNat < s.hrt.slots)) →
      ∃ t, exec (.hold h b) s = .next t
        ∧ (t.reg Reg.VIEW_CNT_VHOLD_LATE).toNat = min ((s.reg Reg.VIEW_CNT_VHOLD_LATE).toNat + 1) 0xFFFFFFFF
        ∧ SameRegs s t (Reg.VIEW_CNT_VHOLD_LATE :: eventRegs) ∧ Untouched s t [.regs, .evt, .rdg, .links, .out])
  ∧ (∀ (s : State) (h : RidgeHdr) (b : VcmdBody) (i : Instr) (op : Nat),
      (i, op) ∈ [(Instr.vcmdState h b, 1), (.vcmdHold h b, 2), (.vcmdReset h b, 3)] → Fresh s h →
      s.hasRole = false ∨ b.roles.toNat.testBit s.role = false →
      ∃ t, exec i s = .next t ∧ SentOn s t h 0x38 (vcmdBytes op b) [] ∧ SameRegs s t [] ∧ Untouched s t [.rdg, .links, .out])
  ∧ (∀ (s : State) (h : RidgeHdr) (b : VcmdBody) (i : Instr) (op : Nat),
      (i, op) ∈ [(Instr.vcmdState h b, 1), (.vcmdHold h b, 2), (.vcmdReset h b, 3)] → Fresh s h →
      s.hasRole = true → b.roles.toNat.testBit s.role = true → newer s.epoch b.epoch.toNat = true →
      ∃ t, exec i s = .next t ∧ SentOn s t h 0x38 (vcmdBytes op b) [vackOut s h 2] ∧ t.rdg.sched = s.rdg.sched
        ∧ SameRegs s t [] ∧ Untouched s t [.rdg, .links, .out])
  ∧ (∀ (s : State) (h : RidgeHdr) (b : VcmdBody) (i : Instr) (op f r : Nat),
      (i, op) ∈ [(Instr.vcmdState h b, 1), (.vcmdHold h b, 2)] → Fresh s h →
      s.hasRole = true → b.roles.toNat.testBit s.role = true → newer s.epoch b.epoch.toNat = false →
      (f, r) = (if newer b.feff.toNat (s.gen.fc % 2 ^ 32) then (b.feff.toNat, 0) else ((s.gen.fc + 1) % 2 ^ 32, 1)) →
      ∃ t, exec i s = .next t ∧ SentOn s t h 0x38 (vcmdBytes op b) [vackOut s h r] ∧ t.rdg.sched = s.rdg.sched ++ [(f, op, b.param.toNat)]
        ∧ SameRegs s t [] ∧ Untouched s t [.rdg, .links, .out])
  ∧ (∀ (s : State) (h : RidgeHdr) (b : VcmdBody), Fresh s h → s.hasRole = true → b.roles.toNat.testBit s.role = true →
      newer s.epoch b.epoch.toNat = false →
      ∃ u, exec (.vcmdReset h b) s = .next (u.warmReset 5) ∧ SentOn s u h 0x38 (vcmdBytes 3 b) [vackOut s h 0]
        ∧ SameRegs s u [] ∧ Untouched s u [.rdg, .links, .out])
  ∧ (∀ (s : State) (h : RidgeHdr) (e : Word) (n : BitVec 16) (r : Byte), s.ridgeUp h.link = false → exec (.vack h e n r) s = .next s)
  ∧ (∀ (s : State) (h : RidgeHdr) (e : Word) (n : BitVec 16) (r : Byte) (v : VolPend), ForMe s h → s.rdg.vols = [v] → v.op ≠ 4 →
      v.bseq = n.toNat → v.roles &&& setBit v.heard (hdrSrc h) ≠ v.roles →
      ∃ t, exec (.vack h e n r) s = .next t ∧ t.rdg = { s.rdg with vols := [{ v with
          heard := setBit v.heard (hdrSrc h), good := if r = 0 then setBit v.good (hdrSrc h) else v.good }] }
        ∧ SameRegs s t [] ∧ Untouched s t [.rdg])
  ∧ (∀ (s : State) (h : RidgeHdr) (e : Word) (n : BitVec 16) (v : VolPend), ForMe s h → s.rdg.vols = [v] → v.op = 1 ∨ v.op = 2 →
      v.bseq = n.toNat → v.roles < 2 ^ 64 → v.roles &&& setBit v.heard (hdrSrc h) = v.roles → v.good = v.heard → v.heard < 2 ^ 64 →
      ∃ u, exec (.vack h e n 0) s = .next (u.finish v.client v.idx (Cpl.of 0)) ∧ u.rdg = { s.rdg with vols := [] }
        ∧ u.reg Reg.RDG_VCMD_MISS_LO = 0 ∧ u.reg Reg.RDG_VCMD_MISS_HI = 0
        ∧ SameRegs s u [Reg.RDG_VCMD_MISS_LO, Reg.RDG_VCMD_MISS_HI] ∧ Untouched s u [.regs, .rdg])
  ∧ (∀ (s : State) (c : Fin 256) (d : Desc) (i : Instr) (op : Nat),
      (i, op) ∈ [(Instr.volState c, 1), (.volHold c, 2), (.volReset c, 3)] → s.startable c (isVol op) = some d →
      s.hasRole = true → s.rdg.vols = [] → d.arg2 2 ≠ 0 → (d.arg2 2).testBit s.role = false →
      ∃ t, exec i s = .next t ∧ t.rdg.vols = [⟨c, d.idx, op, d.arg2 2, 0, 0, s.rdg.bseq, s.epoch⟩] ∧ t.rdg.bseq = (s.rdg.bseq + 1) % 65536
        ∧ t.rdg.sched = s.rdg.sched ∧ t.out = s.out ++ onLinks s 4 0x38 (256 * s.role + 2 ^ 14 + 65536 * s.rdg.bseq)
            (leBytes 4 s.epoch ++ (leBytes 4 op ++ leBytes 4 (d.arg 1) ++ leBytes 4 ((s.gen.fc + 2) % 2 ^ 32) ++ leBytes 8 (d.arg2 2)))
        ∧ SameRegs s t [] ∧ Untouched s t [.hst, .rdg, .links, .out])
  ∧ (∀ (s : State) (c : Fin 256) (d : Desc) (i : Instr) (op : Nat),
      (i, op) ∈ [(Instr.volState c, 1), (.volHold c, 2), (.volReset c, 3)] → s.startable c (isVol op) = some d →
      s.hasRole = true → s.rdg.vols = [] → d.arg2 2 = 2 ^ s.role →
      ∃ u, exec i s = .next (u.finish c d.idx (Cpl.of 0)) ∧ u.rdg.vols = []
        ∧ u.rdg.sched = (if op = 3 then s.rdg.sched else s.rdg.sched ++ [((s.gen.fc + 2) % 2 ^ 32, op, d.arg 1)])
        ∧ u.rdg.selfReset = (op == 3 || s.rdg.selfReset) ∧ u.reg Reg.RDG_VCMD_MISS_LO = 0 ∧ u.reg Reg.RDG_VCMD_MISS_HI = 0
        ∧ SameRegs s u [Reg.RDG_VCMD_MISS_LO, Reg.RDG_VCMD_MISS_HI] ∧ Untouched s u [.regs, .hst, .rdg, .links, .out])
  ∧ (∀ (s : State) (c : Fin 256) (d : Desc) (cols col row : Nat), s.startable c (isVol 4) = some d → s.rdg.vols = [] →
      d.arg 1 = cols + 256 * col + 65536 * row → 0 < cols → cols ≤ 64 → col < cols → row * cols + col < 64 →
      ∃ t, exec (.volRole c) s = .next t ∧ t.hasRole = true ∧ t.role = row * cols + col ∧ t.getF Reg.RDG_ROLE F.RDG_ROLE_COL = col
        ∧ t.getF Reg.RDG_ROLE F.RDG_ROLE_ROW = row ∧ t.rdg.derive_ = none
        ∧ (s.topEpoch = none → t.epoch = 1) ∧ (∀ e, s.topEpoch = some e → t.epoch = (e + 1) % 2 ^ 32))
  ∧ (∀ s : State, s.rdg.vols = [] → exec .vcmdTimeout s = .next s)
  ∧ (∀ (s : State) (v : VolPend) (l : List VolPend) (miss : Nat), s.rdg.vols = v :: l → v.op ≠ 3 →
      miss = v.roles &&& (2 ^ 64 - 1 - v.good % 2 ^ 64) →
      ∃ u, exec .vcmdTimeout s = .next (u.finish v.client v.idx (Cpl.of 0))
        ∧ u.rdg = { s.rdg with vols := (v :: l).filter (fun x => !(x.client == v.client && x.idx == v.idx)) }
        ∧ u.reg Reg.RDG_VCMD_MISS_LO = word miss ∧ u.reg Reg.RDG_VCMD_MISS_HI = word (miss / 2 ^ 32)
        ∧ SameRegs s u ([Reg.RDG_VCMD_MISS_LO, Reg.RDG_VCMD_MISS_HI] ++ eventRegs) ∧ Untouched s u [.regs, .rdg, .evt])
  ∧ (∀ s : State, s.rdg.selfReset = false → exec .volResetSelf s = .next s)
  ∧ (∀ s : State, s.rdg.selfReset = true →
      exec .volResetSelf s = .next ({ s with rdg := { s.rdg with selfReset := false } }.warmReset 5))

/-- The body of a ROLE_ANN that this device originates (R518, R525). -/
def ownAnn (s : State) : List Byte :=
  leBytes 4 s.epoch ++ (leBytes 8 s.dsn ++ ([s.getF Reg.RDG_ROLE F.RDG_ROLE_COL, s.getF Reg.RDG_ROLE F.RDG_ROLE_ROW, s.annFlags, s.ownClass, 0,
    if s.isSource then 0 else if s.getF Reg.RDG_TSTAT F.RDG_TSTAT_HOPS = 0x3F then 0xFF else s.getF Reg.RDG_TSTAT F.RDG_TSTAT_HOPS,
    s.getF Reg.RDG_DIAM F.RDG_DIAM_ECC, 0].map (BitVec.ofNat 8)))

/-- The CLASS of the elected source `r` (R529). -/
def sourceClass (s : State) (r : Nat) : Nat := if s.isSource then s.ownClass else (s.roleEntry r).cls

/-- Bit `r` of RDG_REACH (R541). -/
def reachBit (s : State) (r : Nat) : Bool := ((s.reg Reg.RDG_REACH_LO).toNat + 2 ^ 32 * (s.reg Reg.RDG_REACH_HI).toNat).testBit r

/-- R524 to R532: the exchange of time on the links, roles announced, set, moved and lost, and the timing source and the parent link. What
goes beyond the rules' words is the model's own (log entries 118, 119, 122 and 123). -/
def Obligations.RidgeTimeAndRoles : Prop :=
  (∀ (s : State) (n : Nat), s.isReady 7 = false ∨ s.pwr.dormant = true → exec (.tsyncTick n) s = .next s)
  ∧ (∀ (s : State) (n : Nat), s.isReady 7 = true → s.pwr.dormant = false →
      ∃ t, exec (.tsyncTick n) s = .next t ∧ t.gen.vt = max s.gen.vt n ∧ t.rdg.tseq = (s.rdg.tseq + 1) % 2 ^ 32
        ∧ t.out = s.out ++ onLinks s 4 0x10 0 (leBytes 8 n ++ leBytes 4 s.rdg.tseq ++ leBytes 4 0)
        ∧ (∀ l, l < 4 → s.ridgeUp l = true → t.rdg.t1.find? (fun e => e.1 == l) = some (l, s.rdg.tseq, n))
        ∧ SameRegs s t [] ∧ Untouched s t [.gen, .rdg, .links, .out])
  ∧ (∀ (s : State) (q : Fin 4) (t1 : BitVec 64) (n : Word) (t2 t3 : Nat), s.getF (Reg.RDG_PST q) F.RDG_PST_STATE ≠ 5 → exec (.tsyncReq q t1 n t2 t3) s = .next s)
  ∧ (∀ (s : State) (q : Fin 4) (t1 : BitVec 64) (n : Word) (t2 t3 : Nat), s.getF (Reg.RDG_PST q) F.RDG_PST_STATE = 5 →
      ∃ t, exec (.tsyncReq q t1 n t2 t3) s = .next t ∧ t.gen.vt = max s.gen.vt t3
        ∧ t.out = s.out ++ [.linkMsg (4 + q) 0x11 0 (leBytes 8 t2 ++ leBytes 8 t3 ++ leBytes 4 n.toNat ++ leBytes 4 0)]
        ∧ SameRegs s t [] ∧ Untouched s t [.gen, .links, .out])
  ∧ (∀ (s : State) (q : Fin 4) (t2 t3 : BitVec 64) (n : Word) (t4 : Nat),
      (∀ e ∈ s.rdg.t1, e.1 ≠ q.val ∨ e.2.1 ≠ n.toNat) ∨ s.ridgeUp q = false → exec (.tsyncRsp q t2 t3 n t4) s = .next s)
  ∧ (∀ (s : State) (q : Fin 4) (t2 t3 : BitVec 64) (n : Word) (t4 t1 : Nat), s.rdg.t1.find? (fun e => e.1 == q.val) = some (q.val, n.toNat, t1) →
      s.ridgeUp q = true → s.follows = false ∨ s.parent ≠ q →
      ∃ t, exec (.tsyncRsp q t2 t3 n t4) s = .next t ∧ t.gen.vt = max s.gen.vt t4
        ∧ toSigned 32 (t.reg (Reg.RDG_LOFF q)).toNat
          = satS 32 (rneDiv (((t2.toNat : Int) - t1) - ((t4 : Int) - t3.toNat)) 2)
        ∧ t.getF (Reg.RDG_LDLY q) F.RDG_LDLY_D = satU 16 (rneDiv (((t4 : Int) - t1) - ((t3.toNat : Int) - t2.toNat)) 2)
        ∧ SameRegs s t [Reg.RDG_LOFF q, Reg.RDG_LDLY q] ∧ Untouched s t [.regs, .gen, .rdg])
  ∧ (∀ (s : State) (q : Fin 4) (t2 t3 : BitVec 64) (n : Word) (t4 t1 : Nat) (e : Int),
      s.rdg.t1.find? (fun e => e.1 == q.val) = some (q.val, n.toNat, t1) → s.ridgeUp q = true → s.follows = true → s.parent = q →
      e = rneDiv (((t2.toNat : Int) - t1) - ((t4 : Int) - t3.toNat)) 2 → s.scanRuns = false →
      4 + 2 * s.getF Reg.RDG_TSTAT F.RDG_TSTAT_HOPS < e.natAbs →
      ∃ t, exec (.tsyncRsp q t2 t3 n t4) s = .next t ∧ t.gen.vt = (((max s.gen.vt t4 : Nat) : Int) + e).toNat
        ∧ (t.reg Reg.RDG_VCNT_VT_STEP).toNat = min ((s.reg Reg.RDG_VCNT_VT_STEP).toNat + 1) 0xFFFFFFFF
        ∧ t.flag Reg.GEN_STAT F.GEN_STAT_ALIGNED = false ∧ t.rdg.aligned = 0
        ∧ SameRegs s t ([Reg.RDG_LOFF q, Reg.RDG_LDLY q, Reg.GEN_STAT, Reg.RDG_VCNT_VT_STEP] ++ eventRegs)
        ∧ Untouched s t [.regs, .gen, .rdg, .fst, .pnl, .evt])
  ∧ (∀ (s : State) (q : Fin 4) (t2 t3 : BitVec 64) (n : Word) (t4 t1 : Nat) (e : Int),
      s.rdg.t1.find? (fun e => e.1 == q.val) = some (q.val, n.toNat, t1) → s.ridgeUp q = true → s.follows = true → s.parent = q →
      e = rneDiv (((t2.toNat : Int) - t1) - ((t4 : Int) - t3.toNat)) 2 → s.scanRuns = true →
      e.natAbs ≤ 4 + 2 * s.getF Reg.RDG_TSTAT F.RDG_TSTAT_HOPS →
      ∃ t, exec (.tsyncRsp q t2 t3 n t4) s = .next t ∧ t.gen.vt = max s.gen.vt t4 ∧ t.rdg.aligned = s.rdg.aligned + 1 ∧ t.rdg.vtStep = 0
        ∧ (7 ≤ s.rdg.aligned → t.flag Reg.GEN_STAT F.GEN_STAT_ALIGNED = true ∧ t.reg Reg.GEN_VT_UNC = 0)
        ∧ SameRegs s t [Reg.RDG_LOFF q, Reg.RDG_LDLY q, Reg.GEN_STAT, Reg.GEN_VT_UNC] ∧ Untouched s t [.regs, .gen, .rdg])
  ∧ (∀ (s : State) (q : Fin 4) (t2 t3 : BitVec 64) (n : Word) (t4 t1 : Nat) (e : Int),
      s.rdg.t1.find? (fun e => e.1 == q.val) = some (q.val, n.toNat, t1) → s.ridgeUp q = true → s.follows = true → s.parent = q →
      e = rneDiv (((t2.toNat : Int) - t1) - ((t4 : Int) - t3.toNat)) 2 → s.scanRuns = true → 120000 < e.natAbs →
      ∃ t, exec (.tsyncRsp q t2 t3 n t4) s = .next t ∧ t.gen.vt = max s.gen.vt t4 ∧ t.rdg.vtStep = e ∧ t.rdg.aligned = 0)
  ∧ (∀ s : State, s.hasRole = false → exec .roleAnnTick s = .next s)
  ∧ (∀ s : State, s.hasRole = true →
      ∃ t, exec .roleAnnTick s = .next t ∧ t.out = s.out ++ onLinks s 4 0x20 (256 * s.role + 2 ^ 14 + 65536 * s.rdg.bseq) (ownAnn s)
        ∧ t.rdg.bseq = (s.rdg.bseq + 1) % 65536 ∧ SameRegs s t [] ∧ Untouched s t [.rdg, .links, .out])
  ∧ (∀ (s : State) (h : RidgeHdr) (b : RoleAnn), Fresh s h → b.hops ≠ 0 → s.hasRole = false ∨ s.role ≠ hdrSrc h → s.rdg.vols = [] →
      (s.roleEntry (hdrSrc h)).known = false ∨ newer b.epoch.toNat (s.roleEntry (hdrSrc h)).epoch = true →
      ∃ t, exec (.roleAnn h b) s = .next t
        ∧ t.roleEntry (hdrSrc h) = ⟨true, b.dsn.toNat, b.epoch.toNat, b.col.toNat, b.row.toNat, b.flags.toNat, b.cls.toNat, b.hops.toNat + 1,
            b.hopsTs.toNat, b.ecc.toNat, h.link, true⟩
        ∧ reachBit t (hdrSrc h) = true ∧ seenOf t.rdg (hdrSrc h) = seenAfter (seenOf s.rdg (hdrSrc h)) (hdrBseq h))
  ∧ (∀ (s : State) (h : RidgeHdr) (b : RoleAnn), Fresh s h → b.hops ≠ 0 → s.hasRole = false ∨ s.role ≠ hdrSrc h → s.rdg.vols = [] →
      (s.roleEntry (hdrSrc h)).known = true → newer b.epoch.toNat (s.roleEntry (hdrSrc h)).epoch = false →
      b.epoch.toNat ≠ (s.roleEntry (hdrSrc h)).epoch →
      ∃ t, exec (.roleAnn h b) s = .next t ∧ t.roleEntry (hdrSrc h) = s.roleEntry (hdrSrc h))
  ∧ (∀ (s : State) (h : RidgeHdr) (b : RoleAnn) (cols mask c r : Nat), Fresh s h → b.hops = 0 → s.rdg.vols = [] →
      s.rdg.derive_ = some (b.epoch.toNat, cols, mask) → implied h.link b.col.toNat b.row.toNat = ((c : Int), (r : Int)) → c < cols →
      cols ≤ 64 →
      r * cols + c < 64 → mask.testBit (r * cols + c) = true → hdrSrc h ≠ r * cols + c →
      ∃ t, exec (.roleAnn h b) s = .next t ∧ t.hasRole = true ∧ t.role = r * cols + c ∧ t.getF Reg.RDG_ROLE F.RDG_ROLE_COL = c
        ∧ t.getF Reg.RDG_ROLE F.RDG_ROLE_ROW = r ∧ t.epoch = b.epoch.toNat ∧ t.rdg.derive_ = none)
  ∧ (∀ (s : State) (h : RidgeHdr) (b : RoleAnn) (cols mask c r : Nat), Fresh s h → b.hops = 0 → s.rdg.vols = [] →
      s.rdg.derive_ = some (b.epoch.toNat, cols, mask) → implied h.link b.col.toNat b.row.toNat = ((c : Int), (r : Int)) →
      mask.testBit (r * cols + c) = false →
      ∃ t, exec (.roleAnn h b) s = .next t ∧ t.hasRole = false ∧ t.rdg.derive_ = none)
  ∧ (∀ (s : State) (h : RidgeHdr) (b : RoleAnn), Fresh s h → b.hops ≠ 0 → s.rdg.vols = [] → s.hasRole = true → s.role = hdrSrc h →
      b.dsn.toNat ≠ s.dsn → newer b.epoch.toNat s.epoch = true →
      ∃ t, exec (.roleAnn h b) s = .next t ∧ t.hasRole = false)
  ∧ (∀ (s : State) (h : RidgeHdr) (b : RoleSet), Fresh s h → (∀ e ∈ s.topEpoch, newer b.epoch.toNat e = true) →
      ∃ t, exec (.roleSet h b) s = .next t ∧ SentOn s t h 0x21 (leBytes 4 b.epoch.toNat ++ roleSetBytes b) []
        ∧ t.rdg.derive_ = some (b.epoch.toNat, b.cols.toNat, b.mask.toNat) ∧ SameRegs s t [] ∧ Untouched s t [.rdg, .links, .out])
  ∧ (∀ (s : State) (h : RidgeHdr) (b : RoleSet) (e : Nat), Fresh s h → s.topEpoch = some e → newer b.epoch.toNat e = false →
      b.epoch.toNat ≠ e →
      ∃ t, exec (.roleSet h b) s = .next t ∧ SentOn s t h 0x21 (leBytes 4 b.epoch.toNat ++ roleSetBytes b) []
        ∧ t.rdg.derive_ = s.rdg.derive_ ∧ SameRegs s t [] ∧ Untouched s t [.rdg, .links, .out])
  ∧ (∀ (s : State) (h : RidgeHdr) (b : RoleMoved), ForMe s h → b.code ≠ 0x40 ∨ s.hst.relays = [] →
      exec (.roleMoved h b) s = .next (s.event Ev.RDG_ROLE_MOVED []))
  ∧ (∀ (s : State) (h : RidgeHdr) (b : RoleMoved) (p : RelayPend), ForMe s h → b.code = 0x40 →
      s.hst.relays.find? (fun r => s.getF (Reg.HST_RLY_SEL r.window) F.HST_RLY_SEL_ROLE == b.role.toNat) = some p → p.window < 4 →
      (∀ x ∈ s.hst.relays, x.window < 4) → exec (.roleMoved h b) s = .next ((s.event Ev.RDG_ROLE_MOVED []).endRelay1 p none))
  ∧ (∀ (s : State) (h : RidgeHdr) (b : RoleMoved), s.ridgeUp h.link = true → s.hasRole = false ∨ s.role ≠ hdrDst h →
      (s.roleEntry (hdrDst h)).known = false ∨ (s.roleEntry (hdrDst h)).reachable = false → exec (.roleMoved h b) s = .next s)
  ∧ (∀ (s : State) (r : Fin 64), (s.roleEntry r).known = false ∨ (s.roleEntry r).reachable = false → exec (.roleUnreachable r) s = .next s)
  ∧ (∀ (s : State) (r : Fin 64), (s.roleEntry r).known = true → (s.roleEntry r).reachable = true → s.hasRole = false ∨ s.role ≠ r →
      ∃ t, exec (.roleUnreachable r) s = .next t ∧ t.roleEntry r = { s.roleEntry r with reachable := false } ∧ reachBit t r = false)
  ∧ (∀ (s : State) (r c b : Nat), s.rdg.elected = some r → s.bestCand = some (c, b) → b = r ∨ sourceClass s r ≤ c →
      exec .tsElection s = .next s)
  ∧ (∀ (s : State) (r c b : Nat), s.rdg.elected = some r → s.bestCand = some (c, b) → b ≠ r → c < sourceClass s r → b < 64 →
      ∃ t, exec .tsElection s = .next t ∧ t.rdg.elected = some b ∧ t.getF Reg.RDG_TSTAT F.RDG_TSTAT_TS_ROLE = b
        ∧ t.flag Reg.RDG_TSTAT F.RDG_TSTAT_TS_LOST = false ∧ t.parent = 7)
  ∧ (∀ s : State, s.rdg.elected = none ∨ (s.isSource = true ∧ s.isCand = true) → exec .tsLost s = .next s)
  ∧ (∀ (s : State) (r : Nat), s.rdg.elected = some r → s.isSource = false ∨ s.isCand = false → s.sourceThere = true →
      ∃ t, exec .tsLost s = .next t ∧ t.flag Reg.RDG_TSTAT F.RDG_TSTAT_TS_LOST = true ∧ t.flag Reg.GEN_STAT F.GEN_STAT_ALIGNED = false
        ∧ t.rdg = { s.rdg with aligned := 0 } ∧ SameRegs s t ([Reg.RDG_TSTAT, Reg.GEN_STAT] ++ eventRegs)
      ∧ Untouched s t [.regs, .rdg, .evt])
  ∧ (∀ (s : State) (r c b : Nat), s.rdg.elected = some r → s.sourceThere = false → s.bestCand = some (c, b) → b ≠ r → b < 64 →
      ∃ t, exec .tsLost s = .next t ∧ t.rdg.elected = some b ∧ t.getF Reg.RDG_TSTAT F.RDG_TSTAT_TS_ROLE = b)
  ∧ (∀ s : State, s.follows = false ∨ s.parent = 7 → exec .parentBndMissing s = .next s)
  ∧ (∀ (s : State) (l n : Nat), s.follows = true → s.parent ≠ 7 → s.rdg.offers = [(l, n)] → l < 4 → l ≠ s.parent → s.ridgeUp l = true →
      ∃ t, exec .parentBndMissing s = .next t ∧ t.parent = l ∧ t.getF Reg.RDG_TSTAT F.RDG_TSTAT_HOPS = min n 0x3E
        ∧ t.flag (Reg.RDG_LISO l) F.RDG_LISO_PARENT = true
        ∧ SameRegs s t (Reg.RDG_TSTAT :: (List.range 4).map Reg.RDG_LISO) ∧ Untouched s t [.regs, .rdg])
  ∧ (∀ s : State, s.follows = true → s.parent ≠ 7 → s.rdg.offers.all (fun e => e.1 == s.parent) = true →
      ∃ t, exec .parentBndMissing s = .next t ∧ t.parent = 7 ∧ t.getF Reg.RDG_TSTAT F.RDG_TSTAT_HOPS = 0x3F
        ∧ SameRegs s t (Reg.RDG_TSTAT :: (List.range 4).map Reg.RDG_LISO) ∧ Untouched s t [.regs, .rdg])

/-- The HOST messages but the read request, each with its KIND (R533). -/
def hostMessages (h : RidgeHdr) (b : HostBody) : List (Instr × Nat) :=
  [(.hostWrite h b, 1), (.hostReadData h b, 2), (.hostWriteDone h b, 3), (.hostMsix h b, 4), (.hostRelayRead h b, 5), (.hostRelayWrite h b, 6),
    (.hostRelayReadData h b, 7), (.hostRequestFailed h b, 8)]

/-- A HOST message of KIND `kind` and COUNT 0 that this device sends to the sender of `h` (R518, R533). -/
def hostAnswer (s : State) (h : RidgeHdr) (b : HostBody) (kind : Nat) : Out :=
  .linkMsg (4 + (s.roleEntry (hdrSrc h)).link) 0x40 (hdrSrc h % 64 + 256 * s.role)
    (hostBody (s.roleEntry (hdrSrc h)).epoch b.rtag.toNat kind 0 0 [])

/-- R528, R533: a HOST message goes on toward the role it names, or is bounced; what a head does with what is relayed to it, and a device
behind it with the answers. What goes beyond the rules' words is the model's own (log entries 46, 47 and 124). -/
def Obligations.HostRelay : Prop :=
  (∀ (s : State) (h : RidgeHdr) (b : HostBody) (i : Instr) (k : Nat), (i, k) ∈ hostMessages h b → s.ridgeUp h.link = false →
      exec i s = .next s)
  ∧ (∀ (s : State) (h : RidgeHdr) (b : HostBody) (i : Instr) (k : Nat) (e : RoleEntry), (i, k) ∈ hostMessages h b →
      s.ridgeUp h.link = true →
      s.hasRole = false ∨ s.role ≠ hdrDst h → e = s.roleEntry (hdrDst h) → e.known = true → e.reachable = true → e.epoch = b.epoch.toNat →
      ∃ t, exec i s = .next t ∧ t.out = s.out ++ [.linkMsg (4 + e.link) 0x40 h.arg.toNat
          (hostBody b.epoch.toNat b.rtag.toNat k b.addr.toNat b.data.length b.data)]
        ∧ SameRegs s t [] ∧ Untouched s t [.links, .out])
  ∧ (∀ (s : State) (h : RidgeHdr) (b : HostBody) (i : Instr) (k : Nat), (i, k) ∈ hostMessages h b → s.ridgeUp h.link = true →
      s.hasRole = true → s.role ≠ hdrDst h → (s.roleEntry (hdrDst h)).known = false →
      ∃ t, exec i s = .next t ∧ (t.reg Reg.RDG_VCNT_BOUNCE).toNat = min ((s.reg Reg.RDG_VCNT_BOUNCE).toNat + 1) 0xFFFFFFFF
        ∧ t.out = s.out ++ [.linkMsg (4 + (s.roleEntry (hdrSrc h)).link) 0x22 (hdrSrc h % 64 + 256 * s.role)
          (leBytes 4 0 ++ [0x40, BitVec.ofNat 8 (hdrDst h), 1, 0] ++ leBytes 4 h.arg.toNat ++ leBytes 4 0)]
        ∧ SameRegs s t [Reg.RDG_VCNT_BOUNCE] ∧ Untouched s t [.regs, .links, .out])
  ∧ (∀ (s : State) (h : RidgeHdr) (b : HostBody) (n : Word), ForMe s h → s.isHead = false →
      ∃ t, exec (.hostReadRequest h b n) s = .next t ∧ t.out = s.out ++ [hostAnswer s h b 8] ∧ SameRegs s t []
      ∧ Untouched s t [.links, .out])
  ∧ (∀ (s : State) (h : RidgeHdr) (b : HostBody) (n : Word), ForMe s h → s.isHead = true →
      ∃ t, exec (.hostReadRequest h b n) s = .next t ∧ t.out = s.out ++ [.hostRead s.hst.nextRid b.addr.toNat n.toNat]
        ∧ t.hst.reads = s.hst.reads ++ [⟨s.hst.nextRid, b.addr.toNat, n.toNat, .relay h.link (hdrSrc h) b.rtag.toNat⟩]
        ∧ SameRegs s t [] ∧ Untouched s t [.hst, .out])
  ∧ (∀ (s : State) (h : RidgeHdr) (b : HostBody) (i : Instr), i ∈ [Instr.hostWrite h b, .hostMsix h b] → ForMe s h → s.isHead = true →
      ∃ t, exec i s = .next t ∧ t.out = s.out ++ [.hostWrite b.addr.toNat b.data, hostAnswer s h b 3]
        ∧ SameRegs s t [] ∧ Untouched s t [.links, .out])
  ∧ (∀ (s : State) (h : RidgeHdr) (b : HostBody) (i : Instr), i ∈ [Instr.hostWrite h b, .hostMsix h b] → ForMe s h → s.isHead = false →
      ∃ t, exec i s = .next t ∧ t.out = s.out ++ [hostAnswer s h b 8] ∧ SameRegs s t [] ∧ Untouched s t [.links, .out])
  ∧ (∀ (s : State) (h : RidgeHdr) (b : HostBody), ForMe s h → s.rdg.hostTags.all (fun t => t.tag != b.rtag.toNat) = true →
      exec (.hostReadData h b) s = .next s ∧ exec (.hostWriteDone h b) s = .next s)
  ∧ (∀ (s : State) (h : RidgeHdr) (b : HostBody) (x : HostTag) (r : HostRead), ForMe s h → s.rdg.hostTags = [x] → x.tag = b.rtag.toNat →
      x.kind = 0 →
      x.use = some r → x.got.length = b.addr.toNat → (x.got ++ b.data).length < leNat x.bytes →
      ∃ t, exec (.hostReadData h b) s = .next t ∧ t.rdg = { s.rdg with hostTags := [{ x with got := x.got ++ b.data }] }
        ∧ SameRegs s t [] ∧ Untouched s t [.rdg])
  ∧ (∀ (s : State) (h : RidgeHdr) (b : HostBody) (x : HostTag) (r : HostRead), ForMe s h → s.rdg.hostTags = [x] → x.tag = b.rtag.toNat →
      x.kind = 0 →
      x.use = some r → x.got.length = b.addr.toNat → leNat x.bytes ≤ (x.got ++ b.data).length → s.rdg.hostWait = [] → s.hst.reads = [r] →
      exec (.hostReadData h b) s = .next (({ s with rdg := { s.rdg with hostTags := [] } }.readDone r (x.got ++ b.data)).drainHost))
  ∧ (∀ (s : State) (h : RidgeHdr) (b : HostBody) (x : HostTag), ForMe s h → s.rdg.hostTags = [x] → x.tag = b.rtag.toNat → x.kind ≠ 0 →
      x.client = none → s.rdg.hostHold = false →
      ∃ t, exec (.hostWriteDone h b) s = .next t ∧ t.rdg = { s.rdg with hostTags := [] } ∧ SameRegs s t [] ∧ Untouched s t [.rdg])
  ∧ (∀ (s : State) (h : RidgeHdr) (b : HostBody), ForMe s h → b.addr.toNat.testBit 32 = true →
      ∃ t, exec (.hostRelayRead h b) s = .next t
        ∧ t.out = s.out ++ [.linkMsg (4 + (s.roleEntry (hdrSrc h)).link) 0x40 (hdrSrc h % 64 + 256 * s.role)
          (hostBody (s.roleEntry (hdrSrc h)).epoch b.rtag.toNat 7 0 4 [0, 0, 0, 0])]
        ∧ SameRegs s t [] ∧ Untouched s t [.links, .out])
  ∧ (∀ (s : State) (h : RidgeHdr) (b : HostBody) (n : Nat) (x : Word × State), ForMe s h → b.addr.toNat.testBit 32 = false →
      n = b.addr.toNat % 2 ^ 32 →
      s.readStall n = none → x = s.barValue n →
      ∃ t, exec (.hostRelayRead h b) s = .next t
        ∧ t.out = x.2.out ++ [.linkMsg (4 + (x.2.roleEntry (hdrSrc h)).link) 0x40 (hdrSrc h % 64 + 256 * x.2.role)
          (hostBody (x.2.roleEntry (hdrSrc h)).epoch b.rtag.toNat 7 0 4 (leBytes 4 x.1.toNat))]
        ∧ SameRegs x.2 t [] ∧ Untouched x.2 t [.links, .out])
  ∧ (∀ (s : State) (h : RidgeHdr) (b : HostBody), ForMe s h → b.addr.toNat.testBit 32 = false →
      exec (.hostRelayWrite h b) s
        = .next ((s.barWrite (b.addr.toNat % 2 ^ 32) 15 (word (leAt 0 4 b.data)) none).hostReply (hdrSrc h) b.rtag.toNat 7 0 []))
  ∧ (∀ (s : State) (h : RidgeHdr) (b : HostBody) (c : Nat), ForMe s h → b.addr.toNat.testBit 32 = true →
      b.addr.toNat % 2 ^ 32 = 4096 * c → c < 256 →
      exec (.hostRelayWrite h b) s
        = .next ((s.writeSqTail c 15 (word (leAt 0 4 b.data))).hostReply (hdrSrc h) b.rtag.toNat 7 0 []))
  ∧ (∀ (s : State) (h : RidgeHdr) (b : HostBody), ForMe s h → s.hst.relays.all (fun r => r.tag != b.rtag.toNat) = true →
      exec (.hostRelayReadData h b) s = .next s)
  ∧ (∀ (s : State) (h : RidgeHdr) (b : HostBody) (p : RelayPend), ForMe s h → s.hst.relays = [p] → p.tag = b.rtag.toNat →
      s.hst.winWait = [] →
      ∃ t, exec (.hostRelayReadData h b) s = .next t ∧ t.hst = { s.hst with relays := [] }
        ∧ t.out = s.out ++ (if p.isRead then [.readReply (word (leAt 0 4 b.data))] else []) ∧ SameRegs s t [] ∧ Untouched s t [.hst, .out])
  ∧ (∀ (s : State) (h : RidgeHdr) (b : HostBody), ForMe s h → s.rdg.hostTags.all (fun t => t.tag != b.rtag.toNat) = true →
      s.hst.relays.all (fun r => r.tag != b.rtag.toNat) = true → exec (.hostRequestFailed h b) s = .next s)
  ∧ (∀ (s : State) (h : RidgeHdr) (b : HostBody) (p : RelayPend), ForMe s h → s.rdg.hostTags = [] → s.hst.relays = [p] →
      p.tag = b.rtag.toNat →
      s.hst.winWait = [] →
      ∃ t, exec (.hostRequestFailed h b) s = .next t ∧ t.hst = { s.hst with relays := [] }
        ∧ t.out = s.out ++ (if p.isRead then [.readReply 0xFFFFFFFF] else []) ∧ SameRegs s t eventRegs
      ∧ Untouched s t [.hst, .out, .evt, .regs])
  ∧ (∀ (s : State) (h : RidgeHdr) (b : HostBody) (x : HostTag) (r : HostRead) (c idx : Nat), ForMe s h → s.rdg.hostTags = [x] →
      x.tag = b.rtag.toNat → x.kind = 0 → x.use = some r → s.hst.reads = [r] → r.use = .data c idx →
      exec (.hostRequestFailed h b) s
        = .next ((({ s with rdg := { s.rdg with hostTags := [] }, hst := { s.hst with reads := [] } }.dropWork c idx).finish c idx
            (Cpl.of 0x45)).drainHost))
  ∧ (∀ (s : State) (tag : Nat), s.rdg.hostTags.all (fun t => t.tag != tag) = true → exec (.hostRelayTimeout tag) s = .next s)
  ∧ (∀ (s : State) (x : HostTag), s.rdg.hostTags = [x] → x.kind = 4 → x.resent = false → s.flag Reg.RDG_HEAD F.RDG_HEAD_VALID = true →
      ∃ t, exec (.hostRelayTimeout x.tag) s = .next t ∧ t.rdg = { s.rdg with hostTags := [{ x with resent := true }] }
        ∧ t.out = s.out ++ [.linkMsg (4 + (s.roleEntry s.headRole).link) 0x40 (s.headRole % 64 + 256 * s.role)
          (hostBody (s.roleEntry s.headRole).epoch x.tag 4 x.addr x.bytes.length x.bytes)]
        ∧ SameRegs s t [] ∧ Untouched s t [.rdg, .links, .out])
  ∧ (∀ (s : State) (x : HostTag), s.rdg.hostTags = [x] → x.kind = 4 → x.resent = true → x.use = none → x.client = none →
      s.rdg.hostHold = false →
      ∃ t, exec (.hostRelayTimeout x.tag) s = .next t ∧ t.rdg = { s.rdg with hostTags := [] } ∧ SameRegs s t [] ∧ Untouched s t [.rdg])

/-! ## Events and traces -/

/-- The event ring can take a record (R579). -/
def RingOpen (s : State) : Prop :=
  s.isOn 2 = true ∧ s.flag Reg.EVT_CFG F.EVT_CFG_EN = true ∧ s.flag Reg.EVT_STAT F.EVT_STAT_FAULT = false ∧ s.evtRoom ≠ 0
      ∧ s.getF Reg.EVT_CFG F.EVT_CFG_SIZE ≤ 10
  ∧ s.hst.linkUp = true ∧ s.flag Reg.EVT_CFG F.EVT_CFG_IRQ_EN = false

/-- Record `e` has been written at the tail of the event ring (R574, R579). -/
def RecordWritten (s t : State) (e : PendEvent) : Prop :=
  t.out = s.out ++ [.hostWrite (s.pair64 Reg.EVT_RBASE_LO Reg.EVT_RBASE_HI + 32 * s.getF Reg.EVT_RPOS F.EVT_RPOS_TAIL) (eventBytes s e)]
  ∧ t.getF Reg.EVT_RPOS F.EVT_RPOS_TAIL = (s.getF Reg.EVT_RPOS F.EVT_RPOS_TAIL + 1) % s.evtSize
  ∧ (t.reg Reg.EVT_CNT_REC).toNat = min ((s.reg Reg.EVT_CNT_REC).toNat + 1) 0xFFFFFFFF
  ∧ SameRegs s t [Reg.EVT_RPOS, Reg.EVT_CNT_REC, Reg.EVT_STAT] ∧ Untouched s t [.regs, .evt, .out]

/-- A trace record of KIND `kind` is captured and the FIFO has room for it (R582, R583). -/
def Captures (s : State) (kind : Nat) : Prop :=
  s.flag Reg.EVT_TRC F.EVT_TRC_RUN = true ∧ (s.getF Reg.EVT_TRC F.EVT_TRC_KINDS).testBit (kind - 1) = true
      ∧ s.evt.fifo.length < traceLimit kind

/-- R574 to R585: records of the event ring in their order, its fault, its interrupt timer and its registers; alarms cleared unless their
cause holds; the trace registers, MARK records and LINK records. What goes beyond the rules' words is the model's own (log entries 2, 33
and 107). -/
def Obligations.Events : Prop :=
  (∀ s : State, s.isOn 2 = false ∨ s.flag Reg.EVT_CFG F.EVT_CFG_EN = false ∨ s.flag Reg.EVT_STAT F.EVT_STAT_FAULT = true ∨ s.evtRoom = 0 →
      exec .eventRecordWrite s = .next s)
  ∧ (∀ s : State, RingOpen s → s.evt.faultRec = true →
      ∃ t, exec .eventRecordWrite s = .next t ∧ RecordWritten s t ⟨Ev.EVT_RING_FAULT, 0, 0, 0, false, false, 1, s.gen.vt, s.gen.vt⟩
        ∧ t.evt.faultRec = false ∧ t.evt.pend = s.evt.pend ∧ t.evt.lostCount = s.evt.lostCount)
  ∧ (∀ s : State, RingOpen s → s.evt.faultRec = false → s.evt.lostCount ≠ 0 →
      ∃ t, exec .eventRecordWrite s = .next t
        ∧ RecordWritten s t ⟨Ev.EVENTS_LOST, 0, s.evt.lostMask, 0, false, false, min s.evt.lostCount 0xFFFFFFFF, s.evt.lostFirst, s.evt.lostLast⟩
        ∧ t.evt.lostCount = 0 ∧ t.evt.lostMask = 0 ∧ t.evt.pend = s.evt.pend)
  ∧ (∀ (s : State) (p : PendEvent) (l : List PendEvent), RingOpen s → s.evt.faultRec = false → s.evt.lostCount = 0 → s.evt.pend = p :: l →
      p.first + holdOf s p ≤ s.gen.vt →
      ∃ t, exec .eventRecordWrite s = .next t ∧ RecordWritten s t p ∧ t.evt.pend = l)
  ∧ (∀ s : State, s.evt.faultRec = false → s.evt.lostCount = 0 → s.evt.pend = [] → exec .eventRecordWrite s = .next s)
  ∧ (∀ s : State, s.flag Reg.EVT_CFG F.EVT_CFG_EN = false → exec .evtRingFault s = .next s)
  ∧ (∀ s : State, s.flag Reg.EVT_CFG F.EVT_CFG_EN = true →
      ∃ t, exec .evtRingFault s = .next t ∧ t.flag Reg.EVT_STAT F.EVT_STAT_FAULT = true ∧ t.evt = { s.evt with faultRec := true }
        ∧ SameRegs s t [Reg.EVT_STAT] ∧ Untouched s t [.regs, .evt])
  ∧ (∀ s : State, s.evt.irqPend = 0 ∨ s.flag Reg.EVT_CFG F.EVT_CFG_IRQ_EN = false ∨ s.getF Reg.EVT_CFG F.EVT_CFG_TIME_US = 0 →
      exec .evtIrqTimer s = .next s)
  ∧ (∀ s : State, s.evt.irqPend ≠ 0 → s.flag Reg.EVT_CFG F.EVT_CFG_IRQ_EN = true → s.getF Reg.EVT_CFG F.EVT_CFG_TIME_US ≠ 0 →
      ∃ t, exec .evtIrqTimer s = .next t ∧ t.evt = { s.evt with irqPend := 0 }
        ∧ t.hst = (s.signal 256).hst ∧ t.out = (s.signal 256).out ∧ SameRegs s t [] ∧ Untouched s t [.evt, .hst, .rdg, .links, .out])
  ∧ (∀ (s : State) (v : Word) (n size : Nat), s.hostReaches = true → n = v.toNat % 65536 → size = s.evtSize →
      size ≤ n ∨ (s.getF Reg.EVT_RPOS F.EVT_RPOS_TAIL + size - s.getF Reg.EVT_RHEAD F.EVT_RHEAD_HEAD) % size
        < (n + size - s.getF Reg.EVT_RHEAD F.EVT_RHEAD_HEAD) % size →
      exec (.evtRheadWrite v) s = .next (s.event Ev.GBL_REJECT_WRITE []))
  ∧ (∀ (s : State) (v : Word) (n size : Nat), s.hostReaches = true → n = v.toNat % 65536 → size = s.evtSize → n < size →
      (n + size - s.getF Reg.EVT_RHEAD F.EVT_RHEAD_HEAD) % size
        ≤ (s.getF Reg.EVT_RPOS F.EVT_RPOS_TAIL + size - s.getF Reg.EVT_RHEAD F.EVT_RHEAD_HEAD) % size →
      ∃ t, exec (.evtRheadWrite v) s = .next t ∧ t.getF Reg.EVT_RHEAD F.EVT_RHEAD_HEAD = n
        ∧ SameRegs s t [Reg.EVT_RHEAD, Reg.EVT_STAT] ∧ Untouched s t [.regs])
  ∧ (∀ (s : State) (v : Word), s.hostReaches = true → fieldOf F.EVT_CFG_COUNT v = 0 ∨ 10 < fieldOf F.EVT_CFG_SIZE v
        ∨ (s.flag Reg.EVT_CFG F.EVT_CFG_EN = true ∧ fieldOf F.EVT_CFG_SIZE v ≠ s.getF Reg.EVT_CFG F.EVT_CFG_SIZE) →
      exec (.evtCfgWrite v) s = .next (s.event Ev.GBL_REJECT_WRITE []))
  ∧ (∀ (s : State) (v : Word), s.hostReaches = true → fieldOf F.EVT_CFG_COUNT v ≠ 0 → fieldOf F.EVT_CFG_SIZE v ≤ 10 →
      fieldOf F.EVT_CFG_EN v = 1 →
      s.flag Reg.EVT_CFG F.EVT_CFG_EN = false →
      ∃ t, exec (.evtCfgWrite v) s = .next t ∧ t.flag Reg.EVT_CFG F.EVT_CFG_EN = true
        ∧ t.getF Reg.EVT_CFG F.EVT_CFG_SIZE = fieldOf F.EVT_CFG_SIZE v ∧ t.reg Reg.EVT_RHEAD = 0 ∧ t.reg Reg.EVT_RPOS = 0
        ∧ t.flag Reg.EVT_STAT F.EVT_STAT_FAULT = false ∧ t.evt = { s.evt with pass := 0, irqPend := 0 }
        ∧ SameRegs s t [Reg.EVT_CFG, Reg.EVT_RHEAD, Reg.EVT_RPOS, Reg.EVT_STAT] ∧ Untouched s t [.regs, .evt])
  ∧ (∀ (s : State) (v : Word), s.hostReaches = true → fieldOf F.EVT_CFG_COUNT v ≠ 0 → fieldOf F.EVT_CFG_SIZE v ≤ 10 →
      s.flag Reg.EVT_CFG F.EVT_CFG_EN = true ∧ fieldOf F.EVT_CFG_SIZE v = s.getF Reg.EVT_CFG F.EVT_CFG_SIZE ∨ fieldOf F.EVT_CFG_EN v = 0
        ∧ s.flag Reg.EVT_CFG F.EVT_CFG_EN = false →
      ∃ t, exec (.evtCfgWrite v) s = .next t
        ∧ (∀ f ∈ [F.EVT_CFG_EN, F.EVT_CFG_SIZE, F.EVT_CFG_COUNT, F.EVT_CFG_TIME_US, F.EVT_CFG_IRQ_EN], t.getF Reg.EVT_CFG f = fieldOf f v)
        ∧ SameRegs s t [Reg.EVT_CFG] ∧ Untouched s t [.regs])
  ∧ (∀ (s : State) (hi : Bool) (v : Word) (off base : Nat), s.hostReaches = true →
      (off, base) = (if hi then (Reg.EVT_ALM_PEND_HI, 32) else (Reg.EVT_ALM_PEND_LO, 0)) →
      ∃ t, exec (.evtAlmPendClear hi v) s = .next t
        ∧ (∀ i, i < 32 → (t.reg off).toNat.testBit i
          = ((s.reg off).toNat.testBit i && !(v.toNat.testBit i && !s.causeHolds (base + i))))
        ∧ (∀ i, i < 32 → v.toNat.testBit i = true → s.causeHolds (base + i) = false →
            t.getF (Reg.EVT_ALM_CODE (base + i)) F.EVT_ALM_CODE_COUNT = 0)
        ∧ SameRegs s t (off :: (List.range 32).map (fun i => Reg.EVT_ALM_CODE (base + i))) ∧ Untouched s t [.regs, .out])
  ∧ (∀ (s : State) (v : Word), s.hostReaches = true → fieldOf F.EVT_TRC_RUN v = 1 → s.getF Reg.BNK_ALLOC F.BNK_ALLOC_TRACE = 0 →
      exec (.evtTrcWrite v) s = .next (s.event Ev.GBL_REJECT_WRITE []))
  ∧ (∀ (s : State) (v : Word), s.hostReaches = true → fieldOf F.EVT_TRC_RUN v = 1 → s.getF Reg.BNK_ALLOC F.BNK_ALLOC_TRACE ≠ 0 →
      s.flag Reg.EVT_TRC F.EVT_TRC_RUN = false →
      ∃ t, exec (.evtTrcWrite v) s = .next t ∧ t.flag Reg.EVT_TRC F.EVT_TRC_RUN = true
        ∧ t.getF Reg.EVT_TRC F.EVT_TRC_KINDS = fieldOf F.EVT_TRC_KINDS v ∧ t.reg Reg.EVT_TRC_POS = 0
        ∧ t.evt = { s.evt with fifo := [], post := none } ∧ SameRegs s t [Reg.EVT_TRC, Reg.EVT_TRC_POS] ∧ Untouched s t [.regs, .evt])
  ∧ (∀ (s : State) (v : Word), s.hostReaches = true → fieldOf F.EVT_TRC_RUN v = 0 → s.flag Reg.EVT_TRC F.EVT_TRC_RUN = true →
      s.evt.fifo = [] →
      ∃ t, exec (.evtTrcWrite v) s = .next t ∧ t.flag Reg.EVT_TRC F.EVT_TRC_RUN = false ∧ SameRegs s t [Reg.EVT_TRC]
      ∧ Untouched s t [.regs, .evt])
  ∧ (∀ (s : State) (v : Word), s.hostReaches = true → Captures s 6 →
      ∃ t, exec (.evtTrcMark v) s = .next t
        ∧ t.evt = { s.evt with seq := (s.evt.seq + 1) % 65536, fifo := s.evt.fifo ++ [traceRecord s 6 (leBytes 4 v.toNat)] }
        ∧ SameRegs s t [] ∧ Untouched s t [.evt])
  ∧ (∀ (s : State) (v : Word), s.flag Reg.EVT_TRC F.EVT_TRC_RUN = false ∨ (s.getF Reg.EVT_TRC F.EVT_TRC_KINDS).testBit 5 = false →
      exec (.evtTrcMark v) s = .next s)
  ∧ (∀ (s : State) (v : Word), s.hostReaches = true → s.flag Reg.EVT_TRC F.EVT_TRC_RUN = true →
      (s.getF Reg.EVT_TRC F.EVT_TRC_KINDS).testBit 5 = true →
      256 ≤ s.evt.fifo.length →
      ∃ t, exec (.evtTrcMark v) s = .next t ∧ (t.reg Reg.EVT_TRC_DROP).toNat = min ((s.reg Reg.EVT_TRC_DROP).toNat + 1) 0xFFFFFFFF
        ∧ t.evt = { s.evt with seq := (s.evt.seq + 1) % 65536 } ∧ SameRegs s t [Reg.EVT_TRC_DROP] ∧ Untouched s t [.regs, .evt])
  ∧ (∀ s : State, (∀ q, q < 8 → s.lkState q ≠ 5) → exec .traceLinkTick s = .next s)
  ∧ (∀ (s : State) (q : Nat), q < 8 → s.lkState q = 5 → (∀ p, p < 8 → p ≠ q → s.lkState p ≠ 5) → Captures s 4 →
      ∃ t, exec .traceLinkTick s = .next t ∧ (t.link q).traced = s.linkCounts q ∧ (∀ p, p < 8 → p ≠ q → t.link p = s.link p)
        ∧ t.evt.fifo = s.evt.fifo ++ [traceRecord s 4 ([BitVec.ofNat 8 (q / 4), BitVec.ofNat 8 (q % 4)]
          ++ leBytes 2 (rise ((s.linkCounts q).getD 0 0) ((s.link q).traced.getD 0 0))
          ++ leBytes 2 (rise ((s.linkCounts q).getD 1 0) ((s.link q).traced.getD 1 0))
          ++ leBytes 2 (rise ((s.linkCounts q).getD 2 0) ((s.link q).traced.getD 2 0))
          ++ leBytes 4 (rise ((s.linkCounts q).getD 3 0) ((s.link q).traced.getD 3 0))
          ++ leBytes 2 (s.getF (lkLlcr q) F.RAF_LLCR_RX_FILL) ++ leBytes 2 0)]
        ∧ SameRegs s t [] ∧ Untouched s t [.links, .evt])

/-! ## The window port and JTAG -/

/-- The window port takes an access at once: the access reaches the device, and the port holds none and is not full (R595, R597). -/
def Takes (s : State) : Prop := s.hostReaches = true ∧ s.win.held = [] ∧ s.win.journal.length < 983296

/-- The offsets in BAR4 that take data (R591, R594). -/
def DataAt (off : Nat) : Prop := off = 0x18 ∨ 0x8000 ≤ off

/-- The port takes writes: no transaction is Open or Failed (R598). -/
def Accepts (s : State) : Prop := Takes s ∧ s.stg.txns = []

/-- R587 to R600, R13: what the window port does with a write of each of its words, with a read, and with its journal; and the test access
port. What goes beyond the rules' words is the model's own (log entries 17, 48, 70 and 71). -/
def Obligations.WindowAndJtag : Prop :=
  (∀ (s : State) (i : Instr) (off : Nat) (k : Fin 4) (v : Word), i ∈ [Instr.wpPtrXWrite 0 v, .wpPtrYWrite 0 v, .wpDataWrite off 0 v, .wpWindowWrite k 0 v] →
      Takes s → exec i s = .next s)
  ∧ (∀ (s : State) (i : Instr) (off : Nat) (k : Fin 4) (be : BitVec 4) (v : Word),
      i ∈ [Instr.wpPtrXWrite be v, .wpPtrYWrite be v, .wpDataWrite off be v, .wpWindowWrite k be v, .wpDataRead] → s.hostReaches = false →
      s.win.held = [] → s.win.journal.length < 983296 → exec i s = .next s)
  ∧ (∀ (s : State) (i : Instr) (a : Option (Nat × Nat × Word)) (off : Nat) (k : Fin 4) (be : BitVec 4) (v : Word),
      (i, a) ∈ [(Instr.wpPtrXWrite be v, some (0x10, be.toNat, v)), (.wpPtrYWrite be v, some (0x14, be.toNat, v)),
        (.wpDataWrite off be v, some (off, be.toNat, v)), (.wpWindowWrite k be v, some (0x20 + 4 * k.val, be.toNat, v)), (.wpDataRead, none)] →
      983296 ≤ s.win.journal.length ∨ s.win.held ≠ [] → exec i s = .next { s with win := { s.win with held := s.win.held ++ [a] } })
  ∧ (∀ (s : State) (off : Nat) (v : Word), Takes s → off < 8 → exec (.wpDataWrite off 15 v) s = .next (s.bump Reg.WIN_CNT_DROP 1))
  ∧ (∀ (s : State) (off : Nat) (v : Word), Takes s → 8 ≤ off → off < 0x8000 → off ∉ [0x10, 0x14, 0x18] → off < 0x20 ∨ 0x30 ≤ off →
      exec (.wpDataWrite off 15 v) s = .next ((s.bump Reg.WIN_CNT_DROP 1).event Ev.HST_UNMAPPED []))
  ∧ (∀ (s : State) (off : Nat), (off ∈ [8, 12, 0x1C] ∨ 0x30 ≤ off) → s.winWord 0 = 0x22126418 ∧ s.winWord 0x10 = word s.win.x
      ∧ s.winWord 0x14 = word (s.win.y + 4096 * s.win.c) ∧ s.winWord 0x20 = word s.win.wx0 ∧ s.winWord 0x24 = word s.win.wy0
      ∧ s.winWord 0x28 = word s.win.ww ∧ s.winWord 0x2C = word s.win.wh ∧ s.winWord off = 0)
  ∧ (∀ (s : State) (i : Instr) (n off : Nat) (k : Fin 4) (be : BitVec 4) (v : Word),
      (i, n) ∈ [(Instr.wpPtrXWrite be v, 0x10), (.wpPtrYWrite be v, 0x14), (.wpDataWrite off be v, off), (.wpWindowWrite k be v, 0x20 + 4 * k.val)] →
      Takes s → be ≠ 0 → be ≠ 15 → exec i s = .next ((s.bump Reg.WIN_CNT_DROP 1).event Ev.WIN_PARTIAL [(32, n)]))
  ∧ (∀ (s : State) (i : Instr) (off : Nat) (k : Fin 4) (v : Word) (x : Txn) (l : List Txn),
      i ∈ [Instr.wpPtrXWrite 15 v, .wpPtrYWrite 15 v, .wpDataWrite off 15 v, .wpWindowWrite k 15 v] → Takes s → DataAt off →
      s.stg.txns = x :: l →
      ∃ t, exec i s = .next t ∧ (t.reg Reg.WIN_CNT_REFUSED).toNat = min ((s.reg Reg.WIN_CNT_REFUSED).toNat + 1) 0xFFFFFFFF
        ∧ t.flag Reg.WIN_STAT F.WIN_STAT_REFUSE = true ∧ t.win = { s.win with refused := true }
        ∧ (s.win.refused = true → t.evt = s.evt)
        ∧ SameRegs s t ([Reg.WIN_CNT_REFUSED, Reg.WIN_STAT] ++ eventRegs) ∧ Untouched s t [.regs, .win, .evt])
  ∧ (∀ (s : State) (v : Word), Accepts s →
      ∃ t, exec (.wpPtrXWrite 15 v) s = .next t ∧ t.win = { s.win with refused := false, shadow := v.toNat % 4096, armed := true }
        ∧ SameRegs s t [Reg.WIN_STAT] ∧ Untouched s t [.regs, .win])
  ∧ (∀ (s : State) (v : Word), Accepts s → s.win.armed = false →
      ∃ t, exec (.wpPtrYWrite 15 v) s = .next t ∧ t.win = { s.win with refused := false }
        ∧ (t.reg Reg.WIN_CNT_DROP).toNat = min ((s.reg Reg.WIN_CNT_DROP).toNat + 1) 0xFFFFFFFF
        ∧ SameRegs s t ([Reg.WIN_STAT, Reg.WIN_CNT_DROP] ++ eventRegs) ∧ Untouched s t [.regs, .win, .evt])
  ∧ (∀ (s : State) (v : Word) (x y : Nat), Accepts s → s.win.armed = true → x = s.win.shadow → y = v.toNat % 2048 →
      1 ≤ s.win.ww → 1 ≤ s.win.wh → s.win.wx0 + s.win.ww ≤ s.width → s.win.wy0 + s.win.wh ≤ s.height →
      s.win.wx0 ≤ x → x < s.win.wx0 + s.win.ww → s.win.wy0 ≤ y → y < s.win.wy0 + s.win.wh →
      ∃ t, exec (.wpPtrYWrite 15 v) s = .next t
        ∧ t.win = { s.win with refused := false, x := x, y := y, c := 0, armed := false, wrapped := false, stale := true, valid := true }
        ∧ SameRegs s t [Reg.WIN_STAT] ∧ Untouched s t [.regs, .win])
  ∧ (∀ (s : State) (v : Word), Accepts s → s.win.armed = true → s.ptrOk s.win.shadow (v.toNat % 2048) = false →
      ∃ t, exec (.wpPtrYWrite 15 v) s = .next t ∧ t.win = { s.win with refused := false, armed := false, valid := false }
        ∧ SameRegs s t (Reg.WIN_STAT :: eventRegs) ∧ Untouched s t [.regs, .win, .evt])
  ∧ (∀ (s : State) (k : Fin 4) (v : Word) (w : WinState), Accepts s →
      w = { s.win with refused := false, valid := false, armed := false, stale := true } →
      ∃ t, exec (.wpWindowWrite k 15 v) s = .next t
        ∧ t.win = ([{ w with wx0 := v.toNat % 4096 }, { w with wy0 := v.toNat % 2048 }, { w with ww := v.toNat % 8192 },
            { w with wh := v.toNat % 2048 }] : List WinState).getD k w
        ∧ SameRegs s t [Reg.WIN_STAT] ∧ Untouched s t [.regs, .win])
  ∧ (∀ (s : State) (off : Nat) (v : Word), Accepts s → DataAt off → s.winEnabled = false ∨ s.isReady 17 = false →
      ∃ t, exec (.wpDataWrite off 15 v) s = .next t ∧ t.win = { s.win with refused := false, disabled := true }
        ∧ (t.reg Reg.WIN_CNT_DROP).toNat = min ((s.reg Reg.WIN_CNT_DROP).toNat + 1) 0xFFFFFFFF
        ∧ SameRegs s t ([Reg.WIN_STAT, Reg.WIN_CNT_DROP] ++ eventRegs) ∧ Untouched s t [.regs, .win, .evt])
  ∧ (∀ (s : State) (off : Nat) (v : Word), Accepts s → DataAt off → s.winEnabled = true → s.isReady 17 = true → s.win.valid = false →
      ∃ t, exec (.wpDataWrite off 15 v) s = .next t ∧ t.win = { s.win with refused := false, disabled := false }
        ∧ (t.reg Reg.WIN_CNT_DROP).toNat = min ((s.reg Reg.WIN_CNT_DROP).toNat + 1) 0xFFFFFFFF
        ∧ SameRegs s t ([Reg.WIN_STAT, Reg.WIN_CNT_DROP] ++ eventRegs) ∧ Untouched s t [.regs, .win, .evt])
  ∧ (∀ (s : State) (off : Nat) (v : Word) (w a b : WinState), Accepts s → DataAt off → s.winEnabled = true → s.isReady 17 = true →
      s.win.valid = true → w = { s.win with refused := false, disabled := false } → a = w.advance → b = a.advance →
      ∃ t, exec (.wpDataWrite off 15 v) s = .next t
        ∧ t.win = { b with journal := w.journal ++ [⟨w.x, w.y, w.c, replicate12 (v.toNat % 4096), a.x, a.y, a.c,
            replicate12 (v.toNat / 65536 % 4096)⟩], stale := true }
        ∧ (t.reg Reg.WIN_CNT_ACC).toNat = min ((s.reg Reg.WIN_CNT_ACC).toNat + 1) 0xFFFFFFFF
        ∧ SameRegs s t [Reg.WIN_STAT, Reg.WIN_CNT_ACC] ∧ Untouched s t [.regs, .win])
  ∧ (∀ s : State, Takes s → s.winEnabled = false → exec .wpDataRead s = .next (s.emit (.readReply 0xFFFFFFFF)))
  ∧ (∀ s : State, Takes s → s.winEnabled = true →
      ∃ t, exec .wpDataRead s = .next t ∧ t.out = s.out ++ [.readReply (word (s.win.latchA + 65536 * s.win.latchB))] ∧ t.win.stale = false
        ∧ (s.win.stale = true → t.win.x = s.win.x ∧ t.win.y = s.win.y ∧ t.win.c = s.win.c)
        ∧ (s.win.stale = false → t.win.x = s.win.advance.advance.x ∧ t.win.y = s.win.advance.advance.y ∧ t.win.c = s.win.advance.advance.c)
        ∧ t.win.journal = s.win.journal ∧ SameRegs s t [] ∧ Untouched s t [.win, .out, .freeN])
  ∧ (∀ s : State, s.win.journal = [] ∨ s.flag Reg.WIN_STAT F.WIN_STAT_OPEN = false ∨ s.step2Stops = true → exec .journalApply s = .next s)
  ∧ (∀ (s : State) (e : WinWrite) (l : List WinWrite), s.win.journal = e :: l → s.flag Reg.WIN_STAT F.WIN_STAT_OPEN = true →
      s.step2Stops = false →
      s.win.held = [] →
      ∃ t, exec .journalApply s = .next t ∧ t.win.journal = l ∧ t.win.x = s.win.x ∧ t.win.y = s.win.y ∧ t.win.valid = s.win.valid
        ∧ t.fst = ((s.overlayPut e.xa e.ya e.ca e.va).overlayPut e.xb e.yb e.cb e.vb).fst
        ∧ t.win.written = ((s.overlayPut e.xa e.ya e.ca e.va).overlayPut e.xb e.yb e.cb e.vb).win.written
        ∧ SameRegs s t [Reg.WIN_STAT] ∧ Untouched s t [.regs, .win, .fst])
  ∧ (∀ (s : State) (e : JtagEdge), s.rst.off = true → exec (.jtagTckEdge e) s = .next s)
  ∧ (∀ s : State, s.rst.off = false →
      ∃ t, exec (.jtagTckEdge .trst) s = .next t ∧ t.jtag = { s.jtag with tap := .testLogicReset, reg := .idcode }
        ∧ t.out = s.out ++ (if s.jtag.reg = .extest then [.boundary none] else []) ∧ SameRegs s t [] ∧ Untouched s t [.jtag, .out])
  ∧ (∀ (s : State) (tms tdi : Bool), s.rst.off = false →
      ∃ t, exec (.jtagTckEdge (.tck tms tdi)) s = .next t ∧ t.jtag.tap = s.jtag.tap.next tms
        ∧ (t.jtag.tap = .testLogicReset → t.jtag.reg = .idcode)
        ∧ (s.jtag.tap = .shiftDr → t.jtag.drShift = s.jtag.drShift.drop 1 ++ [tdi])
        ∧ (s.jtag.tap = .shiftIr → t.jtag.irShift = s.jtag.irShift.drop 1 ++ [tdi])
        ∧ (t.jtag.tap = .shiftDr → t.out = s.out ++ [.tdo (t.jtag.drShift.headD false)])
        ∧ (t.jtag.tap = .shiftIr → t.out = s.out ++ [.tdo (t.jtag.irShift.headD false)])
        ∧ (t.jtag.tap = .updateIr → t.jtag.reg = selectReg t.jtag.irShift)
        ∧ (t.jtag.tap = .updateIr → t.jtag.reg = .extest → .boundary (some s.jtag.cells) ∈ t.out)
        ∧ (t.jtag.tap = .updateDr → s.jtag.reg = .extest → t.jtag.cells = t.jtag.drShift ∧ .boundary (some t.jtag.cells) ∈ t.out)
        ∧ (s.jtag.tap = .captureDr → s.jtag.reg = .bypass → t.jtag.drShift = [false])
        ∧ (s.jtag.tap = .captureDr → s.jtag.reg = .idcode → t.jtag.drShift = bitList Config.idcode.toNat 32)
        ∧ SameRegs s t [] ∧ Untouched s t [.jtag, .out, .freeN])
end

