-- ==== Sys2Proof/Laws/AMap.lean ====
section
/-! SUPPORT. Laws of sparse maps: look-up after an update, and the canonical form kept. -/

namespace Sys2Proof.Machine

variable {α : Type}

theorem aget_aerase_ne (d : Nat → α) (m : AMap α) {k j : Nat} (h : j ≠ k) : aget d (aerase m k) j = aget d m j := by
  induction m with
  | nil => rfl
  | cons e t ih =>
    obtain ⟨i, v⟩ := e
    by_cases hk : k = i
    · subst hk; simp [aerase, aget, ih, h]
    · simp only [aerase, hk, if_false, aget, ih]

theorem aget_aerase_same (d : Nat → α) (m : AMap α) (k : Nat) : aget d (aerase m k) k = d k := by
  induction m with
  | nil => rfl
  | cons e t ih =>
    obtain ⟨i, v⟩ := e
    by_cases hk : k = i
    · subst hk; simpa [aerase] using ih
    · simp only [aerase, hk, if_false, aget, ih]

theorem aget_ainsert_ne (d : Nat → α) (m : AMap α) {k j : Nat} (v : α) (h : j ≠ k) :
    aget d (ainsert m k v) j = aget d m j := by
  induction m with
  | nil => simp [ainsert, aget, h]
  | cons e t ih =>
    obtain ⟨i, w⟩ := e
    by_cases hk : k < i
    · simp [ainsert, hk, aget, h]
    · simp only [ainsert, hk, if_false, aget, ih]

theorem mem_aerase_ne {m : AMap α} {k : Nat} {e : Nat × α} (h : e ∈ aerase m k) : e.1 ≠ k := by
  induction m with
  | nil => simp [aerase] at h
  | cons f t ih =>
    obtain ⟨i, v⟩ := f
    by_cases hk : k = i
    · simp only [aerase, hk, if_true] at h ih; exact hk ▸ ih h
    · simp only [aerase, hk, if_false, List.mem_cons] at h
      rcases h with rfl | h
      · exact Ne.symm hk
      · exact ih h

theorem aget_ainsert_same (d : Nat → α) (m : AMap α) (k : Nat) (v : α) (h : ∀ e ∈ m, e.1 ≠ k) :
    aget d (ainsert m k v) k = v := by
  induction m with
  | nil => simp [ainsert, aget]
  | cons e t ih =>
    obtain ⟨i, w⟩ := e
    have hi : i ≠ k := h (i, w) (by simp)
    by_cases hk : k < i
    · simp [ainsert, hk, aget]
    · simp only [ainsert, hk, if_false, aget, Ne.symm hi]
      exact ih (fun e he => h e (by simp [he]))

/-- Look-up after an update. -/
theorem aget_aset [DecidableEq α] (d : Nat → α) (m : AMap α) (k j : Nat) (v : α) :
    aget d (aset d m k v) j = if j = k then v else aget d m j := by
  unfold aset
  by_cases hj : j = k
  · subst hj
    by_cases hv : v = d j
    · simp [hv, aget_aerase_same]
    · simp only [hv, if_false, if_true]
      exact aget_ainsert_same d _ _ _ (fun e he => mem_aerase_ne he)
  · by_cases hv : v = d k
    · simp [hv, hj, aget_aerase_ne]
    · simp [hv, hj, aget_ainsert_ne, aget_aerase_ne]

theorem arising_mono {lo lo' : Nat} {m : AMap α} (h : arising lo m = true) (hl : lo' ≤ lo) : arising lo' m = true := by
  cases m with
  | nil => rfl
  | cons e t =>
    obtain ⟨i, v⟩ := e
    simp only [arising, Bool.and_eq_true, decide_eq_true_eq] at h ⊢
    exact ⟨Nat.le_trans hl h.1, h.2⟩

theorem arising_aerase {lo k : Nat} {m : AMap α} (h : arising lo m = true) : arising lo (aerase m k) = true := by
  induction m generalizing lo with
  | nil => rfl
  | cons e t ih =>
    obtain ⟨i, v⟩ := e
    simp only [arising, Bool.and_eq_true, decide_eq_true_eq] at h
    by_cases hk : k = i
    · subst hk; simp only [aerase, if_true]; exact arising_mono (ih h.2) (Nat.le_succ_of_le h.1)
    · simp only [aerase, hk, if_false, arising, Bool.and_eq_true, decide_eq_true_eq]
      exact ⟨h.1, ih h.2⟩

theorem arising_ainsert {lo k : Nat} {m : AMap α} {v : α} (h : arising lo m = true) (hl : lo ≤ k)
    (hn : ∀ e ∈ m, e.1 ≠ k) : arising lo (ainsert m k v) = true := by
  induction m generalizing lo with
  | nil => simpa [ainsert, arising] using hl
  | cons e t ih =>
    obtain ⟨i, w⟩ := e
    have hi : i ≠ k := hn (i, w) (by simp)
    simp only [arising, Bool.and_eq_true, decide_eq_true_eq] at h
    by_cases hk : k < i
    · simp only [ainsert, hk, if_true, arising, Bool.and_eq_true, decide_eq_true_eq]
      exact ⟨hl, hk, h.2⟩
    · simp only [ainsert, hk, if_false, arising, Bool.and_eq_true, decide_eq_true_eq]
      exact ⟨h.1, ih h.2 (by omega) (fun e he => hn e (by simp [he]))⟩

theorem arising_filter {lo : Nat} {m : AMap α} (p : Nat × α → Bool) (h : arising lo m = true) :
    arising lo (m.filter p) = true := by
  induction m generalizing lo with
  | nil => rfl
  | cons e t ih =>
    obtain ⟨i, v⟩ := e
    simp only [arising, Bool.and_eq_true, decide_eq_true_eq] at h
    by_cases hp : p (i, v) = true
    · simp only [List.filter_cons, hp, if_true, arising, Bool.and_eq_true, decide_eq_true_eq]
      exact ⟨h.1, ih h.2⟩
    · simp only [List.filter_cons, hp]
      exact arising_mono (ih h.2) (Nat.le_succ_of_le h.1)

theorem mem_aerase {m : AMap α} {k : Nat} {e : Nat × α} (h : e ∈ aerase m k) : e ∈ m := by
  induction m with
  | nil => simp [aerase] at h
  | cons f t ih =>
    obtain ⟨i, v⟩ := f
    by_cases hk : k = i
    · simp only [aerase, hk, if_true] at h ih; exact List.mem_cons_of_mem _ (ih h)
    · simp only [aerase, hk, if_false, List.mem_cons] at h
      rcases h with rfl | h
      · simp
      · exact List.mem_cons_of_mem _ (ih h)

theorem mem_ainsert {m : AMap α} {k : Nat} {v : α} {e : Nat × α} (h : e ∈ ainsert m k v) : e = (k, v) ∨ e ∈ m := by
  induction m with
  | nil => simpa [ainsert] using h
  | cons f t ih =>
    obtain ⟨i, w⟩ := f
    by_cases hk : k < i
    · simpa [ainsert, hk] using h
    · simp only [ainsert, hk, if_false, List.mem_cons] at h
      rcases h with rfl | h
      · simp
      · rcases ih h with h | h
        · exact Or.inl h
        · exact Or.inr (List.mem_cons_of_mem _ h)

/-- An update keeps the canonical form. -/
theorem awf_aset [DecidableEq α] (d : Nat → α) (m : AMap α) (k : Nat) (v : α) (h : awf d m = true) :
    awf d (aset d m k v) = true := by
  simp only [awf, Bool.and_eq_true, List.all_eq_true, decide_eq_true_eq] at h ⊢
  unfold aset
  by_cases hv : v = d k
  · simp only [hv, if_true]
    exact ⟨arising_aerase h.1, fun e he => h.2 e (mem_aerase he)⟩
  · simp only [hv, if_false]
    refine ⟨arising_ainsert (arising_aerase h.1) (Nat.zero_le _) (fun e he => mem_aerase_ne he), fun e he => ?_⟩
    rcases mem_ainsert he with rfl | he
    · exact hv
    · exact h.2 e (mem_aerase he)

/-- Leaving entries out keeps the canonical form. -/
theorem awf_filter [DecidableEq α] (d : Nat → α) (m : AMap α) (p : Nat × α → Bool) (h : awf d m = true) :
    awf d (m.filter p) = true := by
  simp only [awf, Bool.and_eq_true, List.all_eq_true, decide_eq_true_eq] at h ⊢
  exact ⟨arising_filter p h.1, fun e he => h.2 e (List.mem_filter.mp he).1⟩

end Sys2Proof.Machine
end

