-- ==== Sys2Proof/Laws/Reach.lean ====
section
/-! SUPPORT. How far each function reaches: the areas of the state that it leaves alone, function by function. -/

namespace Sys2Proof.Machine

set_option Elab.async false

/-- The state with every area that `m` names wiped: two states with the same cut agree on every other area. -/
def State.cut (m : Area → Bool) (s : State) : State where
  part := if m .part then .ba else s.part
  regs := if m .regs then [] else s.regs
  rst := if m .rst then .init else s.rst
  pwr := if m .pwr then .init else s.pwr
  hst := if m .hst then .init else s.hst
  stg := if m .stg then .init else s.stg
  tabs := if m .tabs then [] else s.tabs
  evt := if m .evt then .init else s.evt
  gen := if m .gen then .init else s.gen
  rdg := if m .rdg then .init else s.rdg
  fst := if m .fst then .init else s.fst
  links := if m .links then [] else s.links
  thm := if m .thm then .init else s.thm
  drv := if m .drv then [] else s.drv
  pipe := if m .pipe then .init else s.pipe
  cal := if m .cal then .init else s.cal
  pnl := if m .pnl then .init else s.pnl
  hrt := if m .hrt then .init else s.hrt
  bnk := if m .bnk then .init else s.bnk
  win := if m .win then .init else s.win
  mag := if m .mag then .init else s.mag
  thc := if m .thc then .init else s.thc
  tmk := { (if m .tmk then .init else s.tmk) with
    relays := if m .relay then [] else s.tmk.relays
    relayResp := if m .relay then none else s.tmk.relayResp }
  jtag := if m .jtag then .init else s.jtag
  fmask := if m .fmask then 0 else s.fmask
  aon := if m .aon then 0 else s.aon
  freeN := if m .freeN then 0 else s.freeN
  fsEpoch := if m .fsEpoch then 0 else s.fsEpoch
  out := if m .out then [] else s.out
  pending := if m .pending then [] else s.pending

/-- The cut of the state that a command answers. -/
def outCut (m : Area → Bool) : Res → Option State
  | .next t => some (t.cut m)
  | _ => none

theorem outCut_next (m : Area → Bool) (t : State) : outCut m (.next t) = some (t.cut m) := rfl

theorem foldl_cut {α : Type} {m : Area → Bool} (g : State → α → State) (s : State) (l : List α)
    (h : ∀ s x, (g s x).cut m = s.cut m) : (l.foldl g s).cut m = s.cut m := by
  induction l generalizing s with
  | nil => rfl
  | cons x t ih => exact (ih (g s x)).trans (h s x)

theorem foldl_part_cut {α β : Type} {m : Area → Bool} (pr : β → State) (g : β → α → β) (b : β) (l : List α)
    (h : ∀ b x, (pr (g b x)).cut m = (pr b).cut m) : (pr (l.foldl g b)).cut m = (pr b).cut m := by
  induction l generalizing b with
  | nil => rfl
  | cons x t ih => exact (ih (g b x)).trans (h b x)

theorem cut_part {m : Area → Bool} (s : State) (x) (h : m .part = true) : ({ s with part := x } : State).cut m = s.cut m := by
  simp only [State.cut, h, if_true]

theorem cut_regs {m : Area → Bool} (s : State) (x) (h : m .regs = true) : ({ s with regs := x } : State).cut m = s.cut m := by
  simp only [State.cut, h, if_true]

theorem cut_rst {m : Area → Bool} (s : State) (x) (h : m .rst = true) : ({ s with rst := x } : State).cut m = s.cut m := by
  simp only [State.cut, h, if_true]

theorem cut_pwr {m : Area → Bool} (s : State) (x) (h : m .pwr = true) : ({ s with pwr := x } : State).cut m = s.cut m := by
  simp only [State.cut, h, if_true]

theorem cut_hst {m : Area → Bool} (s : State) (x) (h : m .hst = true) : ({ s with hst := x } : State).cut m = s.cut m := by
  simp only [State.cut, h, if_true]

theorem cut_stg {m : Area → Bool} (s : State) (x) (h : m .stg = true) : ({ s with stg := x } : State).cut m = s.cut m := by
  simp only [State.cut, h, if_true]

theorem cut_tabs {m : Area → Bool} (s : State) (x) (h : m .tabs = true) : ({ s with tabs := x } : State).cut m = s.cut m := by
  simp only [State.cut, h, if_true]

theorem cut_evt {m : Area → Bool} (s : State) (x) (h : m .evt = true) : ({ s with evt := x } : State).cut m = s.cut m := by
  simp only [State.cut, h, if_true]

theorem cut_gen {m : Area → Bool} (s : State) (x) (h : m .gen = true) : ({ s with gen := x } : State).cut m = s.cut m := by
  simp only [State.cut, h, if_true]

theorem cut_rdg {m : Area → Bool} (s : State) (x) (h : m .rdg = true) : ({ s with rdg := x } : State).cut m = s.cut m := by
  simp only [State.cut, h, if_true]

theorem cut_fst {m : Area → Bool} (s : State) (x) (h : m .fst = true) : ({ s with fst := x } : State).cut m = s.cut m := by
  simp only [State.cut, h, if_true]

theorem cut_links {m : Area → Bool} (s : State) (x) (h : m .links = true) : ({ s with links := x } : State).cut m = s.cut m := by
  simp only [State.cut, h, if_true]

theorem cut_thm {m : Area → Bool} (s : State) (x) (h : m .thm = true) : ({ s with thm := x } : State).cut m = s.cut m := by
  simp only [State.cut, h, if_true]

theorem cut_drv {m : Area → Bool} (s : State) (x) (h : m .drv = true) : ({ s with drv := x } : State).cut m = s.cut m := by
  simp only [State.cut, h, if_true]

theorem cut_pipe {m : Area → Bool} (s : State) (x) (h : m .pipe = true) : ({ s with pipe := x } : State).cut m = s.cut m := by
  simp only [State.cut, h, if_true]

theorem cut_cal {m : Area → Bool} (s : State) (x) (h : m .cal = true) : ({ s with cal := x } : State).cut m = s.cut m := by
  simp only [State.cut, h, if_true]

theorem cut_pnl {m : Area → Bool} (s : State) (x) (h : m .pnl = true) : ({ s with pnl := x } : State).cut m = s.cut m := by
  simp only [State.cut, h, if_true]

theorem cut_hrt {m : Area → Bool} (s : State) (x) (h : m .hrt = true) : ({ s with hrt := x } : State).cut m = s.cut m := by
  simp only [State.cut, h, if_true]

theorem cut_bnk {m : Area → Bool} (s : State) (x) (h : m .bnk = true) : ({ s with bnk := x } : State).cut m = s.cut m := by
  simp only [State.cut, h, if_true]

theorem cut_win {m : Area → Bool} (s : State) (x) (h : m .win = true) : ({ s with win := x } : State).cut m = s.cut m := by
  simp only [State.cut, h, if_true]

theorem cut_mag {m : Area → Bool} (s : State) (x) (h : m .mag = true) : ({ s with mag := x } : State).cut m = s.cut m := by
  simp only [State.cut, h, if_true]

theorem cut_thc {m : Area → Bool} (s : State) (x) (h : m .thc = true) : ({ s with thc := x } : State).cut m = s.cut m := by
  simp only [State.cut, h, if_true]

theorem cut_jtag {m : Area → Bool} (s : State) (x) (h : m .jtag = true) : ({ s with jtag := x } : State).cut m = s.cut m := by
  simp only [State.cut, h, if_true]

theorem cut_fmask {m : Area → Bool} (s : State) (x) (h : m .fmask = true) : ({ s with fmask := x } : State).cut m = s.cut m := by
  simp only [State.cut, h, if_true]

theorem cut_aon {m : Area → Bool} (s : State) (x) (h : m .aon = true) : ({ s with aon := x } : State).cut m = s.cut m := by
  simp only [State.cut, h, if_true]

theorem cut_freeN {m : Area → Bool} (s : State) (x) (h : m .freeN = true) : ({ s with freeN := x } : State).cut m = s.cut m := by
  simp only [State.cut, h, if_true]

theorem cut_fsEpoch {m : Area → Bool} (s : State) (x) (h : m .fsEpoch = true) : ({ s with fsEpoch := x } : State).cut m = s.cut m := by
  simp only [State.cut, h, if_true]

theorem cut_out {m : Area → Bool} (s : State) (x) (h : m .out = true) : ({ s with out := x } : State).cut m = s.cut m := by
  simp only [State.cut, h, if_true]

theorem cut_pending {m : Area → Bool} (s : State) (x) (h : m .pending = true) : ({ s with pending := x } : State).cut m = s.cut m := by
  simp only [State.cut, h, if_true]

theorem State.setReg_cut {m : Area → Bool} (s : State) (off : ℕ) (v : Word) (m_regs : m .regs := by assumption) :
    (State.setReg s off v).cut m = s.cut m := by
  unfold State.setReg
  simp only [↓cut_regs, ↓apply_ite (State.cut m), ite_self, m_regs]

theorem State.setF_cut {m : Area → Bool} (s : State) (off : ℕ) (f : Fld) (n : ℕ) (m_regs : m .regs := by assumption) :
    (State.setF s off f n).cut m = s.cut m := by
  unfold State.setF
  simp only [↓State.setReg_cut, ↓apply_ite (State.cut m), ite_self, m_regs]

theorem State.bump_cut {m : Area → Bool} (s : State) (off : ℕ) (n : ℕ) (m_regs : m .regs := by assumption) :
    (State.bump s off n).cut m = s.cut m := by
  unfold State.bump
  simp only [↓State.setReg_cut, ↓apply_ite (State.cut m), ite_self, m_regs]

theorem State.bumpF_cut {m : Area → Bool} (s : State) (off : ℕ) (f : Fld) (m_regs : m .regs := by assumption) :
    (State.bumpF s off f).cut m = s.cut m := by
  unfold State.bumpF
  simp only [↓State.setF_cut, ↓apply_ite (State.cut m), ite_self, m_regs]

theorem State.clearCounters_cut {m : Area → Bool} (s : State) (base : ℕ) (bits : ℕ) (k : ℕ) (m_regs : m .regs := by assumption) :
    (State.clearCounters s base bits k).cut m = s.cut m := by
  unfold State.clearCounters
  repeat' (first | (with_reducible refine (foldl_cut _ _ _ fun s x => ?_).trans ?_) | split | simp only [↓State.setReg_cut, m_regs])

theorem State.restartRegs_cut {m : Area → Bool} (s : State) (keep : ℕ → Bool) (m_regs : m .regs := by assumption) :
    (State.restartRegs s keep).cut m = s.cut m := by
  unfold State.restartRegs
  simp only [↓cut_regs, ↓apply_ite (State.cut m), ite_self, m_regs]

theorem State.emit_cut {m : Area → Bool} (s : State) (o : Out) (m_out : m .out := by assumption) :
    (State.emit s o).cut m = s.cut m := by
  unfold State.emit
  simp only [↓cut_out, ↓apply_ite (State.cut m), ite_self, m_out]

theorem State.free_cut {m : Area → Bool} (s : State) (m_freeN : m .freeN := by assumption) :
    (State.free s).2.cut m = s.cut m := by
  unfold State.free
  simp only [↓cut_freeN, ↓apply_ite (State.cut m), ite_self, m_freeN]

theorem State.setDomain_cut {m : Area → Bool} (s : State) (d : ℕ) (b : Bool) (m_regs : m .regs := by assumption) :
    (State.setDomain s d b).cut m = s.cut m := by
  unfold State.setDomain
  simp only [↓State.setReg_cut, ↓apply_ite (State.cut m), ite_self, m_regs]

theorem State.setDomains_cut {m : Area → Bool} (s : State) (ds : List ℕ) (b : Bool) (m_regs : m .regs := by assumption) :
    (State.setDomains s ds b).cut m = s.cut m := by
  unfold State.setDomains
  repeat' (first | (with_reducible refine (foldl_cut _ _ _ fun s x => ?_).trans ?_) | split | simp only [↓State.setDomain_cut, m_regs])

theorem State.viaHst_cut {m : Area → Bool} (s : State) (f : State → State) (h_f : ∀ y0, (f y0).cut m = y0.cut m) :
    (State.viaHst s f).cut m = s.cut m := by
  unfold State.viaHst
  simp only [h_f, ↓apply_ite (State.cut m), ite_self]

theorem State.setClient_cut {m : Area → Bool} (s : State) (c : ℕ) (k : Client) (m_hst : m .hst := by assumption) :
    (State.setClient s c k).cut m = s.cut m := by
  unfold State.setClient
  simp only [↓cut_hst, ↓apply_ite (State.cut m), ite_self, m_hst]

theorem State.setTable_cut {m : Area → Bool} (s : State) (t : ℕ) (v : Table) (m_tabs : m .tabs := by assumption) :
    (State.setTable s t v).cut m = s.cut m := by
  unfold State.setTable
  simp only [↓cut_tabs, ↓apply_ite (State.cut m), ite_self, m_tabs]

theorem State.onHst_cut {m : Area → Bool} (s : State) (f : HostState → HostState) (m_hst : m .hst := by assumption) :
    (State.onHst s f).cut m = s.cut m := by
  unfold State.onHst
  simp only [↓cut_hst, ↓apply_ite (State.cut m), ite_self, m_hst]

theorem State.onStg_cut {m : Area → Bool} (s : State) (f : StageState → StageState) (m_stg : m .stg := by assumption) :
    (State.onStg s f).cut m = s.cut m := by
  unfold State.onStg
  simp only [↓cut_stg, m_stg]

theorem State.onEvt_cut {m : Area → Bool} (s : State) (f : EventState → EventState) (m_evt : m .evt := by assumption) :
    (State.onEvt s f).cut m = s.cut m := by
  unfold State.onEvt
  simp only [↓cut_evt, m_evt]

theorem State.onRst_cut {m : Area → Bool} (s : State) (f : ResetState → ResetState) (m_rst : m .rst := by assumption) :
    (State.onRst s f).cut m = s.cut m := by
  unfold State.onRst
  simp only [↓cut_rst, m_rst]

theorem State.onPwr_cut {m : Area → Bool} (s : State) (f : PowerState → PowerState) (m_pwr : m .pwr := by assumption) :
    (State.onPwr s f).cut m = s.cut m := by
  unfold State.onPwr
  simp only [↓cut_pwr, m_pwr]

theorem State.onGen_cut {m : Area → Bool} (s : State) (f : GenState → GenState) (m_gen : m .gen := by assumption) :
    (State.onGen s f).cut m = s.cut m := by
  unfold State.onGen
  simp only [↓cut_gen, m_gen]

theorem State.onRdg_cut {m : Area → Bool} (s : State) (f : RidgeState → RidgeState) (m_rdg : m .rdg := by assumption) :
    (State.onRdg s f).cut m = s.cut m := by
  unfold State.onRdg
  simp only [↓cut_rdg, m_rdg]

theorem State.setDriver_cut {m : Area → Bool} (s : State) (g : ℕ) (d : Driver) (m_drv : m .drv := by assumption) :
    (State.setDriver s g d).cut m = s.cut m := by
  unfold State.setDriver
  simp only [↓cut_drv, ↓apply_ite (State.cut m), ite_self, m_drv]

theorem State.onPnl_cut {m : Area → Bool} (s : State) (f : PanelState → PanelState) (m_pnl : m .pnl := by assumption) :
    (State.onPnl s f).cut m = s.cut m := by
  unfold State.onPnl
  simp only [↓cut_pnl, ↓apply_ite (State.cut m), ite_self, m_pnl]

theorem State.onFst_cut {m : Area → Bool} (s : State) (f : FstState → FstState) (m_fst : m .fst := by assumption) :
    (State.onFst s f).cut m = s.cut m := by
  unfold State.onFst
  simp only [↓cut_fst, m_fst]

theorem State.onPipe_cut {m : Area → Bool} (s : State) (f : PipeState → PipeState) (m_pipe : m .pipe := by assumption) :
    (State.onPipe s f).cut m = s.cut m := by
  unfold State.onPipe
  simp only [↓cut_pipe, m_pipe]

theorem State.onCal_cut {m : Area → Bool} (s : State) (f : CalState → CalState) (m_cal : m .cal := by assumption) :
    (State.onCal s f).cut m = s.cut m := by
  unfold State.onCal
  simp only [↓cut_cal, m_cal]

theorem State.onThm_cut {m : Area → Bool} (s : State) (f : ThermState → ThermState) (m_thm : m .thm := by assumption) :
    (State.onThm s f).cut m = s.cut m := by
  unfold State.onThm
  simp only [↓cut_thm, m_thm]

theorem State.onMag_cut {m : Area → Bool} (s : State) (f : MagState → MagState) (m_mag : m .mag := by assumption) :
    (State.onMag s f).cut m = s.cut m := by
  unfold State.onMag
  simp only [↓cut_mag, m_mag]

theorem State.onThc_cut {m : Area → Bool} (s : State) (f : ThcState → ThcState) (m_thc : m .thc := by assumption) :
    (State.onThc s f).cut m = s.cut m := by
  unfold State.onThc
  simp only [↓cut_thc, m_thc]

theorem State.onLink_cut {m : Area → Bool} (s : State) (q : ℕ) (f : LinkState → LinkState) (m_links : m .links := by assumption) :
    (State.onLink s q f).cut m = s.cut m := by
  unfold State.onLink
  simp only [↓cut_links, ↓apply_ite (State.cut m), ite_self, m_links]

theorem State.linkSend_cut {m : Area → Bool} (s : State) (q : ℕ) (code : ℕ) (arg : ℕ) (body : List Byte) (m_links : m .links := by assumption) (m_out : m .out := by assumption) :
    (State.linkSend s q code arg body).cut m = s.cut m := by
  unfold State.linkSend
  simp only [↓State.emit_cut, ↓State.onLink_cut, ↓apply_ite (State.cut m), ite_self, m_links, m_out]

theorem State.sendAll_cut {m : Area → Bool} (s : State) (skip : ℕ) (code : ℕ) (arg : ℕ) (body : List Byte) (m_links : m .links := by assumption) (m_out : m .out := by assumption) :
    (State.sendAll s skip code arg body).cut m = s.cut m := by
  unfold State.sendAll
  repeat' (first | (with_reducible refine (foldl_cut _ _ _ fun s x => ?_).trans ?_) | split | simp only [↓State.linkSend_cut, m_links, m_out])

theorem State.flood_cut {m : Area → Bool} (s : State) (code : ℕ) (body : List Byte) (m_rdg : m .rdg := by assumption) (m_links : m .links := by assumption) (m_out : m .out := by assumption) :
    (State.flood s code body).cut m = s.cut m := by
  unfold State.flood
  simp only [↓State.onRdg_cut, ↓State.sendAll_cut, ↓apply_ite (State.cut m), ite_self, m_rdg, m_links, m_out]

theorem State.unicast_cut {m : Area → Bool} (s : State) (dst : ℕ) (code : ℕ) (body : List Byte) (m_links : m .links := by assumption) (m_out : m .out := by assumption) :
    (State.unicast s dst code body).cut m = s.cut m := by
  unfold State.unicast
  simp only [↓State.linkSend_cut, ↓apply_ite (State.cut m), ite_self, m_links, m_out]

theorem State.sendTag_cut {m : Area → Bool} (s : State) (t : HostTag) (m_links : m .links := by assumption) (m_out : m .out := by assumption) :
    (State.sendTag s t).cut m = s.cut m := by
  unfold State.sendTag
  simp only [↓State.unicast_cut, ↓apply_ite (State.cut m), ite_self, m_links, m_out]

theorem State.relayHost_cut {m : Area → Bool} (s : State) (kind : ℕ) (addr : ℕ) (data : List Byte) (use : Option HostRead) (client : Option (ℕ × ℕ)) (cpl : Bool) (m_rdg : m .rdg := by assumption) (m_links : m .links := by assumption) (m_out : m .out := by assumption) :
    (State.relayHost s kind addr data use client cpl).cut m = s.cut m := by
  unfold State.relayHost
  simp only [↓State.onRdg_cut, ↓State.sendTag_cut, ↓apply_ite (State.cut m), ite_self, m_rdg, m_links, m_out]

theorem State.sendMsix_cut {m : Area → Bool} (s : State) (v : ℕ) (m_rdg : m .rdg := by assumption) (m_links : m .links := by assumption) (m_out : m .out := by assumption) :
    (State.sendMsix s v).cut m = s.cut m := by
  unfold State.sendMsix
  simp only [↓State.emit_cut, ↓State.relayHost_cut, ↓apply_ite (State.cut m), ite_self, m_rdg, m_links, m_out]

theorem State.signal_cut {m : Area → Bool} (s : State) (v : ℕ) (m_hst : m .hst := by assumption) (m_rdg : m .rdg := by assumption) (m_links : m .links := by assumption) (m_out : m .out := by assumption) :
    (State.signal s v).cut m = s.cut m := by
  unfold State.signal
  simp only [↓State.onHst_cut, ↓State.sendMsix_cut, ↓apply_ite (State.cut m), ite_self, m_hst, m_rdg, m_links, m_out]

theorem State.trace_cut {m : Area → Bool} (s : State) (kind : ℕ) (payload : List Byte) (m_regs : m .regs := by assumption) (m_evt : m .evt := by assumption) :
    (State.trace s kind payload).cut m = s.cut m := by
  unfold State.trace
  simp only [↓State.bump_cut, ↓State.onEvt_cut, ↓apply_ite (State.cut m), ite_self, m_regs, m_evt]

theorem State.fireTrigger_cut {m : Area → Bool} (s : State) (m_regs : m .regs := by assumption) (m_evt : m .evt := by assumption) :
    (State.fireTrigger s).cut m = s.cut m := by
  unfold State.fireTrigger
  simp only [↓State.setF_cut, ↓State.onEvt_cut, ↓apply_ite (State.cut m), ite_self, m_regs, m_evt]

theorem State.syncEvtStat_cut {m : Area → Bool} (s : State) (m_regs : m .regs := by assumption) :
    (State.syncEvtStat s).cut m = s.cut m := by
  unfold State.syncEvtStat
  simp only [↓State.setF_cut, ↓apply_ite (State.cut m), ite_self, m_regs]

theorem State.loseEvents_cut {m : Area → Bool} (s : State) (code : ℕ) (n : ℕ) (m_regs : m .regs := by assumption) (m_evt : m .evt := by assumption) :
    (State.loseEvents s code n).cut m = s.cut m := by
  unfold State.loseEvents
  simp only [↓State.bump_cut, ↓State.onEvt_cut, ↓apply_ite (State.cut m), ite_self, m_regs, m_evt]

theorem State.eventWith_cut {m : Area → Bool} (s : State) (alarm : Bool) (code : ℕ) (items : List (ℕ × ℕ)) (m_regs : m .regs := by assumption) (m_evt : m .evt := by assumption) :
    (State.eventWith s alarm code items).cut m = s.cut m := by
  unfold State.eventWith
  repeat' (first | split | simp only [↓State.onEvt_cut, ↓State.trace_cut, ↓State.fireTrigger_cut, ↓State.syncEvtStat_cut, ↓State.loseEvents_cut, m_regs, m_evt])

theorem State.event_cut {m : Area → Bool} (s : State) (code : ℕ) (items : optParam (List (ℕ × ℕ)) []) (m_regs : m .regs := by assumption) (m_evt : m .evt := by assumption) :
    (State.event s code items).cut m = s.cut m := by
  unfold State.event
  simp only [↓State.eventWith_cut, ↓apply_ite (State.cut m), ite_self, m_regs, m_evt]

theorem State.recordBand_cut {m : Area → Bool} (s : State) (p : ℕ) (m_thm : m .thm := by assumption) :
    (State.recordBand s p).cut m = s.cut m := by
  unfold State.recordBand
  simp only [↓State.onThm_cut, ↓apply_ite (State.cut m), ite_self, m_thm]

theorem State.latchAlarm_cut {m : Area → Bool} (s : State) (n : ℕ) (items : List (ℕ × ℕ)) (m_regs : m .regs := by assumption) :
    (State.latchAlarm s n items).cut m = s.cut m := by
  unfold State.latchAlarm
  simp only [↓State.setReg_cut, ↓State.setF_cut, ↓apply_ite (State.cut m), ite_self, m_regs]

theorem State.markAlarm_cut {m : Area → Bool} (s : State) (n : ℕ) (m_regs : m .regs := by assumption) (m_out : m .out := by assumption) :
    (State.markAlarm s n).cut m = s.cut m := by
  unfold State.markAlarm
  simp only [↓State.setReg_cut, ↓State.bumpF_cut, ↓State.emit_cut, ↓apply_ite (State.cut m), ite_self, m_regs, m_out]

theorem State.tellAlarm_cut {m : Area → Bool} (s : State) (n : ℕ) (items : List (ℕ × ℕ)) (m_regs : m .regs := by assumption) (m_hst : m .hst := by assumption) (m_evt : m .evt := by assumption) (m_rdg : m .rdg := by assumption) (m_links : m .links := by assumption) (m_out : m .out := by assumption) :
    (State.tellAlarm s n items).cut m = s.cut m := by
  unfold State.tellAlarm
  simp only [↓State.signal_cut, ↓State.eventWith_cut, ↓apply_ite (State.cut m), ite_self, m_regs, m_hst, m_evt, m_rdg, m_links, m_out]

theorem State.triggerOnAlarm_cut {m : Area → Bool} (s : State) (m_regs : m .regs := by assumption) (m_evt : m .evt := by assumption) :
    (State.triggerOnAlarm s).cut m = s.cut m := by
  unfold State.triggerOnAlarm
  simp only [↓State.fireTrigger_cut, ↓apply_ite (State.cut m), ite_self, m_regs, m_evt]

theorem State.alarm_cut {m : Area → Bool} (s : State) (n : ℕ) (items : optParam (List (ℕ × ℕ)) []) (m_regs : m .regs := by assumption) (m_hst : m .hst := by assumption) (m_evt : m .evt := by assumption) (m_rdg : m .rdg := by assumption) (m_links : m .links := by assumption) (m_out : m .out := by assumption) :
    (State.alarm s n items).cut m = s.cut m := by
  unfold State.alarm
  simp only [↓State.flood_cut, ↓State.latchAlarm_cut, ↓State.markAlarm_cut, ↓State.tellAlarm_cut, ↓State.triggerOnAlarm_cut, ↓apply_ite (State.cut m), ite_self, m_regs, m_hst, m_evt, m_rdg, m_links, m_out]

theorem State.setReady_cut {m : Area → Bool} (s : State) (b : ℕ) (m_regs : m .regs := by assumption) (m_hst : m .hst := by assumption) (m_rdg : m .rdg := by assumption) (m_links : m .links := by assumption) (m_out : m .out := by assumption) :
    (State.setReady s b).cut m = s.cut m := by
  unfold State.setReady
  simp only [↓State.setReg_cut, ↓State.signal_cut, ↓apply_ite (State.cut m), ite_self, m_regs, m_hst, m_rdg, m_links, m_out]

theorem State.dropReady_cut {m : Area → Bool} (s : State) (b : ℕ) (m_regs : m .regs := by assumption) :
    (State.dropReady s b).cut m = s.cut m := by
  unfold State.dropReady
  simp only [↓State.setReg_cut, ↓apply_ite (State.cut m), ite_self, m_regs]

theorem State.clearReady_cut {m : Area → Bool} (s : State) (b : ℕ) (m_regs : m .regs := by assumption) (m_hst : m .hst := by assumption) (m_evt : m .evt := by assumption) (m_rdg : m .rdg := by assumption) (m_links : m .links := by assumption) (m_out : m .out := by assumption) :
    (State.clearReady s b).cut m = s.cut m := by
  unfold State.clearReady
  simp only [↓State.signal_cut, ↓State.event_cut, ↓State.dropReady_cut, ↓apply_ite (State.cut m), ite_self, m_regs, m_hst, m_evt, m_rdg, m_links, m_out]

theorem State.putHost_cut {m : Area → Bool} (s : State) (addr : ℕ) (bytes : List Byte) (client : Option (ℕ × ℕ)) (cpl : Bool) (m_rdg : m .rdg := by assumption) (m_links : m .links := by assumption) (m_out : m .out := by assumption) :
    (State.putHost s addr bytes client cpl).cut m = s.cut m := by
  unfold State.putHost
  repeat' (first | (with_reducible refine (foldl_cut _ _ _ fun s x => ?_).trans ?_) | split | simp only [↓State.emit_cut, ↓State.relayHost_cut, m_rdg, m_links, m_out])

theorem State.writeHost_cut {m : Area → Bool} (s : State) (addr : ℕ) (bytes : List Byte) (client : Option (ℕ × ℕ)) (m_rdg : m .rdg := by assumption) (m_links : m .links := by assumption) (m_out : m .out := by assumption) :
    (State.writeHost s addr bytes client).cut m = s.cut m := by
  unfold State.writeHost
  simp only [↓State.putHost_cut, ↓apply_ite (State.cut m), ite_self, m_rdg, m_links, m_out]

theorem State.readHost_cut {m : Area → Bool} (s : State) (addr : ℕ) (len : ℕ) (use : ReadUse) (m_hst : m .hst := by assumption) (m_rdg : m .rdg := by assumption) (m_links : m .links := by assumption) (m_out : m .out := by assumption) :
    (State.readHost s addr len use).cut m = s.cut m := by
  unfold State.readHost
  repeat' (first | (with_reducible refine (foldl_cut _ _ _ fun s x => ?_).trans ?_) | split | simp only [↓State.emit_cut, ↓State.onHst_cut, ↓State.relayHost_cut, m_hst, m_rdg, m_links, m_out])

theorem State.syncCstat_cut {m : Area → Bool} (s : State) (c : ℕ) (m_regs : m .regs := by assumption) :
    (State.syncCstat s c).cut m = s.cut m := by
  unfold State.syncCstat
  simp only [↓State.setF_cut, ↓apply_ite (State.cut m), ite_self, m_regs]

theorem State.moderate_cut {m : Area → Bool} (s : State) (c : ℕ) (status : ℕ) (irq : Bool) (m_hst : m .hst := by assumption) (m_rdg : m .rdg := by assumption) (m_links : m .links := by assumption) (m_out : m .out := by assumption) :
    (State.moderate s c status irq).cut m = s.cut m := by
  unfold State.moderate
  simp only [↓State.setClient_cut, ↓State.signal_cut, ↓apply_ite (State.cut m), ite_self, m_hst, m_rdg, m_links, m_out]

theorem State.syncStg_cut {m : Area → Bool} (s : State) (m_regs : m .regs := by assumption) (m_win : m .win := by assumption) :
    (State.syncStg s).cut m = s.cut m := by
  unfold State.syncStg
  simp only [↓State.setReg_cut, ↓State.setF_cut, ↓cut_win, ↓apply_ite (State.cut m), ite_self, m_regs, m_win]

theorem State.setResyncBit_cut {m : Area → Bool} (s : State) (t : ℕ) (b : Bool) (m_regs : m .regs := by assumption) :
    (State.setResyncBit s t b).cut m = s.cut m := by
  unfold State.setResyncBit
  simp only [↓State.setF_cut, ↓apply_ite (State.cut m), ite_self, m_regs]

theorem State.startResync_cut {m : Area → Bool} (s : State) (t : ℕ) (m_regs : m .regs := by assumption) (m_tabs : m .tabs := by assumption) :
    (State.startResync s t).cut m = s.cut m := by
  unfold State.startResync
  simp only [↓State.setTable_cut, ↓State.setResyncBit_cut, ↓apply_ite (State.cut m), ite_self, m_regs, m_tabs]

theorem State.leaveSlot_cut {m : Area → Bool} (s : State) (t : Txn) (m_regs : m .regs := by assumption) (m_stg : m .stg := by assumption) (m_win : m .win := by assumption) :
    (State.leaveSlot s t).cut m = s.cut m := by
  unfold State.leaveSlot
  simp only [↓State.setReg_cut, ↓State.setF_cut, ↓State.onStg_cut, ↓State.syncStg_cut, ↓apply_ite (State.cut m), ite_self, m_regs, m_stg, m_win]

theorem State.dropTxn_cut {m : Area → Bool} (s : State) (t : Txn) (m_regs : m .regs := by assumption) (m_stg : m .stg := by assumption) (m_tabs : m .tabs := by assumption) (m_win : m .win := by assumption) :
    (State.dropTxn s t).cut m = s.cut m := by
  unfold State.dropTxn
  repeat' (first | (with_reducible refine (foldl_cut _ _ _ fun s x => ?_).trans ?_) | split | simp only [↓State.startResync_cut, ↓State.leaveSlot_cut, m_regs, m_stg, m_tabs, m_win])

theorem State.discardTxn_cut {m : Area → Bool} (s : State) (c : ℕ) (m_regs : m .regs := by assumption) (m_stg : m .stg := by assumption) (m_tabs : m .tabs := by assumption) (m_evt : m .evt := by assumption) (m_win : m .win := by assumption) :
    (State.discardTxn s c).cut m = s.cut m := by
  unfold State.discardTxn
  repeat' (first | (with_reducible refine (foldl_cut _ _ _ fun s x => ?_).trans ?_) | split | simp only [↓State.onStg_cut, ↓State.event_cut, ↓State.syncStg_cut, ↓State.startResync_cut, ↓State.dropTxn_cut, m_regs, m_stg, m_tabs, m_evt, m_win])

theorem State.endDisable_cut {m : Area → Bool} (s : State) (c : ℕ) (m_regs : m .regs := by assumption) (m_hst : m .hst := by assumption) (m_stg : m .stg := by assumption) (m_tabs : m .tabs := by assumption) (m_evt : m .evt := by assumption) (m_win : m .win := by assumption) :
    (State.endDisable s c).cut m = s.cut m := by
  unfold State.endDisable
  simp only [↓State.setClient_cut, ↓State.syncCstat_cut, ↓State.discardTxn_cut, ↓apply_ite (State.cut m), ite_self, m_regs, m_hst, m_stg, m_tabs, m_evt, m_win]

theorem State.releaseGroups_cut {m : Area → Bool} (s : State) (c : ℕ) (idx : ℕ) (m_regs : m .regs := by assumption) (m_stg : m .stg := by assumption) (m_win : m .win := by assumption) :
    (State.releaseGroups s c idx).cut m = s.cut m := by
  unfold State.releaseGroups
  simp only [↓State.onStg_cut, ↓State.syncStg_cut, ↓apply_ite (State.cut m), ite_self, m_regs, m_stg, m_win]

theorem State.writeCpl_cut {m : Area → Bool} (s : State) (c : ℕ) (d : Desc) (m_regs : m .regs := by assumption) (m_hst : m .hst := by assumption) (m_stg : m .stg := by assumption) (m_evt : m .evt := by assumption) (m_rdg : m .rdg := by assumption) (m_links : m .links := by assumption) (m_win : m .win := by assumption) (m_out : m .out := by assumption) :
    (State.writeCpl s c d).cut m = s.cut m := by
  unfold State.writeCpl
  simp only [↓State.setF_cut, ↓State.setClient_cut, ↓State.trace_cut, ↓State.putHost_cut, ↓State.moderate_cut, ↓State.releaseGroups_cut, ↓apply_ite (State.cut m), ite_self, m_regs, m_hst, m_stg, m_evt, m_rdg, m_links, m_win, m_out]

theorem State.flushCpl_cut {m : Area → Bool} (c : ℕ) (x1 : ℕ) (a2 : State) (m_regs : m .regs := by assumption) (m_hst : m .hst := by assumption) (m_stg : m .stg := by assumption) (m_tabs : m .tabs := by assumption) (m_evt : m .evt := by assumption) (m_rdg : m .rdg := by assumption) (m_links : m .links := by assumption) (m_win : m .win := by assumption) (m_out : m .out := by assumption) :
    (State.flushCpl c x1 a2).cut m = a2.cut m := by
  fun_induction State.flushCpl c x1 a2
  repeat' (first | split | simp_all only [↓State.setClient_cut, ↓State.syncCstat_cut, ↓State.endDisable_cut, ↓State.writeCpl_cut, m_regs, m_hst, m_stg, m_tabs, m_evt, m_rdg, m_links, m_win, m_out])

theorem State.setDesc_cut {m : Area → Bool} (s : State) (c : ℕ) (idx : ℕ) (f : Desc → Desc) (m_hst : m .hst := by assumption) :
    (State.setDesc s c idx f).cut m = s.cut m := by
  unfold State.setDesc
  simp only [↓State.setClient_cut, ↓apply_ite (State.cut m), ite_self, m_hst]

theorem State.setTxn_cut {m : Area → Bool} (s : State) (id : ℕ) (f : Txn → Txn) (m_stg : m .stg := by assumption) :
    (State.setTxn s id f).cut m = s.cut m := by
  unfold State.setTxn
  simp only [↓State.onStg_cut, ↓apply_ite (State.cut m), ite_self, m_stg]

theorem State.failTxn_cut {m : Area → Bool} (s : State) (id : ℕ) (m_regs : m .regs := by assumption) (m_stg : m .stg := by assumption) :
    (State.failTxn s id).cut m = s.cut m := by
  unfold State.failTxn
  repeat' (first | split | simp only [↓State.setF_cut, ↓State.setTxn_cut, m_regs, m_stg])

theorem State.ringFault_cut {m : Area → Bool} (s : State) (c : ℕ) (tag : ℕ) (m_regs : m .regs := by assumption) (m_hst : m .hst := by assumption) (m_evt : m .evt := by assumption) (m_rdg : m .rdg := by assumption) (m_links : m .links := by assumption) (m_out : m .out := by assumption) :
    (State.ringFault s c tag).cut m = s.cut m := by
  unfold State.ringFault
  simp only [↓State.signal_cut, ↓State.event_cut, ↓apply_ite (State.cut m), ite_self, m_regs, m_hst, m_evt, m_rdg, m_links, m_out]

theorem State.finish_cut {m : Area → Bool} (s : State) (c : ℕ) (idx : ℕ) (cpl : Cpl) (m_regs : m .regs := by assumption) (m_hst : m .hst := by assumption) (m_stg : m .stg := by assumption) (m_tabs : m .tabs := by assumption) (m_evt : m .evt := by assumption) (m_rdg : m .rdg := by assumption) (m_links : m .links := by assumption) (m_win : m .win := by assumption) (m_out : m .out := by assumption) :
    (State.finish s c idx cpl).cut m = s.cut m := by
  unfold State.finish
  repeat' (first | split | simp only [↓State.flushCpl_cut, ↓State.setDesc_cut, ↓State.failTxn_cut, ↓State.ringFault_cut, m_regs, m_hst, m_stg, m_tabs, m_evt, m_rdg, m_links, m_win, m_out])

theorem State.cfgHold_cut {m : Area → Bool} (s : State) (off : ℕ) (v : Word) (m_hst : m .hst := by assumption) :
    (State.cfgHold s off v).cut m = s.cut m := by
  unfold State.cfgHold
  simp only [↓State.onHst_cut, ↓apply_ite (State.cut m), ite_self, m_hst]

theorem State.trainHost_cut {m : Area → Bool} (s : State) (m_hst : m .hst := by assumption) (m_freeN : m .freeN := by assumption) :
    (State.trainHost s).cut m = s.cut m := by
  unfold State.trainHost
  simp only [↓State.free_cut, ↓State.onHst_cut, ↓apply_ite (State.cut m), ite_self, m_hst, m_freeN]

theorem State.openTxn_cut {m : Area → Bool} (s : State) (c : ℕ) (mask : ℕ) (m_regs : m .regs := by assumption) (m_stg : m .stg := by assumption) (m_win : m .win := by assumption) :
    (State.openTxn s c mask).1.cut m = s.cut m := by
  unfold State.openTxn
  simp only [↓State.setReg_cut, ↓State.setF_cut, ↓State.onStg_cut, ↓State.syncStg_cut, ↓apply_ite (State.cut m), ite_self, m_regs, m_stg, m_win]

theorem State.failCommit_cut {m : Area → Bool} (s : State) (t : Txn) (whr : ℕ) (idx : Option ℕ) (m_regs : m .regs := by assumption) (m_stg : m .stg := by assumption) (m_tabs : m .tabs := by assumption) (m_evt : m .evt := by assumption) (m_win : m .win := by assumption) :
    (State.failCommit s t whr idx).cut m = s.cut m := by
  unfold State.failCommit
  repeat' (first | split | simp only [↓State.setReg_cut, ↓State.onStg_cut, ↓State.event_cut, ↓State.dropTxn_cut, m_regs, m_stg, m_tabs, m_evt, m_win])

theorem State.abortCommit_cut {m : Area → Bool} (s : State) (c : ℕ) (idx : Option ℕ) (m_regs : m .regs := by assumption) (m_stg : m .stg := by assumption) (m_tabs : m .tabs := by assumption) (m_evt : m .evt := by assumption) (m_win : m .win := by assumption) :
    (State.abortCommit s c idx).cut m = s.cut m := by
  unfold State.abortCommit
  repeat' (first | split | simp only [↓State.failCommit_cut, m_regs, m_stg, m_tabs, m_evt, m_win])

theorem State.stageIn_cut {m : Area → Bool} (s : State) (t : Txn) (off : ℕ) (v : Word) (m_stg : m .stg := by assumption) :
    (State.stageIn s t off v).cut m = s.cut m := by
  unfold State.stageIn
  simp only [↓State.setTxn_cut, ↓apply_ite (State.cut m), ite_self, m_stg]

theorem State.stageDirect_cut {m : Area → Bool} (s : State) (off : ℕ) (v : Word) (m_regs : m .regs := by assumption) (m_stg : m .stg := by assumption) (m_evt : m .evt := by assumption) :
    (State.stageDirect s off v).cut m = s.cut m := by
  unfold State.stageDirect
  repeat' (first | split | simp only [↓State.event_cut, ↓State.failTxn_cut, ↓State.stageIn_cut, m_regs, m_stg, m_evt])

theorem State.badDoorbell_cut {m : Area → Bool} (s : State) (c : ℕ) (err : ℕ) (m_regs : m .regs := by assumption) (m_hst : m .hst := by assumption) (m_evt : m .evt := by assumption) (m_rdg : m .rdg := by assumption) (m_links : m .links := by assumption) (m_out : m .out := by assumption) :
    (State.badDoorbell s c err).cut m = s.cut m := by
  unfold State.badDoorbell
  simp only [↓State.setF_cut, ↓State.signal_cut, ↓State.event_cut, ↓apply_ite (State.cut m), ite_self, m_regs, m_hst, m_evt, m_rdg, m_links, m_out]

theorem State.writeSqTail_cut {m : Area → Bool} (s : State) (c : ℕ) (be : ℕ) (v : Word) (m_regs : m .regs := by assumption) (m_hst : m .hst := by assumption) (m_evt : m .evt := by assumption) (m_rdg : m .rdg := by assumption) (m_links : m .links := by assumption) (m_out : m .out := by assumption) :
    (State.writeSqTail s c be v).cut m = s.cut m := by
  unfold State.writeSqTail
  simp only [↓State.setClient_cut, ↓State.badDoorbell_cut, ↓apply_ite (State.cut m), ite_self, m_regs, m_hst, m_evt, m_rdg, m_links, m_out]

theorem State.writeCqHead_cut {m : Area → Bool} (s : State) (c : ℕ) (be : ℕ) (v : Word) (m_regs : m .regs := by assumption) (m_hst : m .hst := by assumption) (m_evt : m .evt := by assumption) (m_rdg : m .rdg := by assumption) (m_links : m .links := by assumption) (m_out : m .out := by assumption) :
    (State.writeCqHead s c be v).cut m = s.cut m := by
  unfold State.writeCqHead
  simp only [↓State.setClient_cut, ↓State.badDoorbell_cut, ↓apply_ite (State.cut m), ite_self, m_regs, m_hst, m_evt, m_rdg, m_links, m_out]

theorem execSqTail_cut {m : Area → Bool} (c : Fin 256) (be : BitVec 4) (v : Word) (s : State) (m_regs : m .regs := by assumption) (m_hst : m .hst := by assumption) (m_evt : m .evt := by assumption) (m_rdg : m .rdg := by assumption) (m_links : m .links := by assumption) (m_out : m .out := by assumption) :
    outCut m (execSqTail c be v s) = some (s.cut m) := by
  unfold execSqTail
  repeat' (first | (refine congrArg some ?_) | (with_reducible refine (State.viaHst_cut (h_f := fun y0 => ?_) (s := _)).trans ?_) | split | simp only [↓State.writeSqTail_cut, m_regs, m_hst, m_evt, m_rdg, m_links, m_out])

theorem execCqHead_cut {m : Area → Bool} (c : Fin 256) (be : BitVec 4) (v : Word) (s : State) (m_regs : m .regs := by assumption) (m_hst : m .hst := by assumption) (m_evt : m .evt := by assumption) (m_rdg : m .rdg := by assumption) (m_links : m .links := by assumption) (m_out : m .out := by assumption) :
    outCut m (execCqHead c be v s) = some (s.cut m) := by
  unfold execCqHead
  repeat' (first | (refine congrArg some ?_) | (with_reducible refine (State.viaHst_cut (h_f := fun y0 => ?_) (s := _)).trans ?_) | split | simp only [↓State.writeCqHead_cut, m_regs, m_hst, m_evt, m_rdg, m_links, m_out])

theorem State.cfgReject_cut {m : Area → Bool} (s : State) (c : ℕ) (m_regs : m .regs := by assumption) (m_evt : m .evt := by assumption) :
    (State.cfgReject s c).cut m = s.cut m := by
  unfold State.cfgReject
  simp only [↓State.setF_cut, ↓State.event_cut, ↓apply_ite (State.cut m), ite_self, m_regs, m_evt]

theorem State.putCcfg_cut {m : Area → Bool} (s : State) (c : ℕ) (v : Word) (m_regs : m .regs := by assumption) (m_hst : m .hst := by assumption) :
    (State.putCcfg s c v).cut m = s.cut m := by
  unfold State.putCcfg
  simp only [↓State.setReg_cut, ↓State.setClient_cut, ↓apply_ite (State.cut m), ite_self, m_regs, m_hst]

theorem State.enableRing_cut {m : Area → Bool} (s : State) (c : ℕ) (m_regs : m .regs := by assumption) (m_hst : m .hst := by assumption) :
    (State.enableRing s c).cut m = s.cut m := by
  unfold State.enableRing
  simp only [↓State.setReg_cut, ↓State.setF_cut, ↓State.setClient_cut, ↓State.syncCstat_cut, ↓apply_ite (State.cut m), ite_self, m_regs, m_hst]

theorem State.abortUnstarted_cut {m : Area → Bool} (c : Nat) (x1 : List Desc) (x2 : State) (m_regs : m .regs := by assumption) (m_hst : m .hst := by assumption) (m_stg : m .stg := by assumption) (m_tabs : m .tabs := by assumption) (m_evt : m .evt := by assumption) (m_rdg : m .rdg := by assumption) (m_links : m .links := by assumption) (m_win : m .win := by assumption) (m_out : m .out := by assumption) :
    (State.abortUnstarted c x1 x2).cut m = x2.cut m := by
  induction x1 generalizing x2 with
  | nil => rfl
  | cons d t ih =>
    simp only [State.abortUnstarted]
    split
    · exact ih x2
    · refine (ih _).trans ((State.finish_cut _ _ _ _).trans ?_)
      split
      · exact State.abortCommit_cut x2 c (some d.idx)
      · rfl

theorem State.disableRing_cut {m : Area → Bool} (s : State) (c : ℕ) (m_regs : m .regs := by assumption) (m_hst : m .hst := by assumption) (m_stg : m .stg := by assumption) (m_tabs : m .tabs := by assumption) (m_evt : m .evt := by assumption) (m_rdg : m .rdg := by assumption) (m_links : m .links := by assumption) (m_win : m .win := by assumption) (m_out : m .out := by assumption) :
    (State.disableRing s c).cut m = s.cut m := by
  unfold State.disableRing
  simp only [↓State.setClient_cut, ↓State.onHst_cut, ↓State.endDisable_cut, ↓State.abortUnstarted_cut, ↓apply_ite (State.cut m), ite_self, m_regs, m_hst, m_stg, m_tabs, m_evt, m_rdg, m_links, m_win, m_out]

theorem State.writeCcfg_cut {m : Area → Bool} (s : State) (c : ℕ) (v : Word) (m_regs : m .regs := by assumption) (m_hst : m .hst := by assumption) (m_stg : m .stg := by assumption) (m_tabs : m .tabs := by assumption) (m_evt : m .evt := by assumption) (m_rdg : m .rdg := by assumption) (m_links : m .links := by assumption) (m_win : m .win := by assumption) (m_out : m .out := by assumption) :
    (State.writeCcfg s c v).cut m = s.cut m := by
  unfold State.writeCcfg
  simp only [↓State.cfgReject_cut, ↓State.putCcfg_cut, ↓State.enableRing_cut, ↓State.disableRing_cut, ↓apply_ite (State.cut m), ite_self, m_regs, m_hst, m_stg, m_tabs, m_evt, m_rdg, m_links, m_win, m_out]

theorem State.writeRingBase_cut {m : Area → Bool} (s : State) (c : ℕ) (k : ℕ) (v : Word) (m_regs : m .regs := by assumption) (m_hst : m .hst := by assumption) (m_evt : m .evt := by assumption) :
    (State.writeRingBase s c k v).cut m = s.cut m := by
  unfold State.writeRingBase
  simp only [↓State.setReg_cut, ↓State.setClient_cut, ↓State.cfgReject_cut, ↓apply_ite (State.cut m), ite_self, m_regs, m_hst, m_evt]

theorem execRingEnable_cut {m : Area → Bool} (c : Fin 256) (v : Word) (s : State) (m_regs : m .regs := by assumption) (m_hst : m .hst := by assumption) (m_stg : m .stg := by assumption) (m_tabs : m .tabs := by assumption) (m_evt : m .evt := by assumption) (m_rdg : m .rdg := by assumption) (m_links : m .links := by assumption) (m_win : m .win := by assumption) (m_out : m .out := by assumption) :
    outCut m (execRingEnable c v s) = some (s.cut m) := by
  unfold execRingEnable
  repeat' (first | (refine congrArg some ?_) | (with_reducible refine (State.viaHst_cut (h_f := fun y0 => ?_) (s := _)).trans ?_) | split | simp only [↓State.writeCcfg_cut, m_regs, m_hst, m_stg, m_tabs, m_evt, m_rdg, m_links, m_win, m_out])

theorem execRingDisable_cut {m : Area → Bool} (c : Fin 256) (v : Word) (s : State) (m_regs : m .regs := by assumption) (m_hst : m .hst := by assumption) (m_stg : m .stg := by assumption) (m_tabs : m .tabs := by assumption) (m_evt : m .evt := by assumption) (m_rdg : m .rdg := by assumption) (m_links : m .links := by assumption) (m_win : m .win := by assumption) (m_out : m .out := by assumption) :
    outCut m (execRingDisable c v s) = some (s.cut m) := by
  unfold execRingDisable
  repeat' (first | (refine congrArg some ?_) | (with_reducible refine (State.viaHst_cut (h_f := fun y0 => ?_) (s := _)).trans ?_) | split | simp only [↓State.writeCcfg_cut, m_regs, m_hst, m_stg, m_tabs, m_evt, m_rdg, m_links, m_win, m_out])

theorem execDescriptorFetch_cut {m : Area → Bool} (c : Fin 256) (s : State) (m_hst : m .hst := by assumption) (m_rdg : m .rdg := by assumption) (m_links : m .links := by assumption) (m_out : m .out := by assumption) :
    outCut m (execDescriptorFetch c s) = some (s.cut m) := by
  unfold execDescriptorFetch
  simp only [↓State.setClient_cut, ↓State.readHost_cut, ↓apply_ite (State.cut m), ite_self, ↓outCut_next, ↓apply_ite (outCut m), m_hst, m_rdg, m_links, m_out]

theorem State.takeDescs_cut {m : Area → Bool} (s : State) (c : ℕ) (idx : ℕ) (n : ℕ) (bytes : List Byte) (m_regs : m .regs := by assumption) (m_hst : m .hst := by assumption) :
    (State.takeDescs s c idx n bytes).cut m = s.cut m := by
  unfold State.takeDescs
  simp only [↓State.setF_cut, ↓State.setClient_cut, ↓State.syncCstat_cut, ↓apply_ite (State.cut m), ite_self, m_regs, m_hst]

theorem State.countTurn_cut {m : Area → Bool} (s : State) (c : ℕ) (m_hst : m .hst := by assumption) :
    (State.countTurn s c).cut m = s.cut m := by
  unfold State.countTurn
  simp only [↓State.onHst_cut, ↓apply_ite (State.cut m), ite_self, m_hst]

theorem State.passCheck_cut {m : Area → Bool} (s : State) (c : ℕ) (d : Desc) (m_hst : m .hst := by assumption) (m_cal : m .cal := by assumption) (m_thc : m .thc := by assumption) :
    (State.passCheck s c d).cut m = s.cut m := by
  unfold State.passCheck
  simp only [↓State.onCal_cut, ↓State.onThc_cut, ↓State.setDesc_cut, ↓apply_ite (State.cut m), ite_self, m_hst, m_cal, m_thc]

theorem State.startWith_cut {m : Area → Bool} (s : State) (c : ℕ) (p : Desc → Bool) (f : Desc → State → State) (h_f : ∀ y0 y1, (f y0 y1).cut m = y1.cut m) (m_hst : m .hst := by assumption) :
    (State.startWith s c p f).cut m = s.cut m := by
  unfold State.startWith
  repeat' (first | split | simp only [↓State.setDesc_cut, ↓State.countTurn_cut, h_f, m_hst])

theorem execNop_cut {m : Area → Bool} (c : Fin 256) (s : State) (m_regs : m .regs := by assumption) (m_hst : m .hst := by assumption) (m_stg : m .stg := by assumption) (m_tabs : m .tabs := by assumption) (m_evt : m .evt := by assumption) (m_rdg : m .rdg := by assumption) (m_links : m .links := by assumption) (m_win : m .win := by assumption) (m_out : m .out := by assumption) :
    outCut m (execNop c s) = some (s.cut m) := by
  unfold execNop
  repeat' (first | (refine congrArg some ?_) | (with_reducible refine (State.startWith_cut (h_f := fun y0 y1 => ?_) (s := _) (c := _) (p := _)).trans ?_) | split | simp only [↓State.finish_cut, m_regs, m_hst, m_stg, m_tabs, m_evt, m_rdg, m_links, m_win, m_out])

theorem execReadyTimeout_cut {m : Area → Bool} (c : Fin 256) (s : State) (m_regs : m .regs := by assumption) (m_hst : m .hst := by assumption) (m_stg : m .stg := by assumption) (m_tabs : m .tabs := by assumption) (m_evt : m .evt := by assumption) (m_rdg : m .rdg := by assumption) (m_links : m .links := by assumption) (m_win : m .win := by assumption) (m_out : m .out := by assumption) :
    outCut m (execReadyTimeout c s) = some (s.cut m) := by
  unfold execReadyTimeout
  repeat' (first | (refine congrArg some ?_) | split | simp only [↓State.finish_cut, ↓State.abortCommit_cut, m_regs, m_hst, m_stg, m_tabs, m_evt, m_rdg, m_links, m_win, m_out])

theorem execDescriptorUnhold_cut {m : Area → Bool} (c : Fin 256) (s : State) (m_hst : m .hst := by assumption) (m_cal : m .cal := by assumption) (m_thc : m .thc := by assumption) :
    outCut m (execDescriptorUnhold c s) = some (s.cut m) := by
  unfold execDescriptorUnhold
  repeat' (first | (refine congrArg some ?_) | split | simp only [↓State.passCheck_cut, m_hst, m_cal, m_thc])

theorem State.haltRing_cut {m : Area → Bool} (s : State) (c : ℕ) (err : ℕ) (m_regs : m .regs := by assumption) :
    (State.haltRing s c err).cut m = s.cut m := by
  unfold State.haltRing
  simp only [↓State.setF_cut, ↓State.syncCstat_cut, ↓apply_ite (State.cut m), ite_self, m_regs]

theorem State.cplFault_cut {m : Area → Bool} (s : State) (c : ℕ) (tag : ℕ) (m_regs : m .regs := by assumption) (m_hst : m .hst := by assumption) (m_stg : m .stg := by assumption) (m_tabs : m .tabs := by assumption) (m_evt : m .evt := by assumption) (m_rdg : m .rdg := by assumption) (m_links : m .links := by assumption) (m_win : m .win := by assumption) (m_out : m .out := by assumption) :
    (State.cplFault s c tag).cut m = s.cut m := by
  unfold State.cplFault
  simp only [↓State.setClient_cut, ↓State.flushCpl_cut, ↓State.ringFault_cut, ↓State.haltRing_cut, ↓apply_ite (State.cut m), ite_self, m_regs, m_hst, m_stg, m_tabs, m_evt, m_rdg, m_links, m_win, m_out]

theorem State.dataFault_cut {m : Area → Bool} (s : State) (c : ℕ) (idx : ℕ) (m_regs : m .regs := by assumption) (m_hst : m .hst := by assumption) (m_stg : m .stg := by assumption) (m_tabs : m .tabs := by assumption) (m_evt : m .evt := by assumption) (m_rdg : m .rdg := by assumption) (m_links : m .links := by assumption) (m_win : m .win := by assumption) (m_out : m .out := by assumption) :
    (State.dataFault s c idx).cut m = s.cut m := by
  unfold State.dataFault
  repeat' (first | split | simp only [↓State.ringFault_cut, ↓State.finish_cut, m_regs, m_hst, m_stg, m_tabs, m_evt, m_rdg, m_links, m_win, m_out])

theorem State.writeFault_cut {m : Area → Bool} (s : State) (c : ℕ) (idx : ℕ) (m_regs : m .regs := by assumption) (m_hst : m .hst := by assumption) (m_stg : m .stg := by assumption) (m_tabs : m .tabs := by assumption) (m_evt : m .evt := by assumption) (m_rdg : m .rdg := by assumption) (m_links : m .links := by assumption) (m_win : m .win := by assumption) (m_out : m .out := by assumption) :
    (State.writeFault s c idx).cut m = s.cut m := by
  unfold State.writeFault
  repeat' (first | split | simp only [↓State.setDesc_cut, ↓State.dataFault_cut, m_regs, m_hst, m_stg, m_tabs, m_evt, m_rdg, m_links, m_win, m_out])

theorem execIrqTimer_cut {m : Area → Bool} (c : Fin 256) (s : State) (m_hst : m .hst := by assumption) (m_rdg : m .rdg := by assumption) (m_links : m .links := by assumption) (m_out : m .out := by assumption) :
    outCut m (execIrqTimer c s) = some (s.cut m) := by
  unfold execIrqTimer
  simp only [↓State.setClient_cut, ↓State.signal_cut, ↓apply_ite (State.cut m), ite_self, ↓outCut_next, ↓apply_ite (outCut m), m_hst, m_rdg, m_links, m_out]

theorem State.sendPendingVec_cut {m : Area → Bool} (s : State) (v : ℕ) (m_hst : m .hst := by assumption) (m_rdg : m .rdg := by assumption) (m_links : m .links := by assumption) (m_out : m .out := by assumption) :
    (State.sendPendingVec s v).cut m = s.cut m := by
  unfold State.sendPendingVec
  simp only [↓State.onHst_cut, ↓State.sendMsix_cut, ↓apply_ite (State.cut m), ite_self, m_hst, m_rdg, m_links, m_out]

theorem execMsixUnmask_cut {m : Area → Bool} (vec : Fin 264) (s : State) (m_hst : m .hst := by assumption) (m_rdg : m .rdg := by assumption) (m_links : m .links := by assumption) (m_out : m .out := by assumption) :
    outCut m (execMsixUnmask vec s) = some (s.cut m) := by
  unfold execMsixUnmask
  repeat' (first | (refine congrArg some ?_) | (with_reducible refine (State.viaHst_cut (h_f := fun y0 => ?_) (s := _)).trans ?_) | split | simp only [↓State.onHst_cut, ↓State.sendPendingVec_cut, m_hst, m_rdg, m_links, m_out])

theorem State.syncMsixCtl_cut {m : Area → Bool} (s : State) (m_regs : m .regs := by assumption) :
    (State.syncMsixCtl s).cut m = s.cut m := by
  unfold State.syncMsixCtl
  simp only [↓State.setF_cut, ↓apply_ite (State.cut m), ite_self, m_regs]

theorem State.sendPending_cut {m : Area → Bool} (s : State) (m_hst : m .hst := by assumption) (m_rdg : m .rdg := by assumption) (m_links : m .links := by assumption) (m_out : m .out := by assumption) :
    (State.sendPending s).cut m = s.cut m := by
  unfold State.sendPending
  repeat' (first | (with_reducible refine (foldl_cut _ _ _ fun s x => ?_).trans ?_) | split | simp only [↓State.sendPendingVec_cut, m_hst, m_rdg, m_links, m_out])

theorem State.configDefaults_cut {m : Area → Bool} (s : State) (m_regs : m .regs := by assumption) (m_hst : m .hst := by assumption) :
    (State.configDefaults s).cut m = s.cut m := by
  unfold State.configDefaults
  simp only [↓State.onHst_cut, ↓State.syncMsixCtl_cut, ↓apply_ite (State.cut m), ite_self, m_regs, m_hst]

theorem execPcieConfigWrite_cut {m : Area → Bool} (w : ConfigWrite) (s : State) (m_regs : m .regs := by assumption) (m_hst : m .hst := by assumption) (m_rdg : m .rdg := by assumption) (m_links : m .links := by assumption) (m_out : m .out := by assumption) :
    outCut m (execPcieConfigWrite w s) = some (s.cut m) := by
  unfold execPcieConfigWrite
  repeat' (first | (refine congrArg some ?_) | split | simp only [↓State.onHst_cut, ↓State.cfgHold_cut, ↓State.syncMsixCtl_cut, ↓State.sendPending_cut, m_regs, m_hst, m_rdg, m_links, m_out])

theorem State.syncEvtFull_cut {m : Area → Bool} (s : State) (m_regs : m .regs := by assumption) :
    (State.syncEvtFull s).cut m = s.cut m := by
  unfold State.syncEvtFull
  simp only [↓State.setF_cut, ↓State.syncEvtStat_cut, ↓apply_ite (State.cut m), ite_self, m_regs]

theorem State.moderateEvt_cut {m : Area → Bool} (s : State) (alarm : Bool) (m_hst : m .hst := by assumption) (m_evt : m .evt := by assumption) (m_rdg : m .rdg := by assumption) (m_links : m .links := by assumption) (m_out : m .out := by assumption) :
    (State.moderateEvt s alarm).cut m = s.cut m := by
  unfold State.moderateEvt
  simp only [↓State.onEvt_cut, ↓State.signal_cut, ↓apply_ite (State.cut m), ite_self, m_hst, m_evt, m_rdg, m_links, m_out]

theorem State.writeRecord_cut {m : Area → Bool} (s : State) (e : PendEvent) (m_regs : m .regs := by assumption) (m_hst : m .hst := by assumption) (m_evt : m .evt := by assumption) (m_rdg : m .rdg := by assumption) (m_links : m .links := by assumption) (m_out : m .out := by assumption) :
    (State.writeRecord s e).cut m = s.cut m := by
  unfold State.writeRecord
  simp only [↓State.setF_cut, ↓State.bump_cut, ↓State.onEvt_cut, ↓State.writeHost_cut, ↓State.syncEvtFull_cut, ↓State.moderateEvt_cut, ↓apply_ite (State.cut m), ite_self, m_regs, m_hst, m_evt, m_rdg, m_links, m_out]

theorem State.nextRecord_cut {m : Area → Bool} (s : State) (pick : List PendEvent → Option PendEvent) (m_regs : m .regs := by assumption) (m_hst : m .hst := by assumption) (m_evt : m .evt := by assumption) (m_rdg : m .rdg := by assumption) (m_links : m .links := by assumption) (m_out : m .out := by assumption) :
    (State.nextRecord s pick).cut m = s.cut m := by
  unfold State.nextRecord
  repeat' (first | split | simp only [↓State.onEvt_cut, ↓State.writeRecord_cut, m_regs, m_hst, m_evt, m_rdg, m_links, m_out])

theorem execEventRecordWrite_cut {m : Area → Bool} (s : State) (m_regs : m .regs := by assumption) (m_hst : m .hst := by assumption) (m_evt : m .evt := by assumption) (m_rdg : m .rdg := by assumption) (m_links : m .links := by assumption) (m_out : m .out := by assumption) :
    outCut m (execEventRecordWrite s) = some (s.cut m) := by
  unfold execEventRecordWrite
  simp only [↓State.nextRecord_cut, ↓apply_ite (State.cut m), ite_self, ↓outCut_next, ↓apply_ite (outCut m), m_regs, m_hst, m_evt, m_rdg, m_links, m_out]

theorem State.flushEvents_cut {m : Area → Bool} (x0 : ℕ) (a1 : State) (m_regs : m .regs := by assumption) (m_hst : m .hst := by assumption) (m_evt : m .evt := by assumption) (m_rdg : m .rdg := by assumption) (m_links : m .links := by assumption) (m_out : m .out := by assumption) :
    (State.flushEvents x0 a1).cut m = a1.cut m := by
  fun_induction State.flushEvents x0 a1
  repeat' (first | split | simp_all only [↓State.onEvt_cut, ↓State.syncEvtStat_cut, ↓State.loseEvents_cut, ↓State.nextRecord_cut, m_regs, m_hst, m_evt, m_rdg, m_links, m_out])

theorem execEvtRingFault_cut {m : Area → Bool} (s : State) (m_regs : m .regs := by assumption) (m_evt : m .evt := by assumption) :
    outCut m (execEvtRingFault s) = some (s.cut m) := by
  unfold execEvtRingFault
  simp only [↓State.setF_cut, ↓State.onEvt_cut, ↓apply_ite (State.cut m), ite_self, ↓outCut_next, ↓apply_ite (outCut m), m_regs, m_evt]

theorem execEvtIrqTimer_cut {m : Area → Bool} (s : State) (m_hst : m .hst := by assumption) (m_evt : m .evt := by assumption) (m_rdg : m .rdg := by assumption) (m_links : m .links := by assumption) (m_out : m .out := by assumption) :
    outCut m (execEvtIrqTimer s) = some (s.cut m) := by
  unfold execEvtIrqTimer
  simp only [↓State.onEvt_cut, ↓State.signal_cut, ↓apply_ite (State.cut m), ite_self, ↓outCut_next, ↓apply_ite (outCut m), m_hst, m_evt, m_rdg, m_links, m_out]

theorem State.writeRhead_cut {m : Area → Bool} (s : State) (v : Word) (m_regs : m .regs := by assumption) (m_evt : m .evt := by assumption) :
    (State.writeRhead s v).cut m = s.cut m := by
  unfold State.writeRhead
  simp only [↓State.setF_cut, ↓State.event_cut, ↓State.syncEvtFull_cut, ↓apply_ite (State.cut m), ite_self, m_regs, m_evt]

theorem execEvtRheadWrite_cut {m : Area → Bool} (v : Word) (s : State) (m_regs : m .regs := by assumption) (m_evt : m .evt := by assumption) :
    outCut m (execEvtRheadWrite v s) = some (s.cut m) := by
  unfold execEvtRheadWrite
  repeat' (first | (refine congrArg some ?_) | (with_reducible refine (State.viaHst_cut (h_f := fun y0 => ?_) (s := _)).trans ?_) | split | simp only [↓State.writeRhead_cut, m_regs, m_evt])

theorem State.writeEvtCfg_cut {m : Area → Bool} (s : State) (v : Word) (m_regs : m .regs := by assumption) (m_evt : m .evt := by assumption) :
    (State.writeEvtCfg s v).cut m = s.cut m := by
  unfold State.writeEvtCfg
  simp only [↓State.setReg_cut, ↓State.setF_cut, ↓State.onEvt_cut, ↓State.event_cut, ↓State.syncEvtFull_cut, ↓apply_ite (State.cut m), ite_self, m_regs, m_evt]

theorem execEvtCfgWrite_cut {m : Area → Bool} (v : Word) (s : State) (m_regs : m .regs := by assumption) (m_evt : m .evt := by assumption) :
    outCut m (execEvtCfgWrite v s) = some (s.cut m) := by
  unfold execEvtCfgWrite
  repeat' (first | (refine congrArg some ?_) | (with_reducible refine (State.viaHst_cut (h_f := fun y0 => ?_) (s := _)).trans ?_) | split | simp only [↓State.writeEvtCfg_cut, m_regs, m_evt])

theorem State.writeEvtBase_cut {m : Area → Bool} (s : State) (off : ℕ) (v : Word) (m_regs : m .regs := by assumption) (m_evt : m .evt := by assumption) :
    (State.writeEvtBase s off v).cut m = s.cut m := by
  unfold State.writeEvtBase
  simp only [↓State.setReg_cut, ↓State.event_cut, ↓apply_ite (State.cut m), ite_self, m_regs, m_evt]

theorem State.clearAlarms_cut {m : Area → Bool} (s : State) (hi : Bool) (v : Word) (m_regs : m .regs := by assumption) (m_out : m .out := by assumption) :
    (State.clearAlarms s hi v).cut m = s.cut m := by
  unfold State.clearAlarms
  repeat' (first | (with_reducible refine (foldl_cut _ _ _ fun s x => ?_).trans ?_) | split | simp only [↓State.setReg_cut, ↓State.setF_cut, ↓State.emit_cut, m_regs, m_out])

theorem execEvtAlmPendClear_cut {m : Area → Bool} (hi : Bool) (v : Word) (s : State) (m_regs : m .regs := by assumption) (m_out : m .out := by assumption) :
    outCut m (execEvtAlmPendClear hi v s) = some (s.cut m) := by
  unfold execEvtAlmPendClear
  repeat' (first | (refine congrArg some ?_) | (with_reducible refine (State.viaHst_cut (h_f := fun y0 => ?_) (s := _)).trans ?_) | split | simp only [↓State.clearAlarms_cut, m_regs, m_out])

theorem State.onBnk_cut {m : Area → Bool} (s : State) (f : BankState → BankState) (m_bnk : m .bnk := by assumption) :
    (State.onBnk s f).cut m = s.cut m := by
  unfold State.onBnk
  simp only [↓cut_bnk, ↓apply_ite (State.cut m), ite_self, m_bnk]

theorem State.bankUe_cut {m : Area → Bool} (s : State) (m1 : ℕ) (w : ℕ) (more : optParam (List (ℕ × ℕ)) []) (m_regs : m .regs := by assumption) (m_evt : m .evt := by assumption) :
    (State.bankUe s m1 w more).cut m = s.cut m := by
  unfold State.bankUe
  simp only [↓State.setF_cut, ↓State.bump_cut, ↓State.event_cut, ↓apply_ite (State.cut m), ite_self, m_regs, m_evt]

theorem State.bankCe_cut {m : Area → Bool} (s : State) (m1 : ℕ) (w : ℕ) (m_regs : m .regs := by assumption) (m_evt : m .evt := by assumption) :
    (State.bankCe s m1 w).cut m = s.cut m := by
  unfold State.bankCe
  simp only [↓State.bump_cut, ↓State.event_cut, ↓apply_ite (State.cut m), ite_self, m_regs, m_evt]

theorem State.setBankState_cut {m : Area → Bool} (s : State) (b : Nat) (n : Nat) (m_regs : m .regs := by assumption) :
    (State.setBankState s b n).cut m = s.cut m := by
  unfold State.setBankState
  simp only [↓State.setF_cut, m_regs]

theorem State.touchWords_cut {m : Area → Bool} (s : State) (ws : List ℕ) (m_regs : m .regs := by assumption) :
    (State.touchWords s ws).cut m = s.cut m := by
  unfold State.touchWords
  repeat' (first | (with_reducible refine (foldl_cut _ _ _ fun s x => ?_).trans ?_) | split | simp only [↓State.setBankState_cut, m_regs])

theorem State.readWord_cut {m : Area → Bool} (s : State) (m1 : ℕ) (w : ℕ) (more : optParam (List (ℕ × ℕ)) []) (m_regs : m .regs := by assumption) (m_evt : m .evt := by assumption) (m_bnk : m .bnk := by assumption) :
    (State.readWord s m1 w more).cut m = s.cut m := by
  unfold State.readWord
  simp only [↓State.onBnk_cut, ↓State.bankUe_cut, ↓State.bankCe_cut, ↓apply_ite (State.cut m), ite_self, m_regs, m_evt, m_bnk]

theorem State.cleanWords_cut {m : Area → Bool} (s : State) (ws : List ℕ) (m_bnk : m .bnk := by assumption) :
    (State.cleanWords s ws).cut m = s.cut m := by
  unfold State.cleanWords
  simp only [↓State.onBnk_cut, ↓apply_ite (State.cut m), ite_self, m_bnk]

theorem State.mergeWord_cut {m : Area → Bool} (s : State) (m1 : ℕ) (w : ℕ) (m_regs : m .regs := by assumption) (m_evt : m .evt := by assumption) (m_bnk : m .bnk := by assumption) :
    (State.mergeWord s m1 w).cut m = s.cut m := by
  unfold State.mergeWord
  simp only [↓State.bump_cut, ↓State.event_cut, ↓State.onBnk_cut, ↓apply_ite (State.cut m), ite_self, m_regs, m_evt, m_bnk]

theorem State.writeWords_cut {m : Area → Bool} (s : State) (m1 : ℕ) (full : List ℕ) (ends : List ℕ) (m_regs : m .regs := by assumption) (m_evt : m .evt := by assumption) (m_bnk : m .bnk := by assumption) :
    (State.writeWords s m1 full ends).cut m = s.cut m := by
  unfold State.writeWords
  repeat' (first | (with_reducible refine (foldl_cut _ _ _ fun s x => ?_).trans ?_) | split | simp only [↓State.cleanWords_cut, ↓State.mergeWord_cut, m_regs, m_evt, m_bnk])

theorem State.copyWords_cut {m : Area → Bool} (s : State) (es : List (ℕ × Option ℕ)) (m_bnk : m .bnk := by assumption) :
    (State.copyWords s es).cut m = s.cut m := by
  unfold State.copyWords
  simp only [↓State.onBnk_cut, ↓State.cleanWords_cut, ↓apply_ite (State.cut m), ite_self, m_bnk]

theorem State.spoilWords_cut {m : Area → Bool} (s : State) (errs : List ReadError) (m_bnk : m .bnk := by assumption) :
    (State.spoilWords s errs).cut m = s.cut m := by
  unfold State.spoilWords
  repeat' (first | (with_reducible refine (foldl_cut _ _ _ fun s x => ?_).trans ?_) | split | simp only [↓State.onBnk_cut, m_bnk])

theorem State.cleanTrace_cut {m : Area → Bool} (s : State) (n : ℕ) (m_bnk : m .bnk := by assumption) :
    (State.cleanTrace s n).cut m = s.cut m := by
  unfold State.cleanTrace
  simp only [↓State.cleanWords_cut, ↓apply_ite (State.cut m), ite_self, m_bnk]

theorem State.stopTrace_cut {m : Area → Bool} (s : State) (m_regs : m .regs := by assumption) (m_evt : m .evt := by assumption) :
    (State.stopTrace s).cut m = s.cut m := by
  unfold State.stopTrace
  simp only [↓State.setF_cut, ↓State.onEvt_cut, ↓State.event_cut, ↓apply_ite (State.cut m), ite_self, m_regs, m_evt]

theorem State.storeTrace_cut {m : Area → Bool} (s : State) (r : List Byte) (m_regs : m .regs := by assumption) (m_evt : m .evt := by assumption) (m_bnk : m .bnk := by assumption) :
    (State.storeTrace s r).cut m = s.cut m := by
  unfold State.storeTrace
  repeat' (first | split | simp only [↓State.setF_cut, ↓State.onEvt_cut, ↓State.cleanTrace_cut, ↓State.stopTrace_cut, m_regs, m_evt, m_bnk])

theorem State.drainTrace_cut {m : Area → Bool} (s : State) (m_regs : m .regs := by assumption) (m_evt : m .evt := by assumption) (m_bnk : m .bnk := by assumption) :
    (State.drainTrace s).cut m = s.cut m := by
  unfold State.drainTrace
  repeat' (first | (with_reducible refine (foldl_cut _ _ _ fun s x => ?_).trans ?_) | split | simp only [↓State.onEvt_cut, ↓State.storeTrace_cut, m_regs, m_evt, m_bnk])

theorem State.writeTrc_cut {m : Area → Bool} (s : State) (v : Word) (m_regs : m .regs := by assumption) (m_evt : m .evt := by assumption) (m_bnk : m .bnk := by assumption) :
    (State.writeTrc s v).cut m = s.cut m := by
  unfold State.writeTrc
  simp only [↓State.setReg_cut, ↓State.onEvt_cut, ↓State.event_cut, ↓State.drainTrace_cut, ↓apply_ite (State.cut m), ite_self, m_regs, m_evt, m_bnk]

theorem execEvtTrcWrite_cut {m : Area → Bool} (v : Word) (s : State) (m_regs : m .regs := by assumption) (m_evt : m .evt := by assumption) (m_bnk : m .bnk := by assumption) :
    outCut m (execEvtTrcWrite v s) = some (s.cut m) := by
  unfold execEvtTrcWrite
  repeat' (first | (refine congrArg some ?_) | (with_reducible refine (State.viaHst_cut (h_f := fun y0 => ?_) (s := _)).trans ?_) | split | simp only [↓State.writeTrc_cut, m_regs, m_evt, m_bnk])

theorem execEvtTrcMark_cut {m : Area → Bool} (v : Word) (s : State) (m_regs : m .regs := by assumption) (m_evt : m .evt := by assumption) :
    outCut m (execEvtTrcMark v s) = some (s.cut m) := by
  unfold execEvtTrcMark
  repeat' (first | (refine congrArg some ?_) | (with_reducible refine (State.viaHst_cut (h_f := fun y0 => ?_) (s := _)).trans ?_) | split | simp only [↓State.trace_cut, m_regs, m_evt])

theorem State.idle_cut {m : Area → Bool} (s : State) (m_regs : m .regs := by assumption) (m_evt : m .evt := by assumption) (m_gen : m .gen := by assumption) (m_bnk : m .bnk := by assumption) :
    (State.idle s).cut m = s.cut m := by
  unfold State.idle
  simp only [↓State.onGen_cut, ↓State.stopTrace_cut, ↓State.drainTrace_cut, ↓apply_ite (State.cut m), ite_self, m_regs, m_evt, m_gen, m_bnk]

theorem State.wake_cut {m : Area → Bool} (x0 : ℕ) (a1 : ℕ) (a2 : State) (m_pwr : m .pwr := by assumption) :
    (State.wake x0 a1 a2).cut m = a2.cut m := by
  fun_induction State.wake x0 a1 a2
  repeat' (first | (with_reducible refine (foldl_cut _ _ _ fun s x => ?_).trans ?_) | split | simp_all only [↓State.onPwr_cut, m_pwr])

theorem State.remoteReply_cut {m : Area → Bool} (s : State) (src : ℕ) (tag : ℕ) (v : Word) (m_links : m .links := by assumption) (m_out : m .out := by assumption) :
    (State.remoteReply s src tag v).cut m = s.cut m := by
  unfold State.remoteReply
  simp only [↓State.unicast_cut, ↓apply_ite (State.cut m), ite_self, m_links, m_out]

theorem State.answerRead_cut {m : Area → Bool} (s : State) (r : Stalled) (v : Word) (m_links : m .links := by assumption) (m_out : m .out := by assumption) :
    (State.answerRead s r v).cut m = s.cut m := by
  unfold State.answerRead
  repeat' (first | split | simp only [↓State.emit_cut, ↓State.remoteReply_cut, m_links, m_out])

theorem State.stallOn_cut {m : Area → Bool} (s : State) (d : ℕ) (r : Stalled) (m_regs : m .regs := by assumption) (m_pwr : m .pwr := by assumption) (m_evt : m .evt := by assumption) (m_links : m .links := by assumption) (m_out : m .out := by assumption) :
    (State.stallOn s d r).cut m = s.cut m := by
  unfold State.stallOn
  simp only [↓State.onPwr_cut, ↓State.event_cut, ↓State.wake_cut, ↓State.answerRead_cut, ↓apply_ite (State.cut m), ite_self, m_regs, m_pwr, m_evt, m_links, m_out]

theorem State.dropStalled_cut {m : Area → Bool} (s : State) (d : ℕ) (m_pwr : m .pwr := by assumption) (m_links : m .links := by assumption) (m_out : m .out := by assumption) :
    (State.dropStalled s d).cut m = s.cut m := by
  unfold State.dropStalled
  repeat' (first | (with_reducible refine (foldl_cut _ _ _ fun s x => ?_).trans ?_) | split | simp only [↓State.onPwr_cut, ↓State.answerRead_cut, m_pwr, m_links, m_out])

theorem State.offTree_cut {m : Area → Bool} (x0 : ℕ) (a1 : ℕ) (a2 : State) (m_regs : m .regs := by assumption) :
    (State.offTree x0 a1 a2).cut m = a2.cut m := by
  fun_induction State.offTree x0 a1 a2
  repeat' (first | (with_reducible refine (foldl_cut _ _ _ fun s x => ?_).trans ?_) | split | simp_all only [↓State.setDomain_cut, m_regs])

theorem State.allOff_cut {m : Area → Bool} (s : State) (m_regs : m .regs := by assumption) (m_pwr : m .pwr := by assumption) :
    (State.allOff s).cut m = s.cut m := by
  unfold State.allOff
  simp only [↓State.setDomains_cut, ↓State.onPwr_cut, ↓apply_ite (State.cut m), ite_self, m_regs, m_pwr]

theorem State.onPort_cut {m : Area → Bool} (s : State) (p : ℕ) (f : MagPort → MagPort) (m_mag : m .mag := by assumption) :
    (State.onPort s p f).cut m = s.cut m := by
  unfold State.onPort
  simp only [↓State.onMag_cut, ↓apply_ite (State.cut m), ite_self, m_mag]

theorem State.setMagState_cut {m : Area → Bool} (s : State) (p : Nat) (n : Nat) (m_regs : m .regs := by assumption) :
    (State.setMagState s p n).cut m = s.cut m := by
  unfold State.setMagState
  simp only [↓State.setF_cut, m_regs]

theorem State.magPin_cut {m : Area → Bool} (s : State) (p : ℕ) (name : String) (b : Bool) (m_out : m .out := by assumption) :
    (State.magPin s p name b).cut m = s.cut m := by
  unfold State.magPin
  simp only [↓State.emit_cut, ↓apply_ite (State.cut m), ite_self, m_out]

theorem State.magPinsOff_cut {m : Area → Bool} (s : State) (p : ℕ) (m_out : m .out := by assumption) :
    (State.magPinsOff s p).cut m = s.cut m := by
  unfold State.magPinsOff
  simp only [↓State.magPin_cut, ↓apply_ite (State.cut m), ite_self, m_out]

theorem State.outputsDown_cut {m : Area → Bool} (s : State) (m_pnl : m .pnl := by assumption) (m_out : m .out := by assumption) :
    (State.outputsDown s).cut m = s.cut m := by
  unfold State.outputsDown
  repeat' (first | (with_reducible refine (foldl_cut _ _ _ fun s x => ?_).trans ?_) | split | simp only [↓State.emit_cut, ↓State.onPnl_cut, ↓State.magPinsOff_cut, m_pnl, m_out])

theorem State.coreDown_cut {m : Area → Bool} (s : State) (m_regs : m .regs := by assumption) (m_pwr : m .pwr := by assumption) (m_hst : m .hst := by assumption) (m_stg : m .stg := by assumption) (m_gen : m .gen := by assumption) (m_rdg : m .rdg := by assumption) (m_links : m .links := by assumption) (m_thm : m .thm := by assumption) (m_drv : m .drv := by assumption) (m_cal : m .cal := by assumption) (m_pnl : m .pnl := by assumption) (m_bnk : m .bnk := by assumption) (m_mag : m .mag := by assumption) (m_thc : m .thc := by assumption) (m_relay : m .relay := by assumption) (m_out : m .out := by assumption) :
    (State.coreDown s).cut m = s.cut m := by
  unfold State.coreDown
  extract_lets +onlyGivenNames s0 s1 s2 s3 s4 s5
  have h0 : s0.cut m = s.cut m := State.outputsDown_cut ..
  have h1 : s1.cut m = s0.cut m := foldl_cut _ _ _ fun s x => State.setF_cut ..
  have h2 : s2.cut m = s1.cut m := foldl_cut _ _ _ fun s x => State.setMagState_cut ..
  have h3 : s3.cut m = s2.cut m := foldl_cut _ _ _ fun s x => State.setReg_cut ..
  have h4 : s4.cut m = s3.cut m := (State.onBnk_cut ..).trans (foldl_cut _ _ _ fun s x => State.setReg_cut ..)
  refine (State.onPwr_cut _ _).trans ((State.allOff_cut _).trans ?_)
  rw [← h0, ← h1, ← h2, ← h3, ← h4]
  simp only [s5, State.cut, if_true, m_regs, m_pwr, m_hst, m_stg, m_gen, m_rdg, m_links, m_thm, m_drv, m_cal, m_pnl, m_bnk, m_mag, m_thc, m_relay, m_out]
  cases m .tmk <;> rfl

theorem State.viaReg_cut {m : Area → Bool} (s : State) (off : ℕ) (v : Word) (f : State → State) (h_f : ∀ y0, (f y0).cut m = y0.cut m) (m_regs : m .regs := by assumption) (m_pwr : m .pwr := by assumption) (m_evt : m .evt := by assumption) (m_links : m .links := by assumption) (m_out : m .out := by assumption) :
    (State.viaReg s off v f).cut m = s.cut m := by
  unfold State.viaReg
  repeat' (first | (with_reducible refine (State.viaHst_cut (h_f := fun y0 => ?_) (s := _)).trans ?_) | split | simp only [↓State.stallOn_cut, h_f, m_regs, m_pwr, m_evt, m_links, m_out])

theorem State.dropHeading_cut {m : Area → Bool} (s : State) (m_pwr : m .pwr := by assumption) :
    (State.dropHeading s).cut m = s.cut m := by
  unfold State.dropHeading
  simp only [↓State.onPwr_cut, ↓apply_ite (State.cut m), ite_self, m_pwr]

theorem State.setRate_cut {m : Area → Bool} (s : State) (m_regs : m .regs := by assumption) :
    (State.setRate s).cut m = s.cut m := by
  unfold State.setRate
  simp only [↓State.setF_cut, ↓apply_ite (State.cut m), ite_self, m_regs]

theorem State.avsSend_cut {m : Area → Bool} (s : State) (v : ℕ) (m_out : m .out := by assumption) :
    (State.avsSend s v).cut m = s.cut m := by
  unfold State.avsSend
  simp only [↓State.emit_cut, ↓apply_ite (State.cut m), ite_self, m_out]

theorem State.startWrite_cut {m : Area → Bool} (s : State) (v : ℕ) (m_regs : m .regs := by assumption) (m_pwr : m .pwr := by assumption) (m_out : m .out := by assumption) :
    (State.startWrite s v).cut m = s.cut m := by
  unfold State.startWrite
  simp only [↓State.onPwr_cut, ↓State.setRate_cut, ↓State.avsSend_cut, ↓apply_ite (State.cut m), ite_self, m_regs, m_pwr, m_out]

theorem State.avsLead_cut {m : Area → Bool} (s : State) (m_regs : m .regs := by assumption) (m_pwr : m .pwr := by assumption) (m_out : m .out := by assumption) :
    (State.avsLead s).cut m = s.cut m := by
  unfold State.avsLead
  simp only [↓State.emit_cut, ↓State.onPwr_cut, ↓State.setRate_cut, ↓State.startWrite_cut, ↓apply_ite (State.cut m), ite_self, m_regs, m_pwr, m_out]

theorem State.avsAim_cut {m : Area → Bool} (s : State) (m_regs : m .regs := by assumption) (m_pwr : m .pwr := by assumption) (m_out : m .out := by assumption) :
    (State.avsAim s).cut m = s.cut m := by
  unfold State.avsAim
  simp only [↓State.emit_cut, ↓State.onPwr_cut, ↓State.setRate_cut, ↓State.startWrite_cut, ↓State.avsLead_cut, ↓apply_ite (State.cut m), ite_self, m_regs, m_pwr, m_out]

theorem execVtRecompute_cut {m : Area → Bool} (s : State) (m_regs : m .regs := by assumption) (m_pwr : m .pwr := by assumption) (m_out : m .out := by assumption) :
    outCut m (execVtRecompute s) = some (s.cut m) := by
  unfold execVtRecompute
  simp only [↓State.setReg_cut, ↓State.avsAim_cut, ↓apply_ite (State.cut m), ite_self, ↓outCut_next, ↓apply_ite (outCut m), m_regs, m_pwr, m_out]

theorem State.stepConfirmed_cut {m : Area → Bool} (s : State) (m_pwr : m .pwr := by assumption) :
    (State.stepConfirmed s).cut m = s.cut m := by
  unfold State.stepConfirmed
  simp only [↓State.onPwr_cut, ↓apply_ite (State.cut m), ite_self, m_pwr]

theorem State.takeTarget_cut {m : Area → Bool} (s : State) (m_regs : m .regs := by assumption) (m_pwr : m .pwr := by assumption) (m_out : m .out := by assumption) :
    (State.takeTarget s).cut m = s.cut m := by
  unfold State.takeTarget
  simp only [↓State.onPwr_cut, ↓State.avsAim_cut, ↓apply_ite (State.cut m), ite_self, m_regs, m_pwr, m_out]

theorem execAvsVoltageConfirmed_cut {m : Area → Bool} (s : State) (m_regs : m .regs := by assumption) (m_pwr : m .pwr := by assumption) (m_hst : m .hst := by assumption) (m_rdg : m .rdg := by assumption) (m_links : m .links := by assumption) (m_out : m .out := by assumption) :
    outCut m (execAvsVoltageConfirmed s) = some (s.cut m) := by
  unfold execAvsVoltageConfirmed
  repeat' (first | (refine congrArg some ?_) | split | simp only [↓State.setF_cut, ↓State.emit_cut, ↓State.onPwr_cut, ↓State.setReady_cut, ↓State.setRate_cut, ↓State.stepConfirmed_cut, ↓State.takeTarget_cut, m_regs, m_pwr, m_hst, m_rdg, m_links, m_out])

theorem execPwrAvsTimeout_cut {m : Area → Bool} (s : State) (m_regs : m .regs := by assumption) (m_pwr : m .pwr := by assumption) (m_evt : m .evt := by assumption) (m_out : m .out := by assumption) :
    outCut m (execPwrAvsTimeout s) = some (s.cut m) := by
  unfold execPwrAvsTimeout
  repeat' (first | (refine congrArg some ?_) | split | simp only [↓State.setF_cut, ↓State.onPwr_cut, ↓State.event_cut, ↓State.setRate_cut, ↓State.avsSend_cut, ↓State.takeTarget_cut, m_regs, m_pwr, m_evt, m_out])

theorem State.stepDown_cut {m : Area → Bool} (s : State) (m_regs : m .regs := by assumption) (m_pwr : m .pwr := by assumption) (m_out : m .out := by assumption) :
    (State.stepDown s).cut m = s.cut m := by
  unfold State.stepDown
  simp only [↓State.setF_cut, ↓State.emit_cut, ↓State.onPwr_cut, ↓State.avsAim_cut, ↓State.stepConfirmed_cut, ↓apply_ite (State.cut m), ite_self, m_regs, m_pwr, m_out]

theorem execRegStatusRead_cut {m : Area → Bool} (sts : RegulatorStatus) (s : State) (m_regs : m .regs := by assumption) (m_pwr : m .pwr := by assumption) (m_hst : m .hst := by assumption) (m_evt : m .evt := by assumption) (m_rdg : m .rdg := by assumption) (m_links : m .links := by assumption) (m_out : m .out := by assumption) :
    outCut m (execRegStatusRead sts s) = some (s.cut m) := by
  unfold execRegStatusRead
  simp only [↓State.setF_cut, ↓State.onPwr_cut, ↓State.event_cut, ↓State.alarm_cut, ↓State.stepDown_cut, ↓apply_ite (State.cut m), ite_self, ↓outCut_next, ↓apply_ite (outCut m), m_regs, m_pwr, m_hst, m_evt, m_rdg, m_links, m_out]

theorem State.releaseLimit_cut {m : Area → Bool} (s : State) (v : Word) (m_regs : m .regs := by assumption) (m_pwr : m .pwr := by assumption) (m_evt : m .evt := by assumption) (m_out : m .out := by assumption) :
    (State.releaseLimit s v).cut m = s.cut m := by
  unfold State.releaseLimit
  simp only [↓State.setF_cut, ↓State.event_cut, ↓State.avsAim_cut, ↓apply_ite (State.cut m), ite_self, m_regs, m_pwr, m_evt, m_out]

theorem State.clearFlt_cut {m : Area → Bool} (s : State) (v : Word) (m_regs : m .regs := by assumption) :
    (State.clearFlt s v).cut m = s.cut m := by
  unfold State.clearFlt
  repeat' (first | (with_reducible refine (foldl_cut _ _ _ fun s x => ?_).trans ?_) | split | simp only [↓State.setReg_cut, m_regs])

theorem execPwrAvsRelease_cut {m : Area → Bool} (v : Word) (s : State) (m_regs : m .regs := by assumption) (m_pwr : m .pwr := by assumption) (m_evt : m .evt := by assumption) (m_out : m .out := by assumption) :
    outCut m (execPwrAvsRelease v s) = some (s.cut m) := by
  unfold execPwrAvsRelease
  repeat' (first | (refine congrArg some ?_) | (with_reducible refine (State.viaHst_cut (h_f := fun y0 => ?_) (s := _)).trans ?_) | split | simp only [↓State.releaseLimit_cut, ↓State.clearFlt_cut, m_regs, m_pwr, m_evt, m_out])

theorem State.formPair_cut {m : Area → Bool} (s : State) (partnerRole : ℕ) (m_regs : m .regs := by assumption) (m_pwr : m .pwr := by assumption) (m_hst : m .hst := by assumption) (m_rdg : m .rdg := by assumption) (m_links : m .links := by assumption) (m_out : m .out := by assumption) :
    (State.formPair s partnerRole).cut m = s.cut m := by
  unfold State.formPair
  simp only [↓State.emit_cut, ↓State.onPwr_cut, ↓State.signal_cut, ↓State.setRate_cut, ↓apply_ite (State.cut m), ite_self, m_regs, m_pwr, m_hst, m_rdg, m_links, m_out]

theorem State.losePair_cut {m : Area → Bool} (s : State) (m_regs : m .regs := by assumption) (m_pwr : m .pwr := by assumption) (m_hst : m .hst := by assumption) (m_evt : m .evt := by assumption) (m_rdg : m .rdg := by assumption) (m_links : m .links := by assumption) (m_out : m .out := by assumption) :
    (State.losePair s).cut m = s.cut m := by
  unfold State.losePair
  simp only [↓State.setF_cut, ↓State.onPwr_cut, ↓State.signal_cut, ↓State.event_cut, ↓State.clearReady_cut, ↓State.setRate_cut, ↓apply_ite (State.cut m), ite_self, m_regs, m_pwr, m_hst, m_evt, m_rdg, m_links, m_out]

theorem execPair_cut {m : Area → Bool} (m1 : PairMsg) (s : State) (m_regs : m .regs := by assumption) (m_pwr : m .pwr := by assumption) (m_hst : m .hst := by assumption) (m_rdg : m .rdg := by assumption) (m_links : m .links := by assumption) (m_out : m .out := by assumption) :
    outCut m (execPair m1 s) = some (s.cut m) := by
  unfold execPair
  repeat' (first | (refine congrArg some ?_) | split | simp only [↓State.setF_cut, ↓State.emit_cut, ↓State.onPwr_cut, ↓State.setReady_cut, ↓State.setRate_cut, ↓State.avsAim_cut, m_regs, m_pwr, m_hst, m_rdg, m_links, m_out])

theorem State.setDrvState_cut {m : Area → Bool} (s : State) (g : Nat) (n : Nat) (m_regs : m .regs := by assumption) :
    (State.setDrvState s g n).cut m = s.cut m := by
  unfold State.setDrvState
  simp only [↓State.setF_cut, m_regs]

theorem State.pumpDrv_cut {m : Area → Bool} (s : State) (g : ℕ) (m_drv : m .drv := by assumption) (m_out : m .out := by assumption) :
    (State.pumpDrv s g).cut m = s.cut m := by
  unfold State.pumpDrv
  repeat' (first | split | simp only [↓State.emit_cut, ↓State.setDriver_cut, m_drv, m_out])

theorem State.sendDrv_cut {m : Area → Bool} (s : State) (g : ℕ) (write : Bool) (addr : ℕ) (data : Word) (use : DrvUse) (m_drv : m .drv := by assumption) (m_out : m .out := by assumption) :
    (State.sendDrv s g write addr data use).cut m = s.cut m := by
  unfold State.sendDrv
  simp only [↓State.setDriver_cut, ↓State.pumpDrv_cut, ↓apply_ite (State.cut m), ite_self, m_drv, m_out]

theorem State.endDrvCmd_cut {m : Area → Bool} (s : State) (g : ℕ) (m_drv : m .drv := by assumption) (m_out : m .out := by assumption) :
    (State.endDrvCmd s g).cut m = s.cut m := by
  unfold State.endDrvCmd
  simp only [↓State.setDriver_cut, ↓State.pumpDrv_cut, ↓apply_ite (State.cut m), ite_self, m_drv, m_out]

theorem State.startTrain_cut {m : Area → Bool} (s : State) (g : ℕ) (m_regs : m .regs := by assumption) (m_thm : m .thm := by assumption) (m_drv : m .drv := by assumption) (m_freeN : m .freeN := by assumption) (m_out : m .out := by assumption) :
    (State.startTrain s g).cut m = s.cut m := by
  unfold State.startTrain
  simp only [↓State.emit_cut, ↓State.free_cut, ↓State.setDriver_cut, ↓State.recordBand_cut, ↓State.setDrvState_cut, ↓apply_ite (State.cut m), ite_self, m_regs, m_thm, m_drv, m_freeN, m_out]

theorem State.failTrain_cut {m : Area → Bool} (s : State) (g : ℕ) (m_regs : m .regs := by assumption) (m_evt : m .evt := by assumption) (m_drv : m .drv := by assumption) (m_out : m .out := by assumption) :
    (State.failTrain s g).cut m = s.cut m := by
  unfold State.failTrain
  simp only [↓State.setDriver_cut, ↓State.event_cut, ↓State.setDrvState_cut, ↓State.pumpDrv_cut, ↓apply_ite (State.cut m), ite_self, m_regs, m_evt, m_drv, m_out]

theorem execBatTrainTimeout_cut {m : Area → Bool} (g : Fin 24) (s : State) (m_regs : m .regs := by assumption) (m_evt : m .evt := by assumption) (m_drv : m .drv := by assumption) (m_out : m .out := by assumption) :
    outCut m (execBatTrainTimeout g s) = some (s.cut m) := by
  unfold execBatTrainTimeout
  simp only [↓State.failTrain_cut, ↓apply_ite (State.cut m), ite_self, ↓outCut_next, ↓apply_ite (outCut m), m_regs, m_evt, m_drv, m_out]

theorem State.setSeq_cut {m : Area → Bool} (s : State) (seq : ℕ) (step : ℕ) (m_regs : m .regs := by assumption) :
    (State.setSeq s seq step).cut m = s.cut m := by
  unfold State.setSeq
  simp only [↓State.setF_cut, ↓apply_ite (State.cut m), ite_self, m_regs]

theorem State.latchPanel_cut {m : Area → Bool} (s : State) (m_pnl : m .pnl := by assumption) :
    (State.latchPanel s).cut m = s.cut m := by
  unfold State.latchPanel
  simp only [↓State.onPnl_cut, ↓apply_ite (State.cut m), ite_self, m_pnl]

theorem State.afterTrain_cut {m : Area → Bool} (s : State) (g : ℕ) (m_drv : m .drv := by assumption) (m_out : m .out := by assumption) :
    (State.afterTrain s g).cut m = s.cut m := by
  unfold State.afterTrain
  simp only [↓State.sendDrv_cut, ↓apply_ite (State.cut m), ite_self, m_drv, m_out]

theorem State.drvActive_cut {m : Area → Bool} (s : State) (g : ℕ) (m_regs : m .regs := by assumption) (m_drv : m .drv := by assumption) (m_out : m .out := by assumption) :
    (State.drvActive s g).cut m = s.cut m := by
  unfold State.drvActive
  simp only [↓State.setDriver_cut, ↓State.setDrvState_cut, ↓State.afterTrain_cut, ↓apply_ite (State.cut m), ite_self, m_regs, m_drv, m_out]

theorem State.setTarget_cut {m : Area → Bool} (s : State) (n : ℕ) (m_regs : m .regs := by assumption) :
    (State.setTarget s n).cut m = s.cut m := by
  unfold State.setTarget
  simp only [↓State.setF_cut, ↓apply_ite (State.cut m), ite_self, m_regs]

theorem State.beginOff_cut {m : Area → Bool} (s : State) (slot : Bool) (cause : ℕ) (m_regs : m .regs := by assumption) (m_pnl : m .pnl := by assumption) :
    (State.beginOff s slot cause).cut m = s.cut m := by
  unfold State.beginOff
  simp only [↓State.onPnl_cut, ↓State.setSeq_cut, ↓State.latchPanel_cut, ↓State.setTarget_cut, ↓apply_ite (State.cut m), ite_self, m_regs, m_pnl]

theorem State.shortPolicy_cut {m : Area → Bool} (s : State) (old : ℕ) (new : ℕ) (m_regs : m .regs := by assumption) (m_hst : m .hst := by assumption) (m_evt : m .evt := by assumption) (m_rdg : m .rdg := by assumption) (m_links : m .links := by assumption) (m_pnl : m .pnl := by assumption) (m_out : m .out := by assumption) :
    (State.shortPolicy s old new).cut m = s.cut m := by
  unfold State.shortPolicy
  simp only [↓State.event_cut, ↓State.alarm_cut, ↓State.beginOff_cut, ↓apply_ite (State.cut m), ite_self, m_regs, m_hst, m_evt, m_rdg, m_links, m_pnl, m_out]

theorem State.setFmask_cut {m : Area → Bool} (s : State) (m1 : ℕ) (m_regs : m .regs := by assumption) (m_hst : m .hst := by assumption) (m_evt : m .evt := by assumption) (m_rdg : m .rdg := by assumption) (m_links : m .links := by assumption) (m_pnl : m .pnl := by assumption) (m_fmask : m .fmask := by assumption) (m_out : m .out := by assumption) :
    (State.setFmask s m1).cut m = s.cut m := by
  unfold State.setFmask
  simp only [↓State.setF_cut, ↓State.event_cut, ↓State.shortPolicy_cut, ↓cut_fmask, ↓apply_ite (State.cut m), ite_self, m_regs, m_hst, m_evt, m_rdg, m_links, m_pnl, m_fmask, m_out]

theorem State.takeShort_cut {m : Area → Bool} (s : State) (g : ℕ) (o : ℕ) (m_regs : m .regs := by assumption) (m_hst : m .hst := by assumption) (m_evt : m .evt := by assumption) (m_rdg : m .rdg := by assumption) (m_links : m .links := by assumption) (m_pnl : m .pnl := by assumption) (m_fmask : m .fmask := by assumption) (m_out : m .out := by assumption) :
    (State.takeShort s g o).cut m = s.cut m := by
  unfold State.takeShort
  repeat' (first | split | simp only [↓State.event_cut, ↓State.setFmask_cut, m_regs, m_hst, m_evt, m_rdg, m_links, m_pnl, m_fmask, m_out])

theorem State.frameBack_cut {m : Area → Bool} (s : State) (g : ℕ) (m_regs : m .regs := by assumption) (m_evt : m .evt := by assumption) (m_drv : m .drv := by assumption) :
    (State.frameBack s g).cut m = s.cut m := by
  unfold State.frameBack
  simp only [↓State.setDriver_cut, ↓State.event_cut, ↓State.setDrvState_cut, ↓apply_ite (State.cut m), ite_self, m_regs, m_evt, m_drv]

theorem State.trainStatus_cut {m : Area → Bool} (s : State) (g : ℕ) (lock : Bool) (m_drv : m .drv := by assumption) (m_out : m .out := by assumption) :
    (State.trainStatus s g lock).cut m = s.cut m := by
  unfold State.trainStatus
  simp only [↓State.emit_cut, ↓State.setDriver_cut, ↓State.sendDrv_cut, ↓apply_ite (State.cut m), ite_self, m_drv, m_out]

theorem State.watchLock_cut {m : Area → Bool} (s : State) (g : ℕ) (lock : Bool) (m_regs : m .regs := by assumption) (m_evt : m .evt := by assumption) (m_thm : m .thm := by assumption) (m_drv : m .drv := by assumption) (m_freeN : m .freeN := by assumption) (m_out : m .out := by assumption) :
    (State.watchLock s g lock).cut m = s.cut m := by
  unfold State.watchLock
  simp only [↓State.bump_cut, ↓State.setDriver_cut, ↓State.event_cut, ↓State.startTrain_cut, ↓apply_ite (State.cut m), ite_self, m_regs, m_evt, m_thm, m_drv, m_freeN, m_out]

theorem execBatStatusFrame_cut {m : Area → Bool} (g : Fin 24) (f : BatStatus) (s : State) (m_regs : m .regs := by assumption) (m_hst : m .hst := by assumption) (m_evt : m .evt := by assumption) (m_rdg : m .rdg := by assumption) (m_links : m .links := by assumption) (m_thm : m .thm := by assumption) (m_drv : m .drv := by assumption) (m_pnl : m .pnl := by assumption) (m_fmask : m .fmask := by assumption) (m_freeN : m .freeN := by assumption) (m_out : m .out := by assumption) :
    outCut m (execBatStatusFrame g f s) = some (s.cut m) := by
  unfold execBatStatusFrame
  simp only [↓State.setF_cut, ↓State.bump_cut, ↓State.setDriver_cut, ↓State.event_cut, ↓State.takeShort_cut, ↓State.frameBack_cut, ↓State.trainStatus_cut, ↓State.watchLock_cut, ↓apply_ite (State.cut m), ite_self, ↓outCut_next, ↓apply_ite (outCut m), m_regs, m_hst, m_evt, m_rdg, m_links, m_thm, m_drv, m_pnl, m_fmask, m_freeN, m_out]

theorem execBatStLost_cut {m : Area → Bool} (g : Fin 24) (s : State) (m_regs : m .regs := by assumption) (m_evt : m .evt := by assumption) (m_drv : m .drv := by assumption) :
    outCut m (execBatStLost g s) = some (s.cut m) := by
  unfold execBatStLost
  simp only [↓State.setDriver_cut, ↓State.event_cut, ↓State.setDrvState_cut, ↓apply_ite (State.cut m), ite_self, ↓outCut_next, ↓apply_ite (outCut m), m_regs, m_evt, m_drv]

theorem State.endBatCmd_cut {m : Area → Bool} (s : State) (result : ℕ) (data : Option Word) (m_regs : m .regs := by assumption) :
    (State.endBatCmd s result data).cut m = s.cut m := by
  unfold State.endBatCmd
  repeat' (first | split | simp only [↓State.setReg_cut, ↓State.setF_cut, m_regs])

theorem State.driverOff_cut {m : Area → Bool} (s : State) (g : ℕ) (m_regs : m .regs := by assumption) (m_evt : m .evt := by assumption) (m_drv : m .drv := by assumption) :
    (State.driverOff s g).cut m = s.cut m := by
  unfold State.driverOff
  simp only [↓State.setDriver_cut, ↓State.event_cut, ↓State.setDrvState_cut, ↓State.endBatCmd_cut, ↓apply_ite (State.cut m), ite_self, m_regs, m_evt, m_drv]

theorem State.writeBatCmd_cut {m : Area → Bool} (s : State) (v : Word) (m_regs : m .regs := by assumption) (m_evt : m .evt := by assumption) (m_drv : m .drv := by assumption) (m_out : m .out := by assumption) :
    (State.writeBatCmd s v).cut m = s.cut m := by
  unfold State.writeBatCmd
  simp only [↓State.setF_cut, ↓State.event_cut, ↓State.sendDrv_cut, ↓State.endBatCmd_cut, ↓apply_ite (State.cut m), ite_self, m_regs, m_evt, m_drv, m_out]

theorem execBatCmdWrite_cut {m : Area → Bool} (v : Word) (s : State) (m_regs : m .regs := by assumption) (m_pwr : m .pwr := by assumption) (m_evt : m .evt := by assumption) (m_links : m .links := by assumption) (m_drv : m .drv := by assumption) (m_out : m .out := by assumption) :
    outCut m (execBatCmdWrite v s) = some (s.cut m) := by
  unfold execBatCmdWrite
  repeat' (first | (refine congrArg some ?_) | (with_reducible refine (State.viaReg_cut (h_f := fun y0 => ?_) (s := _) (off := _) (v := _)).trans ?_) | split | simp only [↓State.writeBatCmd_cut, m_regs, m_pwr, m_evt, m_links, m_drv, m_out])

theorem execBatCmdRead_cut {m : Area → Bool} (v : Word) (s : State) (m_regs : m .regs := by assumption) (m_pwr : m .pwr := by assumption) (m_evt : m .evt := by assumption) (m_links : m .links := by assumption) (m_drv : m .drv := by assumption) (m_out : m .out := by assumption) :
    outCut m (execBatCmdRead v s) = some (s.cut m) := by
  unfold execBatCmdRead
  repeat' (first | (refine congrArg some ?_) | (with_reducible refine (State.viaReg_cut (h_f := fun y0 => ?_) (s := _) (off := _) (v := _)).trans ?_) | split | simp only [↓State.writeBatCmd_cut, m_regs, m_pwr, m_evt, m_links, m_drv, m_out])

theorem State.trainResp_cut {m : Area → Bool} (s : State) (g : ℕ) (f : BatResp) (m_regs : m .regs := by assumption) (m_evt : m .evt := by assumption) (m_drv : m .drv := by assumption) (m_out : m .out := by assumption) :
    (State.trainResp s g f).cut m = s.cut m := by
  unfold State.trainResp
  simp only [↓State.setDriver_cut, ↓State.sendDrv_cut, ↓State.failTrain_cut, ↓State.drvActive_cut, ↓apply_ite (State.cut m), ite_self, m_regs, m_evt, m_drv, m_out]

theorem State.setPanelPin_cut {m : Area → Bool} (s : State) (n : ℕ) (b : Bool) (m_pnl : m .pnl := by assumption) (m_out : m .out := by assumption) :
    (State.setPanelPin s n b).cut m = s.cut m := by
  unfold State.setPanelPin
  simp only [↓State.emit_cut, ↓State.onPnl_cut, ↓apply_ite (State.cut m), ite_self, m_pnl, m_out]

theorem State.setPanelPins_cut {m : Area → Bool} (s : State) (l : List (ℕ × Bool)) (m_pnl : m .pnl := by assumption) (m_out : m .out := by assumption) :
    (State.setPanelPins s l).cut m = s.cut m := by
  unfold State.setPanelPins
  repeat' (first | (with_reducible refine (foldl_cut _ _ _ fun s x => ?_).trans ?_) | split | simp only [↓State.setPanelPin_cut, m_pnl, m_out])

theorem State.setBatRst_cut {m : Area → Bool} (s : State) (b : Bool) (m_regs : m .regs := by assumption) (m_evt : m .evt := by assumption) (m_drv : m .drv := by assumption) (m_pnl : m .pnl := by assumption) (m_out : m .out := by assumption) :
    (State.setBatRst s b).cut m = s.cut m := by
  unfold State.setBatRst
  repeat' (first | (with_reducible refine (foldl_cut _ _ _ fun s x => ?_).trans ?_) | split | simp only [↓State.emit_cut, ↓State.onPnl_cut, ↓State.driverOff_cut, m_regs, m_evt, m_drv, m_pnl, m_out])

theorem State.setRail_cut {m : Area → Bool} (s : State) (n : ℕ) (b : Bool) (m_regs : m .regs := by assumption) (m_out : m .out := by assumption) :
    (State.setRail s n b).cut m = s.cut m := by
  unfold State.setRail
  simp only [↓State.setF_cut, ↓State.emit_cut, ↓apply_ite (State.cut m), ite_self, m_regs, m_out]

theorem State.setPg_cut {m : Area → Bool} (s : State) (n : ℕ) (b : Bool) (m_regs : m .regs := by assumption) :
    (State.setPg s n b).cut m = s.cut m := by
  unfold State.setPg
  simp only [↓State.setF_cut, ↓apply_ite (State.cut m), ite_self, m_regs]

theorem State.panelOutputsOff_cut {m : Area → Bool} (s : State) (m_regs : m .regs := by assumption) (m_evt : m .evt := by assumption) (m_drv : m .drv := by assumption) (m_pnl : m .pnl := by assumption) (m_out : m .out := by assumption) :
    (State.panelOutputsOff s).cut m = s.cut m := by
  unfold State.panelOutputsOff
  simp only [↓State.setPanelPins_cut, ↓State.setBatRst_cut, ↓apply_ite (State.cut m), ite_self, m_regs, m_evt, m_drv, m_pnl, m_out]

theorem State.sendDisch_cut {m : Area → Bool} (s : State) (level : ℕ) (m_drv : m .drv := by assumption) (m_out : m .out := by assumption) :
    (State.sendDisch s level).cut m = s.cut m := by
  unfold State.sendDisch
  repeat' (first | (with_reducible refine (foldl_cut _ _ _ fun s x => ?_).trans ?_) | split | simp only [↓State.sendDrv_cut, m_drv, m_out])

theorem State.panelDomainsOff_cut {m : Area → Bool} (s : State) (m_regs : m .regs := by assumption) (m_evt : m .evt := by assumption) (m_drv : m .drv := by assumption) :
    (State.panelDomainsOff s).cut m = s.cut m := by
  unfold State.panelDomainsOff
  repeat' (first | (with_reducible refine (foldl_cut _ _ _ fun s x => ?_).trans ?_) | split | simp only [↓State.setDomain_cut, ↓State.driverOff_cut, m_regs, m_evt, m_drv])

theorem State.arriveStandby_cut {m : Area → Bool} (s : State) (m_regs : m .regs := by assumption) (m_hst : m .hst := by assumption) (m_evt : m .evt := by assumption) (m_rdg : m .rdg := by assumption) (m_links : m .links := by assumption) (m_drv : m .drv := by assumption) (m_out : m .out := by assumption) :
    (State.arriveStandby s).cut m = s.cut m := by
  unfold State.arriveStandby
  simp only [↓State.setF_cut, ↓State.signal_cut, ↓State.panelDomainsOff_cut, ↓apply_ite (State.cut m), ite_self, m_regs, m_hst, m_evt, m_rdg, m_links, m_drv, m_out]

theorem State.shutDown_cut {m : Area → Bool} (s : State) (m_regs : m .regs := by assumption) (m_rst : m .rst := by assumption) (m_pwr : m .pwr := by assumption) (m_hst : m .hst := by assumption) (m_stg : m .stg := by assumption) (m_evt : m .evt := by assumption) (m_gen : m .gen := by assumption) (m_rdg : m .rdg := by assumption) (m_links : m .links := by assumption) (m_thm : m .thm := by assumption) (m_drv : m .drv := by assumption) (m_cal : m .cal := by assumption) (m_pnl : m .pnl := by assumption) (m_bnk : m .bnk := by assumption) (m_mag : m .mag := by assumption) (m_thc : m .thc := by assumption) (m_relay : m .relay := by assumption) (m_out : m .out := by assumption) :
    (State.shutDown s).cut m = s.cut m := by
  unfold State.shutDown
  repeat' (first | (with_reducible refine (foldl_cut _ _ _ fun s x => ?_).trans ?_) | split | simp only [↓State.setF_cut, ↓State.onRst_cut, ↓State.alarm_cut, ↓State.clearReady_cut, ↓State.coreDown_cut, m_regs, m_rst, m_pwr, m_hst, m_stg, m_evt, m_gen, m_rdg, m_links, m_thm, m_drv, m_cal, m_pnl, m_bnk, m_mag, m_thc, m_relay, m_out])

theorem State.beginEmerg_cut {m : Area → Bool} (s : State) (cause : ℕ) (m_regs : m .regs := by assumption) (m_pwr : m .pwr := by assumption) (m_drv : m .drv := by assumption) (m_pnl : m .pnl := by assumption) (m_freeN : m .freeN := by assumption) (m_out : m .out := by assumption) :
    (State.beginEmerg s cause).cut m = s.cut m := by
  unfold State.beginEmerg
  simp only [↓State.free_cut, ↓State.onPnl_cut, ↓State.dropHeading_cut, ↓State.setSeq_cut, ↓State.setTarget_cut, ↓State.setPanelPin_cut, ↓State.sendDisch_cut, ↓apply_ite (State.cut m), ite_self, m_regs, m_pwr, m_drv, m_pnl, m_freeN, m_out]

theorem State.thermalShutdown_cut {m : Area → Bool} (s : State) (m_regs : m .regs := by assumption) (m_rst : m .rst := by assumption) (m_pwr : m .pwr := by assumption) (m_hst : m .hst := by assumption) (m_stg : m .stg := by assumption) (m_evt : m .evt := by assumption) (m_gen : m .gen := by assumption) (m_rdg : m .rdg := by assumption) (m_links : m .links := by assumption) (m_thm : m .thm := by assumption) (m_drv : m .drv := by assumption) (m_cal : m .cal := by assumption) (m_pnl : m .pnl := by assumption) (m_bnk : m .bnk := by assumption) (m_mag : m .mag := by assumption) (m_thc : m .thc := by assumption) (m_relay : m .relay := by assumption) (m_freeN : m .freeN := by assumption) (m_out : m .out := by assumption) :
    (State.thermalShutdown s).cut m = s.cut m := by
  unfold State.thermalShutdown
  simp only [↓State.onRst_cut, ↓State.shutDown_cut, ↓State.beginEmerg_cut, ↓apply_ite (State.cut m), ite_self, m_regs, m_rst, m_pwr, m_hst, m_stg, m_evt, m_gen, m_rdg, m_links, m_thm, m_drv, m_cal, m_pnl, m_bnk, m_mag, m_thc, m_relay, m_freeN, m_out]

theorem State.emergTrigger_cut {m : Area → Bool} (s : State) (cause : EmergCause) (m_regs : m .regs := by assumption) (m_rst : m .rst := by assumption) (m_pwr : m .pwr := by assumption) (m_hst : m .hst := by assumption) (m_stg : m .stg := by assumption) (m_evt : m .evt := by assumption) (m_gen : m .gen := by assumption) (m_rdg : m .rdg := by assumption) (m_links : m .links := by assumption) (m_thm : m .thm := by assumption) (m_drv : m .drv := by assumption) (m_cal : m .cal := by assumption) (m_pnl : m .pnl := by assumption) (m_bnk : m .bnk := by assumption) (m_mag : m .mag := by assumption) (m_thc : m .thc := by assumption) (m_relay : m .relay := by assumption) (m_freeN : m .freeN := by assumption) (m_out : m .out := by assumption) :
    (State.emergTrigger s cause).cut m = s.cut m := by
  unfold State.emergTrigger
  repeat' (first | split | simp only [↓State.setF_cut, ↓State.setPg_cut, ↓State.beginEmerg_cut, ↓State.thermalShutdown_cut, m_regs, m_rst, m_pwr, m_hst, m_stg, m_evt, m_gen, m_rdg, m_links, m_thm, m_drv, m_cal, m_pnl, m_bnk, m_mag, m_thc, m_relay, m_freeN, m_out])

theorem State.crackPolicy_cut {m : Area → Bool} (s : State) (m_regs : m .regs := by assumption) (m_pwr : m .pwr := by assumption) (m_hst : m .hst := by assumption) (m_evt : m .evt := by assumption) (m_rdg : m .rdg := by assumption) (m_links : m .links := by assumption) (m_drv : m .drv := by assumption) (m_pnl : m .pnl := by assumption) (m_freeN : m .freeN := by assumption) (m_out : m .out := by assumption) :
    (State.crackPolicy s).cut m = s.cut m := by
  unfold State.crackPolicy
  simp only [↓State.alarm_cut, ↓State.beginOff_cut, ↓State.beginEmerg_cut, ↓apply_ite (State.cut m), ite_self, m_regs, m_pwr, m_hst, m_evt, m_rdg, m_links, m_drv, m_pnl, m_freeN, m_out]

theorem State.enterCrack_cut {m : Area → Bool} (s : State) (st : ℕ) (m_regs : m .regs := by assumption) (m_pwr : m .pwr := by assumption) (m_hst : m .hst := by assumption) (m_evt : m .evt := by assumption) (m_rdg : m .rdg := by assumption) (m_links : m .links := by assumption) (m_drv : m .drv := by assumption) (m_pnl : m .pnl := by assumption) (m_freeN : m .freeN := by assumption) (m_out : m .out := by assumption) :
    (State.enterCrack s st).cut m = s.cut m := by
  unfold State.enterCrack
  simp only [↓State.setF_cut, ↓State.bump_cut, ↓State.crackPolicy_cut, ↓apply_ite (State.cut m), ite_self, m_regs, m_pwr, m_hst, m_evt, m_rdg, m_links, m_drv, m_pnl, m_freeN, m_out]

theorem State.crackPolChanged_cut {m : Area → Bool} (s : State) (old : ℕ) (m_regs : m .regs := by assumption) (m_pwr : m .pwr := by assumption) (m_hst : m .hst := by assumption) (m_evt : m .evt := by assumption) (m_rdg : m .rdg := by assumption) (m_links : m .links := by assumption) (m_drv : m .drv := by assumption) (m_pnl : m .pnl := by assumption) (m_freeN : m .freeN := by assumption) (m_out : m .out := by assumption) :
    (State.crackPolChanged s old).cut m = s.cut m := by
  unfold State.crackPolChanged
  simp only [↓State.setF_cut, ↓State.onPnl_cut, ↓State.crackPolicy_cut, ↓apply_ite (State.cut m), ite_self, m_regs, m_pwr, m_hst, m_evt, m_rdg, m_links, m_drv, m_pnl, m_freeN, m_out]

theorem State.crackStart_cut {m : Area → Bool} (s : State) (m_pnl : m .pnl := by assumption) (m_out : m .out := by assumption) :
    (State.crackStart s).cut m = s.cut m := by
  unfold State.crackStart
  simp only [↓State.emit_cut, ↓State.onPnl_cut, ↓apply_ite (State.cut m), ite_self, m_pnl, m_out]

theorem execCrackMeasure_cut {m : Area → Bool} (s : State) (m_cal : m .cal := by assumption) (m_pnl : m .pnl := by assumption) (m_out : m .out := by assumption) :
    outCut m (execCrackMeasure s) = some (s.cut m) := by
  unfold execCrackMeasure
  simp only [↓State.onCal_cut, ↓State.crackStart_cut, ↓apply_ite (State.cut m), ite_self, ↓outCut_next, ↓apply_ite (outCut m), m_cal, m_pnl, m_out]

theorem State.countCrack_cut {m : Area → Bool} (s : State) (k : ℕ) (m_regs : m .regs := by assumption) (m_pwr : m .pwr := by assumption) (m_hst : m .hst := by assumption) (m_evt : m .evt := by assumption) (m_rdg : m .rdg := by assumption) (m_links : m .links := by assumption) (m_drv : m .drv := by assumption) (m_pnl : m .pnl := by assumption) (m_freeN : m .freeN := by assumption) (m_out : m .out := by assumption) :
    (State.countCrack s k).cut m = s.cut m := by
  unfold State.countCrack
  simp only [↓State.setF_cut, ↓State.onPnl_cut, ↓State.event_cut, ↓State.enterCrack_cut, ↓apply_ite (State.cut m), ite_self, m_regs, m_pwr, m_hst, m_evt, m_rdg, m_links, m_drv, m_pnl, m_freeN, m_out]

theorem State.crackEnd_cut {m : Area → Bool} (s : State) (r : CrackReading) (m_regs : m .regs := by assumption) (m_pwr : m .pwr := by assumption) (m_hst : m .hst := by assumption) (m_evt : m .evt := by assumption) (m_rdg : m .rdg := by assumption) (m_links : m .links := by assumption) (m_drv : m .drv := by assumption) (m_pnl : m .pnl := by assumption) (m_freeN : m .freeN := by assumption) (m_out : m .out := by assumption) :
    (State.crackEnd s r).cut m = s.cut m := by
  unfold State.crackEnd
  simp only [↓State.setF_cut, ↓State.emit_cut, ↓State.onPnl_cut, ↓State.countCrack_cut, ↓apply_ite (State.cut m), ite_self, m_regs, m_pwr, m_hst, m_evt, m_rdg, m_links, m_drv, m_pnl, m_freeN, m_out]

theorem State.setLkState_cut {m : Area → Bool} (s : State) (q : ℕ) (n : ℕ) (m_regs : m .regs := by assumption) (m_thm : m .thm := by assumption) :
    (State.setLkState s q n).cut m = s.cut m := by
  unfold State.setLkState
  simp only [↓State.setF_cut, ↓State.recordBand_cut, ↓apply_ite (State.cut m), ite_self, m_regs, m_thm]

theorem State.lkEvent_cut {m : Area → Bool} (s : State) (q : ℕ) (rafCode : ℕ) (m_regs : m .regs := by assumption) (m_evt : m .evt := by assumption) :
    (State.lkEvent s q rafCode).cut m = s.cut m := by
  unfold State.lkEvent
  simp only [↓State.event_cut, ↓apply_ite (State.cut m), ite_self, m_regs, m_evt]

theorem State.syncTxOut_cut {m : Area → Bool} (s : State) (q : ℕ) (m_regs : m .regs := by assumption) :
    (State.syncTxOut s q).cut m = s.cut m := by
  unfold State.syncTxOut
  simp only [↓State.setF_cut, ↓apply_ite (State.cut m), ite_self, m_regs]

theorem State.tryPair_cut {m : Area → Bool} (s : State) (m_regs : m .regs := by assumption) (m_pwr : m .pwr := by assumption) (m_hst : m .hst := by assumption) (m_rdg : m .rdg := by assumption) (m_links : m .links := by assumption) (m_out : m .out := by assumption) :
    (State.tryPair s).cut m = s.cut m := by
  unfold State.tryPair
  simp only [↓State.formPair_cut, ↓apply_ite (State.cut m), ite_self, m_regs, m_pwr, m_hst, m_rdg, m_links, m_out]

theorem State.leftActive_cut {m : Area → Bool} (s : State) (q : ℕ) (m_regs : m .regs := by assumption) (m_pwr : m .pwr := by assumption) (m_hst : m .hst := by assumption) (m_evt : m .evt := by assumption) (m_rdg : m .rdg := by assumption) (m_links : m .links := by assumption) (m_out : m .out := by assumption) :
    (State.leftActive s q).cut m = s.cut m := by
  unfold State.leftActive
  simp only [↓State.losePair_cut, ↓apply_ite (State.cut m), ite_self, m_regs, m_pwr, m_hst, m_evt, m_rdg, m_links, m_out]

theorem State.evalIso_cut {m : Area → Bool} (s : State) (q : ℕ) (m_regs : m .regs := by assumption) (m_pwr : m .pwr := by assumption) (m_hst : m .hst := by assumption) (m_evt : m .evt := by assumption) (m_rdg : m .rdg := by assumption) (m_links : m .links := by assumption) (m_out : m .out := by assumption) :
    (State.evalIso s q).cut m = s.cut m := by
  unfold State.evalIso
  simp only [↓State.setF_cut, ↓State.event_cut, ↓State.tryPair_cut, ↓State.leftActive_cut, ↓apply_ite (State.cut m), ite_self, m_regs, m_pwr, m_hst, m_evt, m_rdg, m_links, m_out]

theorem State.clearLink_cut {m : Area → Bool} (s : State) (q : ℕ) (m_regs : m .regs := by assumption) (m_links : m .links := by assumption) :
    (State.clearLink s q).cut m = s.cut m := by
  unfold State.clearLink
  simp only [↓State.setReg_cut, ↓State.onLink_cut, ↓apply_ite (State.cut m), ite_self, m_regs, m_links]

theorem State.linkReset_cut {m : Area → Bool} (s : State) (q : ℕ) (m_regs : m .regs := by assumption) (m_evt : m .evt := by assumption) (m_links : m .links := by assumption) :
    (State.linkReset s q).cut m = s.cut m := by
  unfold State.linkReset
  simp only [↓State.lkEvent_cut, ↓State.clearLink_cut, ↓apply_ite (State.cut m), ite_self, m_regs, m_evt, m_links]

theorem State.clearTraining_cut {m : Area → Bool} (s : State) (q : ℕ) (m_regs : m .regs := by assumption) (m_links : m .links := by assumption) :
    (State.clearTraining s q).cut m = s.cut m := by
  unfold State.clearTraining
  simp only [↓State.setF_cut, ↓State.onLink_cut, ↓apply_ite (State.cut m), ite_self, m_regs, m_links]

theorem State.lkDown_cut {m : Area → Bool} (s : State) (q : ℕ) (m_regs : m .regs := by assumption) (m_pwr : m .pwr := by assumption) (m_hst : m .hst := by assumption) (m_evt : m .evt := by assumption) (m_rdg : m .rdg := by assumption) (m_links : m .links := by assumption) (m_out : m .out := by assumption) :
    (State.lkDown s q).cut m = s.cut m := by
  unfold State.lkDown
  simp only [↓State.setF_cut, ↓State.onLink_cut, ↓State.lkEvent_cut, ↓State.leftActive_cut, ↓apply_ite (State.cut m), ite_self, m_regs, m_pwr, m_hst, m_evt, m_rdg, m_links, m_out]

theorem State.toDetect_cut {m : Area → Bool} (s : State) (q : ℕ) (fail : Option ℕ) (m_regs : m .regs := by assumption) (m_pwr : m .pwr := by assumption) (m_hst : m .hst := by assumption) (m_evt : m .evt := by assumption) (m_rdg : m .rdg := by assumption) (m_links : m .links := by assumption) (m_thm : m .thm := by assumption) (m_out : m .out := by assumption) :
    (State.toDetect s q fail).cut m = s.cut m := by
  unfold State.toDetect
  repeat' (first | split | simp only [↓State.setF_cut, ↓State.setLkState_cut, ↓State.lkEvent_cut, ↓State.clearLink_cut, ↓State.linkReset_cut, ↓State.clearTraining_cut, ↓State.lkDown_cut, m_regs, m_pwr, m_hst, m_evt, m_rdg, m_links, m_thm, m_out])

theorem State.sayGoodbye_cut {m : Area → Bool} (s : State) (q : ℕ) (m_links : m .links := by assumption) (m_out : m .out := by assumption) :
    (State.sayGoodbye s q).cut m = s.cut m := by
  unfold State.sayGoodbye
  simp only [↓State.emit_cut, ↓State.linkSend_cut, ↓apply_ite (State.cut m), ite_self, m_links, m_out]

theorem State.toDisabled_cut {m : Area → Bool} (s : State) (q : ℕ) (goodbye : Bool) (m_regs : m .regs := by assumption) (m_pwr : m .pwr := by assumption) (m_hst : m .hst := by assumption) (m_evt : m .evt := by assumption) (m_rdg : m .rdg := by assumption) (m_links : m .links := by assumption) (m_thm : m .thm := by assumption) (m_out : m .out := by assumption) :
    (State.toDisabled s q goodbye).cut m = s.cut m := by
  unfold State.toDisabled
  simp only [↓State.emit_cut, ↓State.setLkState_cut, ↓State.clearLink_cut, ↓State.clearTraining_cut, ↓State.lkDown_cut, ↓State.sayGoodbye_cut, ↓apply_ite (State.cut m), ite_self, m_regs, m_pwr, m_hst, m_evt, m_rdg, m_links, m_thm, m_out]

theorem State.toRecovery_cut {m : Area → Bool} (s : State) (q : ℕ) (m_regs : m .regs := by assumption) (m_pwr : m .pwr := by assumption) (m_hst : m .hst := by assumption) (m_evt : m .evt := by assumption) (m_rdg : m .rdg := by assumption) (m_links : m .links := by assumption) (m_thm : m .thm := by assumption) (m_out : m .out := by assumption) :
    (State.toRecovery s q).cut m = s.cut m := by
  unfold State.toRecovery
  simp only [↓State.bump_cut, ↓State.onLink_cut, ↓State.setLkState_cut, ↓State.lkEvent_cut, ↓State.leftActive_cut, ↓State.clearTraining_cut, ↓apply_ite (State.cut m), ite_self, m_regs, m_pwr, m_hst, m_evt, m_rdg, m_links, m_thm, m_out]

theorem State.applyLinkCfg_cut {m : Area → Bool} (s : State) (q : ℕ) (old : Word) (m_regs : m .regs := by assumption) (m_pwr : m .pwr := by assumption) (m_hst : m .hst := by assumption) (m_evt : m .evt := by assumption) (m_rdg : m .rdg := by assumption) (m_links : m .links := by assumption) (m_thm : m .thm := by assumption) (m_out : m .out := by assumption) :
    (State.applyLinkCfg s q old).cut m = s.cut m := by
  unfold State.applyLinkCfg
  simp only [↓State.toDetect_cut, ↓State.toDisabled_cut, ↓apply_ite (State.cut m), ite_self, m_regs, m_pwr, m_hst, m_evt, m_rdg, m_links, m_thm, m_out]

theorem State.protoError_cut {m : Area → Bool} (s : State) (q : ℕ) (m_regs : m .regs := by assumption) (m_pwr : m .pwr := by assumption) (m_hst : m .hst := by assumption) (m_evt : m .evt := by assumption) (m_rdg : m .rdg := by assumption) (m_links : m .links := by assumption) (m_thm : m .thm := by assumption) (m_out : m .out := by assumption) :
    (State.protoError s q).cut m = s.cut m := by
  unfold State.protoError
  simp only [↓State.bump_cut, ↓State.onLink_cut, ↓State.lkEvent_cut, ↓State.toDetect_cut, ↓apply_ite (State.cut m), ite_self, m_regs, m_pwr, m_hst, m_evt, m_rdg, m_links, m_thm, m_out]

theorem State.countCrc_cut {m : Area → Bool} (s : State) (q : ℕ) (n : ℕ) (m_regs : m .regs := by assumption) (m_evt : m .evt := by assumption) (m_links : m .links := by assumption) :
    (State.countCrc s q n).cut m = s.cut m := by
  unfold State.countCrc
  simp only [↓State.bump_cut, ↓State.onLink_cut, ↓State.lkEvent_cut, ↓apply_ite (State.cut m), ite_self, m_regs, m_evt, m_links]

theorem State.startReplay_cut {m : Area → Bool} (s : State) (q : ℕ) (ackSeq : ℕ) (m_regs : m .regs := by assumption) (m_pwr : m .pwr := by assumption) (m_hst : m .hst := by assumption) (m_evt : m .evt := by assumption) (m_rdg : m .rdg := by assumption) (m_links : m .links := by assumption) (m_thm : m .thm := by assumption) (m_out : m .out := by assumption) :
    (State.startReplay s q ackSeq).cut m = s.cut m := by
  unfold State.startReplay
  simp only [↓State.bump_cut, ↓State.onLink_cut, ↓State.toRecovery_cut, ↓apply_ite (State.cut m), ite_self, m_regs, m_pwr, m_hst, m_evt, m_rdg, m_links, m_thm, m_out]

theorem State.takeAck_cut {m : Area → Bool} (s : State) (q : ℕ) (ackType : ℕ) (ackSeq : ℕ) (m_regs : m .regs := by assumption) (m_pwr : m .pwr := by assumption) (m_hst : m .hst := by assumption) (m_evt : m .evt := by assumption) (m_rdg : m .rdg := by assumption) (m_links : m .links := by assumption) (m_thm : m .thm := by assumption) (m_out : m .out := by assumption) :
    (State.takeAck s q ackType ackSeq).cut m = s.cut m := by
  unfold State.takeAck
  simp only [↓State.onLink_cut, ↓State.syncTxOut_cut, ↓State.protoError_cut, ↓State.startReplay_cut, ↓apply_ite (State.cut m), ite_self, m_regs, m_pwr, m_hst, m_evt, m_rdg, m_links, m_thm, m_out]

theorem State.nakE_cut {m : Area → Bool} (s : State) (q : ℕ) (m_links : m .links := by assumption) :
    (State.nakE s q).cut m = s.cut m := by
  unfold State.nakE
  simp only [↓State.onLink_cut, ↓apply_ite (State.cut m), ite_self, m_links]

theorem State.acceptSeq_cut {m : Area → Bool} (s : State) (q : ℕ) (m_regs : m .regs := by assumption) (m_links : m .links := by assumption) (m_freeN : m .freeN := by assumption) :
    (State.acceptSeq s q).cut m = s.cut m := by
  unfold State.acceptSeq
  simp only [↓State.setF_cut, ↓State.free_cut, ↓State.onLink_cut, ↓apply_ite (State.cut m), ite_self, m_regs, m_links, m_freeN]

theorem State.acceptFlit_cut {m : Area → Bool} (s : State) (q : ℕ) (f : Flit) (m_regs : m .regs := by assumption) (m_links : m .links := by assumption) (m_freeN : m .freeN := by assumption) :
    (State.acceptFlit s q f).cut m = s.cut m := by
  unfold State.acceptFlit
  simp only [↓State.onLink_cut, ↓State.acceptSeq_cut, ↓apply_ite (State.cut m), ite_self, m_regs, m_links, m_freeN]

theorem State.flitAhead_cut {m : Area → Bool} (s : State) (q : ℕ) (m_regs : m .regs := by assumption) (m_links : m .links := by assumption) :
    (State.flitAhead s q).cut m = s.cut m := by
  unfold State.flitAhead
  simp only [↓State.bump_cut, ↓State.onLink_cut, ↓State.nakE_cut, ↓apply_ite (State.cut m), ite_self, m_regs, m_links]

theorem State.dropFlit_cut {m : Area → Bool} (s : State) (q : ℕ) (m_links : m .links := by assumption) :
    (State.dropFlit s q).cut m = s.cut m := by
  unfold State.dropFlit
  simp only [↓State.onLink_cut, ↓apply_ite (State.cut m), ite_self, m_links]

theorem State.takeBad_cut {m : Area → Bool} (s : State) (q : ℕ) (f : Flit) (m_regs : m .regs := by assumption) (m_pwr : m .pwr := by assumption) (m_hst : m .hst := by assumption) (m_evt : m .evt := by assumption) (m_rdg : m .rdg := by assumption) (m_links : m .links := by assumption) (m_thm : m .thm := by assumption) (m_out : m .out := by assumption) :
    (State.takeBad s q f).cut m = s.cut m := by
  unfold State.takeBad
  simp only [↓State.bump_cut, ↓State.onLink_cut, ↓State.toRecovery_cut, ↓State.countCrc_cut, ↓State.nakE_cut, ↓State.flitAhead_cut, ↓State.dropFlit_cut, ↓apply_ite (State.cut m), ite_self, m_regs, m_pwr, m_hst, m_evt, m_rdg, m_links, m_thm, m_out]

theorem execNakTo_cut {m : Area → Bool} (q : Fin 8) (s : State) (m_links : m .links := by assumption) :
    outCut m (execNakTo q s) = some (s.cut m) := by
  unfold execNakTo
  simp only [↓State.onLink_cut, ↓apply_ite (State.cut m), ite_self, ↓outCut_next, ↓apply_ite (outCut m), m_links]

theorem execReplayTimeout_cut {m : Area → Bool} (q : Fin 8) (s : State) (m_regs : m .regs := by assumption) (m_pwr : m .pwr := by assumption) (m_hst : m .hst := by assumption) (m_evt : m .evt := by assumption) (m_rdg : m .rdg := by assumption) (m_links : m .links := by assumption) (m_thm : m .thm := by assumption) (m_out : m .out := by assumption) :
    outCut m (execReplayTimeout q s) = some (s.cut m) := by
  unfold execReplayTimeout
  simp only [↓State.startReplay_cut, ↓apply_ite (State.cut m), ite_self, ↓outCut_next, ↓apply_ite (outCut m), m_regs, m_pwr, m_hst, m_evt, m_rdg, m_links, m_thm, m_out]

theorem State.grantCredit_cut {m : Area → Bool} (s : State) (q : ℕ) (m_regs : m .regs := by assumption) (m_freeN : m .freeN := by assumption) :
    (State.grantCredit s q).cut m = s.cut m := by
  unfold State.grantCredit
  simp only [↓State.setF_cut, ↓State.free_cut, ↓apply_ite (State.cut m), ite_self, m_regs, m_freeN]

theorem State.putFlit_cut {m : Area → Bool} (s : State) (q : ℕ) (ftype : ℕ) (seq : ℕ) (payload : List Byte) (m_regs : m .regs := by assumption) (m_pwr : m .pwr := by assumption) (m_hst : m .hst := by assumption) (m_evt : m .evt := by assumption) (m_rdg : m .rdg := by assumption) (m_links : m .links := by assumption) (m_thm : m .thm := by assumption) (m_freeN : m .freeN := by assumption) (m_out : m .out := by assumption) :
    (State.putFlit s q ftype seq payload).cut m = s.cut m := by
  unfold State.putFlit
  simp only [↓State.emit_cut, ↓State.onLink_cut, ↓State.toRecovery_cut, ↓State.grantCredit_cut, ↓apply_ite (State.cut m), ite_self, m_regs, m_pwr, m_hst, m_evt, m_rdg, m_links, m_thm, m_freeN, m_out]

theorem State.resume_cut {m : Area → Bool} (s : State) (q : ℕ) (m_regs : m .regs := by assumption) (m_pwr : m .pwr := by assumption) (m_hst : m .hst := by assumption) (m_evt : m .evt := by assumption) (m_rdg : m .rdg := by assumption) (m_links : m .links := by assumption) (m_thm : m .thm := by assumption) (m_out : m .out := by assumption) :
    (State.resume s q).cut m = s.cut m := by
  unfold State.resume
  repeat' (first | split | simp only [↓State.setF_cut, ↓State.onLink_cut, ↓State.syncTxOut_cut, ↓State.linkReset_cut, ↓State.startReplay_cut, m_regs, m_pwr, m_hst, m_evt, m_rdg, m_links, m_thm, m_out])

theorem State.toActive_cut {m : Area → Bool} (s : State) (q : ℕ) (m_regs : m .regs := by assumption) (m_pwr : m .pwr := by assumption) (m_hst : m .hst := by assumption) (m_evt : m .evt := by assumption) (m_rdg : m .rdg := by assumption) (m_links : m .links := by assumption) (m_thm : m .thm := by assumption) (m_out : m .out := by assumption) :
    (State.toActive s q).cut m = s.cut m := by
  unfold State.toActive
  simp only [↓State.onLink_cut, ↓State.setLkState_cut, ↓State.lkEvent_cut, ↓State.tryPair_cut, ↓State.evalIso_cut, ↓State.resume_cut, ↓apply_ite (State.cut m), ite_self, m_regs, m_pwr, m_hst, m_evt, m_rdg, m_links, m_thm, m_out]

theorem State.sendCap_cut {m : Area → Bool} (s : State) (q : ℕ) (m_regs : m .regs := by assumption) (m_pwr : m .pwr := by assumption) (m_hst : m .hst := by assumption) (m_evt : m .evt := by assumption) (m_rdg : m .rdg := by assumption) (m_links : m .links := by assumption) (m_thm : m .thm := by assumption) (m_freeN : m .freeN := by assumption) (m_out : m .out := by assumption) :
    (State.sendCap s q).cut m = s.cut m := by
  unfold State.sendCap
  simp only [↓State.emit_cut, ↓State.onLink_cut, ↓State.grantCredit_cut, ↓State.toActive_cut, ↓apply_ite (State.cut m), ite_self, m_regs, m_pwr, m_hst, m_evt, m_rdg, m_links, m_thm, m_freeN, m_out]

theorem State.setLane_cut {m : Area → Bool} (s : State) (q : Nat) (j : Nat) (l : LaneState) (m_links : m .links := by assumption) :
    (State.setLane s q j l).cut m = s.cut m := by
  unfold State.setLane
  simp only [↓State.onLink_cut, m_links]

theorem State.startCap_cut {m : Area → Bool} (s : State) (q : ℕ) (m_regs : m .regs := by assumption) (m_links : m .links := by assumption) (m_thm : m .thm := by assumption) (m_out : m .out := by assumption) :
    (State.startCap s q).cut m = s.cut m := by
  unfold State.startCap
  repeat' (first | (with_reducible refine (foldl_cut _ _ _ fun s x => ?_).trans ?_) | split | simp only [↓State.emit_cut, ↓State.onLink_cut, ↓State.setLkState_cut, m_regs, m_links, m_thm, m_out])

theorem State.sendBlocks_cut {m : Area → Bool} (s : State) (q : ℕ) (m_regs : m .regs := by assumption) (m_links : m .links := by assumption) (m_thm : m .thm := by assumption) (m_out : m .out := by assumption) :
    (State.sendBlocks s q).cut m = s.cut m := by
  unfold State.sendBlocks
  repeat' (first | (with_reducible refine (foldl_cut _ _ _ fun s x => ?_).trans ?_) | split | simp only [↓State.emit_cut, ↓State.onLink_cut, ↓State.startCap_cut, m_regs, m_links, m_thm, m_out])

theorem State.nepTake_cut {m : Area → Bool} (s : State) (q : ℕ) (seq : ℕ) (bad : Bool) (ack : ℕ × ℕ) (credit : ℕ) (m_regs : m .regs := by assumption) (m_pwr : m .pwr := by assumption) (m_hst : m .hst := by assumption) (m_evt : m .evt := by assumption) (m_rdg : m .rdg := by assumption) (m_links : m .links := by assumption) (m_thm : m .thm := by assumption) (m_freeN : m .freeN := by assumption) (m_out : m .out := by assumption) :
    (State.nepTake s q seq bad ack credit).cut m = s.cut m := by
  unfold State.nepTake
  simp only [↓State.bump_cut, ↓State.onLink_cut, ↓State.countCrc_cut, ↓State.takeAck_cut, ↓State.nakE_cut, ↓State.acceptSeq_cut, ↓State.flitAhead_cut, ↓apply_ite (State.cut m), ite_self, m_regs, m_pwr, m_hst, m_evt, m_rdg, m_links, m_thm, m_freeN, m_out]

theorem State.exercise_cut {m : Area → Bool} (s : State) (q : ℕ) (m_regs : m .regs := by assumption) (m_pwr : m .pwr := by assumption) (m_hst : m .hst := by assumption) (m_evt : m .evt := by assumption) (m_rdg : m .rdg := by assumption) (m_links : m .links := by assumption) (m_thm : m .thm := by assumption) (m_freeN : m .freeN := by assumption) (m_out : m .out := by assumption) :
    (State.exercise s q).cut m = s.cut m := by
  unfold State.exercise
  repeat' (first | split | simp only [↓State.setF_cut, ↓State.onLink_cut, ↓State.syncTxOut_cut, ↓State.takeAck_cut, ↓State.grantCredit_cut, ↓State.nepTake_cut, m_regs, m_pwr, m_hst, m_evt, m_rdg, m_links, m_thm, m_freeN, m_out])

theorem State.sendNew_cut {m : Area → Bool} (s : State) (q : ℕ) (m_regs : m .regs := by assumption) (m_pwr : m .pwr := by assumption) (m_hst : m .hst := by assumption) (m_evt : m .evt := by assumption) (m_rdg : m .rdg := by assumption) (m_links : m .links := by assumption) (m_thm : m .thm := by assumption) (m_freeN : m .freeN := by assumption) (m_out : m .out := by assumption) :
    (State.sendNew s q).cut m = s.cut m := by
  unfold State.sendNew
  simp only [↓State.setF_cut, ↓State.onLink_cut, ↓State.syncTxOut_cut, ↓State.putFlit_cut, ↓apply_ite (State.cut m), ite_self, m_regs, m_pwr, m_hst, m_evt, m_rdg, m_links, m_thm, m_freeN, m_out]

theorem execFlitSend_cut {m : Area → Bool} (q : Fin 8) (s : State) (m_regs : m .regs := by assumption) (m_pwr : m .pwr := by assumption) (m_hst : m .hst := by assumption) (m_evt : m .evt := by assumption) (m_rdg : m .rdg := by assumption) (m_links : m .links := by assumption) (m_thm : m .thm := by assumption) (m_freeN : m .freeN := by assumption) (m_out : m .out := by assumption) :
    outCut m (execFlitSend q s) = some (s.cut m) := by
  unfold execFlitSend
  repeat' (first | (refine congrArg some ?_) | split | simp only [↓State.onLink_cut, ↓State.putFlit_cut, ↓State.sendCap_cut, ↓State.sendBlocks_cut, ↓State.exercise_cut, ↓State.sendNew_cut, m_regs, m_pwr, m_hst, m_evt, m_rdg, m_links, m_thm, m_freeN, m_out])

theorem execSignalDetect_cut {m : Area → Bool} (q : Fin 8) (lanes : BitVec 4) (s : State) (m_regs : m .regs := by assumption) (m_links : m .links := by assumption) (m_thm : m .thm := by assumption) :
    outCut m (execSignalDetect q lanes s) = some (s.cut m) := by
  unfold execSignalDetect
  simp only [↓State.setLkState_cut, ↓State.clearTraining_cut, ↓apply_ite (State.cut m), ite_self, ↓outCut_next, ↓apply_ite (outCut m), m_regs, m_links, m_thm]

theorem execReceiverDetect_cut {m : Area → Bool} (q : Fin 8) (s : State) (m_out : m .out := by assumption) :
    outCut m (execReceiverDetect q s) = some (s.cut m) := by
  unfold execReceiverDetect
  simp only [↓State.emit_cut, ↓apply_ite (State.cut m), ite_self, ↓outCut_next, ↓apply_ite (outCut m), m_out]

theorem State.dropTwins_cut {m : Area → Bool} (s : State) (q : ℕ) (j : ℕ) (m_links : m .links := by assumption) :
    (State.dropTwins s q j).cut m = s.cut m := by
  unfold State.dropTwins
  repeat' (first | (with_reducible refine (foldl_cut _ _ _ fun s x => ?_).trans ?_) | split | simp only [↓State.setLane_cut, m_links])

theorem State.syncLocked_cut {m : Area → Bool} (s : State) (q : ℕ) (m_regs : m .regs := by assumption) :
    (State.syncLocked s q).cut m = s.cut m := by
  unfold State.syncLocked
  repeat' (first | (with_reducible refine (foldl_cut _ _ _ fun s x => ?_).trans ?_) | split | simp only [↓State.setF_cut, m_regs])

theorem State.showLane_cut {m : Area → Bool} (s : State) (q : ℕ) (j : ℕ) (inverted : Bool) (m_regs : m .regs := by assumption) :
    (State.showLane s q j inverted).cut m = s.cut m := by
  unfold State.showLane
  simp only [↓State.setF_cut, ↓State.syncLocked_cut, ↓apply_ite (State.cut m), ite_self, m_regs]

theorem State.settle_cut {m : Area → Bool} (s : State) (q : ℕ) (w : ℕ) (m_regs : m .regs := by assumption) (m_links : m .links := by assumption) :
    (State.settle s q w).cut m = s.cut m := by
  unfold State.settle
  simp only [↓State.setF_cut, ↓State.onLink_cut, ↓apply_ite (State.cut m), ite_self, m_regs, m_links]

theorem State.trySettle_cut {m : Area → Bool} (s : State) (q : ℕ) (m_regs : m .regs := by assumption) (m_links : m .links := by assumption) (m_freeN : m .freeN := by assumption) :
    (State.trySettle s q).cut m = s.cut m := by
  unfold State.trySettle
  simp only [↓State.free_cut, ↓State.settle_cut, ↓apply_ite (State.cut m), ite_self, m_regs, m_links, m_freeN]

theorem State.takeBlock_cut {m : Area → Bool} (s : State) (q : ℕ) (j : ℕ) (b : TrainBlock) (m_regs : m .regs := by assumption) (m_pwr : m .pwr := by assumption) (m_hst : m .hst := by assumption) (m_evt : m .evt := by assumption) (m_rdg : m .rdg := by assumption) (m_links : m .links := by assumption) (m_thm : m .thm := by assumption) (m_freeN : m .freeN := by assumption) (m_out : m .out := by assumption) :
    (State.takeBlock s q j b).cut m = s.cut m := by
  unfold State.takeBlock
  simp only [↓State.setLkState_cut, ↓State.toDetect_cut, ↓State.setLane_cut, ↓State.dropTwins_cut, ↓State.showLane_cut, ↓State.trySettle_cut, ↓apply_ite (State.cut m), ite_self, m_regs, m_pwr, m_hst, m_evt, m_rdg, m_links, m_thm, m_freeN, m_out]

theorem execTrainingBlock_cut {m : Area → Bool} (q : Fin 8) (lane : Fin 4) (b : TrainBlock) (s : State) (m_regs : m .regs := by assumption) (m_pwr : m .pwr := by assumption) (m_hst : m .hst := by assumption) (m_evt : m .evt := by assumption) (m_rdg : m .rdg := by assumption) (m_links : m .links := by assumption) (m_thm : m .thm := by assumption) (m_freeN : m .freeN := by assumption) (m_out : m .out := by assumption) :
    outCut m (execTrainingBlock q lane b s) = some (s.cut m) := by
  unfold execTrainingBlock
  simp only [↓State.emit_cut, ↓State.onLink_cut, ↓State.toRecovery_cut, ↓State.takeBlock_cut, ↓apply_ite (State.cut m), ite_self, ↓outCut_next, ↓apply_ite (outCut m), m_regs, m_pwr, m_hst, m_evt, m_rdg, m_links, m_thm, m_freeN, m_out]

theorem execTrainTo_cut {m : Area → Bool} (q : Fin 8) (s : State) (m_regs : m .regs := by assumption) (m_pwr : m .pwr := by assumption) (m_hst : m .hst := by assumption) (m_evt : m .evt := by assumption) (m_rdg : m .rdg := by assumption) (m_links : m .links := by assumption) (m_thm : m .thm := by assumption) (m_out : m .out := by assumption) :
    outCut m (execTrainTo q s) = some (s.cut m) := by
  unfold execTrainTo
  repeat' (first | (refine congrArg some ?_) | (with_reducible refine (foldl_cut _ _ _ fun s x => ?_).trans ?_) | split | simp only [↓State.toDetect_cut, m_regs, m_pwr, m_hst, m_evt, m_rdg, m_links, m_thm, m_out])

theorem State.recordCap_cut {m : Area → Bool} (s : State) (q : ℕ) (f : CapFlit) (m_regs : m .regs := by assumption) :
    (State.recordCap s q f).cut m = s.cut m := by
  unfold State.recordCap
  simp only [↓State.setReg_cut, ↓State.setF_cut, ↓apply_ite (State.cut m), ite_self, m_regs]

theorem State.takeCap_cut {m : Area → Bool} (s : State) (q : ℕ) (f : CapFlit) (m_regs : m .regs := by assumption) (m_pwr : m .pwr := by assumption) (m_hst : m .hst := by assumption) (m_evt : m .evt := by assumption) (m_rdg : m .rdg := by assumption) (m_links : m .links := by assumption) (m_thm : m .thm := by assumption) (m_out : m .out := by assumption) :
    (State.takeCap s q f).cut m = s.cut m := by
  unfold State.takeCap
  repeat' (first | split | simp only [↓State.onLink_cut, ↓State.toDetect_cut, ↓State.recordCap_cut, m_regs, m_pwr, m_hst, m_evt, m_rdg, m_links, m_thm, m_out])

theorem execCap_cut {m : Area → Bool} (q : Fin 8) (f : CapFlit) (s : State) (m_regs : m .regs := by assumption) (m_pwr : m .pwr := by assumption) (m_hst : m .hst := by assumption) (m_evt : m .evt := by assumption) (m_rdg : m .rdg := by assumption) (m_links : m .links := by assumption) (m_thm : m .thm := by assumption) (m_out : m .out := by assumption) :
    outCut m (execCap q f s) = some (s.cut m) := by
  unfold execCap
  simp only [↓State.emit_cut, ↓State.protoError_cut, ↓State.takeCap_cut, ↓apply_ite (State.cut m), ite_self, ↓outCut_next, ↓apply_ite (outCut m), m_regs, m_pwr, m_hst, m_evt, m_rdg, m_links, m_thm, m_out]

theorem execCapTo_cut {m : Area → Bool} (q : Fin 8) (s : State) (m_regs : m .regs := by assumption) (m_pwr : m .pwr := by assumption) (m_hst : m .hst := by assumption) (m_evt : m .evt := by assumption) (m_rdg : m .rdg := by assumption) (m_links : m .links := by assumption) (m_thm : m .thm := by assumption) (m_out : m .out := by assumption) :
    outCut m (execCapTo q s) = some (s.cut m) := by
  unfold execCapTo
  simp only [↓State.toDetect_cut, ↓apply_ite (State.cut m), ite_self, ↓outCut_next, ↓apply_ite (outCut m), m_regs, m_pwr, m_hst, m_evt, m_rdg, m_links, m_thm, m_out]

theorem execLinkDown_cut {m : Area → Bool} (q : Fin 8) (s : State) (m_regs : m .regs := by assumption) (m_pwr : m .pwr := by assumption) (m_hst : m .hst := by assumption) (m_evt : m .evt := by assumption) (m_rdg : m .rdg := by assumption) (m_links : m .links := by assumption) (m_thm : m .thm := by assumption) (m_out : m .out := by assumption) :
    outCut m (execLinkDown q s) = some (s.cut m) := by
  unfold execLinkDown
  simp only [↓State.toDetect_cut, ↓State.toRecovery_cut, ↓apply_ite (State.cut m), ite_self, ↓outCut_next, ↓apply_ite (outCut m), m_regs, m_pwr, m_hst, m_evt, m_rdg, m_links, m_thm, m_out]

theorem execRcvTo_cut {m : Area → Bool} (q : Fin 8) (s : State) (m_regs : m .regs := by assumption) (m_pwr : m .pwr := by assumption) (m_hst : m .hst := by assumption) (m_evt : m .evt := by assumption) (m_rdg : m .rdg := by assumption) (m_links : m .links := by assumption) (m_thm : m .thm := by assumption) (m_out : m .out := by assumption) :
    outCut m (execRcvTo q s) = some (s.cut m) := by
  unfold execRcvTo
  simp only [↓State.toDetect_cut, ↓apply_ite (State.cut m), ite_self, ↓outCut_next, ↓apply_ite (outCut m), m_regs, m_pwr, m_hst, m_evt, m_rdg, m_links, m_thm, m_out]

theorem State.takeGoodbye_cut {m : Area → Bool} (s : State) (q : ℕ) (m_regs : m .regs := by assumption) (m_pwr : m .pwr := by assumption) (m_hst : m .hst := by assumption) (m_evt : m .evt := by assumption) (m_rdg : m .rdg := by assumption) (m_links : m .links := by assumption) (m_thm : m .thm := by assumption) (m_out : m .out := by assumption) :
    (State.takeGoodbye s q).cut m = s.cut m := by
  unfold State.takeGoodbye
  simp only [↓State.toDetect_cut, ↓apply_ite (State.cut m), ite_self, m_regs, m_pwr, m_hst, m_evt, m_rdg, m_links, m_thm, m_out]

theorem execGoodbye_cut {m : Area → Bool} (q : Fin 8) (s : State) (m_regs : m .regs := by assumption) (m_pwr : m .pwr := by assumption) (m_hst : m .hst := by assumption) (m_evt : m .evt := by assumption) (m_rdg : m .rdg := by assumption) (m_links : m .links := by assumption) (m_thm : m .thm := by assumption) (m_out : m .out := by assumption) :
    outCut m (execGoodbye q s) = some (s.cut m) := by
  unfold execGoodbye
  simp only [↓State.takeGoodbye_cut, ↓apply_ite (State.cut m), ite_self, ↓outCut_next, ↓apply_ite (outCut m), m_regs, m_pwr, m_hst, m_evt, m_rdg, m_links, m_thm, m_out]

theorem State.countPrbs_cut {m : Area → Bool} (s : State) (q : ℕ) (l : ℕ) (m_regs : m .regs := by assumption) (m_freeN : m .freeN := by assumption) :
    (State.countPrbs s q l).cut m = s.cut m := by
  unfold State.countPrbs
  simp only [↓State.bump_cut, ↓State.free_cut, ↓apply_ite (State.cut m), ite_self, m_regs, m_freeN]

theorem State.readPrbs_cut {m : Area → Bool} (s : State) (off : ℕ) (m_regs : m .regs := by assumption) (m_freeN : m .freeN := by assumption) :
    (State.readPrbs s off).cut m = s.cut m := by
  unfold State.readPrbs
  simp only [↓State.countPrbs_cut, ↓apply_ite (State.cut m), ite_self, m_regs, m_freeN]

theorem State.endPrbs_cut {m : Area → Bool} (s : State) (q : ℕ) (m_regs : m .regs := by assumption) (m_freeN : m .freeN := by assumption) :
    (State.endPrbs s q).cut m = s.cut m := by
  unfold State.endPrbs
  repeat' (first | (with_reducible refine (foldl_cut _ _ _ fun s x => ?_).trans ?_) | split | simp only [↓State.countPrbs_cut, m_regs, m_freeN])

theorem State.writeLoop_cut {m : Area → Bool} (s : State) (q : ℕ) (v : Word) (m_regs : m .regs := by assumption) (m_evt : m .evt := by assumption) (m_links : m .links := by assumption) (m_thm : m .thm := by assumption) (m_freeN : m .freeN := by assumption) :
    (State.writeLoop s q v).cut m = s.cut m := by
  unfold State.writeLoop
  simp only [↓State.setReg_cut, ↓State.onLink_cut, ↓State.event_cut, ↓State.setLkState_cut, ↓State.lkEvent_cut, ↓State.clearLink_cut, ↓State.endPrbs_cut, ↓apply_ite (State.cut m), ite_self, m_regs, m_evt, m_links, m_thm, m_freeN]

theorem State.loopWrite_cut {m : Area → Bool} (s : State) (q : ℕ) (v : Word) (m_regs : m .regs := by assumption) (m_pwr : m .pwr := by assumption) (m_evt : m .evt := by assumption) (m_links : m .links := by assumption) (m_thm : m .thm := by assumption) (m_freeN : m .freeN := by assumption) (m_out : m .out := by assumption) :
    (State.loopWrite s q v).cut m = s.cut m := by
  unfold State.loopWrite
  repeat' (first | (with_reducible refine (State.viaReg_cut (h_f := fun y0 => ?_) (s := _) (off := _) (v := _)).trans ?_) | split | simp only [↓State.writeLoop_cut, m_regs, m_pwr, m_evt, m_links, m_thm, m_freeN, m_out])

theorem execLoopNesEnter_cut {m : Area → Bool} (q : Fin 8) (v : Word) (s : State) (m_regs : m .regs := by assumption) (m_pwr : m .pwr := by assumption) (m_evt : m .evt := by assumption) (m_links : m .links := by assumption) (m_thm : m .thm := by assumption) (m_freeN : m .freeN := by assumption) (m_out : m .out := by assumption) :
    outCut m (execLoopNesEnter q v s) = some (s.cut m) := by
  unfold execLoopNesEnter
  simp only [↓State.loopWrite_cut, ↓apply_ite (State.cut m), ite_self, ↓outCut_next, ↓apply_ite (outCut m), m_regs, m_pwr, m_evt, m_links, m_thm, m_freeN, m_out]

theorem execLoopNepEnter_cut {m : Area → Bool} (q : Fin 8) (v : Word) (s : State) (m_regs : m .regs := by assumption) (m_pwr : m .pwr := by assumption) (m_evt : m .evt := by assumption) (m_links : m .links := by assumption) (m_thm : m .thm := by assumption) (m_freeN : m .freeN := by assumption) (m_out : m .out := by assumption) :
    outCut m (execLoopNepEnter q v s) = some (s.cut m) := by
  unfold execLoopNepEnter
  simp only [↓State.loopWrite_cut, ↓apply_ite (State.cut m), ite_self, ↓outCut_next, ↓apply_ite (outCut m), m_regs, m_pwr, m_evt, m_links, m_thm, m_freeN, m_out]

theorem execLoopExit_cut {m : Area → Bool} (q : Fin 8) (v : Word) (s : State) (m_regs : m .regs := by assumption) (m_pwr : m .pwr := by assumption) (m_evt : m .evt := by assumption) (m_links : m .links := by assumption) (m_thm : m .thm := by assumption) (m_freeN : m .freeN := by assumption) (m_out : m .out := by assumption) :
    outCut m (execLoopExit q v s) = some (s.cut m) := by
  unfold execLoopExit
  simp only [↓State.loopWrite_cut, ↓apply_ite (State.cut m), ite_self, ↓outCut_next, ↓apply_ite (outCut m), m_regs, m_pwr, m_evt, m_links, m_thm, m_freeN, m_out]

theorem execLoopFarSignalLost_cut {m : Area → Bool} (q : Fin 8) (s : State) (m_regs : m .regs := by assumption) (m_pwr : m .pwr := by assumption) (m_hst : m .hst := by assumption) (m_evt : m .evt := by assumption) (m_rdg : m .rdg := by assumption) (m_links : m .links := by assumption) (m_thm : m .thm := by assumption) (m_out : m .out := by assumption) :
    outCut m (execLoopFarSignalLost q s) = some (s.cut m) := by
  unfold execLoopFarSignalLost
  simp only [↓State.toDetect_cut, ↓apply_ite (State.cut m), ite_self, ↓outCut_next, ↓apply_ite (outCut m), m_regs, m_pwr, m_hst, m_evt, m_rdg, m_links, m_thm, m_out]

theorem State.writePrbs_cut {m : Area → Bool} (s : State) (q : ℕ) (v : Word) (m_regs : m .regs := by assumption) (m_evt : m .evt := by assumption) (m_freeN : m .freeN := by assumption) :
    (State.writePrbs s q v).cut m = s.cut m := by
  unfold State.writePrbs
  repeat' (first | (with_reducible refine (foldl_cut _ _ _ fun s x => ?_).trans ?_) | split | simp only [↓State.setReg_cut, ↓State.event_cut, ↓State.endPrbs_cut, m_regs, m_evt, m_freeN])

theorem execRafPrbsWrite_cut {m : Area → Bool} (q : Fin 8) (v : Word) (s : State) (m_regs : m .regs := by assumption) (m_pwr : m .pwr := by assumption) (m_evt : m .evt := by assumption) (m_links : m .links := by assumption) (m_freeN : m .freeN := by assumption) (m_out : m .out := by assumption) :
    outCut m (execRafPrbsWrite q v s) = some (s.cut m) := by
  unfold execRafPrbsWrite
  repeat' (first | (refine congrArg some ?_) | (with_reducible refine (State.viaReg_cut (h_f := fun y0 => ?_) (s := _) (off := _) (v := _)).trans ?_) | split | simp only [↓State.writePrbs_cut, m_regs, m_pwr, m_evt, m_links, m_freeN, m_out])

theorem execPortSignalWake_cut {m : Area → Bool} (p : Fin 4) (s : State) (m_regs : m .regs := by assumption) (m_pwr : m .pwr := by assumption) (m_hst : m .hst := by assumption) (m_evt : m .evt := by assumption) (m_rdg : m .rdg := by assumption) (m_links : m .links := by assumption) (m_thm : m .thm := by assumption) (m_out : m .out := by assumption) :
    outCut m (execPortSignalWake p s) = some (s.cut m) := by
  unfold execPortSignalWake
  simp only [↓State.setDomain_cut, ↓State.onLink_cut, ↓State.toDetect_cut, ↓apply_ite (State.cut m), ite_self, ↓outCut_next, ↓apply_ite (outCut m), m_regs, m_pwr, m_hst, m_evt, m_rdg, m_links, m_thm, m_out]

theorem State.fsWrite_cut {m : Area → Bool} (s : State) (a : ℕ) (bs : List Byte) (m_fst : m .fst := by assumption) :
    (State.fsWrite s a bs).cut m = s.cut m := by
  unfold State.fsWrite
  simp only [↓State.onFst_cut, ↓apply_ite (State.cut m), ite_self, m_fst]

theorem State.setBuf_cut {m : Area → Bool} (s : State) (sel : Nat) (b : FrameBuf) (m_fst : m .fst := by assumption) :
    (State.setBuf s sel b).cut m = s.cut m := by
  unfold State.setBuf
  simp only [↓State.onFst_cut, m_fst]

theorem State.syncMap_cut {m : Area → Bool} (s : State) (m_regs : m .regs := by assumption) :
    (State.syncMap s).cut m = s.cut m := by
  unfold State.syncMap
  simp only [↓State.setReg_cut, ↓State.setF_cut, ↓apply_ite (State.cut m), ite_self, m_regs]

theorem State.writeMapSel_cut {m : Area → Bool} (s : State) (v : Word) (m_regs : m .regs := by assumption) (m_evt : m .evt := by assumption) :
    (State.writeMapSel s v).cut m = s.cut m := by
  unfold State.writeMapSel
  simp only [↓State.setReg_cut, ↓State.event_cut, ↓State.syncMap_cut, ↓apply_ite (State.cut m), ite_self, m_regs, m_evt]

theorem State.remark_cut {m : Area → Bool} (s : State) (p : ℕ → Bool) (h : PktHold) (m_links : m .links := by assumption) :
    (State.remark s p h).cut m = s.cut m := by
  unfold State.remark
  repeat' (first | (with_reducible refine (foldl_cut _ _ _ fun s x => ?_).trans ?_) | split | simp only [↓State.onLink_cut, m_links])

theorem State.giveBuffer_cut {m : Area → Bool} (s : State) (t : ℕ) (f : ℕ) (m_fst : m .fst := by assumption) :
    (State.giveBuffer s t f).cut m = s.cut m := by
  unfold State.giveBuffer
  repeat' (first | split | simp only [↓State.setBuf_cut, m_fst])

theorem State.freeBuffers_cut {m : Area → Bool} (s : State) (t : ℕ) (keep : ℕ → Bool) (h : PktHold) (m_fst : m .fst := by assumption) (m_links : m .links := by assumption) :
    (State.freeBuffers s t keep h).cut m = s.cut m := by
  unfold State.freeBuffers
  repeat' (first | (with_reducible refine (foldl_cut _ _ _ fun s x => ?_).trans ?_) | split | simp only [↓State.onFst_cut, ↓State.setBuf_cut, ↓State.remark_cut, m_fst, m_links])

theorem State.assignFrames_cut {m : Area → Bool} (s : State) (t : ℕ) (m_fst : m .fst := by assumption) :
    (State.assignFrames s t).cut m = s.cut m := by
  unfold State.assignFrames
  simp only [↓State.giveBuffer_cut, ↓apply_ite (State.cut m), ite_self, m_fst]

theorem State.stepFrames_cut {m : Area → Bool} (s : State) (m_regs : m .regs := by assumption) (m_fst : m .fst := by assumption) (m_links : m .links := by assumption) :
    (State.stepFrames s).cut m = s.cut m := by
  unfold State.stepFrames
  repeat' (first | (with_reducible refine (foldl_cut _ _ _ fun s x => ?_).trans ?_) | split | simp only [↓State.syncMap_cut, ↓State.freeBuffers_cut, ↓State.assignFrames_cut, m_regs, m_fst, m_links])

theorem State.syncDemand_cut {m : Area → Bool} (s : State) (m_regs : m .regs := by assumption) :
    (State.syncDemand s).cut m = s.cut m := by
  unfold State.syncDemand
  simp only [↓State.setF_cut, ↓apply_ite (State.cut m), ite_self, m_regs]

theorem State.syncFree_cut {m : Area → Bool} (s : State) (m_regs : m .regs := by assumption) :
    (State.syncFree s).cut m = s.cut m := by
  unfold State.syncFree
  repeat' (first | (with_reducible refine (foldl_cut _ _ _ fun s x => ?_).trans ?_) | split | simp only [↓State.setF_cut, m_regs])

theorem State.setLossEntry_cut {m : Area → Bool} (s : State) (sel : ℕ) (i : ℕ) (n : ℕ) (m_fst : m .fst := by assumption) :
    (State.setLossEntry s sel i n).cut m = s.cut m := by
  unfold State.setLossEntry
  simp only [↓State.fsWrite_cut, ↓apply_ite (State.cut m), ite_self, m_fst]

theorem State.clearLossMap_cut {m : Area → Bool} (s : State) (sel : ℕ) (m_fst : m .fst := by assumption) :
    (State.clearLossMap s sel).cut m = s.cut m := by
  unfold State.clearLossMap
  repeat' (first | split | simp only [↓State.fsWrite_cut, m_fst])

theorem State.syncZero_cut {m : Area → Bool} (s : State) (m_regs : m .regs := by assumption) :
    (State.syncZero s).cut m = s.cut m := by
  unfold State.syncZero
  simp only [↓State.setF_cut, ↓apply_ite (State.cut m), ite_self, m_regs]

theorem State.emptyBuffer_cut {m : Area → Bool} (s : State) (sel : ℕ) (m_fst : m .fst := by assumption) (m_mag : m .mag := by assumption) :
    (State.emptyBuffer s sel).cut m = s.cut m := by
  unfold State.emptyBuffer
  simp only [↓State.onMag_cut, ↓State.setBuf_cut, ↓apply_ite (State.cut m), ite_self, m_fst, m_mag]

theorem State.replaceBuffers_cut {m : Area → Bool} (s : State) (m_regs : m .regs := by assumption) (m_fst : m .fst := by assumption) (m_links : m .links := by assumption) (m_mag : m .mag := by assumption) :
    (State.replaceBuffers s).cut m = s.cut m := by
  unfold State.replaceBuffers
  repeat' (first | (with_reducible refine (foldl_cut _ _ _ fun s x => ?_).trans ?_) | split | simp only [↓State.onFst_cut, ↓State.setBuf_cut, ↓State.syncMap_cut, ↓State.remark_cut, ↓State.assignFrames_cut, ↓State.syncDemand_cut, ↓State.syncFree_cut, ↓State.clearLossMap_cut, ↓State.syncZero_cut, ↓State.emptyBuffer_cut, m_regs, m_fst, m_links, m_mag])

theorem State.reportLoss_cut {m : Area → Bool} (s : State) (sel : ℕ) (tgt : ℕ) (f : ℕ) (is : List ℕ) (m_regs : m .regs := by assumption) (m_evt : m .evt := by assumption) :
    (State.reportLoss s sel tgt f is).cut m = s.cut m := by
  unfold State.reportLoss
  repeat' (first | (with_reducible refine (foldl_cut _ _ _ fun s x => ?_).trans ?_) | split | simp only [↓State.setF_cut, ↓State.event_cut, m_regs, m_evt])

theorem State.reportFrameLoss_cut {m : Area → Bool} (s : State) (sel : ℕ) (tgt : ℕ) (f : ℕ) (m_regs : m .regs := by assumption) (m_evt : m .evt := by assumption) :
    (State.reportFrameLoss s sel tgt f).cut m = s.cut m := by
  unfold State.reportFrameLoss
  repeat' (first | split | simp only [↓State.reportLoss_cut, m_regs, m_evt])

theorem State.writeRowRaw_cut {m : Area → Bool} (s : State) (p : Placement) (hist : Bool) (y : ℕ) (x0 : ℕ) (row : List ℕ) (m_fst : m .fst := by assumption) :
    (State.writeRowRaw s p hist y x0 row).cut m = s.cut m := by
  unfold State.writeRowRaw
  repeat' (first | (with_reducible refine (foldl_cut _ _ _ fun s x => ?_).trans ?_) | split | simp only [↓State.fsWrite_cut, m_fst])

theorem State.encodeRows_cut {m : Area → Bool} (s : State) (sel : ℕ) (p : Placement) (hist : Bool) (bY : ℕ) (rows : List (List ℕ)) (m_regs : m .regs := by assumption) (m_fst : m .fst := by assumption) :
    (State.encodeRows s sel p hist bY rows).cut m = s.cut m := by
  unfold State.encodeRows
  repeat' (first | (with_reducible refine (foldl_cut _ _ _ fun s x => ?_).trans ?_) | split | simp only [↓State.bump_cut, ↓State.fsWrite_cut, ↓State.setBuf_cut, ↓State.setLossEntry_cut, m_regs, m_fst])

theorem State.readBlock_cut {m : Area → Bool} (s : State) (sel : ℕ) (p : Placement) (hist : Bool) (bx : ℕ) (bY : ℕ) (m_regs : m .regs := by assumption) (m_evt : m .evt := by assumption) (m_fst : m .fst := by assumption) :
    (State.readBlock s sel p hist bx bY).2.2.cut m = s.cut m := by
  unfold State.readBlock
  repeat' (first | split | simp only [↓State.bump_cut, ↓State.event_cut, ↓State.setLossEntry_cut, m_regs, m_evt, m_fst])

theorem State.readBlockRow_cut {m : Area → Bool} (s : State) (sel : Nat) (p : Placement) (hist : Bool) (bY : Nat) (m_regs : m .regs := by assumption) (m_evt : m .evt := by assumption) (m_fst : m .fst := by assumption) :
    (State.readBlockRow s sel p hist bY).2.cut m = s.cut m := by
  unfold State.readBlockRow
  exact foldl_part_cut (fun a : List (List Nat) × State => a.2) _ _ _ fun a x => State.readBlock_cut ..

theorem State.asmWrite_cut {m : Area → Bool} (s : State) (n : ℕ) (r : ℕ) (a : ℕ) (b : ℕ) (m_regs : m .regs := by assumption) (m_evt : m .evt := by assumption) (m_bnk : m .bnk := by assumption) :
    (State.asmWrite s n r a b).cut m = s.cut m := by
  unfold State.asmWrite
  simp only [↓State.writeWords_cut, ↓apply_ite (State.cut m), ite_self, m_regs, m_evt, m_bnk]

theorem State.asmRead_cut {m : Area → Bool} (s : State) (n : ℕ) (r : ℕ) (row : List ℕ) (m_regs : m .regs := by assumption) (m_evt : m .evt := by assumption) (m_bnk : m .bnk := by assumption) :
    (State.asmRead s n r row).2.cut m = s.cut m := by
  unfold State.asmRead
  repeat' (first | (with_reducible refine (foldl_cut _ _ _ fun s x => ?_).trans ?_) | split | simp only [↓State.readWord_cut, m_regs, m_evt, m_bnk])

theorem State.asmRows_cut {m : Area → Bool} (s : State) (a : AsmSlot) (n : Nat) (m_regs : m .regs := by assumption) (m_evt : m .evt := by assumption) (m_bnk : m .bnk := by assumption) :
    (State.asmRows s a n).2.cut m = s.cut m := by
  unfold State.asmRows
  exact foldl_part_cut (fun a : List (List Nat) × State => a.2) _ _ _ fun a x => State.asmRead_cut ..

theorem State.finishSlot_cut {m : Area → Bool} (s : State) (p : Placement) (a : AsmSlot) (m_regs : m .regs := by assumption) (m_evt : m .evt := by assumption) (m_fst : m .fst := by assumption) (m_bnk : m .bnk := by assumption) :
    (State.finishSlot s p a).cut m = s.cut m := by
  unfold State.finishSlot
  repeat' (first | rfl | split | simp only [↓State.encodeRows_cut, ↓State.onFst_cut, ↓State.asmRows_cut, m_regs, m_evt, m_fst, m_bnk])

theorem State.evictSlot_cut {m : Area → Bool} (s : State) (m_regs : m .regs := by assumption) (m_evt : m .evt := by assumption) (m_fst : m .fst := by assumption) :
    (State.evictSlot s).cut m = s.cut m := by
  unfold State.evictSlot
  repeat' (first | (with_reducible refine (foldl_cut _ _ _ fun s x => ?_).trans ?_) | split | simp only [↓State.bump_cut, ↓State.onFst_cut, ↓State.event_cut, ↓State.setBuf_cut, m_regs, m_evt, m_fst])

theorem State.putSlot_cut {m : Area → Bool} (s : State) (a : AsmSlot) (m_fst : m .fst := by assumption) :
    (State.putSlot s a).cut m = s.cut m := by
  unfold State.putSlot
  simp only [↓State.onFst_cut, ↓apply_ite (State.cut m), ite_self, m_fst]

theorem State.openSlot_cut {m : Area → Bool} (s : State) (sel f : Nat) (p : Placement) (bY : Nat) (m_regs : m .regs := by assumption) (m_evt : m .evt := by assumption) (m_fst : m .fst := by assumption) (m_bnk : m .bnk := by assumption) :
    (State.openSlot s sel f p bY).cut m = s.cut m := by
  unfold State.openSlot
  repeat' (first | rfl | (with_reducible refine (foldl_cut _ _ _ fun s x => State.asmWrite_cut ..).trans ?_) | split | simp only [↓State.bump_cut, ↓State.onFst_cut, ↓State.evictSlot_cut, ↓State.readBlockRow_cut, m_regs, m_evt, m_fst, m_bnk])

theorem State.writeRowCoded_cut {m : Area → Bool} (s : State) (sel f : Nat) (p : Placement) (y x0 : Nat) (row : List Nat) (last present : Bool) (m_regs : m .regs := by assumption) (m_evt : m .evt := by assumption) (m_fst : m .fst := by assumption) (m_bnk : m .bnk := by assumption) :
    (State.writeRowCoded s sel f p y x0 row last present).cut m = s.cut m := by
  unfold State.writeRowCoded
  repeat' (first | rfl | split | simp only [↓State.finishSlot_cut, ↓State.putSlot_cut, ↓State.asmWrite_cut, ↓State.openSlot_cut, m_regs, m_evt, m_fst, m_bnk])

theorem State.markRow_cut {m : Area → Bool} (s : State) (sel : ℕ) (f : ℕ) (y : ℕ) (m_regs : m .regs := by assumption) (m_evt : m .evt := by assumption) (m_fst : m .fst := by assumption) (m_bnk : m .bnk := by assumption) :
    (State.markRow s sel f y).cut m = s.cut m := by
  unfold State.markRow
  repeat' (first | split | simp only [↓State.setBuf_cut, ↓State.finishSlot_cut, ↓State.putSlot_cut, m_regs, m_evt, m_fst, m_bnk])

theorem State.writeRow_cut {m : Area → Bool} (s : State) (sel f y x0 : Nat) (row : List Nat) (last present : Bool) (m_regs : m .regs := by assumption) (m_evt : m .evt := by assumption) (m_fst : m .fst := by assumption) (m_bnk : m .bnk := by assumption) :
    (State.writeRow s sel f y x0 row last present).cut m = s.cut m := by
  unfold State.writeRow
  repeat' (first | rfl | split | simp only [↓State.writeRowRaw_cut, ↓State.writeRowCoded_cut, m_regs, m_evt, m_fst, m_bnk])

theorem State.writeMaskRow_cut {m : Area → Bool} (s : State) (sel : ℕ) (y : ℕ) (x0 : ℕ) (row : List Byte) (m_fst : m .fst := by assumption) :
    (State.writeMaskRow s sel y x0 row).cut m = s.cut m := by
  unfold State.writeMaskRow
  repeat' (first | split | simp only [↓State.fsWrite_cut, m_fst])

theorem State.readRow_cut {m : Area → Bool} (s : State) (sel y : Nat) (m_regs : m .regs := by assumption) (m_evt : m .evt := by assumption) (m_fst : m .fst := by assumption) :
    (State.readRow s sel y).2.cut m = s.cut m := by
  unfold State.readRow
  split
  · rfl
  · split
    · rfl
    · exact State.readBlockRow_cut ..

theorem State.takeEcc_cut {m : Area → Bool} (s : State) (errs : List ReadError) (m_regs : m .regs := by assumption) (m_evt : m .evt := by assumption) (m_fst : m .fst := by assumption) :
    (State.takeEcc s errs).cut m = s.cut m := by
  unfold State.takeEcc
  repeat' (first | (with_reducible refine (foldl_cut _ _ _ fun s x => ?_).trans ?_) | split | simp only [↓State.setF_cut, ↓State.bump_cut, ↓State.onFst_cut, ↓State.event_cut, m_regs, m_evt, m_fst])

theorem State.loseTraining_cut {m : Area → Bool} (s : State) (m_regs : m .regs := by assumption) (m_hst : m .hst := by assumption) (m_evt : m .evt := by assumption) (m_rdg : m .rdg := by assumption) (m_links : m .links := by assumption) (m_pnl : m .pnl := by assumption) (m_out : m .out := by assumption) :
    (State.loseTraining s).cut m = s.cut m := by
  unfold State.loseTraining
  simp only [↓State.setF_cut, ↓State.event_cut, ↓State.clearReady_cut, ↓State.beginOff_cut, ↓apply_ite (State.cut m), ite_self, m_regs, m_hst, m_evt, m_rdg, m_links, m_pnl, m_out]

theorem State.writeSwgBist_cut {m : Area → Bool} (s : State) (v : Word) (m_regs : m .regs := by assumption) (m_evt : m .evt := by assumption) :
    (State.writeSwgBist s v).cut m = s.cut m := by
  unfold State.writeSwgBist
  simp only [↓State.setF_cut, ↓State.event_cut, ↓apply_ite (State.cut m), ite_self, m_regs, m_evt]

theorem execSwgBistGo_cut {m : Area → Bool} (v : Word) (s : State) (m_regs : m .regs := by assumption) (m_pwr : m .pwr := by assumption) (m_evt : m .evt := by assumption) (m_links : m .links := by assumption) (m_out : m .out := by assumption) :
    outCut m (execSwgBistGo v s) = some (s.cut m) := by
  unfold execSwgBistGo
  repeat' (first | (refine congrArg some ?_) | (with_reducible refine (State.viaReg_cut (h_f := fun y0 => ?_) (s := _) (off := _) (v := _)).trans ?_) | split | simp only [↓State.writeSwgBist_cut, m_regs, m_pwr, m_evt, m_links, m_out])

theorem State.swgTested_cut {m : Area → Bool} (s : State) (ok : Bool) (m_regs : m .regs := by assumption) (m_hst : m .hst := by assumption) (m_evt : m .evt := by assumption) (m_rdg : m .rdg := by assumption) (m_links : m .links := by assumption) (m_out : m .out := by assumption) :
    (State.swgTested s ok).cut m = s.cut m := by
  unfold State.swgTested
  simp only [↓State.setF_cut, ↓State.event_cut, ↓State.clearReady_cut, ↓apply_ite (State.cut m), ite_self, m_regs, m_hst, m_evt, m_rdg, m_links, m_out]

theorem State.endSwgBist_cut {m : Area → Bool} (s : State) (ok : Bool) (m_regs : m .regs := by assumption) (m_hst : m .hst := by assumption) (m_evt : m .evt := by assumption) (m_rdg : m .rdg := by assumption) (m_links : m .links := by assumption) (m_out : m .out := by assumption) :
    (State.endSwgBist s ok).cut m = s.cut m := by
  unfold State.endSwgBist
  simp only [↓State.swgTested_cut, ↓apply_ite (State.cut m), ite_self, m_regs, m_hst, m_evt, m_rdg, m_links, m_out]

theorem State.checkDigest_cut {m : Area → Bool} (s : State) (m_regs : m .regs := by assumption) (m_evt : m .evt := by assumption) :
    (State.checkDigest s).cut m = s.cut m := by
  unfold State.checkDigest
  repeat' (first | split | simp only [↓State.setF_cut, ↓State.event_cut, m_regs, m_evt])

theorem State.putSlotTable_cut {m : Area → Bool} (s : State) (t : SlotTable) (m_regs : m .regs := by assumption) (m_evt : m .evt := by assumption) :
    (State.putSlotTable s t).cut m = s.cut m := by
  unfold State.putSlotTable
  repeat' (first | (with_reducible refine (foldl_cut _ _ _ fun s x => ?_).trans ?_) | split | simp only [↓State.setReg_cut, ↓State.setF_cut, ↓State.checkDigest_cut, m_regs, m_evt])

theorem State.reachTime_cut {m : Area → Bool} (s : State) (t : ℕ) (m_gen : m .gen := by assumption) :
    (State.reachTime s t).cut m = s.cut m := by
  unfold State.reachTime
  simp only [↓State.onGen_cut, ↓apply_ite (State.cut m), ite_self, m_gen]

theorem State.setLock_cut {m : Area → Bool} (s : State) (n : ℕ) (m_regs : m .regs := by assumption) :
    (State.setLock s n).cut m = s.cut m := by
  unfold State.setLock
  simp only [↓State.setF_cut, ↓apply_ite (State.cut m), ite_self, m_regs]

theorem State.unlock_cut {m : Area → Bool} (s : State) (n : ℕ) (m_regs : m .regs := by assumption) (m_evt : m .evt := by assumption) (m_gen : m .gen := by assumption) :
    (State.unlock s n).cut m = s.cut m := by
  unfold State.unlock
  simp only [↓State.bump_cut, ↓State.onGen_cut, ↓State.event_cut, ↓State.setLock_cut, ↓apply_ite (State.cut m), ite_self, m_regs, m_evt, m_gen]

theorem State.lock_cut {m : Area → Bool} (s : State) (m_regs : m .regs := by assumption) (m_evt : m .evt := by assumption) (m_gen : m .gen := by assumption) :
    (State.lock s).cut m = s.cut m := by
  unfold State.lock
  simp only [↓State.setReg_cut, ↓State.setF_cut, ↓State.onGen_cut, ↓State.event_cut, ↓State.setLock_cut, ↓apply_ite (State.cut m), ite_self, m_regs, m_evt, m_gen]

theorem State.restartLock_cut {m : Area → Bool} (s : State) (m_regs : m .regs := by assumption) (m_gen : m .gen := by assumption) :
    (State.restartLock s).cut m = s.cut m := by
  unfold State.restartLock
  repeat' (first | split | simp only [↓State.onGen_cut, ↓State.setLock_cut, m_regs, m_gen])

theorem State.sourceChanged_cut {m : Area → Bool} (s : State) (m_regs : m .regs := by assumption) (m_gen : m .gen := by assumption) :
    (State.sourceChanged s).cut m = s.cut m := by
  unfold State.sourceChanged
  simp only [↓State.onGen_cut, ↓State.restartLock_cut, ↓apply_ite (State.cut m), ite_self, m_regs, m_gen]

theorem State.clearFormat_cut {m : Area → Bool} (s : State) (m_regs : m .regs := by assumption) (m_gen : m .gen := by assumption) :
    (State.clearFormat s).cut m = s.cut m := by
  unfold State.clearFormat
  simp only [↓State.setReg_cut, ↓State.setF_cut, ↓State.onGen_cut, ↓apply_ite (State.cut m), ite_self, m_regs, m_gen]

theorem State.checkFormat_cut {m : Area → Bool} (s : State) (m_regs : m .regs := by assumption) (m_gen : m .gen := by assumption) :
    (State.checkFormat s).cut m = s.cut m := by
  unfold State.checkFormat
  simp only [↓State.clearFormat_cut, ↓apply_ite (State.cut m), ite_self, m_regs, m_gen]

theorem execGenlockLine_cut {m : Area → Bool} (kind : Fin 3) (h : ℕ) (s : State) (m_regs : m .regs := by assumption) (m_gen : m .gen := by assumption) :
    outCut m (execGenlockLine kind h s) = some (s.cut m) := by
  unfold execGenlockLine
  simp only [↓State.setF_cut, ↓State.onGen_cut, ↓State.setLock_cut, ↓State.clearFormat_cut, ↓apply_ite (State.cut m), ite_self, ↓outCut_next, ↓apply_ite (outCut m), m_regs, m_gen]

theorem State.acquire_cut {m : Area → Bool} (s : State) (e : ℤ) (m_regs : m .regs := by assumption) (m_evt : m .evt := by assumption) (m_gen : m .gen := by assumption) :
    (State.acquire s e).cut m = s.cut m := by
  unfold State.acquire
  simp only [↓State.onGen_cut, ↓State.event_cut, ↓State.lock_cut, ↓apply_ite (State.cut m), ite_self, m_regs, m_evt, m_gen]

theorem State.syncMatch_cut {m : Area → Bool} (s : State) (e : ℤ) (m_regs : m .regs := by assumption) (m_evt : m .evt := by assumption) (m_gen : m .gen := by assumption) :
    (State.syncMatch s e).cut m = s.cut m := by
  unfold State.syncMatch
  repeat' (first | split | simp only [↓State.onGen_cut, ↓State.setLock_cut, ↓State.unlock_cut, ↓State.acquire_cut, m_regs, m_evt, m_gen])

theorem execGenlockSync_cut {m : Area → Bool} (t : ℕ) (lines : ℕ) (s : State) (m_regs : m .regs := by assumption) (m_evt : m .evt := by assumption) (m_gen : m .gen := by assumption) :
    outCut m (execGenlockSync t lines s) = some (s.cut m) := by
  unfold execGenlockSync
  repeat' (first | (refine congrArg some ?_) | split | simp only [↓State.setReg_cut, ↓State.setF_cut, ↓State.onGen_cut, ↓State.unlock_cut, ↓State.syncMatch_cut, m_regs, m_evt, m_gen])

theorem State.clearLines_cut {m : Area → Bool} (s : State) (m_regs : m .regs := by assumption) (m_gen : m .gen := by assumption) :
    (State.clearLines s).cut m = s.cut m := by
  unfold State.clearLines
  simp only [↓State.onGen_cut, ↓State.clearFormat_cut, ↓apply_ite (State.cut m), ite_self, m_regs, m_gen]

theorem execGenlockNoSignal_cut {m : Area → Bool} (s : State) (m_regs : m .regs := by assumption) (m_evt : m .evt := by assumption) (m_gen : m .gen := by assumption) :
    outCut m (execGenlockNoSignal s) = some (s.cut m) := by
  unfold execGenlockNoSignal
  simp only [↓State.onGen_cut, ↓State.setLock_cut, ↓State.unlock_cut, ↓State.clearLines_cut, ↓apply_ite (State.cut m), ite_self, ↓outCut_next, ↓apply_ite (outCut m), m_regs, m_evt, m_gen]

theorem State.setCam_cut {m : Area → Bool} (s : State) (n : Nat) (c : CamState) (m_gen : m .gen := by assumption) :
    (State.setCam s n c).cut m = s.cut m := by
  unfold State.setCam
  simp only [↓State.onGen_cut, m_gen]

theorem State.setCamValid_cut {m : Area → Bool} (s : State) (n : Nat) (b : Bool) (m_regs : m .regs := by assumption) :
    (State.setCamValid s n b).cut m = s.cut m := by
  unfold State.setCamValid
  simp only [↓State.setF_cut, m_regs]

theorem State.camSample_cut {m : Area → Bool} (s : State) (n : ℕ) (o : ℕ) (d : ℕ) (late : Bool) (m_regs : m .regs := by assumption) (m_evt : m .evt := by assumption) (m_gen : m .gen := by assumption) :
    (State.camSample s n o d late).cut m = s.cut m := by
  unfold State.camSample
  simp only [↓State.setReg_cut, ↓State.event_cut, ↓State.setCam_cut, ↓State.setCamValid_cut, ↓apply_ite (State.cut m), ite_self, m_regs, m_evt, m_gen]

theorem State.camMiss_cut {m : Area → Bool} (s : State) (n : ℕ) (m_regs : m .regs := by assumption) (m_evt : m .evt := by assumption) (m_gen : m .gen := by assumption) :
    (State.camMiss s n).cut m = s.cut m := by
  unfold State.camMiss
  simp only [↓State.setReg_cut, ↓State.bump_cut, ↓State.event_cut, ↓State.setCam_cut, ↓State.setCamValid_cut, ↓apply_ite (State.cut m), ite_self, m_regs, m_evt, m_gen]

theorem execCamShutterEdge_cut {m : Area → Bool} (n : Fin 8) (rising : Bool) (t : ℕ) (s : State) (m_regs : m .regs := by assumption) (m_evt : m .evt := by assumption) (m_gen : m .gen := by assumption) :
    outCut m (execCamShutterEdge n rising t s) = some (s.cut m) := by
  unfold execCamShutterEdge
  repeat' (first | (refine congrArg some ?_) | split | simp only [↓State.bump_cut, ↓State.event_cut, ↓State.setCam_cut, ↓State.camSample_cut, ↓State.camMiss_cut, m_regs, m_evt, m_gen])

theorem State.camPeriod_cut {m : Area → Bool} (s : State) (n : ℕ) (m_regs : m .regs := by assumption) (m_evt : m .evt := by assumption) (m_gen : m .gen := by assumption) :
    (State.camPeriod s n).cut m = s.cut m := by
  unfold State.camPeriod
  simp only [↓State.setCam_cut, ↓State.camMiss_cut, ↓apply_ite (State.cut m), ite_self, m_regs, m_evt, m_gen]

theorem execFrameReference_cut {m : Area → Bool} (s : State) (m_regs : m .regs := by assumption) (m_evt : m .evt := by assumption) (m_gen : m .gen := by assumption) :
    outCut m (execFrameReference s) = some (s.cut m) := by
  unfold execFrameReference
  repeat' (first | (refine congrArg some ?_) | (with_reducible refine (foldl_cut _ _ _ fun s x => ?_).trans ?_) | split | simp only [↓State.reachTime_cut, ↓State.camPeriod_cut, m_regs, m_evt, m_gen])

theorem State.measure_cut {m : Area → Bool} (s : State) (m_regs : m .regs := by assumption) (m_evt : m .evt := by assumption) (m_gen : m .gen := by assumption) :
    (State.measure s).cut m = s.cut m := by
  unfold State.measure
  repeat' (first | split | simp only [↓State.setF_cut, ↓State.onGen_cut, ↓State.event_cut, m_regs, m_evt, m_gen])

theorem State.loadAonk_cut {m : Area → Bool} (s : State) (count : ℕ) (m_regs : m .regs := by assumption) (m_gen : m .gen := by assumption) :
    (State.loadAonk s count).cut m = s.cut m := by
  unfold State.loadAonk
  simp only [↓State.setReg_cut, ↓State.onGen_cut, ↓apply_ite (State.cut m), ite_self, m_regs, m_gen]

theorem State.aonkAtEntry_cut {m : Area → Bool} (s : State) (m_regs : m .regs := by assumption) :
    (State.aonkAtEntry s).cut m = s.cut m := by
  unfold State.aonkAtEntry
  simp only [↓State.setReg_cut, ↓apply_ite (State.cut m), ite_self, m_regs]

theorem execAonkMeasure_cut {m : Area → Bool} (count : ℕ) (s : State) (m_regs : m .regs := by assumption) (m_gen : m .gen := by assumption) :
    outCut m (execAonkMeasure count s) = some (s.cut m) := by
  unfold execAonkMeasure
  simp only [↓State.loadAonk_cut, ↓apply_ite (State.cut m), ite_self, ↓outCut_next, ↓apply_ite (outCut m), m_regs, m_gen]

theorem State.latchTime_cut {m : Area → Bool} (s : State) (off : ℕ) (m_gen : m .gen := by assumption) :
    (State.latchTime s off).cut m = s.cut m := by
  unfold State.latchTime
  simp only [↓State.onGen_cut, ↓apply_ite (State.cut m), ite_self, m_gen]

theorem execGenLoRead_cut {m : Area → Bool} (pair : Fin 3) (s : State) (m_regs : m .regs := by assumption) (m_pwr : m .pwr := by assumption) (m_evt : m .evt := by assumption) (m_gen : m .gen := by assumption) (m_links : m .links := by assumption) (m_out : m .out := by assumption) :
    outCut m (execGenLoRead pair s) = some (s.cut m) := by
  unfold execGenLoRead
  repeat' (first | (refine congrArg some ?_) | (with_reducible refine (State.viaHst_cut (h_f := fun y0 => ?_) (s := _)).trans ?_) | split | simp only [↓State.emit_cut, ↓State.stallOn_cut, ↓State.latchTime_cut, m_regs, m_pwr, m_evt, m_gen, m_links, m_out])

theorem State.onHrt_cut {m : Area → Bool} (s : State) (f : HearthState → HearthState) (m_hrt : m .hrt := by assumption) :
    (State.onHrt s f).cut m = s.cut m := by
  unfold State.onHrt
  simp only [↓cut_hrt, ↓apply_ite (State.cut m), ite_self, m_hrt]

theorem State.setSrc_cut {m : Area → Bool} (s : State) (sel : Nat) (x2 : SourceState) (m_hrt : m .hrt := by assumption) :
    (State.setSrc s sel x2).cut m = s.cut m := by
  unfold State.setSrc
  simp only [↓State.onHrt_cut, m_hrt]

theorem State.syncAsleep_cut {m : Area → Bool} (s : State) (m_regs : m .regs := by assumption) :
    (State.syncAsleep s).cut m = s.cut m := by
  unfold State.syncAsleep
  repeat' (first | (with_reducible refine (foldl_cut _ _ _ fun s x => ?_).trans ?_) | split | simp only [↓State.setF_cut, m_regs])

theorem State.setRun_cut {m : Area → Bool} (s : State) (v : Nat) (t : Nat) (r : HearthRun) (m_hrt : m .hrt := by assumption) :
    (State.setRun s v t r).cut m = s.cut m := by
  unfold State.setRun
  simp only [↓State.onHrt_cut, m_hrt]

theorem State.sleepTarget_cut {m : Area → Bool} (s : State) (sel : ℕ) (m_hrt : m .hrt := by assumption) :
    (State.sleepTarget s sel).cut m = s.cut m := by
  unfold State.sleepTarget
  repeat' (first | (with_reducible refine (foldl_cut _ _ _ fun s x => ?_).trans ?_) | split | simp only [↓State.setSrc_cut, ↓State.setRun_cut, m_hrt])

theorem State.wakeTarget_cut {m : Area → Bool} (s : State) (sel : ℕ) (cause : ℕ) (m_regs : m .regs := by assumption) (m_evt : m .evt := by assumption) (m_hrt : m .hrt := by assumption) :
    (State.wakeTarget s sel cause).cut m = s.cut m := by
  unfold State.wakeTarget
  simp only [↓State.event_cut, ↓State.setSrc_cut, ↓State.syncAsleep_cut, ↓apply_ite (State.cut m), ite_self, m_regs, m_evt, m_hrt]

theorem State.takeSrcSleep_cut {m : Area → Bool} (s : State) (arg : ℕ) (m_hrt : m .hrt := by assumption) :
    (State.takeSrcSleep s arg).cut m = s.cut m := by
  unfold State.takeSrcSleep
  repeat' (first | (with_reducible refine (foldl_cut _ _ _ fun s x => ?_).trans ?_) | split | simp only [↓State.setSrc_cut, m_hrt])

theorem execSrcSleep_cut {m : Area → Bool} (_p : Fin 4) (arg : Word) (s : State) (m_hrt : m .hrt := by assumption) :
    outCut m (execSrcSleep _p arg s) = some (s.cut m) := by
  unfold execSrcSleep
  simp only [↓State.takeSrcSleep_cut, ↓apply_ite (State.cut m), ite_self, ↓outCut_next, ↓apply_ite (outCut m), m_hrt]

theorem State.takeSrcWake_cut {m : Area → Bool} (s : State) (arg : ℕ) (m_regs : m .regs := by assumption) (m_evt : m .evt := by assumption) (m_hrt : m .hrt := by assumption) :
    (State.takeSrcWake s arg).cut m = s.cut m := by
  unfold State.takeSrcWake
  repeat' (first | (with_reducible refine (foldl_cut _ _ _ fun s x => ?_).trans ?_) | split | simp only [↓State.wakeTarget_cut, m_regs, m_evt, m_hrt])

theorem execSrcWake_cut {m : Area → Bool} (_p : Fin 4) (arg : Word) (s : State) (m_regs : m .regs := by assumption) (m_evt : m .evt := by assumption) (m_hrt : m .hrt := by assumption) :
    outCut m (execSrcWake _p arg s) = some (s.cut m) := by
  unfold execSrcWake
  simp only [↓State.takeSrcWake_cut, ↓apply_ite (State.cut m), ite_self, ↓outCut_next, ↓apply_ite (outCut m), m_regs, m_evt, m_hrt]

theorem State.packetFor_cut {m : Area → Bool} (s : State) (i : ℕ) (m_hrt : m .hrt := by assumption) :
    (State.packetFor s i).cut m = s.cut m := by
  unfold State.packetFor
  simp only [↓State.setSrc_cut, ↓apply_ite (State.cut m), ite_self, m_hrt]

theorem State.completeWakes_cut {m : Area → Bool} (s : State) (i : ℕ) (f : ℕ) (m_regs : m .regs := by assumption) (m_evt : m .evt := by assumption) (m_hrt : m .hrt := by assumption) :
    (State.completeWakes s i f).cut m = s.cut m := by
  unfold State.completeWakes
  simp only [↓State.wakeTarget_cut, ↓apply_ite (State.cut m), ite_self, m_regs, m_evt, m_hrt]

theorem State.sourceBoundary_cut {m : Area → Bool} (s : State) (sel : ℕ) (m_regs : m .regs := by assumption) (m_evt : m .evt := by assumption) (m_hrt : m .hrt := by assumption) :
    (State.sourceBoundary s sel).cut m = s.cut m := by
  unfold State.sourceBoundary
  simp only [↓State.event_cut, ↓State.setSrc_cut, ↓State.sleepTarget_cut, ↓apply_ite (State.cut m), ite_self, m_regs, m_evt, m_hrt]

theorem State.syncRun_cut {m : Area → Bool} (s : State) (v : ℕ) (t : ℕ) (m_regs : m .regs := by assumption) :
    (State.syncRun s v t).cut m = s.cut m := by
  unfold State.syncRun
  simp only [↓State.setF_cut, ↓apply_ite (State.cut m), ite_self, m_regs]

theorem State.endRun_cut {m : Area → Bool} (s : State) (v : ℕ) (t : ℕ) (say : Bool) (m_regs : m .regs := by assumption) (m_evt : m .evt := by assumption) (m_hrt : m .hrt := by assumption) :
    (State.endRun s v t say).cut m = s.cut m := by
  unfold State.endRun
  simp only [↓State.event_cut, ↓State.setRun_cut, ↓State.syncRun_cut, ↓apply_ite (State.cut m), ite_self, m_regs, m_evt, m_hrt]

theorem State.endAllRuns_cut {m : Area → Bool} (s : State) (m_regs : m .regs := by assumption) (m_evt : m .evt := by assumption) (m_hrt : m .hrt := by assumption) :
    (State.endAllRuns s).cut m = s.cut m := by
  unfold State.endAllRuns
  repeat' (first | (with_reducible refine (foldl_cut _ _ _ fun s x => ?_).trans ?_) | split | simp only [↓State.onHrt_cut, ↓State.endRun_cut, m_regs, m_evt, m_hrt])

theorem State.clearRejoins_cut {m : Area → Bool} (s : State) (m_hrt : m .hrt := by assumption) :
    (State.clearRejoins s).cut m = s.cut m := by
  unfold State.clearRejoins
  repeat' (first | (with_reducible refine (foldl_cut _ _ _ fun s x => ?_).trans ?_) | split | simp only [↓State.setRun_cut, m_hrt])

theorem State.withRegs_cut {m : Area → Bool} (s : State) (m1 : AMap Word) (m_regs : m .regs := by assumption) :
    (State.withRegs s m1).cut m = s.cut m := by
  unfold State.withRegs
  repeat' (first | (with_reducible refine (foldl_cut _ _ _ fun s x => ?_).trans ?_) | split | simp only [↓State.setReg_cut, m_regs])

theorem State.withPendings_cut {m : Area → Bool} (s : State) (l : List Pending) (m_regs : m .regs := by assumption) :
    (State.withPendings s l).cut m = s.cut m := by
  unfold State.withPendings
  repeat' (first | (with_reducible refine (foldl_cut _ _ _ fun s x => ?_).trans ?_) | split | simp only [↓State.withRegs_cut, m_regs])

theorem State.upcoming_cut {m : Area → Bool} (s : State) (m_regs : m .regs := by assumption) :
    (State.upcoming s).cut m = s.cut m := by
  unfold State.upcoming
  simp only [↓State.withPendings_cut, ↓apply_ite (State.cut m), ite_self, m_regs]

theorem State.setStaging_cut {m : Area → Bool} (s : State) (i : Nat) (x2 : Option Staging) (m_mag : m .mag := by assumption) :
    (State.setStaging s i x2).cut m = s.cut m := by
  unfold State.setStaging
  simp only [↓State.onMag_cut, m_mag]

theorem State.sendIngLate_cut {m : Area → Bool} (s : State) (target : ℕ) (f : ℕ) (k : ℕ) (m_links : m .links := by assumption) (m_out : m .out := by assumption) :
    (State.sendIngLate s target f k).cut m = s.cut m := by
  unfold State.sendIngLate
  repeat' (first | (with_reducible refine (foldl_cut _ _ _ fun s x => ?_).trans ?_) | split | simp only [↓State.linkSend_cut, m_links, m_out])

theorem State.showPlate_cut {m : Area → Bool} (s : State) (v : ℕ) (t : ℕ) (f : ℕ) (i : ℕ) (m_regs : m .regs := by assumption) (m_evt : m .evt := by assumption) (m_mag : m .mag := by assumption) :
    (State.showPlate s v t f i).cut m = s.cut m := by
  unfold State.showPlate
  repeat' (first | split | simp only [↓State.setReg_cut, ↓State.bump_cut, ↓State.event_cut, ↓State.setStaging_cut, m_regs, m_evt, m_mag])

theorem State.substitute_cut {m : Area → Bool} (s : State) (v : ℕ) (t : ℕ) (f : ℕ) (k : ℕ) (d : ℕ) (forced : Bool) (m_regs : m .regs := by assumption) (m_evt : m .evt := by assumption) (m_fst : m .fst := by assumption) (m_links : m .links := by assumption) (m_hrt : m .hrt := by assumption) (m_mag : m .mag := by assumption) (m_out : m .out := by assumption) :
    (State.substitute s v t f k d forced).2.cut m = s.cut m := by
  unfold State.substitute
  repeat' (first | split | simp only [↓State.bump_cut, ↓State.event_cut, ↓State.setBuf_cut, ↓State.setRun_cut, ↓State.syncRun_cut, ↓State.sendIngLate_cut, ↓State.showPlate_cut, m_regs, m_evt, m_fst, m_links, m_hrt, m_mag, m_out])

theorem State.decideTarget_cut {m : Area → Bool} (s : State) (v : ℕ) (t : ℕ) (f : ℕ) (k : ℕ) (d : ℕ) (m_regs : m .regs := by assumption) (m_evt : m .evt := by assumption) (m_fst : m .fst := by assumption) (m_links : m .links := by assumption) (m_hrt : m .hrt := by assumption) (m_mag : m .mag := by assumption) (m_out : m .out := by assumption) :
    (State.decideTarget s v t f k d).2.2.cut m = s.cut m := by
  unfold State.decideTarget
  repeat' (first | split | simp only [↓State.setSrc_cut, ↓State.setRun_cut, ↓State.endRun_cut, ↓State.substitute_cut, m_regs, m_evt, m_fst, m_links, m_hrt, m_mag, m_out])

theorem State.traceSlot_cut {m : Area → Bool} (s : State) (v : ℕ) (k : ℕ) (m_regs : m .regs := by assumption) (m_evt : m .evt := by assumption) :
    (State.traceSlot s v k).cut m = s.cut m := by
  unfold State.traceSlot
  repeat' (first | (with_reducible refine (foldl_cut _ _ _ fun s x => ?_).trans ?_) | split | simp only [↓State.trace_cut, m_regs, m_evt])

theorem State.setOverlayOpen_cut {m : Area → Bool} (s : State) (b : Bool) (m_regs : m .regs := by assumption) :
    (State.setOverlayOpen s b).cut m = s.cut m := by
  unfold State.setOverlayOpen
  simp only [↓State.setF_cut, ↓apply_ite (State.cut m), ite_self, m_regs]

theorem State.putSlotStat_cut {m : Area → Bool} (s : State) (v : ℕ) (f : ℕ) (picks : List Pick) (vh : Bool) (m_regs : m .regs := by assumption) :
    (State.putSlotStat s v f picks vh).cut m = s.cut m := by
  unfold State.putSlotStat
  repeat' (first | (with_reducible refine (foldl_cut _ _ _ fun s x => ?_).trans ?_) | split | simp only [↓State.setReg_cut, ↓State.setF_cut, m_regs])

theorem State.endOtherRun_cut {m : Area → Bool} (s : State) (v : ℕ) (m_regs : m .regs := by assumption) (m_evt : m .evt := by assumption) (m_hrt : m .hrt := by assumption) :
    (State.endOtherRun s v).cut m = s.cut m := by
  unfold State.endOtherRun
  simp only [↓State.endRun_cut, ↓apply_ite (State.cut m), ite_self, m_regs, m_evt, m_hrt]

theorem State.countLate_cut {m : Area → Bool} (s : State) (f : ℕ) (k : ℕ) (v : ℕ) (d : ℕ) (m_regs : m .regs := by assumption) :
    (State.countLate s f k v d).cut m = s.cut m := by
  unfold State.countLate
  repeat' (first | (with_reducible refine (foldl_cut _ _ _ fun s x => ?_).trans ?_) | split | simp only [↓State.bump_cut, m_regs])

theorem State.decideSlot_cut {m : Area → Bool} (s : State) (f : Nat) (k : Nat) (v : Nat) (d : Nat) (m_regs : m .regs := by assumption) (m_evt : m .evt := by assumption) (m_fst : m .fst := by assumption) (m_links : m .links := by assumption) (m_hrt : m .hrt := by assumption) (m_mag : m .mag := by assumption) (m_out : m .out := by assumption) :
    (State.decideSlot s f k v d).2.2.cut m = s.cut m := by
  unfold State.decideSlot
  extract_lets used
  refine (foldl_part_cut (fun a : List Pick × Bool × State => a.2.2) _ _ _ ?_).trans ((State.endOtherRun_cut ..).trans (State.countLate_cut ..))
  intro a x
  dsimp only
  split
  · exact State.decideTarget_cut _ _ _ _ _ _
  · exact State.endRun_cut ..

theorem State.leaveHearth_cut {m : Area → Bool} (s : State) (m_regs : m .regs := by assumption) (m_pwr : m .pwr := by assumption) (m_hst : m .hst := by assumption) (m_rdg : m .rdg := by assumption) (m_links : m .links := by assumption) (m_out : m .out := by assumption) :
    (State.leaveHearth s).cut m = s.cut m := by
  unfold State.leaveHearth
  repeat' (first | (with_reducible refine (foldl_cut _ _ _ fun s x => ?_).trans ?_) | split | simp only [↓State.setF_cut, ↓State.signal_cut, ↓State.wake_cut, m_regs, m_pwr, m_hst, m_rdg, m_links, m_out])

theorem State.slotDeadline_cut {m : Area → Bool} (s : State) (m_regs : m .regs := by assumption) (m_pwr : m .pwr := by assumption) (m_hst : m .hst := by assumption) (m_evt : m .evt := by assumption) (m_gen : m .gen := by assumption) (m_rdg : m .rdg := by assumption) (m_fst : m .fst := by assumption) (m_links : m .links := by assumption) (m_hrt : m .hrt := by assumption) (m_mag : m .mag := by assumption) (m_out : m .out := by assumption) :
    (State.slotDeadline s).cut m = s.cut m := by
  unfold State.slotDeadline
  repeat' (first | (with_reducible refine (foldl_cut _ _ _ fun s x => ?_).trans ?_) | split | simp only [↓State.setReg_cut, ↓State.reachTime_cut, ↓State.decideSlot_cut, ↓State.leaveHearth_cut, ↓State.setOverlayOpen_cut, ↓State.putSlotStat_cut, ↓State.traceSlot_cut, ↓State.onHrt_cut, ↓apply_ite (State.cut m), ite_self, m_regs, m_pwr, m_hst, m_evt, m_gen, m_rdg, m_fst, m_links, m_hrt, m_mag, m_out])

theorem execSlotDeadline_cut {m : Area → Bool} (s : State) (m_regs : m .regs := by assumption) (m_pwr : m .pwr := by assumption) (m_hst : m .hst := by assumption) (m_evt : m .evt := by assumption) (m_gen : m .gen := by assumption) (m_rdg : m .rdg := by assumption) (m_fst : m .fst := by assumption) (m_links : m .links := by assumption) (m_hrt : m .hrt := by assumption) (m_mag : m .mag := by assumption) (m_out : m .out := by assumption) :
    outCut m (execSlotDeadline s) = some (s.cut m) := by
  unfold execSlotDeadline
  simp only [↓State.slotDeadline_cut, ↓apply_ite (State.cut m), ite_self, ↓outCut_next, ↓apply_ite (outCut m), m_regs, m_pwr, m_hst, m_evt, m_gen, m_rdg, m_fst, m_links, m_hrt, m_mag, m_out]

theorem State.holdDecision_cut {m : Area → Bool} (s : State) (m_gen : m .gen := by assumption) (m_rdg : m .rdg := by assumption) (m_links : m .links := by assumption) (m_hrt : m .hrt := by assumption) (m_out : m .out := by assumption) :
    (State.holdDecision s).cut m = s.cut m := by
  unfold State.holdDecision
  repeat' (first | (with_reducible refine (foldl_cut _ _ _ fun s x => ?_).trans ?_) | split | simp only [↓State.flood_cut, ↓State.reachTime_cut, ↓State.onHrt_cut, m_gen, m_rdg, m_links, m_hrt, m_out])

theorem execHoldDecision_cut {m : Area → Bool} (s : State) (m_gen : m .gen := by assumption) (m_rdg : m .rdg := by assumption) (m_links : m .links := by assumption) (m_hrt : m .hrt := by assumption) (m_out : m .out := by assumption) :
    outCut m (execHoldDecision s) = some (s.cut m) := by
  unfold execHoldDecision
  simp only [↓State.holdDecision_cut, ↓apply_ite (State.cut m), ite_self, ↓outCut_next, ↓apply_ite (outCut m), m_gen, m_rdg, m_links, m_hrt, m_out]

theorem State.takeHold_cut {m : Area → Bool} (s : State) (f : ℕ) (k : ℕ) (v : ℕ) (m1 : ℕ) (role : ℕ) (m_regs : m .regs := by assumption) (m_evt : m .evt := by assumption) (m_hrt : m .hrt := by assumption) :
    (State.takeHold s f k v m1 role).cut m = s.cut m := by
  unfold State.takeHold
  simp only [↓State.bump_cut, ↓State.event_cut, ↓State.onHrt_cut, ↓apply_ite (State.cut m), ite_self, m_regs, m_evt, m_hrt]

theorem State.hearthBoundary_cut {m : Area → Bool} (s : State) (disabled : List ℕ) (stepped : Bool) (m_regs : m .regs := by assumption) (m_evt : m .evt := by assumption) (m_hrt : m .hrt := by assumption) :
    (State.hearthBoundary s disabled stepped).cut m = s.cut m := by
  unfold State.hearthBoundary
  repeat' (first | (with_reducible refine (foldl_cut _ _ _ fun s x => ?_).trans ?_) | split | simp only [↓State.onHrt_cut, ↓State.syncAsleep_cut, ↓State.sourceBoundary_cut, ↓State.endRun_cut, ↓State.clearRejoins_cut, m_regs, m_evt, m_hrt])

theorem execFstPatrolScrub_cut {m : Area → Bool} (errs : List ReadError) (s : State) (m_regs : m .regs := by assumption) (m_evt : m .evt := by assumption) (m_fst : m .fst := by assumption) :
    outCut m (execFstPatrolScrub errs s) = some (s.cut m) := by
  unfold execFstPatrolScrub
  simp only [↓State.takeEcc_cut, ↓apply_ite (State.cut m), ite_self, ↓outCut_next, ↓apply_ite (outCut m), m_regs, m_evt, m_fst]

theorem State.bankWrite_cut {m : Area → Bool} (s : State) (t : ℕ) (c : ℕ) (o : ℕ) (n : ℕ) (m_regs : m .regs := by assumption) (m_evt : m .evt := by assumption) (m_bnk : m .bnk := by assumption) :
    (State.bankWrite s t c o n).cut m = s.cut m := by
  unfold State.bankWrite
  simp only [↓State.touchWords_cut, ↓State.writeWords_cut, ↓apply_ite (State.cut m), ite_self, m_regs, m_evt, m_bnk]

theorem State.layOut_cut {m : Area → Bool} (s : State) (v : ℕ) (c : ℕ) (n : ℕ) (m_bnk : m .bnk := by assumption) :
    (State.layOut s v c n).cut m = s.cut m := by
  unfold State.layOut
  simp only [↓State.onBnk_cut, ↓State.copyWords_cut, ↓apply_ite (State.cut m), ite_self, m_bnk]

theorem State.layLoads_cut {m : Area → Bool} (s : State) (m_bnk : m .bnk := by assumption) :
    (State.layLoads s).cut m = s.cut m := by
  unfold State.layLoads
  repeat' (first | (with_reducible refine (foldl_cut _ _ _ fun s x => ?_).trans ?_) | split | simp only [↓State.layOut_cut, m_bnk])

theorem State.writeInactive_cut {m : Area → Bool} (s : State) (t : ℕ) (o : ℕ) (bs : List Byte) (m_regs : m .regs := by assumption) (m_tabs : m .tabs := by assumption) (m_evt : m .evt := by assumption) (m_fst : m .fst := by assumption) (m_bnk : m .bnk := by assumption) :
    (State.writeInactive s t o bs).cut m = s.cut m := by
  unfold State.writeInactive
  simp only [↓State.setTable_cut, ↓State.onFst_cut, ↓State.bankWrite_cut, ↓State.layOut_cut, ↓apply_ite (State.cut m), ite_self, m_regs, m_tabs, m_evt, m_fst, m_bnk]

theorem State.rebuildTile_cut {m : Area → Bool} (s : State) (kern : Bool) (t : ℕ) (m_regs : m .regs := by assumption) (m_tabs : m .tabs := by assumption) (m_evt : m .evt := by assumption) (m_fst : m .fst := by assumption) (m_bnk : m .bnk := by assumption) :
    (State.rebuildTile s kern t).cut m = s.cut m := by
  unfold State.rebuildTile
  repeat' (first | (with_reducible refine (foldl_cut _ _ _ fun s x => ?_).trans ?_) | split | simp only [↓State.writeInactive_cut, m_regs, m_tabs, m_evt, m_fst, m_bnk])

theorem State.rebuildErrors_cut {m : Area → Bool} (s : State) (ts : List ℕ) (m_regs : m .regs := by assumption) (m_evt : m .evt := by assumption) :
    (State.rebuildErrors s ts).cut m = s.cut m := by
  unfold State.rebuildErrors
  repeat' (first | (with_reducible refine (foldl_cut _ _ _ fun s x => ?_).trans ?_) | split | simp only [↓State.bump_cut, ↓State.event_cut, m_regs, m_evt])

theorem State.rebuild_cut {m : Area → Bool} (s : State) (t : ℕ) (o : ℕ) (n : ℕ) (m_regs : m .regs := by assumption) (m_tabs : m .tabs := by assumption) (m_evt : m .evt := by assumption) (m_fst : m .fst := by assumption) (m_bnk : m .bnk := by assumption) :
    (State.rebuild s t o n).cut m = s.cut m := by
  unfold State.rebuild
  repeat' (first | (with_reducible refine (foldl_cut _ _ _ fun s x => ?_).trans ?_) | split | simp only [↓State.rebuildTile_cut, ↓State.rebuildErrors_cut, m_regs, m_tabs, m_evt, m_fst, m_bnk])

theorem State.syncWstat_cut {m : Area → Bool} (s : State) (m_regs : m .regs := by assumption) :
    (State.syncWstat s).cut m = s.cut m := by
  unfold State.syncWstat
  repeat' (first | (with_reducible refine (foldl_cut _ _ _ fun s x => ?_).trans ?_) | split | simp only [↓State.setF_cut, m_regs])

theorem State.syncPrefix_cut {m : Area → Bool} (s : State) (m_regs : m .regs := by assumption) :
    (State.syncPrefix s).cut m = s.cut m := by
  unfold State.syncPrefix
  simp only [↓State.setF_cut, ↓apply_ite (State.cut m), ite_self, m_regs]

theorem State.syncLaw_cut {m : Area → Bool} (s : State) (m_regs : m .regs := by assumption) :
    (State.syncLaw s).cut m = s.cut m := by
  unfold State.syncLaw
  repeat' (first | (with_reducible refine (foldl_cut _ _ _ fun s x => ?_).trans ?_) | split | simp only [↓State.setF_cut, m_regs])

theorem State.syncPerm_cut {m : Area → Bool} (s : State) (m_regs : m .regs := by assumption) :
    (State.syncPerm s).cut m = s.cut m := by
  unfold State.syncPerm
  simp only [↓State.setF_cut, m_regs]

theorem State.startCrc_cut {m : Area → Bool} (s : State) (m_regs : m .regs := by assumption) :
    (State.startCrc s).cut m = s.cut m := by
  unfold State.startCrc
  simp only [↓State.setF_cut, ↓apply_ite (State.cut m), ite_self, m_regs]

theorem execDmuCrcEnd_cut {m : Area → Bool} (s : State) (m_regs : m .regs := by assumption) :
    outCut m (execDmuCrcEnd s) = some (s.cut m) := by
  unfold execDmuCrcEnd
  repeat' (first | (refine congrArg some ?_) | (with_reducible refine (foldl_cut _ _ _ fun s x => ?_).trans ?_) | split | simp only [↓State.setReg_cut, ↓State.setF_cut, m_regs])

theorem State.swapCopies_cut {m : Area → Bool} (s : State) (t : ℕ) (m_regs : m .regs := by assumption) (m_tabs : m .tabs := by assumption) (m_bnk : m .bnk := by assumption) :
    (State.swapCopies s t).cut m = s.cut m := by
  unfold State.swapCopies
  simp only [↓State.setF_cut, ↓State.setTable_cut, ↓State.onBnk_cut, ↓apply_ite (State.cut m), ite_self, m_regs, m_tabs, m_bnk]

theorem State.syncPool_cut {m : Area → Bool} (s : State) (m_regs : m .regs := by assumption) :
    (State.syncPool s).cut m = s.cut m := by
  unfold State.syncPool
  simp only [↓State.setF_cut, m_regs]

theorem State.placeColour_cut {m : Area → Bool} (s : State) (v : ℕ) (u : ℕ) (m_regs : m .regs := by assumption) (m_tabs : m .tabs := by assumption) (m_bnk : m .bnk := by assumption) :
    (State.placeColour s v u).cut m = s.cut m := by
  unfold State.placeColour
  simp only [↓State.setF_cut, ↓State.setTable_cut, ↓State.onBnk_cut, ↓State.syncPool_cut, ↓apply_ite (State.cut m), ite_self, m_regs, m_tabs, m_bnk]

theorem State.exchange_cut {m : Area → Bool} (s : State) (loads : List ℕ) (m_regs : m .regs := by assumption) (m_tabs : m .tabs := by assumption) (m_bnk : m .bnk := by assumption) :
    (State.exchange s loads).cut m = s.cut m := by
  unfold State.exchange
  repeat' (first | (with_reducible refine (foldl_cut _ _ _ fun s x => ?_).trans ?_) | split | simp only [↓State.startResync_cut, ↓State.syncWstat_cut, ↓State.syncLaw_cut, ↓State.syncPerm_cut, ↓State.swapCopies_cut, ↓State.placeColour_cut, m_regs, m_tabs, m_bnk])

theorem State.copyTable_cut {m : Area → Bool} (s : State) (t : ℕ) (m_regs : m .regs := by assumption) (m_tabs : m .tabs := by assumption) (m_evt : m .evt := by assumption) (m_fst : m .fst := by assumption) (m_bnk : m .bnk := by assumption) :
    (State.copyTable s t).cut m = s.cut m := by
  unfold State.copyTable
  repeat' (first | (with_reducible refine (foldl_cut _ _ _ fun s x => ?_).trans ?_) | split | simp only [↓State.setTable_cut, ↓State.onFst_cut, ↓State.touchWords_cut, ↓State.readWord_cut, ↓State.copyWords_cut, ↓State.layOut_cut, m_regs, m_tabs, m_evt, m_fst, m_bnk])

theorem State.endResync_cut {m : Area → Bool} (s : State) (t : ℕ) (m_regs : m .regs := by assumption) (m_tabs : m .tabs := by assumption) (m_evt : m .evt := by assumption) (m_fst : m .fst := by assumption) (m_bnk : m .bnk := by assumption) :
    (State.endResync s t).2.cut m = s.cut m := by
  unfold State.endResync
  dsimp only
  repeat' (first | rfl | (simp only [↓State.setTable_cut, ↓State.setResyncBit_cut, ↓State.syncPrefix_cut, ↓State.startCrc_cut, ↓State.copyTable_cut, ↓apply_ite (State.cut m), ite_self, m_regs, m_tabs, m_evt, m_fst, m_bnk]; done) | split | simp only [↓State.setTable_cut, ↓State.setResyncBit_cut, ↓State.syncPrefix_cut, ↓State.startCrc_cut, ↓State.copyTable_cut, m_regs, m_tabs, m_evt, m_fst, m_bnk])

theorem State.loseLayers_cut {m : Area → Bool} (s : State) (m_tabs : m .tabs := by assumption) :
    (State.loseLayers s).cut m = s.cut m := by
  unfold State.loseLayers
  repeat' (first | (with_reducible refine (foldl_cut _ _ _ fun s x => ?_).trans ?_) | split | simp only [↓State.setTable_cut, m_tabs])

theorem State.loseTables_cut {m : Area → Bool} (s : State) (m_regs : m .regs := by assumption) (m_tabs : m .tabs := by assumption) (m_evt : m .evt := by assumption) (m_bnk : m .bnk := by assumption) (m_fmask : m .fmask := by assumption) :
    (State.loseTables s).cut m = s.cut m := by
  unfold State.loseTables
  repeat' (first | (with_reducible refine (foldl_cut _ _ _ fun s x => ?_).trans ?_) | split | simp only [↓State.setReg_cut, ↓State.setF_cut, ↓State.setTable_cut, ↓State.event_cut, ↓State.setResyncBit_cut, ↓State.onBnk_cut, ↓State.syncPrefix_cut, ↓State.startCrc_cut, ↓cut_fmask, m_regs, m_tabs, m_evt, m_bnk, m_fmask])

theorem State.setBankOwner_cut {m : Area → Bool} (s : State) (b : ℕ) (o : ℕ) (m_regs : m .regs := by assumption) :
    (State.setBankOwner s b o).cut m = s.cut m := by
  unfold State.setBankOwner
  simp only [↓State.setF_cut, ↓apply_ite (State.cut m), ite_self, m_regs]

theorem State.syncBanks_cut {m : Area → Bool} (s : State) (m_regs : m .regs := by assumption) :
    (State.syncBanks s).cut m = s.cut m := by
  unfold State.syncBanks
  repeat' (first | (with_reducible refine (foldl_cut _ _ _ fun s x => ?_).trans ?_) | split | simp only [↓State.setBankState_cut, m_regs])

theorem State.dropOff_cut {m : Area → Bool} (s : State) (m_bnk : m .bnk := by assumption) :
    (State.dropOff s).cut m = s.cut m := by
  unfold State.dropOff
  simp only [↓State.onBnk_cut, ↓apply_ite (State.cut m), ite_self, m_bnk]

theorem State.loseTrace_cut {m : Area → Bool} (s : State) (m_regs : m .regs := by assumption) (m_evt : m .evt := by assumption) :
    (State.loseTrace s).cut m = s.cut m := by
  unfold State.loseTrace
  simp only [↓State.setReg_cut, ↓State.onEvt_cut, ↓apply_ite (State.cut m), ite_self, m_regs, m_evt]

theorem State.placePool_cut {m : Area → Bool} (s : State) (m_regs : m .regs := by assumption) (m_evt : m .evt := by assumption) (m_bnk : m .bnk := by assumption) :
    (State.placePool s).cut m = s.cut m := by
  unfold State.placePool
  repeat' (first | (with_reducible refine (foldl_cut _ _ _ fun s x => ?_).trans ?_) | split | simp only [↓State.setF_cut, ↓State.onBnk_cut, ↓State.setBankOwner_cut, ↓State.syncBanks_cut, ↓State.dropOff_cut, ↓State.loseTrace_cut, m_regs, m_evt, m_bnk])

theorem State.banksOn_cut {m : Area → Bool} (s : State) (m_regs : m .regs := by assumption) :
    (State.banksOn s).cut m = s.cut m := by
  unfold State.banksOn
  repeat' (first | (with_reducible refine (foldl_cut _ _ _ fun s x => ?_).trans ?_) | split | simp only [↓State.setBankState_cut, m_regs])

theorem State.scrub_cut {m : Area → Bool} (s : State) (errs : List ReadError) (m_regs : m .regs := by assumption) (m_evt : m .evt := by assumption) (m_bnk : m .bnk := by assumption) :
    (State.scrub s errs).cut m = s.cut m := by
  unfold State.scrub
  repeat' (first | (with_reducible refine (foldl_cut _ _ _ fun s x => ?_).trans ?_) | split | simp only [↓State.readWord_cut, ↓State.spoilWords_cut, m_regs, m_evt, m_bnk])

theorem execBnkScrub_cut {m : Area → Bool} (errs : List ReadError) (s : State) (m_regs : m .regs := by assumption) (m_evt : m .evt := by assumption) (m_bnk : m .bnk := by assumption) :
    outCut m (execBnkScrub errs s) = some (s.cut m) := by
  unfold execBnkScrub
  simp only [↓State.scrub_cut, ↓apply_ite (State.cut m), ite_self, ↓outCut_next, ↓apply_ite (outCut m), m_regs, m_evt, m_bnk]

theorem execBnkRetention_cut {m : Area → Bool} (s : State) (m_regs : m .regs := by assumption) :
    outCut m (execBnkRetention s) = some (s.cut m) := by
  unfold execBnkRetention
  repeat' (first | (refine congrArg some ?_) | (with_reducible refine (foldl_cut _ _ _ fun s x => ?_).trans ?_) | split | simp only [↓State.setBankState_cut, m_regs])

theorem State.ingEvent_cut {m : Area → Bool} (s : State) (code : ℕ) (cnt : ℕ) (p : Option ℕ) (t : ℕ) (f : ℕ) (m_regs : m .regs := by assumption) (m_evt : m .evt := by assumption) :
    (State.ingEvent s code cnt p t f).cut m = s.cut m := by
  unfold State.ingEvent
  simp only [↓State.bump_cut, ↓State.event_cut, ↓apply_ite (State.cut m), ite_self, m_regs, m_evt]

theorem State.badPkt_cut {m : Area → Bool} (s : State) (p : ℕ) (t : ℕ) (f : ℕ) (m_regs : m .regs := by assumption) (m_evt : m .evt := by assumption) :
    (State.badPkt s p t f).cut m = s.cut m := by
  unfold State.badPkt
  simp only [↓State.ingEvent_cut, ↓apply_ite (State.cut m), ite_self, m_regs, m_evt]

theorem State.onDec_cut {m : Area → Bool} (s : State) (p : ℕ) (f : PktDecoder → PktDecoder) (m_links : m .links := by assumption) :
    (State.onDec s p f).cut m = s.cut m := by
  unfold State.onDec
  simp only [↓State.onLink_cut, ↓apply_ite (State.cut m), ite_self, m_links]

theorem State.waitPktOff_cut {m : Area → Bool} (s : State) (p : ℕ) (m_links : m .links := by assumption) :
    (State.waitPktOff s p).cut m = s.cut m := by
  unfold State.waitPktOff
  simp only [↓State.onDec_cut, ↓apply_ite (State.cut m), ite_self, m_links]

theorem State.poisonBuf_cut {m : Area → Bool} (s : State) (i : ℕ) (m_fst : m .fst := by assumption) :
    (State.poisonBuf s i).cut m = s.cut m := by
  unfold State.poisonBuf
  simp only [↓State.setBuf_cut, ↓apply_ite (State.cut m), ite_self, m_fst]

theorem State.poison_cut {m : Area → Bool} (s : State) (t : ℕ) (f : ℕ) (m_fst : m .fst := by assumption) :
    (State.poison s t f).cut m = s.cut m := by
  unfold State.poison
  repeat' (first | split | simp only [↓State.poisonBuf_cut, m_fst])

theorem State.checkPacket_cut {m : Area → Bool} (s : State) (k : PktWhat) (t : ℕ) (len : ℕ) (f : ℕ) (m_fst : m .fst := by assumption) :
    (State.checkPacket s k t len f).2.cut m = s.cut m := by
  unfold State.checkPacket
  repeat' (first | split | simp only [↓State.setBuf_cut, m_fst])

theorem State.rejectPacket_cut {m : Area → Bool} (s : State) (p : ℕ) (t : ℕ) (f : ℕ) (e : PktFail) (m_regs : m .regs := by assumption) (m_evt : m .evt := by assumption) (m_fst : m .fst := by assumption) :
    (State.rejectPacket s p t f e).cut m = s.cut m := by
  unfold State.rejectPacket
  repeat' (first | split | simp only [↓State.ingEvent_cut, ↓State.badPkt_cut, ↓State.poison_cut, m_regs, m_evt, m_fst])

theorem State.showNewest_cut {m : Area → Bool} (s : State) (i : ℕ) (f : ℕ) (m_regs : m .regs := by assumption) :
    (State.showNewest s i f).cut m = s.cut m := by
  unfold State.showNewest
  simp only [↓State.setReg_cut, ↓apply_ite (State.cut m), ite_self, m_regs]

theorem State.completeFrame_cut {m : Area → Bool} (s : State) (p : Option ℕ) (i : ℕ) (m_regs : m .regs := by assumption) (m_evt : m .evt := by assumption) (m_fst : m .fst := by assumption) (m_links : m .links := by assumption) (m_hrt : m .hrt := by assumption) :
    (State.completeFrame s p i).cut m = s.cut m := by
  unfold State.completeFrame
  simp only [↓State.bump_cut, ↓State.event_cut, ↓State.setBuf_cut, ↓State.remark_cut, ↓State.reportFrameLoss_cut, ↓State.completeWakes_cut, ↓State.showNewest_cut, ↓apply_ite (State.cut m), ite_self, m_regs, m_evt, m_fst, m_links, m_hrt]

theorem State.checkComplete_cut {m : Area → Bool} (s : State) (p : ℕ) (i : ℕ) (m_regs : m .regs := by assumption) (m_evt : m .evt := by assumption) (m_fst : m .fst := by assumption) (m_links : m .links := by assumption) (m_hrt : m .hrt := by assumption) :
    (State.checkComplete s p i).cut m = s.cut m := by
  unfold State.checkComplete
  simp only [↓State.completeFrame_cut, ↓apply_ite (State.cut m), ite_self, m_regs, m_evt, m_fst, m_links, m_hrt]

theorem State.putDirect_cut {m : Area → Bool} (s : State) (i : ℕ) (y : ℕ) (row : List ℕ) (m_fst : m .fst := by assumption) :
    (State.putDirect s i y row).cut m = s.cut m := by
  unfold State.putDirect
  simp only [↓State.setBuf_cut, ↓apply_ite (State.cut m), ite_self, m_fst]

theorem State.writeSpanRow_cut {m : Area → Bool} (s : State) (t : ℕ) (i : ℕ) (f : ℕ) (y : ℕ) (pix : ℕ) (x0 : ℕ) (bytes : List Byte) (m_regs : m .regs := by assumption) (m_evt : m .evt := by assumption) (m_fst : m .fst := by assumption) (m_bnk : m .bnk := by assumption) :
    (State.writeSpanRow s t i f y pix x0 bytes).cut m = s.cut m := by
  unfold State.writeSpanRow
  simp only [↓State.writeRow_cut, ↓State.writeMaskRow_cut, ↓State.putDirect_cut, ↓apply_ite (State.cut m), ite_self, m_regs, m_evt, m_fst, m_bnk]

theorem State.markSpan_cut {m : Area → Bool} (s : State) (t : ℕ) (i : ℕ) (f : ℕ) (y0 : ℕ) (n : ℕ) (m_regs : m .regs := by assumption) (m_evt : m .evt := by assumption) (m_fst : m .fst := by assumption) (m_bnk : m .bnk := by assumption) :
    (State.markSpan s t i f y0 n).cut m = s.cut m := by
  unfold State.markSpan
  repeat' (first | (with_reducible refine (foldl_cut _ _ _ fun s x => ?_).trans ?_) | split | simp only [↓State.setBuf_cut, ↓State.markRow_cut, m_regs, m_evt, m_fst, m_bnk])

theorem State.acceptSpan_cut {m : Area → Bool} (s : State) (p : ℕ) (t : ℕ) (i : ℕ) (f : ℕ) (y0 : ℕ) (n : ℕ) (pix : ℕ) (m_regs : m .regs := by assumption) (m_evt : m .evt := by assumption) (m_fst : m .fst := by assumption) (m_links : m .links := by assumption) (m_hrt : m .hrt := by assumption) (m_bnk : m .bnk := by assumption) :
    (State.acceptSpan s p t i f y0 n pix).cut m = s.cut m := by
  unfold State.acceptSpan
  repeat' (first | split | simp only [↓State.ingEvent_cut, ↓State.badPkt_cut, ↓State.poisonBuf_cut, ↓State.checkComplete_cut, ↓State.markSpan_cut, m_regs, m_evt, m_fst, m_links, m_hrt, m_bnk])

theorem State.acceptRect_cut {m : Area → Bool} (s : State) (p : ℕ) (i : ℕ) (r : WRect) (m_regs : m .regs := by assumption) (m_evt : m .evt := by assumption) (m_fst : m .fst := by assumption) (m_links : m .links := by assumption) (m_hrt : m .hrt := by assumption) :
    (State.acceptRect s p i r).cut m = s.cut m := by
  unfold State.acceptRect
  simp only [↓State.onFst_cut, ↓State.setBuf_cut, ↓State.checkComplete_cut, ↓apply_ite (State.cut m), ite_self, m_regs, m_evt, m_fst, m_links, m_hrt]

theorem State.acceptPacket_cut {m : Area → Bool} (s : State) (p : ℕ) (k : Packet) (m_regs : m .regs := by assumption) (m_evt : m .evt := by assumption) (m_fst : m .fst := by assumption) (m_links : m .links := by assumption) (m_hrt : m .hrt := by assumption) (m_bnk : m .bnk := by assumption) :
    (State.acceptPacket s p k).cut m = s.cut m := by
  unfold State.acceptPacket
  repeat' (first | split | simp only [↓State.setBuf_cut, ↓State.packetFor_cut, ↓State.rejectPacket_cut, ↓State.checkComplete_cut, ↓State.acceptSpan_cut, ↓State.acceptRect_cut, m_regs, m_evt, m_fst, m_links, m_hrt, m_bnk])

theorem State.takeWhole_cut {m : Area → Bool} (s : State) (p : ℕ) (h : PktHeader) (w : PktWhat) (write : ℕ → State → State) (h_write : ∀ y0 y1, (write y0 y1).cut m = y1.cut m) (m_regs : m .regs := by assumption) (m_evt : m .evt := by assumption) (m_fst : m .fst := by assumption) (m_links : m .links := by assumption) (m_hrt : m .hrt := by assumption) (m_bnk : m .bnk := by assumption) :
    (State.takeWhole s p h w write).cut m = s.cut m := by
  unfold State.takeWhole
  repeat' (first | split | simp only [↓State.onDec_cut, ↓State.waitPktOff_cut, ↓State.checkPacket_cut, ↓State.rejectPacket_cut, ↓State.acceptPacket_cut, h_write, m_regs, m_evt, m_fst, m_links, m_hrt, m_bnk])

theorem State.writeSpan_cut {m : Area → Bool} (s : State) (t : ℕ) (i : ℕ) (f : ℕ) (y0 : ℕ) (n : ℕ) (pix : ℕ) (data : List Byte) (m_regs : m .regs := by assumption) (m_evt : m .evt := by assumption) (m_fst : m .fst := by assumption) (m_bnk : m .bnk := by assumption) :
    (State.writeSpan s t i f y0 n pix data).cut m = s.cut m := by
  unfold State.writeSpan
  repeat' (first | (with_reducible refine (foldl_cut _ _ _ fun s x => ?_).trans ?_) | split | simp only [↓State.writeSpanRow_cut, m_regs, m_evt, m_fst, m_bnk])

theorem execSpan_cut {m : Area → Bool} (p : Fin 4) (h : PktHeader) (y0 : BitVec 16) (nrows : BitVec 16) (rowPix : BitVec 16) (data : List Byte) (s : State) (m_regs : m .regs := by assumption) (m_evt : m .evt := by assumption) (m_fst : m .fst := by assumption) (m_links : m .links := by assumption) (m_hrt : m .hrt := by assumption) (m_bnk : m .bnk := by assumption) :
    outCut m (execSpan p h y0 nrows rowPix data s) = some (s.cut m) := by
  unfold execSpan
  repeat' (first | (refine congrArg some ?_) | (with_reducible refine (State.takeWhole_cut (h_write := fun y0 y1 => ?_) (s := _) (p := _) (h := _) (w := _)).trans ?_) | split | simp only [↓State.writeSpan_cut, m_regs, m_evt, m_fst, m_links, m_hrt, m_bnk])

theorem execWrect_cut {m : Area → Bool} (p : Fin 4) (h : PktHeader) (b : WrectBody) (s : State) (m_regs : m .regs := by assumption) (m_evt : m .evt := by assumption) (m_fst : m .fst := by assumption) (m_links : m .links := by assumption) (m_hrt : m .hrt := by assumption) (m_bnk : m .bnk := by assumption) :
    outCut m (execWrect p h b s) = some (s.cut m) := by
  unfold execWrect
  repeat' (first | (refine congrArg some ?_) | (with_reducible refine (State.takeWhole_cut (h_write := fun y0 y1 => ?_) (s := _) (p := _) (h := _) (w := _)).trans ?_) | split | simp only [m_regs, m_evt, m_fst, m_links, m_hrt, m_bnk])

theorem execDone_cut {m : Area → Bool} (p : Fin 4) (h : PktHeader) (s : State) (m_regs : m .regs := by assumption) (m_evt : m .evt := by assumption) (m_fst : m .fst := by assumption) (m_links : m .links := by assumption) (m_hrt : m .hrt := by assumption) (m_bnk : m .bnk := by assumption) :
    outCut m (execDone p h s) = some (s.cut m) := by
  unfold execDone
  repeat' (first | (refine congrArg some ?_) | (with_reducible refine (State.takeWhole_cut (h_write := fun y0 y1 => ?_) (s := _) (p := _) (h := _) (w := _)).trans ?_) | split | simp only [m_regs, m_evt, m_fst, m_links, m_hrt, m_bnk])

theorem execPad_cut {m : Area → Bool} (p : Fin 4) (s : State) (m_links : m .links := by assumption) :
    outCut m (execPad p s) = some (s.cut m) := by
  unfold execPad
  simp only [↓State.waitPktOff_cut, ↓apply_ite (State.cut m), ite_self, ↓outCut_next, ↓apply_ite (outCut m), m_links]

theorem State.rotate_cut {m : Area → Bool} (s : State) (t : ℕ) (m_regs : m .regs := by assumption) (m_evt : m .evt := by assumption) (m_fst : m .fst := by assumption) (m_links : m .links := by assumption) :
    (State.rotate s t).cut m = s.cut m := by
  unfold State.rotate
  repeat' (first | split | simp only [↓State.setBuf_cut, ↓State.freeBuffers_cut, ↓State.assignFrames_cut, ↓State.ingEvent_cut, m_regs, m_evt, m_fst, m_links])

theorem State.rotateAll_cut {m : Area → Bool} (s : State) (m_regs : m .regs := by assumption) (m_evt : m .evt := by assumption) (m_fst : m .fst := by assumption) (m_links : m .links := by assumption) :
    (State.rotateAll s).cut m = s.cut m := by
  unfold State.rotateAll
  repeat' (first | (with_reducible refine (foldl_cut _ _ _ fun s x => ?_).trans ?_) | split | simp only [↓State.syncMap_cut, ↓State.rotate_cut, m_regs, m_evt, m_fst, m_links])

theorem State.syncQstat_cut {m : Area → Bool} (s : State) (p : ℕ) (m_regs : m .regs := by assumption) :
    (State.syncQstat s p).cut m = s.cut m := by
  unfold State.syncQstat
  simp only [↓State.setF_cut, ↓apply_ite (State.cut m), ite_self, m_regs]

theorem State.magPump_cut {m : Area → Bool} (p : Nat) (x1 : Nat) (x2 : State) (m_regs : m .regs := by assumption) (m_mag : m .mag := by assumption) (m_out : m .out := by assumption) :
    (State.magPump p x1 x2).cut m = x2.cut m := by
  induction x1 generalizing x2 with
  | zero => exact State.syncQstat_cut ..
  | succ n ih =>
    simp only [State.magPump]
    split
    · exact (ih _).trans ((State.emit_cut ..).trans (State.onPort_cut ..))
    · exact State.syncQstat_cut ..

theorem State.magIssue_cut {m : Area → Bool} (s : State) (p : ℕ) (use : MagUse) (cmd : NvmeCmd) (m_mag : m .mag := by assumption) :
    (State.magIssue s p use cmd).cut m = s.cut m := by
  unfold State.magIssue
  simp only [↓State.onPort_cut, ↓apply_ite (State.cut m), ite_self, m_mag]

theorem State.magIssues_cut {m : Area → Bool} (s : State) (p : ℕ) (l : List (MagUse × NvmeCmd)) (m_regs : m .regs := by assumption) (m_mag : m .mag := by assumption) (m_out : m .out := by assumption) :
    (State.magIssues s p l).cut m = s.cut m := by
  unfold State.magIssues
  repeat' (first | (with_reducible refine (foldl_cut _ _ _ fun s x => ?_).trans ?_) | split | simp only [↓State.magPump_cut, ↓State.magIssue_cut, m_regs, m_mag, m_out])

theorem State.syncVolume_cut {m : Area → Bool} (s : State) (p : ℕ) (vol : ℕ) (m_regs : m .regs := by assumption) :
    (State.syncVolume s p vol).cut m = s.cut m := by
  unfold State.syncVolume
  repeat' (first | (with_reducible refine (foldl_cut _ _ _ fun s x => ?_).trans ?_) | split | simp only [↓State.setReg_cut, ↓State.setF_cut, m_regs])

theorem State.attachEnd_cut {m : Area → Bool} (s : State) (p : ℕ) (st : ℕ) (m_regs : m .regs := by assumption) (m_hst : m .hst := by assumption) (m_evt : m .evt := by assumption) (m_rdg : m .rdg := by assumption) (m_links : m .links := by assumption) (m_out : m .out := by assumption) :
    (State.attachEnd s p st).cut m = s.cut m := by
  unfold State.attachEnd
  simp only [↓State.signal_cut, ↓State.event_cut, ↓State.setReady_cut, ↓State.setMagState_cut, ↓apply_ite (State.cut m), ite_self, m_regs, m_hst, m_evt, m_rdg, m_links, m_out]

theorem State.installDir_cut {m : Area → Bool} (s : State) (p : ℕ) (dir : Mem) (gen : ℕ) (copy : ℕ) (vol : ℕ) (m_regs : m .regs := by assumption) (m_evt : m .evt := by assumption) (m_mag : m .mag := by assumption) :
    (State.installDir s p dir gen copy vol).cut m = s.cut m := by
  unfold State.installDir
  repeat' (first | (with_reducible refine (foldl_cut _ _ _ fun s x => ?_).trans ?_) | split | simp only [↓State.event_cut, ↓State.onPort_cut, ↓State.syncVolume_cut, m_regs, m_evt, m_mag])

theorem State.tryDir_cut {m : Area → Bool} (s : State) (p : ℕ) (m_regs : m .regs := by assumption) (m_hst : m .hst := by assumption) (m_evt : m .evt := by assumption) (m_rdg : m .rdg := by assumption) (m_links : m .links := by assumption) (m_mag : m .mag := by assumption) (m_out : m .out := by assumption) :
    (State.tryDir s p).cut m = s.cut m := by
  unfold State.tryDir
  repeat' (first | split | simp only [↓State.onPort_cut, ↓State.magIssues_cut, ↓State.attachEnd_cut, m_regs, m_hst, m_evt, m_rdg, m_links, m_mag, m_out])

theorem State.dirPart_cut {m : Area → Bool} (s : State) (p : ℕ) (lba : ℕ) (r : Option (List Byte)) (m_regs : m .regs := by assumption) (m_hst : m .hst := by assumption) (m_evt : m .evt := by assumption) (m_rdg : m .rdg := by assumption) (m_links : m .links := by assumption) (m_mag : m .mag := by assumption) (m_out : m .out := by assumption) :
    (State.dirPart s p lba r).cut m = s.cut m := by
  unfold State.dirPart
  repeat' (first | split | simp only [↓State.onPort_cut, ↓State.attachEnd_cut, ↓State.installDir_cut, ↓State.tryDir_cut, m_regs, m_hst, m_evt, m_rdg, m_links, m_mag, m_out])

theorem State.superblockRead_cut {m : Area → Bool} (s : State) (p : ℕ) (slot : ℕ) (r : Option (List Byte)) (m_regs : m .regs := by assumption) (m_hst : m .hst := by assumption) (m_evt : m .evt := by assumption) (m_rdg : m .rdg := by assumption) (m_links : m .links := by assumption) (m_mag : m .mag := by assumption) (m_out : m .out := by assumption) :
    (State.superblockRead s p slot r).cut m = s.cut m := by
  unfold State.superblockRead
  repeat' (first | split | simp only [↓State.onPort_cut, ↓State.tryDir_cut, m_regs, m_hst, m_evt, m_rdg, m_links, m_mag, m_out])

theorem State.beginMount_cut {m : Area → Bool} (s : State) (p : ℕ) (m_regs : m .regs := by assumption) (m_mag : m .mag := by assumption) (m_out : m .out := by assumption) :
    (State.beginMount s p).cut m = s.cut m := by
  unfold State.beginMount
  simp only [↓State.onPort_cut, ↓State.magIssues_cut, ↓apply_ite (State.cut m), ite_self, m_regs, m_mag, m_out]

theorem State.beginAttach_cut {m : Area → Bool} (s : State) (p : ℕ) (m_regs : m .regs := by assumption) (m_pwr : m .pwr := by assumption) (m_mag : m .mag := by assumption) :
    (State.beginAttach s p).cut m = s.cut m := by
  unfold State.beginAttach
  simp only [↓State.wake_cut, ↓State.onPort_cut, ↓State.setMagState_cut, ↓apply_ite (State.cut m), ite_self, m_regs, m_pwr, m_mag]

theorem State.unsupported_cut {m : Area → Bool} (s : State) (p : ℕ) (req : ℕ) (m_regs : m .regs := by assumption) (m_hst : m .hst := by assumption) (m_evt : m .evt := by assumption) (m_rdg : m .rdg := by assumption) (m_links : m .links := by assumption) (m_out : m .out := by assumption) :
    (State.unsupported s p req).cut m = s.cut m := by
  unfold State.unsupported
  simp only [↓State.signal_cut, ↓State.event_cut, ↓State.setMagState_cut, ↓apply_ite (State.cut m), ite_self, m_regs, m_hst, m_evt, m_rdg, m_links, m_out]

theorem State.identify_cut {m : Area → Bool} (s : State) (p : ℕ) (step : ℕ) (m_regs : m .regs := by assumption) (m_mag : m .mag := by assumption) (m_out : m .out := by assumption) :
    (State.identify s p step).cut m = s.cut m := by
  unfold State.identify
  repeat' (first | split | simp only [↓State.magIssues_cut, ↓State.beginMount_cut, m_regs, m_mag, m_out])

theorem State.identified_cut {m : Area → Bool} (s : State) (p : ℕ) (step : ℕ) (r : NvmeResult) (m_regs : m .regs := by assumption) (m_hst : m .hst := by assumption) (m_evt : m .evt := by assumption) (m_rdg : m .rdg := by assumption) (m_links : m .links := by assumption) (m_mag : m .mag := by assumption) (m_out : m .out := by assumption) :
    (State.identified s p step r).cut m = s.cut m := by
  unfold State.identified
  repeat' (first | split | simp only [↓State.setReg_cut, ↓State.setF_cut, ↓State.onPort_cut, ↓State.unsupported_cut, ↓State.identify_cut, m_regs, m_hst, m_evt, m_rdg, m_links, m_mag, m_out])

theorem execAttachStep_cut {m : Area → Bool} (p : Fin 4) (r : AttachResult) (s : State) (m_regs : m .regs := by assumption) (m_hst : m .hst := by assumption) (m_evt : m .evt := by assumption) (m_rdg : m .rdg := by assumption) (m_links : m .links := by assumption) (m_thm : m .thm := by assumption) (m_mag : m .mag := by assumption) (m_out : m .out := by assumption) :
    outCut m (execAttachStep p r s) = some (s.cut m) := by
  unfold execAttachStep
  repeat' (first | (refine congrArg some ?_) | split | simp only [↓State.setF_cut, ↓State.recordBand_cut, ↓State.onPort_cut, ↓State.setMagState_cut, ↓State.magPin_cut, ↓State.unsupported_cut, ↓State.identify_cut, m_regs, m_hst, m_evt, m_rdg, m_links, m_thm, m_mag, m_out])

theorem State.freeStaging_cut {m : Area → Bool} (s : State) (i : ℕ) (m_regs : m .regs := by assumption) (m_fst : m .fst := by assumption) (m_mag : m .mag := by assumption) (m_thc : m .thc := by assumption) :
    (State.freeStaging s i).cut m = s.cut m := by
  unfold State.freeStaging
  repeat' (first | split | simp only [↓State.onFst_cut, ↓State.onThc_cut, ↓State.onPort_cut, ↓State.setBuf_cut, ↓State.syncMap_cut, ↓State.setStaging_cut, m_regs, m_fst, m_mag, m_thc])

theorem State.endSched_cut {m : Area → Bool} (s : State) (k : ℕ) (m_regs : m .regs := by assumption) (m_mag : m .mag := by assumption) :
    (State.endSched s k).cut m = s.cut m := by
  unfold State.endSched
  simp only [↓State.setReg_cut, ↓State.onMag_cut, ↓apply_ite (State.cut m), ite_self, m_regs, m_mag]

theorem State.losePlays_cut {m : Area → Bool} (s : State) (p : ℕ) (m_regs : m .regs := by assumption) (m_evt : m .evt := by assumption) (m_mag : m .mag := by assumption) :
    (State.losePlays s p).cut m = s.cut m := by
  unfold State.losePlays
  repeat' (first | (with_reducible refine (foldl_cut _ _ _ fun s x => ?_).trans ?_) | split | simp only [↓State.event_cut, ↓State.endSched_cut, m_regs, m_evt, m_mag])

theorem State.dropStagings_cut {m : Area → Bool} (s : State) (p : ℕ) (m_regs : m .regs := by assumption) (m_fst : m .fst := by assumption) (m_mag : m .mag := by assumption) (m_thc : m .thc := by assumption) :
    (State.dropStagings s p).cut m = s.cut m := by
  unfold State.dropStagings
  repeat' (first | (with_reducible refine (foldl_cut _ _ _ fun s x => ?_).trans ?_) | split | simp only [↓State.freeStaging_cut, m_regs, m_fst, m_mag, m_thc])

theorem State.magPowerOff_cut {m : Area → Bool} (s : State) (p : ℕ) (m_regs : m .regs := by assumption) (m_evt : m .evt := by assumption) (m_thm : m .thm := by assumption) (m_mag : m .mag := by assumption) (m_out : m .out := by assumption) :
    (State.magPowerOff s p).cut m = s.cut m := by
  unfold State.magPowerOff
  repeat' (first | (with_reducible refine (foldl_cut _ _ _ fun s x => ?_).trans ?_) | split | simp only [↓State.setReg_cut, ↓State.onThm_cut, ↓State.event_cut, ↓State.onPort_cut, ↓State.magPinsOff_cut, m_regs, m_evt, m_thm, m_mag, m_out])

theorem State.magOff_cut {m : Area → Bool} (s : State) (p : ℕ) (reseat : Bool) (st : ℕ) (m_regs : m .regs := by assumption) (m_hst : m .hst := by assumption) (m_evt : m .evt := by assumption) (m_rdg : m .rdg := by assumption) (m_links : m .links := by assumption) (m_thm : m .thm := by assumption) (m_mag : m .mag := by assumption) (m_out : m .out := by assumption) :
    (State.magOff s p reseat st).cut m = s.cut m := by
  unfold State.magOff
  simp only [↓State.signal_cut, ↓State.event_cut, ↓State.onPort_cut, ↓State.setMagState_cut, ↓State.magPowerOff_cut, ↓apply_ite (State.cut m), ite_self, m_regs, m_hst, m_evt, m_rdg, m_links, m_thm, m_mag, m_out]

theorem State.failPlates_cut {m : Area → Bool} (s : State) (p : ℕ) (m_regs : m .regs := by assumption) (m_hst : m .hst := by assumption) (m_stg : m .stg := by assumption) (m_tabs : m .tabs := by assumption) (m_evt : m .evt := by assumption) (m_rdg : m .rdg := by assumption) (m_links : m .links := by assumption) (m_win : m .win := by assumption) (m_out : m .out := by assumption) :
    (State.failPlates s p).cut m = s.cut m := by
  unfold State.failPlates
  repeat' (first | (with_reducible refine (foldl_cut _ _ _ fun s x => ?_).trans ?_) | split | simp only [↓State.finish_cut, m_regs, m_hst, m_stg, m_tabs, m_evt, m_rdg, m_links, m_win, m_out])

theorem State.magRemoved_cut {m : Area → Bool} (s : State) (p : ℕ) (m_regs : m .regs := by assumption) (m_hst : m .hst := by assumption) (m_stg : m .stg := by assumption) (m_tabs : m .tabs := by assumption) (m_evt : m .evt := by assumption) (m_rdg : m .rdg := by assumption) (m_fst : m .fst := by assumption) (m_links : m .links := by assumption) (m_thm : m .thm := by assumption) (m_win : m .win := by assumption) (m_mag : m .mag := by assumption) (m_thc : m .thc := by assumption) (m_out : m .out := by assumption) :
    (State.magRemoved s p).cut m = s.cut m := by
  unfold State.magRemoved
  simp only [↓State.onMag_cut, ↓State.losePlays_cut, ↓State.dropStagings_cut, ↓State.magOff_cut, ↓State.failPlates_cut, ↓apply_ite (State.cut m), ite_self, m_regs, m_hst, m_stg, m_tabs, m_evt, m_rdg, m_fst, m_links, m_thm, m_win, m_mag, m_thc, m_out]

theorem execMagRemove_cut {m : Area → Bool} (p : Fin 4) (cause : RemoveCause) (s : State) (m_regs : m .regs := by assumption) (m_hst : m .hst := by assumption) (m_stg : m .stg := by assumption) (m_tabs : m .tabs := by assumption) (m_evt : m .evt := by assumption) (m_rdg : m .rdg := by assumption) (m_fst : m .fst := by assumption) (m_links : m .links := by assumption) (m_thm : m .thm := by assumption) (m_win : m .win := by assumption) (m_mag : m .mag := by assumption) (m_thc : m .thc := by assumption) (m_out : m .out := by assumption) :
    outCut m (execMagRemove p cause s) = some (s.cut m) := by
  unfold execMagRemove
  simp only [↓State.bump_cut, ↓State.magRemoved_cut, ↓apply_ite (State.cut m), ite_self, ↓outCut_next, ↓apply_ite (outCut m), m_regs, m_hst, m_stg, m_tabs, m_evt, m_rdg, m_fst, m_links, m_thm, m_win, m_mag, m_thc, m_out]

theorem execMagPresenceChange_cut {m : Area → Bool} (p : Fin 4) (low : Bool) (s : State) (m_regs : m .regs := by assumption) (m_pwr : m .pwr := by assumption) (m_hst : m .hst := by assumption) (m_stg : m .stg := by assumption) (m_tabs : m .tabs := by assumption) (m_evt : m .evt := by assumption) (m_rdg : m .rdg := by assumption) (m_fst : m .fst := by assumption) (m_links : m .links := by assumption) (m_thm : m .thm := by assumption) (m_win : m .win := by assumption) (m_mag : m .mag := by assumption) (m_thc : m .thc := by assumption) (m_out : m .out := by assumption) :
    outCut m (execMagPresenceChange p low s) = some (s.cut m) := by
  unfold execMagPresenceChange
  simp only [↓State.onPort_cut, ↓State.setMagState_cut, ↓State.beginAttach_cut, ↓State.magRemoved_cut, ↓apply_ite (State.cut m), ite_self, ↓outCut_next, ↓apply_ite (outCut m), m_regs, m_pwr, m_hst, m_stg, m_tabs, m_evt, m_rdg, m_fst, m_links, m_thm, m_win, m_mag, m_thc, m_out]

theorem State.unmounted_cut {m : Area → Bool} (s : State) (p : ℕ) (m_regs : m .regs := by assumption) (m_pwr : m .pwr := by assumption) (m_hst : m .hst := by assumption) (m_evt : m .evt := by assumption) (m_rdg : m .rdg := by assumption) (m_links : m .links := by assumption) (m_thm : m .thm := by assumption) (m_mag : m .mag := by assumption) (m_out : m .out := by assumption) :
    (State.unmounted s p).cut m = s.cut m := by
  unfold State.unmounted
  simp only [↓State.beginAttach_cut, ↓State.magOff_cut, ↓apply_ite (State.cut m), ite_self, m_regs, m_pwr, m_hst, m_evt, m_rdg, m_links, m_thm, m_mag, m_out]

theorem State.tryUnmount_cut {m : Area → Bool} (s : State) (p : ℕ) (m_regs : m .regs := by assumption) (m_evt : m .evt := by assumption) (m_fst : m .fst := by assumption) (m_mag : m .mag := by assumption) (m_thc : m .thc := by assumption) (m_out : m .out := by assumption) :
    (State.tryUnmount s p).cut m = s.cut m := by
  unfold State.tryUnmount
  repeat' (first | split | simp only [↓State.magIssues_cut, ↓State.losePlays_cut, ↓State.dropStagings_cut, m_regs, m_evt, m_fst, m_mag, m_thc, m_out])

theorem State.beginUnmount_cut {m : Area → Bool} (s : State) (p : ℕ) (after : ℕ) (m_regs : m .regs := by assumption) (m_pwr : m .pwr := by assumption) (m_hst : m .hst := by assumption) (m_evt : m .evt := by assumption) (m_rdg : m .rdg := by assumption) (m_fst : m .fst := by assumption) (m_links : m .links := by assumption) (m_thm : m .thm := by assumption) (m_mag : m .mag := by assumption) (m_thc : m .thc := by assumption) (m_out : m .out := by assumption) :
    (State.beginUnmount s p after).cut m = s.cut m := by
  unfold State.beginUnmount
  simp only [↓State.onPort_cut, ↓State.setMagState_cut, ↓State.magOff_cut, ↓State.unmounted_cut, ↓State.tryUnmount_cut, ↓apply_ite (State.cut m), ite_self, m_regs, m_pwr, m_hst, m_evt, m_rdg, m_fst, m_links, m_thm, m_mag, m_thc, m_out]

theorem State.writeUnmount_cut {m : Area → Bool} (s : State) (p : ℕ) (m_regs : m .regs := by assumption) (m_pwr : m .pwr := by assumption) (m_hst : m .hst := by assumption) (m_evt : m .evt := by assumption) (m_rdg : m .rdg := by assumption) (m_fst : m .fst := by assumption) (m_links : m .links := by assumption) (m_thm : m .thm := by assumption) (m_mag : m .mag := by assumption) (m_thc : m .thc := by assumption) (m_out : m .out := by assumption) :
    (State.writeUnmount s p).cut m = s.cut m := by
  unfold State.writeUnmount
  simp only [↓State.beginUnmount_cut, ↓apply_ite (State.cut m), ite_self, m_regs, m_pwr, m_hst, m_evt, m_rdg, m_fst, m_links, m_thm, m_mag, m_thc, m_out]

theorem State.setMagEn_cut {m : Area → Bool} (s : State) (p : ℕ) (en : Bool) (m_regs : m .regs := by assumption) (m_pwr : m .pwr := by assumption) (m_hst : m .hst := by assumption) (m_evt : m .evt := by assumption) (m_rdg : m .rdg := by assumption) (m_fst : m .fst := by assumption) (m_links : m .links := by assumption) (m_thm : m .thm := by assumption) (m_mag : m .mag := by assumption) (m_thc : m .thc := by assumption) (m_out : m .out := by assumption) :
    (State.setMagEn s p en).cut m = s.cut m := by
  unfold State.setMagEn
  simp only [↓State.onPort_cut, ↓State.setMagState_cut, ↓State.beginAttach_cut, ↓State.beginUnmount_cut, ↓apply_ite (State.cut m), ite_self, m_regs, m_pwr, m_hst, m_evt, m_rdg, m_fst, m_links, m_thm, m_mag, m_thc, m_out]

theorem State.setMagTthr_cut {m : Area → Bool} (s : State) (p : ℕ) (m_regs : m .regs := by assumption) (m_mag : m .mag := by assumption) (m_out : m .out := by assumption) :
    (State.setMagTthr s p).cut m = s.cut m := by
  unfold State.setMagTthr
  simp only [↓State.magIssues_cut, ↓apply_ite (State.cut m), ite_self, m_regs, m_mag, m_out]

theorem State.updateStep_cut {m : Area → Bool} (s : State) (p : ℕ) (n : ℕ) (m_regs : m .regs := by assumption) (m_mag : m .mag := by assumption) (m_out : m .out := by assumption) :
    (State.updateStep s p n).cut m = s.cut m := by
  unfold State.updateStep
  repeat' (first | split | simp only [↓State.magIssues_cut, m_regs, m_mag, m_out])

theorem State.queueUpdate_cut {m : Area → Bool} (s : State) (p : ℕ) (u : DirUpdate) (m_regs : m .regs := by assumption) (m_mag : m .mag := by assumption) (m_out : m .out := by assumption) :
    (State.queueUpdate s p u).cut m = s.cut m := by
  unfold State.queueUpdate
  simp only [↓State.onPort_cut, ↓State.updateStep_cut, ↓apply_ite (State.cut m), ite_self, m_regs, m_mag, m_out]

theorem State.dealloc_cut {m : Area → Bool} (s : State) (p : ℕ) (plate : Option ℕ) (xs : List (ℕ × ℕ)) (m_regs : m .regs := by assumption) (m_mag : m .mag := by assumption) (m_out : m .out := by assumption) :
    (State.dealloc s p plate xs).cut m = s.cut m := by
  unfold State.dealloc
  simp only [↓State.magIssues_cut, ↓apply_ite (State.cut m), ite_self, m_regs, m_mag, m_out]

theorem State.updateDone_cut {m : Area → Bool} (s : State) (p : ℕ) (m_regs : m .regs := by assumption) (m_hst : m .hst := by assumption) (m_stg : m .stg := by assumption) (m_tabs : m .tabs := by assumption) (m_evt : m .evt := by assumption) (m_rdg : m .rdg := by assumption) (m_links : m .links := by assumption) (m_win : m .win := by assumption) (m_mag : m .mag := by assumption) (m_out : m .out := by assumption) :
    (State.updateDone s p).cut m = s.cut m := by
  unfold State.updateDone
  repeat' (first | split | simp only [↓State.finish_cut, ↓State.onPort_cut, ↓State.syncVolume_cut, ↓State.updateStep_cut, ↓State.dealloc_cut, m_regs, m_hst, m_stg, m_tabs, m_evt, m_rdg, m_links, m_win, m_mag, m_out])

theorem State.updateCmd_cut {m : Area → Bool} (s : State) (p : ℕ) (n : ℕ) (ok : Bool) (m_regs : m .regs := by assumption) (m_hst : m .hst := by assumption) (m_stg : m .stg := by assumption) (m_tabs : m .tabs := by assumption) (m_evt : m .evt := by assumption) (m_rdg : m .rdg := by assumption) (m_links : m .links := by assumption) (m_win : m .win := by assumption) (m_mag : m .mag := by assumption) (m_out : m .out := by assumption) :
    (State.updateCmd s p n ok).cut m = s.cut m := by
  unfold State.updateCmd
  repeat' (first | split | simp only [↓State.bump_cut, ↓State.finish_cut, ↓State.onPort_cut, ↓State.updateStep_cut, ↓State.updateDone_cut, m_regs, m_hst, m_stg, m_tabs, m_evt, m_rdg, m_links, m_win, m_mag, m_out])

theorem State.formatStep_cut {m : Area → Bool} (s : State) (p : ℕ) (n : ℕ) (m_regs : m .regs := by assumption) (m_mag : m .mag := by assumption) (m_out : m .out := by assumption) :
    (State.formatStep s p n).cut m = s.cut m := by
  unfold State.formatStep
  simp only [↓State.magIssues_cut, ↓apply_ite (State.cut m), ite_self, m_regs, m_mag, m_out]

theorem State.writeFormat_cut {m : Area → Bool} (s : State) (p : ℕ) (key : ℕ) (m_regs : m .regs := by assumption) (m_evt : m .evt := by assumption) (m_mag : m .mag := by assumption) (m_out : m .out := by assumption) :
    (State.writeFormat s p key).cut m = s.cut m := by
  unfold State.writeFormat
  simp only [↓State.setReg_cut, ↓State.event_cut, ↓State.onPort_cut, ↓State.setMagState_cut, ↓State.formatStep_cut, ↓apply_ite (State.cut m), ite_self, m_regs, m_evt, m_mag, m_out]

theorem State.formatCmd_cut {m : Area → Bool} (s : State) (p : ℕ) (n : ℕ) (ok : Bool) (m_regs : m .regs := by assumption) (m_hst : m .hst := by assumption) (m_evt : m .evt := by assumption) (m_rdg : m .rdg := by assumption) (m_fst : m .fst := by assumption) (m_links : m .links := by assumption) (m_mag : m .mag := by assumption) (m_thc : m .thc := by assumption) (m_out : m .out := by assumption) :
    (State.formatCmd s p n ok).cut m = s.cut m := by
  unfold State.formatCmd
  simp only [↓State.bump_cut, ↓State.signal_cut, ↓State.setReady_cut, ↓State.onPort_cut, ↓State.setMagState_cut, ↓State.installDir_cut, ↓State.tryUnmount_cut, ↓State.dealloc_cut, ↓State.formatStep_cut, ↓apply_ite (State.cut m), ite_self, m_regs, m_hst, m_evt, m_rdg, m_fst, m_links, m_mag, m_thc, m_out]

theorem State.writeMagCtl_cut {m : Area → Bool} (s : State) (p : ℕ) (v : Word) (m_regs : m .regs := by assumption) (m_pwr : m .pwr := by assumption) (m_hst : m .hst := by assumption) (m_evt : m .evt := by assumption) (m_rdg : m .rdg := by assumption) (m_fst : m .fst := by assumption) (m_links : m .links := by assumption) (m_thm : m .thm := by assumption) (m_mag : m .mag := by assumption) (m_thc : m .thc := by assumption) (m_out : m .out := by assumption) :
    (State.writeMagCtl s p v).cut m = s.cut m := by
  unfold State.writeMagCtl
  simp only [↓State.writeUnmount_cut, ↓State.writeFormat_cut, ↓apply_ite (State.cut m), ite_self, m_regs, m_pwr, m_hst, m_evt, m_rdg, m_fst, m_links, m_thm, m_mag, m_thc, m_out]

theorem execMagUnmount_cut {m : Area → Bool} (p : Fin 4) (v : Word) (s : State) (m_regs : m .regs := by assumption) (m_pwr : m .pwr := by assumption) (m_hst : m .hst := by assumption) (m_evt : m .evt := by assumption) (m_rdg : m .rdg := by assumption) (m_fst : m .fst := by assumption) (m_links : m .links := by assumption) (m_thm : m .thm := by assumption) (m_mag : m .mag := by assumption) (m_thc : m .thc := by assumption) (m_out : m .out := by assumption) :
    outCut m (execMagUnmount p v s) = some (s.cut m) := by
  unfold execMagUnmount
  repeat' (first | (refine congrArg some ?_) | (with_reducible refine (State.viaReg_cut (h_f := fun y0 => ?_) (s := _) (off := _) (v := _)).trans ?_) | split | simp only [↓State.writeMagCtl_cut, m_regs, m_pwr, m_hst, m_evt, m_rdg, m_fst, m_links, m_thm, m_mag, m_thc, m_out])

theorem execMagFormat_cut {m : Area → Bool} (p : Fin 4) (v : Word) (s : State) (m_regs : m .regs := by assumption) (m_pwr : m .pwr := by assumption) (m_hst : m .hst := by assumption) (m_evt : m .evt := by assumption) (m_rdg : m .rdg := by assumption) (m_fst : m .fst := by assumption) (m_links : m .links := by assumption) (m_thm : m .thm := by assumption) (m_mag : m .mag := by assumption) (m_thc : m .thc := by assumption) (m_out : m .out := by assumption) :
    outCut m (execMagFormat p v s) = some (s.cut m) := by
  unfold execMagFormat
  repeat' (first | (refine congrArg some ?_) | (with_reducible refine (State.viaReg_cut (h_f := fun y0 => ?_) (s := _) (off := _) (v := _)).trans ?_) | split | simp only [↓State.writeMagCtl_cut, m_regs, m_pwr, m_hst, m_evt, m_rdg, m_fst, m_links, m_thm, m_mag, m_thc, m_out])

theorem execSmartPoll_cut {m : Area → Bool} (p : Fin 4) (s : State) (m_regs : m .regs := by assumption) (m_mag : m .mag := by assumption) (m_out : m .out := by assumption) :
    outCut m (execSmartPoll p s) = some (s.cut m) := by
  unfold execSmartPoll
  simp only [↓State.magIssues_cut, ↓apply_ite (State.cut m), ite_self, ↓outCut_next, ↓apply_ite (outCut m), m_regs, m_mag, m_out]

theorem State.onMounted_cut {m : Area → Bool} (s : State) (c : ℕ) (d : Desc) (f : State → State) (h_f : ∀ y0, (f y0).cut m = y0.cut m) (m_regs : m .regs := by assumption) (m_hst : m .hst := by assumption) (m_stg : m .stg := by assumption) (m_tabs : m .tabs := by assumption) (m_evt : m .evt := by assumption) (m_rdg : m .rdg := by assumption) (m_links : m .links := by assumption) (m_win : m .win := by assumption) (m_out : m .out := by assumption) :
    (State.onMounted s c d f).cut m = s.cut m := by
  unfold State.onMounted
  simp only [↓State.finish_cut, h_f, ↓apply_ite (State.cut m), ite_self, m_regs, m_hst, m_stg, m_tabs, m_evt, m_rdg, m_links, m_win, m_out]

theorem State.plateCreate_cut {m : Area → Bool} (c : ℕ) (d : Desc) (s : State) (m_regs : m .regs := by assumption) (m_hst : m .hst := by assumption) (m_stg : m .stg := by assumption) (m_tabs : m .tabs := by assumption) (m_evt : m .evt := by assumption) (m_rdg : m .rdg := by assumption) (m_links : m .links := by assumption) (m_win : m .win := by assumption) (m_mag : m .mag := by assumption) (m_out : m .out := by assumption) :
    (State.plateCreate c d s).cut m = s.cut m := by
  unfold State.plateCreate
  repeat' (first | (with_reducible refine (State.onMounted_cut (h_f := fun y0 => ?_) (s := _) (c := _) (d := _)).trans ?_) | (with_reducible refine (foldl_cut _ _ _ fun s x => ?_).trans ?_) | split | simp only [↓State.finish_cut, ↓State.queueUpdate_cut, m_regs, m_hst, m_stg, m_tabs, m_evt, m_rdg, m_links, m_win, m_mag, m_out])

theorem execPlateCreate_cut {m : Area → Bool} (c : Fin 256) (s : State) (m_regs : m .regs := by assumption) (m_hst : m .hst := by assumption) (m_stg : m .stg := by assumption) (m_tabs : m .tabs := by assumption) (m_evt : m .evt := by assumption) (m_rdg : m .rdg := by assumption) (m_links : m .links := by assumption) (m_win : m .win := by assumption) (m_mag : m .mag := by assumption) (m_out : m .out := by assumption) :
    outCut m (execPlateCreate c s) = some (s.cut m) := by
  unfold execPlateCreate
  repeat' (first | (refine congrArg some ?_) | (with_reducible refine (State.startWith_cut (h_f := fun y0 y1 => ?_) (s := _) (c := _) (p := _)).trans ?_) | split | simp only [↓State.plateCreate_cut, m_regs, m_hst, m_stg, m_tabs, m_evt, m_rdg, m_links, m_win, m_mag, m_out])

theorem State.plateAppend_cut {m : Area → Bool} (c : ℕ) (d : Desc) (s : State) (m_regs : m .regs := by assumption) (m_hst : m .hst := by assumption) (m_stg : m .stg := by assumption) (m_tabs : m .tabs := by assumption) (m_evt : m .evt := by assumption) (m_rdg : m .rdg := by assumption) (m_links : m .links := by assumption) (m_win : m .win := by assumption) (m_mag : m .mag := by assumption) (m_out : m .out := by assumption) :
    (State.plateAppend c d s).cut m = s.cut m := by
  unfold State.plateAppend
  repeat' (first | (with_reducible refine (State.onMounted_cut (h_f := fun y0 => ?_) (s := _) (c := _) (d := _)).trans ?_) | split | simp only [↓State.onMag_cut, ↓State.readHost_cut, ↓State.finish_cut, m_regs, m_hst, m_stg, m_tabs, m_evt, m_rdg, m_links, m_win, m_mag, m_out])

theorem execPlateAppend_cut {m : Area → Bool} (c : Fin 256) (s : State) (m_regs : m .regs := by assumption) (m_hst : m .hst := by assumption) (m_stg : m .stg := by assumption) (m_tabs : m .tabs := by assumption) (m_evt : m .evt := by assumption) (m_rdg : m .rdg := by assumption) (m_links : m .links := by assumption) (m_win : m .win := by assumption) (m_mag : m .mag := by assumption) (m_out : m .out := by assumption) :
    outCut m (execPlateAppend c s) = some (s.cut m) := by
  unfold execPlateAppend
  repeat' (first | (refine congrArg some ?_) | (with_reducible refine (State.startWith_cut (h_f := fun y0 y1 => ?_) (s := _) (c := _) (p := _)).trans ?_) | split | simp only [↓State.plateAppend_cut, m_regs, m_hst, m_stg, m_tabs, m_evt, m_rdg, m_links, m_win, m_mag, m_out])

theorem State.setAppend_cut {m : Area → Bool} (s : State) (a : AppendJob) (m_mag : m .mag := by assumption) :
    (State.setAppend s a).cut m = s.cut m := by
  unfold State.setAppend
  simp only [↓State.onMag_cut, ↓apply_ite (State.cut m), ite_self, m_mag]

theorem State.dropAppend_cut {m : Area → Bool} (s : State) (c : ℕ) (idx : ℕ) (m_mag : m .mag := by assumption) :
    (State.dropAppend s c idx).cut m = s.cut m := by
  unfold State.dropAppend
  simp only [↓State.onMag_cut, ↓apply_ite (State.cut m), ite_self, m_mag]

theorem State.appendWrite_cut {m : Area → Bool} (s : State) (a : AppendJob) (m_regs : m .regs := by assumption) (m_hst : m .hst := by assumption) (m_stg : m .stg := by assumption) (m_tabs : m .tabs := by assumption) (m_evt : m .evt := by assumption) (m_rdg : m .rdg := by assumption) (m_links : m .links := by assumption) (m_win : m .win := by assumption) (m_mag : m .mag := by assumption) (m_out : m .out := by assumption) :
    (State.appendWrite s a).cut m = s.cut m := by
  rw [State.appendWrite]
  split
  · exact (State.finish_cut ..).trans (State.dropAppend_cut ..)
  · exact (State.magIssues_cut ..).trans (State.setAppend_cut ..)

theorem State.appendCmd_cut {m : Area → Bool} (s : State) (p : ℕ) (c : ℕ) (idx : ℕ) (isIndex : Bool) (ok : Bool) (m_regs : m .regs := by assumption) (m_hst : m .hst := by assumption) (m_stg : m .stg := by assumption) (m_tabs : m .tabs := by assumption) (m_evt : m .evt := by assumption) (m_rdg : m .rdg := by assumption) (m_links : m .links := by assumption) (m_win : m .win := by assumption) (m_mag : m .mag := by assumption) (m_out : m .out := by assumption) :
    (State.appendCmd s p c idx isIndex ok).cut m = s.cut m := by
  unfold State.appendCmd
  repeat' (first | (with_reducible refine (foldl_cut _ _ _ fun s x => ?_).trans ?_) | split | simp only [↓State.bump_cut, ↓State.finish_cut, ↓State.onPort_cut, ↓State.magIssues_cut, ↓State.setAppend_cut, ↓State.dropAppend_cut, m_regs, m_hst, m_stg, m_tabs, m_evt, m_rdg, m_links, m_win, m_mag, m_out])

theorem State.plateClose_cut {m : Area → Bool} (c : ℕ) (d : Desc) (s : State) (m_regs : m .regs := by assumption) (m_hst : m .hst := by assumption) (m_stg : m .stg := by assumption) (m_tabs : m .tabs := by assumption) (m_evt : m .evt := by assumption) (m_rdg : m .rdg := by assumption) (m_links : m .links := by assumption) (m_win : m .win := by assumption) (m_mag : m .mag := by assumption) (m_out : m .out := by assumption) :
    (State.plateClose c d s).cut m = s.cut m := by
  unfold State.plateClose
  repeat' (first | (with_reducible refine (State.onMounted_cut (h_f := fun y0 => ?_) (s := _) (c := _) (d := _)).trans ?_) | split | simp only [↓State.finish_cut, ↓State.queueUpdate_cut, m_regs, m_hst, m_stg, m_tabs, m_evt, m_rdg, m_links, m_win, m_mag, m_out])

theorem execPlateClose_cut {m : Area → Bool} (c : Fin 256) (s : State) (m_regs : m .regs := by assumption) (m_hst : m .hst := by assumption) (m_stg : m .stg := by assumption) (m_tabs : m .tabs := by assumption) (m_evt : m .evt := by assumption) (m_rdg : m .rdg := by assumption) (m_links : m .links := by assumption) (m_win : m .win := by assumption) (m_mag : m .mag := by assumption) (m_out : m .out := by assumption) :
    outCut m (execPlateClose c s) = some (s.cut m) := by
  unfold execPlateClose
  repeat' (first | (refine congrArg some ?_) | (with_reducible refine (State.startWith_cut (h_f := fun y0 y1 => ?_) (s := _) (c := _) (p := _)).trans ?_) | split | simp only [↓State.plateClose_cut, m_regs, m_hst, m_stg, m_tabs, m_evt, m_rdg, m_links, m_win, m_mag, m_out])

theorem State.playStart_cut {m : Area → Bool} (c : ℕ) (d : Desc) (s : State) (m_regs : m .regs := by assumption) (m_hst : m .hst := by assumption) (m_stg : m .stg := by assumption) (m_tabs : m .tabs := by assumption) (m_evt : m .evt := by assumption) (m_rdg : m .rdg := by assumption) (m_links : m .links := by assumption) (m_win : m .win := by assumption) (m_mag : m .mag := by assumption) (m_out : m .out := by assumption) :
    (State.playStart c d s).cut m = s.cut m := by
  unfold State.playStart
  repeat' (first | (with_reducible refine (State.onMounted_cut (h_f := fun y0 => ?_) (s := _) (c := _) (d := _)).trans ?_) | (with_reducible refine (foldl_cut _ _ _ fun s x => ?_).trans ?_) | split | simp only [↓State.setReg_cut, ↓State.setF_cut, ↓State.onMag_cut, ↓State.finish_cut, m_regs, m_hst, m_stg, m_tabs, m_evt, m_rdg, m_links, m_win, m_mag, m_out])

theorem execPlatePlayStart_cut {m : Area → Bool} (c : Fin 256) (s : State) (m_regs : m .regs := by assumption) (m_hst : m .hst := by assumption) (m_stg : m .stg := by assumption) (m_tabs : m .tabs := by assumption) (m_evt : m .evt := by assumption) (m_rdg : m .rdg := by assumption) (m_links : m .links := by assumption) (m_win : m .win := by assumption) (m_mag : m .mag := by assumption) (m_out : m .out := by assumption) :
    outCut m (execPlatePlayStart c s) = some (s.cut m) := by
  unfold execPlatePlayStart
  repeat' (first | (refine congrArg some ?_) | (with_reducible refine (State.startWith_cut (h_f := fun y0 y1 => ?_) (s := _) (c := _) (p := _)).trans ?_) | split | simp only [↓State.playStart_cut, m_regs, m_hst, m_stg, m_tabs, m_evt, m_rdg, m_links, m_win, m_mag, m_out])

theorem State.playStop_cut {m : Area → Bool} (c : ℕ) (d : Desc) (s : State) (m_regs : m .regs := by assumption) (m_hst : m .hst := by assumption) (m_stg : m .stg := by assumption) (m_tabs : m .tabs := by assumption) (m_evt : m .evt := by assumption) (m_rdg : m .rdg := by assumption) (m_links : m .links := by assumption) (m_win : m .win := by assumption) (m_mag : m .mag := by assumption) (m_out : m .out := by assumption) :
    (State.playStop c d s).cut m = s.cut m := by
  unfold State.playStop
  repeat' (first | (with_reducible refine (State.onMounted_cut (h_f := fun y0 => ?_) (s := _) (c := _) (d := _)).trans ?_) | split | simp only [↓State.onMag_cut, ↓State.finish_cut, m_regs, m_hst, m_stg, m_tabs, m_evt, m_rdg, m_links, m_win, m_mag, m_out])

theorem execPlatePlayStop_cut {m : Area → Bool} (c : Fin 256) (s : State) (m_regs : m .regs := by assumption) (m_hst : m .hst := by assumption) (m_stg : m .stg := by assumption) (m_tabs : m .tabs := by assumption) (m_evt : m .evt := by assumption) (m_rdg : m .rdg := by assumption) (m_links : m .links := by assumption) (m_win : m .win := by assumption) (m_mag : m .mag := by assumption) (m_out : m .out := by assumption) :
    outCut m (execPlatePlayStop c s) = some (s.cut m) := by
  unfold execPlatePlayStop
  repeat' (first | (refine congrArg some ?_) | (with_reducible refine (State.startWith_cut (h_f := fun y0 y1 => ?_) (s := _) (c := _) (p := _)).trans ?_) | split | simp only [↓State.playStop_cut, m_regs, m_hst, m_stg, m_tabs, m_evt, m_rdg, m_links, m_win, m_mag, m_out])

theorem State.schedBoundary_cut {m : Area → Bool} (s : State) (f : ℕ) (m_regs : m .regs := by assumption) (m_mag : m .mag := by assumption) :
    (State.schedBoundary s f).cut m = s.cut m := by
  unfold State.schedBoundary
  repeat' (first | (with_reducible refine (foldl_cut _ _ _ fun s x => ?_).trans ?_) | split | simp only [↓State.onMag_cut, ↓State.endSched_cut, m_regs, m_mag])

theorem State.setRead_cut {m : Area → Bool} (s : State) (r : PlateRead) (m_mag : m .mag := by assumption) :
    (State.setRead s r).cut m = s.cut m := by
  unfold State.setRead
  simp only [↓State.onMag_cut, m_mag]

theorem State.dropRead_cut {m : Area → Bool} (s : State) (c : Nat) (idx : Nat) (m_mag : m .mag := by assumption) :
    (State.dropRead s c idx).cut m = s.cut m := by
  unfold State.dropRead
  simp only [↓State.onMag_cut, m_mag]

theorem State.plateRead_cut {m : Area → Bool} (decoded : Bool) (c : ℕ) (d : Desc) (s : State) (m_regs : m .regs := by assumption) (m_hst : m .hst := by assumption) (m_stg : m .stg := by assumption) (m_tabs : m .tabs := by assumption) (m_evt : m .evt := by assumption) (m_rdg : m .rdg := by assumption) (m_links : m .links := by assumption) (m_win : m .win := by assumption) (m_mag : m .mag := by assumption) (m_out : m .out := by assumption) :
    (State.plateRead decoded c d s).cut m = s.cut m := by
  unfold State.plateRead
  repeat' (first | (with_reducible refine (State.onMounted_cut (h_f := fun y0 => ?_) (s := _) (c := _) (d := _)).trans ?_) | split | simp only [↓State.onMag_cut, ↓State.finish_cut, ↓State.magIssues_cut, m_regs, m_hst, m_stg, m_tabs, m_evt, m_rdg, m_links, m_win, m_mag, m_out])

theorem execPlateReadPages_cut {m : Area → Bool} (c : Fin 256) (s : State) (m_regs : m .regs := by assumption) (m_hst : m .hst := by assumption) (m_stg : m .stg := by assumption) (m_tabs : m .tabs := by assumption) (m_evt : m .evt := by assumption) (m_rdg : m .rdg := by assumption) (m_links : m .links := by assumption) (m_win : m .win := by assumption) (m_mag : m .mag := by assumption) (m_out : m .out := by assumption) :
    outCut m (execPlateReadPages c s) = some (s.cut m) := by
  unfold execPlateReadPages
  repeat' (first | (refine congrArg some ?_) | (with_reducible refine (State.startWith_cut (h_f := fun y0 y1 => ?_) (s := _) (c := _) (p := _)).trans ?_) | split | simp only [↓State.plateRead_cut, m_regs, m_hst, m_stg, m_tabs, m_evt, m_rdg, m_links, m_win, m_mag, m_out])

theorem execPlateReadDecoded_cut {m : Area → Bool} (c : Fin 256) (s : State) (m_regs : m .regs := by assumption) (m_hst : m .hst := by assumption) (m_stg : m .stg := by assumption) (m_tabs : m .tabs := by assumption) (m_evt : m .evt := by assumption) (m_rdg : m .rdg := by assumption) (m_links : m .links := by assumption) (m_win : m .win := by assumption) (m_mag : m .mag := by assumption) (m_out : m .out := by assumption) :
    outCut m (execPlateReadDecoded c s) = some (s.cut m) := by
  unfold execPlateReadDecoded
  repeat' (first | (refine congrArg some ?_) | (with_reducible refine (State.startWith_cut (h_f := fun y0 y1 => ?_) (s := _) (c := _) (p := _)).trans ?_) | split | simp only [↓State.plateRead_cut, m_regs, m_hst, m_stg, m_tabs, m_evt, m_rdg, m_links, m_win, m_mag, m_out])

theorem State.plateReadEntry_cut {m : Area → Bool} (c : ℕ) (d : Desc) (s : State) (m_regs : m .regs := by assumption) (m_hst : m .hst := by assumption) (m_stg : m .stg := by assumption) (m_tabs : m .tabs := by assumption) (m_evt : m .evt := by assumption) (m_rdg : m .rdg := by assumption) (m_links : m .links := by assumption) (m_win : m .win := by assumption) (m_out : m .out := by assumption) :
    (State.plateReadEntry c d s).cut m = s.cut m := by
  unfold State.plateReadEntry
  repeat' (first | (with_reducible refine (State.onMounted_cut (h_f := fun y0 => ?_) (s := _) (c := _) (d := _)).trans ?_) | split | simp only [↓State.writeHost_cut, ↓State.finish_cut, m_regs, m_hst, m_stg, m_tabs, m_evt, m_rdg, m_links, m_win, m_out])

theorem execPlateReadEntry_cut {m : Area → Bool} (c : Fin 256) (s : State) (m_regs : m .regs := by assumption) (m_hst : m .hst := by assumption) (m_stg : m .stg := by assumption) (m_tabs : m .tabs := by assumption) (m_evt : m .evt := by assumption) (m_rdg : m .rdg := by assumption) (m_links : m .links := by assumption) (m_win : m .win := by assumption) (m_out : m .out := by assumption) :
    outCut m (execPlateReadEntry c s) = some (s.cut m) := by
  unfold execPlateReadEntry
  repeat' (first | (refine congrArg some ?_) | (with_reducible refine (State.startWith_cut (h_f := fun y0 y1 => ?_) (s := _) (c := _) (p := _)).trans ?_) | split | simp only [↓State.plateReadEntry_cut, m_regs, m_hst, m_stg, m_tabs, m_evt, m_rdg, m_links, m_win, m_out])

theorem State.readFailed_cut {m : Area → Bool} (s : State) (p : ℕ) (c : ℕ) (idx : ℕ) (m_regs : m .regs := by assumption) (m_hst : m .hst := by assumption) (m_stg : m .stg := by assumption) (m_tabs : m .tabs := by assumption) (m_evt : m .evt := by assumption) (m_rdg : m .rdg := by assumption) (m_links : m .links := by assumption) (m_win : m .win := by assumption) (m_mag : m .mag := by assumption) (m_out : m .out := by assumption) :
    (State.readFailed s p c idx).cut m = s.cut m := by
  unfold State.readFailed
  simp only [↓State.bump_cut, ↓State.finish_cut, ↓State.onPort_cut, ↓State.dropRead_cut, ↓apply_ite (State.cut m), ite_self, m_regs, m_hst, m_stg, m_tabs, m_evt, m_rdg, m_links, m_win, m_mag, m_out]

theorem State.readIndexPage_cut {m : Area → Bool} (s : State) (p : ℕ) (c : ℕ) (idx : ℕ) (bs : List Byte) (m_regs : m .regs := by assumption) (m_hst : m .hst := by assumption) (m_stg : m .stg := by assumption) (m_tabs : m .tabs := by assumption) (m_evt : m .evt := by assumption) (m_rdg : m .rdg := by assumption) (m_links : m .links := by assumption) (m_win : m .win := by assumption) (m_mag : m .mag := by assumption) (m_out : m .out := by assumption) :
    (State.readIndexPage s p c idx bs).cut m = s.cut m := by
  unfold State.readIndexPage
  repeat' (first | split | simp only [↓State.finish_cut, ↓State.magIssues_cut, ↓State.setRead_cut, ↓State.dropRead_cut, m_regs, m_hst, m_stg, m_tabs, m_evt, m_rdg, m_links, m_win, m_mag, m_out])

theorem State.readPages_cut {m : Area → Bool} (s : State) (c : ℕ) (idx : ℕ) (page : ℕ) (bs : List Byte) (m_regs : m .regs := by assumption) (m_hst : m .hst := by assumption) (m_stg : m .stg := by assumption) (m_tabs : m .tabs := by assumption) (m_evt : m .evt := by assumption) (m_rdg : m .rdg := by assumption) (m_links : m .links := by assumption) (m_win : m .win := by assumption) (m_mag : m .mag := by assumption) (m_out : m .out := by assumption) :
    (State.readPages s c idx page bs).cut m = s.cut m := by
  unfold State.readPages
  repeat' (first | split | simp only [↓State.writeHost_cut, ↓State.finish_cut, ↓State.setRead_cut, ↓State.dropRead_cut, m_regs, m_hst, m_stg, m_tabs, m_evt, m_rdg, m_links, m_win, m_mag, m_out])

theorem State.plateDelete_cut {m : Area → Bool} (c : ℕ) (d : Desc) (s : State) (m_regs : m .regs := by assumption) (m_hst : m .hst := by assumption) (m_stg : m .stg := by assumption) (m_tabs : m .tabs := by assumption) (m_evt : m .evt := by assumption) (m_rdg : m .rdg := by assumption) (m_links : m .links := by assumption) (m_win : m .win := by assumption) (m_mag : m .mag := by assumption) (m_out : m .out := by assumption) :
    (State.plateDelete c d s).cut m = s.cut m := by
  unfold State.plateDelete
  repeat' (first | (with_reducible refine (State.onMounted_cut (h_f := fun y0 => ?_) (s := _) (c := _) (d := _)).trans ?_) | split | simp only [↓State.finish_cut, ↓State.queueUpdate_cut, m_regs, m_hst, m_stg, m_tabs, m_evt, m_rdg, m_links, m_win, m_mag, m_out])

theorem execPlateDelete_cut {m : Area → Bool} (c : Fin 256) (s : State) (m_regs : m .regs := by assumption) (m_hst : m .hst := by assumption) (m_stg : m .stg := by assumption) (m_tabs : m .tabs := by assumption) (m_evt : m .evt := by assumption) (m_rdg : m .rdg := by assumption) (m_links : m .links := by assumption) (m_win : m .win := by assumption) (m_mag : m .mag := by assumption) (m_out : m .out := by assumption) :
    outCut m (execPlateDelete c s) = some (s.cut m) := by
  unfold execPlateDelete
  repeat' (first | (refine congrArg some ?_) | (with_reducible refine (State.startWith_cut (h_f := fun y0 y1 => ?_) (s := _) (c := _) (p := _)).trans ?_) | split | simp only [↓State.plateDelete_cut, m_regs, m_hst, m_stg, m_tabs, m_evt, m_rdg, m_links, m_win, m_mag, m_out])

theorem State.stageStart_cut {m : Area → Bool} (s : State) (m_regs : m .regs := by assumption) (m_fst : m .fst := by assumption) (m_mag : m .mag := by assumption) (m_out : m .out := by assumption) :
    (State.stageStart s).cut m = s.cut m := by
  unfold State.stageStart
  repeat' (first | split | simp only [↓State.onMag_cut, ↓State.setBuf_cut, ↓State.syncMap_cut, ↓State.setStaging_cut, ↓State.magIssues_cut, m_regs, m_fst, m_mag, m_out])

theorem execPlateStageStart_cut {m : Area → Bool} (s : State) (m_regs : m .regs := by assumption) (m_fst : m .fst := by assumption) (m_mag : m .mag := by assumption) (m_out : m .out := by assumption) :
    outCut m (execPlateStageStart s) = some (s.cut m) := by
  unfold execPlateStageStart
  simp only [↓State.stageStart_cut, ↓apply_ite (State.cut m), ite_self, ↓outCut_next, ↓apply_ite (outCut m), m_regs, m_fst, m_mag, m_out]

theorem State.abandon_cut {m : Area → Bool} (s : State) (i : ℕ) (m_regs : m .regs := by assumption) (m_evt : m .evt := by assumption) (m_fst : m .fst := by assumption) (m_mag : m .mag := by assumption) (m_thc : m .thc := by assumption) :
    (State.abandon s i).cut m = s.cut m := by
  unfold State.abandon
  repeat' (first | split | simp only [↓State.onMag_cut, ↓State.event_cut, ↓State.freeStaging_cut, m_regs, m_evt, m_fst, m_mag, m_thc])

theorem State.chunkFailed_cut {m : Area → Bool} (s : State) (i : ℕ) (k : ℕ) (m_regs : m .regs := by assumption) (m_evt : m .evt := by assumption) (m_fst : m .fst := by assumption) (m_mag : m .mag := by assumption) (m_thc : m .thc := by assumption) (m_out : m .out := by assumption) :
    (State.chunkFailed s i k).cut m = s.cut m := by
  unfold State.chunkFailed
  repeat' (first | split | simp only [↓State.setStaging_cut, ↓State.magIssues_cut, ↓State.abandon_cut, m_regs, m_evt, m_fst, m_mag, m_thc, m_out])

theorem State.stageIndexRead_cut {m : Area → Bool} (s : State) (i : ℕ) (bs : List Byte) (m_regs : m .regs := by assumption) (m_evt : m .evt := by assumption) (m_fst : m .fst := by assumption) (m_mag : m .mag := by assumption) (m_thc : m .thc := by assumption) (m_out : m .out := by assumption) :
    (State.stageIndexRead s i bs).cut m = s.cut m := by
  unfold State.stageIndexRead
  repeat' (first | split | simp only [↓State.setStaging_cut, ↓State.magIssues_cut, ↓State.abandon_cut, m_regs, m_evt, m_fst, m_mag, m_thc, m_out])

theorem State.stagePagesRead_cut {m : Area → Bool} (s : State) (i : ℕ) (page : ℕ) (bs : List Byte) (m_bnk : m .bnk := by assumption) (m_mag : m .mag := by assumption) :
    (State.stagePagesRead s i page bs).cut m = s.cut m := by
  unfold State.stagePagesRead
  repeat' (first | split | simp only [↓State.cleanWords_cut, ↓State.setStaging_cut, m_bnk, m_mag])

theorem State.stageReadFailed_cut {m : Area → Bool} (s : State) (i : ℕ) (marks : List ℕ) (c : MagCmd) (m_regs : m .regs := by assumption) (m_evt : m .evt := by assumption) (m_fst : m .fst := by assumption) (m_mag : m .mag := by assumption) (m_thc : m .thc := by assumption) (m_out : m .out := by assumption) :
    (State.stageReadFailed s i marks c).cut m = s.cut m := by
  unfold State.stageReadFailed
  repeat' (first | split | simp only [↓State.bump_cut, ↓State.setStaging_cut, ↓State.magIssues_cut, ↓State.abandon_cut, m_regs, m_evt, m_fst, m_mag, m_thc, m_out])

theorem State.stageRows_cut {m : Area → Bool} (i : Nat) (x1 : Nat) (x2 : State) (m_regs : m .regs := by assumption) (m_evt : m .evt := by assumption) (m_fst : m .fst := by assumption) (m_bnk : m .bnk := by assumption) (m_mag : m .mag := by assumption) :
    (State.stageRows i x1 x2).cut m = x2.cut m := by
  induction x1 generalizing x2 with
  | zero => rfl
  | succ n ih =>
    simp only [State.stageRows]
    split
    · rfl
    · split
      · rfl
      · exact (ih _).trans ((State.setStaging_cut ..).trans (State.writeRow_cut ..))

theorem State.stageEnd_cut {m : Area → Bool} (s : State) (i : ℕ) (g : Staging) (m_regs : m .regs := by assumption) (m_evt : m .evt := by assumption) (m_mag : m .mag := by assumption) :
    (State.stageEnd s i g).cut m = s.cut m := by
  unfold State.stageEnd
  simp only [↓State.reportFrameLoss_cut, ↓State.setStaging_cut, ↓apply_ite (State.cut m), ite_self, m_regs, m_evt, m_mag]

theorem State.stageFlush_cut {m : Area → Bool} (i : Nat) (x1 : Nat) (x2 : State) (m_regs : m .regs := by assumption) (m_evt : m .evt := by assumption) (m_fst : m .fst := by assumption) (m_bnk : m .bnk := by assumption) (m_mag : m .mag := by assumption) :
    (State.stageFlush i x1 x2).cut m = x2.cut m := by
  induction x1 generalizing x2 with
  | zero => rfl
  | succ n ih =>
    simp only [State.stageFlush]
    split
    · rfl
    · split
      · rfl
      · refine (ih _).trans ?_
        split
        · exact (State.stageEnd_cut _ _ _).trans ((State.stageRows_cut _ _ _).trans (State.setStaging_cut _ _ _))
        · exact (State.stageRows_cut _ _ _).trans (State.setStaging_cut _ _ _)

theorem State.nvmeServe_cut {m : Area → Bool} (s : State) (p : ℕ) (c : MagCmd) (r : NvmeResult) (ok : Bool) (bs : Option (List Byte)) (lba : ℕ) (m_regs : m .regs := by assumption) (m_pwr : m .pwr := by assumption) (m_hst : m .hst := by assumption) (m_stg : m .stg := by assumption) (m_tabs : m .tabs := by assumption) (m_evt : m .evt := by assumption) (m_rdg : m .rdg := by assumption) (m_fst : m .fst := by assumption) (m_links : m .links := by assumption) (m_thm : m .thm := by assumption) (m_bnk : m .bnk := by assumption) (m_win : m .win := by assumption) (m_mag : m .mag := by assumption) (m_thc : m .thc := by assumption) (m_out : m .out := by assumption) :
    (State.nvmeServe s p c r ok bs lba).cut m = s.cut m := by
  unfold State.nvmeServe
  repeat' (first | split | simp only [↓State.setF_cut, ↓State.event_cut, ↓State.magIssues_cut, ↓State.dirPart_cut, ↓State.superblockRead_cut, ↓State.identified_cut, ↓State.unmounted_cut, ↓State.updateCmd_cut, ↓State.formatCmd_cut, ↓State.appendCmd_cut, ↓State.readFailed_cut, ↓State.readIndexPage_cut, ↓State.readPages_cut, ↓State.stageIndexRead_cut, ↓State.stagePagesRead_cut, ↓State.stageReadFailed_cut, m_regs, m_pwr, m_hst, m_stg, m_tabs, m_evt, m_rdg, m_fst, m_links, m_thm, m_bnk, m_win, m_mag, m_thc, m_out])

theorem State.nvmeDone_cut {m : Area → Bool} (s : State) (p : ℕ) (tag : ℕ) (r : NvmeResult) (m_regs : m .regs := by assumption) (m_pwr : m .pwr := by assumption) (m_hst : m .hst := by assumption) (m_stg : m .stg := by assumption) (m_tabs : m .tabs := by assumption) (m_evt : m .evt := by assumption) (m_rdg : m .rdg := by assumption) (m_fst : m .fst := by assumption) (m_links : m .links := by assumption) (m_thm : m .thm := by assumption) (m_bnk : m .bnk := by assumption) (m_win : m .win := by assumption) (m_mag : m .mag := by assumption) (m_thc : m .thc := by assumption) (m_out : m .out := by assumption) :
    (State.nvmeDone s p tag r).cut m = s.cut m := by
  unfold State.nvmeDone
  repeat' (first | split | simp only [↓State.onPort_cut, ↓State.magPump_cut, ↓State.tryUnmount_cut, ↓State.nvmeServe_cut, m_regs, m_pwr, m_hst, m_stg, m_tabs, m_evt, m_rdg, m_fst, m_links, m_thm, m_bnk, m_win, m_mag, m_thc, m_out])

theorem execNvmeCompletion_cut {m : Area → Bool} (p : Fin 4) (tag : ℕ) (r : NvmeResult) (s : State) (m_regs : m .regs := by assumption) (m_pwr : m .pwr := by assumption) (m_hst : m .hst := by assumption) (m_stg : m .stg := by assumption) (m_tabs : m .tabs := by assumption) (m_evt : m .evt := by assumption) (m_rdg : m .rdg := by assumption) (m_fst : m .fst := by assumption) (m_links : m .links := by assumption) (m_thm : m .thm := by assumption) (m_bnk : m .bnk := by assumption) (m_win : m .win := by assumption) (m_mag : m .mag := by assumption) (m_thc : m .thc := by assumption) (m_out : m .out := by assumption) :
    outCut m (execNvmeCompletion p tag r s) = some (s.cut m) := by
  unfold execNvmeCompletion
  simp only [↓State.nvmeDone_cut, ↓apply_ite (State.cut m), ite_self, ↓outCut_next, ↓apply_ite (outCut m), m_regs, m_pwr, m_hst, m_stg, m_tabs, m_evt, m_rdg, m_fst, m_links, m_thm, m_bnk, m_win, m_mag, m_thc, m_out]

theorem State.syncEngine_cut {m : Area → Bool} (s : State) (e : ℕ) (m_regs : m .regs := by assumption) :
    (State.syncEngine s e).cut m = s.cut m := by
  unfold State.syncEngine
  simp only [↓State.setF_cut, ↓apply_ite (State.cut m), ite_self, m_regs]

theorem State.setEngine_cut {m : Area → Bool} (s : State) (e : ℕ) (x : Engine) (m_regs : m .regs := by assumption) (m_thc : m .thc := by assumption) :
    (State.setEngine s e x).cut m = s.cut m := by
  unfold State.setEngine
  simp only [↓State.onThc_cut, ↓State.syncEngine_cut, ↓apply_ite (State.cut m), ite_self, m_regs, m_thc]

theorem State.thcPause_cut {m : Area → Bool} (s : State) (e : ℕ) (m_regs : m .regs := by assumption) :
    (State.thcPause s e).cut m = s.cut m := by
  unfold State.thcPause
  simp only [↓State.setF_cut, ↓apply_ite (State.cut m), ite_self, m_regs]

theorem execThrottlePauseEnd_cut {m : Area → Bool} (e : Fin 2) (s : State) (m_regs : m .regs := by assumption) :
    outCut m (execThrottlePauseEnd e s) = some (s.cut m) := by
  unfold execThrottlePauseEnd
  simp only [↓State.setF_cut, ↓apply_ite (State.cut m), ite_self, ↓outCut_next, ↓apply_ite (outCut m), m_regs]

theorem State.thcRelease_cut {m : Area → Bool} (s : State) (m_regs : m .regs := by assumption) :
    (State.thcRelease s).cut m = s.cut m := by
  unfold State.thcRelease
  repeat' (first | (with_reducible refine (foldl_cut _ _ _ fun s x => ?_).trans ?_) | split | simp only [↓State.setF_cut, m_regs])

theorem State.startJob_cut {m : Area → Bool} (s : State) (e : ℕ) (c : ℕ) (idx : ℕ) (m_regs : m .regs := by assumption) (m_hst : m .hst := by assumption) (m_rdg : m .rdg := by assumption) (m_links : m .links := by assumption) (m_thc : m .thc := by assumption) (m_out : m .out := by assumption) :
    (State.startJob s e c idx).cut m = s.cut m := by
  unfold State.startJob
  repeat' (first | split | simp only [↓State.onThc_cut, ↓State.readHost_cut, ↓State.setEngine_cut, m_regs, m_hst, m_rdg, m_links, m_thc, m_out])

theorem State.jobStart_cut {m : Area → Bool} (s : State) (e : ℕ) (m_regs : m .regs := by assumption) (m_pwr : m .pwr := by assumption) (m_hst : m .hst := by assumption) (m_rdg : m .rdg := by assumption) (m_links : m .links := by assumption) (m_mag : m .mag := by assumption) (m_thc : m .thc := by assumption) (m_out : m .out := by assumption) :
    (State.jobStart s e).cut m = s.cut m := by
  unfold State.jobStart
  repeat' (first | split | simp only [↓State.onMag_cut, ↓State.wake_cut, ↓State.setStaging_cut, ↓State.setEngine_cut, ↓State.startJob_cut, m_regs, m_pwr, m_hst, m_rdg, m_links, m_mag, m_thc, m_out])

theorem execEngineJobStart_cut {m : Area → Bool} (e : Fin 2) (s : State) (m_regs : m .regs := by assumption) (m_pwr : m .pwr := by assumption) (m_hst : m .hst := by assumption) (m_rdg : m .rdg := by assumption) (m_links : m .links := by assumption) (m_mag : m .mag := by assumption) (m_thc : m .thc := by assumption) (m_out : m .out := by assumption) :
    outCut m (execEngineJobStart e s) = some (s.cut m) := by
  unfold execEngineJobStart
  simp only [↓State.jobStart_cut, ↓apply_ite (State.cut m), ite_self, ↓outCut_next, ↓apply_ite (outCut m), m_regs, m_pwr, m_hst, m_rdg, m_links, m_mag, m_thc, m_out]

theorem execThcComp_cut {m : Area → Bool} (c : Fin 256) (s : State) (m_hst : m .hst := by assumption) (m_thc : m .thc := by assumption) :
    outCut m (execThcComp c s) = some (s.cut m) := by
  unfold execThcComp
  repeat' (first | (refine congrArg some ?_) | (with_reducible refine (State.startWith_cut (h_f := fun y0 y1 => ?_) (s := _) (c := _) (p := _)).trans ?_) | split | simp only [↓State.onThc_cut, m_hst, m_thc])

theorem execThcDecomp_cut {m : Area → Bool} (c : Fin 256) (s : State) (m_hst : m .hst := by assumption) (m_thc : m .thc := by assumption) :
    outCut m (execThcDecomp c s) = some (s.cut m) := by
  unfold execThcDecomp
  repeat' (first | (refine congrArg some ?_) | (with_reducible refine (State.startWith_cut (h_f := fun y0 y1 => ?_) (s := _) (c := _) (p := _)).trans ?_) | split | simp only [↓State.onThc_cut, m_hst, m_thc])

theorem State.jobData_cut {m : Area → Bool} (s : State) (c : ℕ) (idx : ℕ) (isState : Bool) (bytes : List Byte) (m_regs : m .regs := by assumption) (m_hst : m .hst := by assumption) (m_rdg : m .rdg := by assumption) (m_links : m .links := by assumption) (m_thc : m .thc := by assumption) (m_out : m .out := by assumption) :
    (State.jobData s c idx isState bytes).cut m = s.cut m := by
  unfold State.jobData
  repeat' (first | split | simp only [↓State.readHost_cut, ↓State.setEngine_cut, m_regs, m_hst, m_rdg, m_links, m_thc, m_out])

theorem State.jobFault_cut {m : Area → Bool} (s : State) (c : ℕ) (idx : ℕ) (m_regs : m .regs := by assumption) (m_thc : m .thc := by assumption) :
    (State.jobFault s c idx).cut m = s.cut m := by
  unfold State.jobFault
  repeat' (first | split | simp only [↓State.bump_cut, ↓State.onThc_cut, ↓State.setEngine_cut, m_regs, m_thc])

theorem State.jobEnd_cut {m : Area → Bool} (s : State) (e : ℕ) (c : ℕ) (idx : ℕ) (img : List Byte) (data : List Byte) (m_regs : m .regs := by assumption) (m_hst : m .hst := by assumption) (m_stg : m .stg := by assumption) (m_tabs : m .tabs := by assumption) (m_evt : m .evt := by assumption) (m_rdg : m .rdg := by assumption) (m_links : m .links := by assumption) (m_win : m .win := by assumption) (m_thc : m .thc := by assumption) (m_out : m .out := by assumption) :
    (State.jobEnd s e c idx img data).cut m = s.cut m := by
  unfold State.jobEnd
  repeat' (first | split | simp only [↓State.bump_cut, ↓State.event_cut, ↓State.writeHost_cut, ↓State.finish_cut, ↓State.setEngine_cut, m_regs, m_hst, m_stg, m_tabs, m_evt, m_rdg, m_links, m_win, m_thc, m_out])

theorem State.stageChunkEnd_cut {m : Area → Bool} (s : State) (e : ℕ) (i : ℕ) (k : ℕ) (m_regs : m .regs := by assumption) (m_evt : m .evt := by assumption) (m_fst : m .fst := by assumption) (m_bnk : m .bnk := by assumption) (m_mag : m .mag := by assumption) (m_thc : m .thc := by assumption) (m_out : m .out := by assumption) :
    (State.stageChunkEnd s e i k).cut m = s.cut m := by
  unfold State.stageChunkEnd
  repeat' (first | (with_reducible refine (foldl_cut _ _ _ fun s x => ?_).trans ?_) | split | simp only [↓State.bump_cut, ↓State.readWord_cut, ↓State.setStaging_cut, ↓State.chunkFailed_cut, ↓State.stageFlush_cut, m_regs, m_evt, m_fst, m_bnk, m_mag, m_thc, m_out])

theorem State.ingestChunkEnd_cut {m : Area → Bool} (s : State) (e : ℕ) (c : ℕ) (idx : ℕ) (k : ℕ) (m_regs : m .regs := by assumption) (m_hst : m .hst := by assumption) (m_stg : m .stg := by assumption) (m_tabs : m .tabs := by assumption) (m_evt : m .evt := by assumption) (m_rdg : m .rdg := by assumption) (m_links : m .links := by assumption) (m_win : m .win := by assumption) (m_mag : m .mag := by assumption) (m_out : m .out := by assumption) :
    (State.ingestChunkEnd s e c idx k).cut m = s.cut m := by
  unfold State.ingestChunkEnd
  repeat' (first | split | simp only [↓State.bump_cut, ↓State.setAppend_cut, ↓State.appendWrite_cut, m_regs, m_hst, m_stg, m_tabs, m_evt, m_rdg, m_links, m_win, m_mag, m_out])

theorem State.appendData_cut {m : Area → Bool} (s : State) (c : ℕ) (idx : ℕ) (bytes : List Byte) (m_mag : m .mag := by assumption) :
    (State.appendData s c idx bytes).cut m = s.cut m := by
  unfold State.appendData
  repeat' (first | split | simp only [↓State.setAppend_cut, m_mag])

theorem State.operationEnd_cut {m : Area → Bool} (s : State) (e : ℕ) (m_regs : m .regs := by assumption) (m_hst : m .hst := by assumption) (m_stg : m .stg := by assumption) (m_tabs : m .tabs := by assumption) (m_evt : m .evt := by assumption) (m_rdg : m .rdg := by assumption) (m_fst : m .fst := by assumption) (m_links : m .links := by assumption) (m_bnk : m .bnk := by assumption) (m_win : m .win := by assumption) (m_mag : m .mag := by assumption) (m_thc : m .thc := by assumption) (m_out : m .out := by assumption) :
    (State.operationEnd s e).cut m = s.cut m := by
  unfold State.operationEnd
  repeat' (first | split | simp only [↓State.setEngine_cut, ↓State.thcPause_cut, ↓State.jobEnd_cut, ↓State.stageChunkEnd_cut, ↓State.ingestChunkEnd_cut, m_regs, m_hst, m_stg, m_tabs, m_evt, m_rdg, m_fst, m_links, m_bnk, m_win, m_mag, m_thc, m_out])

theorem execThcOperationEnd_cut {m : Area → Bool} (e : Fin 2) (s : State) (m_regs : m .regs := by assumption) (m_hst : m .hst := by assumption) (m_stg : m .stg := by assumption) (m_tabs : m .tabs := by assumption) (m_evt : m .evt := by assumption) (m_rdg : m .rdg := by assumption) (m_fst : m .fst := by assumption) (m_links : m .links := by assumption) (m_bnk : m .bnk := by assumption) (m_win : m .win := by assumption) (m_mag : m .mag := by assumption) (m_thc : m .thc := by assumption) (m_out : m .out := by assumption) :
    outCut m (execThcOperationEnd e s) = some (s.cut m) := by
  unfold execThcOperationEnd
  simp only [↓State.operationEnd_cut, ↓apply_ite (State.cut m), ite_self, ↓outCut_next, ↓apply_ite (outCut m), m_regs, m_hst, m_stg, m_tabs, m_evt, m_rdg, m_fst, m_links, m_bnk, m_win, m_mag, m_thc, m_out]

theorem State.writeThcCfg_cut {m : Area → Bool} (s : State) (v : Word) (m_regs : m .regs := by assumption) (m_evt : m .evt := by assumption) :
    (State.writeThcCfg s v).cut m = s.cut m := by
  unfold State.writeThcCfg
  simp only [↓State.setReg_cut, ↓State.event_cut, ↓apply_ite (State.cut m), ite_self, m_regs, m_evt]

theorem execThcCfgWrite_cut {m : Area → Bool} (v : Word) (s : State) (m_regs : m .regs := by assumption) (m_pwr : m .pwr := by assumption) (m_evt : m .evt := by assumption) (m_links : m .links := by assumption) (m_out : m .out := by assumption) :
    outCut m (execThcCfgWrite v s) = some (s.cut m) := by
  unfold execThcCfgWrite
  repeat' (first | (refine congrArg some ?_) | (with_reducible refine (State.viaReg_cut (h_f := fun y0 => ?_) (s := _) (off := _) (v := _)).trans ?_) | split | simp only [↓State.writeThcCfg_cut, m_regs, m_pwr, m_evt, m_links, m_out])

theorem State.writeThcBist_cut {m : Area → Bool} (s : State) (e : ℕ) (v : Word) (m_regs : m .regs := by assumption) (m_evt : m .evt := by assumption) (m_thc : m .thc := by assumption) :
    (State.writeThcBist s e v).cut m = s.cut m := by
  unfold State.writeThcBist
  simp only [↓State.setF_cut, ↓State.event_cut, ↓State.setEngine_cut, ↓apply_ite (State.cut m), ite_self, m_regs, m_evt, m_thc]

theorem execThcBistGo_cut {m : Area → Bool} (e : Fin 2) (v : Word) (s : State) (m_regs : m .regs := by assumption) (m_pwr : m .pwr := by assumption) (m_evt : m .evt := by assumption) (m_links : m .links := by assumption) (m_thc : m .thc := by assumption) (m_out : m .out := by assumption) :
    outCut m (execThcBistGo e v s) = some (s.cut m) := by
  unfold execThcBistGo
  repeat' (first | (refine congrArg some ?_) | (with_reducible refine (State.viaReg_cut (h_f := fun y0 => ?_) (s := _) (off := _) (v := _)).trans ?_) | split | simp only [↓State.writeThcBist_cut, m_regs, m_pwr, m_evt, m_links, m_thc, m_out])

theorem State.thcTested_cut {m : Area → Bool} (s : State) (e : ℕ) (ok : Bool) (m_regs : m .regs := by assumption) (m_hst : m .hst := by assumption) (m_evt : m .evt := by assumption) (m_rdg : m .rdg := by assumption) (m_links : m .links := by assumption) (m_thc : m .thc := by assumption) (m_out : m .out := by assumption) :
    (State.thcTested s e ok).cut m = s.cut m := by
  unfold State.thcTested
  simp only [↓State.setF_cut, ↓State.event_cut, ↓State.clearReady_cut, ↓State.setEngine_cut, ↓apply_ite (State.cut m), ite_self, m_regs, m_hst, m_evt, m_rdg, m_links, m_thc, m_out]

theorem State.endThcBist_cut {m : Area → Bool} (s : State) (e : ℕ) (ok : Bool) (m_regs : m .regs := by assumption) (m_hst : m .hst := by assumption) (m_evt : m .evt := by assumption) (m_rdg : m .rdg := by assumption) (m_links : m .links := by assumption) (m_thc : m .thc := by assumption) (m_out : m .out := by assumption) :
    (State.endThcBist s e ok).cut m = s.cut m := by
  unfold State.endThcBist
  simp only [↓State.thcTested_cut, ↓apply_ite (State.cut m), ite_self, m_regs, m_hst, m_evt, m_rdg, m_links, m_thc, m_out]

theorem execBistEnd_cut {m : Area → Bool} (unit : Fin 3) (ok : Bool) (s : State) (m_regs : m .regs := by assumption) (m_hst : m .hst := by assumption) (m_evt : m .evt := by assumption) (m_rdg : m .rdg := by assumption) (m_links : m .links := by assumption) (m_thc : m .thc := by assumption) (m_out : m .out := by assumption) :
    outCut m (execBistEnd unit ok s) = some (s.cut m) := by
  unfold execBistEnd
  simp only [↓State.endSwgBist_cut, ↓State.endThcBist_cut, ↓apply_ite (State.cut m), ite_self, ↓outCut_next, ↓apply_ite (outCut m), m_regs, m_hst, m_evt, m_rdg, m_links, m_thc, m_out]

theorem State.setSensor_cut {m : Area → Bool} (s : State) (n : Nat) (x2 : Sensor) (m_thm : m .thm := by assumption) :
    (State.setSensor s n x2).cut m = s.cut m := by
  unfold State.setSensor
  simp only [↓State.onThm_cut, m_thm]

theorem State.setSensState_cut {m : Area → Bool} (s : State) (n : ℕ) (st : ℕ) (m_regs : m .regs := by assumption) :
    (State.setSensState s n st).cut m = s.cut m := by
  unfold State.setSensState
  simp only [↓State.setReg_cut, ↓State.setF_cut, ↓apply_ite (State.cut m), ite_self, m_regs]

theorem State.takeReading_cut {m : Area → Bool} (s : State) (n : ℕ) (t : ℤ) (m_regs : m .regs := by assumption) (m_thm : m .thm := by assumption) :
    (State.takeReading s n t).cut m = s.cut m := by
  unfold State.takeReading
  simp only [↓State.setF_cut, ↓State.setSensor_cut, ↓apply_ite (State.cut m), ite_self, m_regs, m_thm]

theorem State.convert_cut {m : Area → Bool} (s : State) (n : ℕ) (r : SensorRead) (m_regs : m .regs := by assumption) (m_evt : m .evt := by assumption) (m_thm : m .thm := by assumption) :
    (State.convert s n r).cut m = s.cut m := by
  unfold State.convert
  simp only [↓State.event_cut, ↓State.setSensState_cut, ↓State.takeReading_cut, ↓apply_ite (State.cut m), ite_self, m_regs, m_evt, m_thm]

theorem State.crossCheck_cut {m : Area → Bool} (v : List Bool) (s : State) (n : ℕ) (m_regs : m .regs := by assumption) (m_evt : m .evt := by assumption) (m_thm : m .thm := by assumption) :
    (State.crossCheck v s n).cut m = s.cut m := by
  unfold State.crossCheck
  repeat' (first | split | simp only [↓State.bump_cut, ↓State.event_cut, ↓State.setSensor_cut, ↓State.setSensState_cut, m_regs, m_evt, m_thm])

theorem State.setThrottle_cut {m : Area → Bool} (s : State) (n : ℕ) (sensor : ℕ) (m_regs : m .regs := by assumption) (m_evt : m .evt := by assumption) :
    (State.setThrottle s n sensor).cut m = s.cut m := by
  unfold State.setThrottle
  simp only [↓State.setF_cut, ↓State.bump_cut, ↓State.event_cut, ↓State.thcRelease_cut, ↓apply_ite (State.cut m), ite_self, m_regs, m_evt]

theorem State.evalThrottle_cut {m : Area → Bool} (s : State) (sensor : ℕ) (m_regs : m .regs := by assumption) (m_evt : m .evt := by assumption) (m_thm : m .thm := by assumption) :
    (State.evalThrottle s sensor).cut m = s.cut m := by
  unfold State.evalThrottle
  simp only [↓State.onThm_cut, ↓State.setThrottle_cut, ↓apply_ite (State.cut m), ite_self, m_regs, m_evt, m_thm]

theorem State.evalWarn_cut {m : Area → Bool} (s : State) (m_regs : m .regs := by assumption) (m_evt : m .evt := by assumption) :
    (State.evalWarn s).cut m = s.cut m := by
  unfold State.evalWarn
  repeat' (first | split | simp only [↓State.setF_cut, ↓State.bump_cut, ↓State.event_cut, m_regs, m_evt])

theorem State.evalRates_cut {m : Area → Bool} (s : State) (m_regs : m .regs := by assumption) (m_evt : m .evt := by assumption) (m_thm : m .thm := by assumption) :
    (State.evalRates s).cut m = s.cut m := by
  unfold State.evalRates
  simp only [↓State.setF_cut, ↓State.onThm_cut, ↓State.event_cut, ↓apply_ite (State.cut m), ite_self, m_regs, m_evt, m_thm]

theorem State.evalCases_cut {m : Area → Bool} (s : State) (v : List Bool) (m_regs : m .regs := by assumption) (m_hst : m .hst := by assumption) (m_evt : m .evt := by assumption) (m_rdg : m .rdg := by assumption) (m_links : m .links := by assumption) (m_thm : m .thm := by assumption) (m_out : m .out := by assumption) :
    (State.evalCases s v).cut m = s.cut m := by
  unfold State.evalCases
  repeat' (first | split | simp only [↓State.setF_cut, ↓State.onThm_cut, ↓State.alarm_cut, m_regs, m_hst, m_evt, m_rdg, m_links, m_thm, m_out])

theorem State.evalFast_cut {m : Area → Bool} (s : State) (m_regs : m .regs := by assumption) :
    (State.evalFast s).cut m = s.cut m := by
  unfold State.evalFast
  repeat' (first | split | simp only [↓State.setF_cut, m_regs])

theorem State.evalBands_cut {m : Area → Bool} (s : State) (m_regs : m .regs := by assumption) (m_evt : m .evt := by assumption) (m_thm : m .thm := by assumption) :
    (State.evalBands s).cut m = s.cut m := by
  unfold State.evalBands
  repeat' (first | (with_reducible refine (foldl_cut _ _ _ fun s x => ?_).trans ?_) | split | simp only [↓State.onThm_cut, ↓State.event_cut, m_regs, m_evt, m_thm])

theorem State.throttleTimer_cut {m : Area → Bool} (s : State) (m_regs : m .regs := by assumption) (m_evt : m .evt := by assumption) :
    (State.throttleTimer s).cut m = s.cut m := by
  unfold State.throttleTimer
  simp only [↓State.setThrottle_cut, ↓apply_ite (State.cut m), ite_self, m_regs, m_evt]

theorem State.evalShutdown_cut {m : Area → Bool} (s : State) (l : List ℕ) (m_regs : m .regs := by assumption) (m_rst : m .rst := by assumption) (m_pwr : m .pwr := by assumption) (m_hst : m .hst := by assumption) (m_stg : m .stg := by assumption) (m_evt : m .evt := by assumption) (m_gen : m .gen := by assumption) (m_rdg : m .rdg := by assumption) (m_links : m .links := by assumption) (m_thm : m .thm := by assumption) (m_drv : m .drv := by assumption) (m_cal : m .cal := by assumption) (m_pnl : m .pnl := by assumption) (m_bnk : m .bnk := by assumption) (m_mag : m .mag := by assumption) (m_thc : m .thc := by assumption) (m_relay : m .relay := by assumption) (m_freeN : m .freeN := by assumption) (m_out : m .out := by assumption) :
    (State.evalShutdown s l).cut m = s.cut m := by
  unfold State.evalShutdown
  simp only [↓State.thermalShutdown_cut, ↓apply_ite (State.cut m), ite_self, m_regs, m_rst, m_pwr, m_hst, m_stg, m_evt, m_gen, m_rdg, m_links, m_thm, m_drv, m_cal, m_pnl, m_bnk, m_mag, m_thc, m_relay, m_freeN, m_out]

theorem State.evalRefresh_cut {m : Area → Bool} (s : State) (k : ℕ) (m_regs : m .regs := by assumption) (m_evt : m .evt := by assumption) :
    (State.evalRefresh s k).cut m = s.cut m := by
  unfold State.evalRefresh
  simp only [↓State.setF_cut, ↓State.event_cut, ↓apply_ite (State.cut m), ite_self, m_regs, m_evt]

theorem State.evalLimits_cut {m : Area → Bool} (s : State) (l : List ℕ) (m_regs : m .regs := by assumption) (m_rst : m .rst := by assumption) (m_pwr : m .pwr := by assumption) (m_hst : m .hst := by assumption) (m_stg : m .stg := by assumption) (m_evt : m .evt := by assumption) (m_gen : m .gen := by assumption) (m_rdg : m .rdg := by assumption) (m_links : m .links := by assumption) (m_thm : m .thm := by assumption) (m_drv : m .drv := by assumption) (m_cal : m .cal := by assumption) (m_pnl : m .pnl := by assumption) (m_bnk : m .bnk := by assumption) (m_mag : m .mag := by assumption) (m_thc : m .thc := by assumption) (m_relay : m .relay := by assumption) (m_freeN : m .freeN := by assumption) (m_out : m .out := by assumption) :
    (State.evalLimits s l).cut m = s.cut m := by
  unfold State.evalLimits
  simp only [↓State.evalThrottle_cut, ↓State.evalWarn_cut, ↓State.evalShutdown_cut, ↓apply_ite (State.cut m), ite_self, m_regs, m_rst, m_pwr, m_hst, m_stg, m_evt, m_gen, m_rdg, m_links, m_thm, m_drv, m_cal, m_pnl, m_bnk, m_mag, m_thc, m_relay, m_freeN, m_out]

theorem State.sweep_cut {m : Area → Bool} (s : State) (reads : List SensorRead) (m_regs : m .regs := by assumption) (m_rst : m .rst := by assumption) (m_pwr : m .pwr := by assumption) (m_hst : m .hst := by assumption) (m_stg : m .stg := by assumption) (m_evt : m .evt := by assumption) (m_gen : m .gen := by assumption) (m_rdg : m .rdg := by assumption) (m_links : m .links := by assumption) (m_thm : m .thm := by assumption) (m_drv : m .drv := by assumption) (m_cal : m .cal := by assumption) (m_pnl : m .pnl := by assumption) (m_bnk : m .bnk := by assumption) (m_mag : m .mag := by assumption) (m_thc : m .thc := by assumption) (m_relay : m .relay := by assumption) (m_freeN : m .freeN := by assumption) (m_out : m .out := by assumption) :
    (State.sweep s reads).cut m = s.cut m := by
  unfold State.sweep
  repeat' (first | (with_reducible refine (foldl_cut _ _ _ fun s x => ?_).trans ?_) | split | simp only [↓State.convert_cut, ↓State.crossCheck_cut, ↓State.evalRates_cut, ↓State.evalCases_cut, ↓State.evalFast_cut, ↓State.evalBands_cut, ↓State.evalLimits_cut, m_regs, m_rst, m_pwr, m_hst, m_stg, m_evt, m_gen, m_rdg, m_links, m_thm, m_drv, m_cal, m_pnl, m_bnk, m_mag, m_thc, m_relay, m_freeN, m_out])

theorem State.readStack_cut {m : Area → Bool} (s : State) (i : ℕ) (r : StackRead) (m_regs : m .regs := by assumption) (m_thm : m .thm := by assumption) :
    (State.readStack s i r).cut m = s.cut m := by
  unfold State.readStack
  simp only [↓State.setF_cut, ↓State.setSensor_cut, ↓State.setSensState_cut, ↓apply_ite (State.cut m), ite_self, m_regs, m_thm]

theorem State.compareStack_cut {m : Area → Bool} (s : State) (k : ℕ) (m_regs : m .regs := by assumption) (m_evt : m .evt := by assumption) (m_thm : m .thm := by assumption) :
    (State.compareStack s k).cut m = s.cut m := by
  unfold State.compareStack
  simp only [↓State.onThm_cut, ↓State.event_cut, ↓apply_ite (State.cut m), ite_self, m_regs, m_evt, m_thm]

theorem State.stackSensors_cut {m : Area → Bool} (s : State) (reads : List StackRead) (m_regs : m .regs := by assumption) (m_rst : m .rst := by assumption) (m_pwr : m .pwr := by assumption) (m_hst : m .hst := by assumption) (m_stg : m .stg := by assumption) (m_evt : m .evt := by assumption) (m_gen : m .gen := by assumption) (m_rdg : m .rdg := by assumption) (m_links : m .links := by assumption) (m_thm : m .thm := by assumption) (m_drv : m .drv := by assumption) (m_cal : m .cal := by assumption) (m_pnl : m .pnl := by assumption) (m_bnk : m .bnk := by assumption) (m_mag : m .mag := by assumption) (m_thc : m .thc := by assumption) (m_relay : m .relay := by assumption) (m_freeN : m .freeN := by assumption) (m_out : m .out := by assumption) :
    (State.stackSensors s reads).cut m = s.cut m := by
  unfold State.stackSensors
  repeat' (first | (with_reducible refine (foldl_cut _ _ _ fun s x => ?_).trans ?_) | split | simp only [↓State.evalRefresh_cut, ↓State.evalLimits_cut, ↓State.readStack_cut, ↓State.compareStack_cut, m_regs, m_rst, m_pwr, m_hst, m_stg, m_evt, m_gen, m_rdg, m_links, m_thm, m_drv, m_cal, m_pnl, m_bnk, m_mag, m_thc, m_relay, m_freeN, m_out])

theorem execSweepRateRestore_cut {m : Area → Bool} (s : State) (m_regs : m .regs := by assumption) :
    outCut m (execSweepRateRestore s) = some (s.cut m) := by
  unfold execSweepRateRestore
  repeat' (first | (refine congrArg some ?_) | split | simp only [↓State.setF_cut, m_regs])

theorem execOdtCompute_cut {m : Area → Bool} (s : State) (m_regs : m .regs := by assumption) (m_thm : m .thm := by assumption) (m_drv : m .drv := by assumption) :
    outCut m (execOdtCompute s) = some (s.cut m) := by
  unfold execOdtCompute
  repeat' (first | (refine congrArg some ?_) | (with_reducible refine (foldl_cut _ _ _ fun s x => ?_).trans ?_) | split | simp only [↓State.setF_cut, ↓State.setDriver_cut, ↓State.onThm_cut, m_regs, m_thm, m_drv])

theorem State.writeOdtHost_cut {m : Area → Bool} (s : State) (v : Word) (m_regs : m .regs := by assumption) (m_thm : m .thm := by assumption) :
    (State.writeOdtHost s v).cut m = s.cut m := by
  unfold State.writeOdtHost
  simp only [↓State.setReg_cut, ↓State.onThm_cut, ↓apply_ite (State.cut m), ite_self, m_regs, m_thm]

theorem execThmOdtHostWrite_cut {m : Area → Bool} (v : Word) (s : State) (m_regs : m .regs := by assumption) (m_pwr : m .pwr := by assumption) (m_evt : m .evt := by assumption) (m_links : m .links := by assumption) (m_thm : m .thm := by assumption) (m_out : m .out := by assumption) :
    outCut m (execThmOdtHostWrite v s) = some (s.cut m) := by
  unfold execThmOdtHostWrite
  repeat' (first | (refine congrArg some ?_) | (with_reducible refine (State.viaReg_cut (h_f := fun y0 => ?_) (s := _) (off := _) (v := _)).trans ?_) | split | simp only [↓State.writeOdtHost_cut, m_regs, m_pwr, m_evt, m_links, m_thm, m_out])

theorem State.syncEadc_cut {m : Area → Bool} (s : State) (m_regs : m .regs := by assumption) :
    (State.syncEadc s).cut m = s.cut m := by
  unfold State.syncEadc
  simp only [↓State.setF_cut, ↓apply_ite (State.cut m), ite_self, m_regs]

theorem execAdcRefCorrect_cut {m : Area → Bool} (s : State) (m_regs : m .regs := by assumption) (m_thm : m .thm := by assumption) :
    outCut m (execAdcRefCorrect s) = some (s.cut m) := by
  unfold execAdcRefCorrect
  simp only [↓State.onThm_cut, ↓State.syncEadc_cut, ↓apply_ite (State.cut m), ite_self, ↓outCut_next, ↓apply_ite (outCut m), m_regs, m_thm]

theorem State.onTmk_cut {m : Area → Bool} (s : State) (f : MeterState → MeterState) (m_tmk : m .tmk = true := by assumption)
    (m_relay : m .relay = true := by assumption) : (s.onTmk f).cut m = s.cut m := by
  simp only [State.cut, State.onTmk, m_relay, m_tmk, if_true]

theorem State.setRelays_cut {m : Area → Bool} (s : State) (l : List (Nat × Nat × List Byte)) (r : Option (List Byte))
    (m_relay : m .relay = true := by assumption) : (s.setRelays l r).cut m = s.cut m := by
  cases h : m .tmk <;> simp only [State.cut, State.setRelays, m_relay, h, if_true, Bool.false_eq_true, if_false]

theorem State.tmkLog_cut {m : Area → Bool} (s : State) (recs : List LogRec) (m_tmk : m .tmk := by assumption) (m_relay : m .relay := by assumption) :
    (State.tmkLog s recs).cut m = s.cut m := by
  unfold State.tmkLog
  simp only [↓State.onTmk_cut, ↓apply_ite (State.cut m), ite_self, m_tmk, m_relay]

theorem State.storeBlock_cut {m : Area → Bool} {s t : State} {ok : Bool} {audit : Nat} {mid : List Byte} {gref xtal : Nat}
    {tail : List Byte} (e : s.storeBlock ok audit mid gref xtal tail = some t) (m_tmk : m .tmk = true := by assumption)
    (m_relay : m .relay = true := by assumption) : t.cut m = s.cut m := by
  revert e
  unfold State.storeBlock
  intro e
  split at e
  · contradiction
  · injection e with e
    exact (congrArg (State.cut m) e.symm).trans (State.onTmk_cut _ _)

theorem State.closePeriod_cut {m : Area → Bool} (s : State) (m_tmk : m .tmk := by assumption) (m_relay : m .relay := by assumption) :
    (State.closePeriod s).cut m = s.cut m := by
  unfold State.closePeriod
  simp only [↓State.onTmk_cut, ↓State.tmkLog_cut, ↓apply_ite (State.cut m), ite_self, m_tmk, m_relay]

theorem State.meterSecond_cut {m : Area → Bool} (s : State) (samples : List MeterSample) (m_tmk : m .tmk := by assumption) (m_relay : m .relay := by assumption) :
    (State.meterSecond s samples).cut m = s.cut m := by
  unfold State.meterSecond
  simp only [↓State.onTmk_cut, ↓State.closePeriod_cut, ↓apply_ite (State.cut m), ite_self, m_tmk, m_relay]

theorem execMeterSecond_cut {m : Area → Bool} (samples : List MeterSample) (s : State) (m_tmk : m .tmk := by assumption) (m_relay : m .relay := by assumption) :
    outCut m (execMeterSecond samples s) = some (s.cut m) := by
  unfold execMeterSecond
  simp only [↓State.meterSecond_cut, ↓apply_ite (State.cut m), ite_self, ↓outCut_next, ↓apply_ite (outCut m), m_tmk, m_relay]

theorem execVddTmkDrop_cut {m : Area → Bool} (r : PowerCut) (s : State) (m_tmk : m .tmk := by assumption) (m_relay : m .relay := by assumption) :
    outCut m (execVddTmkDrop r s) = some (s.cut m) := by
  unfold execVddTmkDrop
  repeat' (first | (refine congrArg some ?_) | split | simp only [↓State.onTmk_cut, ↓State.tmkLog_cut, m_tmk, m_relay])

theorem State.meterUp_cut {m : Area → Bool} (s : State) (m_tmk : m .tmk := by assumption) (m_relay : m .relay := by assumption) :
    (State.meterUp s).cut m = s.cut m := by
  unfold State.meterUp
  repeat' (first | split | simp only [↓State.onTmk_cut, ↓State.tmkLog_cut, m_tmk, m_relay])

theorem execVddTmkPowerUp_cut {m : Area → Bool} (s : State) (m_tmk : m .tmk := by assumption) (m_relay : m .relay := by assumption) :
    outCut m (execVddTmkPowerUp s) = some (s.cut m) := by
  unfold execVddTmkPowerUp
  simp only [↓State.meterUp_cut, ↓apply_ite (State.cut m), ite_self, ↓outCut_next, ↓apply_ite (outCut m), m_tmk, m_relay]

theorem State.ansIdent_cut {m : Area → Bool} (s : State) :
    (State.ansIdent s).1.cut m = s.cut m := by
  unfold State.ansIdent
  simp only [↓apply_ite (State.cut m), ite_self]

theorem State.ansNow_cut {m : Area → Bool} (s : State) :
    (State.ansNow s).1.cut m = s.cut m := by
  unfold State.ansNow
  simp only [↓apply_ite (State.cut m), ite_self]

theorem State.ansLog_cut {m : Area → Bool} (s : State) (pl : List Byte) :
    (State.ansLog s pl).1.cut m = s.cut m := by
  unfold State.ansLog
  repeat' (first | split | simp only [])

theorem State.ansWrite_cut {m : Area → Bool} (s : State) (src : Nat) (pl : List Byte) (ok : Bool) (m_tmk : m .tmk := by assumption) (m_relay : m .relay := by assumption) :
    (State.ansWrite s src pl ok).1.cut m = s.cut m := by
  unfold State.ansWrite
  split
  · rfl
  · split
    · rfl
    · exact (State.tmkLog_cut _ _).trans (State.storeBlock_cut ‹_›)

theorem State.ansSeal_cut {m : Area → Bool} (s : State) (src : Nat) (pl : List Byte) (ok : Bool) (m_tmk : m .tmk := by assumption) (m_relay : m .relay := by assumption) :
    (State.ansSeal s src pl ok).1.cut m = s.cut m := by
  unfold State.ansSeal
  dsimp only
  split
  · rfl
  · split
    · rfl
    · split
      · exact State.onTmk_cut _ _
      · exact (State.tmkLog_cut _ _).trans ((State.storeBlock_cut ‹_›).trans (State.onTmk_cut _ _))

theorem State.ansWall_cut {m : Area → Bool} (s : State) (pl : List Byte) (m_tmk : m .tmk := by assumption) (m_relay : m .relay := by assumption) :
    (State.ansWall s pl).1.cut m = s.cut m := by
  unfold State.ansWall
  simp only [↓State.onTmk_cut, ↓State.tmkLog_cut, ↓apply_ite (State.cut m), ite_self, m_tmk, m_relay]

theorem State.ansNote_cut {m : Area → Bool} (s : State) (src : ℕ) (pl : List Byte) (m_tmk : m .tmk := by assumption) (m_relay : m .relay := by assumption) :
    (State.ansNote s src pl).1.cut m = s.cut m := by
  unfold State.ansNote
  simp only [↓State.tmkLog_cut, ↓apply_ite (State.cut m), ite_self, m_tmk, m_relay]

theorem State.ansCal_cut {m : Area → Bool} (s : State) :
    (State.ansCal s).1.cut m = s.cut m := by
  unfold State.ansCal
  simp only [↓apply_ite (State.cut m), ite_self]

theorem State.ansApply_cut {m : Area → Bool} (s : State) (src : Nat) (pl : List Byte) (ok : Bool) (m_tmk : m .tmk := by assumption) (m_relay : m .relay := by assumption) :
    (State.ansApply s src pl ok).1.cut m = s.cut m := by
  unfold State.ansApply
  dsimp only
  split
  · rfl
  · split
    · rfl
    · split
      · rfl
      · exact (State.tmkLog_cut _ _).trans (State.storeBlock_cut ‹_›)

theorem State.tmkServe_cut {m : Area → Bool} (s : State) (src : ℕ) (cmd : ℕ) (pl : List Byte) (ok : Bool) (m_tmk : m .tmk := by assumption) (m_relay : m .relay := by assumption) :
    (State.tmkServe s src cmd pl ok).1.cut m = s.cut m := by
  unfold State.tmkServe
  repeat' (first | split | simp only [↓State.ansIdent_cut, ↓State.ansNow_cut, ↓State.ansLog_cut, ↓State.ansWrite_cut, ↓State.ansSeal_cut, ↓State.ansWall_cut, ↓State.ansNote_cut, ↓State.ansCal_cut, ↓State.ansApply_cut, m_tmk, m_relay])

theorem State.tmkAnswer_cut {m : Area → Bool} (s : State) (src : ℕ) (seq : ℕ) (st : ℕ) (pl : List Byte) (m_tmk : m .tmk := by assumption) (m_relay : m .relay := by assumption) (m_out : m .out := by assumption) :
    (State.tmkAnswer s src seq st pl).cut m = s.cut m := by
  unfold State.tmkAnswer
  simp only [↓State.emit_cut, ↓State.onTmk_cut, ↓apply_ite (State.cut m), ite_self, m_tmk, m_relay, m_out]

theorem State.tmkRequest_cut {m : Area → Bool} (s : State) (r : MeterReq) (cmd : Nat) (p : List Byte → Bool) (ok : Bool) (m_tmk : m .tmk := by assumption) (m_relay : m .relay := by assumption) (m_out : m .out := by assumption) :
    (State.tmkRequest s r cmd p ok).cut m = s.cut m := by
  unfold State.tmkRequest
  repeat' (first | split | simp only [↓State.emit_cut, ↓State.tmkServe_cut, ↓State.tmkAnswer_cut, m_tmk, m_relay, m_out])

theorem execIdent_cut {m : Area → Bool} (r : MeterReq) (s : State) (m_tmk : m .tmk := by assumption) (m_relay : m .relay := by assumption) (m_out : m .out := by assumption) :
    outCut m (execIdent r s) = some (s.cut m) := by
  unfold execIdent
  simp only [↓State.tmkRequest_cut, ↓apply_ite (State.cut m), ite_self, ↓outCut_next, ↓apply_ite (outCut m), m_tmk, m_relay, m_out]

theorem execReadNow_cut {m : Area → Bool} (r : MeterReq) (s : State) (m_tmk : m .tmk := by assumption) (m_relay : m .relay := by assumption) (m_out : m .out := by assumption) :
    outCut m (execReadNow r s) = some (s.cut m) := by
  unfold execReadNow
  simp only [↓State.tmkRequest_cut, ↓outCut_next, m_tmk, m_relay, m_out]

theorem execReadLog_cut {m : Area → Bool} (r : MeterReq) (s : State) (m_tmk : m .tmk := by assumption) (m_relay : m .relay := by assumption) (m_out : m .out := by assumption) :
    outCut m (execReadLog r s) = some (s.cut m) := by
  unfold execReadLog
  simp only [↓State.tmkRequest_cut, ↓outCut_next, m_tmk, m_relay, m_out]

theorem execReadParam_cut {m : Area → Bool} (r : MeterReq) (s : State) (m_tmk : m .tmk := by assumption) (m_relay : m .relay := by assumption) (m_out : m .out := by assumption) :
    outCut m (execReadParam r s) = some (s.cut m) := by
  unfold execReadParam
  simp only [↓State.tmkRequest_cut, ↓outCut_next, m_tmk, m_relay, m_out]

theorem execWriteParam_cut {m : Area → Bool} (r : MeterReq) (ok : Bool) (s : State) (m_tmk : m .tmk := by assumption) (m_relay : m .relay := by assumption) (m_out : m .out := by assumption) :
    outCut m (execWriteParam r ok s) = some (s.cut m) := by
  unfold execWriteParam
  simp only [↓State.tmkRequest_cut, ↓outCut_next, m_tmk, m_relay, m_out]

theorem execSeal_cut {m : Area → Bool} (r : MeterReq) (ok : Bool) (s : State) (m_tmk : m .tmk := by assumption) (m_relay : m .relay := by assumption) (m_out : m .out := by assumption) :
    outCut m (execSeal r ok s) = some (s.cut m) := by
  unfold execSeal
  simp only [↓State.tmkRequest_cut, ↓outCut_next, m_tmk, m_relay, m_out]

theorem execSetWall_cut {m : Area → Bool} (r : MeterReq) (s : State) (m_tmk : m .tmk := by assumption) (m_relay : m .relay := by assumption) (m_out : m .out := by assumption) :
    outCut m (execSetWall r s) = some (s.cut m) := by
  unfold execSetWall
  simp only [↓State.tmkRequest_cut, ↓outCut_next, m_tmk, m_relay, m_out]

theorem execNote_cut {m : Area → Bool} (r : MeterReq) (s : State) (m_tmk : m .tmk := by assumption) (m_relay : m .relay := by assumption) (m_out : m .out := by assumption) :
    outCut m (execNote r s) = some (s.cut m) := by
  unfold execNote
  simp only [↓State.tmkRequest_cut, ↓outCut_next, m_tmk, m_relay, m_out]

theorem execCalResult_cut {m : Area → Bool} (r : MeterReq) (s : State) (m_tmk : m .tmk := by assumption) (m_relay : m .relay := by assumption) (m_out : m .out := by assumption) :
    outCut m (execCalResult r s) = some (s.cut m) := by
  unfold execCalResult
  simp only [↓State.tmkRequest_cut, ↓outCut_next, m_tmk, m_relay, m_out]

theorem execCalApplyGref_cut {m : Area → Bool} (r : MeterReq) (ok : Bool) (s : State) (m_tmk : m .tmk := by assumption) (m_relay : m .relay := by assumption) (m_out : m .out := by assumption) :
    outCut m (execCalApplyGref r ok s) = some (s.cut m) := by
  unfold execCalApplyGref
  simp only [↓State.tmkRequest_cut, ↓outCut_next, m_tmk, m_relay, m_out]

theorem execCalApplyXtal_cut {m : Area → Bool} (r : MeterReq) (ok : Bool) (s : State) (m_tmk : m .tmk := by assumption) (m_relay : m .relay := by assumption) (m_out : m .out := by assumption) :
    outCut m (execCalApplyXtal r ok s) = some (s.cut m) := by
  unfold execCalApplyXtal
  simp only [↓State.tmkRequest_cut, ↓outCut_next, m_tmk, m_relay, m_out]

theorem execTmkBadRequest_cut {m : Area → Bool} (r : BadReq) (s : State) (m_tmk : m .tmk := by assumption) (m_relay : m .relay := by assumption) (m_out : m .out := by assumption) :
    outCut m (execTmkBadRequest r s) = some (s.cut m) := by
  unfold execTmkBadRequest
  repeat' (first | (refine congrArg some ?_) | split | simp only [↓State.emit_cut, ↓State.tmkAnswer_cut, m_tmk, m_relay, m_out])

theorem execPortReadTransfer_cut {m : Area → Bool} (r : PortRead) (s : State) (m_tmk : m .tmk := by assumption) (m_relay : m .relay := by assumption) (m_out : m .out := by assumption) :
    outCut m (execPortReadTransfer r s) = some (s.cut m) := by
  unfold execPortReadTransfer
  repeat' (first | (refine congrArg some ?_) | split | simp only [↓State.emit_cut, ↓State.onTmk_cut, m_tmk, m_relay, m_out])

theorem execPortWriteTimeout_cut {m : Area → Bool} (s : State) :
    outCut m (execPortWriteTimeout s) = some (s.cut m) := by
  unfold execPortWriteTimeout
  simp only [↓apply_ite (State.cut m), ite_self, ↓outCut_next, ↓apply_ite (outCut m)]

theorem State.relayNext_cut {m : Area → Bool} (s : State) (m_regs : m .regs := by assumption) (m_out : m .out := by assumption) :
    (State.relayNext s).cut m = s.cut m := by
  unfold State.relayNext
  repeat' (first | split | simp only [↓State.setF_cut, ↓State.emit_cut, m_regs, m_out])

theorem State.tmkData_cut {m : Area → Bool} (s : State) (c : ℕ) (idx : ℕ) (bytes : List Byte) (m_regs : m .regs := by assumption) (m_hst : m .hst := by assumption) (m_stg : m .stg := by assumption) (m_tabs : m .tabs := by assumption) (m_evt : m .evt := by assumption) (m_rdg : m .rdg := by assumption) (m_links : m .links := by assumption) (m_win : m .win := by assumption) (m_relay : m .relay := by assumption) (m_out : m .out := by assumption) :
    (State.tmkData s c idx bytes).cut m = s.cut m := by
  unfold State.tmkData
  repeat' (first | split | simp only [↓State.finish_cut, ↓State.setRelays_cut, ↓State.relayNext_cut, m_regs, m_hst, m_stg, m_tabs, m_evt, m_rdg, m_links, m_win, m_relay, m_out])

theorem execTmkRelay_cut {m : Area → Bool} (c : Fin 256) (s : State) (m_hst : m .hst := by assumption) (m_rdg : m .rdg := by assumption) (m_links : m .links := by assumption) (m_out : m .out := by assumption) :
    outCut m (execTmkRelay c s) = some (s.cut m) := by
  unfold execTmkRelay
  repeat' (first | (refine congrArg some ?_) | (with_reducible refine (State.startWith_cut (h_f := fun y0 y1 => ?_) (s := _) (c := _) (p := _)).trans ?_) | split | simp only [↓State.readHost_cut, m_hst, m_rdg, m_links, m_out])

theorem State.endRelay_cut {m : Area → Bool} (s : State) (f : List Byte) (m_regs : m .regs := by assumption) (m_hst : m .hst := by assumption) (m_stg : m .stg := by assumption) (m_tabs : m .tabs := by assumption) (m_evt : m .evt := by assumption) (m_rdg : m .rdg := by assumption) (m_links : m .links := by assumption) (m_win : m .win := by assumption) (m_relay : m .relay := by assumption) (m_out : m .out := by assumption) :
    (State.endRelay s f).cut m = s.cut m := by
  unfold State.endRelay
  repeat' (first | split | simp only [↓State.writeHost_cut, ↓State.finish_cut, ↓State.setRelays_cut, m_regs, m_hst, m_stg, m_tabs, m_evt, m_rdg, m_links, m_win, m_relay, m_out])

theorem execTmkResponse_cut {m : Area → Bool} (s : State) (m_regs : m .regs := by assumption) (m_hst : m .hst := by assumption) (m_stg : m .stg := by assumption) (m_tabs : m .tabs := by assumption) (m_evt : m .evt := by assumption) (m_rdg : m .rdg := by assumption) (m_links : m .links := by assumption) (m_win : m .win := by assumption) (m_relay : m .relay := by assumption) (m_out : m .out := by assumption) :
    outCut m (execTmkResponse s) = some (s.cut m) := by
  unfold execTmkResponse
  repeat' (first | (refine congrArg some ?_) | split | simp only [↓State.setF_cut, ↓State.relayNext_cut, ↓State.endRelay_cut, m_regs, m_hst, m_stg, m_tabs, m_evt, m_rdg, m_links, m_win, m_relay, m_out])

theorem State.relaysDown_cut {m : Area → Bool} (x0 : ℕ) (a1 : State) (m_regs : m .regs := by assumption) (m_hst : m .hst := by assumption) (m_stg : m .stg := by assumption) (m_tabs : m .tabs := by assumption) (m_evt : m .evt := by assumption) (m_rdg : m .rdg := by assumption) (m_links : m .links := by assumption) (m_win : m .win := by assumption) (m_relay : m .relay := by assumption) (m_out : m .out := by assumption) :
    (State.relaysDown x0 a1).cut m = a1.cut m := by
  fun_induction State.relaysDown x0 a1
  repeat' (first | split | simp_all only [↓State.endRelay_cut, m_regs, m_hst, m_stg, m_tabs, m_evt, m_rdg, m_links, m_win, m_relay, m_out])

theorem execTmkRelayTimeout_cut {m : Area → Bool} (s : State) (m_regs : m .regs := by assumption) (m_hst : m .hst := by assumption) (m_stg : m .stg := by assumption) (m_tabs : m .tabs := by assumption) (m_evt : m .evt := by assumption) (m_rdg : m .rdg := by assumption) (m_links : m .links := by assumption) (m_win : m .win := by assumption) (m_relay : m .relay := by assumption) (m_out : m .out := by assumption) :
    outCut m (execTmkRelayTimeout s) = some (s.cut m) := by
  unfold execTmkRelayTimeout
  simp only [↓State.setF_cut, ↓State.event_cut, ↓State.clearReady_cut, ↓State.relaysDown_cut, ↓apply_ite (State.cut m), ite_self, ↓outCut_next, ↓apply_ite (outCut m), m_regs, m_hst, m_stg, m_tabs, m_evt, m_rdg, m_links, m_win, m_relay, m_out]

theorem State.tmkOpen_cut {m : Area → Bool} (s : State) (m_regs : m .regs := by assumption) (m_hst : m .hst := by assumption) (m_rdg : m .rdg := by assumption) (m_links : m .links := by assumption) (m_out : m .out := by assumption) :
    (State.tmkOpen s).cut m = s.cut m := by
  unfold State.tmkOpen
  simp only [↓State.setF_cut, ↓State.setReady_cut, ↓apply_ite (State.cut m), ite_self, m_regs, m_hst, m_rdg, m_links, m_out]

theorem execTmkLinkReturn_cut {m : Area → Bool} (s : State) (m_regs : m .regs := by assumption) (m_hst : m .hst := by assumption) (m_evt : m .evt := by assumption) (m_rdg : m .rdg := by assumption) (m_links : m .links := by assumption) (m_out : m .out := by assumption) :
    outCut m (execTmkLinkReturn s) = some (s.cut m) := by
  unfold execTmkLinkReturn
  simp only [↓State.event_cut, ↓State.tmkOpen_cut, ↓apply_ite (State.cut m), ite_self, ↓outCut_next, ↓apply_ite (outCut m), m_regs, m_hst, m_evt, m_rdg, m_links, m_out]

theorem State.writeDoseClr_cut {m : Area → Bool} (s : State) (v : Word) (m_pipe : m .pipe := by assumption) :
    (State.writeDoseClr s v).cut m = s.cut m := by
  unfold State.writeDoseClr
  simp only [↓State.onPipe_cut, ↓apply_ite (State.cut m), ite_self, m_pipe]

theorem execTmkDoseClr_cut {m : Area → Bool} (v : Word) (s : State) (m_regs : m .regs := by assumption) (m_pwr : m .pwr := by assumption) (m_evt : m .evt := by assumption) (m_links : m .links := by assumption) (m_pipe : m .pipe := by assumption) (m_out : m .out := by assumption) :
    outCut m (execTmkDoseClr v s) = some (s.cut m) := by
  unfold execTmkDoseClr
  repeat' (first | (refine congrArg some ?_) | (with_reducible refine (State.viaReg_cut (h_f := fun y0 => ?_) (s := _) (off := _) (v := _)).trans ?_) | split | simp only [↓State.writeDoseClr_cut, m_regs, m_pwr, m_evt, m_links, m_pipe, m_out])

theorem State.meterProposal_cut {m : Area → Bool} (s : State) (xtal : Bool) (w : Word) (m_tmk : m .tmk := by assumption) (m_relay : m .relay := by assumption) :
    (State.meterProposal s xtal w).cut m = s.cut m := by
  unfold State.meterProposal
  simp only [↓State.onTmk_cut, ↓apply_ite (State.cut m), ite_self, m_tmk, m_relay]

theorem State.setRunStep_cut {m : Area → Bool} (s : State) (r : CalRun) (m_cal : m .cal := by assumption) :
    (State.setRunStep s r).cut m = s.cut m := by
  unfold State.setRunStep
  simp only [↓State.onCal_cut, ↓apply_ite (State.cut m), ite_self, m_cal]

theorem State.calNext_cut {m : Area → Bool} (x0 : ℕ) (a1 : State) (m_drv : m .drv := by assumption) (m_cal : m .cal := by assumption) (m_out : m .out := by assumption) :
    (State.calNext x0 a1).cut m = a1.cut m := by
  fun_induction State.calNext x0 a1
  repeat' (first | (simp_all only [↓State.sendDrv_cut, ↓State.setRunStep_cut, ↓apply_ite (State.cut m), ite_self, m_drv, m_cal, m_out]; done) | split | simp_all only [↓State.sendDrv_cut, ↓State.setRunStep_cut, ↓apply_ite (State.cut m), ite_self, m_drv, m_cal, m_out])

theorem State.beginCal_cut {m : Area → Bool} (s : State) (r : CalRun) (m_regs : m .regs := by assumption) (m_drv : m .drv := by assumption) (m_cal : m .cal := by assumption) (m_out : m .out := by assumption) :
    (State.beginCal s r).cut m = s.cut m := by
  unfold State.beginCal
  simp only [↓State.setF_cut, ↓State.emit_cut, ↓State.setRunStep_cut, ↓State.calNext_cut, ↓apply_ite (State.cut m), ite_self, m_regs, m_drv, m_cal, m_out]

theorem State.calStep_cut {m : Area → Bool} (c : ℕ) (d : Desc) (s : State) (m_regs : m .regs := by assumption) (m_drv : m .drv := by assumption) (m_cal : m .cal := by assumption) (m_out : m .out := by assumption) :
    (State.calStep c d s).cut m = s.cut m := by
  unfold State.calStep
  simp only [↓State.onCal_cut, ↓State.beginCal_cut, ↓apply_ite (State.cut m), ite_self, m_regs, m_drv, m_cal, m_out]

theorem execCalStepAdc_cut {m : Area → Bool} (c : Fin 256) (s : State) (m_regs : m .regs := by assumption) (m_hst : m .hst := by assumption) (m_drv : m .drv := by assumption) (m_cal : m .cal := by assumption) (m_out : m .out := by assumption) :
    outCut m (execCalStepAdc c s) = some (s.cut m) := by
  unfold execCalStepAdc
  repeat' (first | (refine congrArg some ?_) | (with_reducible refine (State.startWith_cut (h_f := fun y0 y1 => ?_) (s := _) (c := _) (p := _)).trans ?_) | split | simp only [↓State.calStep_cut, m_regs, m_hst, m_drv, m_cal, m_out])

theorem execCalStepTimebase_cut {m : Area → Bool} (c : Fin 256) (s : State) (m_regs : m .regs := by assumption) (m_hst : m .hst := by assumption) (m_drv : m .drv := by assumption) (m_cal : m .cal := by assumption) (m_out : m .out := by assumption) :
    outCut m (execCalStepTimebase c s) = some (s.cut m) := by
  unfold execCalStepTimebase
  repeat' (first | (refine congrArg some ?_) | (with_reducible refine (State.startWith_cut (h_f := fun y0 y1 => ?_) (s := _) (c := _) (p := _)).trans ?_) | split | simp only [↓State.calStep_cut, m_regs, m_hst, m_drv, m_cal, m_out])

theorem execCalStepDacRef_cut {m : Area → Bool} (c : Fin 256) (s : State) (m_regs : m .regs := by assumption) (m_hst : m .hst := by assumption) (m_drv : m .drv := by assumption) (m_cal : m .cal := by assumption) (m_out : m .out := by assumption) :
    outCut m (execCalStepDacRef c s) = some (s.cut m) := by
  unfold execCalStepDacRef
  repeat' (first | (refine congrArg some ?_) | (with_reducible refine (State.startWith_cut (h_f := fun y0 y1 => ?_) (s := _) (c := _) (p := _)).trans ?_) | split | simp only [↓State.calStep_cut, m_regs, m_hst, m_drv, m_cal, m_out])

theorem execTmkCalAdc_cut {m : Area → Bool} (c : Fin 256) (s : State) (m_regs : m .regs := by assumption) (m_hst : m .hst := by assumption) (m_drv : m .drv := by assumption) (m_cal : m .cal := by assumption) (m_out : m .out := by assumption) :
    outCut m (execTmkCalAdc c s) = some (s.cut m) := by
  unfold execTmkCalAdc
  repeat' (first | (refine congrArg some ?_) | (with_reducible refine (State.startWith_cut (h_f := fun y0 y1 => ?_) (s := _) (c := _) (p := _)).trans ?_) | split | simp only [↓State.calStep_cut, m_regs, m_hst, m_drv, m_cal, m_out])

theorem execTmkCalCrystal_cut {m : Area → Bool} (c : Fin 256) (s : State) (m_regs : m .regs := by assumption) (m_hst : m .hst := by assumption) (m_drv : m .drv := by assumption) (m_cal : m .cal := by assumption) (m_out : m .out := by assumption) :
    outCut m (execTmkCalCrystal c s) = some (s.cut m) := by
  unfold execTmkCalCrystal
  repeat' (first | (refine congrArg some ?_) | (with_reducible refine (State.startWith_cut (h_f := fun y0 y1 => ?_) (s := _) (c := _) (p := _)).trans ?_) | split | simp only [↓State.calStep_cut, m_regs, m_hst, m_drv, m_cal, m_out])

theorem State.calStart_cut {m : Area → Bool} (s : State) (m_regs : m .regs := by assumption) (m_drv : m .drv := by assumption) (m_cal : m .cal := by assumption) (m_out : m .out := by assumption) :
    (State.calStart s).cut m = s.cut m := by
  unfold State.calStart
  repeat' (first | split | simp only [↓State.onCal_cut, ↓State.beginCal_cut, m_regs, m_drv, m_cal, m_out])

theorem execCalStepStart_cut {m : Area → Bool} (s : State) (m_regs : m .regs := by assumption) (m_drv : m .drv := by assumption) (m_cal : m .cal := by assumption) (m_out : m .out := by assumption) :
    outCut m (execCalStepStart s) = some (s.cut m) := by
  unfold execCalStepStart
  simp only [↓State.calStart_cut, ↓apply_ite (State.cut m), ite_self, ↓outCut_next, ↓apply_ite (outCut m), m_regs, m_drv, m_cal, m_out]

theorem State.endAdc_cut {m : Area → Bool} (s : State) (m1 : CalMeas) (m_regs : m .regs := by assumption) :
    (State.endAdc s m1).2.cut m = s.cut m := by
  unfold State.endAdc
  repeat' (first | split | simp only [↓State.setF_cut, m_regs])

theorem State.endTimebase_cut {m : Area → Bool} (s : State) (gate : ℕ) (m1 : CalMeas) (m_regs : m .regs := by assumption) (m_gen : m .gen := by assumption) :
    (State.endTimebase s gate m1).2.cut m = s.cut m := by
  unfold State.endTimebase
  repeat' (first | split | simp only [↓State.setReg_cut, ↓State.setF_cut, ↓State.onGen_cut, m_regs, m_gen])

theorem State.putRdac_cut {m : Area → Bool} (s : State) (r : CalRun) (g : ℕ) (m_regs : m .regs := by assumption) :
    (State.putRdac s r g).cut m = s.cut m := by
  unfold State.putRdac
  simp only [↓State.setF_cut, ↓apply_ite (State.cut m), ite_self, m_regs]

theorem State.endDac_cut {m : Area → Bool} (s : State) (r : CalRun) (m1 : CalMeas) (m_regs : m .regs := by assumption) :
    (State.endDac s r m1).2.cut m = s.cut m := by
  unfold State.endDac
  repeat' (first | (with_reducible refine (foldl_cut _ _ _ fun s x => ?_).trans ?_) | split | simp only [↓State.putRdac_cut, m_regs])

theorem State.endTmk_cut {m : Area → Bool} (s : State) (arg : ℕ) (m1 : CalMeas) (m_tmk : m .tmk := by assumption) (m_relay : m .relay := by assumption) :
    (State.endTmk s arg m1).2.cut m = s.cut m := by
  unfold State.endTmk
  repeat' (first | split | simp only [↓State.meterProposal_cut, m_tmk, m_relay])

theorem State.runDeferred_cut {m : Area → Bool} (s : State) (m_cal : m .cal := by assumption) (m_pnl : m .pnl := by assumption) (m_out : m .out := by assumption) :
    (State.runDeferred s).cut m = s.cut m := by
  unfold State.runDeferred
  simp only [↓State.onCal_cut, ↓State.crackStart_cut, ↓apply_ite (State.cut m), ite_self, m_cal, m_pnl, m_out]

theorem State.calEnd_cut {m : Area → Bool} (s : State) (m1 : CalMeas) (m_regs : m .regs := by assumption) (m_hst : m .hst := by assumption) (m_stg : m .stg := by assumption) (m_tabs : m .tabs := by assumption) (m_evt : m .evt := by assumption) (m_gen : m .gen := by assumption) (m_rdg : m .rdg := by assumption) (m_links : m .links := by assumption) (m_cal : m .cal := by assumption) (m_pnl : m .pnl := by assumption) (m_win : m .win := by assumption) (m_tmk : m .tmk := by assumption) (m_relay : m .relay := by assumption) (m_out : m .out := by assumption) :
    (State.calEnd s m1).cut m = s.cut m := by
  unfold State.calEnd
  dsimp only
  repeat' (first | rfl | (simp only [↓State.setReg_cut, ↓State.emit_cut, ↓State.onCal_cut, ↓State.event_cut, ↓State.finish_cut, ↓State.endAdc_cut, ↓State.endTimebase_cut, ↓State.endDac_cut, ↓State.endTmk_cut, ↓State.runDeferred_cut, ↓apply_ite (State.cut m), ite_self, m_regs, m_hst, m_stg, m_tabs, m_evt, m_gen, m_rdg, m_links, m_cal, m_pnl, m_win, m_tmk, m_relay, m_out]; done) | split | simp only [↓State.setReg_cut, ↓State.emit_cut, ↓State.onCal_cut, ↓State.event_cut, ↓State.finish_cut, ↓State.endAdc_cut, ↓State.endTimebase_cut, ↓State.endDac_cut, ↓State.endTmk_cut, ↓State.runDeferred_cut, m_regs, m_hst, m_stg, m_tabs, m_evt, m_gen, m_rdg, m_links, m_cal, m_pnl, m_win, m_tmk, m_relay, m_out])

theorem execCalStepEnd_cut {m : Area → Bool} (m1 : CalMeas) (s : State) (m_regs : m .regs := by assumption) (m_hst : m .hst := by assumption) (m_stg : m .stg := by assumption) (m_tabs : m .tabs := by assumption) (m_evt : m .evt := by assumption) (m_gen : m .gen := by assumption) (m_rdg : m .rdg := by assumption) (m_links : m .links := by assumption) (m_cal : m .cal := by assumption) (m_pnl : m .pnl := by assumption) (m_win : m .win := by assumption) (m_tmk : m .tmk := by assumption) (m_relay : m .relay := by assumption) (m_out : m .out := by assumption) :
    outCut m (execCalStepEnd m1 s) = some (s.cut m) := by
  unfold execCalStepEnd
  simp only [↓State.calEnd_cut, ↓apply_ite (State.cut m), ite_self, ↓outCut_next, ↓apply_ite (outCut m), m_regs, m_hst, m_stg, m_tabs, m_evt, m_gen, m_rdg, m_links, m_cal, m_pnl, m_win, m_tmk, m_relay, m_out]

theorem State.calResp_cut {m : Area → Bool} (s : State) (g : ℕ) (data : Option Word) (m_drv : m .drv := by assumption) (m_cal : m .cal := by assumption) (m_out : m .out := by assumption) :
    (State.calResp s g data).cut m = s.cut m := by
  unfold State.calResp
  repeat' (first | split | simp only [↓State.setRunStep_cut, ↓State.calNext_cut, m_drv, m_cal, m_out])

theorem execBatCmdResp_cut {m : Area → Bool} (g : Fin 24) (f : BatResp) (s : State) (m_regs : m .regs := by assumption) (m_evt : m .evt := by assumption) (m_drv : m .drv := by assumption) (m_cal : m .cal := by assumption) (m_out : m .out := by assumption) :
    outCut m (execBatCmdResp g f s) = some (s.cut m) := by
  unfold execBatCmdResp
  repeat' (first | (refine congrArg some ?_) | split | simp only [↓State.bump_cut, ↓State.endDrvCmd_cut, ↓State.frameBack_cut, ↓State.endBatCmd_cut, ↓State.trainResp_cut, ↓State.calResp_cut, m_regs, m_evt, m_drv, m_cal, m_out])

theorem execBatCmdTimeout_cut {m : Area → Bool} (g : Fin 24) (s : State) (m_regs : m .regs := by assumption) (m_evt : m .evt := by assumption) (m_drv : m .drv := by assumption) (m_cal : m .cal := by assumption) (m_out : m .out := by assumption) :
    outCut m (execBatCmdTimeout g s) = some (s.cut m) := by
  unfold execBatCmdTimeout
  repeat' (first | (refine congrArg some ?_) | split | simp only [↓State.setDriver_cut, ↓State.event_cut, ↓State.endDrvCmd_cut, ↓State.endBatCmd_cut, ↓State.setRunStep_cut, m_regs, m_evt, m_drv, m_cal, m_out])

theorem State.applyTrims_cut {m : Area → Bool} (s : State) (old : List Word) (m_regs : m .regs := by assumption) (m_drv : m .drv := by assumption) (m_out : m .out := by assumption) :
    (State.applyTrims s old).cut m = s.cut m := by
  unfold State.applyTrims
  repeat' (first | (with_reducible refine (foldl_cut _ _ _ fun s x => ?_).trans ?_) | split | simp only [↓State.sendDrv_cut, ↓State.syncEadc_cut, m_regs, m_drv, m_out])

theorem State.takeBroadcast_cut {m : Area → Bool} (s : State) (h : RidgeHdr) (code : ℕ) (body : List Byte) (act : State → State) (h_act : ∀ y0, (act y0).cut m = y0.cut m) (m_regs : m .regs := by assumption) (m_rdg : m .rdg := by assumption) (m_links : m .links := by assumption) (m_out : m .out := by assumption) :
    (State.takeBroadcast s h code body act).cut m = s.cut m := by
  unfold State.takeBroadcast
  repeat' (first | split | simp only [↓State.bump_cut, ↓State.onRdg_cut, ↓State.sendAll_cut, h_act, m_regs, m_rdg, m_links, m_out])

theorem State.takeUnicast_cut {m : Area → Bool} (s : State) (h : RidgeHdr) (code : ℕ) (epoch : ℕ) (rest : List Byte) (act : State → State) (h_act : ∀ y0, (act y0).cut m = y0.cut m) (m_regs : m .regs := by assumption) (m_links : m .links := by assumption) (m_out : m .out := by assumption) :
    (State.takeUnicast s h code epoch rest act).cut m = s.cut m := by
  unfold State.takeUnicast
  simp only [↓State.bump_cut, ↓State.linkSend_cut, ↓State.unicast_cut, h_act, ↓apply_ite (State.cut m), ite_self, m_regs, m_links, m_out]

theorem State.setRole_cut {m : Area → Bool} (s : State) (r : ℕ) (e : RoleEntry) (m_rdg : m .rdg := by assumption) :
    (State.setRole s r e).cut m = s.cut m := by
  unfold State.setRole
  simp only [↓State.onRdg_cut, ↓apply_ite (State.cut m), ite_self, m_rdg]

theorem State.announce_cut {m : Area → Bool} (s : State) (m_rdg : m .rdg := by assumption) (m_links : m .links := by assumption) (m_out : m .out := by assumption) :
    (State.announce s).cut m = s.cut m := by
  unfold State.announce
  simp only [↓State.flood_cut, ↓apply_ite (State.cut m), ite_self, m_rdg, m_links, m_out]

theorem execRoleAnnTick_cut {m : Area → Bool} (s : State) (m_rdg : m .rdg := by assumption) (m_links : m .links := by assumption) (m_out : m .out := by assumption) :
    outCut m (execRoleAnnTick s) = some (s.cut m) := by
  unfold execRoleAnnTick
  simp only [↓State.announce_cut, ↓apply_ite (State.cut m), ite_self, ↓outCut_next, ↓apply_ite (outCut m), m_rdg, m_links, m_out]

theorem State.syncMixed_cut {m : Area → Bool} (s : State) (m_regs : m .regs := by assumption) (m_evt : m .evt := by assumption) :
    (State.syncMixed s).cut m = s.cut m := by
  unfold State.syncMixed
  repeat' (first | (with_reducible refine (foldl_cut _ _ _ fun s x => ?_).trans ?_) | split | simp only [↓State.setF_cut, ↓State.event_cut, m_regs, m_evt])

theorem State.syncDiam_cut {m : Area → Bool} (s : State) (m_regs : m .regs := by assumption) (m_evt : m .evt := by assumption) :
    (State.syncDiam s).cut m = s.cut m := by
  unfold State.syncDiam
  repeat' (first | (with_reducible refine (foldl_cut _ _ _ fun s x => ?_).trans ?_) | split | simp only [↓State.setF_cut, ↓State.event_cut, m_regs, m_evt])

theorem State.syncReach_cut {m : Area → Bool} (s : State) (m_regs : m .regs := by assumption) :
    (State.syncReach s).cut m = s.cut m := by
  unfold State.syncReach
  repeat' (first | (with_reducible refine (foldl_cut _ _ _ fun s x => ?_).trans ?_) | split | simp only [↓State.setReg_cut, m_regs])

theorem State.takeHead_cut {m : Area → Bool} (s : State) (m_regs : m .regs := by assumption) (m_rdg : m .rdg := by assumption) (m_links : m .links := by assumption) (m_out : m .out := by assumption) :
    (State.takeHead s).cut m = s.cut m := by
  unfold State.takeHead
  repeat' (first | (with_reducible refine (foldl_cut _ _ _ fun s x => ?_).trans ?_) | split | simp only [↓State.setReg_cut, ↓State.setF_cut, ↓State.onRdg_cut, ↓State.sendTag_cut, m_regs, m_rdg, m_links, m_out])

theorem State.drainHost_cut {m : Area → Bool} (s : State) (m_regs : m .regs := by assumption) (m_rdg : m .rdg := by assumption) (m_links : m .links := by assumption) (m_out : m .out := by assumption) :
    (State.drainHost s).cut m = s.cut m := by
  unfold State.drainHost
  simp only [↓State.takeHead_cut, ↓apply_ite (State.cut m), ite_self, m_regs, m_rdg, m_links, m_out]

theorem State.syncHead_cut {m : Area → Bool} (s : State) (m_regs : m .regs := by assumption) (m_rdg : m .rdg := by assumption) (m_links : m .links := by assumption) (m_out : m .out := by assumption) :
    (State.syncHead s).cut m = s.cut m := by
  unfold State.syncHead
  simp only [↓State.setReg_cut, ↓State.setF_cut, ↓State.onRdg_cut, ↓State.takeHead_cut, ↓apply_ite (State.cut m), ite_self, m_regs, m_rdg, m_links, m_out]

theorem State.noParent_cut {m : Area → Bool} (s : State) (m_regs : m .regs := by assumption) :
    (State.noParent s).cut m = s.cut m := by
  unfold State.noParent
  repeat' (first | (with_reducible refine (foldl_cut _ _ _ fun s x => ?_).trans ?_) | split | simp only [↓State.setF_cut, m_regs])

theorem State.syncFollow_cut {m : Area → Bool} (s : State) (m_regs : m .regs := by assumption) (m_gen : m .gen := by assumption) (m_rdg : m .rdg := by assumption) :
    (State.syncFollow s).cut m = s.cut m := by
  unfold State.syncFollow
  simp only [↓State.onRdg_cut, ↓State.setLock_cut, ↓State.restartLock_cut, ↓apply_ite (State.cut m), ite_self, m_regs, m_gen, m_rdg]

theorem State.setSource_cut {m : Area → Bool} (s : State) (r : ℕ) (m_regs : m .regs := by assumption) (m_evt : m .evt := by assumption) (m_gen : m .gen := by assumption) (m_rdg : m .rdg := by assumption) :
    (State.setSource s r).cut m = s.cut m := by
  unfold State.setSource
  simp only [↓State.setF_cut, ↓State.onGen_cut, ↓State.onRdg_cut, ↓State.event_cut, ↓State.noParent_cut, ↓State.syncFollow_cut, ↓apply_ite (State.cut m), ite_self, m_regs, m_evt, m_gen, m_rdg]

theorem State.syncCand_cut {m : Area → Bool} (s : State) (m_regs : m .regs := by assumption) (m_evt : m .evt := by assumption) (m_gen : m .gen := by assumption) (m_rdg : m .rdg := by assumption) :
    (State.syncCand s).cut m = s.cut m := by
  unfold State.syncCand
  repeat' (first | split | simp only [↓State.setF_cut, ↓State.syncFollow_cut, ↓State.setSource_cut, m_regs, m_evt, m_gen, m_rdg])

theorem State.syncRoles_cut {m : Area → Bool} (s : State) (m_regs : m .regs := by assumption) (m_evt : m .evt := by assumption) (m_gen : m .gen := by assumption) (m_rdg : m .rdg := by assumption) (m_links : m .links := by assumption) (m_out : m .out := by assumption) :
    (State.syncRoles s).cut m = s.cut m := by
  unfold State.syncRoles
  simp only [↓State.syncMixed_cut, ↓State.syncDiam_cut, ↓State.syncReach_cut, ↓State.syncHead_cut, ↓State.syncCand_cut, ↓apply_ite (State.cut m), ite_self, m_regs, m_evt, m_gen, m_rdg, m_links, m_out]

theorem State.electLower_cut {m : Area → Bool} (s : State) (m_regs : m .regs := by assumption) (m_evt : m .evt := by assumption) (m_gen : m .gen := by assumption) (m_rdg : m .rdg := by assumption) :
    (State.electLower s).cut m = s.cut m := by
  unfold State.electLower
  repeat' (first | split | simp only [↓State.setSource_cut, m_regs, m_evt, m_gen, m_rdg])

theorem execTsElection_cut {m : Area → Bool} (s : State) (m_regs : m .regs := by assumption) (m_evt : m .evt := by assumption) (m_gen : m .gen := by assumption) (m_rdg : m .rdg := by assumption) :
    outCut m (execTsElection s) = some (s.cut m) := by
  unfold execTsElection
  simp only [↓State.electLower_cut, ↓apply_ite (State.cut m), ite_self, ↓outCut_next, ↓apply_ite (outCut m), m_regs, m_evt, m_gen, m_rdg]

theorem State.sourceLost_cut {m : Area → Bool} (s : State) (m_regs : m .regs := by assumption) (m_evt : m .evt := by assumption) (m_gen : m .gen := by assumption) (m_rdg : m .rdg := by assumption) :
    (State.sourceLost s).cut m = s.cut m := by
  unfold State.sourceLost
  repeat' (first | split | simp only [↓State.setF_cut, ↓State.onRdg_cut, ↓State.event_cut, ↓State.setSource_cut, m_regs, m_evt, m_gen, m_rdg])

theorem execTsLost_cut {m : Area → Bool} (s : State) (m_regs : m .regs := by assumption) (m_evt : m .evt := by assumption) (m_gen : m .gen := by assumption) (m_rdg : m .rdg := by assumption) :
    outCut m (execTsLost s) = some (s.cut m) := by
  unfold execTsLost
  simp only [↓State.sourceLost_cut, ↓apply_ite (State.cut m), ite_self, ↓outCut_next, ↓apply_ite (outCut m), m_regs, m_evt, m_gen, m_rdg]

theorem State.roleChanged_cut {m : Area → Bool} (s : State) (m_regs : m .regs := by assumption) (m_pwr : m .pwr := by assumption) (m_hst : m .hst := by assumption) (m_evt : m .evt := by assumption) (m_gen : m .gen := by assumption) (m_rdg : m .rdg := by assumption) (m_links : m .links := by assumption) (m_out : m .out := by assumption) :
    (State.roleChanged s).cut m = s.cut m := by
  unfold State.roleChanged
  repeat' (first | (with_reducible refine (foldl_cut _ _ _ fun s x => ?_).trans ?_) | split | simp only [↓State.signal_cut, ↓State.tryPair_cut, ↓State.evalIso_cut, ↓State.syncRoles_cut, m_regs, m_pwr, m_hst, m_evt, m_gen, m_rdg, m_links, m_out])

theorem State.sayUnpaired_cut {m : Area → Bool} (s : State) (mask : ℕ) (m_regs : m .regs := by assumption) (m_evt : m .evt := by assumption) :
    (State.sayUnpaired s mask).cut m = s.cut m := by
  unfold State.sayUnpaired
  simp only [↓State.event_cut, ↓apply_ite (State.cut m), ite_self, m_regs, m_evt]

theorem State.takeRole_cut {m : Area → Bool} (s : State) (col : ℕ) (row : ℕ) (role : ℕ) (epoch : ℕ) (mask : ℕ) (m_regs : m .regs := by assumption) (m_pwr : m .pwr := by assumption) (m_hst : m .hst := by assumption) (m_evt : m .evt := by assumption) (m_gen : m .gen := by assumption) (m_rdg : m .rdg := by assumption) (m_links : m .links := by assumption) (m_out : m .out := by assumption) :
    (State.takeRole s col row role epoch mask).cut m = s.cut m := by
  unfold State.takeRole
  simp only [↓State.setReg_cut, ↓State.onRdg_cut, ↓State.roleChanged_cut, ↓State.sayUnpaired_cut, ↓apply_ite (State.cut m), ite_self, m_regs, m_pwr, m_hst, m_evt, m_gen, m_rdg, m_links, m_out]

theorem State.dropRole_cut {m : Area → Bool} (s : State) (m_regs : m .regs := by assumption) (m_pwr : m .pwr := by assumption) (m_hst : m .hst := by assumption) (m_evt : m .evt := by assumption) (m_gen : m .gen := by assumption) (m_rdg : m .rdg := by assumption) (m_links : m .links := by assumption) (m_out : m .out := by assumption) :
    (State.dropRole s).cut m = s.cut m := by
  unfold State.dropRole
  simp only [↓State.setReg_cut, ↓State.roleChanged_cut, ↓apply_ite (State.cut m), ite_self, m_regs, m_pwr, m_hst, m_evt, m_gen, m_rdg, m_links, m_out]

theorem State.derive_cut {m : Area → Bool} (s : State) (l : ℕ) (b : RoleAnn) (m_regs : m .regs := by assumption) (m_pwr : m .pwr := by assumption) (m_hst : m .hst := by assumption) (m_evt : m .evt := by assumption) (m_gen : m .gen := by assumption) (m_rdg : m .rdg := by assumption) (m_links : m .links := by assumption) (m_out : m .out := by assumption) :
    (State.derive s l b).cut m = s.cut m := by
  unfold State.derive
  repeat' (first | split | simp only [↓State.onRdg_cut, ↓State.event_cut, ↓State.announce_cut, ↓State.takeRole_cut, ↓State.dropRole_cut, m_regs, m_pwr, m_hst, m_evt, m_gen, m_rdg, m_links, m_out])

theorem State.endVol_cut {m : Area → Bool} (s : State) (v : VolPend) (m_regs : m .regs := by assumption) (m_hst : m .hst := by assumption) (m_stg : m .stg := by assumption) (m_tabs : m .tabs := by assumption) (m_evt : m .evt := by assumption) (m_rdg : m .rdg := by assumption) (m_links : m .links := by assumption) (m_win : m .win := by assumption) (m_out : m .out := by assumption) :
    (State.endVol s v).cut m = s.cut m := by
  unfold State.endVol
  simp only [↓State.setReg_cut, ↓State.onRdg_cut, ↓State.event_cut, ↓State.finish_cut, ↓apply_ite (State.cut m), ite_self, m_regs, m_hst, m_stg, m_tabs, m_evt, m_rdg, m_links, m_win, m_out]

theorem State.volAnswer_cut {m : Area → Bool} (s : State) (role : ℕ) (good : Bool) (p : VolPend → Bool) (m_regs : m .regs := by assumption) (m_hst : m .hst := by assumption) (m_stg : m .stg := by assumption) (m_tabs : m .tabs := by assumption) (m_evt : m .evt := by assumption) (m_rdg : m .rdg := by assumption) (m_links : m .links := by assumption) (m_win : m .win := by assumption) (m_out : m .out := by assumption) :
    (State.volAnswer s role good p).cut m = s.cut m := by
  unfold State.volAnswer
  repeat' (first | (with_reducible refine (foldl_cut _ _ _ fun s x => ?_).trans ?_) | split | simp only [↓State.onRdg_cut, ↓State.endVol_cut, m_regs, m_hst, m_stg, m_tabs, m_evt, m_rdg, m_links, m_win, m_out])

theorem State.settle__cut {m : Area → Bool} (s : State) (b : RoleAnn) (m_regs : m .regs := by assumption) (m_pwr : m .pwr := by assumption) (m_hst : m .hst := by assumption) (m_evt : m .evt := by assumption) (m_gen : m .gen := by assumption) (m_rdg : m .rdg := by assumption) (m_links : m .links := by assumption) (m_out : m .out := by assumption) :
    (State.settle_ s b).cut m = s.cut m := by
  unfold State.settle_
  simp only [↓State.event_cut, ↓State.dropRole_cut, ↓apply_ite (State.cut m), ite_self, m_regs, m_pwr, m_hst, m_evt, m_gen, m_rdg, m_links, m_out]

theorem State.putAnn_cut {m : Area → Bool} (s : State) (l : ℕ) (r : ℕ) (b : RoleAnn) (m_rdg : m .rdg := by assumption) :
    (State.putAnn s l r b).cut m = s.cut m := by
  unfold State.putAnn
  simp only [↓State.setRole_cut, ↓apply_ite (State.cut m), ite_self, m_rdg]

theorem State.takeAnn_cut {m : Area → Bool} (s : State) (h : RidgeHdr) (b : RoleAnn) (m_regs : m .regs := by assumption) (m_pwr : m .pwr := by assumption) (m_hst : m .hst := by assumption) (m_stg : m .stg := by assumption) (m_tabs : m .tabs := by assumption) (m_evt : m .evt := by assumption) (m_gen : m .gen := by assumption) (m_rdg : m .rdg := by assumption) (m_links : m .links := by assumption) (m_win : m .win := by assumption) (m_out : m .out := by assumption) :
    (State.takeAnn s h b).cut m = s.cut m := by
  unfold State.takeAnn
  simp only [↓State.onLink_cut, ↓State.tryPair_cut, ↓State.evalIso_cut, ↓State.syncRoles_cut, ↓State.derive_cut, ↓State.volAnswer_cut, ↓State.settle__cut, ↓State.putAnn_cut, ↓apply_ite (State.cut m), ite_self, m_regs, m_pwr, m_hst, m_stg, m_tabs, m_evt, m_gen, m_rdg, m_links, m_win, m_out]

theorem execRoleAnn_cut {m : Area → Bool} (h : RidgeHdr) (b : RoleAnn) (s : State) (m_regs : m .regs := by assumption) (m_pwr : m .pwr := by assumption) (m_hst : m .hst := by assumption) (m_stg : m .stg := by assumption) (m_tabs : m .tabs := by assumption) (m_evt : m .evt := by assumption) (m_gen : m .gen := by assumption) (m_rdg : m .rdg := by assumption) (m_links : m .links := by assumption) (m_win : m .win := by assumption) (m_out : m .out := by assumption) :
    outCut m (execRoleAnn h b s) = some (s.cut m) := by
  unfold execRoleAnn
  repeat' (first | (refine congrArg some ?_) | (with_reducible refine (State.takeBroadcast_cut (h_act := fun y0 => ?_) (s := _) (h := _) (code := _) (body := _)).trans ?_) | split | simp only [↓State.takeAnn_cut, m_regs, m_pwr, m_hst, m_stg, m_tabs, m_evt, m_gen, m_rdg, m_links, m_win, m_out])

theorem execRoleSet_cut {m : Area → Bool} (h : RidgeHdr) (b : RoleSet) (s : State) (m_regs : m .regs := by assumption) (m_rdg : m .rdg := by assumption) (m_links : m .links := by assumption) (m_out : m .out := by assumption) :
    outCut m (execRoleSet h b s) = some (s.cut m) := by
  unfold execRoleSet
  repeat' (first | (refine congrArg some ?_) | (with_reducible refine (State.takeBroadcast_cut (h_act := fun y0 => ?_) (s := _) (h := _) (code := _) (body := _)).trans ?_) | split | simp only [↓State.onRdg_cut, m_regs, m_rdg, m_links, m_out])

theorem execRoleUnreachable_cut {m : Area → Bool} (r : Fin 64) (s : State) (m_regs : m .regs := by assumption) (m_evt : m .evt := by assumption) (m_gen : m .gen := by assumption) (m_rdg : m .rdg := by assumption) (m_links : m .links := by assumption) (m_out : m .out := by assumption) :
    outCut m (execRoleUnreachable r s) = some (s.cut m) := by
  unfold execRoleUnreachable
  simp only [↓State.event_cut, ↓State.setRole_cut, ↓State.syncRoles_cut, ↓apply_ite (State.cut m), ite_self, ↓outCut_next, ↓apply_ite (outCut m), m_regs, m_evt, m_gen, m_rdg, m_links, m_out]

theorem execAlarm_cut {m : Area → Bool} (h : RidgeHdr) (epoch : Word) (event : BitVec 16) (s : State) (m_regs : m .regs := by assumption) (m_evt : m .evt := by assumption) (m_rdg : m .rdg := by assumption) (m_links : m .links := by assumption) (m_out : m .out := by assumption) :
    outCut m (execAlarm h epoch event s) = some (s.cut m) := by
  unfold execAlarm
  repeat' (first | (refine congrArg some ?_) | (with_reducible refine (State.takeBroadcast_cut (h_act := fun y0 => ?_) (s := _) (h := _) (code := _) (body := _)).trans ?_) | split | simp only [↓State.event_cut, m_regs, m_evt, m_rdg, m_links, m_out])

theorem State.setParent_cut {m : Area → Bool} (s : State) (l : ℕ) (hops : ℕ) (m_regs : m .regs := by assumption) :
    (State.setParent s l hops).cut m = s.cut m := by
  unfold State.setParent
  simp only [↓State.setF_cut, ↓State.noParent_cut, ↓apply_ite (State.cut m), ite_self, m_regs]

theorem State.offer_cut {m : Area → Bool} (s : State) (l : ℕ) (hops : ℕ) (m_regs : m .regs := by assumption) (m_rdg : m .rdg := by assumption) :
    (State.offer s l hops).cut m = s.cut m := by
  unfold State.offer
  simp only [↓State.setF_cut, ↓State.onRdg_cut, ↓State.setParent_cut, ↓apply_ite (State.cut m), ite_self, m_regs, m_rdg]

theorem State.takeBnd_cut {m : Area → Bool} (s : State) (b : BndBody) (m_regs : m .regs := by assumption) (m_evt : m .evt := by assumption) (m_gen : m .gen := by assumption) (m_rdg : m .rdg := by assumption) :
    (State.takeBnd s b).cut m = s.cut m := by
  unfold State.takeBnd
  simp only [↓State.setF_cut, ↓State.onGen_cut, ↓State.onRdg_cut, ↓State.checkDigest_cut, ↓apply_ite (State.cut m), ite_self, m_regs, m_evt, m_gen, m_rdg]

theorem execBnd_cut {m : Area → Bool} (h : RidgeHdr) (b : BndBody) (s : State) (m_regs : m .regs := by assumption) (m_evt : m .evt := by assumption) (m_gen : m .gen := by assumption) (m_rdg : m .rdg := by assumption) (m_links : m .links := by assumption) (m_out : m .out := by assumption) :
    outCut m (execBnd h b s) = some (s.cut m) := by
  unfold execBnd
  repeat' (first | (refine congrArg some ?_) | (with_reducible refine (State.takeBroadcast_cut (h_act := fun y0 => ?_) (s := _) (h := _) (code := _) (body := _)).trans ?_) | split | simp only [↓State.offer_cut, ↓State.takeBnd_cut, m_regs, m_evt, m_gen, m_rdg, m_links, m_out])

theorem execParentBndMissing_cut {m : Area → Bool} (s : State) (m_regs : m .regs := by assumption) (m_rdg : m .rdg := by assumption) :
    outCut m (execParentBndMissing s) = some (s.cut m) := by
  unfold execParentBndMissing
  repeat' (first | (refine congrArg some ?_) | (with_reducible refine (foldl_cut _ _ _ fun s x => ?_).trans ?_) | split | simp only [↓State.onRdg_cut, ↓State.noParent_cut, ↓State.setParent_cut, m_regs, m_rdg])

theorem State.takeMeas_cut {m : Area → Bool} (s : State) (b : MeasBody) (m_gen : m .gen := by assumption) :
    (State.takeMeas s b).cut m = s.cut m := by
  unfold State.takeMeas
  simp only [↓State.onGen_cut, ↓apply_ite (State.cut m), ite_self, m_gen]

theorem execMeas_cut {m : Area → Bool} (h : RidgeHdr) (b : MeasBody) (s : State) (m_regs : m .regs := by assumption) (m_gen : m .gen := by assumption) (m_rdg : m .rdg := by assumption) (m_links : m .links := by assumption) (m_out : m .out := by assumption) :
    outCut m (execMeas h b s) = some (s.cut m) := by
  unfold execMeas
  repeat' (first | (refine congrArg some ?_) | (with_reducible refine (State.takeBroadcast_cut (h_act := fun y0 => ?_) (s := _) (h := _) (code := _) (body := _)).trans ?_) | split | simp only [↓State.takeMeas_cut, m_regs, m_gen, m_rdg, m_links, m_out])

theorem execHold_cut {m : Area → Bool} (h : RidgeHdr) (b : HoldBody) (s : State) (m_regs : m .regs := by assumption) (m_evt : m .evt := by assumption) (m_rdg : m .rdg := by assumption) (m_links : m .links := by assumption) (m_hrt : m .hrt := by assumption) (m_out : m .out := by assumption) :
    outCut m (execHold h b s) = some (s.cut m) := by
  unfold execHold
  repeat' (first | (refine congrArg some ?_) | (with_reducible refine (State.takeBroadcast_cut (h_act := fun y0 => ?_) (s := _) (h := _) (code := _) (body := _)).trans ?_) | split | simp only [↓State.takeHold_cut, m_regs, m_evt, m_rdg, m_links, m_hrt, m_out])

theorem execTsyncTick_cut {m : Area → Bool} (t : ℕ) (s : State) (m_gen : m .gen := by assumption) (m_rdg : m .rdg := by assumption) (m_links : m .links := by assumption) (m_out : m .out := by assumption) :
    outCut m (execTsyncTick t s) = some (s.cut m) := by
  unfold execTsyncTick
  repeat' (first | (refine congrArg some ?_) | (with_reducible refine (foldl_cut _ _ _ fun s x => ?_).trans ?_) | split | simp only [↓State.onRdg_cut, ↓State.linkSend_cut, ↓State.reachTime_cut, m_gen, m_rdg, m_links, m_out])

theorem execTsyncReq_cut {m : Area → Bool} (q : Fin 4) (t1 : BitVec 64) (seq : Word) (t2 : ℕ) (t3 : ℕ) (s : State) (m_gen : m .gen := by assumption) (m_links : m .links := by assumption) (m_out : m .out := by assumption) :
    outCut m (execTsyncReq q t1 seq t2 t3 s) = some (s.cut m) := by
  unfold execTsyncReq
  simp only [↓State.linkSend_cut, ↓State.reachTime_cut, ↓apply_ite (State.cut m), ite_self, ↓outCut_next, ↓apply_ite (outCut m), m_gen, m_links, m_out]

theorem State.shiftTime_cut {m : Area → Bool} (s : State) (e : ℤ) (m_gen : m .gen := by assumption) (m_fst : m .fst := by assumption) (m_pnl : m .pnl := by assumption) :
    (State.shiftTime s e).cut m = s.cut m := by
  unfold State.shiftTime
  simp only [↓State.onGen_cut, ↓State.onPnl_cut, ↓State.onFst_cut, ↓apply_ite (State.cut m), ite_self, m_gen, m_fst, m_pnl]

theorem State.stepTime_cut {m : Area → Bool} (s : State) (e : ℤ) (m_regs : m .regs := by assumption) (m_evt : m .evt := by assumption) (m_gen : m .gen := by assumption) (m_rdg : m .rdg := by assumption) (m_fst : m .fst := by assumption) (m_pnl : m .pnl := by assumption) :
    (State.stepTime s e).cut m = s.cut m := by
  unfold State.stepTime
  simp only [↓State.setF_cut, ↓State.bump_cut, ↓State.onRdg_cut, ↓State.event_cut, ↓State.shiftTime_cut, ↓apply_ite (State.cut m), ite_self, m_regs, m_evt, m_gen, m_rdg, m_fst, m_pnl]

theorem State.stepAtBoundary_cut {m : Area → Bool} (s : State) (m_regs : m .regs := by assumption) (m_evt : m .evt := by assumption) (m_gen : m .gen := by assumption) (m_rdg : m .rdg := by assumption) (m_fst : m .fst := by assumption) (m_pnl : m .pnl := by assumption) :
    (State.stepAtBoundary s).cut m = s.cut m := by
  unfold State.stepAtBoundary
  simp only [↓State.onGen_cut, ↓State.onRdg_cut, ↓State.stepTime_cut, ↓apply_ite (State.cut m), ite_self, m_regs, m_evt, m_gen, m_rdg, m_fst, m_pnl]

theorem State.align_cut {m : Area → Bool} (s : State) (e : ℤ) (m_regs : m .regs := by assumption) (m_evt : m .evt := by assumption) (m_gen : m .gen := by assumption) (m_rdg : m .rdg := by assumption) (m_fst : m .fst := by assumption) (m_pnl : m .pnl := by assumption) :
    (State.align s e).cut m = s.cut m := by
  unfold State.align
  simp only [↓State.setReg_cut, ↓State.setF_cut, ↓State.onRdg_cut, ↓State.stepTime_cut, ↓apply_ite (State.cut m), ite_self, m_regs, m_evt, m_gen, m_rdg, m_fst, m_pnl]

theorem execTsyncRsp_cut {m : Area → Bool} (q : Fin 4) (t2 : BitVec 64) (t3 : BitVec 64) (seq : Word) (t4 : ℕ) (s : State) (m_regs : m .regs := by assumption) (m_evt : m .evt := by assumption) (m_gen : m .gen := by assumption) (m_rdg : m .rdg := by assumption) (m_fst : m .fst := by assumption) (m_pnl : m .pnl := by assumption) :
    outCut m (execTsyncRsp q t2 t3 seq t4 s) = some (s.cut m) := by
  unfold execTsyncRsp
  repeat' (first | (refine congrArg some ?_) | split | simp only [↓State.setReg_cut, ↓State.setF_cut, ↓State.onRdg_cut, ↓State.reachTime_cut, ↓State.align_cut, m_regs, m_evt, m_gen, m_rdg, m_fst, m_pnl])

theorem State.takeVcmd_cut {m : Area → Bool} (s : State) (op : ℕ) (param : ℕ) (feff : ℕ) (epoch : ℕ) (m_rdg : m .rdg := by assumption) :
    (State.takeVcmd s op param feff epoch).2.cut m = s.cut m := by
  unfold State.takeVcmd
  repeat' (first | split | simp only [↓State.onRdg_cut, m_rdg])

theorem State.volIssue_cut {m : Area → Bool} (op : ℕ) (c : ℕ) (d : Desc) (s : State) (m_regs : m .regs := by assumption) (m_hst : m .hst := by assumption) (m_stg : m .stg := by assumption) (m_tabs : m .tabs := by assumption) (m_evt : m .evt := by assumption) (m_rdg : m .rdg := by assumption) (m_links : m .links := by assumption) (m_win : m .win := by assumption) (m_out : m .out := by assumption) :
    (State.volIssue op c d s).cut m = s.cut m := by
  unfold State.volIssue
  simp only [↓State.onRdg_cut, ↓State.flood_cut, ↓State.volAnswer_cut, ↓State.takeVcmd_cut, ↓apply_ite (State.cut m), ite_self, m_regs, m_hst, m_stg, m_tabs, m_evt, m_rdg, m_links, m_win, m_out]

theorem execVolState_cut {m : Area → Bool} (c : Fin 256) (s : State) (m_regs : m .regs := by assumption) (m_hst : m .hst := by assumption) (m_stg : m .stg := by assumption) (m_tabs : m .tabs := by assumption) (m_evt : m .evt := by assumption) (m_rdg : m .rdg := by assumption) (m_links : m .links := by assumption) (m_win : m .win := by assumption) (m_out : m .out := by assumption) :
    outCut m (execVolState c s) = some (s.cut m) := by
  unfold execVolState
  repeat' (first | (refine congrArg some ?_) | (with_reducible refine (State.startWith_cut (h_f := fun y0 y1 => ?_) (s := _) (c := _) (p := _)).trans ?_) | split | simp only [↓State.volIssue_cut, m_regs, m_hst, m_stg, m_tabs, m_evt, m_rdg, m_links, m_win, m_out])

theorem execVolHold_cut {m : Area → Bool} (c : Fin 256) (s : State) (m_regs : m .regs := by assumption) (m_hst : m .hst := by assumption) (m_stg : m .stg := by assumption) (m_tabs : m .tabs := by assumption) (m_evt : m .evt := by assumption) (m_rdg : m .rdg := by assumption) (m_links : m .links := by assumption) (m_win : m .win := by assumption) (m_out : m .out := by assumption) :
    outCut m (execVolHold c s) = some (s.cut m) := by
  unfold execVolHold
  repeat' (first | (refine congrArg some ?_) | (with_reducible refine (State.startWith_cut (h_f := fun y0 y1 => ?_) (s := _) (c := _) (p := _)).trans ?_) | split | simp only [↓State.volIssue_cut, m_regs, m_hst, m_stg, m_tabs, m_evt, m_rdg, m_links, m_win, m_out])

theorem execVolReset_cut {m : Area → Bool} (c : Fin 256) (s : State) (m_regs : m .regs := by assumption) (m_hst : m .hst := by assumption) (m_stg : m .stg := by assumption) (m_tabs : m .tabs := by assumption) (m_evt : m .evt := by assumption) (m_rdg : m .rdg := by assumption) (m_links : m .links := by assumption) (m_win : m .win := by assumption) (m_out : m .out := by assumption) :
    outCut m (execVolReset c s) = some (s.cut m) := by
  unfold execVolReset
  repeat' (first | (refine congrArg some ?_) | (with_reducible refine (State.startWith_cut (h_f := fun y0 y1 => ?_) (s := _) (c := _) (p := _)).trans ?_) | split | simp only [↓State.volIssue_cut, m_regs, m_hst, m_stg, m_tabs, m_evt, m_rdg, m_links, m_win, m_out])

theorem State.volRole_cut {m : Area → Bool} (c : ℕ) (d : Desc) (s : State) (m_regs : m .regs := by assumption) (m_pwr : m .pwr := by assumption) (m_hst : m .hst := by assumption) (m_stg : m .stg := by assumption) (m_tabs : m .tabs := by assumption) (m_evt : m .evt := by assumption) (m_gen : m .gen := by assumption) (m_rdg : m .rdg := by assumption) (m_links : m .links := by assumption) (m_win : m .win := by assumption) (m_out : m .out := by assumption) :
    (State.volRole c d s).cut m = s.cut m := by
  unfold State.volRole
  simp only [↓State.onRdg_cut, ↓State.flood_cut, ↓State.announce_cut, ↓State.takeRole_cut, ↓State.volAnswer_cut, ↓apply_ite (State.cut m), ite_self, m_regs, m_pwr, m_hst, m_stg, m_tabs, m_evt, m_gen, m_rdg, m_links, m_win, m_out]

theorem execVolRole_cut {m : Area → Bool} (c : Fin 256) (s : State) (m_regs : m .regs := by assumption) (m_pwr : m .pwr := by assumption) (m_hst : m .hst := by assumption) (m_stg : m .stg := by assumption) (m_tabs : m .tabs := by assumption) (m_evt : m .evt := by assumption) (m_gen : m .gen := by assumption) (m_rdg : m .rdg := by assumption) (m_links : m .links := by assumption) (m_win : m .win := by assumption) (m_out : m .out := by assumption) :
    outCut m (execVolRole c s) = some (s.cut m) := by
  unfold execVolRole
  repeat' (first | (refine congrArg some ?_) | (with_reducible refine (State.startWith_cut (h_f := fun y0 y1 => ?_) (s := _) (c := _) (p := _)).trans ?_) | split | simp only [↓State.volRole_cut, m_regs, m_pwr, m_hst, m_stg, m_tabs, m_evt, m_gen, m_rdg, m_links, m_win, m_out])

theorem execVcmdTimeout_cut {m : Area → Bool} (s : State) (m_regs : m .regs := by assumption) (m_hst : m .hst := by assumption) (m_stg : m .stg := by assumption) (m_tabs : m .tabs := by assumption) (m_evt : m .evt := by assumption) (m_rdg : m .rdg := by assumption) (m_links : m .links := by assumption) (m_win : m .win := by assumption) (m_out : m .out := by assumption) :
    outCut m (execVcmdTimeout s) = some (s.cut m) := by
  unfold execVcmdTimeout
  repeat' (first | (refine congrArg some ?_) | split | simp only [↓State.endVol_cut, m_regs, m_hst, m_stg, m_tabs, m_evt, m_rdg, m_links, m_win, m_out])

theorem State.takeVcmdMsg_cut {m : Area → Bool} (s : State) (h : RidgeHdr) (op : Nat) (b : VcmdBody) (act : State → State) (h_act : ∀ y0, (act y0).cut m = (y0).cut m) (m_regs : m .regs := by assumption) (m_rdg : m .rdg := by assumption) (m_links : m .links := by assumption) (m_out : m .out := by assumption) :
    (State.takeVcmdMsg s h op b act).cut m = s.cut m := by
  unfold State.takeVcmdMsg
  refine State.takeBroadcast_cut _ _ _ _ _ (fun y => ?_)
  split
  · rfl
  · have hv := State.takeVcmd_cut y op b.param.toNat b.feff.toNat b.epoch.toNat
    generalize y.takeVcmd op b.param.toNat b.feff.toNat b.epoch.toNat = x at hv
    obtain ⟨r, z⟩ := x
    dsimp only at hv ⊢
    generalize (leBytes 4 (z.roleEntry (hdrSrc h)).epoch ++ leBytes 2 (hdrBseq h) ++
      [BitVec.ofNat 8 (if op = 3 ∧ r = 1 then 0 else r), 0]) = body
    have hu := (State.unicast_cut z (hdrSrc h) 0x39 body).trans hv
    generalize (if op = 3 ∧ r = 1 then 0 else r) = r'
    by_cases hr : r' = 2
    · rw [if_pos hr]; exact hu
    · rw [if_neg hr]; exact (h_act _).trans hu

theorem execVcmdState_cut {m : Area → Bool} (h : RidgeHdr) (b : VcmdBody) (s : State) (m_regs : m .regs := by assumption) (m_rdg : m .rdg := by assumption) (m_links : m .links := by assumption) (m_out : m .out := by assumption) :
    outCut m (execVcmdState h b s) = some (s.cut m) :=
  congrArg some (State.takeVcmdMsg_cut s h 1 b id (fun _ => rfl))

theorem execVcmdHold_cut {m : Area → Bool} (h : RidgeHdr) (b : VcmdBody) (s : State) (m_regs : m .regs := by assumption) (m_rdg : m .rdg := by assumption) (m_links : m .links := by assumption) (m_out : m .out := by assumption) :
    outCut m (execVcmdHold h b s) = some (s.cut m) :=
  congrArg some (State.takeVcmdMsg_cut s h 2 b id (fun _ => rfl))

theorem execVack_cut {m : Area → Bool} (h : RidgeHdr) (epoch : Word) (vseq : BitVec 16) (result : Byte) (s : State) (m_regs : m .regs := by assumption) (m_hst : m .hst := by assumption) (m_stg : m .stg := by assumption) (m_tabs : m .tabs := by assumption) (m_evt : m .evt := by assumption) (m_rdg : m .rdg := by assumption) (m_links : m .links := by assumption) (m_win : m .win := by assumption) (m_out : m .out := by assumption) :
    outCut m (execVack h epoch vseq result s) = some (s.cut m) := by
  unfold execVack
  repeat' (first | (refine congrArg some ?_) | (with_reducible refine (State.takeUnicast_cut (h_act := fun y0 => ?_) (s := _) (h := _) (code := _) (epoch := _) (rest := _)).trans ?_) | split | simp only [↓State.volAnswer_cut, m_regs, m_hst, m_stg, m_tabs, m_evt, m_rdg, m_links, m_win, m_out])

theorem State.dueVcmds_cut {m : Area → Bool} (s : State) (f : ℕ) (m_rdg : m .rdg := by assumption) :
    (State.dueVcmds s f).2.cut m = s.cut m := by
  unfold State.dueVcmds
  dsimp only
  repeat' (first | rfl | (simp only [↓State.onRdg_cut, ↓apply_ite (State.cut m), ite_self, m_rdg]; done) | split | simp only [↓State.onRdg_cut, m_rdg])

theorem State.sendBnd_cut {m : Area → Bool} (s : State) (m_rdg : m .rdg := by assumption) (m_links : m .links := by assumption) (m_out : m .out := by assumption) :
    (State.sendBnd s).cut m = s.cut m := by
  unfold State.sendBnd
  simp only [↓State.flood_cut, ↓apply_ite (State.cut m), ite_self, m_rdg, m_links, m_out]

theorem State.sendReplace_cut {m : Area → Bool} (s : State) (old : AMap (ℕ × ℕ)) (r : Replace) (m_rdg : m .rdg := by assumption) (m_links : m .links := by assumption) (m_out : m .out := by assumption) :
    (State.sendReplace s old r).cut m = s.cut m := by
  unfold State.sendReplace
  repeat' (first | (with_reducible refine (foldl_cut _ _ _ fun s x => ?_).trans ?_) | split | simp only [↓State.flood_cut, m_rdg, m_links, m_out])

theorem State.sendMeas_cut {m : Area → Bool} (s : State) (old : AMap (Nat × Nat)) (m_rdg : m .rdg := by assumption) (m_links : m .links := by assumption) (m_out : m .out := by assumption) :
    (State.sendMeas s old).cut m = s.cut m := by
  unfold State.sendMeas
  split
  · rfl
  · exact foldl_part_cut (fun a : AMap (Nat × Nat) × State => a.2) _ _ _ fun a x => State.sendReplace_cut ..

theorem State.onWin_cut {m : Area → Bool} (s : State) (f : WinState → WinState) (m_win : m .win := by assumption) :
    (State.onWin s f).cut m = s.cut m := by
  unfold State.onWin
  simp only [↓cut_win, ↓apply_ite (State.cut m), ite_self, m_win]

theorem State.winDrop_cut {m : Area → Bool} (s : State) (m_regs : m .regs := by assumption) :
    (State.winDrop s).cut m = s.cut m := by
  unfold State.winDrop
  simp only [↓State.bump_cut, ↓apply_ite (State.cut m), ite_self, m_regs]

theorem State.syncRefuse_cut {m : Area → Bool} (s : State) (m_regs : m .regs := by assumption) :
    (State.syncRefuse s).cut m = s.cut m := by
  unfold State.syncRefuse
  simp only [↓State.setF_cut, ↓apply_ite (State.cut m), ite_self, m_regs]

theorem State.syncJpend_cut {m : Area → Bool} (s : State) (m_regs : m .regs := by assumption) :
    (State.syncJpend s).cut m = s.cut m := by
  unfold State.syncJpend
  simp only [↓State.setF_cut, ↓apply_ite (State.cut m), ite_self, m_regs]

theorem State.winWrite_cut {m : Area → Bool} (s : State) (off : ℕ) (be : ℕ) (f : State → State) (h_f : ∀ y0, (f y0).cut m = y0.cut m) (m_regs : m .regs := by assumption) (m_evt : m .evt := by assumption) (m_win : m .win := by assumption) :
    (State.winWrite s off be f).cut m = s.cut m := by
  unfold State.winWrite
  repeat' (first | split | simp only [↓State.bump_cut, ↓State.event_cut, ↓State.onWin_cut, ↓State.winDrop_cut, ↓State.syncRefuse_cut, h_f, m_regs, m_evt, m_win])

theorem State.winPtrX_cut {m : Area → Bool} (s : State) (v : Word) (m_win : m .win := by assumption) :
    (State.winPtrX s v).cut m = s.cut m := by
  unfold State.winPtrX
  simp only [↓State.onWin_cut, ↓apply_ite (State.cut m), ite_self, m_win]

theorem State.winPtrY_cut {m : Area → Bool} (s : State) (v : Word) (m_regs : m .regs := by assumption) (m_evt : m .evt := by assumption) (m_win : m .win := by assumption) :
    (State.winPtrY s v).cut m = s.cut m := by
  unfold State.winPtrY
  simp only [↓State.event_cut, ↓State.onWin_cut, ↓State.winDrop_cut, ↓apply_ite (State.cut m), ite_self, m_regs, m_evt, m_win]

theorem State.winWindow_cut {m : Area → Bool} (s : State) (off : ℕ) (v : Word) (m_win : m .win := by assumption) :
    (State.winWindow s off v).cut m = s.cut m := by
  unfold State.winWindow
  simp only [↓State.onWin_cut, ↓apply_ite (State.cut m), ite_self, m_win]

theorem State.overlayPut_cut {m : Area → Bool} (s : State) (x : ℕ) (y : ℕ) (c : ℕ) (v : ℕ) (m_fst : m .fst := by assumption) (m_win : m .win := by assumption) :
    (State.overlayPut s x y c v).cut m = s.cut m := by
  unfold State.overlayPut
  repeat' (first | (with_reducible refine (foldl_cut _ _ _ fun s x => ?_).trans ?_) | split | simp only [↓State.fsWrite_cut, ↓State.onWin_cut, m_fst, m_win])

theorem State.winAccept_cut {m : Area → Bool} (s : State) (v : Word) (m_regs : m .regs := by assumption) (m_win : m .win := by assumption) :
    (State.winAccept s v).cut m = s.cut m := by
  unfold State.winAccept
  simp only [↓State.bump_cut, ↓State.onWin_cut, ↓State.syncJpend_cut, ↓apply_ite (State.cut m), ite_self, m_regs, m_win]

theorem State.winData_cut {m : Area → Bool} (s : State) (off : ℕ) (v : Word) (m_regs : m .regs := by assumption) (m_evt : m .evt := by assumption) (m_win : m .win := by assumption) :
    (State.winData s off v).cut m = s.cut m := by
  unfold State.winData
  simp only [↓State.event_cut, ↓State.onWin_cut, ↓State.winDrop_cut, ↓State.winAccept_cut, ↓apply_ite (State.cut m), ite_self, m_regs, m_evt, m_win]

theorem State.winStore_cut {m : Area → Bool} (s : State) (off : ℕ) (be : ℕ) (v : Word) (m_regs : m .regs := by assumption) (m_evt : m .evt := by assumption) (m_win : m .win := by assumption) :
    (State.winStore s off be v).cut m = s.cut m := by
  unfold State.winStore
  repeat' (first | (with_reducible refine (State.winWrite_cut (h_f := fun y0 => ?_) (s := _) (off := _) (be := _)).trans ?_) | split | simp only [↓State.event_cut, ↓State.winDrop_cut, ↓State.winPtrX_cut, ↓State.winPtrY_cut, ↓State.winWindow_cut, ↓State.winData_cut, m_regs, m_evt, m_win])

theorem State.winSample_cut {m : Area → Bool} (s : State) (w : WinState) (m_freeN : m .freeN := by assumption) :
    (State.winSample s w).2.cut m = s.cut m := by
  unfold State.winSample
  repeat' (first | (simp only [↓State.free_cut, ↓apply_ite (State.cut m), ite_self, m_freeN]; done) | split | simp only [↓State.free_cut, ↓apply_ite (State.cut m), ite_self, m_freeN])

theorem State.winFetch_cut {m : Area → Bool} (s : State) (m_win : m .win := by assumption) (m_freeN : m .freeN := by assumption) :
    (State.winFetch s).cut m = s.cut m := by
  unfold State.winFetch
  simp only [↓State.onWin_cut, ↓State.winSample_cut, ↓apply_ite (State.cut m), ite_self, m_win, m_freeN]

theorem State.winRead_cut {m : Area → Bool} (s : State) (m_win : m .win := by assumption) (m_freeN : m .freeN := by assumption) (m_out : m .out := by assumption) :
    (State.winRead s).cut m = s.cut m := by
  unfold State.winRead
  simp only [↓State.emit_cut, ↓State.onWin_cut, ↓State.winFetch_cut, ↓apply_ite (State.cut m), ite_self, m_win, m_freeN, m_out]

theorem State.winAct_cut {m : Area → Bool} (s : State) (x1 : Option (Nat × Nat × Word)) (m_regs : m .regs := by assumption) (m_evt : m .evt := by assumption) (m_win : m .win := by assumption) (m_freeN : m .freeN := by assumption) (m_out : m .out := by assumption) :
    (State.winAct s x1).cut m = s.cut m := by
  unfold State.winAct
  split
  · exact State.winStore_cut _ _ _ _
  · exact State.winRead_cut _

theorem State.winAccess_cut {m : Area → Bool} (s : State) (a : Option (ℕ × ℕ × Word)) (m_regs : m .regs := by assumption) (m_evt : m .evt := by assumption) (m_win : m .win := by assumption) (m_freeN : m .freeN := by assumption) (m_out : m .out := by assumption) :
    (State.winAccess s a).cut m = s.cut m := by
  unfold State.winAccess
  simp only [↓State.onWin_cut, ↓State.winAct_cut, ↓apply_ite (State.cut m), ite_self, m_regs, m_evt, m_win, m_freeN, m_out]

theorem State.winRetry_cut {m : Area → Bool} (x0 : List (Option (ℕ × ℕ × Word))) (a1 : State) (m_regs : m .regs := by assumption) (m_evt : m .evt := by assumption) (m_win : m .win := by assumption) (m_freeN : m .freeN := by assumption) (m_out : m .out := by assumption) :
    (State.winRetry x0 a1).cut m = a1.cut m := by
  fun_induction State.winRetry x0 a1
  repeat' (first | split | simp_all only [↓State.onWin_cut, ↓State.winAct_cut, m_regs, m_evt, m_win, m_freeN, m_out])

theorem execWpPtrXWrite_cut {m : Area → Bool} (be : BitVec 4) (v : Word) (s : State) (m_regs : m .regs := by assumption) (m_evt : m .evt := by assumption) (m_win : m .win := by assumption) (m_freeN : m .freeN := by assumption) (m_out : m .out := by assumption) :
    outCut m (execWpPtrXWrite be v s) = some (s.cut m) := by
  unfold execWpPtrXWrite
  simp only [↓State.winAccess_cut, ↓apply_ite (State.cut m), ite_self, ↓outCut_next, ↓apply_ite (outCut m), m_regs, m_evt, m_win, m_freeN, m_out]

theorem execWpPtrYWrite_cut {m : Area → Bool} (be : BitVec 4) (v : Word) (s : State) (m_regs : m .regs := by assumption) (m_evt : m .evt := by assumption) (m_win : m .win := by assumption) (m_freeN : m .freeN := by assumption) (m_out : m .out := by assumption) :
    outCut m (execWpPtrYWrite be v s) = some (s.cut m) := by
  unfold execWpPtrYWrite
  simp only [↓State.winAccess_cut, ↓apply_ite (State.cut m), ite_self, ↓outCut_next, ↓apply_ite (outCut m), m_regs, m_evt, m_win, m_freeN, m_out]

theorem execWpWindowWrite_cut {m : Area → Bool} (k : Fin 4) (be : BitVec 4) (v : Word) (s : State) (m_regs : m .regs := by assumption) (m_evt : m .evt := by assumption) (m_win : m .win := by assumption) (m_freeN : m .freeN := by assumption) (m_out : m .out := by assumption) :
    outCut m (execWpWindowWrite k be v s) = some (s.cut m) := by
  unfold execWpWindowWrite
  simp only [↓State.winAccess_cut, ↓apply_ite (State.cut m), ite_self, ↓outCut_next, ↓apply_ite (outCut m), m_regs, m_evt, m_win, m_freeN, m_out]

theorem execWpDataWrite_cut {m : Area → Bool} (off : ℕ) (be : BitVec 4) (v : Word) (s : State) (m_regs : m .regs := by assumption) (m_evt : m .evt := by assumption) (m_win : m .win := by assumption) (m_freeN : m .freeN := by assumption) (m_out : m .out := by assumption) :
    outCut m (execWpDataWrite off be v s) = some (s.cut m) := by
  unfold execWpDataWrite
  simp only [↓State.winAccess_cut, ↓apply_ite (State.cut m), ite_self, ↓outCut_next, ↓apply_ite (outCut m), m_regs, m_evt, m_win, m_freeN, m_out]

theorem execWpDataRead_cut {m : Area → Bool} (s : State) (m_regs : m .regs := by assumption) (m_evt : m .evt := by assumption) (m_win : m .win := by assumption) (m_freeN : m .freeN := by assumption) (m_out : m .out := by assumption) :
    outCut m (execWpDataRead s) = some (s.cut m) := by
  unfold execWpDataRead
  simp only [↓State.winAccess_cut, ↓apply_ite (State.cut m), ite_self, ↓outCut_next, ↓apply_ite (outCut m), m_regs, m_evt, m_win, m_freeN, m_out]

theorem execJournalApply_cut {m : Area → Bool} (s : State) (m_regs : m .regs := by assumption) (m_evt : m .evt := by assumption) (m_fst : m .fst := by assumption) (m_win : m .win := by assumption) (m_freeN : m .freeN := by assumption) (m_out : m .out := by assumption) :
    outCut m (execJournalApply s) = some (s.cut m) := by
  unfold execJournalApply
  repeat' (first | (refine congrArg some ?_) | split | simp only [↓State.onWin_cut, ↓State.syncJpend_cut, ↓State.overlayPut_cut, ↓State.winRetry_cut, m_regs, m_evt, m_fst, m_win, m_freeN, m_out])

theorem State.winOn_cut {m : Area → Bool} (s : State) (m_regs : m .regs := by assumption) (m_win : m .win := by assumption) :
    (State.winOn s).cut m = s.cut m := by
  unfold State.winOn
  simp only [↓State.setF_cut, ↓State.onWin_cut, ↓apply_ite (State.cut m), ite_self, m_regs, m_win]

theorem State.winOff_cut {m : Area → Bool} (s : State) (m_regs : m .regs := by assumption) (m_evt : m .evt := by assumption) (m_win : m .win := by assumption) (m_freeN : m .freeN := by assumption) (m_out : m .out := by assumption) :
    (State.winOff s).cut m = s.cut m := by
  unfold State.winOff
  simp only [↓State.setF_cut, ↓State.event_cut, ↓State.onWin_cut, ↓State.syncJpend_cut, ↓State.winRetry_cut, ↓apply_ite (State.cut m), ite_self, m_regs, m_evt, m_win, m_freeN, m_out]

theorem State.waitingOver_cut {m : Area → Bool} (s : State) (m_regs : m .regs := by assumption) :
    (State.waitingOver s).cut m = s.cut m := by
  unfold State.waitingOver
  repeat' (first | (with_reducible refine (foldl_cut _ _ _ fun s x => ?_).trans ?_) | split | simp only [↓State.withRegs_cut, m_regs])

theorem State.afterCommit_cut {m : Area → Bool} (s : State) (t : Txn) (m_regs : m .regs := by assumption) :
    (State.afterCommit s t).cut m = s.cut m := by
  unfold State.afterCommit
  simp only [↓State.withRegs_cut, ↓State.waitingOver_cut, ↓apply_ite (State.cut m), ite_self, m_regs]

theorem State.loseEngine_cut {m : Area → Bool} (s : State) (e : ℕ) (m_regs : m .regs := by assumption) (m_hst : m .hst := by assumption) (m_stg : m .stg := by assumption) (m_tabs : m .tabs := by assumption) (m_evt : m .evt := by assumption) (m_rdg : m .rdg := by assumption) (m_links : m .links := by assumption) (m_win : m .win := by assumption) (m_mag : m .mag := by assumption) (m_thc : m .thc := by assumption) (m_out : m .out := by assumption) :
    (State.loseEngine s e).cut m = s.cut m := by
  unfold State.loseEngine
  repeat' (first | (with_reducible refine (foldl_cut _ _ _ fun s x => ?_).trans ?_) | split | simp only [↓State.onMag_cut, ↓State.finish_cut, ↓State.setStaging_cut, ↓State.dropAppend_cut, ↓State.setEngine_cut, ↓State.jobFault_cut, m_regs, m_hst, m_stg, m_tabs, m_evt, m_rdg, m_links, m_win, m_mag, m_thc, m_out])

theorem State.lockDomain_cut {m : Area → Bool} (s : State) (d : ℕ) (m_regs : m .regs := by assumption) (m_pwr : m .pwr := by assumption) (m_hst : m .hst := by assumption) (m_stg : m .stg := by assumption) (m_tabs : m .tabs := by assumption) (m_evt : m .evt := by assumption) (m_rdg : m .rdg := by assumption) (m_links : m .links := by assumption) (m_win : m .win := by assumption) (m_mag : m .mag := by assumption) (m_thc : m .thc := by assumption) (m_out : m .out := by assumption) :
    (State.lockDomain s d).cut m = s.cut m := by
  unfold State.lockDomain
  repeat' (first | (with_reducible refine (foldl_cut _ _ _ fun s x => ?_).trans ?_) | split | simp only [↓State.setDomain_cut, ↓State.onPwr_cut, ↓State.stallOn_cut, ↓State.syncEngine_cut, ↓State.loseEngine_cut, m_regs, m_pwr, m_hst, m_stg, m_tabs, m_evt, m_rdg, m_links, m_win, m_mag, m_thc, m_out])

theorem State.applyLockoff_cut {m : Area → Bool} (s : State) (old : Word) (m_regs : m .regs := by assumption) (m_pwr : m .pwr := by assumption) (m_hst : m .hst := by assumption) (m_stg : m .stg := by assumption) (m_tabs : m .tabs := by assumption) (m_evt : m .evt := by assumption) (m_rdg : m .rdg := by assumption) (m_links : m .links := by assumption) (m_win : m .win := by assumption) (m_mag : m .mag := by assumption) (m_thc : m .thc := by assumption) (m_out : m .out := by assumption) :
    (State.applyLockoff s old).cut m = s.cut m := by
  unfold State.applyLockoff
  repeat' (first | (with_reducible refine (foldl_cut _ _ _ fun s x => ?_).trans ?_) | split | simp only [↓State.clearReady_cut, ↓State.lockDomain_cut, m_regs, m_pwr, m_hst, m_stg, m_tabs, m_evt, m_rdg, m_links, m_win, m_mag, m_thc, m_out])

theorem State.clearFmask_cut {m : Area → Bool} (s : State) (m_regs : m .regs := by assumption) (m_fmask : m .fmask := by assumption) :
    (State.clearFmask s).cut m = s.cut m := by
  unfold State.clearFmask
  simp only [↓State.setF_cut, ↓cut_fmask, ↓apply_ite (State.cut m), ite_self, m_regs, m_fmask]

theorem State.dmuInForce_cut {m : Area → Bool} (s : State) (m_regs : m .regs := by assumption) (m_fmask : m .fmask := by assumption) :
    (State.dmuInForce s).cut m = s.cut m := by
  unfold State.dmuInForce
  simp only [↓State.setF_cut, ↓State.clearFmask_cut, ↓apply_ite (State.cut m), ite_self, m_regs, m_fmask]

theorem State.putInForce_cut {m : Area → Bool} (o : State) (x1 : AMap Word) (m_regs : m .regs := by assumption) (m_pwr : m .pwr := by assumption) (m_hst : m .hst := by assumption) (m_stg : m .stg := by assumption) (m_tabs : m .tabs := by assumption) (m_evt : m .evt := by assumption) (m_gen : m .gen := by assumption) (m_rdg : m .rdg := by assumption) (m_fst : m .fst := by assumption) (m_links : m .links := by assumption) (m_thm : m .thm := by assumption) (m_drv : m .drv := by assumption) (m_pnl : m .pnl := by assumption) (m_bnk : m .bnk := by assumption) (m_win : m .win := by assumption) (m_mag : m .mag := by assumption) (m_thc : m .thc := by assumption) (m_fmask : m .fmask := by assumption) (m_freeN : m .freeN := by assumption) (m_out : m .out := by assumption) :
    (State.putInForce o x1).cut m = o.cut m := by
  unfold State.putInForce
  split
  · rfl
  · extract_lets +onlyGivenNames n chg s0 s1 s2 s3 s4 s5 s6 s7 s8 s9 s10 s11 s12 s12a s13 s14
    have h0 : s0.cut m = o.cut m := State.withRegs_cut ..
    have h1 : s1.cut m = s0.cut m := by
      simp only [s1]
      split
      · exact State.applyLockoff_cut ..
      · rfl
    have h2 : s2.cut m = s1.cut m := foldl_cut _ _ _ fun s x => by
      split
      · exact State.applyLinkCfg_cut ..
      · rfl
    have h3 : s3.cut m = s2.cut m := by
      simp only [s3]
      split
      · exact foldl_cut _ _ _ fun s x => State.evalIso_cut ..
      · rfl
    have h4 : s4.cut m = s3.cut m := by
      simp only [s4]
      split
      · exact State.sourceChanged_cut ..
      · rfl
    have h5 : s5.cut m = s4.cut m := by
      simp only [s5]
      split
      · exact State.checkFormat_cut ..
      · rfl
    have h6 : s6.cut m = s5.cut m := by
      simp only [s6]
      split
      · exact State.syncCand_cut ..
      · rfl
    have h7 : s7.cut m = s6.cut m := foldl_cut _ _ _ fun s x => by
      split
      · exact (State.startResync_cut ..).trans (State.placeColour_cut ..)
      · rfl
    have h8 : s8.cut m = s7.cut m := State.dmuInForce_cut ..
    have h9 : s9.cut m = s8.cut m := by
      simp only [s9]
      split
      · exact State.clearLossMap_cut ..
      · rfl
    have h10 : s10.cut m = s9.cut m := by
      simp only [s10]
      split
      · exact State.replaceBuffers_cut ..
      · split
        · exact State.syncDemand_cut ..
        · rfl
    have h11 : s11.cut m = s10.cut m := State.placePool_cut ..
    have h12 : s12.cut m = s11.cut m := foldl_cut _ _ _ fun s x => by
      split
      · rfl
      · exact State.setMagEn_cut ..
    have h12a : s12a.cut m = s12.cut m := foldl_cut _ _ _ fun s x => by
      split
      · rfl
      · exact State.setMagTthr_cut ..
    have h13 : s13.cut m = s12a.cut m := by
      simp only [s13]
      split
      · exact State.applyTrims_cut ..
      · rfl
    have h14 : s14.cut m = s13.cut m := by
      simp only [s14]
      split
      · split
        · exact State.winOn_cut ..
        · exact State.winOff_cut ..
      · rfl
    rw [State.crackPolChanged_cut, h14, h13, h12a, h12, h11, h10, h9, h8, h7, h6, h5, h4, h3, h2, h1, h0]

theorem State.placeNow_cut {m : Area → Bool} (s : State) (m_regs : m .regs := by assumption) (m_evt : m .evt := by assumption) (m_gen : m .gen := by assumption) :
    (State.placeNow s).cut m = s.cut m := by
  unfold State.placeNow
  simp only [↓State.onGen_cut, ↓State.putSlotTable_cut, ↓apply_ite (State.cut m), ite_self, m_regs, m_evt, m_gen]

theorem State.endIdleWaits_cut {m : Area → Bool} (s : State) (m_regs : m .regs := by assumption) (m_hst : m .hst := by assumption) (m_stg : m .stg := by assumption) (m_tabs : m .tabs := by assumption) (m_evt : m .evt := by assumption) (m_rdg : m .rdg := by assumption) (m_links : m .links := by assumption) (m_win : m .win := by assumption) (m_out : m .out := by assumption) :
    (State.endIdleWaits s).cut m = s.cut m := by
  unfold State.endIdleWaits
  repeat' (first | (with_reducible refine (foldl_cut _ _ _ fun s x => ?_).trans ?_) | split | simp only [↓State.onStg_cut, ↓State.finish_cut, m_regs, m_hst, m_stg, m_tabs, m_evt, m_rdg, m_links, m_win, m_out])

theorem State.putIdle_cut {m : Area → Bool} (s : State) (m_regs : m .regs := by assumption) (m_pwr : m .pwr := by assumption) (m_hst : m .hst := by assumption) (m_stg : m .stg := by assumption) (m_tabs : m .tabs := by assumption) (m_evt : m .evt := by assumption) (m_gen : m .gen := by assumption) (m_rdg : m .rdg := by assumption) (m_fst : m .fst := by assumption) (m_links : m .links := by assumption) (m_thm : m .thm := by assumption) (m_drv : m .drv := by assumption) (m_pnl : m .pnl := by assumption) (m_bnk : m .bnk := by assumption) (m_win : m .win := by assumption) (m_mag : m .mag := by assumption) (m_thc : m .thc := by assumption) (m_fmask : m .fmask := by assumption) (m_freeN : m .freeN := by assumption) (m_out : m .out := by assumption) :
    (State.putIdle s).cut m = s.cut m := by
  unfold State.putIdle
  simp only [↓State.onStg_cut, ↓State.syncStg_cut, ↓State.putInForce_cut, ↓State.endIdleWaits_cut, ↓apply_ite (State.cut m), ite_self, m_regs, m_pwr, m_hst, m_stg, m_tabs, m_evt, m_gen, m_rdg, m_fst, m_links, m_thm, m_drv, m_pnl, m_bnk, m_win, m_mag, m_thc, m_fmask, m_freeN, m_out]

theorem State.applyIdle_cut {m : Area → Bool} (s : State) (m_regs : m .regs := by assumption) (m_pwr : m .pwr := by assumption) (m_hst : m .hst := by assumption) (m_stg : m .stg := by assumption) (m_tabs : m .tabs := by assumption) (m_evt : m .evt := by assumption) (m_gen : m .gen := by assumption) (m_rdg : m .rdg := by assumption) (m_fst : m .fst := by assumption) (m_links : m .links := by assumption) (m_thm : m .thm := by assumption) (m_drv : m .drv := by assumption) (m_pnl : m .pnl := by assumption) (m_bnk : m .bnk := by assumption) (m_win : m .win := by assumption) (m_mag : m .mag := by assumption) (m_thc : m .thc := by assumption) (m_fmask : m .fmask := by assumption) (m_freeN : m .freeN := by assumption) (m_out : m .out := by assumption) :
    (State.applyIdle s).cut m = s.cut m := by
  unfold State.applyIdle
  simp only [↓State.signal_cut, ↓State.putIdle_cut, ↓apply_ite (State.cut m), ite_self, m_regs, m_pwr, m_hst, m_stg, m_tabs, m_evt, m_gen, m_rdg, m_fst, m_links, m_thm, m_drv, m_pnl, m_bnk, m_win, m_mag, m_thc, m_fmask, m_freeN, m_out]

theorem State.afterStop_cut {m : Area → Bool} (o s : State) (m_regs : m .regs := by assumption) (m_pwr : m .pwr := by assumption) (m_hst : m .hst := by assumption) (m_stg : m .stg := by assumption) (m_tabs : m .tabs := by assumption) (m_evt : m .evt := by assumption) (m_gen : m .gen := by assumption) (m_rdg : m .rdg := by assumption) (m_fst : m .fst := by assumption) (m_links : m .links := by assumption) (m_thm : m .thm := by assumption) (m_drv : m .drv := by assumption) (m_pnl : m .pnl := by assumption) (m_hrt : m .hrt := by assumption) (m_bnk : m .bnk := by assumption) (m_win : m .win := by assumption) (m_mag : m .mag := by assumption) (m_thc : m .thc := by assumption) (m_fmask : m .fmask := by assumption) (m_freeN : m .freeN := by assumption) (m_out : m .out := by assumption) :
    (State.afterStop o s).cut m = s.cut m := by
  unfold State.afterStop
  split
  · exact (State.applyIdle_cut ..).trans ((State.setOverlayOpen_cut ..).trans (State.endAllRuns_cut ..))
  · rfl

theorem State.endStgCmd_cut {m : Area → Bool} (s : State) (status : ℕ) (id : Option ℕ) (m_regs : m .regs := by assumption) :
    (State.endStgCmd s status id).cut m = s.cut m := by
  unfold State.endStgCmd
  repeat' (first | split | simp only [↓State.setReg_cut, ↓State.setF_cut, m_regs])

theorem State.endRollWaits_cut {m : Area → Bool} (s : State) (t : Txn) (m_regs : m .regs := by assumption) (m_hst : m .hst := by assumption) (m_stg : m .stg := by assumption) (m_tabs : m .tabs := by assumption) (m_evt : m .evt := by assumption) (m_rdg : m .rdg := by assumption) (m_links : m .links := by assumption) (m_win : m .win := by assumption) (m_out : m .out := by assumption) :
    (State.endRollWaits s t).cut m = s.cut m := by
  unfold State.endRollWaits
  repeat' (first | (with_reducible refine (foldl_cut _ _ _ fun s x => ?_).trans ?_) | split | simp only [↓State.onStg_cut, ↓State.finish_cut, ↓State.endStgCmd_cut, m_regs, m_hst, m_stg, m_tabs, m_evt, m_rdg, m_links, m_win, m_out])

theorem State.endCommit_cut {m : Area → Bool} (s : State) (t : Txn) (c : Cpl) (m_regs : m .regs := by assumption) (m_hst : m .hst := by assumption) (m_stg : m .stg := by assumption) (m_tabs : m .tabs := by assumption) (m_evt : m .evt := by assumption) (m_rdg : m .rdg := by assumption) (m_links : m .links := by assumption) (m_win : m .win := by assumption) (m_out : m .out := by assumption) :
    (State.endCommit s t c).cut m = s.cut m := by
  unfold State.endCommit
  simp only [↓State.endDisable_cut, ↓State.finish_cut, ↓State.endStgCmd_cut, ↓State.endRollWaits_cut, ↓apply_ite (State.cut m), ite_self, m_regs, m_hst, m_stg, m_tabs, m_evt, m_rdg, m_links, m_win, m_out]

theorem State.dropIdle_cut {m : Area → Bool} (s : State) (m1 : AMap Word) (m_stg : m .stg := by assumption) :
    (State.dropIdle s m1).cut m = s.cut m := by
  unfold State.dropIdle
  simp only [↓State.onStg_cut, ↓apply_ite (State.cut m), ite_self, m_stg]

theorem State.waitIdle_cut {m : Area → Bool} (s : State) (m1 : AMap Word) (id : ℕ) (gated : Bool) (m_stg : m .stg := by assumption) :
    (State.waitIdle s m1 id gated).cut m = s.cut m := by
  unfold State.waitIdle
  repeat' (first | (with_reducible refine (foldl_cut _ _ _ fun s x => ?_).trans ?_) | split | simp only [↓State.onStg_cut, m_stg])

theorem State.acceptNow_cut {m : Area → Bool} (s : State) (t : Txn) (m_regs : m .regs := by assumption) (m_pwr : m .pwr := by assumption) (m_hst : m .hst := by assumption) (m_stg : m .stg := by assumption) (m_tabs : m .tabs := by assumption) (m_evt : m .evt := by assumption) (m_gen : m .gen := by assumption) (m_rdg : m .rdg := by assumption) (m_fst : m .fst := by assumption) (m_links : m .links := by assumption) (m_thm : m .thm := by assumption) (m_drv : m .drv := by assumption) (m_pnl : m .pnl := by assumption) (m_hrt : m .hrt := by assumption) (m_bnk : m .bnk := by assumption) (m_win : m .win := by assumption) (m_mag : m .mag := by assumption) (m_thc : m .thc := by assumption) (m_fmask : m .fmask := by assumption) (m_freeN : m .freeN := by assumption) (m_out : m .out := by assumption) :
    (State.acceptNow s t).cut m = s.cut m := by
  unfold State.acceptNow
  simp only [↓State.signal_cut, ↓State.syncStg_cut, ↓State.exchange_cut, ↓State.putInForce_cut, ↓State.placeNow_cut, ↓State.afterStop_cut, ↓State.endCommit_cut, ↓State.dropIdle_cut, ↓apply_ite (State.cut m), ite_self, m_regs, m_pwr, m_hst, m_stg, m_tabs, m_evt, m_gen, m_rdg, m_fst, m_links, m_thm, m_drv, m_pnl, m_hrt, m_bnk, m_win, m_mag, m_thc, m_fmask, m_freeN, m_out]

theorem State.acceptLater_cut {m : Area → Bool} (s : State) (t : Txn) (m_regs : m .regs := by assumption) (m_pwr : m .pwr := by assumption) (m_hst : m .hst := by assumption) (m_stg : m .stg := by assumption) (m_tabs : m .tabs := by assumption) (m_evt : m .evt := by assumption) (m_gen : m .gen := by assumption) (m_rdg : m .rdg := by assumption) (m_fst : m .fst := by assumption) (m_links : m .links := by assumption) (m_thm : m .thm := by assumption) (m_drv : m .drv := by assumption) (m_pnl : m .pnl := by assumption) (m_hrt : m .hrt := by assumption) (m_bnk : m .bnk := by assumption) (m_win : m .win := by assumption) (m_mag : m .mag := by assumption) (m_thc : m .thc := by assumption) (m_fmask : m .fmask := by assumption) (m_freeN : m .freeN := by assumption) (m_out : m .out := by assumption) :
    (State.acceptLater s t).cut m = s.cut m := by
  unfold State.acceptLater
  simp only [↓State.onStg_cut, ↓State.signal_cut, ↓State.syncStg_cut, ↓State.putInForce_cut, ↓State.endIdleWaits_cut, ↓State.afterStop_cut, ↓State.endRollWaits_cut, ↓State.endCommit_cut, ↓State.dropIdle_cut, ↓State.waitIdle_cut, ↓apply_ite (State.cut m), ite_self, m_regs, m_pwr, m_hst, m_stg, m_tabs, m_evt, m_gen, m_rdg, m_fst, m_links, m_thm, m_drv, m_pnl, m_hrt, m_bnk, m_win, m_mag, m_thc, m_fmask, m_freeN, m_out]

theorem State.undecide_cut {m : Area → Bool} (s : State) (m_regs : m .regs := by assumption) (m_hrt : m .hrt := by assumption) :
    (State.undecide s).cut m = s.cut m := by
  unfold State.undecide
  repeat' (first | (with_reducible refine (foldl_cut _ _ _ fun s x => ?_).trans ?_) | split | simp only [↓State.onHrt_cut, ↓State.syncRun_cut, m_regs, m_hrt])

theorem State.redecide_cut {m : Area → Bool} (o : State) (s : State) (m_regs : m .regs := by assumption) (m_pwr : m .pwr := by assumption) (m_hst : m .hst := by assumption) (m_evt : m .evt := by assumption) (m_gen : m .gen := by assumption) (m_rdg : m .rdg := by assumption) (m_fst : m .fst := by assumption) (m_links : m .links := by assumption) (m_hrt : m .hrt := by assumption) (m_mag : m .mag := by assumption) (m_out : m .out := by assumption) :
    (State.redecide o s).cut m = s.cut m := by
  unfold State.redecide
  repeat' (first | split | simp only [↓State.slotDeadline_cut, ↓State.undecide_cut, ↓apply_ite (State.cut m), ite_self, m_regs, m_pwr, m_hst, m_evt, m_gen, m_rdg, m_fst, m_links, m_hrt, m_mag, m_out])

theorem State.acceptCommit_cut {m : Area → Bool} (s : State) (t : Txn) (m_regs : m .regs := by assumption) (m_pwr : m .pwr := by assumption) (m_hst : m .hst := by assumption) (m_stg : m .stg := by assumption) (m_tabs : m .tabs := by assumption) (m_evt : m .evt := by assumption) (m_gen : m .gen := by assumption) (m_rdg : m .rdg := by assumption) (m_fst : m .fst := by assumption) (m_links : m .links := by assumption) (m_thm : m .thm := by assumption) (m_drv : m .drv := by assumption) (m_pnl : m .pnl := by assumption) (m_hrt : m .hrt := by assumption) (m_bnk : m .bnk := by assumption) (m_win : m .win := by assumption) (m_mag : m .mag := by assumption) (m_thc : m .thc := by assumption) (m_fmask : m .fmask := by assumption) (m_freeN : m .freeN := by assumption) (m_out : m .out := by assumption) :
    (State.acceptCommit s t).cut m = s.cut m := by
  unfold State.acceptCommit
  simp only [↓State.onStg_cut, ↓State.leaveSlot_cut, ↓State.acceptNow_cut, ↓State.acceptLater_cut, ↓State.redecide_cut, ↓apply_ite (State.cut m), ite_self, m_regs, m_pwr, m_hst, m_stg, m_tabs, m_evt, m_gen, m_rdg, m_fst, m_links, m_thm, m_drv, m_pnl, m_hrt, m_bnk, m_win, m_mag, m_thc, m_fmask, m_freeN, m_out]

theorem State.decideCommit_cut {m : Area → Bool} (s : State) (t : Txn) (m_regs : m .regs := by assumption) (m_pwr : m .pwr := by assumption) (m_hst : m .hst := by assumption) (m_stg : m .stg := by assumption) (m_tabs : m .tabs := by assumption) (m_evt : m .evt := by assumption) (m_gen : m .gen := by assumption) (m_rdg : m .rdg := by assumption) (m_fst : m .fst := by assumption) (m_links : m .links := by assumption) (m_thm : m .thm := by assumption) (m_drv : m .drv := by assumption) (m_pnl : m .pnl := by assumption) (m_hrt : m .hrt := by assumption) (m_bnk : m .bnk := by assumption) (m_win : m .win := by assumption) (m_mag : m .mag := by assumption) (m_thc : m .thc := by assumption) (m_fmask : m .fmask := by assumption) (m_freeN : m .freeN := by assumption) (m_out : m .out := by assumption) :
    (State.decideCommit s t).cut m = s.cut m := by
  unfold State.decideCommit
  repeat' (first | (with_reducible refine (foldl_cut _ _ _ fun s x => ?_).trans ?_) | split | simp only [↓State.failCommit_cut, ↓State.endCommit_cut, ↓State.acceptCommit_cut, m_regs, m_pwr, m_hst, m_stg, m_tabs, m_evt, m_gen, m_rdg, m_fst, m_links, m_thm, m_drv, m_pnl, m_hrt, m_bnk, m_win, m_mag, m_thc, m_fmask, m_freeN, m_out])

theorem State.commitEnds_cut {m : Area → Bool} (s : State) (c : ℕ) (inFreeze : Bool) (m_regs : m .regs := by assumption) (m_pwr : m .pwr := by assumption) (m_hst : m .hst := by assumption) (m_stg : m .stg := by assumption) (m_tabs : m .tabs := by assumption) (m_evt : m .evt := by assumption) (m_gen : m .gen := by assumption) (m_rdg : m .rdg := by assumption) (m_fst : m .fst := by assumption) (m_links : m .links := by assumption) (m_thm : m .thm := by assumption) (m_drv : m .drv := by assumption) (m_pnl : m .pnl := by assumption) (m_hrt : m .hrt := by assumption) (m_bnk : m .bnk := by assumption) (m_win : m .win := by assumption) (m_mag : m .mag := by assumption) (m_thc : m .thc := by assumption) (m_fmask : m .fmask := by assumption) (m_freeN : m .freeN := by assumption) (m_out : m .out := by assumption) :
    (State.commitEnds s c inFreeze).cut m = s.cut m := by
  unfold State.commitEnds
  repeat' (first | split | simp only [↓State.onStg_cut, ↓State.setTxn_cut, ↓State.endStgCmd_cut, ↓State.decideCommit_cut, m_regs, m_pwr, m_hst, m_stg, m_tabs, m_evt, m_gen, m_rdg, m_fst, m_links, m_thm, m_drv, m_pnl, m_hrt, m_bnk, m_win, m_mag, m_thc, m_fmask, m_freeN, m_out])

theorem State.applyPending_cut {m : Area → Bool} (s : State) (p : Pending) (m_regs : m .regs := by assumption) (m_pwr : m .pwr := by assumption) (m_hst : m .hst := by assumption) (m_stg : m .stg := by assumption) (m_tabs : m .tabs := by assumption) (m_evt : m .evt := by assumption) (m_gen : m .gen := by assumption) (m_rdg : m .rdg := by assumption) (m_fst : m .fst := by assumption) (m_links : m .links := by assumption) (m_thm : m .thm := by assumption) (m_drv : m .drv := by assumption) (m_pnl : m .pnl := by assumption) (m_bnk : m .bnk := by assumption) (m_win : m .win := by assumption) (m_mag : m .mag := by assumption) (m_thc : m .thc := by assumption) (m_fmask : m .fmask := by assumption) (m_freeN : m .freeN := by assumption) (m_out : m .out := by assumption) :
    (State.applyPending s p).cut m = s.cut m := by
  unfold State.applyPending
  simp only [↓State.onStg_cut, ↓State.syncStg_cut, ↓State.finish_cut, ↓State.exchange_cut, ↓State.putInForce_cut, ↓apply_ite (State.cut m), ite_self, m_regs, m_pwr, m_hst, m_stg, m_tabs, m_evt, m_gen, m_rdg, m_fst, m_links, m_thm, m_drv, m_pnl, m_bnk, m_win, m_mag, m_thc, m_fmask, m_freeN, m_out]

theorem State.ungateIdle_cut {m : Area → Bool} (s : State) (m_stg : m .stg := by assumption) :
    (State.ungateIdle s).cut m = s.cut m := by
  unfold State.ungateIdle
  simp only [↓State.onStg_cut, ↓apply_ite (State.cut m), ite_self, m_stg]

theorem State.applyPendings_cut {m : Area → Bool} (s : State) (l : List Pending) (m_regs : m .regs := by assumption) (m_pwr : m .pwr := by assumption) (m_hst : m .hst := by assumption) (m_stg : m .stg := by assumption) (m_tabs : m .tabs := by assumption) (m_evt : m .evt := by assumption) (m_gen : m .gen := by assumption) (m_rdg : m .rdg := by assumption) (m_fst : m .fst := by assumption) (m_links : m .links := by assumption) (m_thm : m .thm := by assumption) (m_drv : m .drv := by assumption) (m_pnl : m .pnl := by assumption) (m_bnk : m .bnk := by assumption) (m_win : m .win := by assumption) (m_mag : m .mag := by assumption) (m_thc : m .thc := by assumption) (m_fmask : m .fmask := by assumption) (m_freeN : m .freeN := by assumption) (m_out : m .out := by assumption) :
    (State.applyPendings s l).cut m = s.cut m := by
  unfold State.applyPendings
  repeat' (first | (with_reducible refine (foldl_cut _ _ _ fun s x => ?_).trans ?_) | split | simp only [↓State.signal_cut, ↓State.putIdle_cut, ↓State.applyPending_cut, ↓State.ungateIdle_cut, m_regs, m_pwr, m_hst, m_stg, m_tabs, m_evt, m_gen, m_rdg, m_fst, m_links, m_thm, m_drv, m_pnl, m_bnk, m_win, m_mag, m_thc, m_fmask, m_freeN, m_out])

theorem State.panelPinsOff_cut {m : Area → Bool} (s : State) (m_regs : m .regs := by assumption) (m_evt : m .evt := by assumption) (m_drv : m .drv := by assumption) (m_pnl : m .pnl := by assumption) (m_out : m .out := by assumption) :
    (State.panelPinsOff s).cut m = s.cut m := by
  unfold State.panelPinsOff
  repeat' (first | (with_reducible refine (foldl_cut _ _ _ fun s x => ?_).trans ?_) | split | simp only [↓State.setRail_cut, ↓State.panelOutputsOff_cut, m_regs, m_evt, m_drv, m_pnl, m_out])

theorem State.restart_cut {m : Area → Bool} (s : State) (c : ResetClass) (m_regs : m .regs := by assumption) (m_rst : m .rst := by assumption) (m_pwr : m .pwr := by assumption) (m_hst : m .hst := by assumption) (m_stg : m .stg := by assumption) (m_tabs : m .tabs := by assumption) (m_evt : m .evt := by assumption) (m_gen : m .gen := by assumption) (m_rdg : m .rdg := by assumption) (m_fst : m .fst := by assumption) (m_links : m .links := by assumption) (m_thm : m .thm := by assumption) (m_drv : m .drv := by assumption) (m_pipe : m .pipe := by assumption) (m_cal : m .cal := by assumption) (m_pnl : m .pnl := by assumption) (m_hrt : m .hrt := by assumption) (m_bnk : m .bnk := by assumption) (m_win : m .win := by assumption) (m_mag : m .mag := by assumption) (m_thc : m .thc := by assumption) (m_relay : m .relay := by assumption) (m_jtag : m .jtag := by assumption) (m_fmask : m .fmask := by assumption) (m_aon : m .aon := by assumption) (m_fsEpoch : m .fsEpoch := by assumption) (m_out : m .out := by assumption) :
    (State.restart s c).cut m = s.cut m := by
  unfold State.restart
  extract_lets low s1 s3 z
  have h1 : s1.cut m = s.cut m := (State.outputsDown_cut ..).trans ((State.panelPinsOff_cut _).trans (cut_drv s [] m_drv))
  have h3 : s3.cut m = s1.cut m := by
    simp only [s3]
    split
    · exact State.emit_cut ..
    · rfl
  rw [← h1, ← h3]
  simp only [State.cut, if_true, m_regs, m_rst, m_pwr, m_hst, m_stg, m_tabs, m_evt, m_gen, m_rdg, m_fst, m_links, m_thm, m_drv, m_pipe, m_cal, m_pnl, m_hrt, m_bnk, m_win, m_mag, m_thc, m_relay, m_jtag, m_fmask, m_aon, m_fsEpoch, m_out]
  cases m .tmk <;> rfl

theorem State.setCause_cut {m : Area → Bool} (s : State) (f : Fld) (m_regs : m .regs := by assumption) :
    (State.setCause s f).cut m = s.cut m := by
  unfold State.setCause
  simp only [↓State.setF_cut, ↓apply_ite (State.cut m), ite_self, m_regs]

theorem execSupplyReset_cut {m : Area → Bool} (s : State) (m_regs : m .regs := by assumption) (m_rst : m .rst := by assumption) (m_pwr : m .pwr := by assumption) (m_hst : m .hst := by assumption) (m_stg : m .stg := by assumption) (m_tabs : m .tabs := by assumption) (m_evt : m .evt := by assumption) (m_gen : m .gen := by assumption) (m_rdg : m .rdg := by assumption) (m_fst : m .fst := by assumption) (m_links : m .links := by assumption) (m_thm : m .thm := by assumption) (m_drv : m .drv := by assumption) (m_pipe : m .pipe := by assumption) (m_cal : m .cal := by assumption) (m_pnl : m .pnl := by assumption) (m_hrt : m .hrt := by assumption) (m_bnk : m .bnk := by assumption) (m_win : m .win := by assumption) (m_mag : m .mag := by assumption) (m_thc : m .thc := by assumption) (m_relay : m .relay := by assumption) (m_jtag : m .jtag := by assumption) (m_fmask : m .fmask := by assumption) (m_aon : m .aon := by assumption) (m_fsEpoch : m .fsEpoch := by assumption) (m_out : m .out := by assumption) :
    outCut m (execSupplyReset s) = some (s.cut m) := by
  unfold execSupplyReset
  simp only [↓State.restart_cut, ↓apply_ite (State.cut m), ite_self, ↓outCut_next, ↓apply_ite (outCut m), m_regs, m_rst, m_pwr, m_hst, m_stg, m_tabs, m_evt, m_gen, m_rdg, m_fst, m_links, m_thm, m_drv, m_pipe, m_cal, m_pnl, m_hrt, m_bnk, m_win, m_mag, m_thc, m_relay, m_jtag, m_fmask, m_aon, m_fsEpoch, m_out]

theorem State.powerOnReset_cut {m : Area → Bool} (s : State) (m_regs : m .regs := by assumption) (m_rst : m .rst := by assumption) (m_pwr : m .pwr := by assumption) (m_hst : m .hst := by assumption) (m_stg : m .stg := by assumption) (m_tabs : m .tabs := by assumption) (m_evt : m .evt := by assumption) (m_gen : m .gen := by assumption) (m_rdg : m .rdg := by assumption) (m_fst : m .fst := by assumption) (m_links : m .links := by assumption) (m_thm : m .thm := by assumption) (m_drv : m .drv := by assumption) (m_pipe : m .pipe := by assumption) (m_cal : m .cal := by assumption) (m_pnl : m .pnl := by assumption) (m_hrt : m .hrt := by assumption) (m_bnk : m .bnk := by assumption) (m_win : m .win := by assumption) (m_mag : m .mag := by assumption) (m_thc : m .thc := by assumption) (m_relay : m .relay := by assumption) (m_jtag : m .jtag := by assumption) (m_fmask : m .fmask := by assumption) (m_aon : m .aon := by assumption) (m_fsEpoch : m .fsEpoch := by assumption) (m_out : m .out := by assumption) :
    (State.powerOnReset s).cut m = s.cut m := by
  unfold State.powerOnReset
  simp only [↓State.setF_cut, ↓State.bumpF_cut, ↓State.restart_cut, ↓State.setCause_cut, ↓apply_ite (State.cut m), ite_self, m_regs, m_rst, m_pwr, m_hst, m_stg, m_tabs, m_evt, m_gen, m_rdg, m_fst, m_links, m_thm, m_drv, m_pipe, m_cal, m_pnl, m_hrt, m_bnk, m_win, m_mag, m_thc, m_relay, m_jtag, m_fmask, m_aon, m_fsEpoch, m_out]

theorem execPorstNAssert_cut {m : Area → Bool} (s : State) (m_regs : m .regs := by assumption) (m_rst : m .rst := by assumption) (m_pwr : m .pwr := by assumption) (m_hst : m .hst := by assumption) (m_stg : m .stg := by assumption) (m_tabs : m .tabs := by assumption) (m_evt : m .evt := by assumption) (m_gen : m .gen := by assumption) (m_rdg : m .rdg := by assumption) (m_fst : m .fst := by assumption) (m_links : m .links := by assumption) (m_thm : m .thm := by assumption) (m_drv : m .drv := by assumption) (m_pipe : m .pipe := by assumption) (m_cal : m .cal := by assumption) (m_pnl : m .pnl := by assumption) (m_hrt : m .hrt := by assumption) (m_bnk : m .bnk := by assumption) (m_win : m .win := by assumption) (m_mag : m .mag := by assumption) (m_thc : m .thc := by assumption) (m_relay : m .relay := by assumption) (m_jtag : m .jtag := by assumption) (m_fmask : m .fmask := by assumption) (m_aon : m .aon := by assumption) (m_fsEpoch : m .fsEpoch := by assumption) (m_out : m .out := by assumption) :
    outCut m (execPorstNAssert s) = some (s.cut m) := by
  unfold execPorstNAssert
  simp only [↓State.powerOnReset_cut, ↓apply_ite (State.cut m), ite_self, ↓outCut_next, ↓apply_ite (outCut m), m_regs, m_rst, m_pwr, m_hst, m_stg, m_tabs, m_evt, m_gen, m_rdg, m_fst, m_links, m_thm, m_drv, m_pipe, m_cal, m_pnl, m_hrt, m_bnk, m_win, m_mag, m_thc, m_relay, m_jtag, m_fmask, m_aon, m_fsEpoch, m_out]

theorem State.applyWarm_cut {m : Area → Bool} (s : State) (last : ℕ) (m_regs : m .regs := by assumption) (m_rst : m .rst := by assumption) (m_pwr : m .pwr := by assumption) (m_hst : m .hst := by assumption) (m_stg : m .stg := by assumption) (m_tabs : m .tabs := by assumption) (m_evt : m .evt := by assumption) (m_gen : m .gen := by assumption) (m_rdg : m .rdg := by assumption) (m_fst : m .fst := by assumption) (m_links : m .links := by assumption) (m_thm : m .thm := by assumption) (m_drv : m .drv := by assumption) (m_pipe : m .pipe := by assumption) (m_cal : m .cal := by assumption) (m_pnl : m .pnl := by assumption) (m_hrt : m .hrt := by assumption) (m_bnk : m .bnk := by assumption) (m_win : m .win := by assumption) (m_mag : m .mag := by assumption) (m_thc : m .thc := by assumption) (m_relay : m .relay := by assumption) (m_jtag : m .jtag := by assumption) (m_fmask : m .fmask := by assumption) (m_aon : m .aon := by assumption) (m_fsEpoch : m .fsEpoch := by assumption) (m_out : m .out := by assumption) :
    (State.applyWarm s last).cut m = s.cut m := by
  unfold State.applyWarm
  simp only [↓State.setF_cut, ↓State.bumpF_cut, ↓State.restart_cut, ↓State.setCause_cut, ↓apply_ite (State.cut m), ite_self, m_regs, m_rst, m_pwr, m_hst, m_stg, m_tabs, m_evt, m_gen, m_rdg, m_fst, m_links, m_thm, m_drv, m_pipe, m_cal, m_pnl, m_hrt, m_bnk, m_win, m_mag, m_thc, m_relay, m_jtag, m_fmask, m_aon, m_fsEpoch, m_out]

theorem State.pcieDown_cut {m : Area → Bool} (s : State) (m_regs : m .regs := by assumption) (m_hst : m .hst := by assumption) (m_rdg : m .rdg := by assumption) (m_links : m .links := by assumption) (m_out : m .out := by assumption) :
    (State.pcieDown s).cut m = s.cut m := by
  unfold State.pcieDown
  simp only [↓State.onHst_cut, ↓State.configDefaults_cut, ↓State.announce_cut, ↓State.syncHead_cut, ↓apply_ite (State.cut m), ite_self, m_regs, m_hst, m_rdg, m_links, m_out]

theorem State.warmReset_cut {m : Area → Bool} (s : State) (last : ℕ) (m_regs : m .regs := by assumption) (m_rst : m .rst := by assumption) (m_pwr : m .pwr := by assumption) (m_hst : m .hst := by assumption) (m_stg : m .stg := by assumption) (m_tabs : m .tabs := by assumption) (m_evt : m .evt := by assumption) (m_gen : m .gen := by assumption) (m_rdg : m .rdg := by assumption) (m_fst : m .fst := by assumption) (m_links : m .links := by assumption) (m_thm : m .thm := by assumption) (m_drv : m .drv := by assumption) (m_pipe : m .pipe := by assumption) (m_cal : m .cal := by assumption) (m_pnl : m .pnl := by assumption) (m_hrt : m .hrt := by assumption) (m_bnk : m .bnk := by assumption) (m_win : m .win := by assumption) (m_mag : m .mag := by assumption) (m_thc : m .thc := by assumption) (m_relay : m .relay := by assumption) (m_jtag : m .jtag := by assumption) (m_fmask : m .fmask := by assumption) (m_aon : m .aon := by assumption) (m_freeN : m .freeN := by assumption) (m_fsEpoch : m .fsEpoch := by assumption) (m_out : m .out := by assumption) :
    (State.warmReset s last).cut m = s.cut m := by
  unfold State.warmReset
  simp only [↓State.onRst_cut, ↓State.beginOff_cut, ↓State.afterStop_cut, ↓State.applyWarm_cut, ↓State.pcieDown_cut, ↓apply_ite (State.cut m), ite_self, m_regs, m_rst, m_pwr, m_hst, m_stg, m_tabs, m_evt, m_gen, m_rdg, m_fst, m_links, m_thm, m_drv, m_pipe, m_cal, m_pnl, m_hrt, m_bnk, m_win, m_mag, m_thc, m_relay, m_jtag, m_fmask, m_aon, m_freeN, m_fsEpoch, m_out]

theorem execWarmrstNAssert_cut {m : Area → Bool} (s : State) (m_regs : m .regs := by assumption) (m_rst : m .rst := by assumption) (m_pwr : m .pwr := by assumption) (m_hst : m .hst := by assumption) (m_stg : m .stg := by assumption) (m_tabs : m .tabs := by assumption) (m_evt : m .evt := by assumption) (m_gen : m .gen := by assumption) (m_rdg : m .rdg := by assumption) (m_fst : m .fst := by assumption) (m_links : m .links := by assumption) (m_thm : m .thm := by assumption) (m_drv : m .drv := by assumption) (m_pipe : m .pipe := by assumption) (m_cal : m .cal := by assumption) (m_pnl : m .pnl := by assumption) (m_hrt : m .hrt := by assumption) (m_bnk : m .bnk := by assumption) (m_win : m .win := by assumption) (m_mag : m .mag := by assumption) (m_thc : m .thc := by assumption) (m_relay : m .relay := by assumption) (m_jtag : m .jtag := by assumption) (m_fmask : m .fmask := by assumption) (m_aon : m .aon := by assumption) (m_freeN : m .freeN := by assumption) (m_fsEpoch : m .fsEpoch := by assumption) (m_out : m .out := by assumption) :
    outCut m (execWarmrstNAssert s) = some (s.cut m) := by
  unfold execWarmrstNAssert
  simp only [↓State.warmReset_cut, ↓apply_ite (State.cut m), ite_self, ↓outCut_next, ↓apply_ite (outCut m), m_regs, m_rst, m_pwr, m_hst, m_stg, m_tabs, m_evt, m_gen, m_rdg, m_fst, m_links, m_thm, m_drv, m_pipe, m_cal, m_pnl, m_hrt, m_bnk, m_win, m_mag, m_thc, m_relay, m_jtag, m_fmask, m_aon, m_freeN, m_fsEpoch, m_out]

theorem State.writeReset_cut {m : Area → Bool} (s : State) (v : Word) (m_regs : m .regs := by assumption) (m_rst : m .rst := by assumption) (m_pwr : m .pwr := by assumption) (m_hst : m .hst := by assumption) (m_stg : m .stg := by assumption) (m_tabs : m .tabs := by assumption) (m_evt : m .evt := by assumption) (m_gen : m .gen := by assumption) (m_rdg : m .rdg := by assumption) (m_fst : m .fst := by assumption) (m_links : m .links := by assumption) (m_thm : m .thm := by assumption) (m_drv : m .drv := by assumption) (m_pipe : m .pipe := by assumption) (m_cal : m .cal := by assumption) (m_pnl : m .pnl := by assumption) (m_hrt : m .hrt := by assumption) (m_bnk : m .bnk := by assumption) (m_win : m .win := by assumption) (m_mag : m .mag := by assumption) (m_thc : m .thc := by assumption) (m_relay : m .relay := by assumption) (m_jtag : m .jtag := by assumption) (m_fmask : m .fmask := by assumption) (m_aon : m .aon := by assumption) (m_freeN : m .freeN := by assumption) (m_fsEpoch : m .fsEpoch := by assumption) (m_out : m .out := by assumption) :
    (State.writeReset s v).cut m = s.cut m := by
  unfold State.writeReset
  simp only [↓State.event_cut, ↓State.warmReset_cut, ↓apply_ite (State.cut m), ite_self, m_regs, m_rst, m_pwr, m_hst, m_stg, m_tabs, m_evt, m_gen, m_rdg, m_fst, m_links, m_thm, m_drv, m_pipe, m_cal, m_pnl, m_hrt, m_bnk, m_win, m_mag, m_thc, m_relay, m_jtag, m_fmask, m_aon, m_freeN, m_fsEpoch, m_out]

theorem execGblResetWrite_cut {m : Area → Bool} (v : Word) (s : State) (m_regs : m .regs := by assumption) (m_rst : m .rst := by assumption) (m_pwr : m .pwr := by assumption) (m_hst : m .hst := by assumption) (m_stg : m .stg := by assumption) (m_tabs : m .tabs := by assumption) (m_evt : m .evt := by assumption) (m_gen : m .gen := by assumption) (m_rdg : m .rdg := by assumption) (m_fst : m .fst := by assumption) (m_links : m .links := by assumption) (m_thm : m .thm := by assumption) (m_drv : m .drv := by assumption) (m_pipe : m .pipe := by assumption) (m_cal : m .cal := by assumption) (m_pnl : m .pnl := by assumption) (m_hrt : m .hrt := by assumption) (m_bnk : m .bnk := by assumption) (m_win : m .win := by assumption) (m_mag : m .mag := by assumption) (m_thc : m .thc := by assumption) (m_relay : m .relay := by assumption) (m_jtag : m .jtag := by assumption) (m_fmask : m .fmask := by assumption) (m_aon : m .aon := by assumption) (m_freeN : m .freeN := by assumption) (m_fsEpoch : m .fsEpoch := by assumption) (m_out : m .out := by assumption) :
    outCut m (execGblResetWrite v s) = some (s.cut m) := by
  unfold execGblResetWrite
  repeat' (first | (refine congrArg some ?_) | (with_reducible refine (State.viaHst_cut (h_f := fun y0 => ?_) (s := _)).trans ?_) | split | simp only [↓State.writeReset_cut, m_regs, m_rst, m_pwr, m_hst, m_stg, m_tabs, m_evt, m_gen, m_rdg, m_fst, m_links, m_thm, m_drv, m_pipe, m_cal, m_pnl, m_hrt, m_bnk, m_win, m_mag, m_thc, m_relay, m_jtag, m_fmask, m_aon, m_freeN, m_fsEpoch, m_out])

theorem State.afterPanel_cut {m : Area → Bool} (s : State) (m_regs : m .regs := by assumption) (m_rst : m .rst := by assumption) (m_pwr : m .pwr := by assumption) (m_hst : m .hst := by assumption) (m_stg : m .stg := by assumption) (m_tabs : m .tabs := by assumption) (m_evt : m .evt := by assumption) (m_gen : m .gen := by assumption) (m_rdg : m .rdg := by assumption) (m_fst : m .fst := by assumption) (m_links : m .links := by assumption) (m_thm : m .thm := by assumption) (m_drv : m .drv := by assumption) (m_pipe : m .pipe := by assumption) (m_cal : m .cal := by assumption) (m_pnl : m .pnl := by assumption) (m_hrt : m .hrt := by assumption) (m_bnk : m .bnk := by assumption) (m_win : m .win := by assumption) (m_mag : m .mag := by assumption) (m_thc : m .thc := by assumption) (m_relay : m .relay := by assumption) (m_jtag : m .jtag := by assumption) (m_fmask : m .fmask := by assumption) (m_aon : m .aon := by assumption) (m_fsEpoch : m .fsEpoch := by assumption) (m_out : m .out := by assumption) :
    (State.afterPanel s).cut m = s.cut m := by
  unfold State.afterPanel
  repeat' (first | split | simp only [↓State.applyWarm_cut, m_regs, m_rst, m_pwr, m_hst, m_stg, m_tabs, m_evt, m_gen, m_rdg, m_fst, m_links, m_thm, m_drv, m_pipe, m_cal, m_pnl, m_hrt, m_bnk, m_win, m_mag, m_thc, m_relay, m_jtag, m_fmask, m_aon, m_fsEpoch, m_out])

theorem execPanelOffTimeout_cut {m : Area → Bool} (s : State) (m_regs : m .regs := by assumption) (m_rst : m .rst := by assumption) (m_pwr : m .pwr := by assumption) (m_hst : m .hst := by assumption) (m_stg : m .stg := by assumption) (m_tabs : m .tabs := by assumption) (m_evt : m .evt := by assumption) (m_gen : m .gen := by assumption) (m_rdg : m .rdg := by assumption) (m_fst : m .fst := by assumption) (m_links : m .links := by assumption) (m_thm : m .thm := by assumption) (m_drv : m .drv := by assumption) (m_pipe : m .pipe := by assumption) (m_cal : m .cal := by assumption) (m_pnl : m .pnl := by assumption) (m_hrt : m .hrt := by assumption) (m_bnk : m .bnk := by assumption) (m_win : m .win := by assumption) (m_mag : m .mag := by assumption) (m_thc : m .thc := by assumption) (m_relay : m .relay := by assumption) (m_jtag : m .jtag := by assumption) (m_fmask : m .fmask := by assumption) (m_aon : m .aon := by assumption) (m_fsEpoch : m .fsEpoch := by assumption) (m_out : m .out := by assumption) :
    outCut m (execPanelOffTimeout s) = some (s.cut m) := by
  unfold execPanelOffTimeout
  repeat' (first | (refine congrArg some ?_) | split | simp only [↓State.setCause_cut, ↓State.applyWarm_cut, m_regs, m_rst, m_pwr, m_hst, m_stg, m_tabs, m_evt, m_gen, m_rdg, m_fst, m_links, m_thm, m_drv, m_pipe, m_cal, m_pnl, m_hrt, m_bnk, m_win, m_mag, m_thc, m_relay, m_jtag, m_fmask, m_aon, m_fsEpoch, m_out])

theorem State.abandonDescs_cut {m : Area → Bool} (s : State) (m_regs : m .regs := by assumption) (m_tabs : m .tabs := by assumption) (m_rdg : m .rdg := by assumption) (m_cal : m .cal := by assumption) (m_mag : m .mag := by assumption) (m_thc : m .thc := by assumption) (m_relay : m .relay := by assumption) :
    (State.abandonDescs s).cut m = s.cut m := by
  unfold State.abandonDescs
  repeat' (first | (with_reducible refine (foldl_cut _ _ _ fun s x => ?_).trans ?_) | split | simp only [↓State.setF_cut, ↓State.onRdg_cut, ↓State.onCal_cut, ↓State.onMag_cut, ↓State.onThc_cut, ↓State.setEngine_cut, ↓State.setRelays_cut, ↓cut_tabs, m_regs, m_tabs, m_rdg, m_cal, m_mag, m_thc, m_relay])

theorem State.hostReset_cut {m : Area → Bool} (s : State) (m_regs : m .regs := by assumption) (m_rst : m .rst := by assumption) (m_pwr : m .pwr := by assumption) (m_hst : m .hst := by assumption) (m_stg : m .stg := by assumption) (m_tabs : m .tabs := by assumption) (m_evt : m .evt := by assumption) (m_rdg : m .rdg := by assumption) (m_links : m .links := by assumption) (m_cal : m .cal := by assumption) (m_win : m .win := by assumption) (m_mag : m .mag := by assumption) (m_thc : m .thc := by assumption) (m_relay : m .relay := by assumption) (m_out : m .out := by assumption) :
    (State.hostReset s).cut m = s.cut m := by
  unfold State.hostReset
  extract_lets +onlyGivenNames loads s1 s2
  have h1 : s1.cut m = s.cut m := (State.abandonDescs_cut _).trans (State.pcieDown_cut _)
  have h2 : s2.cut m = s1.cut m := State.restartRegs_cut _ _
  clear_value s2
  simp only [↓State.onRst_cut, ↓State.setF_cut, ↓State.setCause_cut, ↓State.dropReady_cut, ↓State.onPwr_cut, ↓State.syncStg_cut, m_regs, m_rst, m_pwr, m_hst, m_stg, m_tabs, m_evt, m_rdg, m_links, m_cal, m_win, m_mag, m_thc, m_relay, m_out]
  refine (foldl_cut _ _ _ fun s x => State.startResync_cut _ _).trans ?_
  refine Eq.trans ?_ (h2.trans h1)
  simp only [State.cut, if_true, m_regs, m_rst, m_pwr, m_hst, m_stg, m_tabs, m_evt, m_rdg, m_links, m_cal, m_win, m_mag, m_thc, m_relay, m_out]

theorem execHostPortResetEnd_cut {m : Area → Bool} (s : State) (m_regs : m .regs := by assumption) (m_rst : m .rst := by assumption) (m_hst : m .hst := by assumption) (m_rdg : m .rdg := by assumption) (m_links : m .links := by assumption) (m_out : m .out := by assumption) :
    outCut m (execHostPortResetEnd s) = some (s.cut m) := by
  unfold execHostPortResetEnd
  simp only [↓State.onRst_cut, ↓State.setReady_cut, ↓State.tmkOpen_cut, ↓apply_ite (State.cut m), ite_self, ↓outCut_next, ↓apply_ite (outCut m), m_regs, m_rst, m_hst, m_rdg, m_links, m_out]

theorem State.stopStartup_cut {m : Area → Bool} (s : State) (step : ℕ) (f : Fld) (m_regs : m .regs := by assumption) (m_rst : m .rst := by assumption) (m_pwr : m .pwr := by assumption) (m_hst : m .hst := by assumption) (m_stg : m .stg := by assumption) (m_evt : m .evt := by assumption) (m_gen : m .gen := by assumption) (m_rdg : m .rdg := by assumption) (m_links : m .links := by assumption) (m_thm : m .thm := by assumption) (m_drv : m .drv := by assumption) (m_cal : m .cal := by assumption) (m_pnl : m .pnl := by assumption) (m_bnk : m .bnk := by assumption) (m_mag : m .mag := by assumption) (m_thc : m .thc := by assumption) (m_relay : m .relay := by assumption) (m_out : m .out := by assumption) :
    (State.stopStartup s step f).cut m = s.cut m := by
  unfold State.stopStartup
  simp only [↓State.setReg_cut, ↓State.setF_cut, ↓State.onRst_cut, ↓State.alarm_cut, ↓State.coreDown_cut, ↓State.setCause_cut, ↓apply_ite (State.cut m), ite_self, m_regs, m_rst, m_pwr, m_hst, m_stg, m_evt, m_gen, m_rdg, m_links, m_thm, m_drv, m_cal, m_pnl, m_bnk, m_mag, m_thc, m_relay, m_out]

theorem execStrapSample_cut {m : Area → Bool} (straps : BitVec 8) (s : State) (m_regs : m .regs := by assumption) (m_rst : m .rst := by assumption) (m_pwr : m .pwr := by assumption) (m_hst : m .hst := by assumption) (m_stg : m .stg := by assumption) (m_evt : m .evt := by assumption) (m_gen : m .gen := by assumption) (m_rdg : m .rdg := by assumption) (m_links : m .links := by assumption) (m_thm : m .thm := by assumption) (m_drv : m .drv := by assumption) (m_cal : m .cal := by assumption) (m_pnl : m .pnl := by assumption) (m_bnk : m .bnk := by assumption) (m_mag : m .mag := by assumption) (m_thc : m .thc := by assumption) (m_relay : m .relay := by assumption) (m_out : m .out := by assumption) :
    outCut m (execStrapSample straps s) = some (s.cut m) := by
  unfold execStrapSample
  simp only [↓State.setReg_cut, ↓State.onRst_cut, ↓State.stopStartup_cut, ↓apply_ite (State.cut m), ite_self, ↓outCut_next, ↓apply_ite (outCut m), m_regs, m_rst, m_pwr, m_hst, m_stg, m_evt, m_gen, m_rdg, m_links, m_thm, m_drv, m_cal, m_pnl, m_bnk, m_mag, m_thc, m_relay, m_out]

theorem execWarmResetRelease_cut {m : Area → Bool} (s : State) (m_rst : m .rst := by assumption) :
    outCut m (execWarmResetRelease s) = some (s.cut m) := by
  unfold execWarmResetRelease
  simp only [↓State.onRst_cut, ↓apply_ite (State.cut m), ite_self, ↓outCut_next, ↓apply_ite (outCut m), m_rst]

theorem execStartupRailTimeout_cut {m : Area → Bool} (refclkBad : Bool) (s : State) (m_regs : m .regs := by assumption) (m_rst : m .rst := by assumption) (m_pwr : m .pwr := by assumption) (m_hst : m .hst := by assumption) (m_stg : m .stg := by assumption) (m_evt : m .evt := by assumption) (m_gen : m .gen := by assumption) (m_rdg : m .rdg := by assumption) (m_links : m .links := by assumption) (m_thm : m .thm := by assumption) (m_drv : m .drv := by assumption) (m_cal : m .cal := by assumption) (m_pnl : m .pnl := by assumption) (m_bnk : m .bnk := by assumption) (m_mag : m .mag := by assumption) (m_thc : m .thc := by assumption) (m_relay : m .relay := by assumption) (m_out : m .out := by assumption) :
    outCut m (execStartupRailTimeout refclkBad s) = some (s.cut m) := by
  unfold execStartupRailTimeout
  simp only [↓State.stopStartup_cut, ↓apply_ite (State.cut m), ite_self, ↓outCut_next, ↓apply_ite (outCut m), m_regs, m_rst, m_pwr, m_hst, m_stg, m_evt, m_gen, m_rdg, m_links, m_thm, m_drv, m_cal, m_pnl, m_bnk, m_mag, m_thc, m_relay, m_out]

theorem State.domainUp_cut {m : Area → Bool} (s : State) (d : ℕ) (m_regs : m .regs := by assumption) (m_pwr : m .pwr := by assumption) (m_hst : m .hst := by assumption) (m_evt : m .evt := by assumption) (m_rdg : m .rdg := by assumption) (m_links : m .links := by assumption) (m_thm : m .thm := by assumption) (m_mag : m .mag := by assumption) (m_out : m .out := by assumption) :
    (State.domainUp s d).cut m = s.cut m := by
  unfold State.domainUp
  repeat' (first | (with_reducible refine (foldl_cut _ _ _ fun s x => ?_).trans ?_) | split | simp only [↓State.setDomain_cut, ↓State.onPwr_cut, ↓State.toDetect_cut, ↓State.syncBanks_cut, ↓State.beginAttach_cut, ↓State.syncEngine_cut, m_regs, m_pwr, m_hst, m_evt, m_rdg, m_links, m_thm, m_mag, m_out])

theorem State.startDomains_cut {m : Area → Bool} (s : State) (m_regs : m .regs := by assumption) (m_pwr : m .pwr := by assumption) (m_hst : m .hst := by assumption) (m_evt : m .evt := by assumption) (m_rdg : m .rdg := by assumption) (m_links : m .links := by assumption) (m_thm : m .thm := by assumption) (m_mag : m .mag := by assumption) (m_out : m .out := by assumption) :
    (State.startDomains s).cut m = s.cut m := by
  unfold State.startDomains
  repeat' (first | (with_reducible refine (foldl_cut _ _ _ fun s x => ?_).trans ?_) | split | simp only [↓State.domainUp_cut, m_regs, m_pwr, m_hst, m_evt, m_rdg, m_links, m_thm, m_mag, m_out])

theorem State.startTests_cut {m : Area → Bool} (s : State) (m_regs : m .regs := by assumption) (m_thc : m .thc := by assumption) :
    (State.startTests s).cut m = s.cut m := by
  unfold State.startTests
  repeat' (first | (with_reducible refine (foldl_cut _ _ _ fun s x => ?_).trans ?_) | split | simp only [↓State.setEngine_cut, m_regs, m_thc])

theorem State.startAvs_cut {m : Area → Bool} (s : State) (m_regs : m .regs := by assumption) (m_pwr : m .pwr := by assumption) (m_out : m .out := by assumption) :
    (State.startAvs s).cut m = s.cut m := by
  unfold State.startAvs
  simp only [↓State.setReg_cut, ↓State.startWrite_cut, ↓apply_ite (State.cut m), ite_self, m_regs, m_pwr, m_out]

theorem State.openRidge_cut {m : Area → Bool} (s : State) (m_regs : m .regs := by assumption) (m_pwr : m .pwr := by assumption) (m_hst : m .hst := by assumption) (m_evt : m .evt := by assumption) (m_rdg : m .rdg := by assumption) (m_links : m .links := by assumption) (m_thm : m .thm := by assumption) (m_out : m .out := by assumption) :
    (State.openRidge s).cut m = s.cut m := by
  unfold State.openRidge
  repeat' (first | (with_reducible refine (foldl_cut _ _ _ fun s x => ?_).trans ?_) | split | simp only [↓State.setF_cut, ↓State.applyLinkCfg_cut, m_regs, m_pwr, m_hst, m_evt, m_rdg, m_links, m_thm, m_out])

theorem State.startFail_cut {m : Area → Bool} (s : State) (step : ℕ) (m_regs : m .regs := by assumption) (m_evt : m .evt := by assumption) :
    (State.startFail s step).cut m = s.cut m := by
  unfold State.startFail
  simp only [↓State.event_cut, ↓apply_ite (State.cut m), ite_self, m_regs, m_evt]

theorem State.readyUnlessLocked_cut {m : Area → Bool} (s : State) (b : ℕ) (m_regs : m .regs := by assumption) (m_hst : m .hst := by assumption) (m_rdg : m .rdg := by assumption) (m_links : m .links := by assumption) (m_out : m .out := by assumption) :
    (State.readyUnlessLocked s b).cut m = s.cut m := by
  unfold State.readyUnlessLocked
  simp only [↓State.setReady_cut, ↓apply_ite (State.cut m), ite_self, m_regs, m_hst, m_rdg, m_links, m_out]

theorem State.selfTested_cut {m : Area → Bool} (s : State) (b : ℕ) (ok : Bool) (m_regs : m .regs := by assumption) (m_hst : m .hst := by assumption) (m_evt : m .evt := by assumption) (m_rdg : m .rdg := by assumption) (m_links : m .links := by assumption) (m_thc : m .thc := by assumption) (m_out : m .out := by assumption) :
    (State.selfTested s b ok).cut m = s.cut m := by
  unfold State.selfTested
  simp only [↓State.setReady_cut, ↓State.swgTested_cut, ↓State.thcTested_cut, ↓State.startFail_cut, ↓apply_ite (State.cut m), ite_self, m_regs, m_hst, m_evt, m_rdg, m_links, m_thc, m_out]

theorem State.stepEffect_cut {m : Area → Bool} (s : State) (n : ℕ) (r : StepResult) (m_regs : m .regs := by assumption) (m_pwr : m .pwr := by assumption) (m_hst : m .hst := by assumption) (m_evt : m .evt := by assumption) (m_rdg : m .rdg := by assumption) (m_fst : m .fst := by assumption) (m_links : m .links := by assumption) (m_thm : m .thm := by assumption) (m_mag : m .mag := by assumption) (m_thc : m .thc := by assumption) (m_out : m .out := by assumption) :
    (State.stepEffect s n r).cut m = s.cut m := by
  unfold State.stepEffect
  repeat' (first | (with_reducible refine (foldl_cut _ _ _ fun s x => ?_).trans ?_) | split | simp only [↓State.setF_cut, ↓State.setReady_cut, ↓State.setRate_cut, ↓State.takeTarget_cut, ↓State.replaceBuffers_cut, ↓State.beginAttach_cut, ↓State.tmkOpen_cut, ↓State.startAvs_cut, ↓State.openRidge_cut, ↓State.startFail_cut, ↓State.readyUnlessLocked_cut, ↓State.selfTested_cut, m_regs, m_pwr, m_hst, m_evt, m_rdg, m_fst, m_links, m_thm, m_mag, m_thc, m_out])

theorem State.endStartup_cut {m : Area → Bool} (s : State) (m_regs : m .regs := by assumption) (m_rst : m .rst := by assumption) :
    (State.endStartup s).cut m = s.cut m := by
  unfold State.endStartup
  repeat' (first | (with_reducible refine (foldl_cut _ _ _ fun s x => ?_).trans ?_) | split | simp only [↓State.setDomain_cut, ↓State.onRst_cut, ↓State.startCrc_cut, m_regs, m_rst])

theorem State.startupStep_cut {m : Area → Bool} (s : State) (n : ℕ) (r : StepResult) (m_regs : m .regs := by assumption) (m_rst : m .rst := by assumption) (m_pwr : m .pwr := by assumption) (m_hst : m .hst := by assumption) (m_stg : m .stg := by assumption) (m_evt : m .evt := by assumption) (m_gen : m .gen := by assumption) (m_rdg : m .rdg := by assumption) (m_fst : m .fst := by assumption) (m_links : m .links := by assumption) (m_thm : m .thm := by assumption) (m_drv : m .drv := by assumption) (m_cal : m .cal := by assumption) (m_pnl : m .pnl := by assumption) (m_bnk : m .bnk := by assumption) (m_mag : m .mag := by assumption) (m_thc : m .thc := by assumption) (m_relay : m .relay := by assumption) (m_out : m .out := by assumption) :
    (State.startupStep s n r).cut m = s.cut m := by
  unfold State.startupStep
  simp only [↓State.onRst_cut, ↓State.stopStartup_cut, ↓State.startDomains_cut, ↓State.startTests_cut, ↓State.stepEffect_cut, ↓State.endStartup_cut, ↓apply_ite (State.cut m), ite_self, m_regs, m_rst, m_pwr, m_hst, m_stg, m_evt, m_gen, m_rdg, m_fst, m_links, m_thm, m_drv, m_cal, m_pnl, m_bnk, m_mag, m_thc, m_relay, m_out]

theorem execStartupStepEnd_cut {m : Area → Bool} (step : ℕ) (r : StepResult) (s : State) (m_regs : m .regs := by assumption) (m_rst : m .rst := by assumption) (m_pwr : m .pwr := by assumption) (m_hst : m .hst := by assumption) (m_stg : m .stg := by assumption) (m_evt : m .evt := by assumption) (m_gen : m .gen := by assumption) (m_rdg : m .rdg := by assumption) (m_fst : m .fst := by assumption) (m_links : m .links := by assumption) (m_thm : m .thm := by assumption) (m_drv : m .drv := by assumption) (m_cal : m .cal := by assumption) (m_pnl : m .pnl := by assumption) (m_bnk : m .bnk := by assumption) (m_mag : m .mag := by assumption) (m_thc : m .thc := by assumption) (m_relay : m .relay := by assumption) (m_out : m .out := by assumption) :
    outCut m (execStartupStepEnd step r s) = some (s.cut m) := by
  unfold execStartupStepEnd
  simp only [↓State.startupStep_cut, ↓apply_ite (State.cut m), ite_self, ↓outCut_next, ↓apply_ite (outCut m), m_regs, m_rst, m_pwr, m_hst, m_stg, m_evt, m_gen, m_rdg, m_fst, m_links, m_thm, m_drv, m_cal, m_pnl, m_bnk, m_mag, m_thc, m_relay, m_out]

theorem State.touchRows_cut {m : Area → Bool} (s : State) (p : SlotPlan) (h : ℕ) (y : ℕ) (m_regs : m .regs := by assumption) (m_evt : m .evt := by assumption) (m_fst : m .fst := by assumption) :
    (State.touchRows s p h y).cut m = s.cut m := by
  unfold State.touchRows
  repeat' (first | (with_reducible refine (foldl_cut _ _ _ fun s x => ?_).trans ?_) | split | simp only [↓State.readRow_cut, m_regs, m_evt, m_fst])

theorem State.defectErrors_cut {m : Area → Bool} (s : State) (m_regs : m .regs := by assumption) (m_evt : m .evt := by assumption) (m_bnk : m .bnk := by assumption) :
    (State.defectErrors s).cut m = s.cut m := by
  unfold State.defectErrors
  repeat' (first | (with_reducible refine (foldl_cut _ _ _ fun s x => ?_).trans ?_) | split | simp only [↓State.bump_cut, ↓State.event_cut, ↓State.bankUe_cut, ↓State.readWord_cut, m_regs, m_evt, m_bnk])

theorem State.workErrors_cut {m : Area → Bool} (s : State) (h : ℕ) (y : ℕ) (m_regs : m .regs := by assumption) (m_evt : m .evt := by assumption) (m_bnk : m .bnk := by assumption) :
    (State.workErrors s h y).cut m = s.cut m := by
  unfold State.workErrors
  repeat' (first | (with_reducible refine (foldl_cut _ _ _ fun s x => ?_).trans ?_) | split | simp only [↓State.bump_cut, ↓State.event_cut, ↓State.bankUe_cut, ↓State.readWord_cut, m_regs, m_evt, m_bnk])

theorem State.readHist_cut {m : Area → Bool} (s : State) (h y : Nat) (m_regs : m .regs := by assumption) (m_evt : m .evt := by assumption) (m_fst : m .fst := by assumption) (m_pipe : m .pipe := by assumption) :
    (State.readHist s h y).cut m = s.cut m := by
  unfold State.readHist
  split
  · rfl
  · refine (State.onPipe_cut _ _).trans (foldl_part_cut (fun a : List (Option (List (List Nat))) × State => a.2) _ _ _ fun a x => ?_)
    dsimp only
    repeat' (first | rfl | split | simp only [↓State.event_cut, ↓State.bump_cut, ↓State.readBlock_cut, m_regs, m_evt, m_fst, m_pipe])

theorem State.putHist_cut {m : Area → Bool} (s : State) (y : ℕ) (codes : List ℕ) (m_regs : m .regs := by assumption) (m_evt : m .evt := by assumption) (m_fst : m .fst := by assumption) (m_pipe : m .pipe := by assumption) :
    (State.putHist s y codes).cut m = s.cut m := by
  unfold State.putHist
  repeat' (first | (with_reducible refine (foldl_cut _ _ _ fun s x => ?_).trans ?_) | split | simp only [↓State.onPipe_cut, ↓State.syncZero_cut, ↓State.reportLoss_cut, ↓State.writeRowRaw_cut, ↓State.encodeRows_cut, m_regs, m_evt, m_fst, m_pipe])

theorem State.addDose_cut {m : Area → Bool} (s : State) (y : ℕ) (codes : List ℕ) (m_pipe : m .pipe := by assumption) :
    (State.addDose s y codes).cut m = s.cut m := by
  unfold State.addDose
  repeat' (first | (with_reducible refine (foldl_cut _ _ _ fun s x => ?_).trans ?_) | split | simp only [↓State.onPipe_cut, m_pipe])

theorem State.setPlan_cut {m : Area → Bool} (s : State) (p : SlotPlan) (m_hrt : m .hrt := by assumption) :
    (State.setPlan s p).cut m = s.cut m := by
  unfold State.setPlan
  simp only [↓State.onHrt_cut, ↓apply_ite (State.cut m), ite_self, m_hrt]

theorem State.lineMiss_cut {m : Area → Bool} (s : State) (p : SlotPlan) (place : ℕ) (m_regs : m .regs := by assumption) (m_evt : m .evt := by assumption) (m_hrt : m .hrt := by assumption) :
    (State.lineMiss s p place).cut m = s.cut m := by
  unfold State.lineMiss
  simp only [↓State.setReg_cut, ↓State.setF_cut, ↓State.bump_cut, ↓State.event_cut, ↓State.setRun_cut, ↓State.syncRun_cut, ↓State.setPlan_cut, ↓apply_ite (State.cut m), ite_self, m_regs, m_evt, m_hrt]

theorem State.lathRow_cut {m : Area → Bool} (s : State) (h : ℕ) (r : ℕ) (t0 : ℕ) (m_out : m .out := by assumption) :
    (State.lathRow s h r t0).cut m = s.cut m := by
  unfold State.lathRow
  simp only [↓State.emit_cut, ↓apply_ite (State.cut m), ite_self, m_out]

theorem State.lathStart_cut {m : Area → Bool} (s : State) (t0 : ℕ) (m_out : m .out := by assumption) :
    (State.lathStart s t0).cut m = s.cut m := by
  unfold State.lathStart
  repeat' (first | (with_reducible refine (foldl_cut _ _ _ fun s x => ?_).trans ?_) | split | simp only [↓State.emit_cut, m_out])

theorem State.sendRow_cut {m : Area → Bool} (s : State) (h : ℕ) (y : ℕ) (t0 : ℕ) (codes : List ℕ) (m_out : m .out := by assumption) :
    (State.sendRow s h y t0 codes).cut m = s.cut m := by
  unfold State.sendRow
  repeat' (first | (with_reducible refine (foldl_cut _ _ _ fun s x => ?_).trans ?_) | split | simp only [↓State.emit_cut, m_out])

theorem State.scanRow_cut {m : Area → Bool} (s : State) (p : SlotPlan) (h : ℕ) (r : ℕ) (m_regs : m .regs := by assumption) (m_evt : m .evt := by assumption) (m_fst : m .fst := by assumption) (m_pipe : m .pipe := by assumption) (m_hrt : m .hrt := by assumption) (m_bnk : m .bnk := by assumption) (m_out : m .out := by assumption) :
    (State.scanRow s p h r).cut m = s.cut m := by
  unfold State.scanRow
  repeat' (first | (with_reducible refine (foldl_cut _ _ _ fun s x => ?_).trans ?_) | split | simp only [↓State.bump_cut, ↓State.emit_cut, ↓State.onPipe_cut, ↓State.event_cut, ↓State.bankUe_cut, ↓State.readWord_cut, ↓State.touchRows_cut, ↓State.workErrors_cut, ↓State.readHist_cut, ↓State.putHist_cut, ↓State.addDose_cut, ↓State.lineMiss_cut, ↓State.lathRow_cut, ↓State.sendRow_cut, m_regs, m_evt, m_fst, m_pipe, m_hrt, m_bnk, m_out])

theorem State.syncLath_cut {m : Area → Bool} (s : State) (m_regs : m .regs := by assumption) (m_pipe : m .pipe := by assumption) :
    (State.syncLath s).cut m = s.cut m := by
  unfold State.syncLath
  simp only [↓State.setF_cut, ↓State.onPipe_cut, ↓apply_ite (State.cut m), ite_self, m_regs, m_pipe]

theorem State.startEmission_cut {m : Area → Bool} (s : State) (m_pipe : m .pipe := by assumption) :
    (State.startEmission s).cut m = s.cut m := by
  unfold State.startEmission
  simp only [↓State.onPipe_cut, ↓apply_ite (State.cut m), ite_self, m_pipe]

theorem State.relock_cut {m : Area → Bool} (s : State) (k : ℕ) (m_regs : m .regs := by assumption) (m_evt : m .evt := by assumption) (m_fst : m .fst := by assumption) (m_links : m .links := by assumption) (m_hrt : m .hrt := by assumption) (m_mag : m .mag := by assumption) (m_out : m .out := by assumption) :
    (State.relock s k).cut m = s.cut m := by
  unfold State.relock
  repeat' (first | split | simp only [↓State.onHrt_cut, ↓State.setRun_cut, ↓State.syncRun_cut, ↓State.substitute_cut, ↓State.putSlotStat_cut, m_regs, m_evt, m_fst, m_links, m_hrt, m_mag, m_out])

theorem State.startSlot_cut {m : Area → Bool} (s : State) (m_regs : m .regs := by assumption) (m_pwr : m .pwr := by assumption) (m_hst : m .hst := by assumption) (m_evt : m .evt := by assumption) (m_gen : m .gen := by assumption) (m_rdg : m .rdg := by assumption) (m_fst : m .fst := by assumption) (m_links : m .links := by assumption) (m_pipe : m .pipe := by assumption) (m_hrt : m .hrt := by assumption) (m_bnk : m .bnk := by assumption) (m_mag : m .mag := by assumption) (m_out : m .out := by assumption) :
    (State.startSlot s).cut m = s.cut m := by
  unfold State.startSlot
  simp only [↓State.onPipe_cut, ↓State.reachTime_cut, ↓State.onHrt_cut, ↓State.slotDeadline_cut, ↓State.defectErrors_cut, ↓State.lathStart_cut, ↓State.syncLath_cut, ↓State.startEmission_cut, ↓State.relock_cut, ↓apply_ite (State.cut m), ite_self, m_regs, m_pwr, m_hst, m_evt, m_gen, m_rdg, m_fst, m_links, m_pipe, m_hrt, m_bnk, m_mag, m_out]

theorem execSlotScanStart_cut {m : Area → Bool} (s : State) (m_regs : m .regs := by assumption) (m_pwr : m .pwr := by assumption) (m_hst : m .hst := by assumption) (m_evt : m .evt := by assumption) (m_gen : m .gen := by assumption) (m_rdg : m .rdg := by assumption) (m_fst : m .fst := by assumption) (m_links : m .links := by assumption) (m_pipe : m .pipe := by assumption) (m_hrt : m .hrt := by assumption) (m_bnk : m .bnk := by assumption) (m_mag : m .mag := by assumption) (m_out : m .out := by assumption) :
    outCut m (execSlotScanStart s) = some (s.cut m) := by
  unfold execSlotScanStart
  simp only [↓State.startSlot_cut, ↓apply_ite (State.cut m), ite_self, ↓outCut_next, ↓apply_ite (outCut m), m_regs, m_pwr, m_hst, m_evt, m_gen, m_rdg, m_fst, m_links, m_pipe, m_hrt, m_bnk, m_mag, m_out]

theorem State.freePlates_cut {m : Area → Bool} (s : State) (p : SlotPlan) (m_regs : m .regs := by assumption) (m_fst : m .fst := by assumption) (m_mag : m .mag := by assumption) (m_thc : m .thc := by assumption) :
    (State.freePlates s p).cut m = s.cut m := by
  unfold State.freePlates
  repeat' (first | (with_reducible refine (foldl_cut _ _ _ fun s x => ?_).trans ?_) | split | simp only [↓State.setStaging_cut, ↓State.freeStaging_cut, m_regs, m_fst, m_mag, m_thc])

theorem State.endLineSlot_cut {m : Area → Bool} (s : State) (p : SlotPlan) (m_regs : m .regs := by assumption) (m_pwr : m .pwr := by assumption) (m_hst : m .hst := by assumption) (m_evt : m .evt := by assumption) (m_rdg : m .rdg := by assumption) (m_fst : m .fst := by assumption) (m_links : m .links := by assumption) (m_hrt : m .hrt := by assumption) (m_out : m .out := by assumption) :
    (State.endLineSlot s p).cut m = s.cut m := by
  unfold State.endLineSlot
  repeat' (first | split | simp only [↓State.setBuf_cut, ↓State.onHrt_cut, ↓State.endRun_cut, ↓State.leaveHearth_cut, ↓State.completeFrame_cut, m_regs, m_pwr, m_hst, m_evt, m_rdg, m_fst, m_links, m_hrt, m_out])

theorem State.endSlot_cut {m : Area → Bool} (s : State) (p : SlotPlan) (m_regs : m .regs := by assumption) (m_pwr : m .pwr := by assumption) (m_hst : m .hst := by assumption) (m_stg : m .stg := by assumption) (m_tabs : m .tabs := by assumption) (m_evt : m .evt := by assumption) (m_gen : m .gen := by assumption) (m_rdg : m .rdg := by assumption) (m_fst : m .fst := by assumption) (m_links : m .links := by assumption) (m_thm : m .thm := by assumption) (m_drv : m .drv := by assumption) (m_pnl : m .pnl := by assumption) (m_hrt : m .hrt := by assumption) (m_bnk : m .bnk := by assumption) (m_win : m .win := by assumption) (m_mag : m .mag := by assumption) (m_thc : m .thc := by assumption) (m_fmask : m .fmask := by assumption) (m_freeN : m .freeN := by assumption) (m_out : m .out := by assumption) :
    (State.endSlot s p).cut m = s.cut m := by
  unfold State.endSlot
  simp only [↓State.setReg_cut, ↓State.bump_cut, ↓State.onPnl_cut, ↓State.onHrt_cut, ↓State.setOverlayOpen_cut, ↓State.afterStop_cut, ↓State.freePlates_cut, ↓State.endLineSlot_cut, ↓apply_ite (State.cut m), ite_self, m_regs, m_pwr, m_hst, m_stg, m_tabs, m_evt, m_gen, m_rdg, m_fst, m_links, m_thm, m_drv, m_pnl, m_hrt, m_bnk, m_win, m_mag, m_thc, m_fmask, m_freeN, m_out]

theorem State.rowTime_cut {m : Area → Bool} (s : State) (fsErrs : List ReadError) (bankErrs : List ReadError) (m_regs : m .regs := by assumption) (m_pwr : m .pwr := by assumption) (m_hst : m .hst := by assumption) (m_stg : m .stg := by assumption) (m_tabs : m .tabs := by assumption) (m_evt : m .evt := by assumption) (m_gen : m .gen := by assumption) (m_rdg : m .rdg := by assumption) (m_fst : m .fst := by assumption) (m_links : m .links := by assumption) (m_thm : m .thm := by assumption) (m_drv : m .drv := by assumption) (m_pipe : m .pipe := by assumption) (m_pnl : m .pnl := by assumption) (m_hrt : m .hrt := by assumption) (m_bnk : m .bnk := by assumption) (m_win : m .win := by assumption) (m_mag : m .mag := by assumption) (m_thc : m .thc := by assumption) (m_fmask : m .fmask := by assumption) (m_freeN : m .freeN := by assumption) (m_out : m .out := by assumption) :
    (State.rowTime s fsErrs bankErrs).cut m = s.cut m := by
  unfold State.rowTime
  repeat' (first | split | simp only [↓State.spoilWords_cut, ↓State.takeEcc_cut, ↓State.reachTime_cut, ↓State.onHrt_cut, ↓State.scanRow_cut, ↓State.syncLath_cut, ↓State.endSlot_cut, m_regs, m_pwr, m_hst, m_stg, m_tabs, m_evt, m_gen, m_rdg, m_fst, m_links, m_thm, m_drv, m_pipe, m_pnl, m_hrt, m_bnk, m_win, m_mag, m_thc, m_fmask, m_freeN, m_out])

theorem execRowTime_cut {m : Area → Bool} (fsErrs : List ReadError) (bankErrs : List ReadError) (s : State) (m_regs : m .regs := by assumption) (m_pwr : m .pwr := by assumption) (m_hst : m .hst := by assumption) (m_stg : m .stg := by assumption) (m_tabs : m .tabs := by assumption) (m_evt : m .evt := by assumption) (m_gen : m .gen := by assumption) (m_rdg : m .rdg := by assumption) (m_fst : m .fst := by assumption) (m_links : m .links := by assumption) (m_thm : m .thm := by assumption) (m_drv : m .drv := by assumption) (m_pipe : m .pipe := by assumption) (m_pnl : m .pnl := by assumption) (m_hrt : m .hrt := by assumption) (m_bnk : m .bnk := by assumption) (m_win : m .win := by assumption) (m_mag : m .mag := by assumption) (m_thc : m .thc := by assumption) (m_fmask : m .fmask := by assumption) (m_freeN : m .freeN := by assumption) (m_out : m .out := by assumption) :
    outCut m (execRowTime fsErrs bankErrs s) = some (s.cut m) := by
  unfold execRowTime
  simp only [↓State.rowTime_cut, ↓apply_ite (State.cut m), ite_self, ↓outCut_next, ↓apply_ite (outCut m), m_regs, m_pwr, m_hst, m_stg, m_tabs, m_evt, m_gen, m_rdg, m_fst, m_links, m_thm, m_drv, m_pipe, m_pnl, m_hrt, m_bnk, m_win, m_mag, m_thc, m_fmask, m_freeN, m_out]

theorem State.powerGone_cut {m : Area → Bool} (s : State) (m_regs : m .regs := by assumption) (m_rst : m .rst := by assumption) (m_pwr : m .pwr := by assumption) (m_hst : m .hst := by assumption) (m_stg : m .stg := by assumption) (m_tabs : m .tabs := by assumption) (m_evt : m .evt := by assumption) (m_gen : m .gen := by assumption) (m_rdg : m .rdg := by assumption) (m_fst : m .fst := by assumption) (m_links : m .links := by assumption) (m_thm : m .thm := by assumption) (m_drv : m .drv := by assumption) (m_pipe : m .pipe := by assumption) (m_cal : m .cal := by assumption) (m_pnl : m .pnl := by assumption) (m_hrt : m .hrt := by assumption) (m_bnk : m .bnk := by assumption) (m_win : m .win := by assumption) (m_mag : m .mag := by assumption) (m_thc : m .thc := by assumption) (m_relay : m .relay := by assumption) (m_jtag : m .jtag := by assumption) (m_fmask : m .fmask := by assumption) (m_aon : m .aon := by assumption) (m_fsEpoch : m .fsEpoch := by assumption) (m_out : m .out := by assumption) :
    (State.powerGone s).cut m = s.cut m := by
  unfold State.powerGone
  simp only [↓State.setDomain_cut, ↓State.onRst_cut, ↓State.restart_cut, ↓apply_ite (State.cut m), ite_self, m_regs, m_rst, m_pwr, m_hst, m_stg, m_tabs, m_evt, m_gen, m_rdg, m_fst, m_links, m_thm, m_drv, m_pipe, m_cal, m_pnl, m_hrt, m_bnk, m_win, m_mag, m_thc, m_relay, m_jtag, m_fmask, m_aon, m_fsEpoch, m_out]

theorem State.startPanelOn_cut {m : Area → Bool} (s : State) (m_regs : m .regs := by assumption) (m_pwr : m .pwr := by assumption) (m_hst : m .hst := by assumption) (m_evt : m .evt := by assumption) (m_rdg : m .rdg := by assumption) (m_links : m .links := by assumption) (m_thm : m .thm := by assumption) (m_cal : m .cal := by assumption) (m_pnl : m .pnl := by assumption) (m_mag : m .mag := by assumption) (m_out : m .out := by assumption) :
    (State.startPanelOn s).cut m = s.cut m := by
  unfold State.startPanelOn
  repeat' (first | (with_reducible refine (foldl_cut _ _ _ fun s x => ?_).trans ?_) | split | simp only [↓State.onPnl_cut, ↓State.onCal_cut, ↓State.setSeq_cut, ↓State.latchPanel_cut, ↓State.setTarget_cut, ↓State.crackStart_cut, ↓State.banksOn_cut, ↓State.domainUp_cut, m_regs, m_pwr, m_hst, m_evt, m_rdg, m_links, m_thm, m_cal, m_pnl, m_mag, m_out])

theorem State.headDormant_cut {m : Area → Bool} (s : State) (m_regs : m .regs := by assumption) (m_pwr : m .pwr := by assumption) (m_hst : m .hst := by assumption) (m_evt : m .evt := by assumption) (m_rdg : m .rdg := by assumption) (m_fst : m .fst := by assumption) (m_links : m .links := by assumption) (m_thm : m .thm := by assumption) (m_mag : m .mag := by assumption) (m_thc : m .thc := by assumption) (m_out : m .out := by assumption) :
    (State.headDormant s).cut m = s.cut m := by
  unfold State.headDormant
  repeat' (first | (with_reducible refine (foldl_cut _ _ _ fun s x => ?_).trans ?_) | split | simp only [↓State.setTarget_cut, ↓State.beginUnmount_cut, m_regs, m_pwr, m_hst, m_evt, m_rdg, m_fst, m_links, m_thm, m_mag, m_thc, m_out])

theorem State.panelDone_cut {m : Area → Bool} (s : State) (m_regs : m .regs := by assumption) (m_rst : m .rst := by assumption) (m_pwr : m .pwr := by assumption) (m_hst : m .hst := by assumption) (m_stg : m .stg := by assumption) (m_tabs : m .tabs := by assumption) (m_evt : m .evt := by assumption) (m_gen : m .gen := by assumption) (m_rdg : m .rdg := by assumption) (m_fst : m .fst := by assumption) (m_links : m .links := by assumption) (m_thm : m .thm := by assumption) (m_drv : m .drv := by assumption) (m_pipe : m .pipe := by assumption) (m_cal : m .cal := by assumption) (m_pnl : m .pnl := by assumption) (m_hrt : m .hrt := by assumption) (m_bnk : m .bnk := by assumption) (m_win : m .win := by assumption) (m_mag : m .mag := by assumption) (m_thc : m .thc := by assumption) (m_relay : m .relay := by assumption) (m_jtag : m .jtag := by assumption) (m_fmask : m .fmask := by assumption) (m_aon : m .aon := by assumption) (m_fsEpoch : m .fsEpoch := by assumption) (m_out : m .out := by assumption) :
    (State.panelDone s).cut m = s.cut m := by
  unfold State.panelDone
  simp only [↓State.afterPanel_cut, ↓State.powerGone_cut, ↓State.startPanelOn_cut, ↓State.headDormant_cut, ↓apply_ite (State.cut m), ite_self, m_regs, m_rst, m_pwr, m_hst, m_stg, m_tabs, m_evt, m_gen, m_rdg, m_fst, m_links, m_thm, m_drv, m_pipe, m_cal, m_pnl, m_hrt, m_bnk, m_win, m_mag, m_thc, m_relay, m_jtag, m_fmask, m_aon, m_fsEpoch, m_out]

theorem State.raiseRail_cut {m : Area → Bool} (s : State) (m_regs : m .regs := by assumption) (m_evt : m .evt := by assumption) (m_thm : m .thm := by assumption) (m_drv : m .drv := by assumption) (m_pnl : m .pnl := by assumption) (m_freeN : m .freeN := by assumption) (m_out : m .out := by assumption) :
    (State.raiseRail s).cut m = s.cut m := by
  unfold State.raiseRail
  repeat' (first | (with_reducible refine (foldl_cut _ _ _ fun s x => ?_).trans ?_) | split | simp only [↓State.onPnl_cut, ↓State.startTrain_cut, ↓State.setSeq_cut, ↓State.setBatRst_cut, ↓State.setRail_cut, m_regs, m_evt, m_thm, m_drv, m_pnl, m_freeN, m_out])

theorem State.railDelay_cut {m : Area → Bool} (s : State) (n : ℕ) (b : Bool) (m_regs : m .regs := by assumption) (m_pnl : m .pnl := by assumption) :
    (State.railDelay s n b).cut m = s.cut m := by
  unfold State.railDelay
  simp only [↓State.onPnl_cut, ↓State.setPg_cut, ↓apply_ite (State.cut m), ite_self, m_regs, m_pnl]

theorem State.railDone_cut {m : Area → Bool} (s : State) (m_pnl : m .pnl := by assumption) :
    (State.railDone s).cut m = s.cut m := by
  unfold State.railDone
  simp only [↓State.onPnl_cut, ↓apply_ite (State.cut m), ite_self, m_pnl]

theorem State.seqDisch_cut {m : Area → Bool} (s : State) (hold : Bool) (m_drv : m .drv := by assumption) (m_out : m .out := by assumption) :
    (State.seqDisch s hold).cut m = s.cut m := by
  unfold State.seqDisch
  repeat' (first | (with_reducible refine (foldl_cut _ _ _ fun s x => ?_).trans ?_) | split | simp only [↓State.sendDrv_cut, m_drv, m_out])

theorem State.seqLimits_cut {m : Area → Bool} (s : State) (m_drv : m .drv := by assumption) (m_out : m .out := by assumption) :
    (State.seqLimits s).cut m = s.cut m := by
  unfold State.seqLimits
  repeat' (first | (with_reducible refine (foldl_cut _ _ _ fun s x => ?_).trans ?_) | split | simp only [↓State.sendDrv_cut, ↓State.seqDisch_cut, m_drv, m_out])

theorem State.noAnswers_cut {m : Area → Bool} (s : State) (m_regs : m .regs := by assumption) (m_evt : m .evt := by assumption) (m_drv : m .drv := by assumption) (m_out : m .out := by assumption) :
    (State.noAnswers s).cut m = s.cut m := by
  unfold State.noAnswers
  repeat' (first | (with_reducible refine (foldl_cut _ _ _ fun s x => ?_).trans ?_) | split | simp only [↓State.setDriver_cut, ↓State.event_cut, ↓State.pumpDrv_cut, m_regs, m_evt, m_drv, m_out])

theorem State.panelOffEnd_cut {m : Area → Bool} (s : State) (m_regs : m .regs := by assumption) (m_rst : m .rst := by assumption) (m_pwr : m .pwr := by assumption) (m_hst : m .hst := by assumption) (m_stg : m .stg := by assumption) (m_tabs : m .tabs := by assumption) (m_evt : m .evt := by assumption) (m_gen : m .gen := by assumption) (m_rdg : m .rdg := by assumption) (m_fst : m .fst := by assumption) (m_links : m .links := by assumption) (m_thm : m .thm := by assumption) (m_drv : m .drv := by assumption) (m_pipe : m .pipe := by assumption) (m_cal : m .cal := by assumption) (m_pnl : m .pnl := by assumption) (m_hrt : m .hrt := by assumption) (m_bnk : m .bnk := by assumption) (m_win : m .win := by assumption) (m_mag : m .mag := by assumption) (m_thc : m .thc := by assumption) (m_relay : m .relay := by assumption) (m_jtag : m .jtag := by assumption) (m_fmask : m .fmask := by assumption) (m_aon : m .aon := by assumption) (m_fsEpoch : m .fsEpoch := by assumption) (m_out : m .out := by assumption) :
    (State.panelOffEnd s).cut m = s.cut m := by
  unfold State.panelOffEnd
  simp only [↓State.onPnl_cut, ↓State.setSeq_cut, ↓State.panelOutputsOff_cut, ↓State.arriveStandby_cut, ↓State.panelDone_cut, ↓apply_ite (State.cut m), ite_self, m_regs, m_rst, m_pwr, m_hst, m_stg, m_tabs, m_evt, m_gen, m_rdg, m_fst, m_links, m_thm, m_drv, m_pipe, m_cal, m_pnl, m_hrt, m_bnk, m_win, m_mag, m_thc, m_relay, m_jtag, m_fmask, m_aon, m_fsEpoch, m_out]

theorem State.abortOn_cut {m : Area → Bool} (s : State) (fail : ℕ) (m_regs : m .regs := by assumption) (m_rst : m .rst := by assumption) (m_pwr : m .pwr := by assumption) (m_hst : m .hst := by assumption) (m_stg : m .stg := by assumption) (m_tabs : m .tabs := by assumption) (m_evt : m .evt := by assumption) (m_gen : m .gen := by assumption) (m_rdg : m .rdg := by assumption) (m_fst : m .fst := by assumption) (m_links : m .links := by assumption) (m_thm : m .thm := by assumption) (m_drv : m .drv := by assumption) (m_pipe : m .pipe := by assumption) (m_cal : m .cal := by assumption) (m_pnl : m .pnl := by assumption) (m_hrt : m .hrt := by assumption) (m_bnk : m .bnk := by assumption) (m_win : m .win := by assumption) (m_mag : m .mag := by assumption) (m_thc : m .thc := by assumption) (m_relay : m .relay := by assumption) (m_jtag : m .jtag := by assumption) (m_fmask : m .fmask := by assumption) (m_aon : m .aon := by assumption) (m_fsEpoch : m .fsEpoch := by assumption) (m_out : m .out := by assumption) :
    (State.abortOn s fail).cut m = s.cut m := by
  unfold State.abortOn
  simp only [↓State.setF_cut, ↓State.onPnl_cut, ↓State.dropHeading_cut, ↓State.setSeq_cut, ↓State.setTarget_cut, ↓State.setPanelPins_cut, ↓State.panelOffEnd_cut, ↓apply_ite (State.cut m), ite_self, m_regs, m_rst, m_pwr, m_hst, m_stg, m_tabs, m_evt, m_gen, m_rdg, m_fst, m_links, m_thm, m_drv, m_pipe, m_cal, m_pnl, m_hrt, m_bnk, m_win, m_mag, m_thc, m_relay, m_jtag, m_fmask, m_aon, m_fsEpoch, m_out]

theorem State.endN1_cut {m : Area → Bool} (s : State) (pins : PanelPins) (m_regs : m .regs := by assumption) (m_rst : m .rst := by assumption) (m_pwr : m .pwr := by assumption) (m_hst : m .hst := by assumption) (m_stg : m .stg := by assumption) (m_tabs : m .tabs := by assumption) (m_evt : m .evt := by assumption) (m_gen : m .gen := by assumption) (m_rdg : m .rdg := by assumption) (m_fst : m .fst := by assumption) (m_links : m .links := by assumption) (m_thm : m .thm := by assumption) (m_drv : m .drv := by assumption) (m_pipe : m .pipe := by assumption) (m_cal : m .cal := by assumption) (m_pnl : m .pnl := by assumption) (m_hrt : m .hrt := by assumption) (m_bnk : m .bnk := by assumption) (m_win : m .win := by assumption) (m_mag : m .mag := by assumption) (m_thc : m .thc := by assumption) (m_relay : m .relay := by assumption) (m_jtag : m .jtag := by assumption) (m_fmask : m .fmask := by assumption) (m_aon : m .aon := by assumption) (m_freeN : m .freeN := by assumption) (m_fsEpoch : m .fsEpoch := by assumption) (m_out : m .out := by assumption) :
    (State.endN1 s pins).cut m = s.cut m := by
  unfold State.endN1
  simp only [↓State.event_cut, ↓State.alarm_cut, ↓State.setSeq_cut, ↓State.setPanelPins_cut, ↓State.setBatRst_cut, ↓State.raiseRail_cut, ↓State.abortOn_cut, ↓apply_ite (State.cut m), ite_self, m_regs, m_rst, m_pwr, m_hst, m_stg, m_tabs, m_evt, m_gen, m_rdg, m_fst, m_links, m_thm, m_drv, m_pipe, m_cal, m_pnl, m_hrt, m_bnk, m_win, m_mag, m_thc, m_relay, m_jtag, m_fmask, m_aon, m_freeN, m_fsEpoch, m_out]

theorem State.endN8_cut {m : Area → Bool} (s : State) (m_regs : m .regs := by assumption) (m_hst : m .hst := by assumption) (m_evt : m .evt := by assumption) (m_rdg : m .rdg := by assumption) (m_links : m .links := by assumption) (m_pipe : m .pipe := by assumption) (m_pnl : m .pnl := by assumption) (m_bnk : m .bnk := by assumption) (m_out : m .out := by assumption) :
    (State.endN8 s).cut m = s.cut m := by
  unfold State.endN8
  simp only [↓State.setF_cut, ↓State.onPnl_cut, ↓State.onPipe_cut, ↓State.signal_cut, ↓State.event_cut, ↓State.setSeq_cut, ↓State.beginOff_cut, ↓State.setPanelPins_cut, ↓State.syncZero_cut, ↓State.syncBanks_cut, ↓State.dropOff_cut, ↓apply_ite (State.cut m), ite_self, m_regs, m_hst, m_evt, m_rdg, m_links, m_pipe, m_pnl, m_bnk, m_out]

theorem State.onStep_cut {m : Area → Bool} (s : State) (pins : PanelPins) (m_regs : m .regs := by assumption) (m_rst : m .rst := by assumption) (m_pwr : m .pwr := by assumption) (m_hst : m .hst := by assumption) (m_stg : m .stg := by assumption) (m_tabs : m .tabs := by assumption) (m_evt : m .evt := by assumption) (m_gen : m .gen := by assumption) (m_rdg : m .rdg := by assumption) (m_fst : m .fst := by assumption) (m_links : m .links := by assumption) (m_thm : m .thm := by assumption) (m_drv : m .drv := by assumption) (m_pipe : m .pipe := by assumption) (m_cal : m .cal := by assumption) (m_pnl : m .pnl := by assumption) (m_hrt : m .hrt := by assumption) (m_bnk : m .bnk := by assumption) (m_win : m .win := by assumption) (m_mag : m .mag := by assumption) (m_thc : m .thc := by assumption) (m_relay : m .relay := by assumption) (m_jtag : m .jtag := by assumption) (m_fmask : m .fmask := by assumption) (m_aon : m .aon := by assumption) (m_freeN : m .freeN := by assumption) (m_fsEpoch : m .fsEpoch := by assumption) (m_out : m .out := by assumption) :
    (State.onStep s pins).cut m = s.cut m := by
  unfold State.onStep
  repeat' (first | split | simp only [↓State.setSeq_cut, ↓State.setPanelPin_cut, ↓State.setPanelPins_cut, ↓State.raiseRail_cut, ↓State.railDelay_cut, ↓State.railDone_cut, ↓State.seqDisch_cut, ↓State.seqLimits_cut, ↓State.noAnswers_cut, ↓State.endN1_cut, ↓State.endN8_cut, m_regs, m_rst, m_pwr, m_hst, m_stg, m_tabs, m_evt, m_gen, m_rdg, m_fst, m_links, m_thm, m_drv, m_pipe, m_cal, m_pnl, m_hrt, m_bnk, m_win, m_mag, m_thc, m_relay, m_jtag, m_fmask, m_aon, m_freeN, m_fsEpoch, m_out])

theorem State.endOff_cut {m : Area → Bool} (s : State) (m_regs : m .regs := by assumption) (m_rst : m .rst := by assumption) (m_pwr : m .pwr := by assumption) (m_hst : m .hst := by assumption) (m_stg : m .stg := by assumption) (m_tabs : m .tabs := by assumption) (m_evt : m .evt := by assumption) (m_gen : m .gen := by assumption) (m_rdg : m .rdg := by assumption) (m_fst : m .fst := by assumption) (m_links : m .links := by assumption) (m_thm : m .thm := by assumption) (m_drv : m .drv := by assumption) (m_pipe : m .pipe := by assumption) (m_cal : m .cal := by assumption) (m_pnl : m .pnl := by assumption) (m_hrt : m .hrt := by assumption) (m_bnk : m .bnk := by assumption) (m_win : m .win := by assumption) (m_mag : m .mag := by assumption) (m_thc : m .thc := by assumption) (m_relay : m .relay := by assumption) (m_jtag : m .jtag := by assumption) (m_fmask : m .fmask := by assumption) (m_aon : m .aon := by assumption) (m_fsEpoch : m .fsEpoch := by assumption) (m_out : m .out := by assumption) :
    (State.endOff s).cut m = s.cut m := by
  unfold State.endOff
  simp only [↓State.setF_cut, ↓State.event_cut, ↓State.panelOffEnd_cut, ↓apply_ite (State.cut m), ite_self, m_regs, m_rst, m_pwr, m_hst, m_stg, m_tabs, m_evt, m_gen, m_rdg, m_fst, m_links, m_thm, m_drv, m_pipe, m_cal, m_pnl, m_hrt, m_bnk, m_win, m_mag, m_thc, m_relay, m_jtag, m_fmask, m_aon, m_fsEpoch, m_out]

theorem State.dropRail_cut {m : Area → Bool} (s : State) (m_regs : m .regs := by assumption) (m_rst : m .rst := by assumption) (m_pwr : m .pwr := by assumption) (m_hst : m .hst := by assumption) (m_stg : m .stg := by assumption) (m_tabs : m .tabs := by assumption) (m_evt : m .evt := by assumption) (m_gen : m .gen := by assumption) (m_rdg : m .rdg := by assumption) (m_fst : m .fst := by assumption) (m_links : m .links := by assumption) (m_thm : m .thm := by assumption) (m_drv : m .drv := by assumption) (m_pipe : m .pipe := by assumption) (m_cal : m .cal := by assumption) (m_pnl : m .pnl := by assumption) (m_hrt : m .hrt := by assumption) (m_bnk : m .bnk := by assumption) (m_win : m .win := by assumption) (m_mag : m .mag := by assumption) (m_thc : m .thc := by assumption) (m_relay : m .relay := by assumption) (m_jtag : m .jtag := by assumption) (m_fmask : m .fmask := by assumption) (m_aon : m .aon := by assumption) (m_fsEpoch : m .fsEpoch := by assumption) (m_out : m .out := by assumption) :
    (State.dropRail s).cut m = s.cut m := by
  unfold State.dropRail
  repeat' (first | split | simp only [↓State.setRail_cut, ↓State.endOff_cut, m_regs, m_rst, m_pwr, m_hst, m_stg, m_tabs, m_evt, m_gen, m_rdg, m_fst, m_links, m_thm, m_drv, m_pipe, m_cal, m_pnl, m_hrt, m_bnk, m_win, m_mag, m_thc, m_relay, m_jtag, m_fmask, m_aon, m_fsEpoch, m_out])

theorem State.offStep_cut {m : Area → Bool} (s : State) (m_regs : m .regs := by assumption) (m_rst : m .rst := by assumption) (m_pwr : m .pwr := by assumption) (m_hst : m .hst := by assumption) (m_stg : m .stg := by assumption) (m_tabs : m .tabs := by assumption) (m_evt : m .evt := by assumption) (m_gen : m .gen := by assumption) (m_rdg : m .rdg := by assumption) (m_fst : m .fst := by assumption) (m_links : m .links := by assumption) (m_thm : m .thm := by assumption) (m_drv : m .drv := by assumption) (m_pipe : m .pipe := by assumption) (m_cal : m .cal := by assumption) (m_pnl : m .pnl := by assumption) (m_hrt : m .hrt := by assumption) (m_bnk : m .bnk := by assumption) (m_win : m .win := by assumption) (m_mag : m .mag := by assumption) (m_thc : m .thc := by assumption) (m_relay : m .relay := by assumption) (m_jtag : m .jtag := by assumption) (m_fmask : m .fmask := by assumption) (m_aon : m .aon := by assumption) (m_fsEpoch : m .fsEpoch := by assumption) (m_out : m .out := by assumption) :
    (State.offStep s).cut m = s.cut m := by
  unfold State.offStep
  repeat' (first | split | simp only [↓State.onPnl_cut, ↓State.setSeq_cut, ↓State.setPanelPin_cut, ↓State.setPanelPins_cut, ↓State.sendDisch_cut, ↓State.railDelay_cut, ↓State.railDone_cut, ↓State.noAnswers_cut, ↓State.dropRail_cut, m_regs, m_rst, m_pwr, m_hst, m_stg, m_tabs, m_evt, m_gen, m_rdg, m_fst, m_links, m_thm, m_drv, m_pipe, m_cal, m_pnl, m_hrt, m_bnk, m_win, m_mag, m_thc, m_relay, m_jtag, m_fmask, m_aon, m_fsEpoch, m_out])

theorem State.panelStep_cut {m : Area → Bool} (s : State) (pins : PanelPins) (m_regs : m .regs := by assumption) (m_rst : m .rst := by assumption) (m_pwr : m .pwr := by assumption) (m_hst : m .hst := by assumption) (m_stg : m .stg := by assumption) (m_tabs : m .tabs := by assumption) (m_evt : m .evt := by assumption) (m_gen : m .gen := by assumption) (m_rdg : m .rdg := by assumption) (m_fst : m .fst := by assumption) (m_links : m .links := by assumption) (m_thm : m .thm := by assumption) (m_drv : m .drv := by assumption) (m_pipe : m .pipe := by assumption) (m_cal : m .cal := by assumption) (m_pnl : m .pnl := by assumption) (m_hrt : m .hrt := by assumption) (m_bnk : m .bnk := by assumption) (m_win : m .win := by assumption) (m_mag : m .mag := by assumption) (m_thc : m .thc := by assumption) (m_relay : m .relay := by assumption) (m_jtag : m .jtag := by assumption) (m_fmask : m .fmask := by assumption) (m_aon : m .aon := by assumption) (m_freeN : m .freeN := by assumption) (m_fsEpoch : m .fsEpoch := by assumption) (m_out : m .out := by assumption) :
    (State.panelStep s pins).cut m = s.cut m := by
  unfold State.panelStep
  simp only [↓State.setF_cut, ↓State.onStep_cut, ↓State.offStep_cut, ↓apply_ite (State.cut m), ite_self, m_regs, m_rst, m_pwr, m_hst, m_stg, m_tabs, m_evt, m_gen, m_rdg, m_fst, m_links, m_thm, m_drv, m_pipe, m_cal, m_pnl, m_hrt, m_bnk, m_win, m_mag, m_thc, m_relay, m_jtag, m_fmask, m_aon, m_freeN, m_fsEpoch, m_out]

theorem execPnlSeqStepEnd_cut {m : Area → Bool} (pins : PanelPins) (s : State) (m_regs : m .regs := by assumption) (m_rst : m .rst := by assumption) (m_pwr : m .pwr := by assumption) (m_hst : m .hst := by assumption) (m_stg : m .stg := by assumption) (m_tabs : m .tabs := by assumption) (m_evt : m .evt := by assumption) (m_gen : m .gen := by assumption) (m_rdg : m .rdg := by assumption) (m_fst : m .fst := by assumption) (m_links : m .links := by assumption) (m_thm : m .thm := by assumption) (m_drv : m .drv := by assumption) (m_pipe : m .pipe := by assumption) (m_cal : m .cal := by assumption) (m_pnl : m .pnl := by assumption) (m_hrt : m .hrt := by assumption) (m_bnk : m .bnk := by assumption) (m_win : m .win := by assumption) (m_mag : m .mag := by assumption) (m_thc : m .thc := by assumption) (m_relay : m .relay := by assumption) (m_jtag : m .jtag := by assumption) (m_fmask : m .fmask := by assumption) (m_aon : m .aon := by assumption) (m_freeN : m .freeN := by assumption) (m_fsEpoch : m .fsEpoch := by assumption) (m_out : m .out := by assumption) :
    outCut m (execPnlSeqStepEnd pins s) = some (s.cut m) := by
  unfold execPnlSeqStepEnd
  simp only [↓State.syncLath_cut, ↓State.panelStep_cut, ↓apply_ite (State.cut m), ite_self, ↓outCut_next, ↓apply_ite (outCut m), m_regs, m_rst, m_pwr, m_hst, m_stg, m_tabs, m_evt, m_gen, m_rdg, m_fst, m_links, m_thm, m_drv, m_pipe, m_cal, m_pnl, m_hrt, m_bnk, m_win, m_mag, m_thc, m_relay, m_jtag, m_fmask, m_aon, m_freeN, m_fsEpoch, m_out]

theorem State.pgTimeout_cut {m : Area → Bool} (s : State) (m_regs : m .regs := by assumption) (m_rst : m .rst := by assumption) (m_pwr : m .pwr := by assumption) (m_hst : m .hst := by assumption) (m_stg : m .stg := by assumption) (m_tabs : m .tabs := by assumption) (m_evt : m .evt := by assumption) (m_gen : m .gen := by assumption) (m_rdg : m .rdg := by assumption) (m_fst : m .fst := by assumption) (m_links : m .links := by assumption) (m_thm : m .thm := by assumption) (m_drv : m .drv := by assumption) (m_pipe : m .pipe := by assumption) (m_cal : m .cal := by assumption) (m_pnl : m .pnl := by assumption) (m_hrt : m .hrt := by assumption) (m_bnk : m .bnk := by assumption) (m_win : m .win := by assumption) (m_mag : m .mag := by assumption) (m_thc : m .thc := by assumption) (m_relay : m .relay := by assumption) (m_jtag : m .jtag := by assumption) (m_fmask : m .fmask := by assumption) (m_aon : m .aon := by assumption) (m_fsEpoch : m .fsEpoch := by assumption) (m_out : m .out := by assumption) :
    (State.pgTimeout s).cut m = s.cut m := by
  unfold State.pgTimeout
  repeat' (first | split | simp only [↓State.event_cut, ↓State.alarm_cut, ↓State.railDone_cut, ↓State.abortOn_cut, ↓State.dropRail_cut, m_regs, m_rst, m_pwr, m_hst, m_stg, m_tabs, m_evt, m_gen, m_rdg, m_fst, m_links, m_thm, m_drv, m_pipe, m_cal, m_pnl, m_hrt, m_bnk, m_win, m_mag, m_thc, m_relay, m_jtag, m_fmask, m_aon, m_fsEpoch, m_out])

theorem execPnlPgTimeout_cut {m : Area → Bool} (s : State) (m_regs : m .regs := by assumption) (m_rst : m .rst := by assumption) (m_pwr : m .pwr := by assumption) (m_hst : m .hst := by assumption) (m_stg : m .stg := by assumption) (m_tabs : m .tabs := by assumption) (m_evt : m .evt := by assumption) (m_gen : m .gen := by assumption) (m_rdg : m .rdg := by assumption) (m_fst : m .fst := by assumption) (m_links : m .links := by assumption) (m_thm : m .thm := by assumption) (m_drv : m .drv := by assumption) (m_pipe : m .pipe := by assumption) (m_cal : m .cal := by assumption) (m_pnl : m .pnl := by assumption) (m_hrt : m .hrt := by assumption) (m_bnk : m .bnk := by assumption) (m_win : m .win := by assumption) (m_mag : m .mag := by assumption) (m_thc : m .thc := by assumption) (m_relay : m .relay := by assumption) (m_jtag : m .jtag := by assumption) (m_fmask : m .fmask := by assumption) (m_aon : m .aon := by assumption) (m_fsEpoch : m .fsEpoch := by assumption) (m_out : m .out := by assumption) :
    outCut m (execPnlPgTimeout s) = some (s.cut m) := by
  unfold execPnlPgTimeout
  simp only [↓State.pgTimeout_cut, ↓apply_ite (State.cut m), ite_self, ↓outCut_next, ↓apply_ite (outCut m), m_regs, m_rst, m_pwr, m_hst, m_stg, m_tabs, m_evt, m_gen, m_rdg, m_fst, m_links, m_thm, m_drv, m_pipe, m_cal, m_pnl, m_hrt, m_bnk, m_win, m_mag, m_thc, m_relay, m_jtag, m_fmask, m_aon, m_fsEpoch, m_out]

theorem State.emergEnd_cut {m : Area → Bool} (s : State) (m_regs : m .regs := by assumption) (m_rst : m .rst := by assumption) (m_pwr : m .pwr := by assumption) (m_hst : m .hst := by assumption) (m_stg : m .stg := by assumption) (m_tabs : m .tabs := by assumption) (m_evt : m .evt := by assumption) (m_gen : m .gen := by assumption) (m_rdg : m .rdg := by assumption) (m_fst : m .fst := by assumption) (m_links : m .links := by assumption) (m_thm : m .thm := by assumption) (m_drv : m .drv := by assumption) (m_pipe : m .pipe := by assumption) (m_cal : m .cal := by assumption) (m_pnl : m .pnl := by assumption) (m_hrt : m .hrt := by assumption) (m_bnk : m .bnk := by assumption) (m_win : m .win := by assumption) (m_mag : m .mag := by assumption) (m_thc : m .thc := by assumption) (m_relay : m .relay := by assumption) (m_jtag : m .jtag := by assumption) (m_fmask : m .fmask := by assumption) (m_aon : m .aon := by assumption) (m_fsEpoch : m .fsEpoch := by assumption) (m_out : m .out := by assumption) :
    (State.emergEnd s).cut m = s.cut m := by
  unfold State.emergEnd
  simp only [↓State.setF_cut, ↓State.bump_cut, ↓State.onPnl_cut, ↓State.alarm_cut, ↓State.setSeq_cut, ↓State.panelOutputsOff_cut, ↓State.panelDomainsOff_cut, ↓State.arriveStandby_cut, ↓State.shutDown_cut, ↓State.afterPanel_cut, ↓State.powerGone_cut, ↓State.panelDone_cut, ↓apply_ite (State.cut m), ite_self, m_regs, m_rst, m_pwr, m_hst, m_stg, m_tabs, m_evt, m_gen, m_rdg, m_fst, m_links, m_thm, m_drv, m_pipe, m_cal, m_pnl, m_hrt, m_bnk, m_win, m_mag, m_thc, m_relay, m_jtag, m_fmask, m_aon, m_fsEpoch, m_out]

theorem State.emergNext_cut {m : Area → Bool} (s : State) (m_regs : m .regs := by assumption) (m_rst : m .rst := by assumption) (m_pwr : m .pwr := by assumption) (m_hst : m .hst := by assumption) (m_stg : m .stg := by assumption) (m_tabs : m .tabs := by assumption) (m_evt : m .evt := by assumption) (m_gen : m .gen := by assumption) (m_rdg : m .rdg := by assumption) (m_fst : m .fst := by assumption) (m_links : m .links := by assumption) (m_thm : m .thm := by assumption) (m_drv : m .drv := by assumption) (m_pipe : m .pipe := by assumption) (m_cal : m .cal := by assumption) (m_pnl : m .pnl := by assumption) (m_hrt : m .hrt := by assumption) (m_bnk : m .bnk := by assumption) (m_win : m .win := by assumption) (m_mag : m .mag := by assumption) (m_thc : m .thc := by assumption) (m_relay : m .relay := by assumption) (m_jtag : m .jtag := by assumption) (m_fmask : m .fmask := by assumption) (m_aon : m .aon := by assumption) (m_fsEpoch : m .fsEpoch := by assumption) (m_out : m .out := by assumption) :
    (State.emergNext s).cut m = s.cut m := by
  unfold State.emergNext
  repeat' (first | (with_reducible refine (foldl_cut _ _ _ fun s x => ?_).trans ?_) | split | simp only [↓State.onPnl_cut, ↓State.setPanelPin_cut, ↓State.setPanelPins_cut, ↓State.setBatRst_cut, ↓State.setRail_cut, ↓State.emergEnd_cut, m_regs, m_rst, m_pwr, m_hst, m_stg, m_tabs, m_evt, m_gen, m_rdg, m_fst, m_links, m_thm, m_drv, m_pipe, m_cal, m_pnl, m_hrt, m_bnk, m_win, m_mag, m_thc, m_relay, m_jtag, m_fmask, m_aon, m_fsEpoch, m_out])

theorem execEmergStep_cut {m : Area → Bool} (s : State) (m_regs : m .regs := by assumption) (m_rst : m .rst := by assumption) (m_pwr : m .pwr := by assumption) (m_hst : m .hst := by assumption) (m_stg : m .stg := by assumption) (m_tabs : m .tabs := by assumption) (m_evt : m .evt := by assumption) (m_gen : m .gen := by assumption) (m_rdg : m .rdg := by assumption) (m_fst : m .fst := by assumption) (m_links : m .links := by assumption) (m_thm : m .thm := by assumption) (m_drv : m .drv := by assumption) (m_pipe : m .pipe := by assumption) (m_cal : m .cal := by assumption) (m_pnl : m .pnl := by assumption) (m_hrt : m .hrt := by assumption) (m_bnk : m .bnk := by assumption) (m_win : m .win := by assumption) (m_mag : m .mag := by assumption) (m_thc : m .thc := by assumption) (m_relay : m .relay := by assumption) (m_jtag : m .jtag := by assumption) (m_fmask : m .fmask := by assumption) (m_aon : m .aon := by assumption) (m_fsEpoch : m .fsEpoch := by assumption) (m_out : m .out := by assumption) :
    outCut m (execEmergStep s) = some (s.cut m) := by
  unfold execEmergStep
  simp only [↓State.syncLath_cut, ↓State.emergNext_cut, ↓apply_ite (State.cut m), ite_self, ↓outCut_next, ↓apply_ite (outCut m), m_regs, m_rst, m_pwr, m_hst, m_stg, m_tabs, m_evt, m_gen, m_rdg, m_fst, m_links, m_thm, m_drv, m_pipe, m_cal, m_pnl, m_hrt, m_bnk, m_win, m_mag, m_thc, m_relay, m_jtag, m_fmask, m_aon, m_fsEpoch, m_out]

theorem execFstRecal_cut {m : Area → Bool} (ok0 : Bool) (ok1 : Bool) (s : State) (m_regs : m .regs := by assumption) (m_pwr : m .pwr := by assumption) (m_hst : m .hst := by assumption) (m_stg : m .stg := by assumption) (m_tabs : m .tabs := by assumption) (m_evt : m .evt := by assumption) (m_gen : m .gen := by assumption) (m_rdg : m .rdg := by assumption) (m_fst : m .fst := by assumption) (m_links : m .links := by assumption) (m_thm : m .thm := by assumption) (m_drv : m .drv := by assumption) (m_pnl : m .pnl := by assumption) (m_hrt : m .hrt := by assumption) (m_bnk : m .bnk := by assumption) (m_win : m .win := by assumption) (m_mag : m .mag := by assumption) (m_thc : m .thc := by assumption) (m_fmask : m .fmask := by assumption) (m_freeN : m .freeN := by assumption) (m_out : m .out := by assumption) :
    outCut m (execFstRecal ok0 ok1 s) = some (s.cut m) := by
  unfold execFstRecal
  simp only [↓State.onFst_cut, ↓State.loseTraining_cut, ↓State.afterStop_cut, ↓apply_ite (State.cut m), ite_self, ↓outCut_next, ↓apply_ite (outCut m), m_regs, m_pwr, m_hst, m_stg, m_tabs, m_evt, m_gen, m_rdg, m_fst, m_links, m_thm, m_drv, m_pnl, m_hrt, m_bnk, m_win, m_mag, m_thc, m_fmask, m_freeN, m_out]

theorem execEmergTrigger_cut {m : Area → Bool} (cause : EmergCause) (s : State) (m_regs : m .regs := by assumption) (m_rst : m .rst := by assumption) (m_pwr : m .pwr := by assumption) (m_hst : m .hst := by assumption) (m_stg : m .stg := by assumption) (m_tabs : m .tabs := by assumption) (m_evt : m .evt := by assumption) (m_gen : m .gen := by assumption) (m_rdg : m .rdg := by assumption) (m_fst : m .fst := by assumption) (m_links : m .links := by assumption) (m_thm : m .thm := by assumption) (m_drv : m .drv := by assumption) (m_cal : m .cal := by assumption) (m_pnl : m .pnl := by assumption) (m_hrt : m .hrt := by assumption) (m_bnk : m .bnk := by assumption) (m_win : m .win := by assumption) (m_mag : m .mag := by assumption) (m_thc : m .thc := by assumption) (m_relay : m .relay := by assumption) (m_fmask : m .fmask := by assumption) (m_freeN : m .freeN := by assumption) (m_out : m .out := by assumption) :
    outCut m (execEmergTrigger cause s) = some (s.cut m) := by
  unfold execEmergTrigger
  simp only [↓State.emergTrigger_cut, ↓State.afterStop_cut, ↓apply_ite (State.cut m), ite_self, ↓outCut_next, ↓apply_ite (outCut m), m_regs, m_rst, m_pwr, m_hst, m_stg, m_tabs, m_evt, m_gen, m_rdg, m_fst, m_links, m_thm, m_drv, m_cal, m_pnl, m_hrt, m_bnk, m_win, m_mag, m_thc, m_relay, m_fmask, m_freeN, m_out]

theorem execCrackMeasureEnd_cut {m : Area → Bool} (r : CrackReading) (s : State) (m_regs : m .regs := by assumption) (m_pwr : m .pwr := by assumption) (m_hst : m .hst := by assumption) (m_stg : m .stg := by assumption) (m_tabs : m .tabs := by assumption) (m_evt : m .evt := by assumption) (m_gen : m .gen := by assumption) (m_rdg : m .rdg := by assumption) (m_fst : m .fst := by assumption) (m_links : m .links := by assumption) (m_thm : m .thm := by assumption) (m_drv : m .drv := by assumption) (m_pnl : m .pnl := by assumption) (m_hrt : m .hrt := by assumption) (m_bnk : m .bnk := by assumption) (m_win : m .win := by assumption) (m_mag : m .mag := by assumption) (m_thc : m .thc := by assumption) (m_fmask : m .fmask := by assumption) (m_freeN : m .freeN := by assumption) (m_out : m .out := by assumption) :
    outCut m (execCrackMeasureEnd r s) = some (s.cut m) := by
  unfold execCrackMeasureEnd
  simp only [↓State.crackEnd_cut, ↓State.afterStop_cut, ↓apply_ite (State.cut m), ite_self, ↓outCut_next, ↓apply_ite (outCut m), m_regs, m_pwr, m_hst, m_stg, m_tabs, m_evt, m_gen, m_rdg, m_fst, m_links, m_thm, m_drv, m_pnl, m_hrt, m_bnk, m_win, m_mag, m_thc, m_fmask, m_freeN, m_out]

theorem execThmSweep_cut {m : Area → Bool} (reads : List SensorRead) (s : State) (m_regs : m .regs := by assumption) (m_rst : m .rst := by assumption) (m_pwr : m .pwr := by assumption) (m_hst : m .hst := by assumption) (m_stg : m .stg := by assumption) (m_tabs : m .tabs := by assumption) (m_evt : m .evt := by assumption) (m_gen : m .gen := by assumption) (m_rdg : m .rdg := by assumption) (m_fst : m .fst := by assumption) (m_links : m .links := by assumption) (m_thm : m .thm := by assumption) (m_drv : m .drv := by assumption) (m_cal : m .cal := by assumption) (m_pnl : m .pnl := by assumption) (m_hrt : m .hrt := by assumption) (m_bnk : m .bnk := by assumption) (m_win : m .win := by assumption) (m_mag : m .mag := by assumption) (m_thc : m .thc := by assumption) (m_relay : m .relay := by assumption) (m_fmask : m .fmask := by assumption) (m_freeN : m .freeN := by assumption) (m_out : m .out := by assumption) :
    outCut m (execThmSweep reads s) = some (s.cut m) := by
  unfold execThmSweep
  simp only [↓State.sweep_cut, ↓State.afterStop_cut, ↓apply_ite (State.cut m), ite_self, ↓outCut_next, ↓apply_ite (outCut m), m_regs, m_rst, m_pwr, m_hst, m_stg, m_tabs, m_evt, m_gen, m_rdg, m_fst, m_links, m_thm, m_drv, m_cal, m_pnl, m_hrt, m_bnk, m_win, m_mag, m_thc, m_relay, m_fmask, m_freeN, m_out]

theorem execStackSensorRead_cut {m : Area → Bool} (reads : List StackRead) (s : State) (m_regs : m .regs := by assumption) (m_rst : m .rst := by assumption) (m_pwr : m .pwr := by assumption) (m_hst : m .hst := by assumption) (m_stg : m .stg := by assumption) (m_tabs : m .tabs := by assumption) (m_evt : m .evt := by assumption) (m_gen : m .gen := by assumption) (m_rdg : m .rdg := by assumption) (m_fst : m .fst := by assumption) (m_links : m .links := by assumption) (m_thm : m .thm := by assumption) (m_drv : m .drv := by assumption) (m_cal : m .cal := by assumption) (m_pnl : m .pnl := by assumption) (m_hrt : m .hrt := by assumption) (m_bnk : m .bnk := by assumption) (m_win : m .win := by assumption) (m_mag : m .mag := by assumption) (m_thc : m .thc := by assumption) (m_relay : m .relay := by assumption) (m_fmask : m .fmask := by assumption) (m_freeN : m .freeN := by assumption) (m_out : m .out := by assumption) :
    outCut m (execStackSensorRead reads s) = some (s.cut m) := by
  unfold execStackSensorRead
  simp only [↓State.stackSensors_cut, ↓State.afterStop_cut, ↓apply_ite (State.cut m), ite_self, ↓outCut_next, ↓apply_ite (outCut m), m_regs, m_rst, m_pwr, m_hst, m_stg, m_tabs, m_evt, m_gen, m_rdg, m_fst, m_links, m_thm, m_drv, m_cal, m_pnl, m_hrt, m_bnk, m_win, m_mag, m_thc, m_relay, m_fmask, m_freeN, m_out]

theorem execVddIoRemoved_cut {m : Area → Bool} (s : State) (m_regs : m .regs := by assumption) (m_rst : m .rst := by assumption) (m_pwr : m .pwr := by assumption) (m_hst : m .hst := by assumption) (m_stg : m .stg := by assumption) (m_tabs : m .tabs := by assumption) (m_evt : m .evt := by assumption) (m_gen : m .gen := by assumption) (m_rdg : m .rdg := by assumption) (m_fst : m .fst := by assumption) (m_links : m .links := by assumption) (m_thm : m .thm := by assumption) (m_drv : m .drv := by assumption) (m_pipe : m .pipe := by assumption) (m_cal : m .cal := by assumption) (m_pnl : m .pnl := by assumption) (m_hrt : m .hrt := by assumption) (m_bnk : m .bnk := by assumption) (m_win : m .win := by assumption) (m_mag : m .mag := by assumption) (m_thc : m .thc := by assumption) (m_relay : m .relay := by assumption) (m_jtag : m .jtag := by assumption) (m_fmask : m .fmask := by assumption) (m_aon : m .aon := by assumption) (m_freeN : m .freeN := by assumption) (m_fsEpoch : m .fsEpoch := by assumption) (m_out : m .out := by assumption) :
    outCut m (execVddIoRemoved s) = some (s.cut m) := by
  unfold execVddIoRemoved
  simp only [↓State.onRst_cut, ↓State.beginEmerg_cut, ↓State.afterStop_cut, ↓State.powerGone_cut, ↓apply_ite (State.cut m), ite_self, ↓outCut_next, ↓apply_ite (outCut m), m_regs, m_rst, m_pwr, m_hst, m_stg, m_tabs, m_evt, m_gen, m_rdg, m_fst, m_links, m_thm, m_drv, m_pipe, m_cal, m_pnl, m_hrt, m_bnk, m_win, m_mag, m_thc, m_relay, m_jtag, m_fmask, m_aon, m_freeN, m_fsEpoch, m_out]

theorem State.refuse_cut {m : Area → Bool} (s : State) (n : ℕ) (m_regs : m .regs := by assumption) :
    (State.refuse s n).cut m = s.cut m := by
  unfold State.refuse
  simp only [↓State.setF_cut, ↓apply_ite (State.cut m), ite_self, m_regs]

theorem State.reattach_cut {m : Area → Bool} (s : State) (m_regs : m .regs := by assumption) (m_pwr : m .pwr := by assumption) (m_mag : m .mag := by assumption) :
    (State.reattach s).cut m = s.cut m := by
  unfold State.reattach
  repeat' (first | (with_reducible refine (foldl_cut _ _ _ fun s x => ?_).trans ?_) | split | simp only [↓State.beginAttach_cut, m_regs, m_pwr, m_mag])

theorem State.unpark_cut {m : Area → Bool} (s : State) (m_mag : m .mag := by assumption) :
    (State.unpark s).cut m = s.cut m := by
  unfold State.unpark
  repeat' (first | (with_reducible refine (foldl_cut _ _ _ fun s x => ?_).trans ?_) | split | simp only [↓State.onPort_cut, m_mag])

theorem State.requestActive_cut {m : Area → Bool} (s : State) (m_regs : m .regs := by assumption) (m_pwr : m .pwr := by assumption) (m_hst : m .hst := by assumption) (m_evt : m .evt := by assumption) (m_rdg : m .rdg := by assumption) (m_links : m .links := by assumption) (m_thm : m .thm := by assumption) (m_cal : m .cal := by assumption) (m_pnl : m .pnl := by assumption) (m_mag : m .mag := by assumption) (m_out : m .out := by assumption) :
    (State.requestActive s).cut m = s.cut m := by
  unfold State.requestActive
  simp only [↓State.onPnl_cut, ↓State.dropHeading_cut, ↓State.setTarget_cut, ↓State.startPanelOn_cut, ↓State.refuse_cut, ↓State.reattach_cut, ↓apply_ite (State.cut m), ite_self, m_regs, m_pwr, m_hst, m_evt, m_rdg, m_links, m_thm, m_cal, m_pnl, m_mag, m_out]

theorem State.requestStandby_cut {m : Area → Bool} (s : State) (m_regs : m .regs := by assumption) (m_pwr : m .pwr := by assumption) (m_pnl : m .pnl := by assumption) (m_mag : m .mag := by assumption) :
    (State.requestStandby s).cut m = s.cut m := by
  unfold State.requestStandby
  simp only [↓State.setF_cut, ↓State.dropHeading_cut, ↓State.beginOff_cut, ↓State.refuse_cut, ↓State.reattach_cut, ↓apply_ite (State.cut m), ite_self, m_regs, m_pwr, m_pnl, m_mag]

theorem State.requestDormant_cut {m : Area → Bool} (s : State) (m_regs : m .regs := by assumption) (m_pwr : m .pwr := by assumption) (m_hst : m .hst := by assumption) (m_evt : m .evt := by assumption) (m_rdg : m .rdg := by assumption) (m_fst : m .fst := by assumption) (m_links : m .links := by assumption) (m_thm : m .thm := by assumption) (m_pnl : m .pnl := by assumption) (m_mag : m .mag := by assumption) (m_thc : m .thc := by assumption) (m_out : m .out := by assumption) :
    (State.requestDormant s).cut m = s.cut m := by
  unfold State.requestDormant
  repeat' (first | split | simp only [↓State.onPwr_cut, ↓State.beginOff_cut, ↓State.headDormant_cut, ↓State.refuse_cut, m_regs, m_pwr, m_hst, m_evt, m_rdg, m_fst, m_links, m_thm, m_pnl, m_mag, m_thc, m_out])

theorem State.powerRequest_cut {m : Area → Bool} (s : State) (n : ℕ) (m_regs : m .regs := by assumption) (m_pwr : m .pwr := by assumption) (m_hst : m .hst := by assumption) (m_evt : m .evt := by assumption) (m_rdg : m .rdg := by assumption) (m_fst : m .fst := by assumption) (m_links : m .links := by assumption) (m_thm : m .thm := by assumption) (m_cal : m .cal := by assumption) (m_pnl : m .pnl := by assumption) (m_mag : m .mag := by assumption) (m_thc : m .thc := by assumption) (m_out : m .out := by assumption) :
    (State.powerRequest s n).cut m = s.cut m := by
  unfold State.powerRequest
  simp only [↓State.setF_cut, ↓State.event_cut, ↓State.requestActive_cut, ↓State.requestStandby_cut, ↓State.requestDormant_cut, ↓apply_ite (State.cut m), ite_self, m_regs, m_pwr, m_hst, m_evt, m_rdg, m_fst, m_links, m_thm, m_cal, m_pnl, m_mag, m_thc, m_out]

theorem execPwrReqActive_cut {m : Area → Bool} (_v : Word) (s : State) (m_regs : m .regs := by assumption) (m_pwr : m .pwr := by assumption) (m_hst : m .hst := by assumption) (m_evt : m .evt := by assumption) (m_rdg : m .rdg := by assumption) (m_fst : m .fst := by assumption) (m_links : m .links := by assumption) (m_thm : m .thm := by assumption) (m_cal : m .cal := by assumption) (m_pnl : m .pnl := by assumption) (m_mag : m .mag := by assumption) (m_thc : m .thc := by assumption) (m_out : m .out := by assumption) :
    outCut m (execPwrReqActive _v s) = some (s.cut m) := by
  unfold execPwrReqActive
  repeat' (first | (refine congrArg some ?_) | (with_reducible refine (State.viaHst_cut (h_f := fun y0 => ?_) (s := _)).trans ?_) | split | simp only [↓State.powerRequest_cut, m_regs, m_pwr, m_hst, m_evt, m_rdg, m_fst, m_links, m_thm, m_cal, m_pnl, m_mag, m_thc, m_out])

theorem execPwrReqStandby_cut {m : Area → Bool} (_v : Word) (s : State) (m_regs : m .regs := by assumption) (m_pwr : m .pwr := by assumption) (m_hst : m .hst := by assumption) (m_evt : m .evt := by assumption) (m_rdg : m .rdg := by assumption) (m_fst : m .fst := by assumption) (m_links : m .links := by assumption) (m_thm : m .thm := by assumption) (m_cal : m .cal := by assumption) (m_pnl : m .pnl := by assumption) (m_mag : m .mag := by assumption) (m_thc : m .thc := by assumption) (m_out : m .out := by assumption) :
    outCut m (execPwrReqStandby _v s) = some (s.cut m) := by
  unfold execPwrReqStandby
  repeat' (first | (refine congrArg some ?_) | (with_reducible refine (State.viaHst_cut (h_f := fun y0 => ?_) (s := _)).trans ?_) | split | simp only [↓State.powerRequest_cut, m_regs, m_pwr, m_hst, m_evt, m_rdg, m_fst, m_links, m_thm, m_cal, m_pnl, m_mag, m_thc, m_out])

theorem execPwrReqDormant_cut {m : Area → Bool} (_v : Word) (s : State) (m_regs : m .regs := by assumption) (m_pwr : m .pwr := by assumption) (m_hst : m .hst := by assumption) (m_evt : m .evt := by assumption) (m_rdg : m .rdg := by assumption) (m_fst : m .fst := by assumption) (m_links : m .links := by assumption) (m_thm : m .thm := by assumption) (m_cal : m .cal := by assumption) (m_pnl : m .pnl := by assumption) (m_mag : m .mag := by assumption) (m_thc : m .thc := by assumption) (m_out : m .out := by assumption) :
    outCut m (execPwrReqDormant _v s) = some (s.cut m) := by
  unfold execPwrReqDormant
  repeat' (first | (refine congrArg some ?_) | (with_reducible refine (State.viaHst_cut (h_f := fun y0 => ?_) (s := _)).trans ?_) | split | simp only [↓State.powerRequest_cut, m_regs, m_pwr, m_hst, m_evt, m_rdg, m_fst, m_links, m_thm, m_cal, m_pnl, m_mag, m_thc, m_out])

theorem State.openPendings_cut {m : Area → Bool} (s : State) (m_regs : m .regs := by assumption) (m_pwr : m .pwr := by assumption) (m_hst : m .hst := by assumption) (m_stg : m .stg := by assumption) (m_tabs : m .tabs := by assumption) (m_evt : m .evt := by assumption) (m_gen : m .gen := by assumption) (m_rdg : m .rdg := by assumption) (m_fst : m .fst := by assumption) (m_links : m .links := by assumption) (m_thm : m .thm := by assumption) (m_drv : m .drv := by assumption) (m_pnl : m .pnl := by assumption) (m_bnk : m .bnk := by assumption) (m_win : m .win := by assumption) (m_mag : m .mag := by assumption) (m_thc : m .thc := by assumption) (m_fmask : m .fmask := by assumption) (m_freeN : m .freeN := by assumption) (m_out : m .out := by assumption) :
    (State.openPendings s).cut m = s.cut m := by
  unfold State.openPendings
  simp only [↓State.setF_cut, ↓State.event_cut, ↓State.placeNow_cut, ↓State.applyPendings_cut, ↓apply_ite (State.cut m), ite_self, m_regs, m_pwr, m_hst, m_stg, m_tabs, m_evt, m_gen, m_rdg, m_fst, m_links, m_thm, m_drv, m_pnl, m_bnk, m_win, m_mag, m_thc, m_fmask, m_freeN, m_out]

theorem State.banksDown_cut {m : Area → Bool} (s : State) (m_regs : m .regs := by assumption) (m_bnk : m .bnk := by assumption) :
    (State.banksDown s).cut m = s.cut m := by
  unfold State.banksDown
  repeat' (first | (with_reducible refine (foldl_cut _ _ _ fun s x => ?_).trans ?_) | split | simp only [↓State.setBankState_cut, ↓State.dropOff_cut, m_regs, m_bnk])

theorem State.beginWake_cut {m : Area → Bool} (s : State) (n : ℕ) (m_regs : m .regs := by assumption) (m_pwr : m .pwr := by assumption) :
    (State.beginWake s n).cut m = s.cut m := by
  unfold State.beginWake
  simp only [↓State.setF_cut, ↓State.onPwr_cut, ↓apply_ite (State.cut m), ite_self, m_regs, m_pwr]

theorem State.wakeIfSeen_cut {m : Area → Bool} (s : State) (m_regs : m .regs := by assumption) (m_pwr : m .pwr := by assumption) :
    (State.wakeIfSeen s).cut m = s.cut m := by
  unfold State.wakeIfSeen
  repeat' (first | split | simp only [↓State.beginWake_cut, m_regs, m_pwr])

theorem State.discardOpen_cut {m : Area → Bool} (s : State) (m_regs : m .regs := by assumption) (m_stg : m .stg := by assumption) (m_tabs : m .tabs := by assumption) (m_evt : m .evt := by assumption) (m_win : m .win := by assumption) :
    (State.discardOpen s).cut m = s.cut m := by
  unfold State.discardOpen
  repeat' (first | (with_reducible refine (foldl_cut _ _ _ fun s x => ?_).trans ?_) | split | simp only [↓State.event_cut, ↓State.dropTxn_cut, m_regs, m_stg, m_tabs, m_evt, m_win])

theorem State.drainAll_cut {m : Area → Bool} (s : State) (m_regs : m .regs := by assumption) (m_pwr : m .pwr := by assumption) (m_hst : m .hst := by assumption) (m_stg : m .stg := by assumption) (m_tabs : m .tabs := by assumption) (m_evt : m .evt := by assumption) (m_gen : m .gen := by assumption) (m_rdg : m .rdg := by assumption) (m_fst : m .fst := by assumption) (m_links : m .links := by assumption) (m_thm : m .thm := by assumption) (m_drv : m .drv := by assumption) (m_pnl : m .pnl := by assumption) (m_bnk : m .bnk := by assumption) (m_win : m .win := by assumption) (m_mag : m .mag := by assumption) (m_thc : m .thc := by assumption) (m_fmask : m .fmask := by assumption) (m_freeN : m .freeN := by assumption) (m_out : m .out := by assumption) :
    (State.drainAll s).cut m = s.cut m := by
  unfold State.drainAll
  simp only [↓State.flushEvents_cut, ↓State.drainTrace_cut, ↓State.openPendings_cut, ↓State.discardOpen_cut, ↓apply_ite (State.cut m), ite_self, m_regs, m_pwr, m_hst, m_stg, m_tabs, m_evt, m_gen, m_rdg, m_fst, m_links, m_thm, m_drv, m_pnl, m_bnk, m_win, m_mag, m_thc, m_fmask, m_freeN, m_out]

theorem State.entryTime_cut {m : Area → Bool} (s : State) (m_regs : m .regs := by assumption) (m_gen : m .gen := by assumption) :
    (State.entryTime s).cut m = s.cut m := by
  unfold State.entryTime
  simp only [↓State.onGen_cut, ↓State.aonkAtEntry_cut, ↓apply_ite (State.cut m), ite_self, m_regs, m_gen]

theorem State.enterDormant_cut {m : Area → Bool} (s : State) (m_regs : m .regs := by assumption) (m_pwr : m .pwr := by assumption) (m_hst : m .hst := by assumption) (m_stg : m .stg := by assumption) (m_tabs : m .tabs := by assumption) (m_evt : m .evt := by assumption) (m_gen : m .gen := by assumption) (m_rdg : m .rdg := by assumption) (m_fst : m .fst := by assumption) (m_links : m .links := by assumption) (m_thm : m .thm := by assumption) (m_drv : m .drv := by assumption) (m_pnl : m .pnl := by assumption) (m_bnk : m .bnk := by assumption) (m_win : m .win := by assumption) (m_mag : m .mag := by assumption) (m_thc : m .thc := by assumption) (m_fmask : m .fmask := by assumption) (m_freeN : m .freeN := by assumption) (m_out : m .out := by assumption) :
    (State.enterDormant s).cut m = s.cut m := by
  unfold State.enterDormant
  repeat' (first | (with_reducible refine (foldl_cut _ _ _ fun s x => ?_).trans ?_) | split | simp only [↓State.setF_cut, ↓State.onHst_cut, ↓State.onPwr_cut, ↓State.onThm_cut, ↓State.allOff_cut, ↓State.setTarget_cut, ↓State.toDisabled_cut, ↓State.syncEngine_cut, ↓State.banksDown_cut, ↓State.wakeIfSeen_cut, ↓State.drainAll_cut, ↓State.entryTime_cut, m_regs, m_pwr, m_hst, m_stg, m_tabs, m_evt, m_gen, m_rdg, m_fst, m_links, m_thm, m_drv, m_pnl, m_bnk, m_win, m_mag, m_thc, m_fmask, m_freeN, m_out])

theorem execDormantEntry_cut {m : Area → Bool} (s : State) (m_regs : m .regs := by assumption) (m_pwr : m .pwr := by assumption) (m_hst : m .hst := by assumption) (m_stg : m .stg := by assumption) (m_tabs : m .tabs := by assumption) (m_evt : m .evt := by assumption) (m_gen : m .gen := by assumption) (m_rdg : m .rdg := by assumption) (m_fst : m .fst := by assumption) (m_links : m .links := by assumption) (m_thm : m .thm := by assumption) (m_drv : m .drv := by assumption) (m_pnl : m .pnl := by assumption) (m_bnk : m .bnk := by assumption) (m_win : m .win := by assumption) (m_mag : m .mag := by assumption) (m_thc : m .thc := by assumption) (m_fmask : m .fmask := by assumption) (m_freeN : m .freeN := by assumption) (m_out : m .out := by assumption) :
    outCut m (execDormantEntry s) = some (s.cut m) := by
  unfold execDormantEntry
  simp only [↓State.enterDormant_cut, ↓apply_ite (State.cut m), ite_self, ↓outCut_next, ↓apply_ite (outCut m), m_regs, m_pwr, m_hst, m_stg, m_tabs, m_evt, m_gen, m_rdg, m_fst, m_links, m_thm, m_drv, m_pnl, m_bnk, m_win, m_mag, m_thc, m_fmask, m_freeN, m_out]

theorem State.wakeSource_cut {m : Area → Bool} (s : State) (n : ℕ) (m_regs : m .regs := by assumption) (m_pwr : m .pwr := by assumption) :
    (State.wakeSource s n).cut m = s.cut m := by
  unfold State.wakeSource
  simp only [↓State.onPwr_cut, ↓State.beginWake_cut, ↓apply_ite (State.cut m), ite_self, m_regs, m_pwr]

theorem execDormantWake_cut {m : Area → Bool} (src : Fin 3) (s : State) (m_regs : m .regs := by assumption) (m_pwr : m .pwr := by assumption) :
    outCut m (execDormantWake src s) = some (s.cut m) := by
  unfold execDormantWake
  simp only [↓State.wakeSource_cut, ↓apply_ite (State.cut m), ite_self, ↓outCut_next, ↓apply_ite (outCut m), m_regs, m_pwr]

theorem State.wakeTime_cut {m : Area → Bool} (s : State) (a : ℕ) (m_regs : m .regs := by assumption) (m_gen : m .gen := by assumption) (m_fst : m .fst := by assumption) (m_links : m .links := by assumption) (m_aon : m .aon := by assumption) :
    (State.wakeTime s a).cut m = s.cut m := by
  unfold State.wakeTime
  simp only [↓State.setReg_cut, ↓State.setF_cut, ↓State.onGen_cut, ↓State.stepFrames_cut, ↓State.restartLock_cut, ↓cut_aon, ↓apply_ite (State.cut m), ite_self, m_regs, m_gen, m_fst, m_links, m_aon]

theorem State.banksWake_cut {m : Area → Bool} (s : State) (fell : Bool) (m_regs : m .regs := by assumption) (m_tabs : m .tabs := by assumption) (m_evt : m .evt := by assumption) (m_fst : m .fst := by assumption) (m_bnk : m .bnk := by assumption) (m_fmask : m .fmask := by assumption) :
    (State.banksWake s fell).cut m = s.cut m := by
  unfold State.banksWake
  repeat' (first | (with_reducible refine (foldl_cut _ _ _ fun s x => ?_).trans ?_) | split | simp only [↓State.onFst_cut, ↓State.setBankState_cut, ↓State.loseTables_cut, ↓State.syncBanks_cut, ↓State.loseTrace_cut, m_regs, m_tabs, m_evt, m_fst, m_bnk, m_fmask])

theorem State.storeWake_cut {m : Area → Bool} (s : State) (trained : Bool) (m_regs : m .regs := by assumption) (m_hst : m .hst := by assumption) (m_tabs : m .tabs := by assumption) (m_evt : m .evt := by assumption) (m_rdg : m .rdg := by assumption) (m_fst : m .fst := by assumption) (m_links : m .links := by assumption) (m_pnl : m .pnl := by assumption) (m_win : m .win := by assumption) (m_mag : m .mag := by assumption) (m_thc : m .thc := by assumption) (m_fsEpoch : m .fsEpoch := by assumption) (m_out : m .out := by assumption) :
    (State.storeWake s trained).cut m = s.cut m := by
  unfold State.storeWake
  repeat' (first | (with_reducible refine (foldl_cut _ _ _ fun s x => ?_).trans ?_) | split | simp only [↓State.onFst_cut, ↓State.syncMap_cut, ↓State.assignFrames_cut, ↓State.loseTraining_cut, ↓State.loseLayers_cut, ↓State.freeStaging_cut, ↓State.onWin_cut, ↓State.syncJpend_cut, ↓cut_fsEpoch, m_regs, m_hst, m_tabs, m_evt, m_rdg, m_fst, m_links, m_pnl, m_win, m_mag, m_thc, m_fsEpoch, m_out])

theorem State.wakeEnd_cut {m : Area → Bool} (s : State) (r : WakeResult) (m_regs : m .regs := by assumption) (m_pwr : m .pwr := by assumption) (m_hst : m .hst := by assumption) (m_tabs : m .tabs := by assumption) (m_evt : m .evt := by assumption) (m_gen : m .gen := by assumption) (m_rdg : m .rdg := by assumption) (m_fst : m .fst := by assumption) (m_links : m .links := by assumption) (m_thm : m .thm := by assumption) (m_pipe : m .pipe := by assumption) (m_pnl : m .pnl := by assumption) (m_bnk : m .bnk := by assumption) (m_win : m .win := by assumption) (m_mag : m .mag := by assumption) (m_thc : m .thc := by assumption) (m_fmask : m .fmask := by assumption) (m_aon : m .aon := by assumption) (m_fsEpoch : m .fsEpoch := by assumption) (m_out : m .out := by assumption) :
    (State.wakeEnd s r).cut m = s.cut m := by
  unfold State.wakeEnd
  repeat' (first | (with_reducible refine (foldl_cut _ _ _ fun s x => ?_).trans ?_) | split | simp only [↓State.setF_cut, ↓State.onPwr_cut, ↓State.onPipe_cut, ↓State.signal_cut, ↓State.syncZero_cut, ↓State.domainUp_cut, ↓State.unpark_cut, ↓State.wakeTime_cut, ↓State.banksWake_cut, ↓State.storeWake_cut, m_regs, m_pwr, m_hst, m_tabs, m_evt, m_gen, m_rdg, m_fst, m_links, m_thm, m_pipe, m_pnl, m_bnk, m_win, m_mag, m_thc, m_fmask, m_aon, m_fsEpoch, m_out])

theorem execDormantWakeEnd_cut {m : Area → Bool} (r : WakeResult) (s : State) (m_regs : m .regs := by assumption) (m_pwr : m .pwr := by assumption) (m_hst : m .hst := by assumption) (m_tabs : m .tabs := by assumption) (m_evt : m .evt := by assumption) (m_gen : m .gen := by assumption) (m_rdg : m .rdg := by assumption) (m_fst : m .fst := by assumption) (m_links : m .links := by assumption) (m_thm : m .thm := by assumption) (m_pipe : m .pipe := by assumption) (m_pnl : m .pnl := by assumption) (m_bnk : m .bnk := by assumption) (m_win : m .win := by assumption) (m_mag : m .mag := by assumption) (m_thc : m .thc := by assumption) (m_fmask : m .fmask := by assumption) (m_aon : m .aon := by assumption) (m_fsEpoch : m .fsEpoch := by assumption) (m_out : m .out := by assumption) :
    outCut m (execDormantWakeEnd r s) = some (s.cut m) := by
  unfold execDormantWakeEnd
  simp only [↓State.wakeEnd_cut, ↓apply_ite (State.cut m), ite_self, ↓outCut_next, ↓apply_ite (outCut m), m_regs, m_pwr, m_hst, m_tabs, m_evt, m_gen, m_rdg, m_fst, m_links, m_thm, m_pipe, m_pnl, m_bnk, m_win, m_mag, m_thc, m_fmask, m_aon, m_fsEpoch, m_out]

theorem execPciePerstNAssert_cut {m : Area → Bool} (s : State) (m_regs : m .regs := by assumption) (m_rst : m .rst := by assumption) (m_pwr : m .pwr := by assumption) (m_hst : m .hst := by assumption) (m_stg : m .stg := by assumption) (m_tabs : m .tabs := by assumption) (m_evt : m .evt := by assumption) (m_rdg : m .rdg := by assumption) (m_links : m .links := by assumption) (m_cal : m .cal := by assumption) (m_win : m .win := by assumption) (m_mag : m .mag := by assumption) (m_thc : m .thc := by assumption) (m_relay : m .relay := by assumption) (m_out : m .out := by assumption) :
    outCut m (execPciePerstNAssert s) = some (s.cut m) := by
  unfold execPciePerstNAssert
  simp only [↓State.hostReset_cut, ↓State.wakeSource_cut, ↓apply_ite (State.cut m), ite_self, ↓outCut_next, ↓apply_ite (outCut m), m_regs, m_rst, m_pwr, m_hst, m_stg, m_tabs, m_evt, m_rdg, m_links, m_cal, m_win, m_mag, m_thc, m_relay, m_out]

theorem execPcieLinkDown_cut {m : Area → Bool} (s : State) (m_regs : m .regs := by assumption) (m_hst : m .hst := by assumption) (m_rdg : m .rdg := by assumption) (m_links : m .links := by assumption) (m_out : m .out := by assumption) :
    outCut m (execPcieLinkDown s) = some (s.cut m) := by
  unfold execPcieLinkDown
  simp only [↓State.pcieDown_cut, ↓apply_ite (State.cut m), ite_self, ↓outCut_next, ↓apply_ite (outCut m), m_regs, m_hst, m_rdg, m_links, m_out]

theorem execPcieLinkUp_cut {m : Area → Bool} (s : State) (m_regs : m .regs := by assumption) (m_hst : m .hst := by assumption) (m_rdg : m .rdg := by assumption) (m_links : m .links := by assumption) (m_thm : m .thm := by assumption) (m_freeN : m .freeN := by assumption) (m_out : m .out := by assumption) :
    outCut m (execPcieLinkUp s) = some (s.cut m) := by
  unfold execPcieLinkUp
  simp only [↓State.recordBand_cut, ↓State.trainHost_cut, ↓State.syncMsixCtl_cut, ↓State.announce_cut, ↓State.syncHead_cut, ↓apply_ite (State.cut m), ite_self, ↓outCut_next, ↓apply_ite (outCut m), m_regs, m_hst, m_rdg, m_links, m_thm, m_freeN, m_out]

theorem State.domainDown_cut {m : Area → Bool} (s : State) (d : ℕ) (m_regs : m .regs := by assumption) (m_pwr : m .pwr := by assumption) (m_hst : m .hst := by assumption) (m_evt : m .evt := by assumption) (m_rdg : m .rdg := by assumption) (m_links : m .links := by assumption) (m_thm : m .thm := by assumption) (m_bnk : m .bnk := by assumption) (m_out : m .out := by assumption) :
    (State.domainDown s d).cut m = s.cut m := by
  unfold State.domainDown
  simp only [↓State.setDomain_cut, ↓State.toDisabled_cut, ↓State.syncBanks_cut, ↓State.dropOff_cut, ↓State.syncEngine_cut, ↓apply_ite (State.cut m), ite_self, m_regs, m_pwr, m_hst, m_evt, m_rdg, m_links, m_thm, m_bnk, m_out]

theorem execDomainAutoOff_cut {m : Area → Bool} (d : Fin 34) (s : State) (m_regs : m .regs := by assumption) (m_pwr : m .pwr := by assumption) (m_hst : m .hst := by assumption) (m_evt : m .evt := by assumption) (m_rdg : m .rdg := by assumption) (m_links : m .links := by assumption) (m_thm : m .thm := by assumption) (m_bnk : m .bnk := by assumption) (m_out : m .out := by assumption) :
    outCut m (execDomainAutoOff d s) = some (s.cut m) := by
  unfold execDomainAutoOff
  simp only [↓State.domainDown_cut, ↓apply_ite (State.cut m), ite_self, ↓outCut_next, ↓apply_ite (outCut m), m_regs, m_pwr, m_hst, m_evt, m_rdg, m_links, m_thm, m_bnk, m_out]

theorem execDomainWakeRequest_cut {m : Area → Bool} (r : DomainRequest) (s : State) (m_regs : m .regs := by assumption) (m_pwr : m .pwr := by assumption) (m_evt : m .evt := by assumption) (m_links : m .links := by assumption) (m_out : m .out := by assumption) :
    outCut m (execDomainWakeRequest r s) = some (s.cut m) := by
  unfold execDomainWakeRequest
  repeat' (first | (refine congrArg some ?_) | (with_reducible refine (State.viaHst_cut (h_f := fun y0 => ?_) (s := _)).trans ?_) | split | simp only [↓State.stallOn_cut, m_regs, m_pwr, m_evt, m_links, m_out])

theorem State.gateBoundary_cut {m : Area → Bool} (s : State) (f : ℕ) (opens : Bool) (m_regs : m .regs := by assumption) (m_evt : m .evt := by assumption) :
    (State.gateBoundary s f opens).cut m = s.cut m := by
  unfold State.gateBoundary
  simp only [↓State.setF_cut, ↓State.event_cut, ↓apply_ite (State.cut m), ite_self, m_regs, m_evt]

theorem State.latchTheta_cut {m : Area → Bool} (s : State) (m_regs : m .regs := by assumption) (m_evt : m .evt := by assumption) :
    (State.latchTheta s).cut m = s.cut m := by
  unfold State.latchTheta
  simp only [↓State.setF_cut, ↓State.event_cut, ↓apply_ite (State.cut m), ite_self, m_regs, m_evt]

theorem State.checkRef_cut {m : Area → Bool} (s : State) (m_regs : m .regs := by assumption) (m_evt : m .evt := by assumption) :
    (State.checkRef s).cut m = s.cut m := by
  unfold State.checkRef
  simp only [↓State.setF_cut, ↓State.event_cut, ↓apply_ite (State.cut m), ite_self, m_regs, m_evt]

theorem State.passPlates_cut {m : Area → Bool} (s : State) (m_regs : m .regs := by assumption) (m_fst : m .fst := by assumption) (m_mag : m .mag := by assumption) (m_thc : m .thc := by assumption) :
    (State.passPlates s).cut m = s.cut m := by
  unfold State.passPlates
  repeat' (first | (with_reducible refine (foldl_cut _ _ _ fun s x => ?_).trans ?_) | split | simp only [↓State.freeStaging_cut, m_regs, m_fst, m_mag, m_thc])

theorem State.sendTiming_cut {m : Area → Bool} (s : State) (m_links : m .links := by assumption) (m_out : m .out := by assumption) :
    (State.sendTiming s).cut m = s.cut m := by
  unfold State.sendTiming
  repeat' (first | (with_reducible refine (foldl_cut _ _ _ fun s x => ?_).trans ?_) | split | simp only [↓State.linkSend_cut, m_links, m_out])

theorem State.traceBoundary_cut {m : Area → Bool} (s : State) (m_regs : m .regs := by assumption) (m_evt : m .evt := by assumption) :
    (State.traceBoundary s).cut m = s.cut m := by
  unfold State.traceBoundary
  simp only [↓State.trace_cut, ↓apply_ite (State.cut m), ite_self, m_regs, m_evt]

theorem State.applyVcmd_cut {m : Area → Bool} (s : State) (c : ℕ × ℕ) (m_regs : m .regs := by assumption) (m_pwr : m .pwr := by assumption) (m_hst : m .hst := by assumption) (m_evt : m .evt := by assumption) (m_rdg : m .rdg := by assumption) (m_fst : m .fst := by assumption) (m_links : m .links := by assumption) (m_thm : m .thm := by assumption) (m_cal : m .cal := by assumption) (m_pnl : m .pnl := by assumption) (m_mag : m .mag := by assumption) (m_thc : m .thc := by assumption) (m_out : m .out := by assumption) :
    (State.applyVcmd s c).cut m = s.cut m := by
  unfold State.applyVcmd
  simp only [↓State.setF_cut, ↓State.powerRequest_cut, ↓apply_ite (State.cut m), ite_self, m_regs, m_pwr, m_hst, m_evt, m_rdg, m_fst, m_links, m_thm, m_cal, m_pnl, m_mag, m_thc, m_out]

theorem State.applyVcmds_cut {m : Area → Bool} (s : State) (m_regs : m .regs := by assumption) (m_pwr : m .pwr := by assumption) (m_hst : m .hst := by assumption) (m_evt : m .evt := by assumption) (m_rdg : m .rdg := by assumption) (m_fst : m .fst := by assumption) (m_links : m .links := by assumption) (m_thm : m .thm := by assumption) (m_cal : m .cal := by assumption) (m_pnl : m .pnl := by assumption) (m_mag : m .mag := by assumption) (m_thc : m .thc := by assumption) (m_out : m .out := by assumption) :
    (State.applyVcmds s).cut m = s.cut m := by
  unfold State.applyVcmds
  exact (foldl_cut _ _ _ fun s x => State.applyVcmd_cut ..).trans (State.dueVcmds_cut ..)

theorem State.hearthState_cut {m : Area → Bool} (s : State) (m_regs : m .regs := by assumption) (m_pwr : m .pwr := by assumption) (m_hst : m .hst := by assumption) (m_rdg : m .rdg := by assumption) (m_links : m .links := by assumption) (m_out : m .out := by assumption) :
    (State.hearthState s).cut m = s.cut m := by
  unfold State.hearthState
  repeat' (first | (with_reducible refine (foldl_cut _ _ _ fun s x => ?_).trans ?_) | split | simp only [↓State.setF_cut, ↓State.onLink_cut, ↓State.signal_cut, ↓State.leaveHearth_cut, m_regs, m_pwr, m_hst, m_rdg, m_links, m_out])

theorem State.scanBoundary_cut {m : Area → Bool} (s : State) (m_regs : m .regs := by assumption) (m_pwr : m .pwr := by assumption) (m_hst : m .hst := by assumption) (m_stg : m .stg := by assumption) (m_tabs : m .tabs := by assumption) (m_evt : m .evt := by assumption) (m_gen : m .gen := by assumption) (m_rdg : m .rdg := by assumption) (m_fst : m .fst := by assumption) (m_links : m .links := by assumption) (m_thm : m .thm := by assumption) (m_drv : m .drv := by assumption) (m_pnl : m .pnl := by assumption) (m_hrt : m .hrt := by assumption) (m_bnk : m .bnk := by assumption) (m_win : m .win := by assumption) (m_mag : m .mag := by assumption) (m_thc : m .thc := by assumption) (m_fmask : m .fmask := by assumption) (m_freeN : m .freeN := by assumption) (m_out : m .out := by assumption) :
    (State.scanBoundary s).cut m = s.cut m := by
  unfold State.scanBoundary
  simp only [↓State.onPnl_cut, ↓State.afterStop_cut, ↓apply_ite (State.cut m), ite_self, m_regs, m_pwr, m_hst, m_stg, m_tabs, m_evt, m_gen, m_rdg, m_fst, m_links, m_thm, m_drv, m_pnl, m_hrt, m_bnk, m_win, m_mag, m_thc, m_fmask, m_freeN, m_out]

theorem State.closeOverlay_cut {m : Area → Bool} (s : State) (m_regs : m .regs := by assumption) :
    (State.closeOverlay s).cut m = s.cut m := by
  unfold State.closeOverlay
  simp only [↓State.setOverlayOpen_cut, ↓apply_ite (State.cut m), ite_self, m_regs]

theorem State.decideFrozen_cut {m : Area → Bool} (s : State) (m_regs : m .regs := by assumption) (m_pwr : m .pwr := by assumption) (m_hst : m .hst := by assumption) (m_stg : m .stg := by assumption) (m_tabs : m .tabs := by assumption) (m_evt : m .evt := by assumption) (m_gen : m .gen := by assumption) (m_rdg : m .rdg := by assumption) (m_fst : m .fst := by assumption) (m_links : m .links := by assumption) (m_thm : m .thm := by assumption) (m_drv : m .drv := by assumption) (m_pnl : m .pnl := by assumption) (m_hrt : m .hrt := by assumption) (m_bnk : m .bnk := by assumption) (m_win : m .win := by assumption) (m_mag : m .mag := by assumption) (m_thc : m .thc := by assumption) (m_fmask : m .fmask := by assumption) (m_freeN : m .freeN := by assumption) (m_out : m .out := by assumption) :
    (State.decideFrozen s).cut m = s.cut m := by
  unfold State.decideFrozen
  repeat' (first | (with_reducible refine (foldl_cut _ _ _ fun s x => ?_).trans ?_) | split | simp only [↓State.decideCommit_cut, m_regs, m_pwr, m_hst, m_stg, m_tabs, m_evt, m_gen, m_rdg, m_fst, m_links, m_thm, m_drv, m_pnl, m_hrt, m_bnk, m_win, m_mag, m_thc, m_fmask, m_freeN, m_out])

theorem State.clearDose_cut {m : Area → Bool} (s : State) (m_pipe : m .pipe := by assumption) :
    (State.clearDose s).cut m = s.cut m := by
  unfold State.clearDose
  simp only [↓State.onPipe_cut, ↓apply_ite (State.cut m), ite_self, m_pipe]

theorem State.stepFrame_cut {m : Area → Bool} (s : State) (n : NextFrame) (m_gen : m .gen := by assumption) (m_rdg : m .rdg := by assumption) :
    (State.stepFrame s n).cut m = s.cut m := by
  unfold State.stepFrame
  simp only [↓State.onGen_cut, ↓State.onRdg_cut, ↓State.reachTime_cut, ↓apply_ite (State.cut m), ite_self, m_gen, m_rdg]

theorem State.putFrame_cut {m : Area → Bool} (s : State) (n : NextFrame) (m_regs : m .regs := by assumption) (m_evt : m .evt := by assumption) :
    (State.putFrame s n).cut m = s.cut m := by
  unfold State.putFrame
  simp only [↓State.setF_cut, ↓State.event_cut, ↓State.putSlotTable_cut, ↓apply_ite (State.cut m), ite_self, m_regs, m_evt]

theorem State.sayCounter_cut {m : Area → Bool} (s : State) (n : NextFrame) (old : ℕ) (m_regs : m .regs := by assumption) (m_evt : m .evt := by assumption) :
    (State.sayCounter s n old).cut m = s.cut m := by
  unfold State.sayCounter
  simp only [↓State.setF_cut, ↓State.event_cut, ↓apply_ite (State.cut m), ite_self, m_regs, m_evt]

theorem State.boundary_cut {m : Area → Bool} (s : State) (m_regs : m .regs := by assumption) (m_pwr : m .pwr := by assumption) (m_hst : m .hst := by assumption) (m_stg : m .stg := by assumption) (m_tabs : m .tabs := by assumption) (m_evt : m .evt := by assumption) (m_gen : m .gen := by assumption) (m_rdg : m .rdg := by assumption) (m_fst : m .fst := by assumption) (m_links : m .links := by assumption) (m_thm : m .thm := by assumption) (m_drv : m .drv := by assumption) (m_pipe : m .pipe := by assumption) (m_cal : m .cal := by assumption) (m_pnl : m .pnl := by assumption) (m_hrt : m .hrt := by assumption) (m_bnk : m .bnk := by assumption) (m_win : m .win := by assumption) (m_mag : m .mag := by assumption) (m_thc : m .thc := by assumption) (m_fmask : m .fmask := by assumption) (m_freeN : m .freeN := by assumption) (m_out : m .out := by assumption) :
    (State.boundary s).cut m = s.cut m := by
  unfold State.boundary
  simp only [↓State.stepFrames_cut, ↓State.measure_cut, ↓State.hearthBoundary_cut, ↓State.rotateAll_cut, ↓State.schedBoundary_cut, ↓State.stepAtBoundary_cut, ↓State.sendBnd_cut, ↓State.sendMeas_cut, ↓State.applyPendings_cut, ↓State.syncLath_cut, ↓State.gateBoundary_cut, ↓State.latchTheta_cut, ↓State.checkRef_cut, ↓State.passPlates_cut, ↓State.sendTiming_cut, ↓State.traceBoundary_cut, ↓State.applyVcmds_cut, ↓State.hearthState_cut, ↓State.scanBoundary_cut, ↓State.closeOverlay_cut, ↓State.decideFrozen_cut, ↓State.clearDose_cut, ↓State.stepFrame_cut, ↓State.putFrame_cut, ↓State.sayCounter_cut, ↓apply_ite (State.cut m), ite_self, m_regs, m_pwr, m_hst, m_stg, m_tabs, m_evt, m_gen, m_rdg, m_fst, m_links, m_thm, m_drv, m_pipe, m_cal, m_pnl, m_hrt, m_bnk, m_win, m_mag, m_thc, m_fmask, m_freeN, m_out]

theorem execFrameBoundary_cut {m : Area → Bool} (s : State) (m_regs : m .regs := by assumption) (m_pwr : m .pwr := by assumption) (m_hst : m .hst := by assumption) (m_stg : m .stg := by assumption) (m_tabs : m .tabs := by assumption) (m_evt : m .evt := by assumption) (m_gen : m .gen := by assumption) (m_rdg : m .rdg := by assumption) (m_fst : m .fst := by assumption) (m_links : m .links := by assumption) (m_thm : m .thm := by assumption) (m_drv : m .drv := by assumption) (m_pipe : m .pipe := by assumption) (m_cal : m .cal := by assumption) (m_pnl : m .pnl := by assumption) (m_hrt : m .hrt := by assumption) (m_bnk : m .bnk := by assumption) (m_win : m .win := by assumption) (m_mag : m .mag := by assumption) (m_thc : m .thc := by assumption) (m_fmask : m .fmask := by assumption) (m_freeN : m .freeN := by assumption) (m_out : m .out := by assumption) :
    outCut m (execFrameBoundary s) = some (s.cut m) := by
  unfold execFrameBoundary
  simp only [↓State.boundary_cut, ↓apply_ite (State.cut m), ite_self, ↓outCut_next, ↓apply_ite (outCut m), m_regs, m_pwr, m_hst, m_stg, m_tabs, m_evt, m_gen, m_rdg, m_fst, m_links, m_thm, m_drv, m_pipe, m_cal, m_pnl, m_hrt, m_bnk, m_win, m_mag, m_thc, m_fmask, m_freeN, m_out]

theorem State.plainWrite_cut {m : Area → Bool} (s : State) (off : ℕ) (v : Word) (m_regs : m .regs := by assumption) (m_evt : m .evt := by assumption) :
    (State.plainWrite s off v).cut m = s.cut m := by
  unfold State.plainWrite
  repeat' (first | split | simp only [↓State.setReg_cut, ↓State.event_cut, m_regs, m_evt])

theorem State.writeCounterClear_cut {m : Area → Bool} (s : State) (off : ℕ) (v : Word) (m_regs : m .regs := by assumption) :
    (State.writeCounterClear s off v).cut m = s.cut m := by
  unfold State.writeCounterClear
  repeat' (first | (with_reducible refine (foldl_cut _ _ _ fun s x => ?_).trans ?_) | split | simp only [↓State.setReg_cut, ↓State.clearCounters_cut, m_regs])

theorem State.cmdBegin_cut {m : Area → Bool} (s : State) (m_regs : m .regs := by assumption) (m_stg : m .stg := by assumption) (m_win : m .win := by assumption) :
    (State.cmdBegin s).cut m = s.cut m := by
  unfold State.cmdBegin
  repeat' (first | split | simp only [↓State.openTxn_cut, ↓State.endStgCmd_cut, m_regs, m_stg, m_win])

theorem State.startChecks_cut {m : Area → Bool} (s : State) (t : Txn) (viaReg : Bool) (wait : Bool) (idx : ℕ) (m_regs : m .regs := by assumption) (m_stg : m .stg := by assumption) :
    (State.startChecks s t viaReg wait idx).cut m = s.cut m := by
  unfold State.startChecks
  simp only [↓State.setF_cut, ↓State.setTxn_cut, ↓apply_ite (State.cut m), ite_self, m_regs, m_stg]

theorem State.cmdCommit_cut {m : Area → Bool} (s : State) (m_regs : m .regs := by assumption) (m_stg : m .stg := by assumption) (m_tabs : m .tabs := by assumption) (m_evt : m .evt := by assumption) (m_win : m .win := by assumption) :
    (State.cmdCommit s).cut m = s.cut m := by
  unfold State.cmdCommit
  repeat' (first | split | simp only [↓State.setReg_cut, ↓State.setF_cut, ↓State.onStg_cut, ↓State.abortCommit_cut, ↓State.endStgCmd_cut, ↓State.startChecks_cut, m_regs, m_stg, m_tabs, m_evt, m_win])

theorem State.cmdRollback_cut {m : Area → Bool} (s : State) (m_regs : m .regs := by assumption) (m_stg : m .stg := by assumption) (m_tabs : m .tabs := by assumption) (m_win : m .win := by assumption) :
    (State.cmdRollback s).cut m = s.cut m := by
  unfold State.cmdRollback
  repeat' (first | split | simp only [↓State.setF_cut, ↓State.onStg_cut, ↓State.dropTxn_cut, ↓State.endStgCmd_cut, m_regs, m_stg, m_tabs, m_win])

theorem State.cmdForce_cut {m : Area → Bool} (s : State) (n : ℕ) (m_regs : m .regs := by assumption) (m_stg : m .stg := by assumption) (m_tabs : m .tabs := by assumption) (m_evt : m .evt := by assumption) (m_win : m .win := by assumption) :
    (State.cmdForce s n).cut m = s.cut m := by
  unfold State.cmdForce
  repeat' (first | split | simp only [↓State.setF_cut, ↓State.onStg_cut, ↓State.event_cut, ↓State.dropTxn_cut, ↓State.endStgCmd_cut, m_regs, m_stg, m_tabs, m_evt, m_win])

theorem State.writeStgCmd_cut {m : Area → Bool} (s : State) (v : Word) (m_regs : m .regs := by assumption) (m_stg : m .stg := by assumption) (m_tabs : m .tabs := by assumption) (m_evt : m .evt := by assumption) (m_win : m .win := by assumption) :
    (State.writeStgCmd s v).cut m = s.cut m := by
  unfold State.writeStgCmd
  simp only [↓State.event_cut, ↓State.cmdBegin_cut, ↓State.cmdCommit_cut, ↓State.cmdRollback_cut, ↓State.cmdForce_cut, ↓apply_ite (State.cut m), ite_self, m_regs, m_stg, m_tabs, m_evt, m_win]

theorem execStgCmdBegin_cut {m : Area → Bool} (v : Word) (s : State) (m_regs : m .regs := by assumption) (m_stg : m .stg := by assumption) (m_tabs : m .tabs := by assumption) (m_evt : m .evt := by assumption) (m_win : m .win := by assumption) :
    outCut m (execStgCmdBegin v s) = some (s.cut m) := by
  unfold execStgCmdBegin
  repeat' (first | (refine congrArg some ?_) | (with_reducible refine (State.viaHst_cut (h_f := fun y0 => ?_) (s := _)).trans ?_) | split | simp only [↓State.writeStgCmd_cut, m_regs, m_stg, m_tabs, m_evt, m_win])

theorem execStgCmdCommit_cut {m : Area → Bool} (v : Word) (s : State) (m_regs : m .regs := by assumption) (m_stg : m .stg := by assumption) (m_tabs : m .tabs := by assumption) (m_evt : m .evt := by assumption) (m_win : m .win := by assumption) :
    outCut m (execStgCmdCommit v s) = some (s.cut m) := by
  unfold execStgCmdCommit
  repeat' (first | (refine congrArg some ?_) | (with_reducible refine (State.viaHst_cut (h_f := fun y0 => ?_) (s := _)).trans ?_) | split | simp only [↓State.writeStgCmd_cut, m_regs, m_stg, m_tabs, m_evt, m_win])

theorem execStgCmdRollback_cut {m : Area → Bool} (v : Word) (s : State) (m_regs : m .regs := by assumption) (m_stg : m .stg := by assumption) (m_tabs : m .tabs := by assumption) (m_evt : m .evt := by assumption) (m_win : m .win := by assumption) :
    outCut m (execStgCmdRollback v s) = some (s.cut m) := by
  unfold execStgCmdRollback
  repeat' (first | (refine congrArg some ?_) | (with_reducible refine (State.viaHst_cut (h_f := fun y0 => ?_) (s := _)).trans ?_) | split | simp only [↓State.writeStgCmd_cut, m_regs, m_stg, m_tabs, m_evt, m_win])

theorem execForceRollback_cut {m : Area → Bool} (v : Word) (s : State) (m_regs : m .regs := by assumption) (m_stg : m .stg := by assumption) (m_tabs : m .tabs := by assumption) (m_evt : m .evt := by assumption) (m_win : m .win := by assumption) :
    outCut m (execForceRollback v s) = some (s.cut m) := by
  unfold execForceRollback
  repeat' (first | (refine congrArg some ?_) | (with_reducible refine (State.viaHst_cut (h_f := fun y0 => ?_) (s := _)).trans ?_) | split | simp only [↓State.writeStgCmd_cut, m_regs, m_stg, m_tabs, m_evt, m_win])

theorem State.writeGateLo_cut {m : Area → Bool} (s : State) (v : Word) (m_regs : m .regs := by assumption) (m_evt : m .evt := by assumption) :
    (State.writeGateLo s v).cut m = s.cut m := by
  unfold State.writeGateLo
  simp only [↓State.setReg_cut, ↓State.event_cut, ↓apply_ite (State.cut m), ite_self, m_regs, m_evt]

theorem State.writeGateHi_cut {m : Area → Bool} (s : State) (v : Word) (m_regs : m .regs := by assumption) (m_evt : m .evt := by assumption) :
    (State.writeGateHi s v).cut m = s.cut m := by
  unfold State.writeGateHi
  simp only [↓State.setReg_cut, ↓State.event_cut, ↓apply_ite (State.cut m), ite_self, m_regs, m_evt]

theorem execGateArm_cut {m : Area → Bool} (v : Word) (s : State) (m_regs : m .regs := by assumption) (m_evt : m .evt := by assumption) :
    outCut m (execGateArm v s) = some (s.cut m) := by
  unfold execGateArm
  repeat' (first | (refine congrArg some ?_) | (with_reducible refine (State.viaHst_cut (h_f := fun y0 => ?_) (s := _)).trans ?_) | split | simp only [↓State.writeGateHi_cut, m_regs, m_evt])

theorem execGateDisarm_cut {m : Area → Bool} (v : Word) (s : State) (m_regs : m .regs := by assumption) (m_evt : m .evt := by assumption) :
    outCut m (execGateDisarm v s) = some (s.cut m) := by
  unfold execGateDisarm
  repeat' (first | (refine congrArg some ?_) | (with_reducible refine (State.viaHst_cut (h_f := fun y0 => ?_) (s := _)).trans ?_) | split | simp only [↓State.writeGateHi_cut, m_regs, m_evt])

theorem execStgGateLoWrite_cut {m : Area → Bool} (v : Word) (s : State) (m_regs : m .regs := by assumption) (m_evt : m .evt := by assumption) :
    outCut m (execStgGateLoWrite v s) = some (s.cut m) := by
  unfold execStgGateLoWrite
  repeat' (first | (refine congrArg some ?_) | (with_reducible refine (State.viaHst_cut (h_f := fun y0 => ?_) (s := _)).trans ?_) | split | simp only [↓State.writeGateLo_cut, m_regs, m_evt])

theorem State.writeRlySel_cut {m : Area → Bool} (s : State) (w : ℕ) (v : Word) (m_regs : m .regs := by assumption) (m_hst : m .hst := by assumption) (m_evt : m .evt := by assumption) :
    (State.writeRlySel s w v).cut m = s.cut m := by
  unfold State.writeRlySel
  simp only [↓State.setReg_cut, ↓State.onHst_cut, ↓State.event_cut, ↓apply_ite (State.cut m), ite_self, m_regs, m_hst, m_evt]

theorem State.writeMsixCtl_cut {m : Area → Bool} (s : State) (v : Word) (m_regs : m .regs := by assumption) (m_hst : m .hst := by assumption) (m_evt : m .evt := by assumption) (m_rdg : m .rdg := by assumption) (m_links : m .links := by assumption) (m_out : m .out := by assumption) :
    (State.writeMsixCtl s v).cut m = s.cut m := by
  unfold State.writeMsixCtl
  simp only [↓State.sendPending_cut, ↓State.plainWrite_cut, ↓apply_ite (State.cut m), ite_self, m_regs, m_hst, m_evt, m_rdg, m_links, m_out]

theorem State.writeClientReg_cut {m : Area → Bool} (s : State) (off : ℕ) (v : Word) (m_regs : m .regs := by assumption) (m_hst : m .hst := by assumption) (m_stg : m .stg := by assumption) (m_tabs : m .tabs := by assumption) (m_evt : m .evt := by assumption) (m_rdg : m .rdg := by assumption) (m_links : m .links := by assumption) (m_win : m .win := by assumption) (m_out : m .out := by assumption) :
    (State.writeClientReg s off v).cut m = s.cut m := by
  unfold State.writeClientReg
  simp only [↓State.writeCcfg_cut, ↓State.writeRingBase_cut, ↓State.plainWrite_cut, ↓apply_ite (State.cut m), ite_self, m_regs, m_hst, m_stg, m_tabs, m_evt, m_rdg, m_links, m_win, m_out]

theorem State.writePwrOp_cut {m : Area → Bool} (s : State) (v : Word) (m_regs : m .regs := by assumption) (m_pwr : m .pwr := by assumption) (m_evt : m .evt := by assumption) (m_out : m .out := by assumption) :
    (State.writePwrOp s v).cut m = s.cut m := by
  unfold State.writePwrOp
  simp only [↓State.avsAim_cut, ↓State.plainWrite_cut, ↓apply_ite (State.cut m), ite_self, m_regs, m_pwr, m_evt, m_out]

theorem State.writePwrAuto_cut {m : Area → Bool} (s : State) (v : Word) (m_regs : m .regs := by assumption) (m_evt : m .evt := by assumption) (m_bnk : m .bnk := by assumption) :
    (State.writePwrAuto s v).cut m = s.cut m := by
  unfold State.writePwrAuto
  simp only [↓State.syncBanks_cut, ↓State.dropOff_cut, ↓State.plainWrite_cut, ↓apply_ite (State.cut m), ite_self, m_regs, m_evt, m_bnk]

theorem State.writeLinkReg_cut {m : Area → Bool} (s : State) (off : ℕ) (v : Word) (m_regs : m .regs := by assumption) (m_evt : m .evt := by assumption) (m_links : m .links := by assumption) (m_thm : m .thm := by assumption) (m_freeN : m .freeN := by assumption) :
    (State.writeLinkReg s off v).cut m = s.cut m := by
  unfold State.writeLinkReg
  repeat' (first | split | simp only [↓State.writeLoop_cut, ↓State.writePrbs_cut, ↓State.plainWrite_cut, m_regs, m_evt, m_links, m_thm, m_freeN])

theorem State.writeEvtReg_cut {m : Area → Bool} (s : State) (off : ℕ) (v : Word) (m_regs : m .regs := by assumption) (m_evt : m .evt := by assumption) (m_bnk : m .bnk := by assumption) (m_out : m .out := by assumption) :
    (State.writeEvtReg s off v).cut m = s.cut m := by
  unfold State.writeEvtReg
  simp only [↓State.trace_cut, ↓State.writeRhead_cut, ↓State.writeEvtCfg_cut, ↓State.writeEvtBase_cut, ↓State.clearAlarms_cut, ↓State.writeTrc_cut, ↓State.plainWrite_cut, ↓apply_ite (State.cut m), ite_self, m_regs, m_evt, m_bnk, m_out]

theorem State.blockWrite_cut {m : Area → Bool} (s : State) (off : ℕ) (v : Word) (m_regs : m .regs := by assumption) (m_pwr : m .pwr := by assumption) (m_hst : m .hst := by assumption) (m_stg : m .stg := by assumption) (m_tabs : m .tabs := by assumption) (m_evt : m .evt := by assumption) (m_rdg : m .rdg := by assumption) (m_fst : m .fst := by assumption) (m_links : m .links := by assumption) (m_thm : m .thm := by assumption) (m_bnk : m .bnk := by assumption) (m_win : m .win := by assumption) (m_mag : m .mag := by assumption) (m_thc : m .thc := by assumption) (m_freeN : m .freeN := by assumption) (m_out : m .out := by assumption) :
    (State.blockWrite s off v).cut m = s.cut m := by
  unfold State.blockWrite
  repeat' (first | split | simp only [↓State.writeMagCtl_cut, ↓State.plainWrite_cut, ↓State.writeRlySel_cut, ↓State.writeClientReg_cut, ↓State.writeLinkReg_cut, ↓State.writeEvtReg_cut, m_regs, m_pwr, m_hst, m_stg, m_tabs, m_evt, m_rdg, m_fst, m_links, m_thm, m_bnk, m_win, m_mag, m_thc, m_freeN, m_out])

theorem State.applyWrite_cut {m : Area → Bool} (s : State) (off : ℕ) (v : Word) (m_regs : m .regs := by assumption) (m_rst : m .rst := by assumption) (m_pwr : m .pwr := by assumption) (m_hst : m .hst := by assumption) (m_stg : m .stg := by assumption) (m_tabs : m .tabs := by assumption) (m_evt : m .evt := by assumption) (m_gen : m .gen := by assumption) (m_rdg : m .rdg := by assumption) (m_fst : m .fst := by assumption) (m_links : m .links := by assumption) (m_thm : m .thm := by assumption) (m_drv : m .drv := by assumption) (m_pipe : m .pipe := by assumption) (m_cal : m .cal := by assumption) (m_pnl : m .pnl := by assumption) (m_hrt : m .hrt := by assumption) (m_bnk : m .bnk := by assumption) (m_win : m .win := by assumption) (m_mag : m .mag := by assumption) (m_thc : m .thc := by assumption) (m_relay : m .relay := by assumption) (m_jtag : m .jtag := by assumption) (m_fmask : m .fmask := by assumption) (m_aon : m .aon := by assumption) (m_freeN : m .freeN := by assumption) (m_fsEpoch : m .fsEpoch := by assumption) (m_out : m .out := by assumption) :
    (State.applyWrite s off v).cut m = s.cut m := by
  unfold State.applyWrite
  simp only [↓State.releaseLimit_cut, ↓State.clearFlt_cut, ↓State.writeBatCmd_cut, ↓State.writeMapSel_cut, ↓State.writeSwgBist_cut, ↓State.writeThcCfg_cut, ↓State.writeThcBist_cut, ↓State.writeOdtHost_cut, ↓State.writeDoseClr_cut, ↓State.writeReset_cut, ↓State.powerRequest_cut, ↓State.writeCounterClear_cut, ↓State.writeStgCmd_cut, ↓State.writeGateLo_cut, ↓State.writeGateHi_cut, ↓State.writeMsixCtl_cut, ↓State.writePwrOp_cut, ↓State.writePwrAuto_cut, ↓State.blockWrite_cut, ↓apply_ite (State.cut m), ite_self, m_regs, m_rst, m_pwr, m_hst, m_stg, m_tabs, m_evt, m_gen, m_rdg, m_fst, m_links, m_thm, m_drv, m_pipe, m_cal, m_pnl, m_hrt, m_bnk, m_win, m_mag, m_thc, m_relay, m_jtag, m_fmask, m_aon, m_freeN, m_fsEpoch, m_out]

theorem State.regWrite_cut {m : Area → Bool} (s : State) (off : ℕ) (v : Word) (win : Option ℕ) (m_regs : m .regs := by assumption) (m_rst : m .rst := by assumption) (m_pwr : m .pwr := by assumption) (m_hst : m .hst := by assumption) (m_stg : m .stg := by assumption) (m_tabs : m .tabs := by assumption) (m_evt : m .evt := by assumption) (m_gen : m .gen := by assumption) (m_rdg : m .rdg := by assumption) (m_fst : m .fst := by assumption) (m_links : m .links := by assumption) (m_thm : m .thm := by assumption) (m_drv : m .drv := by assumption) (m_pipe : m .pipe := by assumption) (m_cal : m .cal := by assumption) (m_pnl : m .pnl := by assumption) (m_hrt : m .hrt := by assumption) (m_bnk : m .bnk := by assumption) (m_win : m .win := by assumption) (m_mag : m .mag := by assumption) (m_thc : m .thc := by assumption) (m_relay : m .relay := by assumption) (m_jtag : m .jtag := by assumption) (m_fmask : m .fmask := by assumption) (m_aon : m .aon := by assumption) (m_freeN : m .freeN := by assumption) (m_fsEpoch : m .fsEpoch := by assumption) (m_out : m .out := by assumption) :
    (State.regWrite s off v win).cut m = s.cut m := by
  unfold State.regWrite
  repeat' (first | split | simp only [↓State.stageDirect_cut, ↓State.stallOn_cut, ↓State.layLoads_cut, ↓State.applyWrite_cut, m_regs, m_rst, m_pwr, m_hst, m_stg, m_tabs, m_evt, m_gen, m_rdg, m_fst, m_links, m_thm, m_drv, m_pipe, m_cal, m_pnl, m_hrt, m_bnk, m_win, m_mag, m_thc, m_relay, m_jtag, m_fmask, m_aon, m_freeN, m_fsEpoch, m_out])

theorem State.writeMsix_cut {m : Area → Bool} (s : State) (off : ℕ) (v : Word) (m_hst : m .hst := by assumption) (m_rdg : m .rdg := by assumption) (m_links : m .links := by assumption) (m_out : m .out := by assumption) :
    (State.writeMsix s off v).cut m = s.cut m := by
  unfold State.writeMsix
  simp only [↓State.onHst_cut, ↓State.sendPendingVec_cut, ↓apply_ite (State.cut m), ite_self, m_hst, m_rdg, m_links, m_out]

theorem State.barWrite_cut {m : Area → Bool} (s : State) (off : ℕ) (be : ℕ) (v : Word) (win : Option ℕ) (m_regs : m .regs := by assumption) (m_rst : m .rst := by assumption) (m_pwr : m .pwr := by assumption) (m_hst : m .hst := by assumption) (m_stg : m .stg := by assumption) (m_tabs : m .tabs := by assumption) (m_evt : m .evt := by assumption) (m_gen : m .gen := by assumption) (m_rdg : m .rdg := by assumption) (m_fst : m .fst := by assumption) (m_links : m .links := by assumption) (m_thm : m .thm := by assumption) (m_drv : m .drv := by assumption) (m_pipe : m .pipe := by assumption) (m_cal : m .cal := by assumption) (m_pnl : m .pnl := by assumption) (m_hrt : m .hrt := by assumption) (m_bnk : m .bnk := by assumption) (m_win : m .win := by assumption) (m_mag : m .mag := by assumption) (m_thc : m .thc := by assumption) (m_relay : m .relay := by assumption) (m_jtag : m .jtag := by assumption) (m_fmask : m .fmask := by assumption) (m_aon : m .aon := by assumption) (m_freeN : m .freeN := by assumption) (m_fsEpoch : m .fsEpoch := by assumption) (m_out : m .out := by assumption) :
    (State.barWrite s off be v win).cut m = s.cut m := by
  unfold State.barWrite
  simp only [↓State.event_cut, ↓State.regWrite_cut, ↓State.writeMsix_cut, ↓apply_ite (State.cut m), ite_self, m_regs, m_rst, m_pwr, m_hst, m_stg, m_tabs, m_evt, m_gen, m_rdg, m_fst, m_links, m_thm, m_drv, m_pipe, m_cal, m_pnl, m_hrt, m_bnk, m_win, m_mag, m_thc, m_relay, m_jtag, m_fmask, m_aon, m_freeN, m_fsEpoch, m_out]

theorem State.barValue_cut {m : Area → Bool} (s : State) (off : ℕ) (m_regs : m .regs := by assumption) (m_gen : m .gen := by assumption) (m_freeN : m .freeN := by assumption) :
    (State.barValue s off).2.cut m = s.cut m := by
  unfold State.barValue
  repeat' (first | split | simp only [↓State.readPrbs_cut, ↓State.latchTime_cut, m_regs, m_gen, m_freeN])

theorem State.answer_cut {m : Area → Bool} (s : State) (off : ℕ) (r : Stalled) (m_regs : m .regs := by assumption) (m_pwr : m .pwr := by assumption) (m_evt : m .evt := by assumption) (m_gen : m .gen := by assumption) (m_links : m .links := by assumption) (m_freeN : m .freeN := by assumption) (m_out : m .out := by assumption) :
    (State.answer s off r).cut m = s.cut m := by
  unfold State.answer
  repeat' (first | (simp only [↓State.answerRead_cut, ↓State.stallOn_cut, ↓State.barValue_cut, ↓apply_ite (State.cut m), ite_self, m_regs, m_pwr, m_evt, m_gen, m_links, m_freeN, m_out]; done) | split | simp only [↓State.answerRead_cut, ↓State.stallOn_cut, ↓State.barValue_cut, ↓apply_ite (State.cut m), ite_self, m_regs, m_pwr, m_evt, m_gen, m_links, m_freeN, m_out])

theorem State.proceed_cut {m : Area → Bool} (s : State) (r : Stalled) (m_regs : m .regs := by assumption) (m_rst : m .rst := by assumption) (m_pwr : m .pwr := by assumption) (m_hst : m .hst := by assumption) (m_stg : m .stg := by assumption) (m_tabs : m .tabs := by assumption) (m_evt : m .evt := by assumption) (m_gen : m .gen := by assumption) (m_rdg : m .rdg := by assumption) (m_fst : m .fst := by assumption) (m_links : m .links := by assumption) (m_thm : m .thm := by assumption) (m_drv : m .drv := by assumption) (m_pipe : m .pipe := by assumption) (m_cal : m .cal := by assumption) (m_pnl : m .pnl := by assumption) (m_hrt : m .hrt := by assumption) (m_bnk : m .bnk := by assumption) (m_win : m .win := by assumption) (m_mag : m .mag := by assumption) (m_thc : m .thc := by assumption) (m_relay : m .relay := by assumption) (m_jtag : m .jtag := by assumption) (m_fmask : m .fmask := by assumption) (m_aon : m .aon := by assumption) (m_freeN : m .freeN := by assumption) (m_fsEpoch : m .fsEpoch := by assumption) (m_out : m .out := by assumption) :
    (State.proceed s r).cut m = s.cut m := by
  unfold State.proceed
  repeat' (first | split | simp only [↓State.barWrite_cut, ↓State.answer_cut, m_regs, m_rst, m_pwr, m_hst, m_stg, m_tabs, m_evt, m_gen, m_rdg, m_fst, m_links, m_thm, m_drv, m_pipe, m_cal, m_pnl, m_hrt, m_bnk, m_win, m_mag, m_thc, m_relay, m_jtag, m_fmask, m_aon, m_freeN, m_fsEpoch, m_out])

theorem State.serveStalled_cut {m : Area → Bool} (s : State) (d : ℕ) (m_regs : m .regs := by assumption) (m_rst : m .rst := by assumption) (m_pwr : m .pwr := by assumption) (m_hst : m .hst := by assumption) (m_stg : m .stg := by assumption) (m_tabs : m .tabs := by assumption) (m_evt : m .evt := by assumption) (m_gen : m .gen := by assumption) (m_rdg : m .rdg := by assumption) (m_fst : m .fst := by assumption) (m_links : m .links := by assumption) (m_thm : m .thm := by assumption) (m_drv : m .drv := by assumption) (m_pipe : m .pipe := by assumption) (m_cal : m .cal := by assumption) (m_pnl : m .pnl := by assumption) (m_hrt : m .hrt := by assumption) (m_bnk : m .bnk := by assumption) (m_win : m .win := by assumption) (m_mag : m .mag := by assumption) (m_thc : m .thc := by assumption) (m_relay : m .relay := by assumption) (m_jtag : m .jtag := by assumption) (m_fmask : m .fmask := by assumption) (m_aon : m .aon := by assumption) (m_freeN : m .freeN := by assumption) (m_fsEpoch : m .fsEpoch := by assumption) (m_out : m .out := by assumption) :
    (State.serveStalled s d).cut m = s.cut m := by
  unfold State.serveStalled
  repeat' (first | (with_reducible refine (foldl_cut _ _ _ fun s x => ?_).trans ?_) | split | simp only [↓State.onPwr_cut, ↓State.proceed_cut, m_regs, m_rst, m_pwr, m_hst, m_stg, m_tabs, m_evt, m_gen, m_rdg, m_fst, m_links, m_thm, m_drv, m_pipe, m_cal, m_pnl, m_hrt, m_bnk, m_win, m_mag, m_thc, m_relay, m_jtag, m_fmask, m_aon, m_freeN, m_fsEpoch, m_out])

theorem State.domainArrives_cut {m : Area → Bool} (s : State) (d : ℕ) (m_regs : m .regs := by assumption) (m_rst : m .rst := by assumption) (m_pwr : m .pwr := by assumption) (m_hst : m .hst := by assumption) (m_stg : m .stg := by assumption) (m_tabs : m .tabs := by assumption) (m_evt : m .evt := by assumption) (m_gen : m .gen := by assumption) (m_rdg : m .rdg := by assumption) (m_fst : m .fst := by assumption) (m_links : m .links := by assumption) (m_thm : m .thm := by assumption) (m_drv : m .drv := by assumption) (m_pipe : m .pipe := by assumption) (m_cal : m .cal := by assumption) (m_pnl : m .pnl := by assumption) (m_hrt : m .hrt := by assumption) (m_bnk : m .bnk := by assumption) (m_win : m .win := by assumption) (m_mag : m .mag := by assumption) (m_thc : m .thc := by assumption) (m_relay : m .relay := by assumption) (m_jtag : m .jtag := by assumption) (m_fmask : m .fmask := by assumption) (m_aon : m .aon := by assumption) (m_freeN : m .freeN := by assumption) (m_fsEpoch : m .fsEpoch := by assumption) (m_out : m .out := by assumption) :
    (State.domainArrives s d).cut m = s.cut m := by
  unfold State.domainArrives
  simp only [↓State.domainUp_cut, ↓State.serveStalled_cut, ↓apply_ite (State.cut m), ite_self, m_regs, m_rst, m_pwr, m_hst, m_stg, m_tabs, m_evt, m_gen, m_rdg, m_fst, m_links, m_thm, m_drv, m_pipe, m_cal, m_pnl, m_hrt, m_bnk, m_win, m_mag, m_thc, m_relay, m_jtag, m_fmask, m_aon, m_freeN, m_fsEpoch, m_out]

theorem execCounterClearWrite_cut {m : Area → Bool} (off : ℕ) (v : Word) (s : State) (m_regs : m .regs := by assumption) (m_rst : m .rst := by assumption) (m_pwr : m .pwr := by assumption) (m_hst : m .hst := by assumption) (m_stg : m .stg := by assumption) (m_tabs : m .tabs := by assumption) (m_evt : m .evt := by assumption) (m_gen : m .gen := by assumption) (m_rdg : m .rdg := by assumption) (m_fst : m .fst := by assumption) (m_links : m .links := by assumption) (m_thm : m .thm := by assumption) (m_drv : m .drv := by assumption) (m_pipe : m .pipe := by assumption) (m_cal : m .cal := by assumption) (m_pnl : m .pnl := by assumption) (m_hrt : m .hrt := by assumption) (m_bnk : m .bnk := by assumption) (m_win : m .win := by assumption) (m_mag : m .mag := by assumption) (m_thc : m .thc := by assumption) (m_relay : m .relay := by assumption) (m_jtag : m .jtag := by assumption) (m_fmask : m .fmask := by assumption) (m_aon : m .aon := by assumption) (m_freeN : m .freeN := by assumption) (m_fsEpoch : m .fsEpoch := by assumption) (m_out : m .out := by assumption) :
    outCut m (execCounterClearWrite off v s) = some (s.cut m) := by
  unfold execCounterClearWrite
  repeat' (first | (refine congrArg some ?_) | (with_reducible refine (State.viaHst_cut (h_f := fun y0 => ?_) (s := _)).trans ?_) | split | simp only [↓State.regWrite_cut, m_regs, m_rst, m_pwr, m_hst, m_stg, m_tabs, m_evt, m_gen, m_rdg, m_fst, m_links, m_thm, m_drv, m_pipe, m_cal, m_pnl, m_hrt, m_bnk, m_win, m_mag, m_thc, m_relay, m_jtag, m_fmask, m_aon, m_freeN, m_fsEpoch, m_out])

theorem execStagedRegWrite_cut {m : Area → Bool} (off : ℕ) (be : BitVec 4) (v : Word) (s : State) (m_regs : m .regs := by assumption) (m_rst : m .rst := by assumption) (m_pwr : m .pwr := by assumption) (m_hst : m .hst := by assumption) (m_stg : m .stg := by assumption) (m_tabs : m .tabs := by assumption) (m_evt : m .evt := by assumption) (m_gen : m .gen := by assumption) (m_rdg : m .rdg := by assumption) (m_fst : m .fst := by assumption) (m_links : m .links := by assumption) (m_thm : m .thm := by assumption) (m_drv : m .drv := by assumption) (m_pipe : m .pipe := by assumption) (m_cal : m .cal := by assumption) (m_pnl : m .pnl := by assumption) (m_hrt : m .hrt := by assumption) (m_bnk : m .bnk := by assumption) (m_win : m .win := by assumption) (m_mag : m .mag := by assumption) (m_thc : m .thc := by assumption) (m_relay : m .relay := by assumption) (m_jtag : m .jtag := by assumption) (m_fmask : m .fmask := by assumption) (m_aon : m .aon := by assumption) (m_freeN : m .freeN := by assumption) (m_fsEpoch : m .fsEpoch := by assumption) (m_out : m .out := by assumption) :
    outCut m (execStagedRegWrite off be v s) = some (s.cut m) := by
  unfold execStagedRegWrite
  repeat' (first | (refine congrArg some ?_) | (with_reducible refine (State.viaHst_cut (h_f := fun y0 => ?_) (s := _)).trans ?_) | split | simp only [↓State.barWrite_cut, m_regs, m_rst, m_pwr, m_hst, m_stg, m_tabs, m_evt, m_gen, m_rdg, m_fst, m_links, m_thm, m_drv, m_pipe, m_cal, m_pnl, m_hrt, m_bnk, m_win, m_mag, m_thc, m_relay, m_jtag, m_fmask, m_aon, m_freeN, m_fsEpoch, m_out])

theorem State.endHead_cut {m : Area → Bool} (s : State) (c : ℕ) (d : Desc) (cpl : Cpl) (m_regs : m .regs := by assumption) (m_hst : m .hst := by assumption) (m_stg : m .stg := by assumption) (m_tabs : m .tabs := by assumption) (m_evt : m .evt := by assumption) (m_rdg : m .rdg := by assumption) (m_links : m .links := by assumption) (m_win : m .win := by assumption) (m_out : m .out := by assumption) :
    (State.endHead s c d cpl).cut m = s.cut m := by
  unfold State.endHead
  simp only [↓State.finish_cut, ↓State.abortCommit_cut, ↓apply_ite (State.cut m), ite_self, m_regs, m_hst, m_stg, m_tabs, m_evt, m_rdg, m_links, m_win, m_out]

theorem State.headChecks_cut {m : Area → Bool} (s : State) (c : ℕ) (m_regs : m .regs := by assumption) (m_hst : m .hst := by assumption) (m_stg : m .stg := by assumption) (m_tabs : m .tabs := by assumption) (m_evt : m .evt := by assumption) (m_rdg : m .rdg := by assumption) (m_links : m .links := by assumption) (m_cal : m .cal := by assumption) (m_win : m .win := by assumption) (m_thc : m .thc := by assumption) (m_out : m .out := by assumption) :
    (State.headChecks s c).cut m = s.cut m := by
  unfold State.headChecks
  repeat' (first | split | simp only [↓State.setDesc_cut, ↓State.passCheck_cut, ↓State.endHead_cut, m_regs, m_hst, m_stg, m_tabs, m_evt, m_rdg, m_links, m_cal, m_win, m_thc, m_out])

theorem execDescriptorHead_cut {m : Area → Bool} (c : Fin 256) (s : State) (m_regs : m .regs := by assumption) (m_hst : m .hst := by assumption) (m_stg : m .stg := by assumption) (m_tabs : m .tabs := by assumption) (m_evt : m .evt := by assumption) (m_rdg : m .rdg := by assumption) (m_links : m .links := by assumption) (m_cal : m .cal := by assumption) (m_win : m .win := by assumption) (m_thc : m .thc := by assumption) (m_out : m .out := by assumption) :
    outCut m (execDescriptorHead c s) = some (s.cut m) := by
  unfold execDescriptorHead
  simp only [↓State.headChecks_cut, ↓apply_ite (State.cut m), ite_self, ↓outCut_next, ↓apply_ite (outCut m), m_regs, m_hst, m_stg, m_tabs, m_evt, m_rdg, m_links, m_cal, m_win, m_thc, m_out]

theorem State.stgBegin_cut {m : Area → Bool} (c : ℕ) (d : Desc) (s : State) (m_regs : m .regs := by assumption) (m_hst : m .hst := by assumption) (m_stg : m .stg := by assumption) (m_tabs : m .tabs := by assumption) (m_evt : m .evt := by assumption) (m_rdg : m .rdg := by assumption) (m_links : m .links := by assumption) (m_win : m .win := by assumption) (m_out : m .out := by assumption) :
    (State.stgBegin c d s).cut m = s.cut m := by
  unfold State.stgBegin
  repeat' (first | (simp only [↓State.finish_cut, ↓State.openTxn_cut, ↓apply_ite (State.cut m), ite_self, m_regs, m_hst, m_stg, m_tabs, m_evt, m_rdg, m_links, m_win, m_out]; done) | split | simp only [↓State.finish_cut, ↓State.openTxn_cut, ↓apply_ite (State.cut m), ite_self, m_regs, m_hst, m_stg, m_tabs, m_evt, m_rdg, m_links, m_win, m_out])

theorem execStgBegin_cut {m : Area → Bool} (c : Fin 256) (s : State) (m_regs : m .regs := by assumption) (m_hst : m .hst := by assumption) (m_stg : m .stg := by assumption) (m_tabs : m .tabs := by assumption) (m_evt : m .evt := by assumption) (m_rdg : m .rdg := by assumption) (m_links : m .links := by assumption) (m_win : m .win := by assumption) (m_out : m .out := by assumption) :
    outCut m (execStgBegin c s) = some (s.cut m) := by
  unfold execStgBegin
  repeat' (first | (refine congrArg some ?_) | (with_reducible refine (State.startWith_cut (h_f := fun y0 y1 => ?_) (s := _) (c := _) (p := _)).trans ?_) | split | simp only [↓State.stgBegin_cut, m_regs, m_hst, m_stg, m_tabs, m_evt, m_rdg, m_links, m_win, m_out])

theorem State.stgCommit_cut {m : Area → Bool} (c : ℕ) (d : Desc) (s : State) (m_regs : m .regs := by assumption) (m_hst : m .hst := by assumption) (m_stg : m .stg := by assumption) (m_tabs : m .tabs := by assumption) (m_evt : m .evt := by assumption) (m_rdg : m .rdg := by assumption) (m_links : m .links := by assumption) (m_win : m .win := by assumption) (m_out : m .out := by assumption) :
    (State.stgCommit c d s).cut m = s.cut m := by
  unfold State.stgCommit
  repeat' (first | split | simp only [↓State.onStg_cut, ↓State.finish_cut, ↓State.startChecks_cut, m_regs, m_hst, m_stg, m_tabs, m_evt, m_rdg, m_links, m_win, m_out])

theorem execStgCommit_cut {m : Area → Bool} (c : Fin 256) (s : State) (m_regs : m .regs := by assumption) (m_hst : m .hst := by assumption) (m_stg : m .stg := by assumption) (m_tabs : m .tabs := by assumption) (m_evt : m .evt := by assumption) (m_rdg : m .rdg := by assumption) (m_links : m .links := by assumption) (m_win : m .win := by assumption) (m_out : m .out := by assumption) :
    outCut m (execStgCommit c s) = some (s.cut m) := by
  unfold execStgCommit
  repeat' (first | (refine congrArg some ?_) | (with_reducible refine (State.startWith_cut (h_f := fun y0 y1 => ?_) (s := _) (c := _) (p := _)).trans ?_) | split | simp only [↓State.stgCommit_cut, m_regs, m_hst, m_stg, m_tabs, m_evt, m_rdg, m_links, m_win, m_out])

theorem State.stgRollback_cut {m : Area → Bool} (c : ℕ) (d : Desc) (s : State) (m_regs : m .regs := by assumption) (m_hst : m .hst := by assumption) (m_stg : m .stg := by assumption) (m_tabs : m .tabs := by assumption) (m_evt : m .evt := by assumption) (m_rdg : m .rdg := by assumption) (m_links : m .links := by assumption) (m_win : m .win := by assumption) (m_out : m .out := by assumption) :
    (State.stgRollback c d s).cut m = s.cut m := by
  unfold State.stgRollback
  repeat' (first | split | simp only [↓State.onStg_cut, ↓State.dropTxn_cut, ↓State.finish_cut, m_regs, m_hst, m_stg, m_tabs, m_evt, m_rdg, m_links, m_win, m_out])

theorem execStgRollback_cut {m : Area → Bool} (c : Fin 256) (s : State) (m_regs : m .regs := by assumption) (m_hst : m .hst := by assumption) (m_stg : m .stg := by assumption) (m_tabs : m .tabs := by assumption) (m_evt : m .evt := by assumption) (m_rdg : m .rdg := by assumption) (m_links : m .links := by assumption) (m_win : m .win := by assumption) (m_out : m .out := by assumption) :
    outCut m (execStgRollback c s) = some (s.cut m) := by
  unfold execStgRollback
  repeat' (first | (refine congrArg some ?_) | (with_reducible refine (State.startWith_cut (h_f := fun y0 y1 => ?_) (s := _) (c := _) (p := _)).trans ?_) | split | simp only [↓State.stgRollback_cut, m_regs, m_hst, m_stg, m_tabs, m_evt, m_rdg, m_links, m_win, m_out])

theorem State.applyEntry_cut {m : Area → Bool} (s : State) (c : ℕ) (e : ℕ × Word) (m_regs : m .regs := by assumption) (m_rst : m .rst := by assumption) (m_pwr : m .pwr := by assumption) (m_hst : m .hst := by assumption) (m_stg : m .stg := by assumption) (m_tabs : m .tabs := by assumption) (m_evt : m .evt := by assumption) (m_gen : m .gen := by assumption) (m_rdg : m .rdg := by assumption) (m_fst : m .fst := by assumption) (m_links : m .links := by assumption) (m_thm : m .thm := by assumption) (m_drv : m .drv := by assumption) (m_pipe : m .pipe := by assumption) (m_cal : m .cal := by assumption) (m_pnl : m .pnl := by assumption) (m_hrt : m .hrt := by assumption) (m_bnk : m .bnk := by assumption) (m_win : m .win := by assumption) (m_mag : m .mag := by assumption) (m_thc : m .thc := by assumption) (m_relay : m .relay := by assumption) (m_jtag : m .jtag := by assumption) (m_fmask : m .fmask := by assumption) (m_aon : m .aon := by assumption) (m_freeN : m .freeN := by assumption) (m_fsEpoch : m .fsEpoch := by assumption) (m_out : m .out := by assumption) :
    (State.applyEntry s c e).cut m = s.cut m := by
  unfold State.applyEntry
  repeat' (first | split | simp only [↓State.event_cut, ↓State.stageIn_cut, ↓State.layLoads_cut, ↓State.applyWrite_cut, m_regs, m_rst, m_pwr, m_hst, m_stg, m_tabs, m_evt, m_gen, m_rdg, m_fst, m_links, m_thm, m_drv, m_pipe, m_cal, m_pnl, m_hrt, m_bnk, m_win, m_mag, m_thc, m_relay, m_jtag, m_fmask, m_aon, m_freeN, m_fsEpoch, m_out])

theorem State.readEntry_cut {m : Area → Bool} (s : State) (off : ℕ) (m_regs : m .regs := by assumption) (m_evt : m .evt := by assumption) (m_gen : m .gen := by assumption) (m_freeN : m .freeN := by assumption) :
    (State.readEntry s off).2.cut m = s.cut m := by
  unfold State.readEntry
  repeat' (first | split | simp only [↓State.event_cut, ↓State.barValue_cut, m_regs, m_evt, m_gen, m_freeN])

theorem State.readEntries_cut {m : Area → Bool} (x0 : List (Nat × Word)) (x1 : State) (m_regs : m .regs := by assumption) (m_evt : m .evt := by assumption) (m_gen : m .gen := by assumption) (m_freeN : m .freeN := by assumption) :
    (State.readEntries x0 x1).2.cut m = x1.cut m := by
  induction x0 generalizing x1 with
  | nil => rfl
  | cons e t ih => exact (ih _).trans (State.readEntry_cut ..)

theorem State.applyList_cut {m : Area → Bool} (s : State) (c : ℕ) (d : Desc) (bs : List Byte) (m_regs : m .regs := by assumption) (m_rst : m .rst := by assumption) (m_pwr : m .pwr := by assumption) (m_hst : m .hst := by assumption) (m_stg : m .stg := by assumption) (m_tabs : m .tabs := by assumption) (m_evt : m .evt := by assumption) (m_gen : m .gen := by assumption) (m_rdg : m .rdg := by assumption) (m_fst : m .fst := by assumption) (m_links : m .links := by assumption) (m_thm : m .thm := by assumption) (m_drv : m .drv := by assumption) (m_pipe : m .pipe := by assumption) (m_cal : m .cal := by assumption) (m_pnl : m .pnl := by assumption) (m_hrt : m .hrt := by assumption) (m_bnk : m .bnk := by assumption) (m_win : m .win := by assumption) (m_mag : m .mag := by assumption) (m_thc : m .thc := by assumption) (m_relay : m .relay := by assumption) (m_jtag : m .jtag := by assumption) (m_fmask : m .fmask := by assumption) (m_aon : m .aon := by assumption) (m_freeN : m .freeN := by assumption) (m_fsEpoch : m .fsEpoch := by assumption) (m_out : m .out := by assumption) :
    (State.applyList s c d bs).cut m = s.cut m := by
  unfold State.applyList
  repeat' (first | (with_reducible refine (foldl_cut _ _ _ fun s x => ?_).trans ?_) | split | simp only [↓State.onHst_cut, ↓State.writeHost_cut, ↓State.finish_cut, ↓State.wake_cut, ↓State.applyEntry_cut, ↓State.readEntries_cut, m_regs, m_rst, m_pwr, m_hst, m_stg, m_tabs, m_evt, m_gen, m_rdg, m_fst, m_links, m_thm, m_drv, m_pipe, m_cal, m_pnl, m_hrt, m_bnk, m_win, m_mag, m_thc, m_relay, m_jtag, m_fmask, m_aon, m_freeN, m_fsEpoch, m_out])

theorem State.runList_cut {m : Area → Bool} (s : State) (c : ℕ) (d : Desc) (bs : List Byte) (m_regs : m .regs := by assumption) (m_rst : m .rst := by assumption) (m_pwr : m .pwr := by assumption) (m_hst : m .hst := by assumption) (m_stg : m .stg := by assumption) (m_tabs : m .tabs := by assumption) (m_evt : m .evt := by assumption) (m_gen : m .gen := by assumption) (m_rdg : m .rdg := by assumption) (m_fst : m .fst := by assumption) (m_links : m .links := by assumption) (m_thm : m .thm := by assumption) (m_drv : m .drv := by assumption) (m_pipe : m .pipe := by assumption) (m_cal : m .cal := by assumption) (m_pnl : m .pnl := by assumption) (m_hrt : m .hrt := by assumption) (m_bnk : m .bnk := by assumption) (m_win : m .win := by assumption) (m_mag : m .mag := by assumption) (m_thc : m .thc := by assumption) (m_relay : m .relay := by assumption) (m_jtag : m .jtag := by assumption) (m_fmask : m .fmask := by assumption) (m_aon : m .aon := by assumption) (m_freeN : m .freeN := by assumption) (m_fsEpoch : m .fsEpoch := by assumption) (m_out : m .out := by assumption) :
    (State.runList s c d bs).cut m = s.cut m := by
  unfold State.runList
  repeat' (first | split | simp only [↓State.setDesc_cut, ↓State.finish_cut, ↓State.applyList_cut, m_regs, m_rst, m_pwr, m_hst, m_stg, m_tabs, m_evt, m_gen, m_rdg, m_fst, m_links, m_thm, m_drv, m_pipe, m_cal, m_pnl, m_hrt, m_bnk, m_win, m_mag, m_thc, m_relay, m_jtag, m_fmask, m_aon, m_freeN, m_fsEpoch, m_out])

theorem State.retryLists_cut {m : Area → Bool} (s : State) (m_regs : m .regs := by assumption) (m_rst : m .rst := by assumption) (m_pwr : m .pwr := by assumption) (m_hst : m .hst := by assumption) (m_stg : m .stg := by assumption) (m_tabs : m .tabs := by assumption) (m_evt : m .evt := by assumption) (m_gen : m .gen := by assumption) (m_rdg : m .rdg := by assumption) (m_fst : m .fst := by assumption) (m_links : m .links := by assumption) (m_thm : m .thm := by assumption) (m_drv : m .drv := by assumption) (m_pipe : m .pipe := by assumption) (m_cal : m .cal := by assumption) (m_pnl : m .pnl := by assumption) (m_hrt : m .hrt := by assumption) (m_bnk : m .bnk := by assumption) (m_win : m .win := by assumption) (m_mag : m .mag := by assumption) (m_thc : m .thc := by assumption) (m_relay : m .relay := by assumption) (m_jtag : m .jtag := by assumption) (m_fmask : m .fmask := by assumption) (m_aon : m .aon := by assumption) (m_freeN : m .freeN := by assumption) (m_fsEpoch : m .fsEpoch := by assumption) (m_out : m .out := by assumption) :
    (State.retryLists s).cut m = s.cut m := by
  unfold State.retryLists
  repeat' (first | (with_reducible refine (foldl_cut _ _ _ fun s x => ?_).trans ?_) | split | simp only [↓State.onHst_cut, ↓State.applyList_cut, m_regs, m_rst, m_pwr, m_hst, m_stg, m_tabs, m_evt, m_gen, m_rdg, m_fst, m_links, m_thm, m_drv, m_pipe, m_cal, m_pnl, m_hrt, m_bnk, m_win, m_mag, m_thc, m_relay, m_jtag, m_fmask, m_aon, m_freeN, m_fsEpoch, m_out])

theorem execRegWrite_cut {m : Area → Bool} (c : Fin 256) (s : State) (m_hst : m .hst := by assumption) (m_rdg : m .rdg := by assumption) (m_links : m .links := by assumption) (m_out : m .out := by assumption) :
    outCut m (execRegWrite c s) = some (s.cut m) := by
  unfold execRegWrite
  repeat' (first | (refine congrArg some ?_) | (with_reducible refine (State.startWith_cut (h_f := fun y0 y1 => ?_) (s := _) (c := _) (p := _)).trans ?_) | split | simp only [↓State.readHost_cut, m_hst, m_rdg, m_links, m_out])

theorem execRegRead_cut {m : Area → Bool} (c : Fin 256) (s : State) (m_hst : m .hst := by assumption) (m_rdg : m .rdg := by assumption) (m_links : m .links := by assumption) (m_out : m .out := by assumption) :
    outCut m (execRegRead c s) = some (s.cut m) := by
  unfold execRegRead
  repeat' (first | (refine congrArg some ?_) | (with_reducible refine (State.startWith_cut (h_f := fun y0 y1 => ?_) (s := _) (c := _) (p := _)).trans ?_) | split | simp only [↓State.readHost_cut, m_hst, m_rdg, m_links, m_out])

theorem State.spoil_cut {m : Area → Bool} (bad : Nat → Bool) (x1 : List Byte) (x2 : Nat) (x3 : State) (m_freeN : m .freeN := by assumption) :
    (State.spoil bad x1 x2 x3).2.cut m = x3.cut m := by
  induction x1 generalizing x2 x3 with
  | nil => rfl
  | cons b t ih =>
    simp only [State.spoil]
    refine (ih _ _).trans ?_
    split
    · exact State.free_cut _
    · rfl

theorem State.readUnits_cut {m : Area → Bool} (s : State) (a : ℕ) (bs : List Byte) (m_regs : m .regs := by assumption) (m_evt : m .evt := by assumption) (m_fst : m .fst := by assumption) (m_freeN : m .freeN := by assumption) :
    (State.readUnits s a bs).2.cut m = s.cut m := by
  unfold State.readUnits
  repeat' (first | split | simp only [↓State.takeEcc_cut, ↓State.spoil_cut, m_regs, m_evt, m_fst, m_freeN])

theorem State.readWords_cut {m : Area → Bool} (s : State) (c : ℕ) (tag : ℕ) (at_ : ℕ → List ℕ) (o : ℕ) (bs : List Byte) (m_regs : m .regs := by assumption) (m_evt : m .evt := by assumption) (m_bnk : m .bnk := by assumption) (m_freeN : m .freeN := by assumption) :
    (State.readWords s c tag at_ o bs).2.cut m = s.cut m := by
  unfold State.readWords
  repeat' (first | (with_reducible refine (foldl_cut _ _ _ fun s x => ?_).trans ?_) | split | simp only [↓State.touchWords_cut, ↓State.readWord_cut, ↓State.spoil_cut, m_regs, m_evt, m_bnk, m_freeN])

theorem State.traceUe_cut {m : Area → Bool} (s : State) (o : ℕ) (n : ℕ) (m_regs : m .regs := by assumption) (m_evt : m .evt := by assumption) :
    (State.traceUe s o n).cut m = s.cut m := by
  unfold State.traceUe
  repeat' (first | (with_reducible refine (foldl_cut _ _ _ fun s x => ?_).trans ?_) | split | simp only [↓State.event_cut, m_regs, m_evt])

theorem State.readTable_cut {m : Area → Bool} (s : State) (c : ℕ) (d : Desc) (m_regs : m .regs := by assumption) (m_evt : m .evt := by assumption) (m_fst : m .fst := by assumption) (m_bnk : m .bnk := by assumption) (m_freeN : m .freeN := by assumption) :
    (State.readTable s c d).2.cut m = s.cut m := by
  unfold State.readTable
  repeat' (first | split | simp only [↓State.readUnits_cut, ↓State.readWords_cut, ↓State.traceUe_cut, m_regs, m_evt, m_fst, m_bnk, m_freeN])

theorem State.tableGo_cut {m : Area → Bool} (s : State) (c : ℕ) (d : Desc) (m_regs : m .regs := by assumption) (m_pwr : m .pwr := by assumption) (m_hst : m .hst := by assumption) (m_stg : m .stg := by assumption) (m_tabs : m .tabs := by assumption) (m_evt : m .evt := by assumption) (m_rdg : m .rdg := by assumption) (m_fst : m .fst := by assumption) (m_links : m .links := by assumption) (m_bnk : m .bnk := by assumption) (m_win : m .win := by assumption) (m_freeN : m .freeN := by assumption) (m_out : m .out := by assumption) :
    (State.tableGo s c d).cut m = s.cut m := by
  unfold State.tableGo
  dsimp only
  repeat' (first | rfl | (simp only [↓State.setTable_cut, ↓State.writeHost_cut, ↓State.readHost_cut, ↓State.finish_cut, ↓State.wake_cut, ↓State.readTable_cut, ↓apply_ite (State.cut m), ite_self, m_regs, m_pwr, m_hst, m_stg, m_tabs, m_evt, m_rdg, m_fst, m_links, m_bnk, m_win, m_freeN, m_out]; done) | (with_reducible refine (foldl_cut _ _ _ fun s x => ?_).trans ?_) | split | simp only [↓State.setTable_cut, ↓State.writeHost_cut, ↓State.readHost_cut, ↓State.finish_cut, ↓State.wake_cut, ↓State.readTable_cut, m_regs, m_pwr, m_hst, m_stg, m_tabs, m_evt, m_rdg, m_fst, m_links, m_bnk, m_win, m_freeN, m_out])

theorem State.retryTables_cut {m : Area → Bool} (s : State) (l : List (ℕ × ℕ)) (m_regs : m .regs := by assumption) (m_pwr : m .pwr := by assumption) (m_hst : m .hst := by assumption) (m_stg : m .stg := by assumption) (m_tabs : m .tabs := by assumption) (m_evt : m .evt := by assumption) (m_rdg : m .rdg := by assumption) (m_fst : m .fst := by assumption) (m_links : m .links := by assumption) (m_bnk : m .bnk := by assumption) (m_win : m .win := by assumption) (m_freeN : m .freeN := by assumption) (m_out : m .out := by assumption) :
    (State.retryTables s l).cut m = s.cut m := by
  unfold State.retryTables
  repeat' (first | (with_reducible refine (foldl_cut _ _ _ fun s x => ?_).trans ?_) | split | simp only [↓State.tableGo_cut, m_regs, m_pwr, m_hst, m_stg, m_tabs, m_evt, m_rdg, m_fst, m_links, m_bnk, m_win, m_freeN, m_out])

theorem State.takeWaiters_cut {m : Area → Bool} (s : State) (m_tabs : m .tabs := by assumption) :
    (State.takeWaiters s).2.cut m = s.cut m := by
  unfold State.takeWaiters
  refine foldl_cut _ _ _ fun s x => ?_
  split
  · rfl
  · exact State.setTable_cut ..

theorem State.tblLoad_cut {m : Area → Bool} (c : ℕ) (d : Desc) (s : State) (m_regs : m .regs := by assumption) (m_pwr : m .pwr := by assumption) (m_hst : m .hst := by assumption) (m_stg : m .stg := by assumption) (m_tabs : m .tabs := by assumption) (m_evt : m .evt := by assumption) (m_rdg : m .rdg := by assumption) (m_fst : m .fst := by assumption) (m_links : m .links := by assumption) (m_bnk : m .bnk := by assumption) (m_win : m .win := by assumption) (m_freeN : m .freeN := by assumption) (m_out : m .out := by assumption) :
    (State.tblLoad c d s).cut m = s.cut m := by
  unfold State.tblLoad
  repeat' (first | split | simp only [↓State.setDesc_cut, ↓State.setTxn_cut, ↓State.finish_cut, ↓State.tableGo_cut, m_regs, m_pwr, m_hst, m_stg, m_tabs, m_evt, m_rdg, m_fst, m_links, m_bnk, m_win, m_freeN, m_out])

theorem execTblLoad_cut {m : Area → Bool} (c : Fin 256) (s : State) (m_regs : m .regs := by assumption) (m_pwr : m .pwr := by assumption) (m_hst : m .hst := by assumption) (m_stg : m .stg := by assumption) (m_tabs : m .tabs := by assumption) (m_evt : m .evt := by assumption) (m_rdg : m .rdg := by assumption) (m_fst : m .fst := by assumption) (m_links : m .links := by assumption) (m_bnk : m .bnk := by assumption) (m_win : m .win := by assumption) (m_freeN : m .freeN := by assumption) (m_out : m .out := by assumption) :
    outCut m (execTblLoad c s) = some (s.cut m) := by
  unfold execTblLoad
  repeat' (first | (refine congrArg some ?_) | (with_reducible refine (State.startWith_cut (h_f := fun y0 y1 => ?_) (s := _) (c := _) (p := _)).trans ?_) | split | simp only [↓State.tblLoad_cut, m_regs, m_pwr, m_hst, m_stg, m_tabs, m_evt, m_rdg, m_fst, m_links, m_bnk, m_win, m_freeN, m_out])

theorem State.tblRead_cut {m : Area → Bool} (c : ℕ) (d : Desc) (s : State) (m_regs : m .regs := by assumption) (m_pwr : m .pwr := by assumption) (m_hst : m .hst := by assumption) (m_stg : m .stg := by assumption) (m_tabs : m .tabs := by assumption) (m_evt : m .evt := by assumption) (m_rdg : m .rdg := by assumption) (m_fst : m .fst := by assumption) (m_links : m .links := by assumption) (m_bnk : m .bnk := by assumption) (m_win : m .win := by assumption) (m_freeN : m .freeN := by assumption) (m_out : m .out := by assumption) :
    (State.tblRead c d s).cut m = s.cut m := by
  unfold State.tblRead
  simp only [↓State.finish_cut, ↓State.tableGo_cut, ↓apply_ite (State.cut m), ite_self, m_regs, m_pwr, m_hst, m_stg, m_tabs, m_evt, m_rdg, m_fst, m_links, m_bnk, m_win, m_freeN, m_out]

theorem execTblRead_cut {m : Area → Bool} (c : Fin 256) (s : State) (m_regs : m .regs := by assumption) (m_pwr : m .pwr := by assumption) (m_hst : m .hst := by assumption) (m_stg : m .stg := by assumption) (m_tabs : m .tabs := by assumption) (m_evt : m .evt := by assumption) (m_rdg : m .rdg := by assumption) (m_fst : m .fst := by assumption) (m_links : m .links := by assumption) (m_bnk : m .bnk := by assumption) (m_win : m .win := by assumption) (m_freeN : m .freeN := by assumption) (m_out : m .out := by assumption) :
    outCut m (execTblRead c s) = some (s.cut m) := by
  unfold execTblRead
  repeat' (first | (refine congrArg some ?_) | (with_reducible refine (State.startWith_cut (h_f := fun y0 y1 => ?_) (s := _) (c := _) (p := _)).trans ?_) | split | simp only [↓State.tblRead_cut, m_regs, m_pwr, m_hst, m_stg, m_tabs, m_evt, m_rdg, m_fst, m_links, m_bnk, m_win, m_freeN, m_out])

theorem State.loadData_cut {m : Area → Bool} (s : State) (c : ℕ) (d : Desc) (bs : List Byte) (m_regs : m .regs := by assumption) (m_pwr : m .pwr := by assumption) (m_hst : m .hst := by assumption) (m_stg : m .stg := by assumption) (m_tabs : m .tabs := by assumption) (m_evt : m .evt := by assumption) (m_rdg : m .rdg := by assumption) (m_fst : m .fst := by assumption) (m_links : m .links := by assumption) (m_bnk : m .bnk := by assumption) (m_win : m .win := by assumption) (m_freeN : m .freeN := by assumption) (m_out : m .out := by assumption) :
    (State.loadData s c d bs).cut m = s.cut m := by
  unfold State.loadData
  simp only [↓State.setDesc_cut, ↓State.finish_cut, ↓State.writeInactive_cut, ↓State.syncPrefix_cut, ↓State.tableGo_cut, ↓apply_ite (State.cut m), ite_self, m_regs, m_pwr, m_hst, m_stg, m_tabs, m_evt, m_rdg, m_fst, m_links, m_bnk, m_win, m_freeN, m_out]

theorem execTableRebuildEnd_cut {m : Area → Bool} (c : Fin 256) (s : State) (m_regs : m .regs := by assumption) (m_hst : m .hst := by assumption) (m_stg : m .stg := by assumption) (m_tabs : m .tabs := by assumption) (m_evt : m .evt := by assumption) (m_rdg : m .rdg := by assumption) (m_fst : m .fst := by assumption) (m_links : m .links := by assumption) (m_bnk : m .bnk := by assumption) (m_win : m .win := by assumption) (m_out : m .out := by assumption) :
    outCut m (execTableRebuildEnd c s) = some (s.cut m) := by
  unfold execTableRebuildEnd
  repeat' (first | (refine congrArg some ?_) | split | simp only [↓State.finish_cut, ↓State.rebuild_cut, m_regs, m_hst, m_stg, m_tabs, m_evt, m_rdg, m_fst, m_links, m_bnk, m_win, m_out])

theorem State.retryWaiters_cut {m : Area → Bool} (s : State) (m_regs : m .regs := by assumption) (m_pwr : m .pwr := by assumption) (m_hst : m .hst := by assumption) (m_stg : m .stg := by assumption) (m_tabs : m .tabs := by assumption) (m_evt : m .evt := by assumption) (m_rdg : m .rdg := by assumption) (m_fst : m .fst := by assumption) (m_links : m .links := by assumption) (m_bnk : m .bnk := by assumption) (m_win : m .win := by assumption) (m_freeN : m .freeN := by assumption) (m_out : m .out := by assumption) :
    (State.retryWaiters s).cut m = s.cut m := by
  unfold State.retryWaiters
  exact (State.retryTables_cut ..).trans (State.takeWaiters_cut ..)

theorem execResyncEnd_cut {m : Area → Bool} (table : Nat) (s : State) (m_regs : m .regs := by assumption) (m_pwr : m .pwr := by assumption) (m_hst : m .hst := by assumption) (m_stg : m .stg := by assumption) (m_tabs : m .tabs := by assumption) (m_evt : m .evt := by assumption) (m_rdg : m .rdg := by assumption) (m_fst : m .fst := by assumption) (m_links : m .links := by assumption) (m_bnk : m .bnk := by assumption) (m_win : m .win := by assumption) (m_freeN : m .freeN := by assumption) (m_out : m .out := by assumption) :
    outCut m (execResyncEnd table s) = some (s.cut m) := by
  unfold execResyncEnd
  split
  · rfl
  · exact congrArg some ((State.retryTables_cut ..).trans ((State.takeWaiters_cut ..).trans (State.endResync_cut ..)))

theorem execCommitDecide_cut {m : Area → Bool} (c : Fin 256) (inFreeze : Bool) (s : State) (m_regs : m .regs := by assumption) (m_pwr : m .pwr := by assumption) (m_hst : m .hst := by assumption) (m_stg : m .stg := by assumption) (m_tabs : m .tabs := by assumption) (m_evt : m .evt := by assumption) (m_gen : m .gen := by assumption) (m_rdg : m .rdg := by assumption) (m_fst : m .fst := by assumption) (m_links : m .links := by assumption) (m_thm : m .thm := by assumption) (m_drv : m .drv := by assumption) (m_pnl : m .pnl := by assumption) (m_hrt : m .hrt := by assumption) (m_bnk : m .bnk := by assumption) (m_win : m .win := by assumption) (m_mag : m .mag := by assumption) (m_thc : m .thc := by assumption) (m_fmask : m .fmask := by assumption) (m_freeN : m .freeN := by assumption) (m_out : m .out := by assumption) :
    outCut m (execCommitDecide c inFreeze s) = some (s.cut m) := by
  unfold execCommitDecide
  simp only [↓State.commitEnds_cut, ↓State.retryWaiters_cut, ↓apply_ite (State.cut m), ite_self, ↓outCut_next, ↓apply_ite (outCut m), m_regs, m_pwr, m_hst, m_stg, m_tabs, m_evt, m_gen, m_rdg, m_fst, m_links, m_thm, m_drv, m_pnl, m_hrt, m_bnk, m_win, m_mag, m_thc, m_fmask, m_freeN, m_out]

theorem execThrottleStepTimer_cut {m : Area → Bool} (s : State) (m_regs : m .regs := by assumption) (m_pwr : m .pwr := by assumption) (m_hst : m .hst := by assumption) (m_stg : m .stg := by assumption) (m_tabs : m .tabs := by assumption) (m_evt : m .evt := by assumption) (m_rdg : m .rdg := by assumption) (m_fst : m .fst := by assumption) (m_links : m .links := by assumption) (m_bnk : m .bnk := by assumption) (m_win : m .win := by assumption) (m_freeN : m .freeN := by assumption) (m_out : m .out := by assumption) :
    outCut m (execThrottleStepTimer s) = some (s.cut m) := by
  unfold execThrottleStepTimer
  simp only [↓State.throttleTimer_cut, ↓State.retryWaiters_cut, ↓apply_ite (State.cut m), ite_self, ↓outCut_next, ↓apply_ite (outCut m), m_regs, m_pwr, m_hst, m_stg, m_tabs, m_evt, m_rdg, m_fst, m_links, m_bnk, m_win, m_freeN, m_out]

theorem State.operandRead_cut {m : Area → Bool} (s : State) (c : ℕ) (idx : ℕ) (bs : List Byte) (m_regs : m .regs := by assumption) (m_rst : m .rst := by assumption) (m_pwr : m .pwr := by assumption) (m_hst : m .hst := by assumption) (m_stg : m .stg := by assumption) (m_tabs : m .tabs := by assumption) (m_evt : m .evt := by assumption) (m_gen : m .gen := by assumption) (m_rdg : m .rdg := by assumption) (m_fst : m .fst := by assumption) (m_links : m .links := by assumption) (m_thm : m .thm := by assumption) (m_drv : m .drv := by assumption) (m_pipe : m .pipe := by assumption) (m_cal : m .cal := by assumption) (m_pnl : m .pnl := by assumption) (m_hrt : m .hrt := by assumption) (m_bnk : m .bnk := by assumption) (m_win : m .win := by assumption) (m_mag : m .mag := by assumption) (m_thc : m .thc := by assumption) (m_relay : m .relay := by assumption) (m_jtag : m .jtag := by assumption) (m_fmask : m .fmask := by assumption) (m_aon : m .aon := by assumption) (m_freeN : m .freeN := by assumption) (m_fsEpoch : m .fsEpoch := by assumption) (m_out : m .out := by assumption) :
    (State.operandRead s c idx bs).cut m = s.cut m := by
  unfold State.operandRead
  repeat' (first | split | simp only [↓State.jobData_cut, ↓State.appendData_cut, ↓State.tmkData_cut, ↓State.runList_cut, ↓State.loadData_cut, m_regs, m_rst, m_pwr, m_hst, m_stg, m_tabs, m_evt, m_gen, m_rdg, m_fst, m_links, m_thm, m_drv, m_pipe, m_cal, m_pnl, m_hrt, m_bnk, m_win, m_mag, m_thc, m_relay, m_jtag, m_fmask, m_aon, m_freeN, m_fsEpoch, m_out])

theorem State.hostReply_cut {m : Area → Bool} (s : State) (src : ℕ) (tag : ℕ) (kind : ℕ) (addr : ℕ) (bs : List Byte) (m_links : m .links := by assumption) (m_out : m .out := by assumption) :
    (State.hostReply s src tag kind addr bs).cut m = s.cut m := by
  unfold State.hostReply
  simp only [↓State.unicast_cut, ↓apply_ite (State.cut m), ite_self, m_links, m_out]

theorem State.readDone_cut {m : Area → Bool} (s : State) (r : HostRead) (bs : List Byte) (m_regs : m .regs := by assumption) (m_rst : m .rst := by assumption) (m_pwr : m .pwr := by assumption) (m_hst : m .hst := by assumption) (m_stg : m .stg := by assumption) (m_tabs : m .tabs := by assumption) (m_evt : m .evt := by assumption) (m_gen : m .gen := by assumption) (m_rdg : m .rdg := by assumption) (m_fst : m .fst := by assumption) (m_links : m .links := by assumption) (m_thm : m .thm := by assumption) (m_drv : m .drv := by assumption) (m_pipe : m .pipe := by assumption) (m_cal : m .cal := by assumption) (m_pnl : m .pnl := by assumption) (m_hrt : m .hrt := by assumption) (m_bnk : m .bnk := by assumption) (m_win : m .win := by assumption) (m_mag : m .mag := by assumption) (m_thc : m .thc := by assumption) (m_relay : m .relay := by assumption) (m_jtag : m .jtag := by assumption) (m_fmask : m .fmask := by assumption) (m_aon : m .aon := by assumption) (m_freeN : m .freeN := by assumption) (m_fsEpoch : m .fsEpoch := by assumption) (m_out : m .out := by assumption) :
    (State.readDone s r bs).cut m = s.cut m := by
  unfold State.readDone
  repeat' (first | (with_reducible refine (foldl_cut _ _ _ fun s x => ?_).trans ?_) | split | simp only [↓State.onHst_cut, ↓State.takeDescs_cut, ↓State.jobData_cut, ↓State.operandRead_cut, ↓State.hostReply_cut, m_regs, m_rst, m_pwr, m_hst, m_stg, m_tabs, m_evt, m_gen, m_rdg, m_fst, m_links, m_thm, m_drv, m_pipe, m_cal, m_pnl, m_hrt, m_bnk, m_win, m_mag, m_thc, m_relay, m_jtag, m_fmask, m_aon, m_freeN, m_fsEpoch, m_out])

theorem execHostMemoryReadData_cut {m : Area → Bool} (rid : ℕ) (bytes : List Byte) (s : State) (m_regs : m .regs := by assumption) (m_rst : m .rst := by assumption) (m_pwr : m .pwr := by assumption) (m_hst : m .hst := by assumption) (m_stg : m .stg := by assumption) (m_tabs : m .tabs := by assumption) (m_evt : m .evt := by assumption) (m_gen : m .gen := by assumption) (m_rdg : m .rdg := by assumption) (m_fst : m .fst := by assumption) (m_links : m .links := by assumption) (m_thm : m .thm := by assumption) (m_drv : m .drv := by assumption) (m_pipe : m .pipe := by assumption) (m_cal : m .cal := by assumption) (m_pnl : m .pnl := by assumption) (m_hrt : m .hrt := by assumption) (m_bnk : m .bnk := by assumption) (m_win : m .win := by assumption) (m_mag : m .mag := by assumption) (m_thc : m .thc := by assumption) (m_relay : m .relay := by assumption) (m_jtag : m .jtag := by assumption) (m_fmask : m .fmask := by assumption) (m_aon : m .aon := by assumption) (m_freeN : m .freeN := by assumption) (m_fsEpoch : m .fsEpoch := by assumption) (m_out : m .out := by assumption) :
    outCut m (execHostMemoryReadData rid bytes s) = some (s.cut m) := by
  unfold execHostMemoryReadData
  repeat' (first | (refine congrArg some ?_) | split | simp only [↓State.readDone_cut, m_regs, m_rst, m_pwr, m_hst, m_stg, m_tabs, m_evt, m_gen, m_rdg, m_fst, m_links, m_thm, m_drv, m_pipe, m_cal, m_pnl, m_hrt, m_bnk, m_win, m_mag, m_thc, m_relay, m_jtag, m_fmask, m_aon, m_freeN, m_fsEpoch, m_out])

theorem State.dropWork_cut {m : Area → Bool} (s : State) (c : ℕ) (idx : ℕ) (m_regs : m .regs := by assumption) (m_mag : m .mag := by assumption) (m_thc : m .thc := by assumption) :
    (State.dropWork s c idx).cut m = s.cut m := by
  unfold State.dropWork
  repeat' (first | split | simp only [↓State.dropAppend_cut, ↓State.dropRead_cut, ↓State.jobFault_cut, m_regs, m_mag, m_thc])

theorem State.fetchFault_cut {m : Area → Bool} (s : State) (c : ℕ) (m_regs : m .regs := by assumption) (m_hst : m .hst := by assumption) (m_evt : m .evt := by assumption) (m_rdg : m .rdg := by assumption) (m_links : m .links := by assumption) (m_out : m .out := by assumption) :
    (State.fetchFault s c).cut m = s.cut m := by
  unfold State.fetchFault
  simp only [↓State.setClient_cut, ↓State.ringFault_cut, ↓State.haltRing_cut, ↓apply_ite (State.cut m), ite_self, m_regs, m_hst, m_evt, m_rdg, m_links, m_out]

theorem State.readFault_cut {m : Area → Bool} (s : State) (r : HostRead) (m_regs : m .regs := by assumption) (m_hst : m .hst := by assumption) (m_stg : m .stg := by assumption) (m_tabs : m .tabs := by assumption) (m_evt : m .evt := by assumption) (m_rdg : m .rdg := by assumption) (m_links : m .links := by assumption) (m_win : m .win := by assumption) (m_mag : m .mag := by assumption) (m_thc : m .thc := by assumption) (m_out : m .out := by assumption) :
    (State.readFault s r).cut m = s.cut m := by
  unfold State.readFault
  repeat' (first | split | simp only [↓State.onHst_cut, ↓State.dataFault_cut, ↓State.hostReply_cut, ↓State.dropWork_cut, ↓State.fetchFault_cut, m_regs, m_hst, m_stg, m_tabs, m_evt, m_rdg, m_links, m_win, m_mag, m_thc, m_out])

theorem execHostMemFault_cut {m : Area → Bool} (w : HostFaultAt) (s : State) (m_regs : m .regs := by assumption) (m_hst : m .hst := by assumption) (m_stg : m .stg := by assumption) (m_tabs : m .tabs := by assumption) (m_evt : m .evt := by assumption) (m_rdg : m .rdg := by assumption) (m_links : m .links := by assumption) (m_win : m .win := by assumption) (m_mag : m .mag := by assumption) (m_thc : m .thc := by assumption) (m_out : m .out := by assumption) :
    outCut m (execHostMemFault w s) = some (s.cut m) := by
  unfold execHostMemFault
  repeat' (first | (refine congrArg some ?_) | split | simp only [↓State.cplFault_cut, ↓State.writeFault_cut, ↓State.readFault_cut, m_regs, m_hst, m_stg, m_tabs, m_evt, m_rdg, m_links, m_win, m_mag, m_thc, m_out])

theorem State.failLists_cut {m : Area → Bool} (s : State) (d : ℕ) (m_regs : m .regs := by assumption) (m_hst : m .hst := by assumption) (m_stg : m .stg := by assumption) (m_tabs : m .tabs := by assumption) (m_evt : m .evt := by assumption) (m_rdg : m .rdg := by assumption) (m_links : m .links := by assumption) (m_win : m .win := by assumption) (m_out : m .out := by assumption) :
    (State.failLists s d).cut m = s.cut m := by
  unfold State.failLists
  repeat' (first | (with_reducible refine (foldl_cut _ _ _ fun s x => ?_).trans ?_) | split | simp only [↓State.onHst_cut, ↓State.finish_cut, m_regs, m_hst, m_stg, m_tabs, m_evt, m_rdg, m_links, m_win, m_out])

theorem State.failTables_cut {m : Area → Bool} (s : State) (d : Nat) (m_regs : m .regs := by assumption) (m_pwr : m .pwr := by assumption) (m_hst : m .hst := by assumption) (m_stg : m .stg := by assumption) (m_tabs : m .tabs := by assumption) (m_evt : m .evt := by assumption) (m_rdg : m .rdg := by assumption) (m_fst : m .fst := by assumption) (m_links : m .links := by assumption) (m_bnk : m .bnk := by assumption) (m_win : m .win := by assumption) (m_freeN : m .freeN := by assumption) (m_out : m .out := by assumption) :
    (State.failTables s d).cut m = s.cut m := by
  unfold State.failTables
  refine (foldl_cut _ _ _ fun s x => ?_).trans (State.takeWaiters_cut ..)
  split
  · split
    · exact State.finish_cut ..
    · exact State.tableGo_cut ..
  · rfl

theorem State.failJobs_cut {m : Area → Bool} (s : State) (d : ℕ) (m_regs : m .regs := by assumption) (m_hst : m .hst := by assumption) (m_stg : m .stg := by assumption) (m_tabs : m .tabs := by assumption) (m_evt : m .evt := by assumption) (m_rdg : m .rdg := by assumption) (m_links : m .links := by assumption) (m_win : m .win := by assumption) (m_thc : m .thc := by assumption) (m_out : m .out := by assumption) :
    (State.failJobs s d).cut m = s.cut m := by
  unfold State.failJobs
  repeat' (first | (with_reducible refine (foldl_cut _ _ _ fun s x => ?_).trans ?_) | split | simp only [↓State.finish_cut, ↓State.jobFault_cut, m_regs, m_hst, m_stg, m_tabs, m_evt, m_rdg, m_links, m_win, m_thc, m_out])

theorem State.onJtag_cut {m : Area → Bool} (s : State) (f : JtagState → JtagState) (m_jtag : m .jtag := by assumption) :
    (State.onJtag s f).cut m = s.cut m := by
  unfold State.onJtag
  simp only [↓cut_jtag, ↓apply_ite (State.cut m), ite_self, m_jtag]

theorem State.captureDr_cut {m : Area → Bool} (s : State) (m_jtag : m .jtag := by assumption) (m_freeN : m .freeN := by assumption) :
    (State.captureDr s).cut m = s.cut m := by
  unfold State.captureDr
  repeat' (first | (simp only [↓State.free_cut, ↓State.onJtag_cut, ↓apply_ite (State.cut m), ite_self, m_jtag, m_freeN]; done) | split | simp only [↓State.free_cut, ↓State.onJtag_cut, ↓apply_ite (State.cut m), ite_self, m_jtag, m_freeN])

theorem State.captureIr_cut {m : Area → Bool} (s : State) (m_jtag : m .jtag := by assumption) (m_freeN : m .freeN := by assumption) :
    (State.captureIr s).cut m = s.cut m := by
  unfold State.captureIr
  simp only [↓State.free_cut, ↓State.onJtag_cut, ↓apply_ite (State.cut m), ite_self, m_jtag, m_freeN]

theorem State.tapAct_cut {m : Area → Bool} (s : State) (tdi : Bool) (m_jtag : m .jtag := by assumption) (m_freeN : m .freeN := by assumption) :
    (State.tapAct s tdi).cut m = s.cut m := by
  unfold State.tapAct
  repeat' (first | split | simp only [↓State.onJtag_cut, ↓State.captureDr_cut, ↓State.captureIr_cut, m_jtag, m_freeN])

theorem State.tapSelect_cut {m : Area → Bool} (s : State) (r : TapReg) (m_jtag : m .jtag := by assumption) (m_out : m .out := by assumption) :
    (State.tapSelect s r).cut m = s.cut m := by
  unfold State.tapSelect
  simp only [↓State.emit_cut, ↓State.onJtag_cut, ↓apply_ite (State.cut m), ite_self, m_jtag, m_out]

theorem State.tapLatch_cut {m : Area → Bool} (s : State) (m_jtag : m .jtag := by assumption) (m_out : m .out := by assumption) :
    (State.tapLatch s).cut m = s.cut m := by
  unfold State.tapLatch
  repeat' (first | split | simp only [↓State.emit_cut, ↓State.onJtag_cut, m_jtag, m_out])

theorem State.tapEnter_cut {m : Area → Bool} (s : State) (m_jtag : m .jtag := by assumption) (m_out : m .out := by assumption) :
    (State.tapEnter s).cut m = s.cut m := by
  unfold State.tapEnter
  repeat' (first | split | simp only [↓State.emit_cut, ↓State.tapSelect_cut, ↓State.tapLatch_cut, m_jtag, m_out])

theorem execJtagTckEdge_cut {m : Area → Bool} (e : JtagEdge) (s : State) (m_jtag : m .jtag := by assumption) (m_freeN : m .freeN := by assumption) (m_out : m .out := by assumption) :
    outCut m (execJtagTckEdge e s) = some (s.cut m) := by
  unfold execJtagTckEdge
  repeat' (first | (refine congrArg some ?_) | split | simp only [↓State.onJtag_cut, ↓State.tapAct_cut, ↓State.tapSelect_cut, ↓State.tapEnter_cut, m_jtag, m_freeN, m_out])

theorem State.parsed_cut {m : Area → Bool} (s : State) (p : ℕ) (w : PktWhat) (t : ℕ) (len : ℕ) (f : ℕ) (read : ℕ) (m_fst : m .fst := by assumption) (m_links : m .links := by assumption) :
    (State.parsed s p w t len f read).cut m = s.cut m := by
  unfold State.parsed
  dsimp only
  repeat' (first | rfl | (simp only [↓State.onDec_cut, ↓State.checkPacket_cut, ↓apply_ite (State.cut m), ite_self, m_fst, m_links]; done) | split | simp only [↓State.onDec_cut, ↓State.checkPacket_cut, m_fst, m_links])

theorem State.headerByte_cut {m : Area → Bool} (s : State) (p : ℕ) (b : List Byte) (m_fst : m .fst := by assumption) (m_links : m .links := by assumption) :
    (State.headerByte s p b).cut m = s.cut m := by
  unfold State.headerByte
  simp only [↓State.onDec_cut, ↓State.parsed_cut, ↓apply_ite (State.cut m), ite_self, m_fst, m_links]

theorem State.putPixels_cut {m : Area → Bool} (s : State) (p : ℕ) (k : Packet) (pix : ℕ) (m_regs : m .regs := by assumption) (m_evt : m .evt := by assumption) (m_fst : m .fst := by assumption) (m_links : m .links := by assumption) (m_bnk : m .bnk := by assumption) :
    (State.putPixels s p k pix).cut m = s.cut m := by
  unfold State.putPixels
  repeat' (first | split | simp only [↓State.onDec_cut, ↓State.writeSpanRow_cut, m_regs, m_evt, m_fst, m_links, m_bnk])

theorem State.rowByte_cut {m : Area → Bool} (s : State) (p : ℕ) (k : Packet) (pix : ℕ) (b : List Byte) (m_regs : m .regs := by assumption) (m_evt : m .evt := by assumption) (m_fst : m .fst := by assumption) (m_links : m .links := by assumption) (m_bnk : m .bnk := by assumption) :
    (State.rowByte s p k pix b).cut m = s.cut m := by
  unfold State.rowByte
  simp only [↓State.onDec_cut, ↓State.putPixels_cut, ↓apply_ite (State.cut m), ite_self, m_regs, m_evt, m_fst, m_links, m_bnk]

theorem State.takeByte_cut {m : Area → Bool} (s : State) (p : ℕ) (off : Option ℕ) (i : ℕ) (b : Byte) (m_regs : m .regs := by assumption) (m_evt : m .evt := by assumption) (m_fst : m .fst := by assumption) (m_links : m .links := by assumption) (m_bnk : m .bnk := by assumption) :
    (State.takeByte s p off i b).cut m = s.cut m := by
  unfold State.takeByte
  repeat' (first | split | simp only [↓State.onDec_cut, ↓State.headerByte_cut, ↓State.rowByte_cut, m_regs, m_evt, m_fst, m_links, m_bnk])

theorem State.putForwarded_cut {m : Area → Bool} (s : State) (p : ℕ) (m_regs : m .regs := by assumption) (m_evt : m .evt := by assumption) (m_fst : m .fst := by assumption) (m_links : m .links := by assumption) (m_bnk : m .bnk := by assumption) :
    (State.putForwarded s p).cut m = s.cut m := by
  unfold State.putForwarded
  repeat' (first | split | simp only [↓State.putPixels_cut, m_regs, m_evt, m_fst, m_links, m_bnk])

theorem State.takeBytes_cut {m : Area → Bool} (s : State) (p : ℕ) (off : Option ℕ) (i : ℕ) (bs : List Byte) (m_regs : m .regs := by assumption) (m_evt : m .evt := by assumption) (m_fst : m .fst := by assumption) (m_links : m .links := by assumption) (m_bnk : m .bnk := by assumption) :
    (State.takeBytes s p off i bs).cut m = s.cut m := by
  unfold State.takeBytes
  repeat' (first | (with_reducible refine (foldl_cut _ _ _ fun s x => ?_).trans ?_) | split | simp only [↓State.takeByte_cut, ↓State.putForwarded_cut, m_regs, m_evt, m_fst, m_links, m_bnk])

theorem State.acceptPackets_cut {m : Area → Bool} (s : State) (p : ℕ) (m_regs : m .regs := by assumption) (m_evt : m .evt := by assumption) (m_fst : m .fst := by assumption) (m_links : m .links := by assumption) (m_hrt : m .hrt := by assumption) (m_bnk : m .bnk := by assumption) :
    (State.acceptPackets s p).cut m = s.cut m := by
  unfold State.acceptPackets
  repeat' (first | (with_reducible refine (foldl_cut _ _ _ fun s x => ?_).trans ?_) | split | simp only [↓State.onDec_cut, ↓State.acceptPacket_cut, m_regs, m_evt, m_fst, m_links, m_hrt, m_bnk])

theorem State.endFlit_cut {m : Area → Bool} (s : State) (q : ℕ) (m_links : m .links := by assumption) :
    (State.endFlit s q).cut m = s.cut m := by
  unfold State.endFlit
  simp only [↓State.onLink_cut, ↓State.onDec_cut, ↓apply_ite (State.cut m), ite_self, m_links]

theorem State.takeMessage_cut {m : Area → Bool} (s : State) (q : ℕ) (m1 : Option (ℕ × ℕ)) (m_regs : m .regs := by assumption) (m_pwr : m .pwr := by assumption) (m_hst : m .hst := by assumption) (m_evt : m .evt := by assumption) (m_rdg : m .rdg := by assumption) (m_links : m .links := by assumption) (m_thm : m .thm := by assumption) (m_hrt : m .hrt := by assumption) (m_out : m .out := by assumption) :
    (State.takeMessage s q m1).cut m = s.cut m := by
  unfold State.takeMessage
  repeat' (first | split | simp only [↓State.protoError_cut, ↓State.takeGoodbye_cut, ↓State.takeSrcSleep_cut, ↓State.takeSrcWake_cut, m_regs, m_pwr, m_hst, m_evt, m_rdg, m_links, m_thm, m_hrt, m_out])

theorem State.takeData_cut {m : Area → Bool} (s : State) (p : ℕ) (f : Flit) (m_regs : m .regs := by assumption) (m_evt : m .evt := by assumption) (m_fst : m .fst := by assumption) (m_links : m .links := by assumption) (m_hrt : m .hrt := by assumption) (m_bnk : m .bnk := by assumption) :
    (State.takeData s p f).cut m = s.cut m := by
  unfold State.takeData
  simp only [↓State.onLink_cut, ↓State.takeBytes_cut, ↓State.acceptPackets_cut, ↓State.endFlit_cut, ↓apply_ite (State.cut m), ite_self, m_regs, m_evt, m_fst, m_links, m_hrt, m_bnk]

theorem State.takePayload_cut {m : Area → Bool} (s : State) (q : ℕ) (f : Flit) (m_regs : m .regs := by assumption) (m_pwr : m .pwr := by assumption) (m_hst : m .hst := by assumption) (m_evt : m .evt := by assumption) (m_rdg : m .rdg := by assumption) (m_fst : m .fst := by assumption) (m_links : m .links := by assumption) (m_thm : m .thm := by assumption) (m_hrt : m .hrt := by assumption) (m_bnk : m .bnk := by assumption) (m_out : m .out := by assumption) :
    (State.takePayload s q f).cut m = s.cut m := by
  unfold State.takePayload
  repeat' (first | (with_reducible refine (foldl_cut _ _ _ fun s x => ?_).trans ?_) | split | simp only [↓State.onLink_cut, ↓State.protoError_cut, ↓State.dropFlit_cut, ↓State.takeMessage_cut, ↓State.takeData_cut, m_regs, m_pwr, m_hst, m_evt, m_rdg, m_fst, m_links, m_thm, m_hrt, m_bnk, m_out])

theorem State.takeSequenced_cut {m : Area → Bool} (s : State) (q : ℕ) (f : Flit) (m_regs : m .regs := by assumption) (m_pwr : m .pwr := by assumption) (m_hst : m .hst := by assumption) (m_evt : m .evt := by assumption) (m_rdg : m .rdg := by assumption) (m_fst : m .fst := by assumption) (m_links : m .links := by assumption) (m_thm : m .thm := by assumption) (m_hrt : m .hrt := by assumption) (m_bnk : m .bnk := by assumption) (m_freeN : m .freeN := by assumption) (m_out : m .out := by assumption) :
    (State.takeSequenced s q f).cut m = s.cut m := by
  unfold State.takeSequenced
  simp only [↓State.bump_cut, ↓State.lkEvent_cut, ↓State.nakE_cut, ↓State.acceptFlit_cut, ↓State.flitAhead_cut, ↓State.dropFlit_cut, ↓State.takePayload_cut, ↓apply_ite (State.cut m), ite_self, m_regs, m_pwr, m_hst, m_evt, m_rdg, m_fst, m_links, m_thm, m_hrt, m_bnk, m_freeN, m_out]

theorem State.takeFlit_cut {m : Area → Bool} (s : State) (q : ℕ) (f : Flit) (m_regs : m .regs := by assumption) (m_pwr : m .pwr := by assumption) (m_hst : m .hst := by assumption) (m_evt : m .evt := by assumption) (m_rdg : m .rdg := by assumption) (m_fst : m .fst := by assumption) (m_links : m .links := by assumption) (m_thm : m .thm := by assumption) (m_hrt : m .hrt := by assumption) (m_bnk : m .bnk := by assumption) (m_freeN : m .freeN := by assumption) (m_out : m .out := by assumption) :
    (State.takeFlit s q f).cut m = s.cut m := by
  unfold State.takeFlit
  simp only [↓State.onLink_cut, ↓State.protoError_cut, ↓State.takeAck_cut, ↓State.nakE_cut, ↓State.dropFlit_cut, ↓State.takeSequenced_cut, ↓apply_ite (State.cut m), ite_self, m_regs, m_pwr, m_hst, m_evt, m_rdg, m_fst, m_links, m_thm, m_hrt, m_bnk, m_freeN, m_out]

theorem execFlitReceive_cut {m : Area → Bool} (q : Fin 8) (f : Flit) (s : State) (m_regs : m .regs := by assumption) (m_pwr : m .pwr := by assumption) (m_hst : m .hst := by assumption) (m_evt : m .evt := by assumption) (m_rdg : m .rdg := by assumption) (m_fst : m .fst := by assumption) (m_links : m .links := by assumption) (m_thm : m .thm := by assumption) (m_hrt : m .hrt := by assumption) (m_bnk : m .bnk := by assumption) (m_freeN : m .freeN := by assumption) (m_out : m .out := by assumption) :
    outCut m (execFlitReceive q f s) = some (s.cut m) := by
  unfold execFlitReceive
  simp only [↓State.emit_cut, ↓State.takeBad_cut, ↓State.takeFlit_cut, ↓apply_ite (State.cut m), ite_self, ↓outCut_next, ↓apply_ite (outCut m), m_regs, m_pwr, m_hst, m_evt, m_rdg, m_fst, m_links, m_thm, m_hrt, m_bnk, m_freeN, m_out]

theorem execSectorForward_cut {m : Area → Bool} (q : Fin 8) (sector : Sector) (s : State) (m_regs : m .regs := by assumption) (m_evt : m .evt := by assumption) (m_fst : m .fst := by assumption) (m_links : m .links := by assumption) (m_bnk : m .bnk := by assumption) :
    outCut m (execSectorForward q sector s) = some (s.cut m) := by
  unfold execSectorForward
  simp only [↓State.onLink_cut, ↓State.takeBytes_cut, ↓apply_ite (State.cut m), ite_self, ↓outCut_next, ↓apply_ite (outCut m), m_regs, m_evt, m_fst, m_links, m_bnk]

theorem State.answerOp_cut {m : Area → Bool} (s : State) (isRead : Bool) (v : Word) (m_out : m .out := by assumption) :
    (State.answerOp s isRead v).cut m = s.cut m := by
  unfold State.answerOp
  simp only [↓State.emit_cut, ↓apply_ite (State.cut m), ite_self, m_out]

theorem State.relayFail_cut {m : Area → Bool} (s : State) (isRead : Bool) (m_regs : m .regs := by assumption) (m_evt : m .evt := by assumption) (m_out : m .out := by assumption) :
    (State.relayFail s isRead).cut m = s.cut m := by
  unfold State.relayFail
  simp only [↓State.event_cut, ↓State.answerOp_cut, ↓apply_ite (State.cut m), ite_self, m_regs, m_evt, m_out]

theorem State.doorbell_cut {m : Area → Bool} (s : State) (a : ℕ) (be : ℕ) (v : Word) (m_regs : m .regs := by assumption) (m_hst : m .hst := by assumption) (m_evt : m .evt := by assumption) (m_rdg : m .rdg := by assumption) (m_links : m .links := by assumption) (m_out : m .out := by assumption) :
    (State.doorbell s a be v).cut m = s.cut m := by
  unfold State.doorbell
  simp only [↓State.writeSqTail_cut, ↓State.writeCqHead_cut, ↓apply_ite (State.cut m), ite_self, m_regs, m_hst, m_evt, m_rdg, m_links, m_out]

theorem State.ownAccess_cut {m : Area → Bool} (s : State) (w : ℕ) (bar2 : Bool) (a : ℕ) (op : RelayOp) (m_regs : m .regs := by assumption) (m_rst : m .rst := by assumption) (m_pwr : m .pwr := by assumption) (m_hst : m .hst := by assumption) (m_stg : m .stg := by assumption) (m_tabs : m .tabs := by assumption) (m_evt : m .evt := by assumption) (m_gen : m .gen := by assumption) (m_rdg : m .rdg := by assumption) (m_fst : m .fst := by assumption) (m_links : m .links := by assumption) (m_thm : m .thm := by assumption) (m_drv : m .drv := by assumption) (m_pipe : m .pipe := by assumption) (m_cal : m .cal := by assumption) (m_pnl : m .pnl := by assumption) (m_hrt : m .hrt := by assumption) (m_bnk : m .bnk := by assumption) (m_win : m .win := by assumption) (m_mag : m .mag := by assumption) (m_thc : m .thc := by assumption) (m_relay : m .relay := by assumption) (m_jtag : m .jtag := by assumption) (m_fmask : m .fmask := by assumption) (m_aon : m .aon := by assumption) (m_freeN : m .freeN := by assumption) (m_fsEpoch : m .fsEpoch := by assumption) (m_out : m .out := by assumption) :
    (State.ownAccess s w bar2 a op).cut m = s.cut m := by
  unfold State.ownAccess
  repeat' (first | split | simp only [↓State.emit_cut, ↓State.barWrite_cut, ↓State.answer_cut, ↓State.doorbell_cut, m_regs, m_rst, m_pwr, m_hst, m_stg, m_tabs, m_evt, m_gen, m_rdg, m_fst, m_links, m_thm, m_drv, m_pipe, m_cal, m_pnl, m_hrt, m_bnk, m_win, m_mag, m_thc, m_relay, m_jtag, m_fmask, m_aon, m_freeN, m_fsEpoch, m_out])

theorem State.issueRelay_cut {m : Area → Bool} (s : State) (w : ℕ) (off : ℕ) (op : RelayOp) (m_regs : m .regs := by assumption) (m_rst : m .rst := by assumption) (m_pwr : m .pwr := by assumption) (m_hst : m .hst := by assumption) (m_stg : m .stg := by assumption) (m_tabs : m .tabs := by assumption) (m_evt : m .evt := by assumption) (m_gen : m .gen := by assumption) (m_rdg : m .rdg := by assumption) (m_fst : m .fst := by assumption) (m_links : m .links := by assumption) (m_thm : m .thm := by assumption) (m_drv : m .drv := by assumption) (m_pipe : m .pipe := by assumption) (m_cal : m .cal := by assumption) (m_pnl : m .pnl := by assumption) (m_hrt : m .hrt := by assumption) (m_bnk : m .bnk := by assumption) (m_win : m .win := by assumption) (m_mag : m .mag := by assumption) (m_thc : m .thc := by assumption) (m_relay : m .relay := by assumption) (m_jtag : m .jtag := by assumption) (m_fmask : m .fmask := by assumption) (m_aon : m .aon := by assumption) (m_freeN : m .freeN := by assumption) (m_fsEpoch : m .fsEpoch := by assumption) (m_out : m .out := by assumption) :
    (State.issueRelay s w off op).cut m = s.cut m := by
  unfold State.issueRelay
  simp only [↓State.onHst_cut, ↓State.unicast_cut, ↓State.event_cut, ↓State.answerOp_cut, ↓State.relayFail_cut, ↓State.ownAccess_cut, ↓apply_ite (State.cut m), ite_self, m_regs, m_rst, m_pwr, m_hst, m_stg, m_tabs, m_evt, m_gen, m_rdg, m_fst, m_links, m_thm, m_drv, m_pipe, m_cal, m_pnl, m_hrt, m_bnk, m_win, m_mag, m_thc, m_relay, m_jtag, m_fmask, m_aon, m_freeN, m_fsEpoch, m_out]

theorem State.pumpList_cut {m : Area → Bool} (w : ℕ) (x1 : List WinWait) (a2 : State) (m_regs : m .regs := by assumption) (m_rst : m .rst := by assumption) (m_pwr : m .pwr := by assumption) (m_hst : m .hst := by assumption) (m_stg : m .stg := by assumption) (m_tabs : m .tabs := by assumption) (m_evt : m .evt := by assumption) (m_gen : m .gen := by assumption) (m_rdg : m .rdg := by assumption) (m_fst : m .fst := by assumption) (m_links : m .links := by assumption) (m_thm : m .thm := by assumption) (m_drv : m .drv := by assumption) (m_pipe : m .pipe := by assumption) (m_cal : m .cal := by assumption) (m_pnl : m .pnl := by assumption) (m_hrt : m .hrt := by assumption) (m_bnk : m .bnk := by assumption) (m_win : m .win := by assumption) (m_mag : m .mag := by assumption) (m_thc : m .thc := by assumption) (m_relay : m .relay := by assumption) (m_jtag : m .jtag := by assumption) (m_fmask : m .fmask := by assumption) (m_aon : m .aon := by assumption) (m_freeN : m .freeN := by assumption) (m_fsEpoch : m .fsEpoch := by assumption) (m_out : m .out := by assumption) :
    (State.pumpList w x1 a2).cut m = a2.cut m := by
  fun_induction State.pumpList w x1 a2
  repeat' (first | split | simp_all only [↓State.setReg_cut, ↓State.onHst_cut, ↓State.issueRelay_cut, m_regs, m_rst, m_pwr, m_hst, m_stg, m_tabs, m_evt, m_gen, m_rdg, m_fst, m_links, m_thm, m_drv, m_pipe, m_cal, m_pnl, m_hrt, m_bnk, m_win, m_mag, m_thc, m_relay, m_jtag, m_fmask, m_aon, m_freeN, m_fsEpoch, m_out])

theorem State.pumpWindow_cut {m : Area → Bool} (s : State) (w : ℕ) (m_regs : m .regs := by assumption) (m_rst : m .rst := by assumption) (m_pwr : m .pwr := by assumption) (m_hst : m .hst := by assumption) (m_stg : m .stg := by assumption) (m_tabs : m .tabs := by assumption) (m_evt : m .evt := by assumption) (m_gen : m .gen := by assumption) (m_rdg : m .rdg := by assumption) (m_fst : m .fst := by assumption) (m_links : m .links := by assumption) (m_thm : m .thm := by assumption) (m_drv : m .drv := by assumption) (m_pipe : m .pipe := by assumption) (m_cal : m .cal := by assumption) (m_pnl : m .pnl := by assumption) (m_hrt : m .hrt := by assumption) (m_bnk : m .bnk := by assumption) (m_win : m .win := by assumption) (m_mag : m .mag := by assumption) (m_thc : m .thc := by assumption) (m_relay : m .relay := by assumption) (m_jtag : m .jtag := by assumption) (m_fmask : m .fmask := by assumption) (m_aon : m .aon := by assumption) (m_freeN : m .freeN := by assumption) (m_fsEpoch : m .fsEpoch := by assumption) (m_out : m .out := by assumption) :
    (State.pumpWindow s w).cut m = s.cut m := by
  unfold State.pumpWindow
  simp only [↓State.onHst_cut, ↓State.pumpList_cut, ↓apply_ite (State.cut m), ite_self, m_regs, m_rst, m_pwr, m_hst, m_stg, m_tabs, m_evt, m_gen, m_rdg, m_fst, m_links, m_thm, m_drv, m_pipe, m_cal, m_pnl, m_hrt, m_bnk, m_win, m_mag, m_thc, m_relay, m_jtag, m_fmask, m_aon, m_freeN, m_fsEpoch, m_out]

theorem State.relayAccess_cut {m : Area → Bool} (s : State) (w : ℕ) (off : ℕ) (op : RelayOp) (m_regs : m .regs := by assumption) (m_rst : m .rst := by assumption) (m_pwr : m .pwr := by assumption) (m_hst : m .hst := by assumption) (m_stg : m .stg := by assumption) (m_tabs : m .tabs := by assumption) (m_evt : m .evt := by assumption) (m_gen : m .gen := by assumption) (m_rdg : m .rdg := by assumption) (m_fst : m .fst := by assumption) (m_links : m .links := by assumption) (m_thm : m .thm := by assumption) (m_drv : m .drv := by assumption) (m_pipe : m .pipe := by assumption) (m_cal : m .cal := by assumption) (m_pnl : m .pnl := by assumption) (m_hrt : m .hrt := by assumption) (m_bnk : m .bnk := by assumption) (m_win : m .win := by assumption) (m_mag : m .mag := by assumption) (m_thc : m .thc := by assumption) (m_relay : m .relay := by assumption) (m_jtag : m .jtag := by assumption) (m_fmask : m .fmask := by assumption) (m_aon : m .aon := by assumption) (m_freeN : m .freeN := by assumption) (m_fsEpoch : m .fsEpoch := by assumption) (m_out : m .out := by assumption) :
    (State.relayAccess s w off op).cut m = s.cut m := by
  unfold State.relayAccess
  simp only [↓State.onHst_cut, ↓State.event_cut, ↓State.issueRelay_cut, ↓apply_ite (State.cut m), ite_self, m_regs, m_rst, m_pwr, m_hst, m_stg, m_tabs, m_evt, m_gen, m_rdg, m_fst, m_links, m_thm, m_drv, m_pipe, m_cal, m_pnl, m_hrt, m_bnk, m_win, m_mag, m_thc, m_relay, m_jtag, m_fmask, m_aon, m_freeN, m_fsEpoch, m_out]

theorem execRelayAccess_cut {m : Area → Bool} (w : Fin 4) (off : ℕ) (acc : RelayOp) (s : State) (m_regs : m .regs := by assumption) (m_rst : m .rst := by assumption) (m_pwr : m .pwr := by assumption) (m_hst : m .hst := by assumption) (m_stg : m .stg := by assumption) (m_tabs : m .tabs := by assumption) (m_evt : m .evt := by assumption) (m_gen : m .gen := by assumption) (m_rdg : m .rdg := by assumption) (m_fst : m .fst := by assumption) (m_links : m .links := by assumption) (m_thm : m .thm := by assumption) (m_drv : m .drv := by assumption) (m_pipe : m .pipe := by assumption) (m_cal : m .cal := by assumption) (m_pnl : m .pnl := by assumption) (m_hrt : m .hrt := by assumption) (m_bnk : m .bnk := by assumption) (m_win : m .win := by assumption) (m_mag : m .mag := by assumption) (m_thc : m .thc := by assumption) (m_relay : m .relay := by assumption) (m_jtag : m .jtag := by assumption) (m_fmask : m .fmask := by assumption) (m_aon : m .aon := by assumption) (m_freeN : m .freeN := by assumption) (m_fsEpoch : m .fsEpoch := by assumption) (m_out : m .out := by assumption) :
    outCut m (execRelayAccess w off acc s) = some (s.cut m) := by
  unfold execRelayAccess
  repeat' (first | (refine congrArg some ?_) | (with_reducible refine (State.viaHst_cut (h_f := fun y0 => ?_) (s := _)).trans ?_) | split | simp only [↓State.relayAccess_cut, m_regs, m_rst, m_pwr, m_hst, m_stg, m_tabs, m_evt, m_gen, m_rdg, m_fst, m_links, m_thm, m_drv, m_pipe, m_cal, m_pnl, m_hrt, m_bnk, m_win, m_mag, m_thc, m_relay, m_jtag, m_fmask, m_aon, m_freeN, m_fsEpoch, m_out])

theorem execHstRlySelWrite_cut {m : Area → Bool} (w : Fin 4) (v : Word) (s : State) (m_regs : m .regs := by assumption) (m_hst : m .hst := by assumption) (m_evt : m .evt := by assumption) :
    outCut m (execHstRlySelWrite w v s) = some (s.cut m) := by
  unfold execHstRlySelWrite
  repeat' (first | (refine congrArg some ?_) | (with_reducible refine (State.viaHst_cut (h_f := fun y0 => ?_) (s := _)).trans ?_) | split | simp only [↓State.writeRlySel_cut, m_regs, m_hst, m_evt])

theorem execBar0Write_cut {m : Area → Bool} (off : ℕ) (be : BitVec 4) (v : Word) (s : State) (m_regs : m .regs := by assumption) (m_rst : m .rst := by assumption) (m_pwr : m .pwr := by assumption) (m_hst : m .hst := by assumption) (m_stg : m .stg := by assumption) (m_tabs : m .tabs := by assumption) (m_evt : m .evt := by assumption) (m_gen : m .gen := by assumption) (m_rdg : m .rdg := by assumption) (m_fst : m .fst := by assumption) (m_links : m .links := by assumption) (m_thm : m .thm := by assumption) (m_drv : m .drv := by assumption) (m_pipe : m .pipe := by assumption) (m_cal : m .cal := by assumption) (m_pnl : m .pnl := by assumption) (m_hrt : m .hrt := by assumption) (m_bnk : m .bnk := by assumption) (m_win : m .win := by assumption) (m_mag : m .mag := by assumption) (m_thc : m .thc := by assumption) (m_relay : m .relay := by assumption) (m_jtag : m .jtag := by assumption) (m_fmask : m .fmask := by assumption) (m_aon : m .aon := by assumption) (m_freeN : m .freeN := by assumption) (m_fsEpoch : m .fsEpoch := by assumption) (m_out : m .out := by assumption) :
    outCut m (execBar0Write off be v s) = some (s.cut m) := by
  unfold execBar0Write
  repeat' (first | (refine congrArg some ?_) | (with_reducible refine (State.viaHst_cut (h_f := fun y0 => ?_) (s := _)).trans ?_) | split | simp only [↓State.barWrite_cut, ↓State.relayAccess_cut, m_regs, m_rst, m_pwr, m_hst, m_stg, m_tabs, m_evt, m_gen, m_rdg, m_fst, m_links, m_thm, m_drv, m_pipe, m_cal, m_pnl, m_hrt, m_bnk, m_win, m_mag, m_thc, m_relay, m_jtag, m_fmask, m_aon, m_freeN, m_fsEpoch, m_out])

theorem State.pumpWindows_cut {m : Area → Bool} (s : State) (m_regs : m .regs := by assumption) (m_rst : m .rst := by assumption) (m_pwr : m .pwr := by assumption) (m_hst : m .hst := by assumption) (m_stg : m .stg := by assumption) (m_tabs : m .tabs := by assumption) (m_evt : m .evt := by assumption) (m_gen : m .gen := by assumption) (m_rdg : m .rdg := by assumption) (m_fst : m .fst := by assumption) (m_links : m .links := by assumption) (m_thm : m .thm := by assumption) (m_drv : m .drv := by assumption) (m_pipe : m .pipe := by assumption) (m_cal : m .cal := by assumption) (m_pnl : m .pnl := by assumption) (m_hrt : m .hrt := by assumption) (m_bnk : m .bnk := by assumption) (m_win : m .win := by assumption) (m_mag : m .mag := by assumption) (m_thc : m .thc := by assumption) (m_relay : m .relay := by assumption) (m_jtag : m .jtag := by assumption) (m_fmask : m .fmask := by assumption) (m_aon : m .aon := by assumption) (m_freeN : m .freeN := by assumption) (m_fsEpoch : m .fsEpoch := by assumption) (m_out : m .out := by assumption) :
    (State.pumpWindows s).cut m = s.cut m := by
  unfold State.pumpWindows
  repeat' (first | (with_reducible refine (foldl_cut _ _ _ fun s x => ?_).trans ?_) | split | simp only [↓State.pumpWindow_cut, m_regs, m_rst, m_pwr, m_hst, m_stg, m_tabs, m_evt, m_gen, m_rdg, m_fst, m_links, m_thm, m_drv, m_pipe, m_cal, m_pnl, m_hrt, m_bnk, m_win, m_mag, m_thc, m_relay, m_jtag, m_fmask, m_aon, m_freeN, m_fsEpoch, m_out])

theorem execDomainOn_cut {m : Area → Bool} (d : Fin 34) (s : State) (m_regs : m .regs := by assumption) (m_rst : m .rst := by assumption) (m_pwr : m .pwr := by assumption) (m_hst : m .hst := by assumption) (m_stg : m .stg := by assumption) (m_tabs : m .tabs := by assumption) (m_evt : m .evt := by assumption) (m_gen : m .gen := by assumption) (m_rdg : m .rdg := by assumption) (m_fst : m .fst := by assumption) (m_links : m .links := by assumption) (m_thm : m .thm := by assumption) (m_drv : m .drv := by assumption) (m_pipe : m .pipe := by assumption) (m_cal : m .cal := by assumption) (m_pnl : m .pnl := by assumption) (m_hrt : m .hrt := by assumption) (m_bnk : m .bnk := by assumption) (m_win : m .win := by assumption) (m_mag : m .mag := by assumption) (m_thc : m .thc := by assumption) (m_relay : m .relay := by assumption) (m_jtag : m .jtag := by assumption) (m_fmask : m .fmask := by assumption) (m_aon : m .aon := by assumption) (m_freeN : m .freeN := by assumption) (m_fsEpoch : m .fsEpoch := by assumption) (m_out : m .out := by assumption) :
    outCut m (execDomainOn d s) = some (s.cut m) := by
  unfold execDomainOn
  simp only [↓State.domainArrives_cut, ↓State.retryLists_cut, ↓State.retryWaiters_cut, ↓State.pumpWindows_cut, ↓apply_ite (State.cut m), ite_self, ↓outCut_next, ↓apply_ite (outCut m), m_regs, m_rst, m_pwr, m_hst, m_stg, m_tabs, m_evt, m_gen, m_rdg, m_fst, m_links, m_thm, m_drv, m_pipe, m_cal, m_pnl, m_hrt, m_bnk, m_win, m_mag, m_thc, m_relay, m_jtag, m_fmask, m_aon, m_freeN, m_fsEpoch, m_out]

theorem execPwrWakeFail_cut {m : Area → Bool} (d : Fin 34) (s : State) (m_regs : m .regs := by assumption) (m_rst : m .rst := by assumption) (m_pwr : m .pwr := by assumption) (m_hst : m .hst := by assumption) (m_stg : m .stg := by assumption) (m_tabs : m .tabs := by assumption) (m_evt : m .evt := by assumption) (m_gen : m .gen := by assumption) (m_rdg : m .rdg := by assumption) (m_fst : m .fst := by assumption) (m_links : m .links := by assumption) (m_thm : m .thm := by assumption) (m_drv : m .drv := by assumption) (m_pipe : m .pipe := by assumption) (m_cal : m .cal := by assumption) (m_pnl : m .pnl := by assumption) (m_hrt : m .hrt := by assumption) (m_bnk : m .bnk := by assumption) (m_win : m .win := by assumption) (m_mag : m .mag := by assumption) (m_thc : m .thc := by assumption) (m_relay : m .relay := by assumption) (m_jtag : m .jtag := by assumption) (m_fmask : m .fmask := by assumption) (m_aon : m .aon := by assumption) (m_freeN : m .freeN := by assumption) (m_fsEpoch : m .fsEpoch := by assumption) (m_out : m .out := by assumption) :
    outCut m (execPwrWakeFail d s) = some (s.cut m) := by
  unfold execPwrWakeFail
  simp only [↓State.event_cut, ↓State.dropStalled_cut, ↓State.failLists_cut, ↓State.failTables_cut, ↓State.failJobs_cut, ↓State.pumpWindows_cut, ↓apply_ite (State.cut m), ite_self, ↓outCut_next, ↓apply_ite (outCut m), m_regs, m_rst, m_pwr, m_hst, m_stg, m_tabs, m_evt, m_gen, m_rdg, m_fst, m_links, m_thm, m_drv, m_pipe, m_cal, m_pnl, m_hrt, m_bnk, m_win, m_mag, m_thc, m_relay, m_jtag, m_fmask, m_aon, m_freeN, m_fsEpoch, m_out]

theorem State.endRelay1_cut {m : Area → Bool} (s : State) (p : RelayPend) (v : Option Word) (m_regs : m .regs := by assumption) (m_rst : m .rst := by assumption) (m_pwr : m .pwr := by assumption) (m_hst : m .hst := by assumption) (m_stg : m .stg := by assumption) (m_tabs : m .tabs := by assumption) (m_evt : m .evt := by assumption) (m_gen : m .gen := by assumption) (m_rdg : m .rdg := by assumption) (m_fst : m .fst := by assumption) (m_links : m .links := by assumption) (m_thm : m .thm := by assumption) (m_drv : m .drv := by assumption) (m_pipe : m .pipe := by assumption) (m_cal : m .cal := by assumption) (m_pnl : m .pnl := by assumption) (m_hrt : m .hrt := by assumption) (m_bnk : m .bnk := by assumption) (m_win : m .win := by assumption) (m_mag : m .mag := by assumption) (m_thc : m .thc := by assumption) (m_relay : m .relay := by assumption) (m_jtag : m .jtag := by assumption) (m_fmask : m .fmask := by assumption) (m_aon : m .aon := by assumption) (m_freeN : m .freeN := by assumption) (m_fsEpoch : m .fsEpoch := by assumption) (m_out : m .out := by assumption) :
    (State.endRelay1 s p v).cut m = s.cut m := by
  unfold State.endRelay1
  repeat' (first | split | simp only [↓State.onHst_cut, ↓State.answerOp_cut, ↓State.relayFail_cut, ↓State.pumpWindow_cut, m_regs, m_rst, m_pwr, m_hst, m_stg, m_tabs, m_evt, m_gen, m_rdg, m_fst, m_links, m_thm, m_drv, m_pipe, m_cal, m_pnl, m_hrt, m_bnk, m_win, m_mag, m_thc, m_relay, m_jtag, m_fmask, m_aon, m_freeN, m_fsEpoch, m_out])

theorem execRelayTimeout_cut {m : Area → Bool} (tag : ℕ) (s : State) (m_regs : m .regs := by assumption) (m_rst : m .rst := by assumption) (m_pwr : m .pwr := by assumption) (m_hst : m .hst := by assumption) (m_stg : m .stg := by assumption) (m_tabs : m .tabs := by assumption) (m_evt : m .evt := by assumption) (m_gen : m .gen := by assumption) (m_rdg : m .rdg := by assumption) (m_fst : m .fst := by assumption) (m_links : m .links := by assumption) (m_thm : m .thm := by assumption) (m_drv : m .drv := by assumption) (m_pipe : m .pipe := by assumption) (m_cal : m .cal := by assumption) (m_pnl : m .pnl := by assumption) (m_hrt : m .hrt := by assumption) (m_bnk : m .bnk := by assumption) (m_win : m .win := by assumption) (m_mag : m .mag := by assumption) (m_thc : m .thc := by assumption) (m_relay : m .relay := by assumption) (m_jtag : m .jtag := by assumption) (m_fmask : m .fmask := by assumption) (m_aon : m .aon := by assumption) (m_freeN : m .freeN := by assumption) (m_fsEpoch : m .fsEpoch := by assumption) (m_out : m .out := by assumption) :
    outCut m (execRelayTimeout tag s) = some (s.cut m) := by
  unfold execRelayTimeout
  repeat' (first | (refine congrArg some ?_) | split | simp only [↓State.endRelay1_cut, m_regs, m_rst, m_pwr, m_hst, m_stg, m_tabs, m_evt, m_gen, m_rdg, m_fst, m_links, m_thm, m_drv, m_pipe, m_cal, m_pnl, m_hrt, m_bnk, m_win, m_mag, m_thc, m_relay, m_jtag, m_fmask, m_aon, m_freeN, m_fsEpoch, m_out])

theorem State.bounced_cut {m : Area → Bool} (s : State) (role : ℕ) (m_regs : m .regs := by assumption) (m_rst : m .rst := by assumption) (m_pwr : m .pwr := by assumption) (m_hst : m .hst := by assumption) (m_stg : m .stg := by assumption) (m_tabs : m .tabs := by assumption) (m_evt : m .evt := by assumption) (m_gen : m .gen := by assumption) (m_rdg : m .rdg := by assumption) (m_fst : m .fst := by assumption) (m_links : m .links := by assumption) (m_thm : m .thm := by assumption) (m_drv : m .drv := by assumption) (m_pipe : m .pipe := by assumption) (m_cal : m .cal := by assumption) (m_pnl : m .pnl := by assumption) (m_hrt : m .hrt := by assumption) (m_bnk : m .bnk := by assumption) (m_win : m .win := by assumption) (m_mag : m .mag := by assumption) (m_thc : m .thc := by assumption) (m_relay : m .relay := by assumption) (m_jtag : m .jtag := by assumption) (m_fmask : m .fmask := by assumption) (m_aon : m .aon := by assumption) (m_freeN : m .freeN := by assumption) (m_fsEpoch : m .fsEpoch := by assumption) (m_out : m .out := by assumption) :
    (State.bounced s role).cut m = s.cut m := by
  unfold State.bounced
  repeat' (first | split | simp only [↓State.endRelay1_cut, m_regs, m_rst, m_pwr, m_hst, m_stg, m_tabs, m_evt, m_gen, m_rdg, m_fst, m_links, m_thm, m_drv, m_pipe, m_cal, m_pnl, m_hrt, m_bnk, m_win, m_mag, m_thc, m_relay, m_jtag, m_fmask, m_aon, m_freeN, m_fsEpoch, m_out])

theorem execRoleMoved_cut {m : Area → Bool} (h : RidgeHdr) (b : RoleMoved) (s : State) (m_regs : m .regs := by assumption) (m_rst : m .rst := by assumption) (m_pwr : m .pwr := by assumption) (m_hst : m .hst := by assumption) (m_stg : m .stg := by assumption) (m_tabs : m .tabs := by assumption) (m_evt : m .evt := by assumption) (m_gen : m .gen := by assumption) (m_rdg : m .rdg := by assumption) (m_fst : m .fst := by assumption) (m_links : m .links := by assumption) (m_thm : m .thm := by assumption) (m_drv : m .drv := by assumption) (m_pipe : m .pipe := by assumption) (m_cal : m .cal := by assumption) (m_pnl : m .pnl := by assumption) (m_hrt : m .hrt := by assumption) (m_bnk : m .bnk := by assumption) (m_win : m .win := by assumption) (m_mag : m .mag := by assumption) (m_thc : m .thc := by assumption) (m_relay : m .relay := by assumption) (m_jtag : m .jtag := by assumption) (m_fmask : m .fmask := by assumption) (m_aon : m .aon := by assumption) (m_freeN : m .freeN := by assumption) (m_fsEpoch : m .fsEpoch := by assumption) (m_out : m .out := by assumption) :
    outCut m (execRoleMoved h b s) = some (s.cut m) := by
  unfold execRoleMoved
  repeat' (first | (refine congrArg some ?_) | (with_reducible refine (State.takeUnicast_cut (h_act := fun y0 => ?_) (s := _) (h := _) (code := _) (epoch := _) (rest := _)).trans ?_) | split | simp only [↓State.event_cut, ↓State.bounced_cut, m_regs, m_rst, m_pwr, m_hst, m_stg, m_tabs, m_evt, m_gen, m_rdg, m_fst, m_links, m_thm, m_drv, m_pipe, m_cal, m_pnl, m_hrt, m_bnk, m_win, m_mag, m_thc, m_relay, m_jtag, m_fmask, m_aon, m_freeN, m_fsEpoch, m_out])

theorem State.takeHost_cut {m : Area → Bool} (s : State) (h : RidgeHdr) (b : HostBody) (kind : ℕ) (count : ℕ) (act : State → State) (h_act : ∀ y0, (act y0).cut m = y0.cut m) (m_regs : m .regs := by assumption) (m_links : m .links := by assumption) (m_out : m .out := by assumption) :
    (State.takeHost s h b kind count act).cut m = s.cut m := by
  unfold State.takeHost
  repeat' (first | (with_reducible refine (State.takeUnicast_cut (h_act := fun y0 => ?_) (s := _) (h := _) (code := _) (epoch := _) (rest := _)).trans ?_) | split | simp only [h_act, m_regs, m_links, m_out])

theorem execHostReadRequest_cut {m : Area → Bool} (h : RidgeHdr) (b : HostBody) (rlen : Word) (s : State) (m_regs : m .regs := by assumption) (m_hst : m .hst := by assumption) (m_rdg : m .rdg := by assumption) (m_links : m .links := by assumption) (m_out : m .out := by assumption) :
    outCut m (execHostReadRequest h b rlen s) = some (s.cut m) := by
  unfold execHostReadRequest
  repeat' (first | (refine congrArg some ?_) | (with_reducible refine (State.takeHost_cut (h_act := fun y0 => ?_) (s := _) (h := _) (b := _) (kind := _) (count := _)).trans ?_) | split | simp only [↓State.readHost_cut, ↓State.hostReply_cut, m_regs, m_hst, m_rdg, m_links, m_out])

theorem State.hostPut_cut {m : Area → Bool} (s : State) (h : RidgeHdr) (b : HostBody) (m_links : m .links := by assumption) (m_out : m .out := by assumption) :
    (State.hostPut s h b).cut m = s.cut m := by
  unfold State.hostPut
  simp only [↓State.emit_cut, ↓State.hostReply_cut, ↓apply_ite (State.cut m), ite_self, m_links, m_out]

theorem execHostWrite_cut {m : Area → Bool} (h : RidgeHdr) (b : HostBody) (s : State) (m_regs : m .regs := by assumption) (m_links : m .links := by assumption) (m_out : m .out := by assumption) :
    outCut m (execHostWrite h b s) = some (s.cut m) := by
  unfold execHostWrite
  repeat' (first | (refine congrArg some ?_) | (with_reducible refine (State.takeHost_cut (h_act := fun y0 => ?_) (s := _) (h := _) (b := _) (kind := _) (count := _)).trans ?_) | split | simp only [↓State.hostPut_cut, m_regs, m_links, m_out])

theorem execHostMsix_cut {m : Area → Bool} (h : RidgeHdr) (b : HostBody) (s : State) (m_regs : m .regs := by assumption) (m_links : m .links := by assumption) (m_out : m .out := by assumption) :
    outCut m (execHostMsix h b s) = some (s.cut m) := by
  unfold execHostMsix
  repeat' (first | (refine congrArg some ?_) | (with_reducible refine (State.takeHost_cut (h_act := fun y0 => ?_) (s := _) (h := _) (b := _) (kind := _) (count := _)).trans ?_) | split | simp only [↓State.hostPut_cut, m_regs, m_links, m_out])

theorem State.joinRead_cut {m : Area → Bool} (s : State) (rid : ℕ) (m_regs : m .regs := by assumption) (m_rst : m .rst := by assumption) (m_pwr : m .pwr := by assumption) (m_hst : m .hst := by assumption) (m_stg : m .stg := by assumption) (m_tabs : m .tabs := by assumption) (m_evt : m .evt := by assumption) (m_gen : m .gen := by assumption) (m_rdg : m .rdg := by assumption) (m_fst : m .fst := by assumption) (m_links : m .links := by assumption) (m_thm : m .thm := by assumption) (m_drv : m .drv := by assumption) (m_pipe : m .pipe := by assumption) (m_cal : m .cal := by assumption) (m_pnl : m .pnl := by assumption) (m_hrt : m .hrt := by assumption) (m_bnk : m .bnk := by assumption) (m_win : m .win := by assumption) (m_mag : m .mag := by assumption) (m_thc : m .thc := by assumption) (m_relay : m .relay := by assumption) (m_jtag : m .jtag := by assumption) (m_fmask : m .fmask := by assumption) (m_aon : m .aon := by assumption) (m_freeN : m .freeN := by assumption) (m_fsEpoch : m .fsEpoch := by assumption) (m_out : m .out := by assumption) :
    (State.joinRead s rid).cut m = s.cut m := by
  unfold State.joinRead
  repeat' (first | split | simp only [↓State.onRdg_cut, ↓State.drainHost_cut, ↓State.readDone_cut, m_regs, m_rst, m_pwr, m_hst, m_stg, m_tabs, m_evt, m_gen, m_rdg, m_fst, m_links, m_thm, m_drv, m_pipe, m_cal, m_pnl, m_hrt, m_bnk, m_win, m_mag, m_thc, m_relay, m_jtag, m_fmask, m_aon, m_freeN, m_fsEpoch, m_out])

theorem State.takeReadData_cut {m : Area → Bool} (s : State) (tag : ℕ) (addr : ℕ) (bs : List Byte) (m_regs : m .regs := by assumption) (m_rst : m .rst := by assumption) (m_pwr : m .pwr := by assumption) (m_hst : m .hst := by assumption) (m_stg : m .stg := by assumption) (m_tabs : m .tabs := by assumption) (m_evt : m .evt := by assumption) (m_gen : m .gen := by assumption) (m_rdg : m .rdg := by assumption) (m_fst : m .fst := by assumption) (m_links : m .links := by assumption) (m_thm : m .thm := by assumption) (m_drv : m .drv := by assumption) (m_pipe : m .pipe := by assumption) (m_cal : m .cal := by assumption) (m_pnl : m .pnl := by assumption) (m_hrt : m .hrt := by assumption) (m_bnk : m .bnk := by assumption) (m_win : m .win := by assumption) (m_mag : m .mag := by assumption) (m_thc : m .thc := by assumption) (m_relay : m .relay := by assumption) (m_jtag : m .jtag := by assumption) (m_fmask : m .fmask := by assumption) (m_aon : m .aon := by assumption) (m_freeN : m .freeN := by assumption) (m_fsEpoch : m .fsEpoch := by assumption) (m_out : m .out := by assumption) :
    (State.takeReadData s tag addr bs).cut m = s.cut m := by
  unfold State.takeReadData
  repeat' (first | split | simp only [↓State.onRdg_cut, ↓State.joinRead_cut, m_regs, m_rst, m_pwr, m_hst, m_stg, m_tabs, m_evt, m_gen, m_rdg, m_fst, m_links, m_thm, m_drv, m_pipe, m_cal, m_pnl, m_hrt, m_bnk, m_win, m_mag, m_thc, m_relay, m_jtag, m_fmask, m_aon, m_freeN, m_fsEpoch, m_out])

theorem execHostReadData_cut {m : Area → Bool} (h : RidgeHdr) (b : HostBody) (s : State) (m_regs : m .regs := by assumption) (m_rst : m .rst := by assumption) (m_pwr : m .pwr := by assumption) (m_hst : m .hst := by assumption) (m_stg : m .stg := by assumption) (m_tabs : m .tabs := by assumption) (m_evt : m .evt := by assumption) (m_gen : m .gen := by assumption) (m_rdg : m .rdg := by assumption) (m_fst : m .fst := by assumption) (m_links : m .links := by assumption) (m_thm : m .thm := by assumption) (m_drv : m .drv := by assumption) (m_pipe : m .pipe := by assumption) (m_cal : m .cal := by assumption) (m_pnl : m .pnl := by assumption) (m_hrt : m .hrt := by assumption) (m_bnk : m .bnk := by assumption) (m_win : m .win := by assumption) (m_mag : m .mag := by assumption) (m_thc : m .thc := by assumption) (m_relay : m .relay := by assumption) (m_jtag : m .jtag := by assumption) (m_fmask : m .fmask := by assumption) (m_aon : m .aon := by assumption) (m_freeN : m .freeN := by assumption) (m_fsEpoch : m .fsEpoch := by assumption) (m_out : m .out := by assumption) :
    outCut m (execHostReadData h b s) = some (s.cut m) := by
  unfold execHostReadData
  repeat' (first | (refine congrArg some ?_) | (with_reducible refine (State.takeHost_cut (h_act := fun y0 => ?_) (s := _) (h := _) (b := _) (kind := _) (count := _)).trans ?_) | split | simp only [↓State.takeReadData_cut, m_regs, m_rst, m_pwr, m_hst, m_stg, m_tabs, m_evt, m_gen, m_rdg, m_fst, m_links, m_thm, m_drv, m_pipe, m_cal, m_pnl, m_hrt, m_bnk, m_win, m_mag, m_thc, m_relay, m_jtag, m_fmask, m_aon, m_freeN, m_fsEpoch, m_out])

theorem State.dropTag_cut {m : Area → Bool} (s : State) (t : HostTag) (m_regs : m .regs := by assumption) (m_hst : m .hst := by assumption) (m_stg : m .stg := by assumption) (m_tabs : m .tabs := by assumption) (m_evt : m .evt := by assumption) (m_rdg : m .rdg := by assumption) (m_links : m .links := by assumption) (m_win : m .win := by assumption) (m_out : m .out := by assumption) :
    (State.dropTag s t).cut m = s.cut m := by
  unfold State.dropTag
  repeat' (first | split | simp only [↓State.onRdg_cut, ↓State.flushCpl_cut, ↓State.drainHost_cut, m_regs, m_hst, m_stg, m_tabs, m_evt, m_rdg, m_links, m_win, m_out])

theorem execHostWriteDone_cut {m : Area → Bool} (h : RidgeHdr) (b : HostBody) (s : State) (m_regs : m .regs := by assumption) (m_hst : m .hst := by assumption) (m_stg : m .stg := by assumption) (m_tabs : m .tabs := by assumption) (m_evt : m .evt := by assumption) (m_rdg : m .rdg := by assumption) (m_links : m .links := by assumption) (m_win : m .win := by assumption) (m_out : m .out := by assumption) :
    outCut m (execHostWriteDone h b s) = some (s.cut m) := by
  unfold execHostWriteDone
  repeat' (first | (refine congrArg some ?_) | (with_reducible refine (State.takeHost_cut (h_act := fun y0 => ?_) (s := _) (h := _) (b := _) (kind := _) (count := _)).trans ?_) | split | simp only [↓State.dropTag_cut, m_regs, m_hst, m_stg, m_tabs, m_evt, m_rdg, m_links, m_win, m_out])

theorem State.evtWriteFailed_cut {m : Area → Bool} (s : State) (bs : List Byte) (m_regs : m .regs := by assumption) (m_evt : m .evt := by assumption) :
    (State.evtWriteFailed s bs).cut m = s.cut m := by
  unfold State.evtWriteFailed
  simp only [↓State.setF_cut, ↓State.onEvt_cut, ↓State.syncEvtStat_cut, ↓apply_ite (State.cut m), ite_self, m_regs, m_evt]

theorem State.hostFailed_cut {m : Area → Bool} (s : State) (t : HostTag) (m_regs : m .regs := by assumption) (m_hst : m .hst := by assumption) (m_stg : m .stg := by assumption) (m_tabs : m .tabs := by assumption) (m_evt : m .evt := by assumption) (m_rdg : m .rdg := by assumption) (m_links : m .links := by assumption) (m_win : m .win := by assumption) (m_mag : m .mag := by assumption) (m_thc : m .thc := by assumption) (m_out : m .out := by assumption) :
    (State.hostFailed s t).cut m = s.cut m := by
  unfold State.hostFailed
  repeat' (first | split | simp only [↓State.onHst_cut, ↓State.onRdg_cut, ↓State.finish_cut, ↓State.cplFault_cut, ↓State.drainHost_cut, ↓State.dropWork_cut, ↓State.fetchFault_cut, ↓State.evtWriteFailed_cut, m_regs, m_hst, m_stg, m_tabs, m_evt, m_rdg, m_links, m_win, m_mag, m_thc, m_out])

theorem execHostRequestFailed_cut {m : Area → Bool} (h : RidgeHdr) (b : HostBody) (s : State) (m_regs : m .regs := by assumption) (m_rst : m .rst := by assumption) (m_pwr : m .pwr := by assumption) (m_hst : m .hst := by assumption) (m_stg : m .stg := by assumption) (m_tabs : m .tabs := by assumption) (m_evt : m .evt := by assumption) (m_gen : m .gen := by assumption) (m_rdg : m .rdg := by assumption) (m_fst : m .fst := by assumption) (m_links : m .links := by assumption) (m_thm : m .thm := by assumption) (m_drv : m .drv := by assumption) (m_pipe : m .pipe := by assumption) (m_cal : m .cal := by assumption) (m_pnl : m .pnl := by assumption) (m_hrt : m .hrt := by assumption) (m_bnk : m .bnk := by assumption) (m_win : m .win := by assumption) (m_mag : m .mag := by assumption) (m_thc : m .thc := by assumption) (m_relay : m .relay := by assumption) (m_jtag : m .jtag := by assumption) (m_fmask : m .fmask := by assumption) (m_aon : m .aon := by assumption) (m_freeN : m .freeN := by assumption) (m_fsEpoch : m .fsEpoch := by assumption) (m_out : m .out := by assumption) :
    outCut m (execHostRequestFailed h b s) = some (s.cut m) := by
  unfold execHostRequestFailed
  repeat' (first | (refine congrArg some ?_) | (with_reducible refine (State.takeHost_cut (h_act := fun y0 => ?_) (s := _) (h := _) (b := _) (kind := _) (count := _)).trans ?_) | split | simp only [↓State.endRelay1_cut, ↓State.hostFailed_cut, m_regs, m_rst, m_pwr, m_hst, m_stg, m_tabs, m_evt, m_gen, m_rdg, m_fst, m_links, m_thm, m_drv, m_pipe, m_cal, m_pnl, m_hrt, m_bnk, m_win, m_mag, m_thc, m_relay, m_jtag, m_fmask, m_aon, m_freeN, m_fsEpoch, m_out])

theorem execHostRelayTimeout_cut {m : Area → Bool} (tag : ℕ) (s : State) (m_regs : m .regs := by assumption) (m_hst : m .hst := by assumption) (m_stg : m .stg := by assumption) (m_tabs : m .tabs := by assumption) (m_evt : m .evt := by assumption) (m_rdg : m .rdg := by assumption) (m_links : m .links := by assumption) (m_win : m .win := by assumption) (m_mag : m .mag := by assumption) (m_thc : m .thc := by assumption) (m_out : m .out := by assumption) :
    outCut m (execHostRelayTimeout tag s) = some (s.cut m) := by
  unfold execHostRelayTimeout
  repeat' (first | (refine congrArg some ?_) | split | simp only [↓State.onRdg_cut, ↓State.sendTag_cut, ↓State.hostFailed_cut, m_regs, m_hst, m_stg, m_tabs, m_evt, m_rdg, m_links, m_win, m_mag, m_thc, m_out])

theorem execHostRelayRead_cut {m : Area → Bool} (h : RidgeHdr) (b : HostBody) (s : State) (m_regs : m .regs := by assumption) (m_pwr : m .pwr := by assumption) (m_evt : m .evt := by assumption) (m_gen : m .gen := by assumption) (m_links : m .links := by assumption) (m_freeN : m .freeN := by assumption) (m_out : m .out := by assumption) :
    outCut m (execHostRelayRead h b s) = some (s.cut m) := by
  unfold execHostRelayRead
  repeat' (first | (refine congrArg some ?_) | (with_reducible refine (State.takeHost_cut (h_act := fun y0 => ?_) (s := _) (h := _) (b := _) (kind := _) (count := _)).trans ?_) | split | simp only [↓State.remoteReply_cut, ↓State.answer_cut, m_regs, m_pwr, m_evt, m_gen, m_links, m_freeN, m_out])

theorem execHostRelayWrite_cut {m : Area → Bool} (h : RidgeHdr) (b : HostBody) (s : State) (m_regs : m .regs := by assumption) (m_rst : m .rst := by assumption) (m_pwr : m .pwr := by assumption) (m_hst : m .hst := by assumption) (m_stg : m .stg := by assumption) (m_tabs : m .tabs := by assumption) (m_evt : m .evt := by assumption) (m_gen : m .gen := by assumption) (m_rdg : m .rdg := by assumption) (m_fst : m .fst := by assumption) (m_links : m .links := by assumption) (m_thm : m .thm := by assumption) (m_drv : m .drv := by assumption) (m_pipe : m .pipe := by assumption) (m_cal : m .cal := by assumption) (m_pnl : m .pnl := by assumption) (m_hrt : m .hrt := by assumption) (m_bnk : m .bnk := by assumption) (m_win : m .win := by assumption) (m_mag : m .mag := by assumption) (m_thc : m .thc := by assumption) (m_relay : m .relay := by assumption) (m_jtag : m .jtag := by assumption) (m_fmask : m .fmask := by assumption) (m_aon : m .aon := by assumption) (m_freeN : m .freeN := by assumption) (m_fsEpoch : m .fsEpoch := by assumption) (m_out : m .out := by assumption) :
    outCut m (execHostRelayWrite h b s) = some (s.cut m) := by
  unfold execHostRelayWrite
  repeat' (first | (refine congrArg some ?_) | (with_reducible refine (State.takeHost_cut (h_act := fun y0 => ?_) (s := _) (h := _) (b := _) (kind := _) (count := _)).trans ?_) | split | simp only [↓State.barWrite_cut, ↓State.hostReply_cut, ↓State.doorbell_cut, m_regs, m_rst, m_pwr, m_hst, m_stg, m_tabs, m_evt, m_gen, m_rdg, m_fst, m_links, m_thm, m_drv, m_pipe, m_cal, m_pnl, m_hrt, m_bnk, m_win, m_mag, m_thc, m_relay, m_jtag, m_fmask, m_aon, m_freeN, m_fsEpoch, m_out])

theorem execHostRelayReadData_cut {m : Area → Bool} (h : RidgeHdr) (b : HostBody) (s : State) (m_regs : m .regs := by assumption) (m_rst : m .rst := by assumption) (m_pwr : m .pwr := by assumption) (m_hst : m .hst := by assumption) (m_stg : m .stg := by assumption) (m_tabs : m .tabs := by assumption) (m_evt : m .evt := by assumption) (m_gen : m .gen := by assumption) (m_rdg : m .rdg := by assumption) (m_fst : m .fst := by assumption) (m_links : m .links := by assumption) (m_thm : m .thm := by assumption) (m_drv : m .drv := by assumption) (m_pipe : m .pipe := by assumption) (m_cal : m .cal := by assumption) (m_pnl : m .pnl := by assumption) (m_hrt : m .hrt := by assumption) (m_bnk : m .bnk := by assumption) (m_win : m .win := by assumption) (m_mag : m .mag := by assumption) (m_thc : m .thc := by assumption) (m_relay : m .relay := by assumption) (m_jtag : m .jtag := by assumption) (m_fmask : m .fmask := by assumption) (m_aon : m .aon := by assumption) (m_freeN : m .freeN := by assumption) (m_fsEpoch : m .fsEpoch := by assumption) (m_out : m .out := by assumption) :
    outCut m (execHostRelayReadData h b s) = some (s.cut m) := by
  unfold execHostRelayReadData
  repeat' (first | (refine congrArg some ?_) | (with_reducible refine (State.takeHost_cut (h_act := fun y0 => ?_) (s := _) (h := _) (b := _) (kind := _) (count := _)).trans ?_) | split | simp only [↓State.endRelay1_cut, m_regs, m_rst, m_pwr, m_hst, m_stg, m_tabs, m_evt, m_gen, m_rdg, m_fst, m_links, m_thm, m_drv, m_pipe, m_cal, m_pnl, m_hrt, m_bnk, m_win, m_mag, m_thc, m_relay, m_jtag, m_fmask, m_aon, m_freeN, m_fsEpoch, m_out])

theorem execVcmdReset_cut {m : Area → Bool} (h : RidgeHdr) (b : VcmdBody) (s : State) (m_regs : m .regs := by assumption) (m_rst : m .rst := by assumption) (m_pwr : m .pwr := by assumption) (m_hst : m .hst := by assumption) (m_stg : m .stg := by assumption) (m_tabs : m .tabs := by assumption) (m_evt : m .evt := by assumption) (m_gen : m .gen := by assumption) (m_rdg : m .rdg := by assumption) (m_fst : m .fst := by assumption) (m_links : m .links := by assumption) (m_thm : m .thm := by assumption) (m_drv : m .drv := by assumption) (m_pipe : m .pipe := by assumption) (m_cal : m .cal := by assumption) (m_pnl : m .pnl := by assumption) (m_hrt : m .hrt := by assumption) (m_bnk : m .bnk := by assumption) (m_win : m .win := by assumption) (m_mag : m .mag := by assumption) (m_thc : m .thc := by assumption) (m_relay : m .relay := by assumption) (m_jtag : m .jtag := by assumption) (m_fmask : m .fmask := by assumption) (m_aon : m .aon := by assumption) (m_freeN : m .freeN := by assumption) (m_fsEpoch : m .fsEpoch := by assumption) (m_out : m .out := by assumption) :
    outCut m (execVcmdReset h b s) = some (s.cut m) := by
  unfold execVcmdReset
  repeat' (first | (refine congrArg some ?_) | (with_reducible refine (State.takeVcmdMsg_cut (h_act := fun y0 => ?_) (s := _) (h := _) (op := _) (b := _)).trans ?_) | split | simp only [↓State.warmReset_cut, m_regs, m_rst, m_pwr, m_hst, m_stg, m_tabs, m_evt, m_gen, m_rdg, m_fst, m_links, m_thm, m_drv, m_pipe, m_cal, m_pnl, m_hrt, m_bnk, m_win, m_mag, m_thc, m_relay, m_jtag, m_fmask, m_aon, m_freeN, m_fsEpoch, m_out])

theorem execVolResetSelf_cut {m : Area → Bool} (s : State) (m_regs : m .regs := by assumption) (m_rst : m .rst := by assumption) (m_pwr : m .pwr := by assumption) (m_hst : m .hst := by assumption) (m_stg : m .stg := by assumption) (m_tabs : m .tabs := by assumption) (m_evt : m .evt := by assumption) (m_gen : m .gen := by assumption) (m_rdg : m .rdg := by assumption) (m_fst : m .fst := by assumption) (m_links : m .links := by assumption) (m_thm : m .thm := by assumption) (m_drv : m .drv := by assumption) (m_pipe : m .pipe := by assumption) (m_cal : m .cal := by assumption) (m_pnl : m .pnl := by assumption) (m_hrt : m .hrt := by assumption) (m_bnk : m .bnk := by assumption) (m_win : m .win := by assumption) (m_mag : m .mag := by assumption) (m_thc : m .thc := by assumption) (m_relay : m .relay := by assumption) (m_jtag : m .jtag := by assumption) (m_fmask : m .fmask := by assumption) (m_aon : m .aon := by assumption) (m_freeN : m .freeN := by assumption) (m_fsEpoch : m .fsEpoch := by assumption) (m_out : m .out := by assumption) :
    outCut m (execVolResetSelf s) = some (s.cut m) := by
  unfold execVolResetSelf
  simp only [↓State.onRdg_cut, ↓State.warmReset_cut, ↓apply_ite (State.cut m), ite_self, ↓outCut_next, ↓apply_ite (outCut m), m_regs, m_rst, m_pwr, m_hst, m_stg, m_tabs, m_evt, m_gen, m_rdg, m_fst, m_links, m_thm, m_drv, m_pipe, m_cal, m_pnl, m_hrt, m_bnk, m_win, m_mag, m_thc, m_relay, m_jtag, m_fmask, m_aon, m_freeN, m_fsEpoch, m_out]

theorem execTraceLinkTick_cut {m : Area → Bool} (s : State) (m_regs : m .regs := by assumption) (m_evt : m .evt := by assumption) (m_links : m .links := by assumption) :
    outCut m (execTraceLinkTick s) = some (s.cut m) := by
  unfold execTraceLinkTick
  repeat' (first | (refine congrArg some ?_) | (with_reducible refine (foldl_cut _ _ _ fun s x => ?_).trans ?_) | split | simp only [↓State.onLink_cut, ↓State.trace_cut, m_regs, m_evt, m_links])

end Sys2Proof.Machine
end

