-- ==== Sys2Proof/Laws/Regs.lean ====
section
/-! SUPPORT. Laws of register fields and of the register file: what a write leaves. -/

namespace Sys2Proof.Machine

/-! ## Fields of a word -/

theorem withField_toNat (f : Fld) (n : Nat) (w : Word) (h : f.lsb ≤ f.msb) (hm : f.msb < 32) :
    (withField f n w).toNat = w.toNat / 2 ^ (f.msb + 1) * 2 ^ (f.msb + 1) + n % 2 ^ (f.msb + 1 - f.lsb) * 2 ^ f.lsb
      + w.toNat % 2 ^ f.lsb := by
  have hw : w.toNat < 2 ^ 32 := w.isLt
  have h1 : n % 2 ^ (f.msb + 1 - f.lsb) + 1 ≤ 2 ^ (f.msb + 1 - f.lsb) := Nat.mod_lt _ (by positivity)
  have h2 : w.toNat % 2 ^ f.lsb + 1 ≤ 2 ^ f.lsb := Nat.mod_lt _ (by positivity)
  have hs : 2 ^ (f.msb + 1 - f.lsb) * 2 ^ f.lsb = 2 ^ (f.msb + 1) := by rw [← pow_add]; congr 1; omega
  have h3 : (n % 2 ^ (f.msb + 1 - f.lsb) + 1) * 2 ^ f.lsb ≤ 2 ^ (f.msb + 1) := by
    rw [← hs]; exact Nat.mul_le_mul_right _ h1
  have hk : 2 ^ (f.msb + 1) * 2 ^ (32 - (f.msb + 1)) = 2 ^ 32 := by rw [← pow_add]; congr 1; omega
  have h4 : w.toNat / 2 ^ (f.msb + 1) < 2 ^ (32 - (f.msb + 1)) := by
    rw [Nat.div_lt_iff_lt_mul (by positivity)]; rw [Nat.mul_comm]; omega
  have h5 : (w.toNat / 2 ^ (f.msb + 1) + 1) * 2 ^ (f.msb + 1) ≤ 2 ^ 32 := by
    rw [← hk, Nat.mul_comm]; exact Nat.mul_le_mul_left _ h4
  rw [Nat.add_mul] at h3 h5
  have hlt : w.toNat / 2 ^ (f.msb + 1) * 2 ^ (f.msb + 1) + n % 2 ^ (f.msb + 1 - f.lsb) * 2 ^ f.lsb
      + w.toNat % 2 ^ f.lsb < 2 ^ 32 := by omega
  unfold withField
  rw [BitVec.toNat_ofNat, Nat.mod_eq_of_lt hlt]

/-- A field that was set reads as what was set, cut to its width. -/
theorem fieldOf_withField_same (f : Fld) (n : Nat) (w : Word) (h : f.lsb ≤ f.msb) (hm : f.msb < 32) :
    fieldOf f (withField f n w) = n % 2 ^ (f.msb + 1 - f.lsb) := by
  have hs : 2 ^ (f.msb + 1) = 2 ^ f.lsb * 2 ^ (f.msb + 1 - f.lsb) := by rw [← pow_add]; congr 1; omega
  have h2 : w.toNat % 2 ^ f.lsb < 2 ^ f.lsb := Nat.mod_lt _ (by positivity)
  unfold fieldOf
  rw [withField_toNat f n w h hm, hs]
  have e : w.toNat / (2 ^ f.lsb * 2 ^ (f.msb + 1 - f.lsb)) * (2 ^ f.lsb * 2 ^ (f.msb + 1 - f.lsb))
      + n % 2 ^ (f.msb + 1 - f.lsb) * 2 ^ f.lsb + w.toNat % 2 ^ f.lsb
      = w.toNat % 2 ^ f.lsb + 2 ^ f.lsb * (n % 2 ^ (f.msb + 1 - f.lsb)
        + 2 ^ (f.msb + 1 - f.lsb) * (w.toNat / (2 ^ f.lsb * 2 ^ (f.msb + 1 - f.lsb)))) := by ring
  rw [e, Nat.add_mul_div_left _ _ (by positivity), Nat.div_eq_of_lt h2, Nat.zero_add, Nat.add_mul_mod_self_left,
    Nat.mod_mod]

/-- A field set leaves every field beside it as it was. -/
theorem fieldOf_withField_ne (f g : Fld) (n : Nat) (w : Word) (h : f.lsb ≤ f.msb) (hm : f.msb < 32)
    (hg : g.msb < f.lsb ∧ g.lsb ≤ g.msb ∨ f.msb < g.lsb) : fieldOf g (withField f n w) = fieldOf g w := by
  have h2 : w.toNat % 2 ^ f.lsb < 2 ^ f.lsb := Nat.mod_lt _ (by positivity)
  unfold fieldOf
  rw [withField_toNat f n w h hm]
  rcases hg with ⟨hg, hl⟩ | hg
  · have hs : 2 ^ f.lsb = 2 ^ g.lsb * 2 ^ (f.lsb - g.lsb) := by rw [← pow_add]; congr 1; omega
    have hk : 2 ^ (f.lsb - g.lsb) = 2 ^ (g.msb + 1 - g.lsb) * 2 ^ (f.lsb - (g.msb + 1)) := by
      rw [← pow_add]; congr 1; omega
    have ht : 2 ^ (f.msb + 1) = 2 ^ f.lsb * 2 ^ (f.msb + 1 - f.lsb) := by rw [← pow_add]; congr 1; omega
    have key : ∀ x y : Nat, x % 2 ^ f.lsb = y % 2 ^ f.lsb →
        x / 2 ^ g.lsb % 2 ^ (g.msb + 1 - g.lsb) = y / 2 ^ g.lsb % 2 ^ (g.msb + 1 - g.lsb) := by
      intro x y hxy
      rw [hs] at hxy
      have hx := Nat.mod_mul_right_div_self x (2 ^ g.lsb) (2 ^ (f.lsb - g.lsb))
      have hy := Nat.mod_mul_right_div_self y (2 ^ g.lsb) (2 ^ (f.lsb - g.lsb))
      have hd : 2 ^ (g.msb + 1 - g.lsb) ∣ 2 ^ (f.lsb - g.lsb) := ⟨_, hk⟩
      rw [← Nat.mod_mod_of_dvd (x / 2 ^ g.lsb) hd, ← Nat.mod_mod_of_dvd (y / 2 ^ g.lsb) hd, ← hx, ← hy, hxy]
    apply key
    rw [ht]
    have e : w.toNat / (2 ^ f.lsb * 2 ^ (f.msb + 1 - f.lsb)) * (2 ^ f.lsb * 2 ^ (f.msb + 1 - f.lsb))
        + n % 2 ^ (f.msb + 1 - f.lsb) * 2 ^ f.lsb + w.toNat % 2 ^ f.lsb
        = w.toNat % 2 ^ f.lsb + 2 ^ f.lsb * (n % 2 ^ (f.msb + 1 - f.lsb)
          + 2 ^ (f.msb + 1 - f.lsb) * (w.toNat / (2 ^ f.lsb * 2 ^ (f.msb + 1 - f.lsb)))) := by ring
    rw [e, Nat.add_mul_mod_self_left, Nat.mod_mod]
  · have hs : 2 ^ g.lsb = 2 ^ (f.msb + 1) * 2 ^ (g.lsb - (f.msb + 1)) := by rw [← pow_add]; congr 1; omega
    have ht : 2 ^ (f.msb + 1 - f.lsb) * 2 ^ f.lsb = 2 ^ (f.msb + 1) := by rw [← pow_add]; congr 1; omega
    have h1 : n % 2 ^ (f.msb + 1 - f.lsb) + 1 ≤ 2 ^ (f.msb + 1 - f.lsb) := Nat.mod_lt _ (by positivity)
    have h3 : (n % 2 ^ (f.msb + 1 - f.lsb) + 1) * 2 ^ f.lsb ≤ 2 ^ (f.msb + 1) := by
      rw [← ht]; exact Nat.mul_le_mul_right _ h1
    rw [Nat.add_mul] at h3
    have hr : n % 2 ^ (f.msb + 1 - f.lsb) * 2 ^ f.lsb + w.toNat % 2 ^ f.lsb < 2 ^ (f.msb + 1) := by omega
    congr 1
    rw [hs, ← Nat.div_div_eq_div_mul, ← Nat.div_div_eq_div_mul, Nat.add_assoc, Nat.add_comm (_ * _) (_ + _),
      Nat.add_mul_div_right _ _ (by positivity), Nat.div_eq_of_lt hr, Nat.zero_add]

/-! ## The register file -/

/-- A register reads as what was written to it last. -/
theorem reg_setReg (s : State) (o k : Nat) (v : Word) : (s.setReg o v).reg k = if k = o then v else s.reg k := by
  unfold State.reg State.setReg; exact aget_aset _ _ _ _ _

@[simp] theorem reg_setReg_same (s : State) (o : Nat) (v : Word) : (s.setReg o v).reg o = v := by simp [reg_setReg]

theorem reg_setReg_ne (s : State) {o k : Nat} (v : Word) (h : k ≠ o) : (s.setReg o v).reg k = s.reg k := by
  simp [reg_setReg, h]

theorem reg_setF (s : State) (o k : Nat) (f : Fld) (n : Nat) :
    (s.setF o f n).reg k = if k = o then withField f n (s.reg o) else s.reg k := reg_setReg _ _ _ _

theorem reg_setF_ne (s : State) {o k : Nat} (f : Fld) (n : Nat) (h : k ≠ o) : (s.setF o f n).reg k = s.reg k :=
  reg_setReg_ne _ _ h

/-- A field reads as what the device set it to. -/
theorem getF_setF_same (s : State) (o : Nat) (f : Fld) (n : Nat) (h : f.lsb ≤ f.msb) (hm : f.msb < 32) :
    (s.setF o f n).getF o f = n % 2 ^ (f.msb + 1 - f.lsb) := by
  simp [State.getF, reg_setF, fieldOf_withField_same f n _ h hm]

theorem getF_setF_ne (s : State) {o k : Nat} (f g : Fld) (n : Nat) (h : k ≠ o) : (s.setF o f n).getF k g = s.getF k g := by
  simp [State.getF, reg_setF_ne s f n h]

/-- A field set leaves the register's other fields as they were. -/
theorem getF_setF_other (s : State) (o : Nat) (f g : Fld) (n : Nat) (h : f.lsb ≤ f.msb) (hm : f.msb < 32)
    (hg : g.msb < f.lsb ∧ g.lsb ≤ g.msb ∨ f.msb < g.lsb) : (s.setF o f n).getF o g = s.getF o g := by
  simp [State.getF, reg_setF, fieldOf_withField_ne f g n _ h hm hg]

/-- Each stored value stands for one register file: a write keeps the canonical form. -/
theorem awf_setReg (s : State) (o : Nat) (v : Word) (h : awf (resetWord s.part) s.regs = true) :
    awf (resetWord (s.setReg o v).part) (s.setReg o v).regs = true := awf_aset _ _ _ _ h

end Sys2Proof.Machine
end

