-- ==== Sys2Proof/Laws/State.lean ====
section
/-! SUPPORT. What every elementary update of the state leaves in each field, by unfolding once and for all. -/

namespace Sys2Proof.Machine

/-! ## State.emit -/

@[simp] theorem State.emit_part (s : State) (o : Out) : (State.emit s o).part = s.part := rfl
@[simp] theorem State.emit_regs (s : State) (o : Out) : (State.emit s o).regs = s.regs := rfl
@[simp] theorem State.emit_rst (s : State) (o : Out) : (State.emit s o).rst = s.rst := rfl
@[simp] theorem State.emit_pwr (s : State) (o : Out) : (State.emit s o).pwr = s.pwr := rfl
@[simp] theorem State.emit_hst (s : State) (o : Out) : (State.emit s o).hst = s.hst := rfl
@[simp] theorem State.emit_stg (s : State) (o : Out) : (State.emit s o).stg = s.stg := rfl
@[simp] theorem State.emit_tabs (s : State) (o : Out) : (State.emit s o).tabs = s.tabs := rfl
@[simp] theorem State.emit_evt (s : State) (o : Out) : (State.emit s o).evt = s.evt := rfl
@[simp] theorem State.emit_gen (s : State) (o : Out) : (State.emit s o).gen = s.gen := rfl
@[simp] theorem State.emit_rdg (s : State) (o : Out) : (State.emit s o).rdg = s.rdg := rfl
@[simp] theorem State.emit_fst (s : State) (o : Out) : (State.emit s o).fst = s.fst := rfl
@[simp] theorem State.emit_links (s : State) (o : Out) : (State.emit s o).links = s.links := rfl
@[simp] theorem State.emit_thm (s : State) (o : Out) : (State.emit s o).thm = s.thm := rfl
@[simp] theorem State.emit_drv (s : State) (o : Out) : (State.emit s o).drv = s.drv := rfl
@[simp] theorem State.emit_pipe (s : State) (o : Out) : (State.emit s o).pipe = s.pipe := rfl
@[simp] theorem State.emit_cal (s : State) (o : Out) : (State.emit s o).cal = s.cal := rfl
@[simp] theorem State.emit_pnl (s : State) (o : Out) : (State.emit s o).pnl = s.pnl := rfl
@[simp] theorem State.emit_hrt (s : State) (o : Out) : (State.emit s o).hrt = s.hrt := rfl
@[simp] theorem State.emit_bnk (s : State) (o : Out) : (State.emit s o).bnk = s.bnk := rfl
@[simp] theorem State.emit_win (s : State) (o : Out) : (State.emit s o).win = s.win := rfl
@[simp] theorem State.emit_mag (s : State) (o : Out) : (State.emit s o).mag = s.mag := rfl
@[simp] theorem State.emit_thc (s : State) (o : Out) : (State.emit s o).thc = s.thc := rfl
@[simp] theorem State.emit_tmk (s : State) (o : Out) : (State.emit s o).tmk = s.tmk := rfl
@[simp] theorem State.emit_jtag (s : State) (o : Out) : (State.emit s o).jtag = s.jtag := rfl
@[simp] theorem State.emit_fmask (s : State) (o : Out) : (State.emit s o).fmask = s.fmask := rfl
@[simp] theorem State.emit_aon (s : State) (o : Out) : (State.emit s o).aon = s.aon := rfl
@[simp] theorem State.emit_freeN (s : State) (o : Out) : (State.emit s o).freeN = s.freeN := rfl
@[simp] theorem State.emit_fsEpoch (s : State) (o : Out) : (State.emit s o).fsEpoch = s.fsEpoch := rfl
@[simp] theorem State.emit_pending (s : State) (o : Out) : (State.emit s o).pending = s.pending := rfl
@[simp] theorem State.emit_getF (s : State) (o : Out) (a : Nat) (fl : Fld) : (State.emit s o).getF a fl = s.getF a fl := rfl
@[simp] theorem State.emit_flag (s : State) (o : Out) (a : Nat) (fl : Fld) : (State.emit s o).flag a fl = s.flag a fl := rfl
@[simp] theorem State.emit_isOn (s : State) (o : Out) (d : Nat) : (State.emit s o).isOn d = s.isOn d := rfl
@[simp] theorem State.emit_isReady (s : State) (o : Out) (b : Nat) : (State.emit s o).isReady b = s.isReady b := rfl

/-! ## State.onCal -/

@[simp] theorem State.onCal_cal (s : State) (f : CalState → CalState) : (State.onCal s f).cal = f s.cal := rfl
@[simp] theorem State.onCal_part (s : State) (f : CalState → CalState) : (State.onCal s f).part = s.part := rfl
@[simp] theorem State.onCal_regs (s : State) (f : CalState → CalState) : (State.onCal s f).regs = s.regs := rfl
@[simp] theorem State.onCal_rst (s : State) (f : CalState → CalState) : (State.onCal s f).rst = s.rst := rfl
@[simp] theorem State.onCal_pwr (s : State) (f : CalState → CalState) : (State.onCal s f).pwr = s.pwr := rfl
@[simp] theorem State.onCal_hst (s : State) (f : CalState → CalState) : (State.onCal s f).hst = s.hst := rfl
@[simp] theorem State.onCal_stg (s : State) (f : CalState → CalState) : (State.onCal s f).stg = s.stg := rfl
@[simp] theorem State.onCal_tabs (s : State) (f : CalState → CalState) : (State.onCal s f).tabs = s.tabs := rfl
@[simp] theorem State.onCal_evt (s : State) (f : CalState → CalState) : (State.onCal s f).evt = s.evt := rfl
@[simp] theorem State.onCal_gen (s : State) (f : CalState → CalState) : (State.onCal s f).gen = s.gen := rfl
@[simp] theorem State.onCal_rdg (s : State) (f : CalState → CalState) : (State.onCal s f).rdg = s.rdg := rfl
@[simp] theorem State.onCal_fst (s : State) (f : CalState → CalState) : (State.onCal s f).fst = s.fst := rfl
@[simp] theorem State.onCal_links (s : State) (f : CalState → CalState) : (State.onCal s f).links = s.links := rfl
@[simp] theorem State.onCal_thm (s : State) (f : CalState → CalState) : (State.onCal s f).thm = s.thm := rfl
@[simp] theorem State.onCal_drv (s : State) (f : CalState → CalState) : (State.onCal s f).drv = s.drv := rfl
@[simp] theorem State.onCal_pipe (s : State) (f : CalState → CalState) : (State.onCal s f).pipe = s.pipe := rfl
@[simp] theorem State.onCal_pnl (s : State) (f : CalState → CalState) : (State.onCal s f).pnl = s.pnl := rfl
@[simp] theorem State.onCal_hrt (s : State) (f : CalState → CalState) : (State.onCal s f).hrt = s.hrt := rfl
@[simp] theorem State.onCal_bnk (s : State) (f : CalState → CalState) : (State.onCal s f).bnk = s.bnk := rfl
@[simp] theorem State.onCal_win (s : State) (f : CalState → CalState) : (State.onCal s f).win = s.win := rfl
@[simp] theorem State.onCal_mag (s : State) (f : CalState → CalState) : (State.onCal s f).mag = s.mag := rfl
@[simp] theorem State.onCal_thc (s : State) (f : CalState → CalState) : (State.onCal s f).thc = s.thc := rfl
@[simp] theorem State.onCal_tmk (s : State) (f : CalState → CalState) : (State.onCal s f).tmk = s.tmk := rfl
@[simp] theorem State.onCal_jtag (s : State) (f : CalState → CalState) : (State.onCal s f).jtag = s.jtag := rfl
@[simp] theorem State.onCal_fmask (s : State) (f : CalState → CalState) : (State.onCal s f).fmask = s.fmask := rfl
@[simp] theorem State.onCal_aon (s : State) (f : CalState → CalState) : (State.onCal s f).aon = s.aon := rfl
@[simp] theorem State.onCal_freeN (s : State) (f : CalState → CalState) : (State.onCal s f).freeN = s.freeN := rfl
@[simp] theorem State.onCal_fsEpoch (s : State) (f : CalState → CalState) : (State.onCal s f).fsEpoch = s.fsEpoch := rfl
@[simp] theorem State.onCal_out (s : State) (f : CalState → CalState) : (State.onCal s f).out = s.out := rfl
@[simp] theorem State.onCal_pending (s : State) (f : CalState → CalState) : (State.onCal s f).pending = s.pending := rfl
@[simp] theorem State.onCal_getF (s : State) (f : CalState → CalState) (a : Nat) (fl : Fld) : (State.onCal s f).getF a fl = s.getF a fl := rfl
@[simp] theorem State.onCal_flag (s : State) (f : CalState → CalState) (a : Nat) (fl : Fld) : (State.onCal s f).flag a fl = s.flag a fl := rfl
@[simp] theorem State.onCal_isOn (s : State) (f : CalState → CalState) (d : Nat) : (State.onCal s f).isOn d = s.isOn d := rfl
@[simp] theorem State.onCal_isReady (s : State) (f : CalState → CalState) (b : Nat) : (State.onCal s f).isReady b = s.isReady b := rfl

/-! ## State.onEvt -/

@[simp] theorem State.onEvt_evt (s : State) (f : EventState → EventState) : (State.onEvt s f).evt = f s.evt := rfl
@[simp] theorem State.onEvt_part (s : State) (f : EventState → EventState) : (State.onEvt s f).part = s.part := rfl
@[simp] theorem State.onEvt_regs (s : State) (f : EventState → EventState) : (State.onEvt s f).regs = s.regs := rfl
@[simp] theorem State.onEvt_rst (s : State) (f : EventState → EventState) : (State.onEvt s f).rst = s.rst := rfl
@[simp] theorem State.onEvt_pwr (s : State) (f : EventState → EventState) : (State.onEvt s f).pwr = s.pwr := rfl
@[simp] theorem State.onEvt_hst (s : State) (f : EventState → EventState) : (State.onEvt s f).hst = s.hst := rfl
@[simp] theorem State.onEvt_stg (s : State) (f : EventState → EventState) : (State.onEvt s f).stg = s.stg := rfl
@[simp] theorem State.onEvt_tabs (s : State) (f : EventState → EventState) : (State.onEvt s f).tabs = s.tabs := rfl
@[simp] theorem State.onEvt_gen (s : State) (f : EventState → EventState) : (State.onEvt s f).gen = s.gen := rfl
@[simp] theorem State.onEvt_rdg (s : State) (f : EventState → EventState) : (State.onEvt s f).rdg = s.rdg := rfl
@[simp] theorem State.onEvt_fst (s : State) (f : EventState → EventState) : (State.onEvt s f).fst = s.fst := rfl
@[simp] theorem State.onEvt_links (s : State) (f : EventState → EventState) : (State.onEvt s f).links = s.links := rfl
@[simp] theorem State.onEvt_thm (s : State) (f : EventState → EventState) : (State.onEvt s f).thm = s.thm := rfl
@[simp] theorem State.onEvt_drv (s : State) (f : EventState → EventState) : (State.onEvt s f).drv = s.drv := rfl
@[simp] theorem State.onEvt_pipe (s : State) (f : EventState → EventState) : (State.onEvt s f).pipe = s.pipe := rfl
@[simp] theorem State.onEvt_cal (s : State) (f : EventState → EventState) : (State.onEvt s f).cal = s.cal := rfl
@[simp] theorem State.onEvt_pnl (s : State) (f : EventState → EventState) : (State.onEvt s f).pnl = s.pnl := rfl
@[simp] theorem State.onEvt_hrt (s : State) (f : EventState → EventState) : (State.onEvt s f).hrt = s.hrt := rfl
@[simp] theorem State.onEvt_bnk (s : State) (f : EventState → EventState) : (State.onEvt s f).bnk = s.bnk := rfl
@[simp] theorem State.onEvt_win (s : State) (f : EventState → EventState) : (State.onEvt s f).win = s.win := rfl
@[simp] theorem State.onEvt_mag (s : State) (f : EventState → EventState) : (State.onEvt s f).mag = s.mag := rfl
@[simp] theorem State.onEvt_thc (s : State) (f : EventState → EventState) : (State.onEvt s f).thc = s.thc := rfl
@[simp] theorem State.onEvt_tmk (s : State) (f : EventState → EventState) : (State.onEvt s f).tmk = s.tmk := rfl
@[simp] theorem State.onEvt_jtag (s : State) (f : EventState → EventState) : (State.onEvt s f).jtag = s.jtag := rfl
@[simp] theorem State.onEvt_fmask (s : State) (f : EventState → EventState) : (State.onEvt s f).fmask = s.fmask := rfl
@[simp] theorem State.onEvt_aon (s : State) (f : EventState → EventState) : (State.onEvt s f).aon = s.aon := rfl
@[simp] theorem State.onEvt_freeN (s : State) (f : EventState → EventState) : (State.onEvt s f).freeN = s.freeN := rfl
@[simp] theorem State.onEvt_fsEpoch (s : State) (f : EventState → EventState) : (State.onEvt s f).fsEpoch = s.fsEpoch := rfl
@[simp] theorem State.onEvt_out (s : State) (f : EventState → EventState) : (State.onEvt s f).out = s.out := rfl
@[simp] theorem State.onEvt_pending (s : State) (f : EventState → EventState) : (State.onEvt s f).pending = s.pending := rfl
@[simp] theorem State.onEvt_getF (s : State) (f : EventState → EventState) (a : Nat) (fl : Fld) : (State.onEvt s f).getF a fl = s.getF a fl := rfl
@[simp] theorem State.onEvt_flag (s : State) (f : EventState → EventState) (a : Nat) (fl : Fld) : (State.onEvt s f).flag a fl = s.flag a fl := rfl
@[simp] theorem State.onEvt_isOn (s : State) (f : EventState → EventState) (d : Nat) : (State.onEvt s f).isOn d = s.isOn d := rfl
@[simp] theorem State.onEvt_isReady (s : State) (f : EventState → EventState) (b : Nat) : (State.onEvt s f).isReady b = s.isReady b := rfl

/-! ## State.onFst -/

@[simp] theorem State.onFst_fst (s : State) (f : FstState → FstState) : (State.onFst s f).fst = f s.fst := rfl
@[simp] theorem State.onFst_part (s : State) (f : FstState → FstState) : (State.onFst s f).part = s.part := rfl
@[simp] theorem State.onFst_regs (s : State) (f : FstState → FstState) : (State.onFst s f).regs = s.regs := rfl
@[simp] theorem State.onFst_rst (s : State) (f : FstState → FstState) : (State.onFst s f).rst = s.rst := rfl
@[simp] theorem State.onFst_pwr (s : State) (f : FstState → FstState) : (State.onFst s f).pwr = s.pwr := rfl
@[simp] theorem State.onFst_hst (s : State) (f : FstState → FstState) : (State.onFst s f).hst = s.hst := rfl
@[simp] theorem State.onFst_stg (s : State) (f : FstState → FstState) : (State.onFst s f).stg = s.stg := rfl
@[simp] theorem State.onFst_tabs (s : State) (f : FstState → FstState) : (State.onFst s f).tabs = s.tabs := rfl
@[simp] theorem State.onFst_evt (s : State) (f : FstState → FstState) : (State.onFst s f).evt = s.evt := rfl
@[simp] theorem State.onFst_gen (s : State) (f : FstState → FstState) : (State.onFst s f).gen = s.gen := rfl
@[simp] theorem State.onFst_rdg (s : State) (f : FstState → FstState) : (State.onFst s f).rdg = s.rdg := rfl
@[simp] theorem State.onFst_links (s : State) (f : FstState → FstState) : (State.onFst s f).links = s.links := rfl
@[simp] theorem State.onFst_thm (s : State) (f : FstState → FstState) : (State.onFst s f).thm = s.thm := rfl
@[simp] theorem State.onFst_drv (s : State) (f : FstState → FstState) : (State.onFst s f).drv = s.drv := rfl
@[simp] theorem State.onFst_pipe (s : State) (f : FstState → FstState) : (State.onFst s f).pipe = s.pipe := rfl
@[simp] theorem State.onFst_cal (s : State) (f : FstState → FstState) : (State.onFst s f).cal = s.cal := rfl
@[simp] theorem State.onFst_pnl (s : State) (f : FstState → FstState) : (State.onFst s f).pnl = s.pnl := rfl
@[simp] theorem State.onFst_hrt (s : State) (f : FstState → FstState) : (State.onFst s f).hrt = s.hrt := rfl
@[simp] theorem State.onFst_bnk (s : State) (f : FstState → FstState) : (State.onFst s f).bnk = s.bnk := rfl
@[simp] theorem State.onFst_win (s : State) (f : FstState → FstState) : (State.onFst s f).win = s.win := rfl
@[simp] theorem State.onFst_mag (s : State) (f : FstState → FstState) : (State.onFst s f).mag = s.mag := rfl
@[simp] theorem State.onFst_thc (s : State) (f : FstState → FstState) : (State.onFst s f).thc = s.thc := rfl
@[simp] theorem State.onFst_tmk (s : State) (f : FstState → FstState) : (State.onFst s f).tmk = s.tmk := rfl
@[simp] theorem State.onFst_jtag (s : State) (f : FstState → FstState) : (State.onFst s f).jtag = s.jtag := rfl
@[simp] theorem State.onFst_fmask (s : State) (f : FstState → FstState) : (State.onFst s f).fmask = s.fmask := rfl
@[simp] theorem State.onFst_aon (s : State) (f : FstState → FstState) : (State.onFst s f).aon = s.aon := rfl
@[simp] theorem State.onFst_freeN (s : State) (f : FstState → FstState) : (State.onFst s f).freeN = s.freeN := rfl
@[simp] theorem State.onFst_fsEpoch (s : State) (f : FstState → FstState) : (State.onFst s f).fsEpoch = s.fsEpoch := rfl
@[simp] theorem State.onFst_out (s : State) (f : FstState → FstState) : (State.onFst s f).out = s.out := rfl
@[simp] theorem State.onFst_pending (s : State) (f : FstState → FstState) : (State.onFst s f).pending = s.pending := rfl
@[simp] theorem State.onFst_getF (s : State) (f : FstState → FstState) (a : Nat) (fl : Fld) : (State.onFst s f).getF a fl = s.getF a fl := rfl
@[simp] theorem State.onFst_flag (s : State) (f : FstState → FstState) (a : Nat) (fl : Fld) : (State.onFst s f).flag a fl = s.flag a fl := rfl
@[simp] theorem State.onFst_isOn (s : State) (f : FstState → FstState) (d : Nat) : (State.onFst s f).isOn d = s.isOn d := rfl
@[simp] theorem State.onFst_isReady (s : State) (f : FstState → FstState) (b : Nat) : (State.onFst s f).isReady b = s.isReady b := rfl

/-! ## State.onGen -/

@[simp] theorem State.onGen_gen (s : State) (f : GenState → GenState) : (State.onGen s f).gen = f s.gen := rfl
@[simp] theorem State.onGen_part (s : State) (f : GenState → GenState) : (State.onGen s f).part = s.part := rfl
@[simp] theorem State.onGen_regs (s : State) (f : GenState → GenState) : (State.onGen s f).regs = s.regs := rfl
@[simp] theorem State.onGen_rst (s : State) (f : GenState → GenState) : (State.onGen s f).rst = s.rst := rfl
@[simp] theorem State.onGen_pwr (s : State) (f : GenState → GenState) : (State.onGen s f).pwr = s.pwr := rfl
@[simp] theorem State.onGen_hst (s : State) (f : GenState → GenState) : (State.onGen s f).hst = s.hst := rfl
@[simp] theorem State.onGen_stg (s : State) (f : GenState → GenState) : (State.onGen s f).stg = s.stg := rfl
@[simp] theorem State.onGen_tabs (s : State) (f : GenState → GenState) : (State.onGen s f).tabs = s.tabs := rfl
@[simp] theorem State.onGen_evt (s : State) (f : GenState → GenState) : (State.onGen s f).evt = s.evt := rfl
@[simp] theorem State.onGen_rdg (s : State) (f : GenState → GenState) : (State.onGen s f).rdg = s.rdg := rfl
@[simp] theorem State.onGen_fst (s : State) (f : GenState → GenState) : (State.onGen s f).fst = s.fst := rfl
@[simp] theorem State.onGen_links (s : State) (f : GenState → GenState) : (State.onGen s f).links = s.links := rfl
@[simp] theorem State.onGen_thm (s : State) (f : GenState → GenState) : (State.onGen s f).thm = s.thm := rfl
@[simp] theorem State.onGen_drv (s : State) (f : GenState → GenState) : (State.onGen s f).drv = s.drv := rfl
@[simp] theorem State.onGen_pipe (s : State) (f : GenState → GenState) : (State.onGen s f).pipe = s.pipe := rfl
@[simp] theorem State.onGen_cal (s : State) (f : GenState → GenState) : (State.onGen s f).cal = s.cal := rfl
@[simp] theorem State.onGen_pnl (s : State) (f : GenState → GenState) : (State.onGen s f).pnl = s.pnl := rfl
@[simp] theorem State.onGen_hrt (s : State) (f : GenState → GenState) : (State.onGen s f).hrt = s.hrt := rfl
@[simp] theorem State.onGen_bnk (s : State) (f : GenState → GenState) : (State.onGen s f).bnk = s.bnk := rfl
@[simp] theorem State.onGen_win (s : State) (f : GenState → GenState) : (State.onGen s f).win = s.win := rfl
@[simp] theorem State.onGen_mag (s : State) (f : GenState → GenState) : (State.onGen s f).mag = s.mag := rfl
@[simp] theorem State.onGen_thc (s : State) (f : GenState → GenState) : (State.onGen s f).thc = s.thc := rfl
@[simp] theorem State.onGen_tmk (s : State) (f : GenState → GenState) : (State.onGen s f).tmk = s.tmk := rfl
@[simp] theorem State.onGen_jtag (s : State) (f : GenState → GenState) : (State.onGen s f).jtag = s.jtag := rfl
@[simp] theorem State.onGen_fmask (s : State) (f : GenState → GenState) : (State.onGen s f).fmask = s.fmask := rfl
@[simp] theorem State.onGen_aon (s : State) (f : GenState → GenState) : (State.onGen s f).aon = s.aon := rfl
@[simp] theorem State.onGen_freeN (s : State) (f : GenState → GenState) : (State.onGen s f).freeN = s.freeN := rfl
@[simp] theorem State.onGen_fsEpoch (s : State) (f : GenState → GenState) : (State.onGen s f).fsEpoch = s.fsEpoch := rfl
@[simp] theorem State.onGen_out (s : State) (f : GenState → GenState) : (State.onGen s f).out = s.out := rfl
@[simp] theorem State.onGen_pending (s : State) (f : GenState → GenState) : (State.onGen s f).pending = s.pending := rfl
@[simp] theorem State.onGen_getF (s : State) (f : GenState → GenState) (a : Nat) (fl : Fld) : (State.onGen s f).getF a fl = s.getF a fl := rfl
@[simp] theorem State.onGen_flag (s : State) (f : GenState → GenState) (a : Nat) (fl : Fld) : (State.onGen s f).flag a fl = s.flag a fl := rfl
@[simp] theorem State.onGen_isOn (s : State) (f : GenState → GenState) (d : Nat) : (State.onGen s f).isOn d = s.isOn d := rfl
@[simp] theorem State.onGen_isReady (s : State) (f : GenState → GenState) (b : Nat) : (State.onGen s f).isReady b = s.isReady b := rfl

/-! ## State.onHst -/

@[simp] theorem State.onHst_hst (s : State) (f : HostState → HostState) : (State.onHst s f).hst = f s.hst := rfl
@[simp] theorem State.onHst_part (s : State) (f : HostState → HostState) : (State.onHst s f).part = s.part := rfl
@[simp] theorem State.onHst_regs (s : State) (f : HostState → HostState) : (State.onHst s f).regs = s.regs := rfl
@[simp] theorem State.onHst_rst (s : State) (f : HostState → HostState) : (State.onHst s f).rst = s.rst := rfl
@[simp] theorem State.onHst_pwr (s : State) (f : HostState → HostState) : (State.onHst s f).pwr = s.pwr := rfl
@[simp] theorem State.onHst_stg (s : State) (f : HostState → HostState) : (State.onHst s f).stg = s.stg := rfl
@[simp] theorem State.onHst_tabs (s : State) (f : HostState → HostState) : (State.onHst s f).tabs = s.tabs := rfl
@[simp] theorem State.onHst_evt (s : State) (f : HostState → HostState) : (State.onHst s f).evt = s.evt := rfl
@[simp] theorem State.onHst_gen (s : State) (f : HostState → HostState) : (State.onHst s f).gen = s.gen := rfl
@[simp] theorem State.onHst_rdg (s : State) (f : HostState → HostState) : (State.onHst s f).rdg = s.rdg := rfl
@[simp] theorem State.onHst_fst (s : State) (f : HostState → HostState) : (State.onHst s f).fst = s.fst := rfl
@[simp] theorem State.onHst_links (s : State) (f : HostState → HostState) : (State.onHst s f).links = s.links := rfl
@[simp] theorem State.onHst_thm (s : State) (f : HostState → HostState) : (State.onHst s f).thm = s.thm := rfl
@[simp] theorem State.onHst_drv (s : State) (f : HostState → HostState) : (State.onHst s f).drv = s.drv := rfl
@[simp] theorem State.onHst_pipe (s : State) (f : HostState → HostState) : (State.onHst s f).pipe = s.pipe := rfl
@[simp] theorem State.onHst_cal (s : State) (f : HostState → HostState) : (State.onHst s f).cal = s.cal := rfl
@[simp] theorem State.onHst_pnl (s : State) (f : HostState → HostState) : (State.onHst s f).pnl = s.pnl := rfl
@[simp] theorem State.onHst_hrt (s : State) (f : HostState → HostState) : (State.onHst s f).hrt = s.hrt := rfl
@[simp] theorem State.onHst_bnk (s : State) (f : HostState → HostState) : (State.onHst s f).bnk = s.bnk := rfl
@[simp] theorem State.onHst_win (s : State) (f : HostState → HostState) : (State.onHst s f).win = s.win := rfl
@[simp] theorem State.onHst_mag (s : State) (f : HostState → HostState) : (State.onHst s f).mag = s.mag := rfl
@[simp] theorem State.onHst_thc (s : State) (f : HostState → HostState) : (State.onHst s f).thc = s.thc := rfl
@[simp] theorem State.onHst_tmk (s : State) (f : HostState → HostState) : (State.onHst s f).tmk = s.tmk := rfl
@[simp] theorem State.onHst_jtag (s : State) (f : HostState → HostState) : (State.onHst s f).jtag = s.jtag := rfl
@[simp] theorem State.onHst_fmask (s : State) (f : HostState → HostState) : (State.onHst s f).fmask = s.fmask := rfl
@[simp] theorem State.onHst_aon (s : State) (f : HostState → HostState) : (State.onHst s f).aon = s.aon := rfl
@[simp] theorem State.onHst_freeN (s : State) (f : HostState → HostState) : (State.onHst s f).freeN = s.freeN := rfl
@[simp] theorem State.onHst_fsEpoch (s : State) (f : HostState → HostState) : (State.onHst s f).fsEpoch = s.fsEpoch := rfl
@[simp] theorem State.onHst_out (s : State) (f : HostState → HostState) : (State.onHst s f).out = s.out := rfl
@[simp] theorem State.onHst_pending (s : State) (f : HostState → HostState) : (State.onHst s f).pending = s.pending := rfl
@[simp] theorem State.onHst_getF (s : State) (f : HostState → HostState) (a : Nat) (fl : Fld) : (State.onHst s f).getF a fl = s.getF a fl := rfl
@[simp] theorem State.onHst_flag (s : State) (f : HostState → HostState) (a : Nat) (fl : Fld) : (State.onHst s f).flag a fl = s.flag a fl := rfl
@[simp] theorem State.onHst_isOn (s : State) (f : HostState → HostState) (d : Nat) : (State.onHst s f).isOn d = s.isOn d := rfl
@[simp] theorem State.onHst_isReady (s : State) (f : HostState → HostState) (b : Nat) : (State.onHst s f).isReady b = s.isReady b := rfl

/-! ## State.onJtag -/

@[simp] theorem State.onJtag_jtag (s : State) (f : JtagState → JtagState) : (State.onJtag s f).jtag = f s.jtag := rfl
@[simp] theorem State.onJtag_part (s : State) (f : JtagState → JtagState) : (State.onJtag s f).part = s.part := rfl
@[simp] theorem State.onJtag_regs (s : State) (f : JtagState → JtagState) : (State.onJtag s f).regs = s.regs := rfl
@[simp] theorem State.onJtag_rst (s : State) (f : JtagState → JtagState) : (State.onJtag s f).rst = s.rst := rfl
@[simp] theorem State.onJtag_pwr (s : State) (f : JtagState → JtagState) : (State.onJtag s f).pwr = s.pwr := rfl
@[simp] theorem State.onJtag_hst (s : State) (f : JtagState → JtagState) : (State.onJtag s f).hst = s.hst := rfl
@[simp] theorem State.onJtag_stg (s : State) (f : JtagState → JtagState) : (State.onJtag s f).stg = s.stg := rfl
@[simp] theorem State.onJtag_tabs (s : State) (f : JtagState → JtagState) : (State.onJtag s f).tabs = s.tabs := rfl
@[simp] theorem State.onJtag_evt (s : State) (f : JtagState → JtagState) : (State.onJtag s f).evt = s.evt := rfl
@[simp] theorem State.onJtag_gen (s : State) (f : JtagState → JtagState) : (State.onJtag s f).gen = s.gen := rfl
@[simp] theorem State.onJtag_rdg (s : State) (f : JtagState → JtagState) : (State.onJtag s f).rdg = s.rdg := rfl
@[simp] theorem State.onJtag_fst (s : State) (f : JtagState → JtagState) : (State.onJtag s f).fst = s.fst := rfl
@[simp] theorem State.onJtag_links (s : State) (f : JtagState → JtagState) : (State.onJtag s f).links = s.links := rfl
@[simp] theorem State.onJtag_thm (s : State) (f : JtagState → JtagState) : (State.onJtag s f).thm = s.thm := rfl
@[simp] theorem State.onJtag_drv (s : State) (f : JtagState → JtagState) : (State.onJtag s f).drv = s.drv := rfl
@[simp] theorem State.onJtag_pipe (s : State) (f : JtagState → JtagState) : (State.onJtag s f).pipe = s.pipe := rfl
@[simp] theorem State.onJtag_cal (s : State) (f : JtagState → JtagState) : (State.onJtag s f).cal = s.cal := rfl
@[simp] theorem State.onJtag_pnl (s : State) (f : JtagState → JtagState) : (State.onJtag s f).pnl = s.pnl := rfl
@[simp] theorem State.onJtag_hrt (s : State) (f : JtagState → JtagState) : (State.onJtag s f).hrt = s.hrt := rfl
@[simp] theorem State.onJtag_bnk (s : State) (f : JtagState → JtagState) : (State.onJtag s f).bnk = s.bnk := rfl
@[simp] theorem State.onJtag_win (s : State) (f : JtagState → JtagState) : (State.onJtag s f).win = s.win := rfl
@[simp] theorem State.onJtag_mag (s : State) (f : JtagState → JtagState) : (State.onJtag s f).mag = s.mag := rfl
@[simp] theorem State.onJtag_thc (s : State) (f : JtagState → JtagState) : (State.onJtag s f).thc = s.thc := rfl
@[simp] theorem State.onJtag_tmk (s : State) (f : JtagState → JtagState) : (State.onJtag s f).tmk = s.tmk := rfl
@[simp] theorem State.onJtag_fmask (s : State) (f : JtagState → JtagState) : (State.onJtag s f).fmask = s.fmask := rfl
@[simp] theorem State.onJtag_aon (s : State) (f : JtagState → JtagState) : (State.onJtag s f).aon = s.aon := rfl
@[simp] theorem State.onJtag_freeN (s : State) (f : JtagState → JtagState) : (State.onJtag s f).freeN = s.freeN := rfl
@[simp] theorem State.onJtag_fsEpoch (s : State) (f : JtagState → JtagState) : (State.onJtag s f).fsEpoch = s.fsEpoch := rfl
@[simp] theorem State.onJtag_out (s : State) (f : JtagState → JtagState) : (State.onJtag s f).out = s.out := rfl
@[simp] theorem State.onJtag_pending (s : State) (f : JtagState → JtagState) : (State.onJtag s f).pending = s.pending := rfl
@[simp] theorem State.onJtag_reg (s : State) (f : JtagState → JtagState) (a : Nat) : (State.onJtag s f).reg a = s.reg a := rfl
@[simp] theorem State.onJtag_getF (s : State) (f : JtagState → JtagState) (a : Nat) (fl : Fld) : (State.onJtag s f).getF a fl = s.getF a fl := rfl
@[simp] theorem State.onJtag_flag (s : State) (f : JtagState → JtagState) (a : Nat) (fl : Fld) : (State.onJtag s f).flag a fl = s.flag a fl := rfl
@[simp] theorem State.onJtag_isOn (s : State) (f : JtagState → JtagState) (d : Nat) : (State.onJtag s f).isOn d = s.isOn d := rfl
@[simp] theorem State.onJtag_isReady (s : State) (f : JtagState → JtagState) (b : Nat) : (State.onJtag s f).isReady b = s.isReady b := rfl

/-! ## State.onLink -/

@[simp] theorem State.onLink_part (s : State) (q : Nat) (f : LinkState → LinkState) : (State.onLink s q f).part = s.part := rfl
@[simp] theorem State.onLink_regs (s : State) (q : Nat) (f : LinkState → LinkState) : (State.onLink s q f).regs = s.regs := rfl
@[simp] theorem State.onLink_rst (s : State) (q : Nat) (f : LinkState → LinkState) : (State.onLink s q f).rst = s.rst := rfl
@[simp] theorem State.onLink_pwr (s : State) (q : Nat) (f : LinkState → LinkState) : (State.onLink s q f).pwr = s.pwr := rfl
@[simp] theorem State.onLink_hst (s : State) (q : Nat) (f : LinkState → LinkState) : (State.onLink s q f).hst = s.hst := rfl
@[simp] theorem State.onLink_stg (s : State) (q : Nat) (f : LinkState → LinkState) : (State.onLink s q f).stg = s.stg := rfl
@[simp] theorem State.onLink_tabs (s : State) (q : Nat) (f : LinkState → LinkState) : (State.onLink s q f).tabs = s.tabs := rfl
@[simp] theorem State.onLink_evt (s : State) (q : Nat) (f : LinkState → LinkState) : (State.onLink s q f).evt = s.evt := rfl
@[simp] theorem State.onLink_gen (s : State) (q : Nat) (f : LinkState → LinkState) : (State.onLink s q f).gen = s.gen := rfl
@[simp] theorem State.onLink_rdg (s : State) (q : Nat) (f : LinkState → LinkState) : (State.onLink s q f).rdg = s.rdg := rfl
@[simp] theorem State.onLink_fst (s : State) (q : Nat) (f : LinkState → LinkState) : (State.onLink s q f).fst = s.fst := rfl
@[simp] theorem State.onLink_thm (s : State) (q : Nat) (f : LinkState → LinkState) : (State.onLink s q f).thm = s.thm := rfl
@[simp] theorem State.onLink_drv (s : State) (q : Nat) (f : LinkState → LinkState) : (State.onLink s q f).drv = s.drv := rfl
@[simp] theorem State.onLink_pipe (s : State) (q : Nat) (f : LinkState → LinkState) : (State.onLink s q f).pipe = s.pipe := rfl
@[simp] theorem State.onLink_cal (s : State) (q : Nat) (f : LinkState → LinkState) : (State.onLink s q f).cal = s.cal := rfl
@[simp] theorem State.onLink_pnl (s : State) (q : Nat) (f : LinkState → LinkState) : (State.onLink s q f).pnl = s.pnl := rfl
@[simp] theorem State.onLink_hrt (s : State) (q : Nat) (f : LinkState → LinkState) : (State.onLink s q f).hrt = s.hrt := rfl
@[simp] theorem State.onLink_bnk (s : State) (q : Nat) (f : LinkState → LinkState) : (State.onLink s q f).bnk = s.bnk := rfl
@[simp] theorem State.onLink_win (s : State) (q : Nat) (f : LinkState → LinkState) : (State.onLink s q f).win = s.win := rfl
@[simp] theorem State.onLink_mag (s : State) (q : Nat) (f : LinkState → LinkState) : (State.onLink s q f).mag = s.mag := rfl
@[simp] theorem State.onLink_thc (s : State) (q : Nat) (f : LinkState → LinkState) : (State.onLink s q f).thc = s.thc := rfl
@[simp] theorem State.onLink_tmk (s : State) (q : Nat) (f : LinkState → LinkState) : (State.onLink s q f).tmk = s.tmk := rfl
@[simp] theorem State.onLink_jtag (s : State) (q : Nat) (f : LinkState → LinkState) : (State.onLink s q f).jtag = s.jtag := rfl
@[simp] theorem State.onLink_fmask (s : State) (q : Nat) (f : LinkState → LinkState) : (State.onLink s q f).fmask = s.fmask := rfl
@[simp] theorem State.onLink_aon (s : State) (q : Nat) (f : LinkState → LinkState) : (State.onLink s q f).aon = s.aon := rfl
@[simp] theorem State.onLink_freeN (s : State) (q : Nat) (f : LinkState → LinkState) : (State.onLink s q f).freeN = s.freeN := rfl
@[simp] theorem State.onLink_fsEpoch (s : State) (q : Nat) (f : LinkState → LinkState) : (State.onLink s q f).fsEpoch = s.fsEpoch := rfl
@[simp] theorem State.onLink_out (s : State) (q : Nat) (f : LinkState → LinkState) : (State.onLink s q f).out = s.out := rfl
@[simp] theorem State.onLink_pending (s : State) (q : Nat) (f : LinkState → LinkState) : (State.onLink s q f).pending = s.pending := rfl
@[simp] theorem State.onLink_getF (s : State) (q : Nat) (f : LinkState → LinkState) (a : Nat) (fl : Fld) : (State.onLink s q f).getF a fl = s.getF a fl := rfl
@[simp] theorem State.onLink_flag (s : State) (q : Nat) (f : LinkState → LinkState) (a : Nat) (fl : Fld) : (State.onLink s q f).flag a fl = s.flag a fl := rfl
@[simp] theorem State.onLink_isOn (s : State) (q : Nat) (f : LinkState → LinkState) (d : Nat) : (State.onLink s q f).isOn d = s.isOn d := rfl
@[simp] theorem State.onLink_isReady (s : State) (q : Nat) (f : LinkState → LinkState) (b : Nat) : (State.onLink s q f).isReady b = s.isReady b := rfl

/-! ## State.onMag -/

@[simp] theorem State.onMag_mag (s : State) (f : MagState → MagState) : (State.onMag s f).mag = f s.mag := rfl
@[simp] theorem State.onMag_part (s : State) (f : MagState → MagState) : (State.onMag s f).part = s.part := rfl
@[simp] theorem State.onMag_regs (s : State) (f : MagState → MagState) : (State.onMag s f).regs = s.regs := rfl
@[simp] theorem State.onMag_rst (s : State) (f : MagState → MagState) : (State.onMag s f).rst = s.rst := rfl
@[simp] theorem State.onMag_pwr (s : State) (f : MagState → MagState) : (State.onMag s f).pwr = s.pwr := rfl
@[simp] theorem State.onMag_hst (s : State) (f : MagState → MagState) : (State.onMag s f).hst = s.hst := rfl
@[simp] theorem State.onMag_stg (s : State) (f : MagState → MagState) : (State.onMag s f).stg = s.stg := rfl
@[simp] theorem State.onMag_tabs (s : State) (f : MagState → MagState) : (State.onMag s f).tabs = s.tabs := rfl
@[simp] theorem State.onMag_evt (s : State) (f : MagState → MagState) : (State.onMag s f).evt = s.evt := rfl
@[simp] theorem State.onMag_gen (s : State) (f : MagState → MagState) : (State.onMag s f).gen = s.gen := rfl
@[simp] theorem State.onMag_rdg (s : State) (f : MagState → MagState) : (State.onMag s f).rdg = s.rdg := rfl
@[simp] theorem State.onMag_fst (s : State) (f : MagState → MagState) : (State.onMag s f).fst = s.fst := rfl
@[simp] theorem State.onMag_links (s : State) (f : MagState → MagState) : (State.onMag s f).links = s.links := rfl
@[simp] theorem State.onMag_thm (s : State) (f : MagState → MagState) : (State.onMag s f).thm = s.thm := rfl
@[simp] theorem State.onMag_drv (s : State) (f : MagState → MagState) : (State.onMag s f).drv = s.drv := rfl
@[simp] theorem State.onMag_pipe (s : State) (f : MagState → MagState) : (State.onMag s f).pipe = s.pipe := rfl
@[simp] theorem State.onMag_cal (s : State) (f : MagState → MagState) : (State.onMag s f).cal = s.cal := rfl
@[simp] theorem State.onMag_pnl (s : State) (f : MagState → MagState) : (State.onMag s f).pnl = s.pnl := rfl
@[simp] theorem State.onMag_hrt (s : State) (f : MagState → MagState) : (State.onMag s f).hrt = s.hrt := rfl
@[simp] theorem State.onMag_bnk (s : State) (f : MagState → MagState) : (State.onMag s f).bnk = s.bnk := rfl
@[simp] theorem State.onMag_win (s : State) (f : MagState → MagState) : (State.onMag s f).win = s.win := rfl
@[simp] theorem State.onMag_thc (s : State) (f : MagState → MagState) : (State.onMag s f).thc = s.thc := rfl
@[simp] theorem State.onMag_tmk (s : State) (f : MagState → MagState) : (State.onMag s f).tmk = s.tmk := rfl
@[simp] theorem State.onMag_jtag (s : State) (f : MagState → MagState) : (State.onMag s f).jtag = s.jtag := rfl
@[simp] theorem State.onMag_fmask (s : State) (f : MagState → MagState) : (State.onMag s f).fmask = s.fmask := rfl
@[simp] theorem State.onMag_aon (s : State) (f : MagState → MagState) : (State.onMag s f).aon = s.aon := rfl
@[simp] theorem State.onMag_freeN (s : State) (f : MagState → MagState) : (State.onMag s f).freeN = s.freeN := rfl
@[simp] theorem State.onMag_fsEpoch (s : State) (f : MagState → MagState) : (State.onMag s f).fsEpoch = s.fsEpoch := rfl
@[simp] theorem State.onMag_out (s : State) (f : MagState → MagState) : (State.onMag s f).out = s.out := rfl
@[simp] theorem State.onMag_pending (s : State) (f : MagState → MagState) : (State.onMag s f).pending = s.pending := rfl
@[simp] theorem State.onMag_reg (s : State) (f : MagState → MagState) (a : Nat) : (State.onMag s f).reg a = s.reg a := rfl
@[simp] theorem State.onMag_getF (s : State) (f : MagState → MagState) (a : Nat) (fl : Fld) : (State.onMag s f).getF a fl = s.getF a fl := rfl
@[simp] theorem State.onMag_flag (s : State) (f : MagState → MagState) (a : Nat) (fl : Fld) : (State.onMag s f).flag a fl = s.flag a fl := rfl
@[simp] theorem State.onMag_isOn (s : State) (f : MagState → MagState) (d : Nat) : (State.onMag s f).isOn d = s.isOn d := rfl
@[simp] theorem State.onMag_isReady (s : State) (f : MagState → MagState) (b : Nat) : (State.onMag s f).isReady b = s.isReady b := rfl

/-! ## State.onPipe -/

@[simp] theorem State.onPipe_pipe (s : State) (f : PipeState → PipeState) : (State.onPipe s f).pipe = f s.pipe := rfl
@[simp] theorem State.onPipe_part (s : State) (f : PipeState → PipeState) : (State.onPipe s f).part = s.part := rfl
@[simp] theorem State.onPipe_regs (s : State) (f : PipeState → PipeState) : (State.onPipe s f).regs = s.regs := rfl
@[simp] theorem State.onPipe_rst (s : State) (f : PipeState → PipeState) : (State.onPipe s f).rst = s.rst := rfl
@[simp] theorem State.onPipe_pwr (s : State) (f : PipeState → PipeState) : (State.onPipe s f).pwr = s.pwr := rfl
@[simp] theorem State.onPipe_hst (s : State) (f : PipeState → PipeState) : (State.onPipe s f).hst = s.hst := rfl
@[simp] theorem State.onPipe_stg (s : State) (f : PipeState → PipeState) : (State.onPipe s f).stg = s.stg := rfl
@[simp] theorem State.onPipe_tabs (s : State) (f : PipeState → PipeState) : (State.onPipe s f).tabs = s.tabs := rfl
@[simp] theorem State.onPipe_evt (s : State) (f : PipeState → PipeState) : (State.onPipe s f).evt = s.evt := rfl
@[simp] theorem State.onPipe_gen (s : State) (f : PipeState → PipeState) : (State.onPipe s f).gen = s.gen := rfl
@[simp] theorem State.onPipe_rdg (s : State) (f : PipeState → PipeState) : (State.onPipe s f).rdg = s.rdg := rfl
@[simp] theorem State.onPipe_fst (s : State) (f : PipeState → PipeState) : (State.onPipe s f).fst = s.fst := rfl
@[simp] theorem State.onPipe_links (s : State) (f : PipeState → PipeState) : (State.onPipe s f).links = s.links := rfl
@[simp] theorem State.onPipe_thm (s : State) (f : PipeState → PipeState) : (State.onPipe s f).thm = s.thm := rfl
@[simp] theorem State.onPipe_drv (s : State) (f : PipeState → PipeState) : (State.onPipe s f).drv = s.drv := rfl
@[simp] theorem State.onPipe_cal (s : State) (f : PipeState → PipeState) : (State.onPipe s f).cal = s.cal := rfl
@[simp] theorem State.onPipe_pnl (s : State) (f : PipeState → PipeState) : (State.onPipe s f).pnl = s.pnl := rfl
@[simp] theorem State.onPipe_hrt (s : State) (f : PipeState → PipeState) : (State.onPipe s f).hrt = s.hrt := rfl
@[simp] theorem State.onPipe_bnk (s : State) (f : PipeState → PipeState) : (State.onPipe s f).bnk = s.bnk := rfl
@[simp] theorem State.onPipe_win (s : State) (f : PipeState → PipeState) : (State.onPipe s f).win = s.win := rfl
@[simp] theorem State.onPipe_mag (s : State) (f : PipeState → PipeState) : (State.onPipe s f).mag = s.mag := rfl
@[simp] theorem State.onPipe_thc (s : State) (f : PipeState → PipeState) : (State.onPipe s f).thc = s.thc := rfl
@[simp] theorem State.onPipe_tmk (s : State) (f : PipeState → PipeState) : (State.onPipe s f).tmk = s.tmk := rfl
@[simp] theorem State.onPipe_jtag (s : State) (f : PipeState → PipeState) : (State.onPipe s f).jtag = s.jtag := rfl
@[simp] theorem State.onPipe_fmask (s : State) (f : PipeState → PipeState) : (State.onPipe s f).fmask = s.fmask := rfl
@[simp] theorem State.onPipe_aon (s : State) (f : PipeState → PipeState) : (State.onPipe s f).aon = s.aon := rfl
@[simp] theorem State.onPipe_freeN (s : State) (f : PipeState → PipeState) : (State.onPipe s f).freeN = s.freeN := rfl
@[simp] theorem State.onPipe_fsEpoch (s : State) (f : PipeState → PipeState) : (State.onPipe s f).fsEpoch = s.fsEpoch := rfl
@[simp] theorem State.onPipe_out (s : State) (f : PipeState → PipeState) : (State.onPipe s f).out = s.out := rfl
@[simp] theorem State.onPipe_pending (s : State) (f : PipeState → PipeState) : (State.onPipe s f).pending = s.pending := rfl
@[simp] theorem State.onPipe_getF (s : State) (f : PipeState → PipeState) (a : Nat) (fl : Fld) : (State.onPipe s f).getF a fl = s.getF a fl := rfl
@[simp] theorem State.onPipe_flag (s : State) (f : PipeState → PipeState) (a : Nat) (fl : Fld) : (State.onPipe s f).flag a fl = s.flag a fl := rfl
@[simp] theorem State.onPipe_isOn (s : State) (f : PipeState → PipeState) (d : Nat) : (State.onPipe s f).isOn d = s.isOn d := rfl
@[simp] theorem State.onPipe_isReady (s : State) (f : PipeState → PipeState) (b : Nat) : (State.onPipe s f).isReady b = s.isReady b := rfl

/-! ## State.onPnl -/

@[simp] theorem State.onPnl_pnl (s : State) (f : PanelState → PanelState) : (State.onPnl s f).pnl = f s.pnl := rfl
@[simp] theorem State.onPnl_part (s : State) (f : PanelState → PanelState) : (State.onPnl s f).part = s.part := rfl
@[simp] theorem State.onPnl_regs (s : State) (f : PanelState → PanelState) : (State.onPnl s f).regs = s.regs := rfl
@[simp] theorem State.onPnl_rst (s : State) (f : PanelState → PanelState) : (State.onPnl s f).rst = s.rst := rfl
@[simp] theorem State.onPnl_pwr (s : State) (f : PanelState → PanelState) : (State.onPnl s f).pwr = s.pwr := rfl
@[simp] theorem State.onPnl_hst (s : State) (f : PanelState → PanelState) : (State.onPnl s f).hst = s.hst := rfl
@[simp] theorem State.onPnl_stg (s : State) (f : PanelState → PanelState) : (State.onPnl s f).stg = s.stg := rfl
@[simp] theorem State.onPnl_tabs (s : State) (f : PanelState → PanelState) : (State.onPnl s f).tabs = s.tabs := rfl
@[simp] theorem State.onPnl_evt (s : State) (f : PanelState → PanelState) : (State.onPnl s f).evt = s.evt := rfl
@[simp] theorem State.onPnl_gen (s : State) (f : PanelState → PanelState) : (State.onPnl s f).gen = s.gen := rfl
@[simp] theorem State.onPnl_rdg (s : State) (f : PanelState → PanelState) : (State.onPnl s f).rdg = s.rdg := rfl
@[simp] theorem State.onPnl_fst (s : State) (f : PanelState → PanelState) : (State.onPnl s f).fst = s.fst := rfl
@[simp] theorem State.onPnl_links (s : State) (f : PanelState → PanelState) : (State.onPnl s f).links = s.links := rfl
@[simp] theorem State.onPnl_thm (s : State) (f : PanelState → PanelState) : (State.onPnl s f).thm = s.thm := rfl
@[simp] theorem State.onPnl_drv (s : State) (f : PanelState → PanelState) : (State.onPnl s f).drv = s.drv := rfl
@[simp] theorem State.onPnl_pipe (s : State) (f : PanelState → PanelState) : (State.onPnl s f).pipe = s.pipe := rfl
@[simp] theorem State.onPnl_cal (s : State) (f : PanelState → PanelState) : (State.onPnl s f).cal = s.cal := rfl
@[simp] theorem State.onPnl_hrt (s : State) (f : PanelState → PanelState) : (State.onPnl s f).hrt = s.hrt := rfl
@[simp] theorem State.onPnl_bnk (s : State) (f : PanelState → PanelState) : (State.onPnl s f).bnk = s.bnk := rfl
@[simp] theorem State.onPnl_win (s : State) (f : PanelState → PanelState) : (State.onPnl s f).win = s.win := rfl
@[simp] theorem State.onPnl_mag (s : State) (f : PanelState → PanelState) : (State.onPnl s f).mag = s.mag := rfl
@[simp] theorem State.onPnl_thc (s : State) (f : PanelState → PanelState) : (State.onPnl s f).thc = s.thc := rfl
@[simp] theorem State.onPnl_tmk (s : State) (f : PanelState → PanelState) : (State.onPnl s f).tmk = s.tmk := rfl
@[simp] theorem State.onPnl_jtag (s : State) (f : PanelState → PanelState) : (State.onPnl s f).jtag = s.jtag := rfl
@[simp] theorem State.onPnl_fmask (s : State) (f : PanelState → PanelState) : (State.onPnl s f).fmask = s.fmask := rfl
@[simp] theorem State.onPnl_aon (s : State) (f : PanelState → PanelState) : (State.onPnl s f).aon = s.aon := rfl
@[simp] theorem State.onPnl_freeN (s : State) (f : PanelState → PanelState) : (State.onPnl s f).freeN = s.freeN := rfl
@[simp] theorem State.onPnl_fsEpoch (s : State) (f : PanelState → PanelState) : (State.onPnl s f).fsEpoch = s.fsEpoch := rfl
@[simp] theorem State.onPnl_out (s : State) (f : PanelState → PanelState) : (State.onPnl s f).out = s.out := rfl
@[simp] theorem State.onPnl_pending (s : State) (f : PanelState → PanelState) : (State.onPnl s f).pending = s.pending := rfl
@[simp] theorem State.onPnl_getF (s : State) (f : PanelState → PanelState) (a : Nat) (fl : Fld) : (State.onPnl s f).getF a fl = s.getF a fl := rfl
@[simp] theorem State.onPnl_flag (s : State) (f : PanelState → PanelState) (a : Nat) (fl : Fld) : (State.onPnl s f).flag a fl = s.flag a fl := rfl
@[simp] theorem State.onPnl_isOn (s : State) (f : PanelState → PanelState) (d : Nat) : (State.onPnl s f).isOn d = s.isOn d := rfl
@[simp] theorem State.onPnl_isReady (s : State) (f : PanelState → PanelState) (b : Nat) : (State.onPnl s f).isReady b = s.isReady b := rfl

/-! ## State.onPwr -/

@[simp] theorem State.onPwr_pwr (s : State) (f : PowerState → PowerState) : (State.onPwr s f).pwr = f s.pwr := rfl
@[simp] theorem State.onPwr_part (s : State) (f : PowerState → PowerState) : (State.onPwr s f).part = s.part := rfl
@[simp] theorem State.onPwr_regs (s : State) (f : PowerState → PowerState) : (State.onPwr s f).regs = s.regs := rfl
@[simp] theorem State.onPwr_rst (s : State) (f : PowerState → PowerState) : (State.onPwr s f).rst = s.rst := rfl
@[simp] theorem State.onPwr_hst (s : State) (f : PowerState → PowerState) : (State.onPwr s f).hst = s.hst := rfl
@[simp] theorem State.onPwr_stg (s : State) (f : PowerState → PowerState) : (State.onPwr s f).stg = s.stg := rfl
@[simp] theorem State.onPwr_tabs (s : State) (f : PowerState → PowerState) : (State.onPwr s f).tabs = s.tabs := rfl
@[simp] theorem State.onPwr_evt (s : State) (f : PowerState → PowerState) : (State.onPwr s f).evt = s.evt := rfl
@[simp] theorem State.onPwr_gen (s : State) (f : PowerState → PowerState) : (State.onPwr s f).gen = s.gen := rfl
@[simp] theorem State.onPwr_rdg (s : State) (f : PowerState → PowerState) : (State.onPwr s f).rdg = s.rdg := rfl
@[simp] theorem State.onPwr_fst (s : State) (f : PowerState → PowerState) : (State.onPwr s f).fst = s.fst := rfl
@[simp] theorem State.onPwr_links (s : State) (f : PowerState → PowerState) : (State.onPwr s f).links = s.links := rfl
@[simp] theorem State.onPwr_thm (s : State) (f : PowerState → PowerState) : (State.onPwr s f).thm = s.thm := rfl
@[simp] theorem State.onPwr_drv (s : State) (f : PowerState → PowerState) : (State.onPwr s f).drv = s.drv := rfl
@[simp] theorem State.onPwr_pipe (s : State) (f : PowerState → PowerState) : (State.onPwr s f).pipe = s.pipe := rfl
@[simp] theorem State.onPwr_cal (s : State) (f : PowerState → PowerState) : (State.onPwr s f).cal = s.cal := rfl
@[simp] theorem State.onPwr_pnl (s : State) (f : PowerState → PowerState) : (State.onPwr s f).pnl = s.pnl := rfl
@[simp] theorem State.onPwr_hrt (s : State) (f : PowerState → PowerState) : (State.onPwr s f).hrt = s.hrt := rfl
@[simp] theorem State.onPwr_bnk (s : State) (f : PowerState → PowerState) : (State.onPwr s f).bnk = s.bnk := rfl
@[simp] theorem State.onPwr_win (s : State) (f : PowerState → PowerState) : (State.onPwr s f).win = s.win := rfl
@[simp] theorem State.onPwr_mag (s : State) (f : PowerState → PowerState) : (State.onPwr s f).mag = s.mag := rfl
@[simp] theorem State.onPwr_thc (s : State) (f : PowerState → PowerState) : (State.onPwr s f).thc = s.thc := rfl
@[simp] theorem State.onPwr_tmk (s : State) (f : PowerState → PowerState) : (State.onPwr s f).tmk = s.tmk := rfl
@[simp] theorem State.onPwr_jtag (s : State) (f : PowerState → PowerState) : (State.onPwr s f).jtag = s.jtag := rfl
@[simp] theorem State.onPwr_fmask (s : State) (f : PowerState → PowerState) : (State.onPwr s f).fmask = s.fmask := rfl
@[simp] theorem State.onPwr_aon (s : State) (f : PowerState → PowerState) : (State.onPwr s f).aon = s.aon := rfl
@[simp] theorem State.onPwr_freeN (s : State) (f : PowerState → PowerState) : (State.onPwr s f).freeN = s.freeN := rfl
@[simp] theorem State.onPwr_fsEpoch (s : State) (f : PowerState → PowerState) : (State.onPwr s f).fsEpoch = s.fsEpoch := rfl
@[simp] theorem State.onPwr_out (s : State) (f : PowerState → PowerState) : (State.onPwr s f).out = s.out := rfl
@[simp] theorem State.onPwr_pending (s : State) (f : PowerState → PowerState) : (State.onPwr s f).pending = s.pending := rfl
@[simp] theorem State.onPwr_getF (s : State) (f : PowerState → PowerState) (a : Nat) (fl : Fld) : (State.onPwr s f).getF a fl = s.getF a fl := rfl
@[simp] theorem State.onPwr_flag (s : State) (f : PowerState → PowerState) (a : Nat) (fl : Fld) : (State.onPwr s f).flag a fl = s.flag a fl := rfl
@[simp] theorem State.onPwr_isOn (s : State) (f : PowerState → PowerState) (d : Nat) : (State.onPwr s f).isOn d = s.isOn d := rfl
@[simp] theorem State.onPwr_isReady (s : State) (f : PowerState → PowerState) (b : Nat) : (State.onPwr s f).isReady b = s.isReady b := rfl

/-! ## State.onRdg -/

@[simp] theorem State.onRdg_rdg (s : State) (f : RidgeState → RidgeState) : (State.onRdg s f).rdg = f s.rdg := rfl
@[simp] theorem State.onRdg_part (s : State) (f : RidgeState → RidgeState) : (State.onRdg s f).part = s.part := rfl
@[simp] theorem State.onRdg_regs (s : State) (f : RidgeState → RidgeState) : (State.onRdg s f).regs = s.regs := rfl
@[simp] theorem State.onRdg_rst (s : State) (f : RidgeState → RidgeState) : (State.onRdg s f).rst = s.rst := rfl
@[simp] theorem State.onRdg_pwr (s : State) (f : RidgeState → RidgeState) : (State.onRdg s f).pwr = s.pwr := rfl
@[simp] theorem State.onRdg_hst (s : State) (f : RidgeState → RidgeState) : (State.onRdg s f).hst = s.hst := rfl
@[simp] theorem State.onRdg_stg (s : State) (f : RidgeState → RidgeState) : (State.onRdg s f).stg = s.stg := rfl
@[simp] theorem State.onRdg_tabs (s : State) (f : RidgeState → RidgeState) : (State.onRdg s f).tabs = s.tabs := rfl
@[simp] theorem State.onRdg_evt (s : State) (f : RidgeState → RidgeState) : (State.onRdg s f).evt = s.evt := rfl
@[simp] theorem State.onRdg_gen (s : State) (f : RidgeState → RidgeState) : (State.onRdg s f).gen = s.gen := rfl
@[simp] theorem State.onRdg_fst (s : State) (f : RidgeState → RidgeState) : (State.onRdg s f).fst = s.fst := rfl
@[simp] theorem State.onRdg_links (s : State) (f : RidgeState → RidgeState) : (State.onRdg s f).links = s.links := rfl
@[simp] theorem State.onRdg_thm (s : State) (f : RidgeState → RidgeState) : (State.onRdg s f).thm = s.thm := rfl
@[simp] theorem State.onRdg_drv (s : State) (f : RidgeState → RidgeState) : (State.onRdg s f).drv = s.drv := rfl
@[simp] theorem State.onRdg_pipe (s : State) (f : RidgeState → RidgeState) : (State.onRdg s f).pipe = s.pipe := rfl
@[simp] theorem State.onRdg_cal (s : State) (f : RidgeState → RidgeState) : (State.onRdg s f).cal = s.cal := rfl
@[simp] theorem State.onRdg_pnl (s : State) (f : RidgeState → RidgeState) : (State.onRdg s f).pnl = s.pnl := rfl
@[simp] theorem State.onRdg_hrt (s : State) (f : RidgeState → RidgeState) : (State.onRdg s f).hrt = s.hrt := rfl
@[simp] theorem State.onRdg_bnk (s : State) (f : RidgeState → RidgeState) : (State.onRdg s f).bnk = s.bnk := rfl
@[simp] theorem State.onRdg_win (s : State) (f : RidgeState → RidgeState) : (State.onRdg s f).win = s.win := rfl
@[simp] theorem State.onRdg_mag (s : State) (f : RidgeState → RidgeState) : (State.onRdg s f).mag = s.mag := rfl
@[simp] theorem State.onRdg_thc (s : State) (f : RidgeState → RidgeState) : (State.onRdg s f).thc = s.thc := rfl
@[simp] theorem State.onRdg_tmk (s : State) (f : RidgeState → RidgeState) : (State.onRdg s f).tmk = s.tmk := rfl
@[simp] theorem State.onRdg_jtag (s : State) (f : RidgeState → RidgeState) : (State.onRdg s f).jtag = s.jtag := rfl
@[simp] theorem State.onRdg_fmask (s : State) (f : RidgeState → RidgeState) : (State.onRdg s f).fmask = s.fmask := rfl
@[simp] theorem State.onRdg_aon (s : State) (f : RidgeState → RidgeState) : (State.onRdg s f).aon = s.aon := rfl
@[simp] theorem State.onRdg_freeN (s : State) (f : RidgeState → RidgeState) : (State.onRdg s f).freeN = s.freeN := rfl
@[simp] theorem State.onRdg_fsEpoch (s : State) (f : RidgeState → RidgeState) : (State.onRdg s f).fsEpoch = s.fsEpoch := rfl
@[simp] theorem State.onRdg_out (s : State) (f : RidgeState → RidgeState) : (State.onRdg s f).out = s.out := rfl
@[simp] theorem State.onRdg_pending (s : State) (f : RidgeState → RidgeState) : (State.onRdg s f).pending = s.pending := rfl
@[simp] theorem State.onRdg_getF (s : State) (f : RidgeState → RidgeState) (a : Nat) (fl : Fld) : (State.onRdg s f).getF a fl = s.getF a fl := rfl
@[simp] theorem State.onRdg_flag (s : State) (f : RidgeState → RidgeState) (a : Nat) (fl : Fld) : (State.onRdg s f).flag a fl = s.flag a fl := rfl
@[simp] theorem State.onRdg_isOn (s : State) (f : RidgeState → RidgeState) (d : Nat) : (State.onRdg s f).isOn d = s.isOn d := rfl
@[simp] theorem State.onRdg_isReady (s : State) (f : RidgeState → RidgeState) (b : Nat) : (State.onRdg s f).isReady b = s.isReady b := rfl

/-! ## State.onRst -/

@[simp] theorem State.onRst_rst (s : State) (f : ResetState → ResetState) : (State.onRst s f).rst = f s.rst := rfl
@[simp] theorem State.onRst_part (s : State) (f : ResetState → ResetState) : (State.onRst s f).part = s.part := rfl
@[simp] theorem State.onRst_regs (s : State) (f : ResetState → ResetState) : (State.onRst s f).regs = s.regs := rfl
@[simp] theorem State.onRst_pwr (s : State) (f : ResetState → ResetState) : (State.onRst s f).pwr = s.pwr := rfl
@[simp] theorem State.onRst_hst (s : State) (f : ResetState → ResetState) : (State.onRst s f).hst = s.hst := rfl
@[simp] theorem State.onRst_stg (s : State) (f : ResetState → ResetState) : (State.onRst s f).stg = s.stg := rfl
@[simp] theorem State.onRst_tabs (s : State) (f : ResetState → ResetState) : (State.onRst s f).tabs = s.tabs := rfl
@[simp] theorem State.onRst_evt (s : State) (f : ResetState → ResetState) : (State.onRst s f).evt = s.evt := rfl
@[simp] theorem State.onRst_gen (s : State) (f : ResetState → ResetState) : (State.onRst s f).gen = s.gen := rfl
@[simp] theorem State.onRst_rdg (s : State) (f : ResetState → ResetState) : (State.onRst s f).rdg = s.rdg := rfl
@[simp] theorem State.onRst_fst (s : State) (f : ResetState → ResetState) : (State.onRst s f).fst = s.fst := rfl
@[simp] theorem State.onRst_links (s : State) (f : ResetState → ResetState) : (State.onRst s f).links = s.links := rfl
@[simp] theorem State.onRst_thm (s : State) (f : ResetState → ResetState) : (State.onRst s f).thm = s.thm := rfl
@[simp] theorem State.onRst_drv (s : State) (f : ResetState → ResetState) : (State.onRst s f).drv = s.drv := rfl
@[simp] theorem State.onRst_pipe (s : State) (f : ResetState → ResetState) : (State.onRst s f).pipe = s.pipe := rfl
@[simp] theorem State.onRst_cal (s : State) (f : ResetState → ResetState) : (State.onRst s f).cal = s.cal := rfl
@[simp] theorem State.onRst_pnl (s : State) (f : ResetState → ResetState) : (State.onRst s f).pnl = s.pnl := rfl
@[simp] theorem State.onRst_hrt (s : State) (f : ResetState → ResetState) : (State.onRst s f).hrt = s.hrt := rfl
@[simp] theorem State.onRst_bnk (s : State) (f : ResetState → ResetState) : (State.onRst s f).bnk = s.bnk := rfl
@[simp] theorem State.onRst_win (s : State) (f : ResetState → ResetState) : (State.onRst s f).win = s.win := rfl
@[simp] theorem State.onRst_mag (s : State) (f : ResetState → ResetState) : (State.onRst s f).mag = s.mag := rfl
@[simp] theorem State.onRst_thc (s : State) (f : ResetState → ResetState) : (State.onRst s f).thc = s.thc := rfl
@[simp] theorem State.onRst_tmk (s : State) (f : ResetState → ResetState) : (State.onRst s f).tmk = s.tmk := rfl
@[simp] theorem State.onRst_jtag (s : State) (f : ResetState → ResetState) : (State.onRst s f).jtag = s.jtag := rfl
@[simp] theorem State.onRst_fmask (s : State) (f : ResetState → ResetState) : (State.onRst s f).fmask = s.fmask := rfl
@[simp] theorem State.onRst_aon (s : State) (f : ResetState → ResetState) : (State.onRst s f).aon = s.aon := rfl
@[simp] theorem State.onRst_freeN (s : State) (f : ResetState → ResetState) : (State.onRst s f).freeN = s.freeN := rfl
@[simp] theorem State.onRst_fsEpoch (s : State) (f : ResetState → ResetState) : (State.onRst s f).fsEpoch = s.fsEpoch := rfl
@[simp] theorem State.onRst_out (s : State) (f : ResetState → ResetState) : (State.onRst s f).out = s.out := rfl
@[simp] theorem State.onRst_pending (s : State) (f : ResetState → ResetState) : (State.onRst s f).pending = s.pending := rfl
@[simp] theorem State.onRst_getF (s : State) (f : ResetState → ResetState) (a : Nat) (fl : Fld) : (State.onRst s f).getF a fl = s.getF a fl := rfl
@[simp] theorem State.onRst_flag (s : State) (f : ResetState → ResetState) (a : Nat) (fl : Fld) : (State.onRst s f).flag a fl = s.flag a fl := rfl
@[simp] theorem State.onRst_isOn (s : State) (f : ResetState → ResetState) (d : Nat) : (State.onRst s f).isOn d = s.isOn d := rfl
@[simp] theorem State.onRst_isReady (s : State) (f : ResetState → ResetState) (b : Nat) : (State.onRst s f).isReady b = s.isReady b := rfl

/-! ## State.onStg -/

@[simp] theorem State.onStg_stg (s : State) (f : StageState → StageState) : (State.onStg s f).stg = f s.stg := rfl
@[simp] theorem State.onStg_part (s : State) (f : StageState → StageState) : (State.onStg s f).part = s.part := rfl
@[simp] theorem State.onStg_regs (s : State) (f : StageState → StageState) : (State.onStg s f).regs = s.regs := rfl
@[simp] theorem State.onStg_rst (s : State) (f : StageState → StageState) : (State.onStg s f).rst = s.rst := rfl
@[simp] theorem State.onStg_pwr (s : State) (f : StageState → StageState) : (State.onStg s f).pwr = s.pwr := rfl
@[simp] theorem State.onStg_hst (s : State) (f : StageState → StageState) : (State.onStg s f).hst = s.hst := rfl
@[simp] theorem State.onStg_tabs (s : State) (f : StageState → StageState) : (State.onStg s f).tabs = s.tabs := rfl
@[simp] theorem State.onStg_evt (s : State) (f : StageState → StageState) : (State.onStg s f).evt = s.evt := rfl
@[simp] theorem State.onStg_gen (s : State) (f : StageState → StageState) : (State.onStg s f).gen = s.gen := rfl
@[simp] theorem State.onStg_rdg (s : State) (f : StageState → StageState) : (State.onStg s f).rdg = s.rdg := rfl
@[simp] theorem State.onStg_fst (s : State) (f : StageState → StageState) : (State.onStg s f).fst = s.fst := rfl
@[simp] theorem State.onStg_links (s : State) (f : StageState → StageState) : (State.onStg s f).links = s.links := rfl
@[simp] theorem State.onStg_thm (s : State) (f : StageState → StageState) : (State.onStg s f).thm = s.thm := rfl
@[simp] theorem State.onStg_drv (s : State) (f : StageState → StageState) : (State.onStg s f).drv = s.drv := rfl
@[simp] theorem State.onStg_pipe (s : State) (f : StageState → StageState) : (State.onStg s f).pipe = s.pipe := rfl
@[simp] theorem State.onStg_cal (s : State) (f : StageState → StageState) : (State.onStg s f).cal = s.cal := rfl
@[simp] theorem State.onStg_pnl (s : State) (f : StageState → StageState) : (State.onStg s f).pnl = s.pnl := rfl
@[simp] theorem State.onStg_hrt (s : State) (f : StageState → StageState) : (State.onStg s f).hrt = s.hrt := rfl
@[simp] theorem State.onStg_bnk (s : State) (f : StageState → StageState) : (State.onStg s f).bnk = s.bnk := rfl
@[simp] theorem State.onStg_win (s : State) (f : StageState → StageState) : (State.onStg s f).win = s.win := rfl
@[simp] theorem State.onStg_mag (s : State) (f : StageState → StageState) : (State.onStg s f).mag = s.mag := rfl
@[simp] theorem State.onStg_thc (s : State) (f : StageState → StageState) : (State.onStg s f).thc = s.thc := rfl
@[simp] theorem State.onStg_tmk (s : State) (f : StageState → StageState) : (State.onStg s f).tmk = s.tmk := rfl
@[simp] theorem State.onStg_jtag (s : State) (f : StageState → StageState) : (State.onStg s f).jtag = s.jtag := rfl
@[simp] theorem State.onStg_fmask (s : State) (f : StageState → StageState) : (State.onStg s f).fmask = s.fmask := rfl
@[simp] theorem State.onStg_aon (s : State) (f : StageState → StageState) : (State.onStg s f).aon = s.aon := rfl
@[simp] theorem State.onStg_freeN (s : State) (f : StageState → StageState) : (State.onStg s f).freeN = s.freeN := rfl
@[simp] theorem State.onStg_fsEpoch (s : State) (f : StageState → StageState) : (State.onStg s f).fsEpoch = s.fsEpoch := rfl
@[simp] theorem State.onStg_out (s : State) (f : StageState → StageState) : (State.onStg s f).out = s.out := rfl
@[simp] theorem State.onStg_pending (s : State) (f : StageState → StageState) : (State.onStg s f).pending = s.pending := rfl
@[simp] theorem State.onStg_getF (s : State) (f : StageState → StageState) (a : Nat) (fl : Fld) : (State.onStg s f).getF a fl = s.getF a fl := rfl
@[simp] theorem State.onStg_flag (s : State) (f : StageState → StageState) (a : Nat) (fl : Fld) : (State.onStg s f).flag a fl = s.flag a fl := rfl
@[simp] theorem State.onStg_isOn (s : State) (f : StageState → StageState) (d : Nat) : (State.onStg s f).isOn d = s.isOn d := rfl
@[simp] theorem State.onStg_isReady (s : State) (f : StageState → StageState) (b : Nat) : (State.onStg s f).isReady b = s.isReady b := rfl

/-! ## State.onThc -/

@[simp] theorem State.onThc_thc (s : State) (f : ThcState → ThcState) : (State.onThc s f).thc = f s.thc := rfl
@[simp] theorem State.onThc_part (s : State) (f : ThcState → ThcState) : (State.onThc s f).part = s.part := rfl
@[simp] theorem State.onThc_regs (s : State) (f : ThcState → ThcState) : (State.onThc s f).regs = s.regs := rfl
@[simp] theorem State.onThc_rst (s : State) (f : ThcState → ThcState) : (State.onThc s f).rst = s.rst := rfl
@[simp] theorem State.onThc_pwr (s : State) (f : ThcState → ThcState) : (State.onThc s f).pwr = s.pwr := rfl
@[simp] theorem State.onThc_hst (s : State) (f : ThcState → ThcState) : (State.onThc s f).hst = s.hst := rfl
@[simp] theorem State.onThc_stg (s : State) (f : ThcState → ThcState) : (State.onThc s f).stg = s.stg := rfl
@[simp] theorem State.onThc_tabs (s : State) (f : ThcState → ThcState) : (State.onThc s f).tabs = s.tabs := rfl
@[simp] theorem State.onThc_evt (s : State) (f : ThcState → ThcState) : (State.onThc s f).evt = s.evt := rfl
@[simp] theorem State.onThc_gen (s : State) (f : ThcState → ThcState) : (State.onThc s f).gen = s.gen := rfl
@[simp] theorem State.onThc_rdg (s : State) (f : ThcState → ThcState) : (State.onThc s f).rdg = s.rdg := rfl
@[simp] theorem State.onThc_fst (s : State) (f : ThcState → ThcState) : (State.onThc s f).fst = s.fst := rfl
@[simp] theorem State.onThc_links (s : State) (f : ThcState → ThcState) : (State.onThc s f).links = s.links := rfl
@[simp] theorem State.onThc_thm (s : State) (f : ThcState → ThcState) : (State.onThc s f).thm = s.thm := rfl
@[simp] theorem State.onThc_drv (s : State) (f : ThcState → ThcState) : (State.onThc s f).drv = s.drv := rfl
@[simp] theorem State.onThc_pipe (s : State) (f : ThcState → ThcState) : (State.onThc s f).pipe = s.pipe := rfl
@[simp] theorem State.onThc_cal (s : State) (f : ThcState → ThcState) : (State.onThc s f).cal = s.cal := rfl
@[simp] theorem State.onThc_pnl (s : State) (f : ThcState → ThcState) : (State.onThc s f).pnl = s.pnl := rfl
@[simp] theorem State.onThc_hrt (s : State) (f : ThcState → ThcState) : (State.onThc s f).hrt = s.hrt := rfl
@[simp] theorem State.onThc_bnk (s : State) (f : ThcState → ThcState) : (State.onThc s f).bnk = s.bnk := rfl
@[simp] theorem State.onThc_win (s : State) (f : ThcState → ThcState) : (State.onThc s f).win = s.win := rfl
@[simp] theorem State.onThc_mag (s : State) (f : ThcState → ThcState) : (State.onThc s f).mag = s.mag := rfl
@[simp] theorem State.onThc_tmk (s : State) (f : ThcState → ThcState) : (State.onThc s f).tmk = s.tmk := rfl
@[simp] theorem State.onThc_jtag (s : State) (f : ThcState → ThcState) : (State.onThc s f).jtag = s.jtag := rfl
@[simp] theorem State.onThc_fmask (s : State) (f : ThcState → ThcState) : (State.onThc s f).fmask = s.fmask := rfl
@[simp] theorem State.onThc_aon (s : State) (f : ThcState → ThcState) : (State.onThc s f).aon = s.aon := rfl
@[simp] theorem State.onThc_freeN (s : State) (f : ThcState → ThcState) : (State.onThc s f).freeN = s.freeN := rfl
@[simp] theorem State.onThc_fsEpoch (s : State) (f : ThcState → ThcState) : (State.onThc s f).fsEpoch = s.fsEpoch := rfl
@[simp] theorem State.onThc_out (s : State) (f : ThcState → ThcState) : (State.onThc s f).out = s.out := rfl
@[simp] theorem State.onThc_pending (s : State) (f : ThcState → ThcState) : (State.onThc s f).pending = s.pending := rfl
@[simp] theorem State.onThc_reg (s : State) (f : ThcState → ThcState) (a : Nat) : (State.onThc s f).reg a = s.reg a := rfl
@[simp] theorem State.onThc_getF (s : State) (f : ThcState → ThcState) (a : Nat) (fl : Fld) : (State.onThc s f).getF a fl = s.getF a fl := rfl
@[simp] theorem State.onThc_flag (s : State) (f : ThcState → ThcState) (a : Nat) (fl : Fld) : (State.onThc s f).flag a fl = s.flag a fl := rfl
@[simp] theorem State.onThc_isOn (s : State) (f : ThcState → ThcState) (d : Nat) : (State.onThc s f).isOn d = s.isOn d := rfl
@[simp] theorem State.onThc_isReady (s : State) (f : ThcState → ThcState) (b : Nat) : (State.onThc s f).isReady b = s.isReady b := rfl

/-! ## State.onThm -/

@[simp] theorem State.onThm_thm (s : State) (f : ThermState → ThermState) : (State.onThm s f).thm = f s.thm := rfl
@[simp] theorem State.onThm_part (s : State) (f : ThermState → ThermState) : (State.onThm s f).part = s.part := rfl
@[simp] theorem State.onThm_regs (s : State) (f : ThermState → ThermState) : (State.onThm s f).regs = s.regs := rfl
@[simp] theorem State.onThm_rst (s : State) (f : ThermState → ThermState) : (State.onThm s f).rst = s.rst := rfl
@[simp] theorem State.onThm_pwr (s : State) (f : ThermState → ThermState) : (State.onThm s f).pwr = s.pwr := rfl
@[simp] theorem State.onThm_hst (s : State) (f : ThermState → ThermState) : (State.onThm s f).hst = s.hst := rfl
@[simp] theorem State.onThm_stg (s : State) (f : ThermState → ThermState) : (State.onThm s f).stg = s.stg := rfl
@[simp] theorem State.onThm_tabs (s : State) (f : ThermState → ThermState) : (State.onThm s f).tabs = s.tabs := rfl
@[simp] theorem State.onThm_evt (s : State) (f : ThermState → ThermState) : (State.onThm s f).evt = s.evt := rfl
@[simp] theorem State.onThm_gen (s : State) (f : ThermState → ThermState) : (State.onThm s f).gen = s.gen := rfl
@[simp] theorem State.onThm_rdg (s : State) (f : ThermState → ThermState) : (State.onThm s f).rdg = s.rdg := rfl
@[simp] theorem State.onThm_fst (s : State) (f : ThermState → ThermState) : (State.onThm s f).fst = s.fst := rfl
@[simp] theorem State.onThm_links (s : State) (f : ThermState → ThermState) : (State.onThm s f).links = s.links := rfl
@[simp] theorem State.onThm_drv (s : State) (f : ThermState → ThermState) : (State.onThm s f).drv = s.drv := rfl
@[simp] theorem State.onThm_pipe (s : State) (f : ThermState → ThermState) : (State.onThm s f).pipe = s.pipe := rfl
@[simp] theorem State.onThm_cal (s : State) (f : ThermState → ThermState) : (State.onThm s f).cal = s.cal := rfl
@[simp] theorem State.onThm_pnl (s : State) (f : ThermState → ThermState) : (State.onThm s f).pnl = s.pnl := rfl
@[simp] theorem State.onThm_hrt (s : State) (f : ThermState → ThermState) : (State.onThm s f).hrt = s.hrt := rfl
@[simp] theorem State.onThm_bnk (s : State) (f : ThermState → ThermState) : (State.onThm s f).bnk = s.bnk := rfl
@[simp] theorem State.onThm_win (s : State) (f : ThermState → ThermState) : (State.onThm s f).win = s.win := rfl
@[simp] theorem State.onThm_mag (s : State) (f : ThermState → ThermState) : (State.onThm s f).mag = s.mag := rfl
@[simp] theorem State.onThm_thc (s : State) (f : ThermState → ThermState) : (State.onThm s f).thc = s.thc := rfl
@[simp] theorem State.onThm_tmk (s : State) (f : ThermState → ThermState) : (State.onThm s f).tmk = s.tmk := rfl
@[simp] theorem State.onThm_jtag (s : State) (f : ThermState → ThermState) : (State.onThm s f).jtag = s.jtag := rfl
@[simp] theorem State.onThm_fmask (s : State) (f : ThermState → ThermState) : (State.onThm s f).fmask = s.fmask := rfl
@[simp] theorem State.onThm_aon (s : State) (f : ThermState → ThermState) : (State.onThm s f).aon = s.aon := rfl
@[simp] theorem State.onThm_freeN (s : State) (f : ThermState → ThermState) : (State.onThm s f).freeN = s.freeN := rfl
@[simp] theorem State.onThm_fsEpoch (s : State) (f : ThermState → ThermState) : (State.onThm s f).fsEpoch = s.fsEpoch := rfl
@[simp] theorem State.onThm_out (s : State) (f : ThermState → ThermState) : (State.onThm s f).out = s.out := rfl
@[simp] theorem State.onThm_pending (s : State) (f : ThermState → ThermState) : (State.onThm s f).pending = s.pending := rfl
@[simp] theorem State.onThm_getF (s : State) (f : ThermState → ThermState) (a : Nat) (fl : Fld) : (State.onThm s f).getF a fl = s.getF a fl := rfl
@[simp] theorem State.onThm_flag (s : State) (f : ThermState → ThermState) (a : Nat) (fl : Fld) : (State.onThm s f).flag a fl = s.flag a fl := rfl
@[simp] theorem State.onThm_isOn (s : State) (f : ThermState → ThermState) (d : Nat) : (State.onThm s f).isOn d = s.isOn d := rfl
@[simp] theorem State.onThm_isReady (s : State) (f : ThermState → ThermState) (b : Nat) : (State.onThm s f).isReady b = s.isReady b := rfl

/-! ## State.onTmk -/

@[simp] theorem State.onTmk_tmk (s : State) (f : MeterState → MeterState) : (State.onTmk s f).tmk = f s.tmk := rfl
@[simp] theorem State.onTmk_part (s : State) (f : MeterState → MeterState) : (State.onTmk s f).part = s.part := rfl
@[simp] theorem State.onTmk_regs (s : State) (f : MeterState → MeterState) : (State.onTmk s f).regs = s.regs := rfl
@[simp] theorem State.onTmk_rst (s : State) (f : MeterState → MeterState) : (State.onTmk s f).rst = s.rst := rfl
@[simp] theorem State.onTmk_pwr (s : State) (f : MeterState → MeterState) : (State.onTmk s f).pwr = s.pwr := rfl
@[simp] theorem State.onTmk_hst (s : State) (f : MeterState → MeterState) : (State.onTmk s f).hst = s.hst := rfl
@[simp] theorem State.onTmk_stg (s : State) (f : MeterState → MeterState) : (State.onTmk s f).stg = s.stg := rfl
@[simp] theorem State.onTmk_tabs (s : State) (f : MeterState → MeterState) : (State.onTmk s f).tabs = s.tabs := rfl
@[simp] theorem State.onTmk_evt (s : State) (f : MeterState → MeterState) : (State.onTmk s f).evt = s.evt := rfl
@[simp] theorem State.onTmk_gen (s : State) (f : MeterState → MeterState) : (State.onTmk s f).gen = s.gen := rfl
@[simp] theorem State.onTmk_rdg (s : State) (f : MeterState → MeterState) : (State.onTmk s f).rdg = s.rdg := rfl
@[simp] theorem State.onTmk_fst (s : State) (f : MeterState → MeterState) : (State.onTmk s f).fst = s.fst := rfl
@[simp] theorem State.onTmk_links (s : State) (f : MeterState → MeterState) : (State.onTmk s f).links = s.links := rfl
@[simp] theorem State.onTmk_thm (s : State) (f : MeterState → MeterState) : (State.onTmk s f).thm = s.thm := rfl
@[simp] theorem State.onTmk_drv (s : State) (f : MeterState → MeterState) : (State.onTmk s f).drv = s.drv := rfl
@[simp] theorem State.onTmk_pipe (s : State) (f : MeterState → MeterState) : (State.onTmk s f).pipe = s.pipe := rfl
@[simp] theorem State.onTmk_cal (s : State) (f : MeterState → MeterState) : (State.onTmk s f).cal = s.cal := rfl
@[simp] theorem State.onTmk_pnl (s : State) (f : MeterState → MeterState) : (State.onTmk s f).pnl = s.pnl := rfl
@[simp] theorem State.onTmk_hrt (s : State) (f : MeterState → MeterState) : (State.onTmk s f).hrt = s.hrt := rfl
@[simp] theorem State.onTmk_bnk (s : State) (f : MeterState → MeterState) : (State.onTmk s f).bnk = s.bnk := rfl
@[simp] theorem State.onTmk_win (s : State) (f : MeterState → MeterState) : (State.onTmk s f).win = s.win := rfl
@[simp] theorem State.onTmk_mag (s : State) (f : MeterState → MeterState) : (State.onTmk s f).mag = s.mag := rfl
@[simp] theorem State.onTmk_thc (s : State) (f : MeterState → MeterState) : (State.onTmk s f).thc = s.thc := rfl
@[simp] theorem State.onTmk_jtag (s : State) (f : MeterState → MeterState) : (State.onTmk s f).jtag = s.jtag := rfl
@[simp] theorem State.onTmk_fmask (s : State) (f : MeterState → MeterState) : (State.onTmk s f).fmask = s.fmask := rfl
@[simp] theorem State.onTmk_aon (s : State) (f : MeterState → MeterState) : (State.onTmk s f).aon = s.aon := rfl
@[simp] theorem State.onTmk_freeN (s : State) (f : MeterState → MeterState) : (State.onTmk s f).freeN = s.freeN := rfl
@[simp] theorem State.onTmk_fsEpoch (s : State) (f : MeterState → MeterState) : (State.onTmk s f).fsEpoch = s.fsEpoch := rfl
@[simp] theorem State.onTmk_out (s : State) (f : MeterState → MeterState) : (State.onTmk s f).out = s.out := rfl
@[simp] theorem State.onTmk_pending (s : State) (f : MeterState → MeterState) : (State.onTmk s f).pending = s.pending := rfl
@[simp] theorem State.onTmk_reg (s : State) (f : MeterState → MeterState) (a : Nat) : (State.onTmk s f).reg a = s.reg a := rfl
@[simp] theorem State.onTmk_getF (s : State) (f : MeterState → MeterState) (a : Nat) (fl : Fld) : (State.onTmk s f).getF a fl = s.getF a fl := rfl
@[simp] theorem State.onTmk_flag (s : State) (f : MeterState → MeterState) (a : Nat) (fl : Fld) : (State.onTmk s f).flag a fl = s.flag a fl := rfl
@[simp] theorem State.onTmk_isOn (s : State) (f : MeterState → MeterState) (d : Nat) : (State.onTmk s f).isOn d = s.isOn d := rfl
@[simp] theorem State.onTmk_isReady (s : State) (f : MeterState → MeterState) (b : Nat) : (State.onTmk s f).isReady b = s.isReady b := rfl

/-! ## State.setClient -/

@[simp] theorem State.setClient_part (s : State) (c : Nat) (k : Client) : (State.setClient s c k).part = s.part := rfl
@[simp] theorem State.setClient_regs (s : State) (c : Nat) (k : Client) : (State.setClient s c k).regs = s.regs := rfl
@[simp] theorem State.setClient_rst (s : State) (c : Nat) (k : Client) : (State.setClient s c k).rst = s.rst := rfl
@[simp] theorem State.setClient_pwr (s : State) (c : Nat) (k : Client) : (State.setClient s c k).pwr = s.pwr := rfl
@[simp] theorem State.setClient_stg (s : State) (c : Nat) (k : Client) : (State.setClient s c k).stg = s.stg := rfl
@[simp] theorem State.setClient_tabs (s : State) (c : Nat) (k : Client) : (State.setClient s c k).tabs = s.tabs := rfl
@[simp] theorem State.setClient_evt (s : State) (c : Nat) (k : Client) : (State.setClient s c k).evt = s.evt := rfl
@[simp] theorem State.setClient_gen (s : State) (c : Nat) (k : Client) : (State.setClient s c k).gen = s.gen := rfl
@[simp] theorem State.setClient_rdg (s : State) (c : Nat) (k : Client) : (State.setClient s c k).rdg = s.rdg := rfl
@[simp] theorem State.setClient_fst (s : State) (c : Nat) (k : Client) : (State.setClient s c k).fst = s.fst := rfl
@[simp] theorem State.setClient_links (s : State) (c : Nat) (k : Client) : (State.setClient s c k).links = s.links := rfl
@[simp] theorem State.setClient_thm (s : State) (c : Nat) (k : Client) : (State.setClient s c k).thm = s.thm := rfl
@[simp] theorem State.setClient_drv (s : State) (c : Nat) (k : Client) : (State.setClient s c k).drv = s.drv := rfl
@[simp] theorem State.setClient_pipe (s : State) (c : Nat) (k : Client) : (State.setClient s c k).pipe = s.pipe := rfl
@[simp] theorem State.setClient_cal (s : State) (c : Nat) (k : Client) : (State.setClient s c k).cal = s.cal := rfl
@[simp] theorem State.setClient_pnl (s : State) (c : Nat) (k : Client) : (State.setClient s c k).pnl = s.pnl := rfl
@[simp] theorem State.setClient_hrt (s : State) (c : Nat) (k : Client) : (State.setClient s c k).hrt = s.hrt := rfl
@[simp] theorem State.setClient_bnk (s : State) (c : Nat) (k : Client) : (State.setClient s c k).bnk = s.bnk := rfl
@[simp] theorem State.setClient_win (s : State) (c : Nat) (k : Client) : (State.setClient s c k).win = s.win := rfl
@[simp] theorem State.setClient_mag (s : State) (c : Nat) (k : Client) : (State.setClient s c k).mag = s.mag := rfl
@[simp] theorem State.setClient_thc (s : State) (c : Nat) (k : Client) : (State.setClient s c k).thc = s.thc := rfl
@[simp] theorem State.setClient_tmk (s : State) (c : Nat) (k : Client) : (State.setClient s c k).tmk = s.tmk := rfl
@[simp] theorem State.setClient_jtag (s : State) (c : Nat) (k : Client) : (State.setClient s c k).jtag = s.jtag := rfl
@[simp] theorem State.setClient_fmask (s : State) (c : Nat) (k : Client) : (State.setClient s c k).fmask = s.fmask := rfl
@[simp] theorem State.setClient_aon (s : State) (c : Nat) (k : Client) : (State.setClient s c k).aon = s.aon := rfl
@[simp] theorem State.setClient_freeN (s : State) (c : Nat) (k : Client) : (State.setClient s c k).freeN = s.freeN := rfl
@[simp] theorem State.setClient_fsEpoch (s : State) (c : Nat) (k : Client) : (State.setClient s c k).fsEpoch = s.fsEpoch := rfl
@[simp] theorem State.setClient_out (s : State) (c : Nat) (k : Client) : (State.setClient s c k).out = s.out := rfl
@[simp] theorem State.setClient_pending (s : State) (c : Nat) (k : Client) : (State.setClient s c k).pending = s.pending := rfl
@[simp] theorem State.setClient_getF (s : State) (c : Nat) (k : Client) (a : Nat) (fl : Fld) : (State.setClient s c k).getF a fl = s.getF a fl := rfl
@[simp] theorem State.setClient_flag (s : State) (c : Nat) (k : Client) (a : Nat) (fl : Fld) : (State.setClient s c k).flag a fl = s.flag a fl := rfl
@[simp] theorem State.setClient_isOn (s : State) (c : Nat) (k : Client) (d : Nat) : (State.setClient s c k).isOn d = s.isOn d := rfl
@[simp] theorem State.setClient_isReady (s : State) (c : Nat) (k : Client) (b : Nat) : (State.setClient s c k).isReady b = s.isReady b := rfl

/-! ## State.setDriver -/

@[simp] theorem State.setDriver_part (s : State) (g : Nat) (d : Driver) : (State.setDriver s g d).part = s.part := rfl
@[simp] theorem State.setDriver_regs (s : State) (g : Nat) (d : Driver) : (State.setDriver s g d).regs = s.regs := rfl
@[simp] theorem State.setDriver_rst (s : State) (g : Nat) (d : Driver) : (State.setDriver s g d).rst = s.rst := rfl
@[simp] theorem State.setDriver_pwr (s : State) (g : Nat) (d : Driver) : (State.setDriver s g d).pwr = s.pwr := rfl
@[simp] theorem State.setDriver_hst (s : State) (g : Nat) (d : Driver) : (State.setDriver s g d).hst = s.hst := rfl
@[simp] theorem State.setDriver_stg (s : State) (g : Nat) (d : Driver) : (State.setDriver s g d).stg = s.stg := rfl
@[simp] theorem State.setDriver_tabs (s : State) (g : Nat) (d : Driver) : (State.setDriver s g d).tabs = s.tabs := rfl
@[simp] theorem State.setDriver_evt (s : State) (g : Nat) (d : Driver) : (State.setDriver s g d).evt = s.evt := rfl
@[simp] theorem State.setDriver_gen (s : State) (g : Nat) (d : Driver) : (State.setDriver s g d).gen = s.gen := rfl
@[simp] theorem State.setDriver_rdg (s : State) (g : Nat) (d : Driver) : (State.setDriver s g d).rdg = s.rdg := rfl
@[simp] theorem State.setDriver_fst (s : State) (g : Nat) (d : Driver) : (State.setDriver s g d).fst = s.fst := rfl
@[simp] theorem State.setDriver_links (s : State) (g : Nat) (d : Driver) : (State.setDriver s g d).links = s.links := rfl
@[simp] theorem State.setDriver_thm (s : State) (g : Nat) (d : Driver) : (State.setDriver s g d).thm = s.thm := rfl
@[simp] theorem State.setDriver_pipe (s : State) (g : Nat) (d : Driver) : (State.setDriver s g d).pipe = s.pipe := rfl
@[simp] theorem State.setDriver_cal (s : State) (g : Nat) (d : Driver) : (State.setDriver s g d).cal = s.cal := rfl
@[simp] theorem State.setDriver_pnl (s : State) (g : Nat) (d : Driver) : (State.setDriver s g d).pnl = s.pnl := rfl
@[simp] theorem State.setDriver_hrt (s : State) (g : Nat) (d : Driver) : (State.setDriver s g d).hrt = s.hrt := rfl
@[simp] theorem State.setDriver_bnk (s : State) (g : Nat) (d : Driver) : (State.setDriver s g d).bnk = s.bnk := rfl
@[simp] theorem State.setDriver_win (s : State) (g : Nat) (d : Driver) : (State.setDriver s g d).win = s.win := rfl
@[simp] theorem State.setDriver_mag (s : State) (g : Nat) (d : Driver) : (State.setDriver s g d).mag = s.mag := rfl
@[simp] theorem State.setDriver_thc (s : State) (g : Nat) (d : Driver) : (State.setDriver s g d).thc = s.thc := rfl
@[simp] theorem State.setDriver_tmk (s : State) (g : Nat) (d : Driver) : (State.setDriver s g d).tmk = s.tmk := rfl
@[simp] theorem State.setDriver_jtag (s : State) (g : Nat) (d : Driver) : (State.setDriver s g d).jtag = s.jtag := rfl
@[simp] theorem State.setDriver_fmask (s : State) (g : Nat) (d : Driver) : (State.setDriver s g d).fmask = s.fmask := rfl
@[simp] theorem State.setDriver_aon (s : State) (g : Nat) (d : Driver) : (State.setDriver s g d).aon = s.aon := rfl
@[simp] theorem State.setDriver_freeN (s : State) (g : Nat) (d : Driver) : (State.setDriver s g d).freeN = s.freeN := rfl
@[simp] theorem State.setDriver_fsEpoch (s : State) (g : Nat) (d : Driver) : (State.setDriver s g d).fsEpoch = s.fsEpoch := rfl
@[simp] theorem State.setDriver_out (s : State) (g : Nat) (d : Driver) : (State.setDriver s g d).out = s.out := rfl
@[simp] theorem State.setDriver_pending (s : State) (g : Nat) (d : Driver) : (State.setDriver s g d).pending = s.pending := rfl
@[simp] theorem State.setDriver_getF (s : State) (g : Nat) (d : Driver) (a : Nat) (fl : Fld) : (State.setDriver s g d).getF a fl = s.getF a fl := rfl
@[simp] theorem State.setDriver_flag (s : State) (g : Nat) (d : Driver) (a : Nat) (fl : Fld) : (State.setDriver s g d).flag a fl = s.flag a fl := rfl
@[simp] theorem State.setDriver_isOn (s : State) (g : Nat) (d : Driver) (k : Nat) : (State.setDriver s g d).isOn k = s.isOn k := rfl
@[simp] theorem State.setDriver_isReady (s : State) (g : Nat) (d : Driver) (b : Nat) : (State.setDriver s g d).isReady b = s.isReady b := rfl

/-! ## State.setReg -/

@[simp] theorem State.setReg_part (s : State) (off : Nat) (v : Word) : (State.setReg s off v).part = s.part := rfl
@[simp] theorem State.setReg_rst (s : State) (off : Nat) (v : Word) : (State.setReg s off v).rst = s.rst := rfl
@[simp] theorem State.setReg_pwr (s : State) (off : Nat) (v : Word) : (State.setReg s off v).pwr = s.pwr := rfl
@[simp] theorem State.setReg_hst (s : State) (off : Nat) (v : Word) : (State.setReg s off v).hst = s.hst := rfl
@[simp] theorem State.setReg_stg (s : State) (off : Nat) (v : Word) : (State.setReg s off v).stg = s.stg := rfl
@[simp] theorem State.setReg_tabs (s : State) (off : Nat) (v : Word) : (State.setReg s off v).tabs = s.tabs := rfl
@[simp] theorem State.setReg_evt (s : State) (off : Nat) (v : Word) : (State.setReg s off v).evt = s.evt := rfl
@[simp] theorem State.setReg_gen (s : State) (off : Nat) (v : Word) : (State.setReg s off v).gen = s.gen := rfl
@[simp] theorem State.setReg_rdg (s : State) (off : Nat) (v : Word) : (State.setReg s off v).rdg = s.rdg := rfl
@[simp] theorem State.setReg_fst (s : State) (off : Nat) (v : Word) : (State.setReg s off v).fst = s.fst := rfl
@[simp] theorem State.setReg_links (s : State) (off : Nat) (v : Word) : (State.setReg s off v).links = s.links := rfl
@[simp] theorem State.setReg_thm (s : State) (off : Nat) (v : Word) : (State.setReg s off v).thm = s.thm := rfl
@[simp] theorem State.setReg_drv (s : State) (off : Nat) (v : Word) : (State.setReg s off v).drv = s.drv := rfl
@[simp] theorem State.setReg_pipe (s : State) (off : Nat) (v : Word) : (State.setReg s off v).pipe = s.pipe := rfl
@[simp] theorem State.setReg_cal (s : State) (off : Nat) (v : Word) : (State.setReg s off v).cal = s.cal := rfl
@[simp] theorem State.setReg_pnl (s : State) (off : Nat) (v : Word) : (State.setReg s off v).pnl = s.pnl := rfl
@[simp] theorem State.setReg_hrt (s : State) (off : Nat) (v : Word) : (State.setReg s off v).hrt = s.hrt := rfl
@[simp] theorem State.setReg_bnk (s : State) (off : Nat) (v : Word) : (State.setReg s off v).bnk = s.bnk := rfl
@[simp] theorem State.setReg_win (s : State) (off : Nat) (v : Word) : (State.setReg s off v).win = s.win := rfl
@[simp] theorem State.setReg_mag (s : State) (off : Nat) (v : Word) : (State.setReg s off v).mag = s.mag := rfl
@[simp] theorem State.setReg_thc (s : State) (off : Nat) (v : Word) : (State.setReg s off v).thc = s.thc := rfl
@[simp] theorem State.setReg_tmk (s : State) (off : Nat) (v : Word) : (State.setReg s off v).tmk = s.tmk := rfl
@[simp] theorem State.setReg_jtag (s : State) (off : Nat) (v : Word) : (State.setReg s off v).jtag = s.jtag := rfl
@[simp] theorem State.setReg_fmask (s : State) (off : Nat) (v : Word) : (State.setReg s off v).fmask = s.fmask := rfl
@[simp] theorem State.setReg_aon (s : State) (off : Nat) (v : Word) : (State.setReg s off v).aon = s.aon := rfl
@[simp] theorem State.setReg_freeN (s : State) (off : Nat) (v : Word) : (State.setReg s off v).freeN = s.freeN := rfl
@[simp] theorem State.setReg_fsEpoch (s : State) (off : Nat) (v : Word) : (State.setReg s off v).fsEpoch = s.fsEpoch := rfl
@[simp] theorem State.setReg_out (s : State) (off : Nat) (v : Word) : (State.setReg s off v).out = s.out := rfl
@[simp] theorem State.setReg_pending (s : State) (off : Nat) (v : Word) : (State.setReg s off v).pending = s.pending := rfl

/-! ## State.setTable -/

@[simp] theorem State.setTable_part (s : State) (t : Nat) (v : Table) : (State.setTable s t v).part = s.part := rfl
@[simp] theorem State.setTable_regs (s : State) (t : Nat) (v : Table) : (State.setTable s t v).regs = s.regs := rfl
@[simp] theorem State.setTable_rst (s : State) (t : Nat) (v : Table) : (State.setTable s t v).rst = s.rst := rfl
@[simp] theorem State.setTable_pwr (s : State) (t : Nat) (v : Table) : (State.setTable s t v).pwr = s.pwr := rfl
@[simp] theorem State.setTable_hst (s : State) (t : Nat) (v : Table) : (State.setTable s t v).hst = s.hst := rfl
@[simp] theorem State.setTable_stg (s : State) (t : Nat) (v : Table) : (State.setTable s t v).stg = s.stg := rfl
@[simp] theorem State.setTable_evt (s : State) (t : Nat) (v : Table) : (State.setTable s t v).evt = s.evt := rfl
@[simp] theorem State.setTable_gen (s : State) (t : Nat) (v : Table) : (State.setTable s t v).gen = s.gen := rfl
@[simp] theorem State.setTable_rdg (s : State) (t : Nat) (v : Table) : (State.setTable s t v).rdg = s.rdg := rfl
@[simp] theorem State.setTable_fst (s : State) (t : Nat) (v : Table) : (State.setTable s t v).fst = s.fst := rfl
@[simp] theorem State.setTable_links (s : State) (t : Nat) (v : Table) : (State.setTable s t v).links = s.links := rfl
@[simp] theorem State.setTable_thm (s : State) (t : Nat) (v : Table) : (State.setTable s t v).thm = s.thm := rfl
@[simp] theorem State.setTable_drv (s : State) (t : Nat) (v : Table) : (State.setTable s t v).drv = s.drv := rfl
@[simp] theorem State.setTable_pipe (s : State) (t : Nat) (v : Table) : (State.setTable s t v).pipe = s.pipe := rfl
@[simp] theorem State.setTable_cal (s : State) (t : Nat) (v : Table) : (State.setTable s t v).cal = s.cal := rfl
@[simp] theorem State.setTable_pnl (s : State) (t : Nat) (v : Table) : (State.setTable s t v).pnl = s.pnl := rfl
@[simp] theorem State.setTable_hrt (s : State) (t : Nat) (v : Table) : (State.setTable s t v).hrt = s.hrt := rfl
@[simp] theorem State.setTable_bnk (s : State) (t : Nat) (v : Table) : (State.setTable s t v).bnk = s.bnk := rfl
@[simp] theorem State.setTable_win (s : State) (t : Nat) (v : Table) : (State.setTable s t v).win = s.win := rfl
@[simp] theorem State.setTable_mag (s : State) (t : Nat) (v : Table) : (State.setTable s t v).mag = s.mag := rfl
@[simp] theorem State.setTable_thc (s : State) (t : Nat) (v : Table) : (State.setTable s t v).thc = s.thc := rfl
@[simp] theorem State.setTable_tmk (s : State) (t : Nat) (v : Table) : (State.setTable s t v).tmk = s.tmk := rfl
@[simp] theorem State.setTable_jtag (s : State) (t : Nat) (v : Table) : (State.setTable s t v).jtag = s.jtag := rfl
@[simp] theorem State.setTable_fmask (s : State) (t : Nat) (v : Table) : (State.setTable s t v).fmask = s.fmask := rfl
@[simp] theorem State.setTable_aon (s : State) (t : Nat) (v : Table) : (State.setTable s t v).aon = s.aon := rfl
@[simp] theorem State.setTable_freeN (s : State) (t : Nat) (v : Table) : (State.setTable s t v).freeN = s.freeN := rfl
@[simp] theorem State.setTable_fsEpoch (s : State) (t : Nat) (v : Table) : (State.setTable s t v).fsEpoch = s.fsEpoch := rfl
@[simp] theorem State.setTable_out (s : State) (t : Nat) (v : Table) : (State.setTable s t v).out = s.out := rfl
@[simp] theorem State.setTable_pending (s : State) (t : Nat) (v : Table) : (State.setTable s t v).pending = s.pending := rfl
@[simp] theorem State.setTable_getF (s : State) (t : Nat) (v : Table) (a : Nat) (fl : Fld) : (State.setTable s t v).getF a fl = s.getF a fl := rfl
@[simp] theorem State.setTable_flag (s : State) (t : Nat) (v : Table) (a : Nat) (fl : Fld) : (State.setTable s t v).flag a fl = s.flag a fl := rfl
@[simp] theorem State.setTable_isOn (s : State) (t : Nat) (v : Table) (d : Nat) : (State.setTable s t v).isOn d = s.isOn d := rfl
@[simp] theorem State.setTable_isReady (s : State) (t : Nat) (v : Table) (b : Nat) : (State.setTable s t v).isReady b = s.isReady b := rfl

end Sys2Proof.Machine
end

