-- ==== Sys2Proof/Laws/Ops.lean ====
section
/-! SUPPORT. What follows from the reach of a function, and the registers that the shared operations change. -/

namespace Sys2Proof.Machine

/-! ## From a cut to its areas -/

theorem part_of_cut {m : Area → Bool} {s t : State} (h : t.cut m = s.cut m) (hm : m .part = false) : t.part = s.part := by
  have e := congrArg State.part h
  simpa only [State.cut, hm, Bool.false_eq_true, if_false] using e

theorem regs_of_cut {m : Area → Bool} {s t : State} (h : t.cut m = s.cut m) (hm : m .regs = false) : t.regs = s.regs := by
  have e := congrArg State.regs h
  simpa only [State.cut, hm, Bool.false_eq_true, if_false] using e

theorem rst_of_cut {m : Area → Bool} {s t : State} (h : t.cut m = s.cut m) (hm : m .rst = false) : t.rst = s.rst := by
  have e := congrArg State.rst h
  simpa only [State.cut, hm, Bool.false_eq_true, if_false] using e

theorem pwr_of_cut {m : Area → Bool} {s t : State} (h : t.cut m = s.cut m) (hm : m .pwr = false) : t.pwr = s.pwr := by
  have e := congrArg State.pwr h
  simpa only [State.cut, hm, Bool.false_eq_true, if_false] using e

theorem hst_of_cut {m : Area → Bool} {s t : State} (h : t.cut m = s.cut m) (hm : m .hst = false) : t.hst = s.hst := by
  have e := congrArg State.hst h
  simpa only [State.cut, hm, Bool.false_eq_true, if_false] using e

theorem stg_of_cut {m : Area → Bool} {s t : State} (h : t.cut m = s.cut m) (hm : m .stg = false) : t.stg = s.stg := by
  have e := congrArg State.stg h
  simpa only [State.cut, hm, Bool.false_eq_true, if_false] using e

theorem tabs_of_cut {m : Area → Bool} {s t : State} (h : t.cut m = s.cut m) (hm : m .tabs = false) : t.tabs = s.tabs := by
  have e := congrArg State.tabs h
  simpa only [State.cut, hm, Bool.false_eq_true, if_false] using e

theorem evt_of_cut {m : Area → Bool} {s t : State} (h : t.cut m = s.cut m) (hm : m .evt = false) : t.evt = s.evt := by
  have e := congrArg State.evt h
  simpa only [State.cut, hm, Bool.false_eq_true, if_false] using e

theorem gen_of_cut {m : Area → Bool} {s t : State} (h : t.cut m = s.cut m) (hm : m .gen = false) : t.gen = s.gen := by
  have e := congrArg State.gen h
  simpa only [State.cut, hm, Bool.false_eq_true, if_false] using e

theorem rdg_of_cut {m : Area → Bool} {s t : State} (h : t.cut m = s.cut m) (hm : m .rdg = false) : t.rdg = s.rdg := by
  have e := congrArg State.rdg h
  simpa only [State.cut, hm, Bool.false_eq_true, if_false] using e

theorem fst_of_cut {m : Area → Bool} {s t : State} (h : t.cut m = s.cut m) (hm : m .fst = false) : t.fst = s.fst := by
  have e := congrArg State.fst h
  simpa only [State.cut, hm, Bool.false_eq_true, if_false] using e

theorem links_of_cut {m : Area → Bool} {s t : State} (h : t.cut m = s.cut m) (hm : m .links = false) : t.links = s.links := by
  have e := congrArg State.links h
  simpa only [State.cut, hm, Bool.false_eq_true, if_false] using e

theorem thm_of_cut {m : Area → Bool} {s t : State} (h : t.cut m = s.cut m) (hm : m .thm = false) : t.thm = s.thm := by
  have e := congrArg State.thm h
  simpa only [State.cut, hm, Bool.false_eq_true, if_false] using e

theorem drv_of_cut {m : Area → Bool} {s t : State} (h : t.cut m = s.cut m) (hm : m .drv = false) : t.drv = s.drv := by
  have e := congrArg State.drv h
  simpa only [State.cut, hm, Bool.false_eq_true, if_false] using e

theorem pipe_of_cut {m : Area → Bool} {s t : State} (h : t.cut m = s.cut m) (hm : m .pipe = false) : t.pipe = s.pipe := by
  have e := congrArg State.pipe h
  simpa only [State.cut, hm, Bool.false_eq_true, if_false] using e

theorem cal_of_cut {m : Area → Bool} {s t : State} (h : t.cut m = s.cut m) (hm : m .cal = false) : t.cal = s.cal := by
  have e := congrArg State.cal h
  simpa only [State.cut, hm, Bool.false_eq_true, if_false] using e

theorem pnl_of_cut {m : Area → Bool} {s t : State} (h : t.cut m = s.cut m) (hm : m .pnl = false) : t.pnl = s.pnl := by
  have e := congrArg State.pnl h
  simpa only [State.cut, hm, Bool.false_eq_true, if_false] using e

theorem hrt_of_cut {m : Area → Bool} {s t : State} (h : t.cut m = s.cut m) (hm : m .hrt = false) : t.hrt = s.hrt := by
  have e := congrArg State.hrt h
  simpa only [State.cut, hm, Bool.false_eq_true, if_false] using e

theorem bnk_of_cut {m : Area → Bool} {s t : State} (h : t.cut m = s.cut m) (hm : m .bnk = false) : t.bnk = s.bnk := by
  have e := congrArg State.bnk h
  simpa only [State.cut, hm, Bool.false_eq_true, if_false] using e

theorem win_of_cut {m : Area → Bool} {s t : State} (h : t.cut m = s.cut m) (hm : m .win = false) : t.win = s.win := by
  have e := congrArg State.win h
  simpa only [State.cut, hm, Bool.false_eq_true, if_false] using e

theorem mag_of_cut {m : Area → Bool} {s t : State} (h : t.cut m = s.cut m) (hm : m .mag = false) : t.mag = s.mag := by
  have e := congrArg State.mag h
  simpa only [State.cut, hm, Bool.false_eq_true, if_false] using e

theorem thc_of_cut {m : Area → Bool} {s t : State} (h : t.cut m = s.cut m) (hm : m .thc = false) : t.thc = s.thc := by
  have e := congrArg State.thc h
  simpa only [State.cut, hm, Bool.false_eq_true, if_false] using e

theorem jtag_of_cut {m : Area → Bool} {s t : State} (h : t.cut m = s.cut m) (hm : m .jtag = false) : t.jtag = s.jtag := by
  have e := congrArg State.jtag h
  simpa only [State.cut, hm, Bool.false_eq_true, if_false] using e

theorem fmask_of_cut {m : Area → Bool} {s t : State} (h : t.cut m = s.cut m) (hm : m .fmask = false) : t.fmask = s.fmask := by
  have e := congrArg State.fmask h
  simpa only [State.cut, hm, Bool.false_eq_true, if_false] using e

theorem aon_of_cut {m : Area → Bool} {s t : State} (h : t.cut m = s.cut m) (hm : m .aon = false) : t.aon = s.aon := by
  have e := congrArg State.aon h
  simpa only [State.cut, hm, Bool.false_eq_true, if_false] using e

theorem freeN_of_cut {m : Area → Bool} {s t : State} (h : t.cut m = s.cut m) (hm : m .freeN = false) : t.freeN = s.freeN := by
  have e := congrArg State.freeN h
  simpa only [State.cut, hm, Bool.false_eq_true, if_false] using e

theorem fsEpoch_of_cut {m : Area → Bool} {s t : State} (h : t.cut m = s.cut m) (hm : m .fsEpoch = false) : t.fsEpoch = s.fsEpoch := by
  have e := congrArg State.fsEpoch h
  simpa only [State.cut, hm, Bool.false_eq_true, if_false] using e

theorem out_of_cut {m : Area → Bool} {s t : State} (h : t.cut m = s.cut m) (hm : m .out = false) : t.out = s.out := by
  have e := congrArg State.out h
  simpa only [State.cut, hm, Bool.false_eq_true, if_false] using e

theorem pending_of_cut {m : Area → Bool} {s t : State} (h : t.cut m = s.cut m) (hm : m .pending = false) : t.pending = s.pending := by
  have e := congrArg State.pending h
  simpa only [State.cut, hm, Bool.false_eq_true, if_false] using e

theorem relay_of_cut {m : Area → Bool} {s t : State} (h : t.cut m = s.cut m) (hm : m .relay = false) :
    t.tmk.relays = s.tmk.relays ∧ t.tmk.relayResp = s.tmk.relayResp := by
  have e := congrArg (fun x : State => (x.tmk.relays, x.tmk.relayResp)) h
  simpa only [State.cut, hm, Bool.false_eq_true, if_false, Prod.mk.injEq] using e

theorem meter_of_cut {m : Area → Bool} {s t : State} (h : t.cut m = s.cut m) (hm : m .tmk = false) : t.meter = s.meter := by
  have e := congrArg State.meter h
  simpa only [State.cut, State.meter, hm, Bool.false_eq_true, if_false] using e

/-- A function that reaches no further than `l` leaves every other area as it was. -/
theorem untouched_of_cut {l : List Area} {s t : State} (h : t.cut (fun a => decide (a ∈ l)) = s.cut (fun a => decide (a ∈ l))) :
    Untouched s t l := by
  intro a ha
  have hm : decide (a ∈ l) = false := decide_eq_false ha
  cases a
  · exact part_of_cut h hm
  · exact regs_of_cut h hm
  · exact rst_of_cut h hm
  · exact pwr_of_cut h hm
  · exact hst_of_cut h hm
  · exact stg_of_cut h hm
  · exact tabs_of_cut h hm
  · exact evt_of_cut h hm
  · exact gen_of_cut h hm
  · exact rdg_of_cut h hm
  · exact fst_of_cut h hm
  · exact links_of_cut h hm
  · exact thm_of_cut h hm
  · exact drv_of_cut h hm
  · exact pipe_of_cut h hm
  · exact cal_of_cut h hm
  · exact pnl_of_cut h hm
  · exact hrt_of_cut h hm
  · exact bnk_of_cut h hm
  · exact win_of_cut h hm
  · exact mag_of_cut h hm
  · exact thc_of_cut h hm
  · exact meter_of_cut h hm
  · exact relay_of_cut h hm
  · exact jtag_of_cut h hm
  · exact fmask_of_cut h hm
  · exact aon_of_cut h hm
  · exact freeN_of_cut h hm
  · exact fsEpoch_of_cut h hm
  · exact out_of_cut h hm
  · exact pending_of_cut h hm

theorem reg_of_cut {m : Area → Bool} {s t : State} (h : t.cut m = s.cut m) (hr : m .regs = false) (hp : m .part = false) (k : Nat) :
    t.reg k = s.reg k := by
  unfold State.reg
  rw [regs_of_cut h hr, part_of_cut h hp]

/-- The areas that sending something reaches. -/
def sendArea : Area → Bool
  | .hst | .out | .rdg | .links => true
  | _ => false

/-! ## Registers -/

theorem State.bump_reg (s : State) {o k : Nat} (n : Nat) (h : k ≠ o) : (s.bump o n).reg k = s.reg k := reg_setReg_ne s _ h

theorem State.bumpF_reg (s : State) {o k : Nat} (f : Fld) (h : k ≠ o) : (s.bumpF o f).reg k = s.reg k := reg_setReg_ne s _ h

@[simp] theorem State.onEvt_reg (s : State) (f : EventState → EventState) (k : Nat) : (s.onEvt f).reg k = s.reg k := rfl

theorem State.fireTrigger_reg (s : State) {k : Nat} (h : k ∉ eventRegs) : s.fireTrigger.reg k = s.reg k := by
  simp only [eventRegs, List.mem_cons, not_or] at h
  unfold State.fireTrigger
  rw [State.onEvt_reg, reg_setF_ne _ _ _ h.2.2.2.1, reg_setF_ne _ _ _ h.2.2.1]

theorem State.syncEvtStat_reg (s : State) {k : Nat} (h : k ∉ eventRegs) : s.syncEvtStat.reg k = s.reg k := by
  simp only [eventRegs, List.mem_cons, not_or] at h
  unfold State.syncEvtStat
  rw [reg_setF_ne _ _ _ h.1, reg_setF_ne _ _ _ h.1]

theorem State.loseEvents_reg (s : State) (c n : Nat) {k : Nat} (h : k ∉ eventRegs) : (s.loseEvents c n).reg k = s.reg k := by
  simp only [eventRegs, List.mem_cons, not_or] at h
  exact State.bump_reg s n h.2.1

theorem State.trace_reg (s : State) (n : Nat) (p : List Byte) {k : Nat} (h : k ≠ Reg.EVT_TRC_DROP) : (s.trace n p).reg k = s.reg k := by
  unfold State.trace
  split
  · dsimp only
    split
    · exact State.bump_reg _ 1 h
    · rfl
  · rfl

theorem State.eventWith_reg (s : State) (a : Bool) (c : Nat) (l : List (Nat × Nat)) {k : Nat} (h : k ∉ eventRegs) :
    (s.eventWith a c l).reg k = s.reg k := by
  have ht : k ≠ Reg.EVT_TRC_DROP := by
    simp only [eventRegs, List.mem_cons, not_or] at h; exact h.2.2.2.2.1
  unfold State.eventWith
  split
  · extract_lets +onlyGivenNames p merged new s1 s2
    have h2 : s2.reg k = s.reg k := by
      simp only [s2]
      split
      · exact (State.syncEvtStat_reg _ h).trans (State.loseEvents_reg s _ _ h)
      · exact (State.trace_reg _ _ _ ht).trans (State.syncEvtStat_reg _ h)
    clear_value s2
    split
    · rw [State.fireTrigger_reg s2 h, h2]
    · exact h2
  · split
    · exact State.fireTrigger_reg s h
    · rfl

/-- An event changes no register but those of the event block that count and show it. -/
theorem State.event_reg (s : State) (c : Nat) (l : List (Nat × Nat)) {k : Nat} (h : k ∉ eventRegs) :
    (s.event c l).reg k = s.reg k := State.eventWith_reg s false c l h

@[simp] theorem State.signal_reg (s : State) (v k : Nat) : (s.signal v).reg k = s.reg k :=
  reg_of_cut (State.signal_cut (m := sendArea) s v rfl rfl rfl rfl) rfl rfl k
@[simp] theorem State.emit_reg (s : State) (o : Out) (k : Nat) : (s.emit o).reg k = s.reg k := rfl
@[simp] theorem State.flood_reg (s : State) (c : Nat) (b : List Byte) (k : Nat) : (s.flood c b).reg k = s.reg k :=
  reg_of_cut (State.flood_cut (m := sendArea) s c b rfl rfl rfl) rfl rfl k
@[simp] theorem State.unicast_reg (s : State) (d c : Nat) (b : List Byte) (k : Nat) : (s.unicast d c b).reg k = s.reg k :=
  reg_of_cut (State.unicast_cut (m := sendArea) s d c b rfl rfl) rfl rfl k
@[simp] theorem State.linkSend_reg (s : State) (q c a : Nat) (b : List Byte) (k : Nat) : (s.linkSend q c a b).reg k = s.reg k :=
  reg_of_cut (State.linkSend_cut (m := sendArea) s q c a b rfl rfl) rfl rfl k
@[simp] theorem State.sendAll_reg (s : State) (q c a : Nat) (b : List Byte) (k : Nat) : (s.sendAll q c a b).reg k = s.reg k :=
  reg_of_cut (State.sendAll_cut (m := sendArea) s q c a b rfl rfl) rfl rfl k
@[simp] theorem State.putHost_reg (s : State) (a : Nat) (b : List Byte) (u : Option (Nat × Nat)) (p : Bool) (k : Nat) :
    (s.putHost a b u p).reg k = s.reg k := reg_of_cut (State.putHost_cut (m := sendArea) s a b u p rfl rfl rfl) rfl rfl k
@[simp] theorem State.writeHost_reg (s : State) (a : Nat) (b : List Byte) (u : Option (Nat × Nat)) (k : Nat) :
    (s.writeHost a b u).reg k = s.reg k := reg_of_cut (State.writeHost_cut (m := sendArea) s a b u rfl rfl rfl) rfl rfl k
@[simp] theorem State.readHost_reg (s : State) (a n : Nat) (u : ReadUse) (k : Nat) :
    (s.readHost a n u).reg k = s.reg k := reg_of_cut (State.readHost_cut (m := sendArea) s a n u rfl rfl rfl rfl) rfl rfl k
@[simp] theorem State.onHst_reg (s : State) (f : HostState → HostState) (k : Nat) : (s.onHst f).reg k = s.reg k := rfl
@[simp] theorem State.onStg_reg (s : State) (f : StageState → StageState) (k : Nat) : (s.onStg f).reg k = s.reg k := rfl
@[simp] theorem State.onRst_reg (s : State) (f : ResetState → ResetState) (k : Nat) : (s.onRst f).reg k = s.reg k := rfl
@[simp] theorem State.onPwr_reg (s : State) (f : PowerState → PowerState) (k : Nat) : (s.onPwr f).reg k = s.reg k := rfl
@[simp] theorem State.onGen_reg (s : State) (f : GenState → GenState) (k : Nat) : (s.onGen f).reg k = s.reg k := rfl
@[simp] theorem State.onRdg_reg (s : State) (f : RidgeState → RidgeState) (k : Nat) : (s.onRdg f).reg k = s.reg k := rfl
@[simp] theorem State.onPnl_reg (s : State) (f : PanelState → PanelState) (k : Nat) : (s.onPnl f).reg k = s.reg k := rfl
@[simp] theorem State.onFst_reg (s : State) (f : FstState → FstState) (k : Nat) : (s.onFst f).reg k = s.reg k := rfl
@[simp] theorem State.onPipe_reg (s : State) (f : PipeState → PipeState) (k : Nat) : (s.onPipe f).reg k = s.reg k := rfl
@[simp] theorem State.onCal_reg (s : State) (f : CalState → CalState) (k : Nat) : (s.onCal f).reg k = s.reg k := rfl
@[simp] theorem State.onThm_reg (s : State) (f : ThermState → ThermState) (k : Nat) : (s.onThm f).reg k = s.reg k := rfl
@[simp] theorem State.onLink_reg (s : State) (q : Nat) (f : LinkState → LinkState) (k : Nat) : (s.onLink q f).reg k = s.reg k := rfl
@[simp] theorem State.setClient_reg (s : State) (c : Nat) (x : Client) (k : Nat) : (s.setClient c x).reg k = s.reg k := rfl
@[simp] theorem State.setDesc_reg (s : State) (c i : Nat) (f : Desc → Desc) (k : Nat) : (s.setDesc c i f).reg k = s.reg k := rfl
@[simp] theorem State.setTable_reg (s : State) (c : Nat) (x : Table) (k : Nat) : (s.setTable c x).reg k = s.reg k := rfl
@[simp] theorem State.setDriver_reg (s : State) (c : Nat) (x : Driver) (k : Nat) : (s.setDriver c x).reg k = s.reg k := rfl
@[simp] theorem State.setTxn_reg (s : State) (c : Nat) (f : Txn → Txn) (k : Nat) : (s.setTxn c f).reg k = s.reg k := rfl

theorem State.setReady_reg (s : State) (b : Nat) {k : Nat} (h : k ≠ Reg.GBL_READY) : (s.setReady b).reg k = s.reg k := by
  unfold State.setReady
  split
  · rfl
  · dsimp only
    split
    · rw [State.signal_reg, reg_setReg_ne _ _ h]
    · exact reg_setReg_ne _ _ h

theorem State.dropReady_reg (s : State) (b : Nat) {k : Nat} (h : k ≠ Reg.GBL_READY) : (s.dropReady b).reg k = s.reg k :=
  reg_setReg_ne _ _ h

theorem State.clearReady_reg (s : State) (b : Nat) {k : Nat} (h : k ≠ Reg.GBL_READY) (he : k ∉ eventRegs) :
    (s.clearReady b).reg k = s.reg k := by
  unfold State.clearReady
  split
  · rw [State.event_reg _ _ _ he]
    split
    · rw [State.signal_reg, State.dropReady_reg _ _ h]
    · exact State.dropReady_reg _ _ h
  · rfl

theorem State.latchAlarm_reg (s : State) (n : Nat) (l : List (Nat × Nat)) {k : Nat} (h : k ∉ alarmRegs n) :
    (s.latchAlarm n l).reg k = s.reg k := by
  simp only [alarmRegs, List.cons_append, List.nil_append, List.mem_cons, not_or] at h
  unfold State.latchAlarm
  split
  · rfl
  · rw [reg_setF_ne _ _ _ h.2.2.2.1, reg_setF_ne _ _ _ h.2.2.1, reg_setF_ne _ _ _ h.2.2.1, reg_setReg_ne _ _ h.2.1]

theorem State.markAlarm_reg (s : State) (n : Nat) {k : Nat} (h : k ∉ alarmRegs n) : (s.markAlarm n).reg k = s.reg k := by
  simp only [alarmRegs, List.cons_append, List.nil_append, List.mem_cons, not_or] at h
  have e : ((s.setReg Reg.EVT_ALM_PEND_LO (word (setBit (s.reg Reg.EVT_ALM_PEND_LO).toNat n))).bumpF (Reg.EVT_ALM_CODE n)
      F.EVT_ALM_CODE_COUNT).reg k = s.reg k := (State.bumpF_reg _ _ h.2.2.2.1).trans (reg_setReg_ne _ _ h.1)
  unfold State.markAlarm
  dsimp only
  split
  · exact (State.emit_reg _ _ k).trans e
  · exact e

theorem State.tellAlarm_reg (s : State) (n : Nat) (l : List (Nat × Nat)) {k : Nat} (h : k ∉ eventRegs) :
    (s.tellAlarm n l).reg k = s.reg k := by
  have e : (if s.isReady 0 then s.signal 257 else s).reg k = s.reg k := by
    split
    · exact State.signal_reg s 257 k
    · rfl
  unfold State.tellAlarm
  dsimp only
  split
  · exact e
  · exact (State.eventWith_reg _ _ _ _ h).trans e

theorem State.triggerOnAlarm_reg (s : State) {k : Nat} (h : k ∉ eventRegs) : s.triggerOnAlarm.reg k = s.reg k := by
  unfold State.triggerOnAlarm
  split
  · exact State.fireTrigger_reg s h
  · rfl

theorem State.alarm_reg (s : State) (n : Nat) (l : List (Nat × Nat)) {k : Nat} (h : k ∉ alarmRegs n) :
    (s.alarm n l).reg k = s.reg k := by
  have h5 : k ∉ eventRegs := fun x => h (List.mem_append_right _ x)
  rw [State.alarm, State.flood_reg, State.triggerOnAlarm_reg _ h5, State.tellAlarm_reg _ _ _ h5, State.markAlarm_reg _ _ h,
    State.latchAlarm_reg _ _ _ h]

/-! ## Completions -/

theorem State.syncCstat_reg (s : State) (c : Nat) {k : Nat} (h : k ≠ Reg.HST_CSTAT c) : (s.syncCstat c).reg k = s.reg k := by
  unfold State.syncCstat
  dsimp only
  rw [reg_setF_ne _ _ _ h, reg_setF_ne _ _ _ h]

@[simp] theorem State.moderate_reg (s : State) (c st : Nat) (i : Bool) (k : Nat) : (s.moderate c st i).reg k = s.reg k :=
  reg_of_cut (State.moderate_cut (m := sendArea) s c st i rfl rfl rfl rfl) rfl rfl k

@[simp] theorem State.setClient_client (s : State) (c : Nat) (x : Client) : (s.setClient c x).client c = x := by
  unfold State.client State.setClient
  rw [aget_aset, if_pos rfl]

theorem State.putHost_hst (s : State) (a : Nat) (b : List Byte) (u : Option (Nat × Nat)) (p : Bool) : (s.putHost a b u p).hst = s.hst :=
  hst_of_cut (m := fun x => decide (x ∈ [.rdg, .links, .out])) (State.putHost_cut s a b u p rfl rfl rfl) rfl

/-- A signalled vector changes no client's ring engine. -/
theorem State.signal_client (s : State) (v c : Nat) : (s.signal v).client c = s.client c := by
  have e : (s.sendMsix v).hst = s.hst :=
    hst_of_cut (m := fun x => decide (x ∈ [.rdg, .links, .out])) (State.sendMsix_cut s v rfl rfl rfl) rfl
  unfold State.signal
  split
  · rfl
  · split
    · rfl
    · unfold State.client; rw [e]

/-- A written completion that counts toward a vector changes nothing but that count in its client's ring engine. -/
theorem State.moderate_discardDue (s : State) (c st : Nat) (i : Bool) :
    ((s.moderate c st i).client c).discardDue = (s.client c).discardDue := by
  unfold State.moderate
  split
  · rfl
  · split
    · rw [State.signal_client, State.setClient_client]
    · split
      · dsimp only
        split
        · rw [State.signal_client, State.setClient_client]
        · rw [State.setClient_client]
      · rfl

theorem State.releaseGroups_of_closing (s : State) (c i : Nat) (h : s.stg.closing = []) : s.releaseGroups c i = s := by
  unfold State.releaseGroups
  rw [h]
  rfl

@[simp] theorem State.setF_stg (s : State) (off : Nat) (f : Fld) (n : Nat) : (s.setF off f n).stg = s.stg := rfl

theorem State.trace_stg (s : State) (n : Nat) (p : List Byte) : (s.trace n p).stg = s.stg :=
  stg_of_cut (m := fun x => decide (x ∈ [.regs, .evt])) (State.trace_cut s n p rfl rfl) rfl

theorem State.trace_client (s : State) (n : Nat) (p : List Byte) (c : Nat) : (s.trace n p).client c = s.client c := by
  unfold State.client
  rw [hst_of_cut (m := fun x => decide (x ∈ [.regs, .evt])) (State.trace_cut s n p rfl rfl) rfl]

theorem State.moderate_stg (s : State) (c st : Nat) (i : Bool) : (s.moderate c st i).stg = s.stg :=
  stg_of_cut (m := sendArea) (State.moderate_cut s c st i rfl rfl rfl rfl) rfl

theorem State.putHost_stg (s : State) (a : Nat) (b : List Byte) (u : Option (Nat × Nat)) (p : Bool) : (s.putHost a b u p).stg = s.stg :=
  stg_of_cut (m := sendArea) (State.putHost_cut s a b u p rfl rfl rfl) rfl

/-- Writing a completion while no commit that failed holds groups changes no group. -/
theorem State.writeCpl_stg (s : State) (c : Nat) (d : Desc) (h : s.stg.closing = []) : (s.writeCpl c d).stg = s.stg := by
  unfold State.writeCpl
  rw [State.releaseGroups_of_closing s c d.idx h]
  dsimp only
  split
  · rfl
  · rw [State.trace_stg, State.moderate_stg, State.setClient_stg, State.setF_stg, State.putHost_stg]

/-- Nor does it change a discard that is due. -/
theorem State.writeCpl_discardDue (s : State) (c : Nat) (d : Desc) (h : s.stg.closing = []) :
    ((s.writeCpl c d).client c).discardDue = (s.client c).discardDue := by
  unfold State.writeCpl
  rw [State.releaseGroups_of_closing s c d.idx h]
  dsimp only
  split
  · rfl
  · rw [State.trace_client, State.moderate_discardDue, State.setClient_client]

/-- Nor a register but those of `cplRegs`. -/
theorem State.writeCpl_reg (s : State) (c : Nat) (d : Desc) (h : s.stg.closing = []) {k : Nat} (hk : k ∉ cplRegs c) :
    (s.writeCpl c d).reg k = s.reg k := by
  simp only [cplRegs, List.mem_cons, not_or] at hk
  unfold State.writeCpl
  rw [State.releaseGroups_of_closing s c d.idx h]
  dsimp only
  split
  · rfl
  · rw [State.trace_reg _ _ _ hk.2.2.1, State.moderate_reg, State.setClient_reg, reg_setF_ne _ _ _ hk.2.1, State.putHost_reg]

theorem State.setDesc_discardDue (s : State) (c i : Nat) (f : Desc → Desc) :
    ((s.setDesc c i f).client c).discardDue = (s.client c).discardDue := by
  unfold State.setDesc
  rw [State.setClient_client]

theorem State.endDisable_of_quiet (s : State) (c : Nat) (h : (s.client c).discardDue = false) : s.endDisable c = s.syncCstat c := by
  unfold State.endDisable
  rw [h, Bool.false_and, Bool.false_and]
  exact if_neg Bool.false_ne_true

/-- Writing the completions that are due, with no groups and no discard waiting for them: the registers of `cplRegs` alone change. -/
theorem State.flushCpl_reg (c n : Nat) (s : State) {k : Nat} (h : k ∉ cplRegs c) (hg : s.stg.closing = [])
    (hd : (s.client c).discardDue = false) : (State.flushCpl c n s).reg k = s.reg k := by
  have hc : k ≠ Reg.HST_CSTAT c := by simp only [cplRegs, List.mem_cons, not_or] at h; exact h.1
  induction n generalizing s with
  | zero =>
    simp only [State.flushCpl]
    rw [State.endDisable_of_quiet s c hd, State.syncCstat_reg s c hc]
  | succ n ih =>
    simp only [State.flushCpl]
    split
    · next d rest _ =>
      split
      · have hr := State.setClient_reg s c { s.client c with descs := rest } k
        have hs := State.setClient_stg s c { s.client c with descs := rest }
        have hq := congrArg Client.discardDue (State.setClient_client s c { s.client c with descs := rest })
        generalize s.setClient c { s.client c with descs := rest } = u at hr hs hq ⊢
        have hg' : u.stg.closing = [] := (congrArg StageState.closing hs).trans hg
        rw [ih _ (by rw [State.writeCpl_stg u c d hg', hg']) (by rw [State.writeCpl_discardDue u c d hg', hq]; exact hd),
          State.writeCpl_reg u c d hg' h, hr]
      · exact State.syncCstat_reg s c hc
    · rw [State.endDisable_of_quiet s c hd, State.syncCstat_reg s c hc]

/-- Finishing a descriptor with status OK, none of its data writes failed, with no groups and no discard waiting for its completion, changes no
register but those of `cplRegs`. -/
theorem State.finish_reg (s : State) (c idx : Nat) (p : Cpl) {k : Nat} (h : k ∉ cplRegs c) (hp : p.status = 0)
    (hw : ∀ d, s.desc? c idx = some d → d.wfail = false) (hg : s.stg.closing = []) (hd : (s.client c).discardDue = false) :
    (s.finish c idx p).reg k = s.reg k := by
  unfold State.finish
  split
  · rfl
  · next d e =>
    simp only [Desc.ending, hw d e, hp, Bool.false_and, Bool.false_eq_true, ne_eq, not_true_eq_false, and_false, if_false]
    rw [State.flushCpl_reg _ _ _ h (by exact hg) ((State.setDesc_discardDue s c idx _).trans hd), State.setDesc_reg]

end Sys2Proof.Machine
end

