-- ==== Sys2Proof/Laws/Frames.lean ====
section
/-! SUPPORT. Which registers a chain of operations changes: one lemma per operation, from the last one backwards. -/

namespace Sys2Proof.Machine

theorem SameRegs.refl (s : State) (L : List Nat) : SameRegs s s L := fun _ _ => rfl

theorem SameRegs.trans {s t u : State} {L : List Nat} (h : SameRegs s t L) (g : SameRegs t u L) : SameRegs s u L :=
  fun k hk => (g k hk).trans (h k hk)

theorem SameRegs.mono {s t : State} {L M : List Nat} (h : SameRegs s t L) (hm : ∀ k ∈ L, k ∈ M) : SameRegs s t M :=
  fun k hk => h k (fun x => hk (hm k x))

theorem SameRegs.of_eq {s u v : State} {L : List Nat} (e : ∀ k, v.reg k = u.reg k) (h : SameRegs s u L) : SameRegs s v L :=
  fun k hk => (e k).trans (h k hk)

theorem ne_of_notMem {k o : Nat} {L : List Nat} (hk : k ∉ L) (ho : o ∈ L) : k ≠ o := by
  rintro rfl
  exact hk ho

variable {s u : State} {L : List Nat}

theorem SameRegs.setReg {o : Nat} {v : Word} (ho : o ∈ L) (h : SameRegs s u L) : SameRegs s (u.setReg o v) L :=
  fun k hk => (reg_setReg_ne u v (ne_of_notMem hk ho)).trans (h k hk)

theorem SameRegs.setF {o n : Nat} {f : Fld} (ho : o ∈ L) (h : SameRegs s u L) : SameRegs s (u.setF o f n) L := h.setReg ho

theorem SameRegs.bump {o n : Nat} (ho : o ∈ L) (h : SameRegs s u L) : SameRegs s (u.bump o n) L := h.setReg ho

theorem SameRegs.bumpF {o : Nat} {f : Fld} (ho : o ∈ L) (h : SameRegs s u L) : SameRegs s (u.bumpF o f) L := h.setReg ho

theorem SameRegs.dropReady {b : Nat} (ho : Reg.GBL_READY ∈ L) (h : SameRegs s u L) : SameRegs s (u.dropReady b) L := h.setReg ho

theorem SameRegs.setReady {b : Nat} (ho : Reg.GBL_READY ∈ L) (h : SameRegs s u L) : SameRegs s (u.setReady b) L :=
  fun k hk => (State.setReady_reg u b (ne_of_notMem hk ho)).trans (h k hk)

theorem SameRegs.event {c : Nat} {i : List (Nat × Nat)} (ho : ∀ k ∈ eventRegs, k ∈ L) (h : SameRegs s u L) :
    SameRegs s (u.event c i) L := fun k hk => (State.event_reg u c i (fun e => hk (ho k e))).trans (h k hk)

theorem SameRegs.clearReady {b : Nat} (hr : Reg.GBL_READY ∈ L) (ho : ∀ k ∈ eventRegs, k ∈ L) (h : SameRegs s u L) :
    SameRegs s (u.clearReady b) L :=
  fun k hk => (State.clearReady_reg u b (ne_of_notMem hk hr) (fun e => hk (ho k e))).trans (h k hk)

theorem SameRegs.alarm {n : Nat} {i : List (Nat × Nat)} (ho : ∀ k ∈ alarmRegs n, k ∈ L) (h : SameRegs s u L) :
    SameRegs s (u.alarm n i) L := fun k hk => (State.alarm_reg u n i (fun e => hk (ho k e))).trans (h k hk)

theorem SameRegs.trace {n : Nat} {p : List Byte} (ho : Reg.EVT_TRC_DROP ∈ L) (h : SameRegs s u L) : SameRegs s (u.trace n p) L :=
  fun k hk => (State.trace_reg u n p (ne_of_notMem hk ho)).trans (h k hk)

theorem SameRegs.finish {c idx : Nat} {p : Cpl} (ho : ∀ k ∈ cplRegs c, k ∈ L) (hp : p.status = 0)
    (hw : ∀ d, u.desc? c idx = some d → d.wfail = false) (hg : u.stg.closing = []) (hd : (u.client c).discardDue = false)
    (h : SameRegs s u L) : SameRegs s (u.finish c idx p) L :=
  fun k hk => (State.finish_reg u c idx p (fun e => hk (ho k e)) hp hw hg hd).trans (h k hk)

theorem SameRegs.signal {v : Nat} (h : SameRegs s u L) : SameRegs s (u.signal v) L := h.of_eq (State.signal_reg u v)
theorem SameRegs.emit {o : Out} (h : SameRegs s u L) : SameRegs s (u.emit o) L := h
theorem SameRegs.flood {c : Nat} {b : List Byte} (h : SameRegs s u L) : SameRegs s (u.flood c b) L := h.of_eq (State.flood_reg u c b)
theorem SameRegs.unicast {d c : Nat} {b : List Byte} (h : SameRegs s u L) : SameRegs s (u.unicast d c b) L :=
  h.of_eq (State.unicast_reg u d c b)
theorem SameRegs.linkSend {q c a : Nat} {b : List Byte} (h : SameRegs s u L) : SameRegs s (u.linkSend q c a b) L :=
  h.of_eq (State.linkSend_reg u q c a b)
theorem SameRegs.writeHost {a : Nat} {b : List Byte} {x : Option (Nat × Nat)} (h : SameRegs s u L) :
    SameRegs s (u.writeHost a b x) L := h.of_eq (State.writeHost_reg u a b x)
theorem SameRegs.readHost {a n : Nat} {x : ReadUse} (h : SameRegs s u L) : SameRegs s (u.readHost a n x) L :=
  h.of_eq (State.readHost_reg u a n x)
theorem SameRegs.onLink {q : Nat} {f : LinkState → LinkState} (h : SameRegs s u L) : SameRegs s (u.onLink q f) L := h
theorem SameRegs.setClient {c : Nat} {k : Client} (h : SameRegs s u L) : SameRegs s (u.setClient c k) L := h
theorem SameRegs.setDesc {c i : Nat} {f : Desc → Desc} (h : SameRegs s u L) : SameRegs s (u.setDesc c i f) L := h
theorem SameRegs.setTable {c : Nat} {f : Table} (h : SameRegs s u L) : SameRegs s (u.setTable c f) L := h
theorem SameRegs.setDriver {c : Nat} {f : Driver} (h : SameRegs s u L) : SameRegs s (u.setDriver c f) L := h
theorem SameRegs.setTxn {c : Nat} {f : Txn → Txn} (h : SameRegs s u L) : SameRegs s (u.setTxn c f) L := h
theorem SameRegs.onHst {f} (h : SameRegs s u L) : SameRegs s (u.onHst f) L := h
theorem SameRegs.onStg {f} (h : SameRegs s u L) : SameRegs s (u.onStg f) L := h
theorem SameRegs.onEvt {f} (h : SameRegs s u L) : SameRegs s (u.onEvt f) L := h
theorem SameRegs.onRst {f} (h : SameRegs s u L) : SameRegs s (u.onRst f) L := h
theorem SameRegs.onPwr {f} (h : SameRegs s u L) : SameRegs s (u.onPwr f) L := h
theorem SameRegs.onGen {f} (h : SameRegs s u L) : SameRegs s (u.onGen f) L := h
theorem SameRegs.onRdg {f} (h : SameRegs s u L) : SameRegs s (u.onRdg f) L := h
theorem SameRegs.onPnl {f} (h : SameRegs s u L) : SameRegs s (u.onPnl f) L := h
theorem SameRegs.onFst {f} (h : SameRegs s u L) : SameRegs s (u.onFst f) L := h
theorem SameRegs.onPipe {f} (h : SameRegs s u L) : SameRegs s (u.onPipe f) L := h
theorem SameRegs.onCal {f} (h : SameRegs s u L) : SameRegs s (u.onCal f) L := h
theorem SameRegs.onThm {f} (h : SameRegs s u L) : SameRegs s (u.onThm f) L := h
theorem SameRegs.setDomain {d : Nat} {b : Bool} (h0 : Reg.PWR_DOM_ON0 ∈ L) (h1 : Reg.PWR_DOM_ON1 ∈ L) (h : SameRegs s u L) :
    SameRegs s (u.setDomain d b) L := by
  rw [State.setDomain]
  exact SameRegs.setReg (by split <;> assumption) h

theorem SameRegs.ite {c : Prop} [Decidable c] {a b : State} (ha : SameRegs s a L) (hb : SameRegs s b L) :
    SameRegs s (if c then a else b) L := by
  by_cases h : c
  · rw [if_pos h]; exact ha
  · rw [if_neg h]; exact hb

theorem SameRegs.foldl {α : Type} {g : State → α → State} {l : List α} (h : SameRegs s u L)
    (hg : ∀ u x, SameRegs u (g u x) L) : SameRegs s (l.foldl g u) L := by
  induction l generalizing u with
  | nil => exact h
  | cons x t ih => exact ih (h.trans (hg u x))

theorem SameRegs.setDomains {ds : List Nat} {b : Bool} (h0 : Reg.PWR_DOM_ON0 ∈ L) (h1 : Reg.PWR_DOM_ON1 ∈ L) (h : SameRegs s u L) :
    SameRegs s (u.setDomains ds b) L := h.foldl (fun u _ => (SameRegs.refl u L).setDomain h0 h1)

end Sys2Proof.Machine
end

