-- ==== Sys2Proof/Laws/Meter.lean ====
section
/-! SUPPORT. Laws of the usage meter: its storage stays sound, and a blown fuse stays blown (R543 to R569). -/

namespace Sys2Proof.Machine

theorem leBytes_length (n x : Nat) : (leBytes n x).length = n := by
  induction n generalizing x with
  | zero => rfl
  | succ n ih => simp [leBytes, ih]

/-- A record is 64 bytes (R562). -/
theorem recBytes_length (r : LogRec) (lseq mt : Nat) : (recBytes r lseq mt).length = 64 := by
  simp [recBytes, leBytes_length]

/-- A block is 256 bytes (R551). -/
theorem paramBlock_length (flags pgen audit id gref xtal : Nat) (mid tail : List Byte) (hm : mid.length = 48)
    (ht : tail.length = 9) : (paramBlock flags pgen audit id mid gref xtal tail).length = 256 := by
  simp only [paramBlock, List.length_append, leBytes_length, hm, ht, List.length_cons, List.length_nil, List.length_replicate]

theorem slice_length (o n : Nat) (l : List Byte) (h : o + n ≤ l.length) : (slice o n l).length = n := by
  simp [slice]; omega

theorem mem_aset {α : Type} [DecidableEq α] {d : Nat → α} {m : AMap α} {k : Nat} {v : α} {e : Nat × α}
    (h : e ∈ aset d m k v) : e = (k, v) ∨ e ∈ m := by
  unfold aset at h
  split at h
  · exact .inr (mem_aerase h)
  · rcases mem_ainsert h with h | h
    · exact .inl h
    · exact .inr (mem_aerase h)

/-- Programming records keeps the storage sound. -/
theorem logWrite_ok (n : Nat) (rej recs : List LogRec) (m : MeterState) (h : m.ok) : (logWrite n rej recs m).ok := by
  induction n generalizing rej recs m with
  | zero => exact h
  | succ n ih =>
    have step : ∀ m : MeterState, m.ok → ∀ (l : List Byte) (q : Nat), l.length = 64 →
        MeterState.ok { m with
          log := aset (fun _ => List.replicate 64 0xFF) m.log m.head l, head := (m.head + 1) % 4096, lseq := q } := by
      intro m ⟨h1, h2, h3, h4⟩ l q hl
      refine ⟨Nat.mod_lt _ (by norm_num), awf_aset _ _ _ _ h2, fun e he => ?_, h4⟩
      rcases mem_aset (show e ∈ aset (fun _ => List.replicate 64 (0xFF : Byte)) m.log m.head l from he) with rfl | he
      · exact ⟨h1, hl⟩
      · exact h3 e he
    have erase : ∀ m : MeterState, m.ok → MeterState.ok { m with log := aclear m.log m.head 64 } := by
      intro m ⟨h1, h2, h3, h4⟩
      exact ⟨h1, awf_filter _ _ _ h2, fun e he => h3 e (List.mem_filter.mp he).1, h4⟩
    have pass : ∀ m : MeterState, m.ok → MeterState.ok { m with head := (m.head + 1) % 4096 } := by
      intro m ⟨_, h⟩
      exact ⟨Nat.mod_lt _ (by norm_num), h⟩
    simp only [logWrite]
    split
    · exact h
    · have hm : ∀ b : Prop, [Decidable b] → (if b then { m with log := aclear m.log m.head 64 } else m).ok := by
        intro b _
        split
        · exact erase m h
        · exact h
      generalize hx : (if m.head % 64 = 0 then { m with log := aclear m.log m.head 64 } else m) = x
      have hk : x.ok := hx ▸ hm _
      split
      · split
        · exact ih _ _ _ (step x hk _ _ (recBytes_length ..))
        · exact ih _ _ _ (step x hk _ _ (recBytes_length ..))
      · exact ih _ _ _ (pass x hk)

/-- What every step keeps of the meter: the part and the queue, a blown fuse, sound storage. -/
def MeterKept (s t : State) : Prop :=
  t.part = s.part ∧ t.pending = s.pending ∧ (s.tmk.fuse = true → t.tmk.fuse = true) ∧ (s.tmk.ok → t.tmk.ok)

theorem MeterKept.refl (s : State) : MeterKept s s := ⟨rfl, rfl, id, id⟩

theorem MeterKept.trans {s t u : State} (h : MeterKept s t) (g : MeterKept t u) : MeterKept s u :=
  ⟨g.1.trans h.1, g.2.1.trans h.2.1, fun x => g.2.2.1 (h.2.2.1 x), fun x => g.2.2.2 (h.2.2.2 x)⟩

/-- Every area outside the seal, but the part and the queue. -/
def outside : Area → Bool
  | .part | .pending | .tmk => false
  | _ => true

theorem MeterKept.of_cut {s t : State} (h : t.cut outside = s.cut outside) : MeterKept s t := by
  have h3 : t.meter = s.meter := meter_of_cut h rfl
  have hf : t.meter.fuse = s.meter.fuse := congrArg MeterState.fuse h3
  have ho : t.meter.ok = s.meter.ok := congrArg MeterState.ok h3
  exact ⟨part_of_cut h rfl, pending_of_cut h rfl, fun x => Eq.trans hf x, fun x => cast ho.symm x⟩

theorem MeterKept.tmk (s : State) (f : MeterState → MeterState) (hf : s.tmk.fuse = true → (f s.tmk).fuse = true)
    (ho : s.tmk.ok → (f s.tmk).ok) : MeterKept s (s.onTmk f) := ⟨rfl, rfl, hf, ho⟩

theorem logWrite_fuse (n : Nat) (rej recs : List LogRec) (m : MeterState) : (logWrite n rej recs m).fuse = m.fuse := by
  induction n generalizing rej recs m with
  | zero => rfl
  | succ n ih =>
    simp only [logWrite]
    split
    · rfl
    · generalize hx : (if m.head % 64 = 0 then { m with log := aclear m.log m.head 64 } else m) = x
      have hk : x.fuse = m.fuse := by rw [← hx]; split <;> rfl
      split
      · split <;> exact (ih ..).trans hk
      · exact (ih ..).trans hk

theorem tmkLog_kept (s : State) (l : List LogRec) : MeterKept s (s.tmkLog l) :=
  .tmk s _ (fun h => (logWrite_fuse ..).trans h) (logWrite_ok _ _ _ _)

theorem tmkLog_tmk_active (s : State) (l : List LogRec) : (s.tmkLog l).tmk.active = s.tmk.active := by
  unfold State.tmkLog State.onTmk
  dsimp only
  generalize 200 = n, [] = rej, s.tmk = m
  induction n generalizing rej l m with
  | zero => rfl
  | succ n ih =>
    simp only [logWrite]
    split
    · rfl
    · generalize hx : (if m.head % 64 = 0 then { m with log := aclear m.log m.head 64 } else m) = x
      have hk : x.active = m.active := by rw [← hx]; split <;> rfl
      split
      · split <;> exact (ih ..).trans hk
      · exact (ih ..).trans hk

theorem closePeriod_kept (s : State) : MeterKept s s.closePeriod := by
  unfold State.closePeriod
  exact (tmkLog_kept s _).trans (.tmk _ _ id id)

theorem meterSecond_kept (s : State) (l : List MeterSample) : MeterKept s (s.meterSecond l) := by
  unfold State.meterSecond
  split
  · exact .refl s
  · extract_lets +onlyGivenNames c0 c1 n0 n1 r0 r1 lit s1
    have h1 : MeterKept s s1 := .tmk _ _ id id
    clear_value s1
    split
    · exact h1.trans (closePeriod_kept s1)
    · exact h1

theorem activeSlot_ok (a b : List Byte) : (activeSlot a b = 1 → a.length = 256) ∧ (activeSlot a b = 2 → b.length = 256)
    ∧ activeSlot a b ≤ 2 := by
  have hv : ∀ c, blockValid c = true → c.length = 256 := by
    intro c h
    simp only [blockValid, Bool.and_eq_true, beq_iff_eq] at h
    exact h.1.1.1
  unfold activeSlot
  split
  · split
    · dsimp only
      split
      · exact ⟨by simp, fun _ => hv _ ‹_›, le_refl _⟩
      · exact ⟨fun _ => hv _ ‹_›, by simp, by norm_num⟩
    · exact ⟨fun _ => hv _ ‹_›, by simp, by norm_num⟩
  · split
    · exact ⟨by simp, fun _ => hv _ ‹_›, le_refl _⟩
    · exact ⟨by simp, by simp, by norm_num⟩

theorem meterUp_kept (s : State) : MeterKept s s.meterUp := by
  unfold State.meterUp
  split
  · exact .refl s
  · extract_lets +onlyGivenNames a s1 r last p begun s2 s3
    have h1 : MeterKept s s1 := .tmk _ _ id (fun ⟨h1, h2, h3, h4, h5, _⟩ =>
      ⟨h1, h2, h3, h4, h5, (activeSlot_ok _ _).1, (activeSlot_ok _ _).2.1, (activeSlot_ok _ _).2.2⟩)
    clear_value s1
    have h2 : MeterKept s1 s2 := by
      refine .tmk _ _ id (fun ⟨h1, h⟩ => ⟨?_, h⟩)
      clear_value last
      cases last with
      | some e => exact Nat.mod_lt _ (by norm_num)
      | none => show 0 < 4096; norm_num
    clear_value s2
    have h3 : MeterKept s2 s3 := tmkLog_kept _ _
    clear_value s3
    have h := h1.trans (h2.trans h3)
    split
    · dsimp only
      split
      · exact h.trans (tmkLog_kept _ _)
      · exact h
    · exact h

theorem storeBlock_kept {s t : State} {ok : Bool} {audit gref xtal : Nat} {mid tail : List Byte}
    (h : s.storeBlock ok audit mid gref xtal tail = some t) (hm : s.tmk.ok → mid.length = 48) (ht : s.tmk.ok → tail.length = 9) :
    MeterKept s t := by
  unfold State.storeBlock at h
  dsimp only at h
  split at h
  · cases h
  · injection h with h
    subst h
    refine .tmk _ _ (fun h => ?_) (fun h => ?_)
    · split <;> exact h
    · have hb := paramBlock_length (b2n s.tmk.fuse) ((leAt 8 4 s.tmkBlock + 1) % 2 ^ 32) audit s.dsn gref xtal mid tail (hm h) (ht h)
      obtain ⟨h1, h2, h3, h4, h5, h6, h7, h8⟩ := h
      split
      · exact ⟨h1, h2, h3, h4, .inr hb, by simp, fun _ => hb, by simp⟩
      · exact ⟨h1, h2, h3, .inr hb, h5, fun _ => hb, by simp, by simp⟩

/-- The block in force is 256 bytes. -/
theorem tmkBlock_length (s : State) (h : s.tmk.ok) : s.tmkBlock.length = 256 := by
  obtain ⟨_, _, _, _, _, h6, h7, _⟩ := h
  unfold State.tmkBlock
  split
  · exact h6 ‹_›
  · split
    · exact h7 ‹_›
    · exact paramBlock_length _ _ _ _ _ _ _ _ (by simp [leBytes_length]) (by simp [leBytes_length])

theorem ansWrite_kept (s : State) (src : Nat) (pl : List Byte) (ok : Bool) (hl : pl.length = 256) :
    MeterKept s (s.ansWrite src pl ok).1 := by
  unfold State.ansWrite
  split
  · exact .refl s
  · split
    · exact .refl s
    · rename_i t e
      exact (storeBlock_kept e (fun _ => slice_length _ _ _ (by omega)) (fun _ => slice_length _ _ _ (by omega))).trans
        (tmkLog_kept _ _)

theorem ansSeal_kept (s : State) (src : Nat) (pl : List Byte) (ok : Bool) : MeterKept s (s.ansSeal src pl ok).1 := by
  unfold State.ansSeal
  extract_lets +onlyGivenNames b
  split
  · exact .refl s
  · split
    · exact .refl s
    · extract_lets +onlyGivenNames s1
      have h1 : MeterKept s s1 := .tmk _ _ (fun _ => rfl) id
      have hl : s1.tmk.ok → b.length = 256 := fun h => tmkBlock_length s h
      clear_value s1 b
      split
      · exact h1
      · rename_i t e
        exact h1.trans ((storeBlock_kept e (fun h => slice_length _ _ _ (by have := hl h; omega))
          (fun h => slice_length _ _ _ (by have := hl h; omega))).trans (tmkLog_kept _ _))

theorem ansWall_kept (s : State) (pl : List Byte) : MeterKept s (s.ansWall pl).1 := by
  unfold State.ansWall
  extract_lets +onlyGivenNames new est old step cross body s1
  have h1 : MeterKept s s1 := .tmk _ _ id id
  clear_value s1
  dsimp only
  split
  · exact h1
  · exact h1.trans (tmkLog_kept _ _)

theorem ansNote_kept (s : State) (src : Nat) (pl : List Byte) : MeterKept s (s.ansNote src pl).1 := tmkLog_kept _ _

theorem ansApply_kept (s : State) (src : Nat) (pl : List Byte) (ok : Bool) : MeterKept s (s.ansApply src pl ok).1 := by
  unfold State.ansApply
  extract_lets +onlyGivenNames b k
  have hl : s.tmk.ok → b.length = 256 := tmkBlock_length s
  clear_value b k
  split
  · exact .refl s
  · split
    · exact .refl s
    · split
      · exact .refl s
      · rename_i t e
        exact (storeBlock_kept e (fun h => slice_length _ _ _ (by have := hl h; omega))
          (fun h => slice_length _ _ _ (by have := hl h; omega))).trans (tmkLog_kept _ _)

theorem tmkServe_kept (s : State) (src cmd : Nat) (pl : List Byte) (ok : Bool) : MeterKept s (s.tmkServe src cmd pl ok).1 := by
  unfold State.tmkServe
  split
  · exact .refl s
  · rename_i hl
    split
    · exact .refl s
    · exact .refl s
    · unfold State.ansLog; dsimp only; split <;> exact .refl s
    · exact .refl s
    · refine ansWrite_kept s src pl ok ?_
      simpa [lenOk] using hl
    · exact ansSeal_kept ..
    · exact ansWall_kept ..
    · exact ansNote_kept ..
    · exact .refl s
    · exact ansApply_kept ..
    · exact .refl s

theorem tmkAnswer_kept (s : State) (src seq st : Nat) (pl : List Byte) : MeterKept s (s.tmkAnswer src seq st pl) := by
  unfold State.tmkAnswer
  dsimp only
  split
  · exact .tmk _ _ id id
  · exact MeterKept.trans (.tmk _ _ id id) (.of_cut (State.emit_cut _ _ rfl))

theorem emit_kept (s : State) (o : Out) : MeterKept s (s.emit o) := .of_cut (State.emit_cut _ _ rfl)

theorem tmkRequest_kept (s : State) (r : MeterReq) (cmd : Nat) (p : List Byte → Bool) (ok : Bool) :
    MeterKept s (s.tmkRequest r cmd p ok) := by
  unfold State.tmkRequest
  split
  · exact .refl s
  · split
    · split
      · exact .refl s
      · split
        · exact emit_kept ..
        · exact ((emit_kept ..).trans (tmkServe_kept ..)).trans (tmkAnswer_kept ..)
    · split
      · split
        · exact (tmkServe_kept ..).trans (tmkAnswer_kept ..)
        · exact .refl s
      · exact .refl s

theorem vddTmkDrop_kept (r : PowerCut) (s t : State) (h : execVddTmkDrop r s = .next t) : MeterKept s t := by
  unfold execVddTmkDrop at h
  split at h
  · injection h with h; exact h ▸ .refl s
  · injection h with h
    subst h
    refine MeterKept.trans ?_ (.tmk _ _ id id)
    cases r with
    | held => exact tmkLog_kept _ _
    | cut bs =>
      dsimp only
      split
      · rename_i hl
        refine .tmk _ _ id (fun ⟨h1, h2, h3, h4⟩ => ⟨h1, awf_aset _ _ _ _ h2, fun e he => ?_, h4⟩)
        rcases mem_aset (show e ∈ aset (fun _ => List.replicate 64 (0xFF : Byte)) s.tmk.log s.tmk.head bs from he) with rfl | he
        · exact ⟨h1, hl⟩
        · exact h3 e he
      · exact .refl s

theorem tmkBadRequest_kept (r : BadReq) (s t : State) (h : execTmkBadRequest r s = .next t) : MeterKept s t := by
  unfold execTmkBadRequest at h
  repeat' split at h
  all_goals (injection h with h; subst h)
  all_goals first
    | exact .refl s
    | exact tmkAnswer_kept ..
    | (split; exact (emit_kept ..).trans (tmkAnswer_kept ..); exact emit_kept ..)

theorem portReadTransfer_kept (r : PortRead) (s t : State) (h : execPortReadTransfer r s = .next t) : MeterKept s t := by
  unfold execPortReadTransfer at h
  dsimp only at h
  repeat' split at h
  all_goals (injection h with h; subst h)
  all_goals first
    | exact .refl s
    | exact emit_kept ..
    | exact (emit_kept ..).trans (emit_kept ..)
    | exact ((emit_kept ..).trans (emit_kept ..)).trans (.tmk _ _ id id)

theorem calEnd_kept (s : State) (m : CalMeas) : MeterKept s (s.calEnd m) := by
  unfold State.calEnd
  split
  · exact .refl s
  · rename_i r _
    have h : MeterKept s (if r.step = 1 then s.endAdc m
      else if r.step = 2 then s.endTimebase r.arg m
      else if r.step = 3 then s.endDac r m
      else s.endTmk r.arg m).2 := by
      split
      · exact .of_cut (State.endAdc_cut _ _ rfl)
      · split
        · exact .of_cut (State.endTimebase_cut _ _ _ rfl rfl)
        · split
          · exact .of_cut (State.endDac_cut _ _ _ rfl)
          · unfold State.endTmk
            split
            · exact .refl s
            · exact .tmk _ _ (by split <;> exact id) (by split <;> exact id)
    generalize (if r.step = 1 then s.endAdc m
      else if r.step = 2 then s.endTimebase r.arg m
      else if r.step = 3 then s.endDac r m
      else s.endTmk r.arg m) = x at h
    obtain ⟨code, s1⟩ := x
    refine h.trans ?_
    refine .of_cut ?_
    simp only [↓State.finish_cut, ↓apply_ite (State.cut outside), ↓State.event_cut, ↓State.runDeferred_cut, ↓State.emit_cut,
      ↓State.setReg_cut, ↓State.onCal_cut, ite_self, show outside .regs = true from rfl,
      show outside .hst = true from rfl, show outside .stg = true from rfl, show outside .tabs = true from rfl,
      show outside .win = true from rfl, show outside .evt = true from rfl,
      show outside .gen = true from rfl, show outside .rdg = true from rfl, show outside .links = true from rfl,
      show outside .cal = true from rfl, show outside .pnl = true from rfl, show outside .out = true from rfl]

end Sys2Proof.Machine
end

