-- ==== Sys2Proof/Laws/Reset.lean ====
section
/-! SUPPORT. What a reset class leaves of the registers (R49). -/

namespace Sys2Proof.Machine

theorem aget_filter {α : Type} (d : Nat → α) (m : AMap α) (p : Nat → Bool) (k : Nat) :
    aget d (m.filter (fun e => p e.1)) k = if p k then aget d m k else d k := by
  induction m with
  | nil => simp [aget]
  | cons e t ih =>
    obtain ⟨j, v⟩ := e
    by_cases hj : p j = true
    · simp only [List.filter_cons, hj, if_true, aget]
      by_cases hk : k = j
      · subst hk; simp [hj]
      · simp [hk, ih]
    · simp only [List.filter_cons, hj, aget]
      by_cases hk : k = j
      · subst hk; simp [hj, ih]
      · simp [hk, ih]

/-- The registers that the panel's outputs and rails change on their way to their reset state. -/
def pinRegs : List Nat :=
  [Reg.SCN_PSTAT, Reg.BAT_CMDST] ++ eventRegs ++ (List.range 2).flatMap (fun h => (List.range 12).map (fun j => dstat (12 * h + j)))

theorem State.setRail_reg (s : State) (n : Nat) (b : Bool) : SameRegs s (s.setRail n b) [Reg.SCN_PSTAT] := by
  unfold State.setRail
  dsimp only
  split
  · exact .refl _ _
  · exact SameRegs.emit (SameRegs.setF (by simp) (.refl _ _))

theorem State.driverOff_reg (s : State) (g : Nat) (h : dstat g ∈ pinRegs) : SameRegs s (s.driverOff g) pinRegs := by
  have hc : Reg.BAT_CMDST ∈ pinRegs := by simp [pinRegs]
  have he : ∀ k ∈ eventRegs, k ∈ pinRegs := fun k hk => List.mem_append_left _ (List.mem_append_right _ hk)
  have h0 : SameRegs s ((s.setDrvState g 0).setDriver g { Driver.init with nextTag := (s.driver g).nextTag }) pinRegs :=
    ((SameRegs.refl s _).setF h).setDriver
  exact SameRegs.ite (SameRegs.setF hc (SameRegs.setF hc (h0.event he))) h0

theorem State.setBatRst_reg (s : State) (b : Bool) : SameRegs s (s.setBatRst b) pinRegs := by
  have hh : ∀ (u : State) (h : Nat), h < 2 → ∀ l : List Nat, (∀ j ∈ l, j < 12) →
      SameRegs u (l.foldl (fun s j => s.driverOff (12 * h + j)) u) pinRegs := by
    intro u h hlt l
    induction l generalizing u with
    | nil => exact fun _ => .refl _ _
    | cons j t ih =>
      intro hl
      have hm : dstat (12 * h + j) ∈ pinRegs := List.mem_append_right _ (List.mem_flatMap.mpr
        ⟨h, List.mem_range.mpr hlt, List.mem_map.mpr ⟨j, List.mem_range.mpr (hl j (List.mem_cons_self ..)), rfl⟩⟩)
      exact (State.driverOff_reg u _ hm).trans (ih _ fun i hi => hl i (List.mem_cons_of_mem _ hi))
  have h1 : ∀ (u : State) (h : Nat), h < 2 → SameRegs u
      (if u.pnl.pins.testBit (6 + h) = b ∨ (b = true ∧ u.halfUsed h = false) then u
       else
        let s := u.onPnl (fun p => { p with pins := if b then setBit p.pins (6 + h) else clearBit p.pins (6 + h) })
        let s := if b then s else (List.range 12).foldl (fun s j => s.driverOff (12 * h + j)) s
        s.emit (.pin (if h = 0 then "BAT_RST_U_N" else "BAT_RST_L_N") b)) pinRegs := by
    intro u h hlt
    refine SameRegs.ite (.refl _ _) (SameRegs.emit ?_)
    refine SameRegs.ite (SameRegs.refl u _).onPnl ?_
    exact (SameRegs.onPnl (.refl u _)).trans (hh _ h hlt _ fun j hj => List.mem_range.mp hj)
  rw [State.setBatRst, List.foldl_cons, List.foldl_cons, List.foldl_nil]
  exact (h1 s 0 (by decide)).trans (h1 _ 1 (by decide))

theorem State.panelPinsOff_reg (s : State) : SameRegs s s.panelPinsOff pinRegs := by
  have hp : SameRegs (s.setBatRst false) s.panelOutputsOff pinRegs := fun k _ =>
    reg_of_cut (State.setPanelPins_cut (m := fun a => a == .pnl || a == .out) _ _ rfl rfl) rfl rfl k
  have h0 : SameRegs s s.panelOutputsOff pinRegs := (State.setBatRst_reg s false).trans hp
  exact h0.foldl fun u n => (State.setRail_reg u n false).mono fun k hk => by
    rw [List.mem_singleton.mp hk]; simp [pinRegs]

theorem keptBy_ne {c : ResetClass} {off : Nat} (hc : c ≠ .hostPort) (h : keptBy c off = true) : off ∉ pinRegs := by
  have hall : ∀ x ∈ pinRegs, keptBy .warm x = false ∧ keptBy .powerOn x = false := by decide
  intro hm
  cases c with
  | hostPort => exact hc rfl
  | supply => simp [keptBy] at h
  | powerOn => rw [(hall off hm).2] at h; simp at h
  | warm => rw [(hall off hm).1] at h; simp at h

/-- The registers after a reset stronger than host-port: those that the class keeps are as they were, all others at their reset value. -/
theorem State.restart_reg (s : State) (c : ResetClass) (hc : c ≠ .hostPort) (off : Nat) :
    (s.restart c).reg off = if keptBy c off then s.reg off else resetWord s.part off := by
  let t : State := { s with drv := [] }
  have hp : t.panelPinsOff.outputsDown.part = s.part :=
    part_of_cut (m := fun a => a != .part)
      ((State.outputsDown_cut _ rfl rfl).trans (State.panelPinsOff_cut t rfl rfl rfl rfl rfl)) rfl
  have ho : ∀ k, t.panelPinsOff.outputsDown.reg k = t.panelPinsOff.reg k := fun k =>
    reg_of_cut (State.outputsDown_cut (m := fun a => a == .pnl || a == .out) _ rfl rfl) rfl rfl k
  rw [State.restart]
  generalize hu : t.panelPinsOff.outputsDown = u at hp ho
  have h2 : (if (!s.alarmPin && decide (c = .supply)) then u.emit (.pin "ALARM_N" true) else u).reg off = u.reg off
      ∧ (if (!s.alarmPin && decide (c = .supply)) then u.emit (.pin "ALARM_N" true) else u).part = u.part := by
    split <;> exact ⟨rfl, rfl⟩
  revert h2
  generalize (if (!s.alarmPin && decide (c = .supply)) then u.emit (.pin "ALARM_N" true) else u) = w
  intro h2
  have h3 : aget (resetWord w.part) (w.regs.filter (fun e => keptBy c e.1)) off = if keptBy c off then s.reg off else resetWord s.part off := by
    rw [aget_filter]
    by_cases hk : keptBy c off = true
    · rw [if_pos hk, if_pos hk]
      exact h2.1.trans ((ho off).trans (State.panelPinsOff_reg t off (keptBy_ne hc hk)))
    · rw [if_neg hk, if_neg hk, h2.2, hp]
  exact h3

end Sys2Proof.Machine
end

