-- ==== Sys2Proof/Tests/Slice0.lean ====
section
/-! SUPPORT. Tests: what `Instr.wf` refuses; worked examples and numbers of the spec; and for every obligation that has hypotheses, values
that meet them. -/

namespace Sys2Proof.Tests

open Sys2Proof Sys2Proof.Machine

set_option Elab.async false

/-! ## Small states -/

/-- Field `f` of the register at `r` set to `n`, over what is listed of that register, or over 0. -/
def rf (r : Nat) (f : Fld) (n : Nat) (s : State) : State :=
  { s with regs := ainsert (aerase s.regs r) r (withField f n (aget (fun _ => 0) s.regs r)) }

/-- The register at `r` listed as `v`. -/
def rv (r : Nat) (v : Word) (s : State) : State := { s with regs := ainsert (aerase s.regs r) r v }

/-- The bits of a list, as a number. -/
def bitsTo (l : List Nat) : Nat := l.foldl (fun n b => setBit n b) 0

/-- Just the domains of `l` are on. -/
def on (l : List Nat) (s : State) : State :=
  rv Reg.PWR_DOM_ON0 (word (bitsTo (l.filter (· < 32)))) (rv Reg.PWR_DOM_ON1 (word (bitsTo ((l.filter (32 ≤ ·)).map (· - 32)))) s)

/-- Just the ready bits of `l` are set. -/
def ready (l : List Nat) (s : State) : State := rv Reg.GBL_READY (word (bitsTo l)) s

/-- Just the domains of `l` are locked off. -/
def locked (l : List Nat) (s : State) : State := rv Reg.PWR_LOCKOFF (word (bitsTo l)) s

/-- A descriptor at ring index 0, ready to start. -/
def dsc (op len target limit : Nat) (args : List Nat) : Desc :=
  ⟨0, leBytes 4 op ++ leBytes 4 len ++ leBytes 16 0 ++ leBytes 4 target ++ leBytes 4 0 ++ leBytes 4 limit ++ args.flatMap (leBytes 4),
    .ready, 0, Cpl.of 0, false, 0⟩

/-- Every die sensor fused with no offset and no slope. -/
def fusedSensors : State :=
  (List.range 28).foldl (fun s n => rv (Reg.CAL_FSENS_A n) 0 (rv (Reg.CAL_FSENS_B n) 0 s)) State.reset

/-- A parameter block within the limits of R557. -/
def goodBlock : List Byte :=
  List.replicate 24 0 ++ leBytes 8 (1000 + 2 ^ 32 * 1000) ++ leBytes 8 (65536 + 2 ^ 32 * 65536) ++ List.replicate 40 0
    ++ leBytes 4 3600 ++ leBytes 4 100 ++ [1] ++ List.replicate 167 0

/-- A directory whose plate 0 is OPEN: 8 × 8 pixels, at most 10 frames, 1,024 pages from LBA 1,024 on. -/
def openDir : Mem := [(0, 1), (3, 1), (0x10, 8), (0x12, 8), (0x24, 10), (0x41, 4), (0x49, 4)]

/-- The same plate, CLOSED with 10 frames. -/
def closedDir : Mem := [(0, 2), (3, 1), (0x10, 8), (0x12, 8), (0x20, 10), (0x24, 10), (0x41, 4), (0x49, 4)]

/-- A good IDENT request, and a good CAL request. -/
def identFrame : List Byte := tmkFrame 1 7 []
def calFrame : List Byte := tmkFrame 10 7 [0]

/-- The corners of the cell of view 0's reset table that (20000, 17000, 100) lies in, and the sum of its tetrahedron. -/
def cubeE (c dr dg db : Nat) : Int := (State.reset.cubeEntry 0 17 (1 + dr) (1 + dg) (0 + db) / 2 ^ (18 * c) % 2 ^ 18 : Nat)
def cubeSum (c : Nat) : Int := (tetraSums 16384 3616 616 100 (cubeE c)).headD 0

/-! ## What `Instr.wf` refuses, and what it lets through at the same limit -/

/-- R53: start-up has steps 1 to 15. -/
theorem test_wf_startup_step :
    (Instr.startupStepEnd 0 ⟨true, true, true⟩).wf = false ∧ (Instr.startupStepEnd 16 ⟨true, true, true⟩).wf = false
    ∧ (Instr.startupStepEnd 1 ⟨true, true, true⟩).wf = true ∧ (Instr.startupStepEnd 15 ⟨true, true, true⟩).wf = true := by decide

/-- R84: offsets of BAR0 are below 16 MiB and aligned. -/
theorem test_wf_register_offsets :
    (Instr.domainWakeRequest (.read 0x1000000)).wf = false ∧ (Instr.domainWakeRequest (.read 2)).wf = false
    ∧ (Instr.domainWakeRequest (.write 0x1000000 15 0)).wf = false ∧ (Instr.domainWakeRequest (.write 1 15 0)).wf = false
    ∧ (Instr.bar0Write 0x1000000 15 0).wf = false ∧ (Instr.bar0Write 3 15 0).wf = false
    ∧ (Instr.stagedRegWrite 0x1000000 15 0).wf = false ∧ (Instr.stagedRegWrite 2 15 0).wf = false
    ∧ (Instr.counterClearWrite 0x1000000 1).wf = false ∧ (Instr.counterClearWrite 1 1).wf = false
    ∧ (Instr.domainWakeRequest (.read 0xFFFFFC)).wf = true ∧ (Instr.domainWakeRequest (.write 0xFFFFFC 15 0)).wf = true
    ∧ (Instr.bar0Write 0xFFFFFC 15 0).wf = true ∧ (Instr.stagedRegWrite 0xFFFFFC 15 0).wf = true
    ∧ (Instr.counterClearWrite 0xFFFFFC 1).wf = true := by decide

/-- R78: the pair link carries 8-bit voltage codes. -/
theorem test_wf_pair :
    (Instr.pair (.request 256)).wf = false ∧ (Instr.pair (.rate 256)).wf = false ∧ (Instr.pair (.confirm 256)).wf = false
    ∧ (Instr.pair (.request 255)).wf = true ∧ (Instr.pair (.rate 255)).wf = true ∧ (Instr.pair (.confirm 255)).wf = true := by decide

/-- R113: a relay window is 512 KiB; R114: tags have 16 bits. -/
theorem test_wf_relay :
    (Instr.relayAccess 0 0x80000 .read).wf = false ∧ (Instr.relayAccess 0 6 .read).wf = false ∧ (Instr.relayTimeout 65536).wf = false
    ∧ (Instr.hostRelayTimeout 65536).wf = false ∧ (Instr.relayAccess 3 0x7FFFC .read).wf = true ∧ (Instr.relayTimeout 65535).wf = true
    ∧ (Instr.hostRelayTimeout 65535).wf = true := by decide

/-- R87: a ring has at most 65,536 entries. R403: command identifiers have 16 bits. -/
theorem test_wf_indexes :
    (Instr.hostMemFault (.dataWrite 0 65536)).wf = false ∧ (Instr.nvmeCompletion 0 65536 .done).wf = false
    ∧ (Instr.hostMemFault (.dataWrite 0 65535)).wf = true ∧ (Instr.nvmeCompletion 0 65535 .done).wf = true := by decide

/-- R208, R451: where an error may lie: a 32-byte unit of the frame store, a word of the 128 banks. -/
theorem test_wf_errors :
    (Instr.rowTime [⟨true, 2 ^ 30⟩] []).wf = false ∧ (Instr.rowTime [] [⟨true, 8388608⟩]).wf = false
    ∧ (Instr.fstPatrolScrub [⟨true, 2 ^ 30⟩]).wf = false ∧ (Instr.bnkScrub [⟨true, 8388608⟩]).wf = false
    ∧ (Instr.rowTime [⟨true, 2 ^ 30 - 1⟩] [⟨true, 8388607⟩]).wf = true ∧ (Instr.fstPatrolScrub [⟨true, 2 ^ 30 - 1⟩]).wf = true
    ∧ (Instr.bnkScrub [⟨true, 8388607⟩]).wf = true := by decide

/-- R473: 28 die sensors and 4 stack sensors. -/
theorem test_wf_sensors :
    (Instr.thmSweep (List.replicate 27 ⟨true, 0⟩)).wf = false ∧ (Instr.stackSensorRead (List.replicate 5 ⟨true, 0⟩)).wf = false
    ∧ (Instr.thmSweep (List.replicate 28 ⟨true, 0⟩)).wf = true ∧ (Instr.stackSensorRead (List.replicate 4 ⟨true, 0⟩)).wf = true := by
  decide

/-- A HOST message that carries `n` bytes. -/
def hostBytes (n : Nat) : HostBody := ⟨0, 0, 0, List.replicate n 0⟩

/-- R533: what each KIND of a HOST message carries. -/
theorem test_wf_host_messages :
    (Instr.hostReadRequest ⟨0, 0⟩ (hostBytes 1) 4).wf = false ∧ (Instr.hostReadRequest ⟨0, 0⟩ (hostBytes 0) 0).wf = false
    ∧ (Instr.hostReadRequest ⟨0, 0⟩ (hostBytes 0) 4097).wf = false ∧ (Instr.hostWrite ⟨0, 0⟩ (hostBytes 0)).wf = false
    ∧ (Instr.hostWrite ⟨0, 0⟩ (hostBytes 49)).wf = false ∧ (Instr.hostReadData ⟨0, 0⟩ (hostBytes 0)).wf = false
    ∧ (Instr.hostReadData ⟨0, 0⟩ (hostBytes 49)).wf = false ∧ (Instr.hostWriteDone ⟨0, 0⟩ (hostBytes 1)).wf = false
    ∧ (Instr.hostMsix ⟨0, 0⟩ (hostBytes 3)).wf = false ∧ (Instr.hostRelayRead ⟨0, 0⟩ (hostBytes 1)).wf = false
    ∧ (Instr.hostRelayWrite ⟨0, 0⟩ (hostBytes 5)).wf = false ∧ (Instr.hostRelayReadData ⟨0, 0⟩ (hostBytes 3)).wf = false
    ∧ (Instr.hostRequestFailed ⟨0, 0⟩ (hostBytes 1)).wf = false := by decide

/-- The same messages with what they may carry. -/
theorem test_wf_host_messages_good :
    (Instr.hostReadRequest ⟨0, 0⟩ (hostBytes 0) 4096).wf = true ∧ (Instr.hostWrite ⟨0, 0⟩ (hostBytes 48)).wf = true
    ∧ (Instr.hostReadData ⟨0, 0⟩ (hostBytes 48)).wf = true ∧ (Instr.hostWriteDone ⟨0, 0⟩ (hostBytes 0)).wf = true
    ∧ (Instr.hostMsix ⟨0, 0⟩ (hostBytes 4)).wf = true ∧ (Instr.hostRelayRead ⟨0, 0⟩ (hostBytes 0)).wf = true
    ∧ (Instr.hostRelayWrite ⟨0, 0⟩ (hostBytes 4)).wf = true ∧ (Instr.hostRelayReadData ⟨0, 0⟩ (hostBytes 4)).wf = true
    ∧ (Instr.hostRequestFailed ⟨0, 0⟩ (hostBytes 0)).wf = true := by decide

/-- R546: a second of the meter has 4,096 conversions. R550: a slot of its log has 64 bytes. R567: a frame has at most 4,096 bytes. -/
theorem test_wf_meter :
    (Instr.meterSecond []).wf = false ∧ (Instr.vddTmkDrop (.cut [])).wf = false ∧ (Instr.vddTmkDrop (.cut (List.replicate 64 0))).wf = true
    ∧ (Instr.ident (.port 0xB4 0 (List.replicate 4091 0))).wf = false ∧ (Instr.note (.port 0xB4 0 (List.replicate 40 0))).wf = true := by
  decide +kernel

/-- R566: bit 0 of an address byte is 0 for a write to the meter's port and 1 for a read from it. -/
theorem test_wf_port_address :
    (Instr.ident (.port 0xB5 0 [])).wf = false ∧ (Instr.ident (.port 0xB4 0 [])).wf = true ∧ (Instr.ident (.port 0x10 0 [])).wf = true
    ∧ (Instr.tmkBadRequest (.port 0xB5 [])).wf = false ∧ (Instr.tmkBadRequest (.port 0xB4 [])).wf = true
    ∧ (Instr.tmkBadRequest .relay).wf = true ∧ (Instr.portReadTransfer ⟨0xB4, .whole⟩).wf = false
    ∧ (Instr.portReadTransfer ⟨0xB5, .whole⟩).wf = true := by decide

/-- R142: a flit carries 304 bytes of payload, and a sector 76; one without payload bytes carries zeros. -/
theorem test_wf_flits :
    (Instr.flitReceive 0 ⟨15, 2, 0, 0, 0, 0, 511, [0]⟩).wf = false ∧ (Instr.flitReceive 0 ⟨15, 2, 0, 0, 0, 0, 511, []⟩).wf = true
    ∧ (Instr.flitReceive 0 ⟨15, 1, 0, 0, 0, 0, 511, List.replicate 304 0⟩).wf = true
    ∧ (Instr.sectorForward 0 ⟨0, [0]⟩).wf = false ∧ (Instr.sectorForward 0 ⟨0, List.replicate 76 0⟩).wf = true := by decide +kernel

/-- The same limit for every other request of the meter (R567). -/
theorem test_wf_meter_payload :
    ([.readNow (.port 0xB4 0 (List.replicate 4091 0)), .readLog (.port 0xB4 0 (List.replicate 4091 0)), .readParam (.port 0xB4 0
        (List.replicate 4091 0)),
      .writeParam (.port 0xB4 0 (List.replicate 4091 0)) true, .seal (.port 0xB4 0 (List.replicate 4091 0)) true,
      .setWall (.port 0xB4 0 (List.replicate 4091 0)), .note (.port 0xB4 0 (List.replicate 4091 0)), .calResult (.port 0xB4 0
          (List.replicate 4091 0)),
      .calApplyGref (.port 0xB4 0 (List.replicate 4091 0)) true, .calApplyXtal (.port 0xB4 0 (List.replicate 4091 0)) true] : List
          Instr).all
        (fun i => !i.wf) = true := by decide +kernel

/-- R589: the data region of the window port. R83: configuration space. -/
theorem test_wf_offsets :
    (Instr.wpDataWrite 0x10000 15 0).wf = false ∧ (Instr.wpDataWrite 0x1002 15 0).wf = false
    ∧ (Instr.pcieConfigWrite (.other 4096 0)).wf = false ∧ (Instr.pcieConfigWrite (.other 2 0)).wf = false
    ∧ (Instr.wpDataWrite 0xFFFC 15 0).wf = true ∧ (Instr.pcieConfigWrite (.other 4092 0)).wf = true := by decide

/-- R176: LEN of a packet has 32 bits. -/
theorem test_wf_span (data : List Byte) (h : data.length = 2 ^ 32) (p : Fin 4) (x : PktHeader) :
    (Instr.span p x 0 1 1 data).wf = false ∧ (Instr.span p x 0 1 1 []).wf = true := by
  constructor
  · simp [Instr.wf, h]
  · rfl

/-! ## Numbers and worked examples of the spec -/

/-- The characters 1 to 9 in ASCII. -/
def digits : List Byte := [0x31, 0x32, 0x33, 0x34, 0x35, 0x36, 0x37, 0x38, 0x39]

/-- R14: the check value of CRC-32C. R145: that of the CRC-16. -/
theorem test_crc_check_values : crc32c digits = 0xE3069283 ∧ crc16 digits = 0xD0DB := by decide +kernel

/-- The example of 02_package_and_signals.md: the straps of the corner device read 0x59. -/
theorem test_straps_read_as_strapped :
    (match exec (.strapSample 0x59) State.reset with
      | .next t => t.reg Reg.GBL_STRAP == 0x59
      | _ => false) = true := by decide +kernel

/-- The example of R179: the first seven bytes of a pixel row. -/
theorem test_span_row_bits :
    (unpackRow 2 [0xFF, 0xFF, 0x07, 0, 0, 0, 0xE0, 0, 0, 0, 0, 0, 0, 0]).take 4 = [0x3FFFF, 1, 0x20000, 3] := by decide +kernel

/-- The example of R193: 2 pixels inside a feather of 32 cover 20 of 256; the mask value 0xC0 covers 193. -/
theorem test_window_coverage :
    coverage ⟨998, 120, 2000, 900, 32, 0, 0, 0, 0, 0⟩ 1000 400 = 20 ∧ maskCoverage 0xC0 = 193 := by decide

/-- The planes of the first Swage example of 09_frame_store_and_swage.md. -/
def swagePlane (b : Nat) : List Nat :=
  (List.range 4).flatMap (fun r => (List.range 64).map (fun x => b + 37 * x + 5 * r))

/-- That example at 2:1: no quantisation, and its first three bytes. -/
theorem test_swage_block :
    (fun x : Nat × List Byte => (x.1, x.2.take 3))
      (encodeBlock false 2 [swagePlane 100000, swagePlane 120000, swagePlane 90000]) = (0, [0x80, 0x00, 0xF2]) := by decide +kernel

/-- The staged values of the example of 10_genlock_and_slots.md. -/
def stageThree : State :=
  rv Reg.GEN_CFG 0x20D <| rv Reg.GEN_PERIOD 0x017D7840 <| rv Reg.GEN_ROWT 0x00400960 <| rv Reg.GEN_ORDER 0xFFFF3210 <|
  rv (Reg.GEN_SOFF 0) 500000 <| rv (Reg.GEN_SOFF 1) 7000000 <| rv (Reg.GEN_SOFF 2) 12500000 <| rv (Reg.GEN_SOFF 3) 17000000 <|
  rv (Reg.GEN_SDUR 0) 6250000 <| rv (Reg.GEN_SDUR 1) 5000000 <| rv (Reg.GEN_SDUR 2) 3750000 <| rv (Reg.GEN_SDUR 3) 2500000 <|
  rf (Reg.VIEW_CFG 0) F.VIEW_CFG_EN 1 <| rf (Reg.VIEW_CFG 1) F.VIEW_CFG_EN 1 <| rf (Reg.VIEW_CFG 2) F.VIEW_CFG_EN 1 <|
  rf (Reg.VIEW_CFG 3) F.VIEW_CFG_EN 1 State.reset

/-- R245: BOFF and the slots of that example. -/
theorem test_slot_schedule :
    (stageThree.slotTable [] 0).boff = 2625400
    ∧ (stageThree.slotTable [] 0).slots = [(0, 0), (1, 5875000), (2, 10750000), (3, 14625000)] := by decide +kernel

/-- R246 finds nothing against it. -/
theorem test_slot_schedule_passes : stageThree.schedFaults [] = [] := by decide +kernel

/-- R265: node 10 of the 33-cube lies at native 8,000. -/
theorem test_curve_node : curve false 8000 = 81920 := by decide +kernel

/-- The pixel of 11_decode_and_colour.md through HLG decode (R261) ... -/
theorem test_decode_example :
    decodeValue 2 0xA000 96000 = (7324, false) ∧ decodeValue 2 0xA000 80032 = (5090, false)
    ∧ decodeValue 2 0xA000 51200 = (2083, false) := by decide +kernel

/-- ... and the matrix (R264) ... -/
theorem test_matrix_example :
    (List.range 3).map (matrixValue (fun k => [0x10800, -1536, -512, -768, 0x10400, -256, 0x100, -1536, 0x10500].getD k 0) (fun _ => 0)
      [7324, 5090, 2083]) = [(7417, false), (5076, false), (2033, false)] := by decide +kernel

/-- The four entries of its 33-cube, as image bytes. -/
def cubeImage : Mem :=
  ((leBytes 8 0x0000038000A00030).zipIdx 0 ++ (leBytes 8 0x000001E000F0206C).zipIdx 0x2208 ++ (leBytes 8 0x0000014080482030).zipIdx 0x2310
    ++ (leBytes 8 0x0002000080002000).zipIdx 0x2318).map (fun e => (e.2, e.1))

/-- ... and the 3-D table (R266, R267). -/
theorem test_cube_example :
    { State.reset with tabs := [(0x20001, { Table.init with act := cubeImage })] }.cube 0 1 ⟨2, 0xA000, 33, true, [], []⟩ [7417, 5076, 2033]
      = .inl [7470, 5104, 2054] := by decide +kernel

/-- The last step of the example of 13_overdrive_and_dither.md (R318). -/
theorem test_drive_code : driveCode 52858 7 = 3304 ∧ driveCode 52858 10 = 3303 := by decide

/-- The example of 19_onchip_banks.md (R456): bank 20, or 58 for the other copy, word 29,888. -/
theorem test_bank_hash :
    hashedWord 0 36 1075968 = 65536 * 20 + 29888 ∧ hashedWord 38 36 1075968 = 65536 * 58 + 29888 := by decide

/-- An ACTIVE link that expects flit 0xFFE, with credit granted. -/
def linkAtWrap : State :=
  rf (lkLlcr 1) F.RAF_LLCR_CREDIT_GRANT 0x07E <| rf (lkLlst 1) F.RAF_LLST_RX_NEXT 0xFFE <| rf (lkPst 1) F.RAF_PST_STATE 5 State.reset

/-- The number expected after an accepted flit, whatever the fill of the receive buffer. -/
theorem test_next_expected (s : State) : (s.acceptSeq 1).rxNext 1 = (s.rxNext 1 + 1) % 4096 := by
  have h1 : ∀ (u : State) (f : LinkState → LinkState) (k : Nat) (g : Fld), (u.onLink 1 f).getF k g = u.getF k g := fun _ _ _ _ => rfl
  have h2 : ∀ (u : State) (k : Nat) (g : Fld), u.free.2.getF k g = u.getF k g := fun _ _ _ => rfl
  unfold State.acceptSeq State.rxNext
  dsimp only
  rw [h1, getF_setF_ne _ _ _ _ (by decide), h2, getF_setF_same _ _ _ _ (by decide) (by decide)]
  exact Nat.mod_eq_of_lt (Nat.mod_lt _ (by decide))

/-- The example of 07_rafter_links.md: 0xFFE is accepted and 0xFFF is next. -/
theorem test_flit_accepted : (linkAtWrap.acceptSeq 1).rxNext 1 = 0xFFF :=
  (test_next_expected _).trans (by decide +kernel)

/-- A flit two ahead is not taken, and a NAK is due (R154, R155). -/
theorem test_flit_ahead :
    (match exec (.flitReceive 1 ⟨15, 2, 0x000, 0, 0, 0, 511, []⟩) linkAtWrap with
      | .next t => (t.rxNext 1, (t.link 1).nakDue)
      | _ => (0, false)) = (0xFFE, true) := by decide +kernel

/-! ## Hypotheses that can be met -/

/-- The hypotheses of each clause of `RowsScanned` can be met. -/
theorem witness_RowsScanned :
    (∃ (s : Machine.State), s.scanRuns = false ∨ s.hrt.scanSlot ≠ none ∨ s.nSlot ≤ s.hrt.scanned)
    ∧ (∃ (s : Machine.State) (k : ℕ), (s.scanRuns = true) ∧ (s.hrt.scanSlot = none) ∧ (s.hrt.scanned = k) ∧ (k < s.nSlot) ∧ (k <
        s.hrt.slots))
    ∧ (∃ (s : Machine.State), s.hrt.scanSlot = none ∨ s.scanRuns = false)
    ∧ (∃ (s : Machine.State) (k : ℕ) (y : ℕ) (p : SlotPlan), (s.scanRuns = true) ∧ (s.hrt.scanSlot = some k) ∧ (s.planOf k = some p) ∧
        (p.view < 8) ∧ (s.hrt.row + 1 < 768) ∧ (s.rowAt 0 s.hrt.row = some y))
    ∧ (∃ (s : Machine.State) (k : ℕ) (p : SlotPlan), (s.scanRuns = true) ∧ (s.hrt.scanSlot = some k) ∧ (s.planOf k = some p) ∧ (s.hrt.row
        + 1 < 768) ∧ (s.rowAt 0 s.hrt.row = none) ∧ (s.rowAt 1 s.hrt.row = none))
    ∧ (∃ (grid : ℕ) (x : ℕ) (e : ℕ) (d : ℕ), (grid < 195) ∧ (387 ≤ 50 * x) ∧ ((e, d) = loadPlace grid x))
    ∧ (∃ (codes : List ℕ) (k : ℕ) (c : ℕ), (∀ x ∈ codes, x < 16384) ∧ (codes[k]? = some c)) :=
  ⟨⟨State.reset, by decide +kernel⟩,
   ⟨{ (rf Reg.GEN_STAT F.GEN_STAT_NSLOT 4 State.reset) with pnl.scanning := true, hrt.scanned := 1, hrt.slots := 2 }, 1, by decide +kernel⟩,
   ⟨State.reset, by decide +kernel⟩,
   ⟨{ (rf Reg.SCN_GEOM F.SCN_GEOM_HEIGHT 768 State.reset) with pnl.scanning := true, hrt.scanSlot := some 1, hrt.plans := [⟨0, 1, 2, [], none⟩] },
       1, 0, (⟨0, 1, 2, [], none⟩ : SlotPlan), by decide +kernel⟩,
   ⟨{ (rf Reg.SCN_GEOM F.SCN_GEOM_HEIGHT 0 State.reset) with pnl.scanning := true, hrt.scanSlot := some 1, hrt.plans := [⟨0, 1, 2, [], none⟩] },
       1, (⟨0, 1, 2, [], none⟩ : SlotPlan), by decide +kernel⟩,
   ⟨7, 100, (loadPlace 7 100).1, (loadPlace 7 100).2, by decide +kernel⟩,
   ⟨[7], 0, 7, by decide +kernel⟩⟩

/-- The hypotheses of each clause of `Dormant` can be met. -/
theorem witness_Dormant :
    (∃ (s : Machine.State), s.entryDue = true)
    ∧ (∃ (s : Machine.State), s.entryDue = false)
    ∧ (∃ (s : Machine.State) (n : Fin 3), (s.wakeEnabled ↑n = true) ∧ (s.pwr.dormant = true) ∧ (s.pwr.wakeLatched = false) ∧
        (s.pwr.wakeSeen = none))
    ∧ (∃ (s : Machine.State) (n : Fin 3), (s.wakeEnabled ↑n = true) ∧ (s.pwr.dormant = false) ∧ (s.pwr.heading = true) ∧
        (s.pwr.wakeLatched = false) ∧ (s.pwr.wakeSeen = none))
    ∧ (∃ (s : Machine.State) (n : Fin 3), s.wakeEnabled ↑n = false)
    ∧ (∃ (s : Machine.State) (r : WakeResult), (s.pwr.dormant = true) ∧ (s.pwr.wakeLatched = true) ∧ (r.trained = true) ∧ (s.coreOff =
        false)) :=
  ⟨⟨{ (rf Reg.PWR_STATE F.PWR_STATE_TARGET 3 State.reset) with pwr.heading := true }, by decide +kernel⟩,
   ⟨State.reset, by decide +kernel⟩,
   ⟨{ (rf Reg.PWR_DORM ⟨31, 0⟩ 7 State.reset) with pwr.dormant := true }, 1, by decide +kernel⟩,
   ⟨{ State.reset with pwr.heading := true }, 1, by decide +kernel⟩,
   ⟨(rf Reg.PWR_DORM ⟨31, 0⟩ 0 State.reset), 1, by decide +kernel⟩,
   ⟨{ State.reset with pwr.dormant := true, pwr.wakeLatched := true, rst.applying := none }, (⟨100, true, false⟩ : WakeResult),
       by decide +kernel⟩⟩

/-- The hypotheses of each clause of `PanelSequence` can be met. -/
theorem witness_PanelSequence :
    (∃ (s : Machine.State), (s.seq ≠ 1) ∧ (s.seq ≠ 3))
    ∧ (∃ (s : Machine.State), (s.seq = 1) ∧ (s.seqStep = 1) ∧ (s.crackPol ≠ 0) ∧ (s.pnl.n1Measured = false))
    ∧ (∃ (s : Machine.State) (pins : PanelPins), (s.seq = 1) ∧ (s.seqStep = 1) ∧ (s.crackPol = 0) ∧ (pins.pfailLow = true) ∧ (s.pnl.raised
        = []) ∧ (s.pnl.pins < 256) ∧ (s.rst.off = false) ∧ (s.rst.waitPanel = none))
    ∧ (∃ (s : Machine.State) (pins : PanelPins) (n : ℕ) (rest : List ℕ), (s.seq = 1) ∧ (s.seqStep = 1) ∧ (s.crackPol = 0) ∧ (pins.pfailLow
        = false) ∧ (pins.vddLow = false) ∧ (s.pnl.todo = n :: rest) ∧ (n < 6))
    ∧ (∃ (s : Machine.State) (n : ℕ) (rest : List ℕ), (s.seq = 1) ∧ (s.seqStep = 3) ∧ (s.pnl.todo = n :: rest) ∧ (n < 6) ∧ (s.pnl.inDelay
        = false))
    ∧ (∃ (s : Machine.State) (n : ℕ) (m : ℕ) (rest : List ℕ), (s.seq = 1) ∧ (s.seqStep = 3) ∧ (s.pnl.todo = n :: m :: rest) ∧ (m < 6) ∧
        (s.pnl.inDelay = true))
    ∧ (∃ (s : Machine.State), (s.seq = 1) ∧ (s.seqStep = 4) ∧ (∃ g ∈ s.trained, s.drvState g = 1))
    ∧ (∃ (s : Machine.State), (s.seq = 1) ∧ (s.seqStep = 4) ∧ (∀ g ∈ s.trained, s.drvState g ≠ 1))
    ∧ (∃ (s : Machine.State), (s.seq = 1) ∧ (s.seqStep = 5 ∨ s.seqStep = 6 ∨ s.seqStep = 7))
    ∧ (∃ (s : Machine.State), (s.seq = 1) ∧ (s.seqStep = 8) ∧ (s.pnl.wantOff = false))
    ∧ (∃ (s : Machine.State), (s.seq = 3) ∧ (s.seqStep = 1) ∧ (s.pnl.scanning = true))
    ∧ (∃ (s : Machine.State), (s.seq = 3) ∧ (s.seqStep = 1) ∧ (s.pnl.scanning = false))
    ∧ (∃ (s : Machine.State), (s.seq = 3) ∧ (s.seqStep = 3))
    ∧ (∃ (s : Machine.State), (s.seq = 3) ∧ (s.seqStep = 5) ∧ (s.pnl.todo = []) ∧ (s.pnl.aborted = false) ∧ (s.pnl.wantOn = false) ∧
        (s.pwr.heading = false) ∧ (s.rst.off = false) ∧ (s.rst.waitPanel = none) ∧ (s.pnl.pins < 256))
    ∧ (∃ (s : Machine.State), s.pnl.todo = [] ∨ s.pnl.inDelay = true)
    ∧ (∃ (s : Machine.State) (n : ℕ) (r : ℕ) (rest : List ℕ) (l : List ℕ), (s.seq = 1) ∧ (s.seqStep = 3) ∧ (s.pnl.todo = n :: rest) ∧
        (s.pnl.inDelay = false) ∧ (s.pnl.raised = r :: l))
    ∧ (∃ (s : Machine.State) (n : ℕ) (m : ℕ) (rest : List ℕ), (s.seq = 3) ∧ (s.seqStep = 5) ∧ (s.pnl.todo = n :: m :: rest) ∧
        (s.pnl.inDelay = false) ∧ (m < 6)) :=
  ⟨⟨(rf Reg.SCN_PSTAT F.SCN_PSTAT_SEQ 0 State.reset), by decide +kernel⟩,
   ⟨(rf Reg.SCN_PROT F.SCN_PROT_CRACK_POL 1 <| rf Reg.SCN_PSTAT F.SCN_PSTAT_STEP 1 <| rf Reg.SCN_PSTAT F.SCN_PSTAT_SEQ 1 State.reset),
       by decide +kernel⟩,
   ⟨(rf Reg.SCN_PROT F.SCN_PROT_CRACK_POL 0 <| rf Reg.SCN_PSTAT F.SCN_PSTAT_STEP 1 <| rf Reg.SCN_PSTAT F.SCN_PSTAT_SEQ 1 State.reset),
       ⟨true, false⟩, by decide +kernel⟩,
   ⟨{ (rf Reg.SCN_PROT F.SCN_PROT_CRACK_POL 0 <| rf Reg.SCN_PSTAT F.SCN_PSTAT_STEP 1 <| rf Reg.SCN_PSTAT F.SCN_PSTAT_SEQ 1 State.reset) with pnl.todo := 0 :: ([]) },
       (⟨false, false⟩ : PanelPins), 0, [], by decide +kernel⟩,
   ⟨{ (rf Reg.SCN_PSTAT F.SCN_PSTAT_STEP 3 <| rf Reg.SCN_PSTAT F.SCN_PSTAT_SEQ 1 State.reset) with pnl.todo := 0 :: ([]) }, 0, [],
       by decide +kernel⟩,
   ⟨{ (rf Reg.SCN_PSTAT F.SCN_PSTAT_STEP 3 <| rf Reg.SCN_PSTAT F.SCN_PSTAT_SEQ 1 State.reset) with pnl.todo := 0 :: 0 :: ([]), pnl.inDelay := true },
       0, 0, [], by decide +kernel⟩,
   ⟨(rf Reg.BAT_CFG F.BAT_CFG_NDRV 12 <| rf (dstat 0) F.BAT_DSTAT_STATE 1 <| rf Reg.SCN_PSTAT F.SCN_PSTAT_STEP 4 <| rf Reg.SCN_PSTAT
       F.SCN_PSTAT_SEQ 1 State.reset), by decide +kernel⟩,
   ⟨(rf Reg.SCN_PSTAT F.SCN_PSTAT_STEP 4 <| rf Reg.SCN_PSTAT F.SCN_PSTAT_SEQ 1 State.reset), by decide +kernel⟩,
   ⟨(rf Reg.SCN_PSTAT F.SCN_PSTAT_STEP 5 <| rf Reg.SCN_PSTAT F.SCN_PSTAT_SEQ 1 State.reset), by decide +kernel⟩,
   ⟨(rf Reg.SCN_PSTAT F.SCN_PSTAT_STEP 8 <| rf Reg.SCN_PSTAT F.SCN_PSTAT_SEQ 1 State.reset), by decide +kernel⟩,
   ⟨{ (rf Reg.SCN_PSTAT F.SCN_PSTAT_STEP 1 <| rf Reg.SCN_PSTAT F.SCN_PSTAT_SEQ 3 State.reset) with pnl.scanning := true },
       by decide +kernel⟩,
   ⟨(rf Reg.SCN_PSTAT F.SCN_PSTAT_STEP 1 <| rf Reg.SCN_PSTAT F.SCN_PSTAT_SEQ 3 State.reset), by decide +kernel⟩,
   ⟨(rf Reg.SCN_PSTAT F.SCN_PSTAT_STEP 3 <| rf Reg.SCN_PSTAT F.SCN_PSTAT_SEQ 3 State.reset), by decide +kernel⟩,
   ⟨(rf Reg.SCN_PSTAT F.SCN_PSTAT_STEP 5 <| rf Reg.SCN_PSTAT F.SCN_PSTAT_SEQ 3 State.reset), by decide +kernel⟩,
   ⟨State.reset, by decide +kernel⟩,
   ⟨{ (rf Reg.SCN_PSTAT F.SCN_PSTAT_STEP 3 <| rf Reg.SCN_PSTAT F.SCN_PSTAT_SEQ 1 State.reset) with pnl.todo := 0 :: ([]), pnl.raised := 0 :: ([]) },
       0, 0, [], [], by decide +kernel⟩,
   ⟨{ (rf Reg.SCN_PSTAT F.SCN_PSTAT_STEP 5 <| rf Reg.SCN_PSTAT F.SCN_PSTAT_SEQ 3 State.reset) with pnl.todo := 0 :: 0 :: ([]) }, 0, 0, [],
       by decide +kernel⟩⟩

/-- The hypotheses of each clause of `RingFaults` can be met. -/
theorem witness_RingFaults :
    (∃ (s : Machine.State) (rid : ℕ) (addr : ℕ) (len : ℕ) (c : ℕ) (idx : ℕ) (n : ℕ), (c < 256) ∧ (s.hst.linkUp = true) ∧ (List.find? (fun
        r ↦ r.rid == rid) s.hst.reads = some { rid := rid, addr := addr, len := len, use := ReadUse.fetch c idx n }))
    ∧ (∃ (s : Machine.State) (c : Fin 256), (s.hst.linkUp = true) ∧ (s.stg.closing = []) ∧ ((s.client ↑c).discardDue = false))
    ∧ (∃ (s : Machine.State) (c : Fin 256) (idx : ℕ) (d : Desc), (s.hst.linkUp = true) ∧ (s.desc? (↑c) idx = some d) ∧ (writesData
        d.opcode = true) ∧ (d.length ≠ 0) ∧ (d.stage = DescStage.finished) ∧ (d.cpl.status ≤ 1))
    ∧ (∃ (s : Machine.State) (c : Fin 256) (idx : ℕ) (d : Desc), (s.hst.linkUp = true) ∧ (s.desc? (↑c) idx = some d) ∧ (writesData
        d.opcode = true) ∧ (d.length ≠ 0) ∧ (d.stage ≠ DescStage.finished))
    ∧ (∃ (s : Machine.State) (c : ℕ) (idx : ℕ) (d : Desc) (e : Desc) (rest : List Desc) (p : Cpl), (p.status ≤ 1) ∧ ((s.client c).descs =
        d :: e :: rest) ∧ (e.idx = idx) ∧ (d.idx ≠ idx) ∧ (e.wfail = true) ∧ (e.txn = 0) ∧ (d.stage ≠ DescStage.finished))
    ∧ (∃ (s : Machine.State), s.hst.linkUp = false) :=
  ⟨⟨{ State.reset with hst.linkUp := true, hst.reads := [{ rid := 0, addr := 0, len := 64, use := ReadUse.fetch 3 0 1 }] }, 0, 0, 64, 3,
      0, 1, by decide +kernel⟩,
   ⟨{ State.reset with hst.linkUp := true, hst.clients := [(3, { Client.init with discardDue := false })] }, 3, by decide +kernel⟩,
   ⟨{ State.reset with hst.linkUp := true, hst.clients := [((3), { Client.init with descs := [({ (dsc 5 8 0 0 [0]) with stage := .finished } : Desc)] })] },
       3, 0, ({ (dsc 5 8 0 0 [0]) with stage := .finished } : Desc), by decide +kernel⟩,
   ⟨{ State.reset with hst.linkUp := true, hst.clients := [((3), { Client.init with descs := [(dsc 5 8 0 0 [0])] })] }, 3, 0, (dsc 5 8 0 0
       [0]), by decide +kernel⟩,
   ⟨{ State.reset with hst.clients := [(0, { Client.init with descs := ({ (dsc 5 8 0 0 [0]) with stage := .waiting } : Desc) :: ({ (dsc 5 8 0 0 [0]) with idx := 1, wfail := true } : Desc) :: ([]) })] },
       0, 1, ({ (dsc 5 8 0 0 [0]) with stage := .waiting } : Desc), ({ (dsc 5 8 0 0 [0]) with idx := 1, wfail := true } : Desc), [], (Cpl.of
       0), by decide +kernel⟩,
   ⟨State.reset, by decide +kernel⟩⟩

/-- The hypotheses of each clause of `Events` can be met. -/
theorem witness_Events :
    (∃ (s : Machine.State), s.isOn 2 = false ∨ s.flag Reg.EVT_CFG F.EVT_CFG_EN = false ∨ s.flag Reg.EVT_STAT F.EVT_STAT_FAULT = true ∨
        s.evtRoom = 0)
    ∧ (∃ (s : Machine.State), (RingOpen s) ∧ (s.evt.faultRec = true))
    ∧ (∃ (s : Machine.State), (RingOpen s) ∧ (s.evt.faultRec = false) ∧ (s.evt.lostCount ≠ 0))
    ∧ (∃ (s : Machine.State) (p : PendEvent) (l : List PendEvent), (RingOpen s) ∧ (s.evt.faultRec = false) ∧ (s.evt.lostCount = 0) ∧
        (s.evt.pend = p :: l) ∧ (p.first + holdOf s p ≤ s.gen.vt))
    ∧ (∃ (s : Machine.State), (s.evt.faultRec = false) ∧ (s.evt.lostCount = 0) ∧ (s.evt.pend = []))
    ∧ (∃ (s : Machine.State), s.flag Reg.EVT_CFG F.EVT_CFG_EN = false)
    ∧ (∃ (s : Machine.State), s.flag Reg.EVT_CFG F.EVT_CFG_EN = true)
    ∧ (∃ (s : Machine.State), s.evt.irqPend = 0 ∨ s.flag Reg.EVT_CFG F.EVT_CFG_IRQ_EN = false ∨ s.getF Reg.EVT_CFG F.EVT_CFG_TIME_US = 0)
    ∧ (∃ (s : Machine.State), (s.evt.irqPend ≠ 0) ∧ (s.flag Reg.EVT_CFG F.EVT_CFG_IRQ_EN = true) ∧ (s.getF Reg.EVT_CFG F.EVT_CFG_TIME_US ≠
        0))
    ∧ (∃ (s : Machine.State) (v : Word) (n : ℕ) (size : ℕ), (s.hostReaches = true) ∧ (n = BitVec.toNat v % 65536) ∧ (size = s.evtSize) ∧
        (size ≤ n ∨ (s.getF Reg.EVT_RPOS F.EVT_RPOS_TAIL + size - s.getF Reg.EVT_RHEAD F.EVT_RHEAD_HEAD) % size < (n + size - s.getF
        Reg.EVT_RHEAD F.EVT_RHEAD_HEAD) % size))
    ∧ (∃ (s : Machine.State) (v : Word) (n : ℕ) (size : ℕ), (s.hostReaches = true) ∧ (n = BitVec.toNat v % 65536) ∧ (size = s.evtSize) ∧
        (n < size) ∧ ((n + size - s.getF Reg.EVT_RHEAD F.EVT_RHEAD_HEAD) % size ≤ (s.getF Reg.EVT_RPOS F.EVT_RPOS_TAIL + size - s.getF
        Reg.EVT_RHEAD F.EVT_RHEAD_HEAD) % size))
    ∧ (∃ (s : Machine.State) (v : Word), (s.hostReaches = true) ∧ (fieldOf F.EVT_CFG_COUNT v = 0 ∨ 10 < fieldOf F.EVT_CFG_SIZE v ∨ s.flag
        Reg.EVT_CFG F.EVT_CFG_EN = true ∧ fieldOf F.EVT_CFG_SIZE v ≠ s.getF Reg.EVT_CFG F.EVT_CFG_SIZE))
    ∧ (∃ (s : Machine.State) (v : Word), (s.hostReaches = true) ∧ (fieldOf F.EVT_CFG_COUNT v ≠ 0) ∧ (fieldOf F.EVT_CFG_SIZE v ≤ 10) ∧
        (fieldOf F.EVT_CFG_EN v = 1) ∧ (s.flag Reg.EVT_CFG F.EVT_CFG_EN = false))
    ∧ (∃ (s : Machine.State) (v : Word), (s.hostReaches = true) ∧ (fieldOf F.EVT_CFG_COUNT v ≠ 0) ∧ (fieldOf F.EVT_CFG_SIZE v ≤ 10) ∧
        (s.flag Reg.EVT_CFG F.EVT_CFG_EN = true ∧ fieldOf F.EVT_CFG_SIZE v = s.getF Reg.EVT_CFG F.EVT_CFG_SIZE ∨ fieldOf F.EVT_CFG_EN v = 0 ∧
        s.flag Reg.EVT_CFG F.EVT_CFG_EN = false))
    ∧ (∃ (s : Machine.State) (hi : Bool) (off : ℕ) (base : ℕ), (s.hostReaches = true) ∧ ((off, base) = if hi = true then
        (Reg.EVT_ALM_PEND_HI, 32) else (Reg.EVT_ALM_PEND_LO, 0)))
    ∧ (∃ (s : Machine.State) (v : Word), (s.hostReaches = true) ∧ (fieldOf F.EVT_TRC_RUN v = 1) ∧ (s.getF Reg.BNK_ALLOC F.BNK_ALLOC_TRACE
        = 0))
    ∧ (∃ (s : Machine.State) (v : Word), (s.hostReaches = true) ∧ (fieldOf F.EVT_TRC_RUN v = 1) ∧ (s.getF Reg.BNK_ALLOC F.BNK_ALLOC_TRACE
        ≠ 0) ∧ (s.flag Reg.EVT_TRC F.EVT_TRC_RUN = false))
    ∧ (∃ (s : Machine.State) (v : Word), (s.hostReaches = true) ∧ (fieldOf F.EVT_TRC_RUN v = 0) ∧ (s.flag Reg.EVT_TRC F.EVT_TRC_RUN =
        true) ∧ (s.evt.fifo = []))
    ∧ (∃ (s : Machine.State), (s.hostReaches = true) ∧ (Captures s 6))
    ∧ (∃ (s : Machine.State), s.flag Reg.EVT_TRC F.EVT_TRC_RUN = false ∨ (s.getF Reg.EVT_TRC F.EVT_TRC_KINDS).testBit 5 = false)
    ∧ (∃ (s : Machine.State), (s.hostReaches = true) ∧ (s.flag Reg.EVT_TRC F.EVT_TRC_RUN = true) ∧ ((s.getF Reg.EVT_TRC
        F.EVT_TRC_KINDS).testBit 5 = true) ∧ (256 ≤ s.evt.fifo.length))
    ∧ (∃ (s : Machine.State), ∀ q < 8, s.lkState q ≠ 5)
    ∧ (∃ (s : Machine.State) (q : ℕ), (q < 8) ∧ (s.lkState q = 5) ∧ (∀ p < 8, p ≠ q → s.lkState p ≠ 5) ∧ (Captures s 4)) :=
  ⟨⟨(on [] <| State.reset), by decide +kernel⟩,
   ⟨{ (on [2] <| rf Reg.EVT_CFG F.EVT_CFG_EN 1 State.reset) with hst.linkUp := true, evt.faultRec := true },
       by unfold RingOpen; decide +kernel⟩,
   ⟨{ (on [2] <| rf Reg.EVT_CFG F.EVT_CFG_EN 1 State.reset) with hst.linkUp := true, evt.lostCount := 1 },
       by unfold RingOpen; decide +kernel⟩,
   ⟨{ (on [2] <| rf Reg.EVT_CFG F.EVT_CFG_EN 1 State.reset) with hst.linkUp := true, evt.pend := (⟨1, 0, 0, 0, false, false, 1, 0, 0⟩ : PendEvent) :: ([]), gen.vt := 10000000 },
       (⟨1, 0, 0, 0, false, false, 1, 0, 0⟩ : PendEvent), [], by unfold RingOpen; decide +kernel⟩,
   ⟨State.reset, by decide +kernel⟩,
   ⟨(rf Reg.EVT_CFG F.EVT_CFG_EN 0 State.reset), by decide +kernel⟩,
   ⟨(rf Reg.EVT_CFG F.EVT_CFG_EN 1 State.reset), by decide +kernel⟩,
   ⟨State.reset, by decide +kernel⟩,
   ⟨{ (rf Reg.EVT_CFG F.EVT_CFG_TIME_US 1 <| rf Reg.EVT_CFG F.EVT_CFG_IRQ_EN 1 State.reset) with evt.irqPend := 1 }, by decide +kernel⟩,
   ⟨(on [2] <| rf Reg.EVT_CFG F.EVT_CFG_SIZE 0 State.reset), 100, 100, 64, by decide +kernel⟩,
   ⟨(on [2] <| rf Reg.EVT_CFG F.EVT_CFG_SIZE 0 State.reset), 0, 0, 64, by decide +kernel⟩,
   ⟨(on [2] <| State.reset), 0, by decide +kernel⟩,
   ⟨(on [2] <| rf Reg.EVT_CFG F.EVT_CFG_EN 0 State.reset), withField F.EVT_CFG_EN 1 (withField F.EVT_CFG_COUNT 1 0), by decide +kernel⟩,
   ⟨(on [2] <| rf Reg.EVT_CFG F.EVT_CFG_EN 1 State.reset), withField F.EVT_CFG_EN 1 (withField F.EVT_CFG_COUNT 1 0), by decide +kernel⟩,
   ⟨(on [2] <| State.reset), true, Reg.EVT_ALM_PEND_HI, 32, by decide +kernel⟩,
   ⟨(on [2] <| rf Reg.BNK_ALLOC F.BNK_ALLOC_TRACE 0 State.reset), withField F.EVT_TRC_RUN 1 0, by decide +kernel⟩,
   ⟨(on [2] <| rf Reg.EVT_TRC F.EVT_TRC_RUN 0 <| rf Reg.BNK_ALLOC F.BNK_ALLOC_TRACE 1 State.reset), withField F.EVT_TRC_RUN 1 0,
       by decide +kernel⟩,
   ⟨(on [2] <| rf Reg.EVT_TRC F.EVT_TRC_RUN 1 State.reset), 0, by decide +kernel⟩,
   ⟨(on [2] <| rf Reg.EVT_TRC F.EVT_TRC_KINDS 63 <| rf Reg.EVT_TRC F.EVT_TRC_RUN 1 State.reset), by unfold Captures; decide +kernel⟩,
   ⟨(rf Reg.EVT_TRC F.EVT_TRC_RUN 0 State.reset), by decide +kernel⟩,
   ⟨{ (on [2] <| rf Reg.EVT_TRC F.EVT_TRC_KINDS 63 <| rf Reg.EVT_TRC F.EVT_TRC_RUN 1 State.reset) with evt.fifo := List.replicate 256 [] },
       by decide +kernel⟩,
   ⟨State.reset, by decide +kernel⟩,
   ⟨(rf Reg.EVT_TRC F.EVT_TRC_KINDS 63 <| rf Reg.EVT_TRC F.EVT_TRC_RUN 1 <| rf (lkPst 1) F.RAF_PST_STATE 5 State.reset), 1,
       by unfold Captures; decide +kernel⟩⟩

/-- The hypotheses of each clause of `Calibration` can be met. -/
theorem witness_Calibration :
    (∃ (s : Machine.State) (c : Fin 256) (d : Desc) (i : Instr) (p : Desc → Bool), (s.startable (↑c) p = some d) ∧ ((i, p) ∈
        [(Instr.calStepAdc c, isCal 1), (Instr.calStepTimebase c, isCal 2), (Instr.calStepDacRef c, isCal 3), (Instr.tmkCalAdc c, fun d ↦
        isCal 4 d && d.arg 1 == 0), (Instr.tmkCalCrystal c, fun d ↦ isCal 4 d && d.arg 1 == 1)]) ∧ (s.cal.run.isSome = true ∨ s.cal.queue ≠
        []))
    ∧ (∃ (s : Machine.State) (c : Fin 256) (d : Desc), (s.startable (↑c) (isCal 1) = some d) ∧ (s.cal.run = none) ∧ (s.cal.queue = []))
    ∧ (∃ (s : Machine.State) (c : Fin 256) (d : Desc), (s.startable (↑c) (isCal 2) = some d) ∧ (s.cal.run = none) ∧ (s.cal.queue = []))
    ∧ (∃ (s : Machine.State) (c : Fin 256) (d : Desc), (s.startable (↑c) (isCal 3) = some d) ∧ (s.cal.run = none) ∧ (s.cal.queue = []) ∧
        (d.arg 1 < 24) ∧ (s.seq ≠ 2 ∨ s.drvUp (d.arg 1) = false))
    ∧ (∃ (s : Machine.State) (c : Fin 256) (d : Desc), (s.startable (↑c) (isCal 3) = some d) ∧ (s.cal.run = none) ∧ (s.cal.queue = []) ∧
        (d.arg 1 < 24) ∧ (s.seq = 2) ∧ (s.drvUp (d.arg 1) = true) ∧ ((s.driver (d.arg 1)).cmd = none) ∧ ((s.driver (d.arg 1)).queue = []))
    ∧ (∃ (s : Machine.State) (c : Fin 256) (d : Desc), ((s.startable ↑c fun d ↦ isCal 4 d && d.arg 1 == 0) = some d) ∧ (s.cal.run = none)
        ∧ (s.cal.queue = []))
    ∧ (∃ (s : Machine.State) (c : Fin 256) (d : Desc), ((s.startable ↑c fun d ↦ isCal 4 d && d.arg 1 == 1) = some d) ∧ (s.cal.run = none)
        ∧ (s.cal.queue = []))
    ∧ (∃ (s : Machine.State), s.cal.run.isSome = true ∨ s.cal.queue = [])
    ∧ (∃ (s : Machine.State) (r : CalRun) (l : List CalRun), (s.cal.run = none) ∧ (s.cal.queue = r :: l) ∧ (r.step ≠ 3))
    ∧ (∃ (s : Machine.State), s.cal.run = none)
    ∧ (∃ (s : Machine.State) (r : CalRun) (m : CalMeas), (s.cal.run = some r) ∧ (r.step = 1 ∨ r.step = 3) ∧ (s.cal.deferred = false) ∧
        (m.refMv.toNat < 100 ∨ 5000 < m.refMv.toNat))
    ∧ (∃ (s : Machine.State) (r : CalRun) (m : CalMeas) (z : ℤ) (v : ℤ) (e : ℤ), (s.cal.run = some r) ∧ (r.step = 1) ∧ (s.cal.deferred =
        false) ∧ (refAbsent m = false) ∧ (z = s.adcVolts m.zero) ∧ (v = s.adcVolts m.ref) ∧ (e = rneDiv (100 * ↑(s.getF Reg.CAL_FRREF
        { msb := 23, lsb := 0 })) 1000) ∧ (v - z ≤ 0 ∨ 100 * (v - z) < 98 * e ∨ 102 * e < 100 * (v - z)))
    ∧ (∃ (s : Machine.State) (r : CalRun) (m : CalMeas) (z : ℤ) (v : ℤ) (e : ℤ), (s.cal.run = some r) ∧ (r.step = 1) ∧ (s.cal.deferred =
        false) ∧ (refAbsent m = false) ∧ (z = s.adcVolts m.zero) ∧ (v = s.adcVolts m.ref) ∧ (e = rneDiv (100 * ↑(s.getF Reg.CAL_FRREF
        { msb := 23, lsb := 0 })) 1000) ∧ (0 < v - z) ∧ (98 * e ≤ 100 * (v - z)) ∧ (100 * (v - z) ≤ 102 * e) ∧ (BitVec.toNat m.spreadUv ≤ 200)
        ∧ (s.valid 13 = true))
    ∧ (∃ (s : Machine.State) (r : CalRun) (m : CalMeas), (s.cal.run = some r) ∧ (r.step = 2) ∧ (1000 < BitVec.toNat m.spreadPpb))
    ∧ (∃ (s : Machine.State) (r : CalRun) (m : CalMeas) (f : ℕ), (s.cal.run = some r) ∧ (r.step = 2) ∧ (BitVec.toNat m.spreadPpb ≤ 1000) ∧
        (s.valid 21 = true) ∧ (((r.arg : ℤ) * 1200000000 - (m.count : ℤ)).natAbs * 1000000 ≤ 200 * m.count) ∧ (f = (s.xtalFactor * (m.count :
        ℤ)).toNat))
    ∧ (∃ (s : Machine.State) (r : CalRun) (m : CalMeas) (g : ℕ) (w : Word), (s.cal.run = some r) ∧ (r.step = 3) ∧ (r.arg = g) ∧ (g < 24) ∧
        (r.found = [(g, w)]) ∧ (s.cal.deferred = false) ∧ (refAbsent m = false) ∧ ((toSigned 16 (BitVec.toNat w / 65536)).natAbs ≤ 2000))
    ∧ (∃ (s : Machine.State) (r : CalRun) (m : CalMeas) (g : ℕ), (s.cal.run = some r) ∧ (r.step = 3) ∧ (r.arg = g) ∧ (g < 24) ∧ (r.found =
        []) ∧ (s.cal.deferred = false) ∧ (refAbsent m = false))
    ∧ (∃ (s : Machine.State) (r : CalRun) (m : CalMeas), (s.cal.run = some r) ∧ (r.step = 4) ∧ (r.arg = 1) ∧ (m.meterOk = false ∨
        s.tmk.powered = false ∨ s.flag Reg.TMK_STAT F.TMK_STAT_LINK = false))
    ∧ (∃ (s : Machine.State) (r : CalRun) (m : CalMeas), (s.cal.run = some r) ∧ (r.step = 4) ∧ (r.arg = 0) ∧ (s.cal.deferred = false) ∧
        (m.meterOk = false ∨ s.tmk.powered = false ∨ s.flag Reg.TMK_STAT F.TMK_STAT_LINK = false))
    ∧ (∃ (s : Machine.State) (r : CalRun) (m : CalMeas), (s.cal.run = some r) ∧ (r.step = 4) ∧ (r.arg = 0) ∧ (s.cal.deferred = false) ∧
        (m.meterOk = true) ∧ (s.tmk.powered = true) ∧ (s.flag Reg.TMK_STAT F.TMK_STAT_LINK = true))
    ∧ (∃ (s : Machine.State) (r : CalRun) (m : CalMeas), (s.cal.run = some r) ∧ (r.step = 4) ∧ (r.arg = 1) ∧ (m.meterOk = true) ∧
        (s.tmk.powered = true) ∧ (s.flag Reg.TMK_STAT F.TMK_STAT_LINK = true)) :=
  ⟨⟨{ (rf (Reg.HST_CSTAT 3) F.HST_CSTAT_RUN 1 State.reset) with hst.clients := [(3, { Client.init with descs := [(dsc 32 8 0 0 [1, 0])] })], cal.run := some (⟨3, 0, 2, 0, [], 0, []⟩ : CalRun) },
      3, (dsc 32 8 0 0 [1, 0]), (.calStepAdc 3), (isCal 1), by decide +kernel, .head _, by decide +kernel⟩,
   ⟨{ (rf (Reg.HST_CSTAT 3) F.HST_CSTAT_RUN 1 State.reset) with hst.clients := [(3, { Client.init with descs := [(dsc 32 8 0 0 [1, 0])] })] },
       3, (dsc 32 8 0 0 [1, 0]), by decide +kernel⟩,
   ⟨{ (rf (Reg.HST_CSTAT 3) F.HST_CSTAT_RUN 1 State.reset) with hst.clients := [(3, { Client.init with descs := [(dsc 32 8 0 0 [2, 1])] })] },
       3, (dsc 32 8 0 0 [2, 1]), by decide +kernel⟩,
   ⟨{ (rf Reg.SCN_PSTAT F.SCN_PSTAT_SEQ 0 <| rf (Reg.HST_CSTAT 3) F.HST_CSTAT_RUN 1 State.reset) with hst.clients := [(3, { Client.init with descs := [(dsc 32 8 0 0 [3, 1])] })] },
       3, (dsc 32 8 0 0 [3, 1]), by decide +kernel⟩,
   ⟨{ (rf (dstat 1) F.BAT_DSTAT_STATE 2 <| rf Reg.SCN_PSTAT F.SCN_PSTAT_SEQ 2 <| rf (Reg.HST_CSTAT 3) F.HST_CSTAT_RUN 1 State.reset) with hst.clients := [(3, { Client.init with descs := [(dsc 32 8 0 0 [3, 1])] })], drv := [(((dsc 32 8 0 0 [3, 1]).arg 1), { Driver.init with cmd := none, queue := [] })] },
       3, (dsc 32 8 0 0 [3, 1]), by decide +kernel⟩,
   ⟨{ (rf (Reg.HST_CSTAT 3) F.HST_CSTAT_RUN 1 State.reset) with hst.clients := [(3, { Client.init with descs := [(dsc 32 8 0 0 [4, 0])] })] },
       3, (dsc 32 8 0 0 [4, 0]), by decide +kernel⟩,
   ⟨{ (rf (Reg.HST_CSTAT 3) F.HST_CSTAT_RUN 1 State.reset) with hst.clients := [(3, { Client.init with descs := [(dsc 32 8 0 0 [4, 1])] })] },
       3, (dsc 32 8 0 0 [4, 1]), by decide +kernel⟩,
   ⟨State.reset, by decide +kernel⟩,
   ⟨{ State.reset with cal.queue := (⟨3, 0, 1, 0, [], 0, []⟩ : CalRun) :: ([]) }, (⟨3, 0, 1, 0, [], 0, []⟩ : CalRun), [],
       by decide +kernel⟩,
   ⟨State.reset, by decide +kernel⟩,
   ⟨{ State.reset with cal.run := some (⟨3, 0, 1, 0, [], 0, []⟩ : CalRun) }, (⟨3, 0, 1, 0, [], 0, []⟩ : CalRun), (⟨50, 0, 0, 0, 0, 0,
       true, 0⟩ : CalMeas), by decide +kernel⟩,
   ⟨{ (rf Reg.CAL_FRREF ⟨31, 0⟩ 10000000 <| rf Reg.CAL_FADC_OFF ⟨31, 0⟩ 0 <| rf Reg.CAL_FADC_GAIN ⟨31, 0⟩ 0 State.reset) with cal.run := some (⟨3, 0, 1, 0, [], 0, []⟩ : CalRun) },
       (⟨3, 0, 1, 0, [], 0, []⟩ : CalRun), (⟨2500, 0, 0, 0, 0, 0, true, 0⟩ : CalMeas), 0, 0, 1000000, by decide +kernel⟩,
   ⟨{ (rf (Reg.THM_SENS 13) F.THM_SENS_STATE 0 <| rf Reg.CAL_FRREF ⟨31, 0⟩ 10000000 <| rf Reg.CAL_FADC_OFF ⟨31, 0⟩ 0 <| rf Reg.CAL_FADC_GAIN ⟨31, 0⟩ 0 State.reset) with cal.run := some (⟨3, 0, 1, 0, [], 0, []⟩ : CalRun) },
       (⟨3, 0, 1, 0, [], 0, []⟩ : CalRun), (⟨2500, 0, 1000000, 0, 0, 0, true, 0⟩ : CalMeas), 0, 1000000, 1000000, by decide +kernel⟩,
   ⟨{ State.reset with cal.run := some (⟨3, 0, 2, 1, [], 0, []⟩ : CalRun) }, (⟨3, 0, 2, 1, [], 0, []⟩ : CalRun), (⟨2500, 0, 0, 0, 0, 1001,
       true, 0⟩ : CalMeas), by decide +kernel⟩,
   ⟨{ (rf (Reg.THM_SENS 21) ⟨31, 0⟩ 0 <| rf Reg.THM_XTAL ⟨31, 0⟩ 0 State.reset) with cal.run := some (⟨3, 0, 2, 1, [], 0, []⟩ : CalRun) },
       (⟨3, 0, 2, 1, [], 0, []⟩ : CalRun), (⟨2500, 0, 0, 0, 1200000000, 0, true, 0⟩ : CalMeas), 256000000000 * 1200000000, by decide +kernel⟩,
   ⟨{ State.reset with cal.run := some (⟨3, 0, 3, 1, [], 0, [(1, 0)]⟩ : CalRun) }, (⟨3, 0, 3, 1, [], 0, [(1, 0)]⟩ : CalRun), (⟨2500, 0, 0,
       0, 0, 0, true, 0⟩ : CalMeas), 1, 0, by decide +kernel⟩,
   ⟨{ State.reset with cal.run := some (⟨3, 0, 3, 1, [], 0, []⟩ : CalRun) }, (⟨3, 0, 3, 1, [], 0, []⟩ : CalRun), (⟨2500, 0, 0, 0, 0, 0,
       true, 0⟩ : CalMeas), 1, by decide +kernel⟩,
   ⟨{ State.reset with cal.run := some (⟨3, 0, 4, 1, [], 0, []⟩ : CalRun) }, (⟨3, 0, 4, 1, [], 0, []⟩ : CalRun), (⟨2500, 0, 0, 0, 0, 0,
       false, 0⟩ : CalMeas), by decide +kernel⟩,
   ⟨{ State.reset with cal.run := some (⟨3, 0, 4, 0, [], 0, []⟩ : CalRun) }, (⟨3, 0, 4, 0, [], 0, []⟩ : CalRun), (⟨2500, 0, 0, 0, 0, 0,
       false, 0⟩ : CalMeas), by decide +kernel⟩,
   ⟨{ (rf Reg.TMK_STAT F.TMK_STAT_LINK 1 State.reset) with cal.run := some (⟨3, 0, 4, 0, [], 0, []⟩ : CalRun) }, (⟨3, 0, 4, 0, [], 0, []⟩
       : CalRun), (⟨2500, 0, 0, 0, 0, 0, true, 0⟩ : CalMeas), by decide +kernel⟩,
   ⟨{ (rf Reg.TMK_STAT F.TMK_STAT_LINK 1 State.reset) with cal.run := some (⟨3, 0, 4, 1, [], 0, []⟩ : CalRun) }, (⟨3, 0, 4, 1, [], 0, []⟩
       : CalRun), (⟨2500, 0, 0, 0, 0, 0, true, 0⟩ : CalMeas), by decide +kernel⟩⟩

/-- The hypotheses of each clause of `StepRunsFrontCommand` can be met. -/
theorem witness_StepRunsFrontCommand :
    (∃ (c : Instr) (rest : List Instr) (s : Machine.State), s.pending = c :: rest)
    ∧ (∃ (s : Machine.State), s.pending = []) :=
  ⟨⟨.batCmdTimeout 3, [], { State.reset with pending := [.batCmdTimeout 3] }, by decide +kernel⟩,
   ⟨State.reset, by decide +kernel⟩⟩

/-- The hypotheses of `SealBoundary` can be met. -/
theorem witness_SealBoundary :
    ∃ (c : Instr) (s : Machine.State) (t : Machine.State), (touchesMeter c = false) ∧ (exec c s = Host.Outcome.next t) :=
  ⟨.eventRecordWrite, State.reset, _, rfl, rfl⟩

/-- The hypotheses of each clause of `StrapsAndStopOfStartup` can be met. -/
theorem witness_StrapsAndStopOfStartup :
    (∃ (s : Machine.State) (w : BitVec 8), (s.rst.applying = some ResetClass.supply ∨ s.rst.applying = some ResetClass.powerOn) ∧
        (strapsRejected (word w.toNat) = false))
    ∧ (∃ (s : Machine.State) (w : BitVec 8), (s.rst.applying = some ResetClass.supply ∨ s.rst.applying = some ResetClass.powerOn) ∧
        (strapsRejected (word w.toNat) = true))
    ∧ (∃ (s : Machine.State), (s.rst.starting = true) ∧ (s.rst.stepsDone.contains 1 = true) ∧ (s.rst.stepsDone.contains 2 = false)) :=
  ⟨⟨{ State.reset with rst.applying := some ResetClass.supply }, 0, by decide +kernel⟩,
   ⟨{ State.reset with rst.applying := some ResetClass.supply }, 255, by decide +kernel⟩,
   ⟨{ State.reset with rst.starting := true, rst.stepsDone := [1] }, by decide +kernel⟩⟩

/-- The hypotheses of `MeterStaysSound` can be met. -/
theorem witness_MeterStaysSound :
    ∃ (s : Machine.State) (t : Machine.State), (s.tmk.ok) ∧ (step s = Host.Outcome.next t) :=
  ⟨State.reset, _, by unfold MeterState.ok; decide +kernel, rfl⟩

/-- The hypotheses of each clause of `LinkLossAndLoopbacks` can be met. -/
theorem witness_LinkLossAndLoopbacks :
    (∃ (s : Machine.State) (q : Fin 8), (s.lkState ↑q = 5) ∧ (↑q ≠ s.pairLink))
    ∧ (∃ (s : Machine.State) (q : Fin 8), s.lkState ↑q ≠ 5)
    ∧ (∃ (s : Machine.State) (q : Fin 8), (s.lkState ↑q = 6) ∧ (↑q ≠ s.pairLink))
    ∧ (∃ (s : Machine.State) (q : Fin 8), s.lkState ↑q ≠ 6)
    ∧ (∃ (s : Machine.State) (q : Fin 8), (s.lkState ↑q = 9) ∧ (↑q ≠ s.pairLink))
    ∧ (∃ (s : Machine.State) (q : Fin 8), s.lkState ↑q ≠ 9)
    ∧ (∃ (s : Machine.State) (p : Fin 4), (s.isOn (7 + ↑p) = false) ∧ (s.lkEnabled ↑p = true) ∧ (s.heldOff (7 + ↑p) = false) ∧ (s.getF
        Reg.PWR_STATE F.PWR_STATE_CUR = 1) ∧ ((domainDeps (7 + ↑p)).all s.isOn = true))
    ∧ (∃ (s : Machine.State) (p : Fin 4), s.isOn (7 + ↑p) = true ∨ s.lkEnabled ↑p = false ∨ s.heldOff (7 + ↑p) = true ∨ s.getF
        Reg.PWR_STATE F.PWR_STATE_CUR ≠ 1 ∨ (domainDeps (7 + ↑p)).all s.isOn = false)
    ∧ (∃ (s : Machine.State) (q : Fin 8), (s.hostReaches = true) ∧ (s.stallDomain (lkBase ↑q + 8) = none) ∧ (s.lkState ↑q = 0))
    ∧ (∃ (s : Machine.State) (q : Fin 8), (s.hostReaches = true) ∧ (s.stallDomain (lkBase ↑q + 8) = none) ∧ (s.lkState ↑q ≠ 0))
    ∧ (∃ (s : Machine.State) (q : Fin 8), (s.hostReaches = true) ∧ (s.stallDomain (lkBase ↑q + 8) = none))
    ∧ (∃ (s : Machine.State) (q : Fin 8) (v : Word), (s.hostReaches = true) ∧ (s.stallDomain (lkBase ↑q + 12) = none) ∧ (fieldOf
        F.RAF_PRBS_PAT v = 3))
    ∧ (∃ (s : Machine.State) (q : Fin 8) (v : Word), (s.hostReaches = true) ∧ (s.stallDomain (lkBase ↑q + 12) = none) ∧ (fieldOf
        F.RAF_PRBS_PAT v ≠ 3) ∧ (fieldOf F.RAF_PRBS_CHK_EN v = 1) ∧ (s.flag (lkBase ↑q + 12) F.RAF_PRBS_CHK_EN = false)) :=
  ⟨⟨(rf (lkPst 1) F.RAF_PST_STATE 5 State.reset), 1, by decide +kernel⟩,
   ⟨(rf (lkPst 1) F.RAF_PST_STATE 0 State.reset), 1, by decide +kernel⟩,
   ⟨(rf (lkPst 1) F.RAF_PST_STATE 6 State.reset), 1, by decide +kernel⟩,
   ⟨(rf (lkPst 1) F.RAF_PST_STATE 0 State.reset), 1, by decide +kernel⟩,
   ⟨(rf (lkPst 1) F.RAF_PST_STATE 9 State.reset), 1, by decide +kernel⟩,
   ⟨(rf (lkPst 1) F.RAF_PST_STATE 0 State.reset), 1, by decide +kernel⟩,
   ⟨{ (on ([] ++ domainDeps (7 + 1)) <| rf Reg.PWR_STATE F.PWR_STATE_CUR 1 <| rf (lkBase 1) F.RAF_PCFG_EN 1 State.reset) with rst.applying := none },
       1, by decide +kernel⟩,
   ⟨(on [(7 + 1)] <| State.reset), 1, by decide +kernel⟩,
   ⟨(on [2, (domainOf (lkBase 1 + 8))] <| rf (lkPst 1) F.RAF_PST_STATE 0 State.reset), 1, by decide +kernel⟩,
   ⟨(on [2, (domainOf (lkBase 1 + 8))] <| rf (lkPst 1) F.RAF_PST_STATE 1 State.reset), 1, by decide +kernel⟩,
   ⟨(on [2, (domainOf (lkBase 1 + 8))] <| State.reset), 1, by decide +kernel⟩,
   ⟨(on [2, (domainOf (lkBase 1 + 12))] <| State.reset), 1, withField F.RAF_PRBS_PAT 3 0, by decide +kernel⟩,
   ⟨(on [2, (domainOf (lkBase 1 + 12))] <| rf (lkBase 1 + 12) F.RAF_PRBS_CHK_EN 0 State.reset), 1, withField F.RAF_PRBS_CHK_EN 1 0,
       by decide +kernel⟩⟩

/-- The hypotheses of `ColourTableInterpolated` can be met. -/
theorem witness_ColourTableInterpolated :
    ∃ (s : Machine.State) (v : ℕ) (n : ℕ) (w : ℕ) (k : ℕ) (mr : ℕ) (mg : ℕ) (mb : ℕ) (ir : ℕ) (ig : ℕ) (ib : ℕ) (fr : ℕ) (fg : ℕ) (fb : ℕ)
        (vc : ViewColour) (e : ℕ → ℕ → ℕ → ℕ → ℤ) (sum : ℕ → ℤ), (vc.cube = n) ∧ (n = 17 ∧ w = 16384 ∨ n = 33 ∧ w = 8192) ∧ (s.bnk.bad = []) ∧
        (s.bnk.soft = []) ∧ (curve vc.linear mr ≤ 262144) ∧ (curve vc.linear mg ≤ 262144) ∧ (curve vc.linear mb ≤ 262144) ∧ (ir = min (curve
        vc.linear mr / w) (n - 2)) ∧ (fr = curve vc.linear mr - w * ir) ∧ (ig = min (curve vc.linear mg / w) (n - 2)) ∧ (fg = curve vc.linear
        mg - w * ig) ∧ (ib = min (curve vc.linear mb / w) (n - 2)) ∧ (fb = curve vc.linear mb - w * ib) ∧ (∀ (c dr dg db : ℕ), e c dr dg db =
        ((s.cubeEntry v n (ir + dr) (ig + dg) (ib + db) / 2 ^ (18 * c) % 2 ^ 18 : ℕ) : ℤ)) ∧ ((tetraCases fr fg fb)[k]? = some true) ∧ (∀ (c :
        ℕ), (tetraSums (↑w) (↑fr) (↑fg) (↑fb) (e c))[k]? = some (sum c)) :=
  ⟨State.reset, 0, 17, 16384, 0, 20000, 17000, 100, 1, 1, 0, 3616, 616, 100, ⟨0, 0, 17, true, [], []⟩, cubeE, cubeSum, rfl, .inl ⟨rfl,
      rfl⟩, rfl, rfl, by decide, by decide, by decide, rfl, rfl, rfl, rfl, rfl, rfl, fun _ _ _ _ => rfl, rfl, fun _ => rfl⟩

/-- The hypotheses of each clause of `TableLoadsAndReads` can be met. -/
theorem witness_TableLoadsAndReads :
    (∃ (s : Machine.State) (c : Fin 256) (d : Desc), (s.startable (↑c) (isOp 6) = some d) ∧ (s.txnOf ↑c = none))
    ∧ (∃ (s : Machine.State) (c : Fin 256) (d : Desc) (x : Txn), (s.startable (↑c) (isOp 6) = some d) ∧ (s.txnOf ↑c = some x) ∧ (bit
        x.mask (tableGroup d.target) = false))
    ∧ (∃ (s : Machine.State) (c : Fin 256) (d : Desc) (x : Txn), (s.startable (↑c) (isOp 6) = some d) ∧ (s.txnOf ↑c = some x) ∧ (bit
        x.mask (tableGroup d.target) = true) ∧ (d.toff + d.length ≤ s.copySize d.target true) ∧ (layerTables.contains d.target = false) ∧
        ((s.table d.target).resync = false) ∧ ((tableDomains d.target).all s.isOn = true) ∧ (s.step2Stops = false) ∧ (s.hst.linkUp = true) ∧
        (d.moved = 0))
    ∧ (∃ (s : Machine.State) (c : Fin 256) (d : Desc), (s.startable (↑c) (isOp 7) = some d) ∧ (s.copySize d.target (d.arg 0 == 1) < d.toff
        + d.length))
    ∧ (∃ (s : Machine.State) (c : Fin 256) (d : Desc), (s.startable (↑c) (isOp 7) = some d) ∧ (d.toff + d.length ≤ s.copySize d.target
        (d.arg 0 == 1)) ∧ (d.length ≤ d.limit) ∧ (d.opcode = 7) ∧ (d.arg 0 = 0) ∧ ((tableDomains d.target).all s.isOn = true) ∧ (s.step2Stops
        = false))
    ∧ (∃ (s : Machine.State) (c : Fin 256) (d : Desc) (n : ℕ), (s.startable (↑c) (isOp 7) = some d) ∧ (d.toff + d.length ≤ s.copySize
        d.target (d.arg 0 == 1)) ∧ (d.length ≤ d.limit) ∧ (d.opcode = 7) ∧ (d.arg 0 = 1) ∧ (d.target = n) ∧ ((s.table n).resync = true) ∧
        ((tableDomains n).all s.isOn = true))
    ∧ (∃ (s : Machine.State) (n : ℕ), ((s.table n).resync = true) ∧ (s.step2Stops = false) ∧ (∀ e ∈ s.tabs, e.2.waiters = []) ∧ ((s.table
        n).waiters = []))
    ∧ (∃ (s : Machine.State) (n : ℕ), (s.table n).resync = false ∨ s.step2Stops = true) :=
  ⟨⟨{ (rf (Reg.HST_CSTAT 3) F.HST_CSTAT_RUN 1 State.reset) with hst.clients := [(3, { Client.init with descs := [(dsc 6 64 tLAW 0 [0])] })] },
      3, (dsc 6 64 tLAW 0 [0]), by decide +kernel⟩,
   ⟨{ (rf (Reg.HST_CSTAT 3) F.HST_CSTAT_RUN 1 State.reset) with stg.txns := [(⟨0, 1, 3, 0, false, false, [], [], [], false, false, 0, false⟩ : Txn)], hst.clients := [(3, { Client.init with descs := [(dsc 6 64 tLAW 0 [0])] })] },
       3, (dsc 6 64 tLAW 0 [0]), (⟨0, 1, 3, 0, false, false, [], [], [], false, false, 0, false⟩ : Txn), by decide +kernel⟩,
   ⟨{ (on [18, 19] <| rf (Reg.HST_CSTAT 3) F.HST_CSTAT_RUN 1 State.reset) with stg.txns := [(⟨0, 1, 3, 2 ^ 36 - 1, false, false, [], [], [], false, false, 0, false⟩ : Txn)], hst.linkUp := true, hst.clients := [(3, { Client.init with descs := [(dsc 6 64 tLAW 0 [0])] })], tabs := [((dsc 6 64 tLAW 0 [0]).target, { Table.init with resync := false })] },
       3, (dsc 6 64 tLAW 0 [0]), (⟨0, 1, 3, 2 ^ 36 - 1, false, false, [], [], [], false, false, 0, false⟩ : Txn), by decide +kernel⟩,
   ⟨{ (rf (Reg.HST_CSTAT 3) F.HST_CSTAT_RUN 1 State.reset) with hst.clients := [(3, { Client.init with descs := [(dsc 7 100000 tLAW 0 [0])] })] },
       3, (dsc 7 100000 tLAW 0 [0]), by decide +kernel⟩,
   ⟨{ (on [18, 19] <| rf (Reg.HST_CSTAT 3) F.HST_CSTAT_RUN 1 State.reset) with hst.clients := [(3, { Client.init with descs := [(dsc 7 64 tLAW 64 [0])] })] },
       3, (dsc 7 64 tLAW 64 [0]), by decide +kernel⟩,
   ⟨{ (on [18, 19] <| rf (Reg.HST_CSTAT 3) F.HST_CSTAT_RUN 1 State.reset) with hst.clients := [(3, { Client.init with descs := [(dsc 7 64 tLAW 64 [1])] })], tabs := [(tLAW, { Table.init with resync := true })] },
       3, (dsc 7 64 tLAW 64 [1]), tLAW, by decide +kernel⟩,
   ⟨{ State.reset with tabs := [(0, { Table.init with resync := true, waiters := [] })] }, 0, by decide +kernel⟩,
   ⟨{ State.reset with tabs := [(0, { Table.init with resync := false })] }, 0, by decide +kernel⟩⟩

/-- The hypotheses of each clause of `RegulatorsAndPair` can be met. -/
theorem witness_RegulatorsAndPair :
    (∃ (s : Machine.State) (r : RegulatorStatus), (regFaulty s r = false) ∧ (s.readsRegs = true))
    ∧ (∃ (s : Machine.State) (r : RegulatorStatus), (regFaulty s r = true) ∧ (s.readsRegs = true) ∧ (s.pwr.regFault = false))
    ∧ (∃ (s : Machine.State) (r : RegulatorStatus), (regFaulty s r = true) ∧ (s.readsRegs = true) ∧ (s.pwr.regFault = true) ∧
        (s.pwr.stepWait = false) ∧ (9 ≤ s.pwr.sinceConfirm) ∧ (s.getF Reg.PWR_OP F.PWR_OP_CUR ≠ 0))
    ∧ (∃ (s : Machine.State) (r : RegulatorStatus), (regFaulty s r = true) ∧ (s.readsRegs = true) ∧ (s.pwr.regFault = true) ∧
        (s.pwr.stepWait = true ∨ s.pwr.sinceConfirm < 9 ∨ s.getF Reg.PWR_OP F.PWR_OP_CUR = 0) ∧ (s.pwr.op0FaultMs ≠ 99))
    ∧ (∃ (s : Machine.State) (r : RegulatorStatus), (regFaulty s r = true) ∧ (s.readsRegs = true) ∧ (s.pwr.regFault = true) ∧ (s.getF
        Reg.PWR_OP F.PWR_OP_CUR = 0) ∧ (s.pwr.op0FaultMs = 99))
    ∧ (∃ (s : Machine.State), (s.readsRegs = false) ∧ (s.coreOff = false))
    ∧ (∃ (s : Machine.State), s.coreOff = true)
    ∧ (∃ (s : Machine.State), s.pwr.pairFormed = false)
    ∧ (∃ (s : Machine.State) (v : ℕ), (s.coreOff = false) ∧ (s.pwr.pairFormed = true) ∧ (s.pwr.pairLeader = false) ∧ (v < 256) ∧
        (s.pwr.pairLost = false) ∧ (s.pwr.writing = none))
    ∧ (∃ (s : Machine.State), (s.pwr.pairFormed = true) ∧ (s.pwr.pairLeader = false))
    ∧ (∃ (s : Machine.State), (s.pwr.pairFormed = true) ∧ (s.pwr.pairLeader = true))
    ∧ (∃ (s : Machine.State) (v : ℕ) (w : ℕ), (s.avsOpen = true) ∧ (s.noAvs = false) ∧ (s.paired = true) ∧ (s.pwr.pairFormed = true) ∧
        (s.pwr.pairLeader = true) ∧ (s.pwr.pairLost = false) ∧ (s.pwr.writing = none) ∧ (s.inS6 = false) ∧ (0 < v) ∧ (w = max (s.vcode
        s.aimPoint) v) ∧ (s.getF Reg.PWR_OP F.PWR_OP_VCONF < w))
    ∧ (∃ (s : Machine.State), (s.pwr.pairFormed = true) ∧ (s.paired = true) ∧ (s.pwr.pairLeader = false)) :=
  ⟨⟨{ State.reset with rst.applying := none, rst.stepsDone := [5] }, (⟨false, false, false, 0⟩ : RegulatorStatus), by decide +kernel⟩,
   ⟨{ State.reset with rst.applying := none, rst.stepsDone := [5] }, (⟨true, false, false, 0⟩ : RegulatorStatus), by decide +kernel⟩,
   ⟨{ (rf Reg.PWR_OP F.PWR_OP_CUR 1 State.reset) with pwr.regFault := true, rst.applying := none, rst.stepsDone := [5], pwr.sinceConfirm := 9 },
       (⟨true, false, false, 0⟩ : RegulatorStatus), by decide +kernel⟩,
   ⟨{ State.reset with pwr.regFault := true, pwr.stepWait := true, rst.applying := none, rst.stepsDone := [5] }, (⟨true, false, false, 0⟩
       : RegulatorStatus), by decide +kernel⟩,
   ⟨{ (rf Reg.PWR_OP F.PWR_OP_CUR 0 State.reset) with pwr.regFault := true, pwr.op0FaultMs := 99, rst.applying := none, rst.stepsDone := [5] },
       (⟨true, false, false, 0⟩ : RegulatorStatus), by decide +kernel⟩,
   ⟨{ State.reset with rst.applying := none }, by decide +kernel⟩,
   ⟨State.reset, by decide +kernel⟩,
   ⟨State.reset, by decide +kernel⟩,
   ⟨{ State.reset with rst.applying := none, pwr.pairFormed := true }, 0, by decide +kernel⟩,
   ⟨{ State.reset with pwr.pairFormed := true }, by decide +kernel⟩,
   ⟨{ State.reset with pwr.pairFormed := true, pwr.pairLeader := true }, by decide +kernel⟩,
   ⟨{ (rf Reg.GBL_STRAP F.GBL_STRAP_PAIR_REG 1 <| rf Reg.GBL_STRAP F.GBL_STRAP_AVS_MODE 0 State.reset) with rst.applying := none, pwr.pairFormed := true, pwr.pairLeader := true, rst.stepsDone := [5] },
       90, 90, by decide +kernel⟩,
   ⟨{ (rf Reg.GBL_STRAP F.GBL_STRAP_PAIR_REG 1 State.reset) with pwr.pairFormed := true }, by decide +kernel⟩⟩

/-- The hypotheses of each clause of `SlotsDecided` can be met. -/
theorem witness_SlotsDecided :
    (∃ (s : Machine.State), (s.scanRuns = false) ∧ (s.seq ≠ 2))
    ∧ (∃ (s : Machine.State) (k : ℕ), (s.scanRuns = true) ∧ (s.hrt.slots = k) ∧ (k < s.nSlot))
    ∧ (∃ (s : Machine.State) (x : SlotDue), (s.scanRuns = true) ∧ (s.nSlot ≤ s.hrt.slots) ∧ (s.hrt.ahead = false) ∧ (s.slotZero = some x))
    ∧ (∃ (s : Machine.State), (s.scanRuns = true) ∧ (s.nSlot ≤ s.hrt.slots) ∧ (s.hrt.ahead = true))
    ∧ (∃ (s : Machine.State) (v : ℕ) (x : ℕ) (f : ℕ) (d : ℕ) (i : ℕ), (v < 8) ∧ (x < 5) ∧ (s.lineLock v = false) ∧ (s.hearthStep = false)
        ∧ (s.vhold = false) ∧ (s.plateNamed v x f = none) ∧ (s.bufOf (s.tsel v x) f = some i) ∧ ((s.buf i).complete = true) ∧ ((s.buf
        i).doneAt ≤ d) ∧ ((s.run v x).age = 0))
    ∧ (∃ (s : Machine.State) (v : ℕ) (x : ℕ) (f : ℕ) (d : ℕ) (i : ℕ), (v < 8) ∧ (x < 5) ∧ (s.lineLock v = false) ∧ (s.vhold = false) ∧
        (s.plateNamed v x f = none) ∧ (s.doneBy v x f d = false) ∧ ((s.run v x).age = 0) ∧ ((s.src (s.tsel v x)).asleep = false) ∧ ((s.chain v
        x false).head? = some 1) ∧ (s.holdBelow (s.tsel v x) f = some i) ∧ (s.getF (Reg.VIEW_HTIME v) F.VIEW_HTIME_HOLD_MAX = 0))
    ∧ (∃ (s : Machine.State), s.vhold = false)
    ∧ (∃ (s : Machine.State) (n : SlotDue), (s.vhold = true) ∧ (s.scanRuns = true) ∧ (s.nextSlot = some n)) :=
  ⟨⟨(rf Reg.SCN_PSTAT F.SCN_PSTAT_SEQ 0 State.reset), by decide +kernel⟩,
   ⟨{ (rf Reg.GEN_STAT F.GEN_STAT_NSLOT 4 State.reset) with pnl.scanning := true, hrt.slots := 1 }, 1, by decide +kernel⟩,
   ⟨({ (rf (Reg.VIEW_CFG 0) F.VIEW_CFG_EN 1 State.reset) with pnl.scanning := true, hrt.slots := 64 }),
       ((({ (rf (Reg.VIEW_CFG 0) F.VIEW_CFG_EN 1 State.reset) with pnl.scanning := true, hrt.slots := 64 })).slotZero.getD ⟨false, 0, 0, 0, 0,
       State.reset⟩), by decide +kernel⟩,
   ⟨{ State.reset with pnl.scanning := true, hrt.ahead := true }, by decide +kernel⟩,
   ⟨{ (rf Reg.VIEW_HVOL F.VIEW_HVOL_VHOLD 0 <| rf (Reg.VIEW_CFG 1) F.VIEW_CFG_LINE_LOCK 0 State.reset) with fst.bufs := [(0, { FrameBuf.init with frame := some 0, complete := true })] },
       1, 0, 0, 0, 0, by decide +kernel⟩,
   ⟨{ (rf (Reg.VIEW_HMISS 1) ⟨7, 0⟩ 1 <| rf (Reg.VIEW_HTIME 1) F.VIEW_HTIME_HOLD_MAX 0 <| rf Reg.VIEW_HVOL F.VIEW_HVOL_VHOLD 0 <| rf (Reg.VIEW_CFG 1) F.VIEW_CFG_LINE_LOCK 0 State.reset) with fst.bufs := [(0, { FrameBuf.init with frame := some 4, complete := true })] },
       1, 0, 5, 0, 0, by decide +kernel⟩,
   ⟨(rf Reg.VIEW_HVOL F.VIEW_HVOL_VHOLD 0 State.reset), by decide +kernel⟩,
   ⟨({ (rf Reg.VIEW_HVOL F.VIEW_HVOL_VHOLD 1 <| rf Reg.GEN_STAT F.GEN_STAT_NSLOT 4 <| rv (Reg.GEN_SLOT 0) 0 State.reset) with pnl.scanning := true }),
       ((({ (rf Reg.VIEW_HVOL F.VIEW_HVOL_VHOLD 1 <| rf Reg.GEN_STAT F.GEN_STAT_NSLOT 4 <| rv (Reg.GEN_SLOT 0) 0 State.reset) with pnl.scanning := true })).nextSlot.getD
       ⟨false, 0, 0, 0, 0, State.reset⟩), by decide +kernel⟩⟩

/-- The hypotheses of each clause of `Thermal` can be met. -/
theorem witness_Thermal :
    (∃ (s : Machine.State), s.thmRuns = false)
    ∧ (∃ (s : Machine.State) (reads : List SensorRead), (s.thmRuns = true) ∧ (reads.length = 28) ∧ (∀ n < 28, (reads.getD n
        { inRange := true, count := 0 }).inRange = true → s.dieTemp n (reads.getD n { inRange := true, count := 0 }).count.toNat < 2048))
    ∧ (∃ (s : Machine.State) (reads : List StackRead), (s.thmRuns = true) ∧ (reads.length = 4) ∧ (∀ i < 4, satS 16 (16 * toSigned 8
        (reads.getD i { readable := true, degrees := 0 }).degrees.toNat + s.userTrim (28 + i)) < 2048))
    ∧ (∃ (s : Machine.State) (n : ℕ), (s.hottestOf (s.validOf dieSensors) = some n) ∧ (16 * (↑(s.getF Reg.THM_LIMIT F.THM_LIMIT_WARN) - 9)
        ≤ s.sensorTemp n))
    ∧ (∃ (s : Machine.State) (n : ℕ), (s.hottestOf (s.validOf dieSensors) = some n) ∧ (s.sensorTemp n < 16 * (↑(s.getF Reg.THM_LIMIT
        F.THM_LIMIT_WARN) - 9)))
    ∧ (∃ (s : Machine.State), (s.throttleCond = true) ∧ (s.throttle ≠ 0) ∧ (s.throttle < s.getF Reg.THM_STEP F.THM_STEP_MAX) ∧ (∀ e ∈
        s.tabs, e.2.waiters = []))
    ∧ (∃ (s : Machine.State), (s.throttleCond = true) ∧ (s.throttle = 0 ∨ s.getF Reg.THM_STEP F.THM_STEP_MAX ≤ s.throttle))
    ∧ (∃ (s : Machine.State), (s.throttleCond = false) ∧ (s.releaseCond = true) ∧ (s.throttle ≠ 0) ∧ (∀ e ∈ s.tabs, e.2.waiters = []))
    ∧ (∃ (s : Machine.State), (s.throttleCond = false) ∧ (s.releaseCond = false ∨ s.throttle = 0))
    ∧ (∃ (s : Machine.State), ∀ e ∈ s.tabs, e.2.waiters = [])
    ∧ (∃ (s : Machine.State), (s.thmRuns = true) ∧ ((OdtAged s).odtSource = none))
    ∧ (∃ (s : Machine.State) (v : ℤ), (s.thmRuns = true) ∧ ((OdtAged s).odtSource = some v))
    ∧ (∃ (s : Machine.State), Reaches s Reg.THM_ODT_HOST)
    ∧ (∃ (s : Machine.State) (c : ℤ), (s.thmRuns = true) ∧ (c = rneDiv (toSigned 16 (BitVec.toNat (s.reg Reg.CAL_FADC_TC)) * (s.sensorTemp
        13 - 400)) 16)) :=
  ⟨⟨(on [] <| State.reset), by decide +kernel⟩,
   ⟨(on [33] fusedSensors), List.replicate 28 ⟨true, 5⟩, by decide +kernel⟩,
   ⟨(on [33] <| State.reset), List.replicate 4 ⟨true, 40⟩, by decide +kernel⟩,
   ⟨(rf (Reg.THM_SENS 0) F.THM_SENS_TEMP 2000 State.reset), 0, by decide +kernel⟩,
   ⟨State.reset, 0, by decide +kernel⟩,
   ⟨{ (rf Reg.THM_STEP F.THM_STEP_MAX 4 <| rf Reg.THM_STAT F.THM_STAT_STEP 1 State.reset) with thm.suspectHot := true }, by decide +kernel⟩,
   ⟨{ (rf Reg.THM_STAT F.THM_STAT_STEP 0 State.reset) with thm.suspectHot := true }, by decide +kernel⟩,
   ⟨(rf Reg.THM_STAT F.THM_STAT_STEP 1 State.reset), by decide +kernel⟩,
   ⟨State.reset, by decide +kernel⟩,
   ⟨State.reset, by decide +kernel⟩,
   ⟨(on [33] <| State.reset), by decide +kernel⟩,
   ⟨(on [33] <| rf (Reg.THM_SENS 0) F.THM_SENS_TEMP 400 <| rf Reg.THM_ODT F.THM_ODT_SRC 1 State.reset), 400, by decide +kernel⟩,
   ⟨(on [2, (domainOf Reg.THM_ODT_HOST)] <| State.reset), by unfold Reaches; decide +kernel⟩,
   ⟨(on [33] <| rf Reg.CAL_FADC_TC ⟨31, 0⟩ 0 State.reset), 0, by decide +kernel⟩⟩

/-- The hypotheses of each clause of `RingsAndInterrupts` can be met. -/
theorem witness_RingsAndInterrupts :
    (∃ (s : Machine.State), s.hostReaches = false)
    ∧ (∃ (s : Machine.State) (be : BitVec 4), (s.hostReaches = true) ∧ (be ≠ 0) ∧ (be ≠ 15))
    ∧ (∃ (s : Machine.State) (c : Fin 256), (s.hostReaches = true) ∧ (s.flag (Reg.HST_CCFG ↑c) F.HST_CCFG_EN = false))
    ∧ (∃ (s : Machine.State) (c : Fin 256) (v : Word), (s.hostReaches = true) ∧ (s.flag (Reg.HST_CCFG ↑c) F.HST_CCFG_EN = true) ∧
        (s.sqSize ↑c ≤ BitVec.toNat v % 65536))
    ∧ (∃ (s : Machine.State) (c : Fin 256) (v : Word), (s.hostReaches = true) ∧ (s.flag (Reg.HST_CCFG ↑c) F.HST_CCFG_EN = true) ∧
        (BitVec.toNat v % 65536 < s.sqSize ↑c))
    ∧ (∃ (s : Machine.State) (c : Fin 256) (v : Word) (tail : ℕ) (head : ℕ) (size : ℕ), (s.hostReaches = true) ∧ (s.flag (Reg.HST_CCFG ↑c)
        F.HST_CCFG_EN = true) ∧ (tail = s.getF (Reg.HST_CPOS ↑c) F.HST_CPOS_CQ_TAIL) ∧ (head = (s.client ↑c).cqHead) ∧ (size = s.cqSize ↑c) ∧
        (BitVec.toNat v % 65536 < size) ∧ ((BitVec.toNat v % 65536 + size - head) % size ≤ (tail + size - head) % size))
    ∧ (∃ (s : Machine.State) (c : Fin 256) (v : Word) (tail : ℕ) (head : ℕ) (size : ℕ), (s.hostReaches = true) ∧ (s.flag (Reg.HST_CCFG ↑c)
        F.HST_CCFG_EN = true) ∧ (tail = s.getF (Reg.HST_CPOS ↑c) F.HST_CPOS_CQ_TAIL) ∧ (head = (s.client ↑c).cqHead) ∧ (size = s.cqSize ↑c) ∧
        (BitVec.toNat v % 65536 < size) ∧ ((tail + size - head) % size < (BitVec.toNat v % 65536 + size - head) % size))
    ∧ (∃ (s : Machine.State) (c : Fin 256) (v : Word), (s.hostReaches = true) ∧ (fieldOf F.HST_CCFG_SQ_LOG2 v ≤ 10) ∧ (fieldOf
        F.HST_CCFG_CQ_LOG2 v ≤ 10) ∧ (s.flag (Reg.HST_CCFG ↑c) F.HST_CCFG_EN = false) ∧ ((s.client ↑c).sqbLow = false) ∧ ((s.client ↑c).cqbLow
        = false))
    ∧ (∃ (s : Machine.State) (c : Fin 256) (v : Word), (s.hostReaches = true) ∧ (10 < fieldOf F.HST_CCFG_SQ_LOG2 v ∨ 10 < fieldOf
        F.HST_CCFG_CQ_LOG2 v ∨ s.flag (Reg.HST_CCFG ↑c) F.HST_CCFG_EN = true ∧ fieldOf F.HST_CCFG_SQ_LOG2 v ≠ s.getF (Reg.HST_CCFG ↑c)
        F.HST_CCFG_SQ_LOG2 ∨ s.flag (Reg.HST_CCFG ↑c) F.HST_CCFG_EN = false ∧ (s.client ↑c).sqbLow = true))
    ∧ (∃ (s : Machine.State) (c : Fin 256) (v : Word), (∀ x ∈ s.stg.txns, x.slot < 8) ∧ (s.hostReaches = true) ∧ (s.flag (Reg.HST_CCFG ↑c)
        F.HST_CCFG_EN = true) ∧ (fieldOf F.HST_CCFG_SQ_LOG2 v = s.getF (Reg.HST_CCFG ↑c) F.HST_CCFG_SQ_LOG2) ∧ (s.getF (Reg.HST_CCFG ↑c)
        F.HST_CCFG_SQ_LOG2 ≤ 10) ∧ (fieldOf F.HST_CCFG_CQ_LOG2 v = s.getF (Reg.HST_CCFG ↑c) F.HST_CCFG_CQ_LOG2) ∧ (s.getF (Reg.HST_CCFG ↑c)
        F.HST_CCFG_CQ_LOG2 ≤ 10))
    ∧ (∃ (s : Machine.State) (vec : Fin 264), (s.hostReaches = true) ∧ (s.hst.linkUp = true) ∧ (s.hst.msixEnable = true) ∧ (s.hst.msixMask
        = false) ∧ (bit s.hst.msixPba ↑vec = true))
    ∧ (∃ (s : Machine.State) (vec : Fin 264), (s.hostReaches = true) ∧ (bit s.hst.msixPba ↑vec = false))
    ∧ (∃ (s : Machine.State) (c : Fin 256), ((s.client ↑c).irqPend ≠ 0) ∧ (s.flag (Reg.HST_CCFG ↑c) F.HST_CCFG_IRQ_EN = true) ∧ (s.getF
        (Reg.HST_CIMOD ↑c) F.HST_CIMOD_TIME_US ≠ 0))
    ∧ (∃ (s : Machine.State) (c : Fin 256), (s.client ↑c).irqPend = 0 ∨ s.flag (Reg.HST_CCFG ↑c) F.HST_CCFG_IRQ_EN = false ∨ s.getF
        (Reg.HST_CIMOD ↑c) F.HST_CIMOD_TIME_US = 0) :=
  ⟨⟨State.reset, by decide +kernel⟩,
   ⟨(on [2] <| State.reset), 3, by decide +kernel⟩,
   ⟨(on [2] <| rf (Reg.HST_CCFG 3) F.HST_CCFG_EN 0 State.reset), 3, by decide +kernel⟩,
   ⟨(on [2] <| rf (Reg.HST_CCFG 3) F.HST_CCFG_EN 1 State.reset), 3, 64, by decide +kernel⟩,
   ⟨(on [2] <| rf (Reg.HST_CCFG 3) F.HST_CCFG_EN 1 State.reset), 3, 0, by decide +kernel⟩,
   ⟨(on [2] <| rf (Reg.HST_CCFG 3) F.HST_CCFG_EN 1 State.reset), 3, 0, 0, 0, 64, by decide +kernel⟩,
   ⟨(on [2] <| rf (Reg.HST_CCFG 3) F.HST_CCFG_EN 1 State.reset), 3, 1, 0, 0, 64, by decide +kernel⟩,
   ⟨{ (on [2] <| rf (Reg.HST_CCFG 3) F.HST_CCFG_EN 0 State.reset) with hst.clients := [(3, { Client.init with sqbLow := false, cqbLow := false })] },
       3, 0, by decide +kernel⟩,
   ⟨(on [2] <| State.reset), 3, withField F.HST_CCFG_SQ_LOG2 11 0, by decide +kernel⟩,
   ⟨(on [2] <| rf (Reg.HST_CCFG 3) F.HST_CCFG_CQ_LOG2 0 <| rf (Reg.HST_CCFG 3) F.HST_CCFG_SQ_LOG2 0 <| rf (Reg.HST_CCFG 3) F.HST_CCFG_EN 1
       State.reset), 3, 0, by decide +kernel⟩,
   ⟨{ (on [2] <| State.reset) with hst.linkUp := true, hst.msixEnable := true, hst.msixPba := 32 }, 5, by decide +kernel⟩,
   ⟨(on [2] <| State.reset), 5, by decide +kernel⟩,
   ⟨{ (rf (Reg.HST_CIMOD 3) F.HST_CIMOD_TIME_US 1 <| rf (Reg.HST_CCFG 3) F.HST_CCFG_IRQ_EN 1 State.reset) with hst.clients := [(3, { Client.init with irqPend := 1 })] },
       3, by decide +kernel⟩,
   ⟨{ State.reset with hst.clients := [(3, { Client.init with irqPend := 0 })] }, 3, by decide +kernel⟩⟩

/-- The hypotheses of each clause of `RidgeTimeAndRoles` can be met. -/
theorem witness_RidgeTimeAndRoles :
    (∃ (s : Machine.State), s.isReady 7 = false ∨ s.pwr.dormant = true)
    ∧ (∃ (s : Machine.State), (s.isReady 7 = true) ∧ (s.pwr.dormant = false))
    ∧ (∃ (s : Machine.State) (q : Fin 4), s.getF (Reg.RDG_PST ↑q) F.RDG_PST_STATE ≠ 5)
    ∧ (∃ (s : Machine.State) (q : Fin 4), s.getF (Reg.RDG_PST ↑q) F.RDG_PST_STATE = 5)
    ∧ (∃ (s : Machine.State) (q : Fin 4) (n : Word), (∀ e ∈ s.rdg.t1, e.1 ≠ ↑q ∨ e.2.1 ≠ BitVec.toNat n) ∨ s.ridgeUp ↑q = false)
    ∧ (∃ (s : Machine.State) (q : Fin 4) (n : Word) (t1 : ℕ), (List.find? (fun e ↦ e.1 == ↑q) s.rdg.t1 = some (↑q, BitVec.toNat n, t1)) ∧
        (s.ridgeUp ↑q = true) ∧ (s.follows = false ∨ s.parent ≠ ↑q))
    ∧ (∃ (s : Machine.State) (q : Fin 4) (t2 : BitVec 64) (t3 : BitVec 64) (n : Word) (t4 : ℕ) (t1 : ℕ) (e : ℤ), (List.find? (fun e ↦ e.1
        == ↑q) s.rdg.t1 = some (↑q, BitVec.toNat n, t1)) ∧ (s.ridgeUp ↑q = true) ∧ (s.follows = true) ∧ (s.parent = ↑q) ∧ (e = rneDiv
        (↑t2.toNat - ↑t1 - (↑t4 - ↑t3.toNat)) 2) ∧ (s.scanRuns = false) ∧ (4 + 2 * s.getF Reg.RDG_TSTAT F.RDG_TSTAT_HOPS < e.natAbs))
    ∧ (∃ (s : Machine.State) (q : Fin 4) (t2 : BitVec 64) (t3 : BitVec 64) (n : Word) (t4 : ℕ) (t1 : ℕ) (e : ℤ), (List.find? (fun e ↦ e.1
        == ↑q) s.rdg.t1 = some (↑q, BitVec.toNat n, t1)) ∧ (s.ridgeUp ↑q = true) ∧ (s.follows = true) ∧ (s.parent = ↑q) ∧ (e = rneDiv
        (↑t2.toNat - ↑t1 - (↑t4 - ↑t3.toNat)) 2) ∧ (s.scanRuns = true) ∧ (e.natAbs ≤ 4 + 2 * s.getF Reg.RDG_TSTAT F.RDG_TSTAT_HOPS))
    ∧ (∃ (s : Machine.State) (q : Fin 4) (t2 : BitVec 64) (t3 : BitVec 64) (n : Word) (t4 : ℕ) (t1 : ℕ) (e : ℤ), (List.find? (fun e ↦ e.1
        == ↑q) s.rdg.t1 = some (↑q, BitVec.toNat n, t1)) ∧ (s.ridgeUp ↑q = true) ∧ (s.follows = true) ∧ (s.parent = ↑q) ∧ (e = rneDiv
        (↑t2.toNat - ↑t1 - (↑t4 - ↑t3.toNat)) 2) ∧ (s.scanRuns = true) ∧ (120000 < e.natAbs))
    ∧ (∃ (s : Machine.State), s.hasRole = false)
    ∧ (∃ (s : Machine.State), s.hasRole = true)
    ∧ (∃ (s : Machine.State) (h : RidgeHdr) (b : RoleAnn), (Fresh s h) ∧ (b.hops ≠ 0) ∧ (s.hasRole = false ∨ s.role ≠ hdrSrc h) ∧
        (s.rdg.vols = []) ∧ ((s.roleEntry (hdrSrc h)).known = false ∨ newer (BitVec.toNat b.epoch) (s.roleEntry (hdrSrc h)).epoch = true))
    ∧ (∃ (s : Machine.State) (h : RidgeHdr) (b : RoleAnn), (Fresh s h) ∧ (b.hops ≠ 0) ∧ (s.hasRole = false ∨ s.role ≠ hdrSrc h) ∧
        (s.rdg.vols = []) ∧ ((s.roleEntry (hdrSrc h)).known = true) ∧ (newer (BitVec.toNat b.epoch) (s.roleEntry (hdrSrc h)).epoch = false) ∧
        (BitVec.toNat b.epoch ≠ (s.roleEntry (hdrSrc h)).epoch))
    ∧ (∃ (s : Machine.State) (h : RidgeHdr) (b : RoleAnn) (cols : ℕ) (mask : ℕ) (c : ℕ) (r : ℕ), (Fresh s h) ∧ (b.hops = 0) ∧ (s.rdg.vols
        = []) ∧ (s.rdg.derive_ = some (BitVec.toNat b.epoch, cols, mask)) ∧ (implied (↑h.link) (BitVec.toNat b.col) (BitVec.toNat b.row) =
        (↑c, ↑r)) ∧ (c < cols) ∧ (cols ≤ 64) ∧ (r * cols + c < 64) ∧ (mask.testBit (r * cols + c) = true) ∧ (hdrSrc h ≠ r * cols + c))
    ∧ (∃ (s : Machine.State) (h : RidgeHdr) (b : RoleAnn) (cols : ℕ) (mask : ℕ) (c : ℕ) (r : ℕ), (Fresh s h) ∧ (b.hops = 0) ∧ (s.rdg.vols
        = []) ∧ (s.rdg.derive_ = some (BitVec.toNat b.epoch, cols, mask)) ∧ (implied (↑h.link) (BitVec.toNat b.col) (BitVec.toNat b.row) =
        (↑c, ↑r)) ∧ (mask.testBit (r * cols + c) = false))
    ∧ (∃ (s : Machine.State) (h : RidgeHdr) (b : RoleAnn), (Fresh s h) ∧ (b.hops ≠ 0) ∧ (s.rdg.vols = []) ∧ (s.hasRole = true) ∧ (s.role =
        hdrSrc h) ∧ (b.dsn.toNat ≠ s.dsn) ∧ (newer (BitVec.toNat b.epoch) s.epoch = true))
    ∧ (∃ (s : Machine.State) (h : RidgeHdr) (b : RoleSet), (Fresh s h) ∧ (∀ e ∈ s.topEpoch, newer (BitVec.toNat b.epoch) e = true))
    ∧ (∃ (s : Machine.State) (h : RidgeHdr) (b : RoleSet) (e : ℕ), (Fresh s h) ∧ (s.topEpoch = some e) ∧ (newer (BitVec.toNat b.epoch) e =
        false) ∧ (BitVec.toNat b.epoch ≠ e))
    ∧ (∃ (s : Machine.State) (h : RidgeHdr) (b : RoleMoved), (ForMe s h) ∧ (b.code ≠ 64 ∨ s.hst.relays = []))
    ∧ (∃ (s : Machine.State) (h : RidgeHdr) (b : RoleMoved) (p : RelayPend), (ForMe s h) ∧ (b.code = 64) ∧ (List.find? (fun r ↦ s.getF
        (Reg.HST_RLY_SEL r.window) F.HST_RLY_SEL_ROLE == BitVec.toNat b.role) s.hst.relays = some p) ∧ (p.window < 4) ∧ (∀ x ∈ s.hst.relays,
        x.window < 4))
    ∧ (∃ (s : Machine.State) (h : RidgeHdr), (s.ridgeUp ↑h.link = true) ∧ (s.hasRole = false ∨ s.role ≠ hdrDst h) ∧ ((s.roleEntry (hdrDst
        h)).known = false ∨ (s.roleEntry (hdrDst h)).reachable = false))
    ∧ (∃ (s : Machine.State) (r : Fin 64), (s.roleEntry ↑r).known = false ∨ (s.roleEntry ↑r).reachable = false)
    ∧ (∃ (s : Machine.State) (r : Fin 64), ((s.roleEntry ↑r).known = true) ∧ ((s.roleEntry ↑r).reachable = true) ∧ (s.hasRole = false ∨
        s.role ≠ ↑r))
    ∧ (∃ (s : Machine.State) (r : ℕ) (c : ℕ) (b : ℕ), (s.rdg.elected = some r) ∧ (s.bestCand = some (c, b)) ∧ (b = r ∨ sourceClass s r ≤ c))
    ∧ (∃ (s : Machine.State) (r : ℕ) (c : ℕ) (b : ℕ), (s.rdg.elected = some r) ∧ (s.bestCand = some (c, b)) ∧ (b ≠ r) ∧ (c < sourceClass s
        r) ∧ (b < 64))
    ∧ (∃ (s : Machine.State), s.rdg.elected = none ∨ s.isSource = true ∧ s.isCand = true)
    ∧ (∃ (s : Machine.State) (r : ℕ), (s.rdg.elected = some r) ∧ (s.isSource = false ∨ s.isCand = false) ∧ (s.sourceThere = true))
    ∧ (∃ (s : Machine.State) (r : ℕ) (c : ℕ) (b : ℕ), (s.rdg.elected = some r) ∧ (s.sourceThere = false) ∧ (s.bestCand = some (c, b)) ∧ (b
        ≠ r) ∧ (b < 64))
    ∧ (∃ (s : Machine.State), s.follows = false ∨ s.parent = 7)
    ∧ (∃ (s : Machine.State) (l : ℕ) (n : ℕ), (s.follows = true) ∧ (s.parent ≠ 7) ∧ (s.rdg.offers = [(l, n)]) ∧ (l < 4) ∧ (l ≠ s.parent) ∧
        (s.ridgeUp l = true))
    ∧ (∃ (s : Machine.State), (s.follows = true) ∧ (s.parent ≠ 7) ∧ ((List.all s.rdg.offers fun e ↦ e.1 == s.parent) = true)) :=
  ⟨⟨(ready [] <| State.reset), by decide +kernel⟩,
   ⟨(ready [7] <| State.reset), by decide +kernel⟩,
   ⟨(rf (Reg.RDG_PST 1) F.RDG_PST_STATE 6 State.reset), 1, by decide +kernel⟩,
   ⟨(rf (Reg.RDG_PST 1) F.RDG_PST_STATE 5 State.reset), 1, by decide +kernel⟩,
   ⟨State.reset, 1, 0, by decide +kernel⟩,
   ⟨{ (rf (Reg.RDG_PST 1) F.RDG_PST_STATE 5 State.reset) with rdg.t1 := [(1, 0, 0)] }, 1, 0, 0, by decide +kernel⟩,
   ⟨{ (rf Reg.RDG_TSTAT F.RDG_TSTAT_PARENT 1 <| rf Reg.GEN_STAT F.GEN_STAT_STATE 7 <| rf (Reg.RDG_PST 1) F.RDG_PST_STATE 5 State.reset) with rdg.t1 := [(1, 0, 0)] },
       1, 100000, 0, 0, 0, 0, 50000, by decide +kernel⟩,
   ⟨{ (rf Reg.RDG_TSTAT F.RDG_TSTAT_PARENT 1 <| rf Reg.GEN_STAT F.GEN_STAT_STATE 7 <| rf (Reg.RDG_PST 1) F.RDG_PST_STATE 5 State.reset) with rdg.t1 := [(1, 0, 0)], pnl.scanning := true },
       1, 0, 0, 0, 0, 0, 0, by decide +kernel⟩,
   ⟨{ (rf Reg.RDG_TSTAT F.RDG_TSTAT_PARENT 1 <| rf Reg.GEN_STAT F.GEN_STAT_STATE 7 <| rf (Reg.RDG_PST 1) F.RDG_PST_STATE 5 State.reset) with rdg.t1 := [(1, 0, 0)], pnl.scanning := true },
       1, 300000, 0, 0, 0, 0, 150000, by decide +kernel⟩,
   ⟨(rf Reg.RDG_ROLE F.RDG_ROLE_VALID 0 State.reset), by decide +kernel⟩,
   ⟨(rf Reg.RDG_ROLE F.RDG_ROLE_VALID 1 State.reset), by decide +kernel⟩,
   ⟨{ (rf Reg.RDG_ROLE F.RDG_ROLE_VALID 0 <| rf (Reg.RDG_PST 1) F.RDG_PST_STATE 5 State.reset) with rdg.roles := [((hdrSrc (⟨1, 0x100⟩ : RidgeHdr)), { RoleEntry.init with known := false })] },
       (⟨1, 0x100⟩ : RidgeHdr), (⟨5, 0, 1, 0, 0, 0, 1, 0, 0⟩ : RoleAnn), by unfold Fresh; decide +kernel⟩,
   ⟨{ (rf Reg.RDG_ROLE F.RDG_ROLE_VALID 0 <| rf (Reg.RDG_PST 1) F.RDG_PST_STATE 5 State.reset) with rdg.roles := [(1, { RoleEntry.init with known := true, epoch := 9 })] },
       (⟨1, 0x100⟩ : RidgeHdr), (⟨5, 0, 1, 0, 0, 0, 1, 0, 0⟩ : RoleAnn), by unfold Fresh; decide +kernel⟩,
   ⟨{ (rf (Reg.RDG_PST 1) F.RDG_PST_STATE 5 State.reset) with rdg.derive_ := some (5, 4, 2) }, (⟨1, 0x200⟩ : RidgeHdr), (⟨5, 0, 2, 0, 0,
       0, 0, 0, 0⟩ : RoleAnn), 4, 2, 1, 0, by unfold Fresh; decide +kernel⟩,
   ⟨{ (rf (Reg.RDG_PST 1) F.RDG_PST_STATE 5 State.reset) with rdg.derive_ := some (5, 4, 0) }, (⟨1, 0x200⟩ : RidgeHdr), (⟨5, 0, 2, 0, 0,
       0, 0, 0, 0⟩ : RoleAnn), 4, 0, 1, 0, by unfold Fresh; decide +kernel⟩,
   ⟨(rf Reg.CAL_FDSN_HI ⟨31, 0⟩ 0 <| rf Reg.CAL_FDSN_LO ⟨31, 0⟩ 7 <| rf Reg.RDG_ROLE F.RDG_ROLE_ROLE 1 <| rf Reg.RDG_ROLE F.RDG_ROLE_VALID
       1 <| rf (Reg.RDG_PST 1) F.RDG_PST_STATE 5 State.reset), (⟨1, 0x100⟩ : RidgeHdr), (⟨5, 0, 1, 0, 0, 0, 1, 0, 0⟩ : RoleAnn),
       by unfold Fresh; decide +kernel⟩,
   ⟨{ (rf (Reg.RDG_PST 1) F.RDG_PST_STATE 5 State.reset) with rdg.roles := [(2, { RoleEntry.init with known := true, epoch := 3 })] },
       (⟨1, 0x100⟩ : RidgeHdr), (⟨5, 4, 0, 0, 15⟩ : RoleSet), by unfold Fresh; decide +kernel⟩,
   ⟨{ (rf (Reg.RDG_PST 1) F.RDG_PST_STATE 5 State.reset) with rdg.roles := [(2, { RoleEntry.init with known := true, epoch := 9 })] },
       (⟨1, 0x100⟩ : RidgeHdr), (⟨5, 4, 0, 0, 15⟩ : RoleSet), 9, by unfold Fresh; decide +kernel⟩,
   ⟨(rf Reg.RDG_ROLE F.RDG_ROLE_ROLE 0 <| rf Reg.RDG_ROLE F.RDG_ROLE_VALID 1 <| rf (Reg.RDG_PST 1) F.RDG_PST_STATE 5 State.reset), (⟨1,
       0x100⟩ : RidgeHdr), (⟨0, 1, 0, 0, 0⟩ : RoleMoved), by unfold ForMe; decide +kernel⟩,
   ⟨{ (rf Reg.RDG_ROLE F.RDG_ROLE_ROLE 0 <| rf Reg.RDG_ROLE F.RDG_ROLE_VALID 1 <| rf (Reg.RDG_PST 1) F.RDG_PST_STATE 5 State.reset) with hst.relays := [(⟨7, 1, true⟩ : RelayPend)] },
       (⟨1, 0x100⟩ : RidgeHdr), (⟨0, 64, 0, 0, 0⟩ : RoleMoved), (⟨7, 1, true⟩ : RelayPend), by unfold ForMe; decide +kernel⟩,
   ⟨{ (rf Reg.RDG_ROLE F.RDG_ROLE_VALID 0 <| rf (Reg.RDG_PST (⟨1, 0x100⟩ : RidgeHdr).link) F.RDG_PST_STATE 5 State.reset) with rdg.roles := [((hdrDst (⟨1, 0x100⟩ : RidgeHdr)), { RoleEntry.init with known := false })] },
       (⟨1, 0x100⟩ : RidgeHdr), by decide +kernel⟩,
   ⟨{ State.reset with rdg.roles := [(1, { RoleEntry.init with known := false })] }, 1, by decide +kernel⟩,
   ⟨{ (rf Reg.RDG_ROLE F.RDG_ROLE_VALID 0 State.reset) with rdg.roles := [(1, { RoleEntry.init with known := true, reachable := true })] },
       1, by decide +kernel⟩,
   ⟨{ State.reset with rdg.elected := some 2, rdg.roles := [(2, { RoleEntry.init with known := true, reachable := true, flags := 2, cls := 1 })] },
       2, 1, 2, by decide +kernel⟩,
   ⟨{ State.reset with rdg.elected := some 3, rdg.roles := [(2, { RoleEntry.init with known := true, reachable := true, flags := 2, cls := 1 }), (3, { RoleEntry.init with known := true, cls := 4 })] },
       3, 1, 2, by decide +kernel⟩,
   ⟨State.reset, by decide +kernel⟩,
   ⟨{ State.reset with rdg.elected := some 2, rdg.roles := [(2, { RoleEntry.init with known := true, reachable := true, flags := 2, cls := 1 })] },
       2, by decide +kernel⟩,
   ⟨{ State.reset with rdg.elected := some 3, rdg.roles := [(2, { RoleEntry.init with known := true, reachable := true, flags := 2, cls := 1 })] },
       3, 1, 2, by decide +kernel⟩,
   ⟨State.reset, by decide +kernel⟩,
   ⟨{ (rf (Reg.RDG_PST 2) F.RDG_PST_STATE 5 <| rf Reg.RDG_TSTAT F.RDG_TSTAT_PARENT 0 <| rf Reg.GEN_STAT F.GEN_STAT_STATE 7 State.reset) with rdg.offers := [(2, 1)] },
       2, 1, by decide +kernel⟩,
   ⟨(rf Reg.RDG_TSTAT F.RDG_TSTAT_PARENT 0 <| rf Reg.GEN_STAT F.GEN_STAT_STATE 7 State.reset), by decide +kernel⟩⟩

/-- The hypotheses of each clause of `RegisterLists` can be met. -/
theorem witness_RegisterLists :
    (∃ (s : Machine.State) (c : Fin 256) (d : Desc), (s.startable (↑c) (isOp 4) = some d) ∧ (s.hst.linkUp = true))
    ∧ (∃ (s : Machine.State) (c : Fin 256) (d : Desc), (s.startable (↑c) (isOp 5) = some d) ∧ (s.hst.linkUp = true))
    ∧ (∃ (s : Machine.State) (rid : ℕ) (addr : ℕ) (c : ℕ) (idx : ℕ) (off : ℕ) (d : Desc) (bytes : List Byte), (s.hst.linkUp = true) ∧
        (List.find? (fun r ↦ r.rid == rid) s.hst.reads = some { rid := rid, addr := addr, len := 8, use := ReadUse.data c idx }) ∧
        (bytes.length = 8) ∧ (s.desc? c idx = some d) ∧ (d.stage = DescStage.waiting) ∧ (d.opcode = 4) ∧ (d.length = 8) ∧ (off = leAt 0 4
        bytes) ∧ (off % 4 = 0) ∧ (off < 6553600) ∧ (blockOf off ≠ 1) ∧ (isStaged off = false) ∧ (s.isOn (domainOf off) = true) ∧ (s.txnOf c =
        none))
    ∧ (∃ (s : Machine.State) (rid : ℕ) (addr : ℕ) (c : ℕ) (idx : ℕ) (off : ℕ) (d : Desc) (bytes : List Byte), (s.hst.linkUp = true) ∧
        (List.find? (fun r ↦ r.rid == rid) s.hst.reads = some { rid := rid, addr := addr, len := 8, use := ReadUse.data c idx }) ∧
        (bytes.length = 8) ∧ (s.desc? c idx = some d) ∧ (d.stage = DescStage.waiting) ∧ (d.opcode = 4) ∧ (d.length = 8) ∧ (off = leAt 0 4
        bytes) ∧ (isStaged off = false) ∧ (off % 4 ≠ 0 ∨ 12582912 ≤ off ∨ blockOf off = 1)) :=
  ⟨⟨{ (rf (Reg.HST_CSTAT 3) F.HST_CSTAT_RUN 1 State.reset) with hst.linkUp := true, hst.clients := [(3, { Client.init with descs := [(dsc 4 8 0 0 [0])] })] },
      3, (dsc 4 8 0 0 [0]), by decide +kernel⟩,
   ⟨{ (rf (Reg.HST_CSTAT 3) F.HST_CSTAT_RUN 1 State.reset) with hst.linkUp := true, hst.clients := [(3, { Client.init with descs := [(dsc 5 4 0 0 [0])] })] },
       3, (dsc 5 4 0 0 [0]), by decide +kernel⟩,
   ⟨{ (on [(domainOf 0), 0] <| State.reset) with hst.linkUp := true, hst.reads := [{ rid := 0, addr := 0, len := 8, use := ReadUse.data 3 0 }], hst.clients := [(3, { Client.init with descs := [({ (dsc 4 8 0 0 [0]) with stage := .waiting } : Desc)] })] },
       0, 0, 3, 0, 0, ({ (dsc 4 8 0 0 [0]) with stage := .waiting } : Desc), List.replicate 8 0, by decide +kernel⟩,
   ⟨{ State.reset with hst.linkUp := true, hst.reads := [{ rid := 0, addr := 0, len := 8, use := ReadUse.data 3 0 }], hst.clients := [(3, { Client.init with descs := [({ (dsc 4 8 0 0 [0]) with stage := .waiting } : Desc)] })] },
       0, 0, 3, 0, 1, ({ (dsc 4 8 0 0 [0]) with stage := .waiting } : Desc), [1, 0, 0, 0, 0, 0, 0, 0], by decide +kernel⟩⟩

/-- The hypotheses of each clause of `Fetching` can be met. -/
theorem witness_Fetching :
    (∃ (s : Machine.State) (c : Fin 256), s.fetchCount ↑c = 0)
    ∧ (∃ (s : Machine.State) (c : Fin 256) (n : ℕ), (s.fetchCount ↑c = n) ∧ (n ≠ 0) ∧ (s.hst.linkUp = true))
    ∧ (∃ (s : Machine.State) (rid : ℕ) (addr : ℕ) (len : ℕ) (c : ℕ) (idx : ℕ) (n : ℕ) (bytes : List Byte), (c < 256) ∧ (s.hst.linkUp =
        true) ∧ (s.getF (Reg.HST_CCFG c) F.HST_CCFG_SQ_LOG2 ≤ 10) ∧ (List.find? (fun r ↦ r.rid == rid) s.hst.reads = some
        { rid := rid, addr := addr, len := len, use := ReadUse.fetch c idx n }) ∧ (bytes.length = len))
    ∧ (∃ (s : Machine.State) (r : HostRead) (bytes : List Byte), (List.find? (fun x ↦ x.rid == r.rid) s.hst.reads = some r) ∧
        (bytes.length ≠ r.len)) :=
  ⟨⟨State.reset, 3, by decide +kernel⟩,
   ⟨{ (on [2] <| rf (Reg.HST_CSTAT 3) F.HST_CSTAT_RUN 1 State.reset) with hst.linkUp := true, hst.clients := [(3, { Client.init with sqTail := 1 })] },
       3, 1, by decide +kernel⟩,
   ⟨{ (rf (Reg.HST_CCFG 3) F.HST_CCFG_SQ_LOG2 0 State.reset) with hst.linkUp := true, hst.reads := [{ rid := 0, addr := 0, len := 64, use := ReadUse.fetch 3 0 1 }] },
       0, 0, 64, 3, 0, 1, List.replicate 64 0, by decide +kernel⟩,
   ⟨{ State.reset with hst.reads := [⟨1, 0, 64, .fetch 3 0 1⟩] }, (⟨1, 0, 64, .fetch 3 0 1⟩ : HostRead), [], by decide +kernel⟩⟩

/-- The hypotheses of each clause of `TransactionsOpen` can be met. -/
theorem witness_TransactionsOpen :
    (∃ (s : Machine.State) (c : Fin 256) (d : Desc) (n : ℕ), (s.startable (↑c) (isOp 1) = some d) ∧ (s.maskFault (d.arg2 0) = some n))
    ∧ (∃ (s : Machine.State) (c : Fin 256) (d : Desc), (s.startable (↑c) (isOp 1) = some d) ∧ (s.maskFault (d.arg2 0) = none) ∧ ((s.txnOf
        ↑c).isSome = true))
    ∧ (∃ (s : Machine.State) (c : Fin 256) (d : Desc), (s.startable (↑c) (isOp 1) = some d) ∧ (s.maskFault (d.arg2 0) = none) ∧ (s.txnOf
        ↑c = none) ∧ (8 ≤ s.stg.txns.length))
    ∧ (∃ (s : Machine.State) (c : Fin 256) (d : Desc), (s.startable (↑c) (isOp 1) = some d) ∧ (s.maskFault (d.arg2 0) = none) ∧ (s.txnOf
        ↑c = none) ∧ (s.stg.txns.length < 8) ∧ (s.heldGroups &&& heldMask (d.arg2 0) ≠ 0))
    ∧ (∃ (s : Machine.State) (c : Fin 256) (d : Desc) (n : ℕ), (s.startable (↑c) (isOp 1) = some d) ∧ (s.maskFault (d.arg2 0) = none) ∧
        (s.txnOf ↑c = none) ∧ (s.stg.txns.length < 8) ∧ (s.heldGroups &&& heldMask (d.arg2 0) = 0) ∧ (s.freeSlot = some n)) :=
  ⟨⟨{ (rf (Reg.HST_CSTAT 3) F.HST_CSTAT_RUN 1 State.reset) with hst.clients := [(3, { Client.init with descs := [(dsc 1 4 0 0 [0])] })] },
      3, (dsc 1 4 0 0 [0]), 0x24, by decide +kernel⟩,
   ⟨{ (rf (Reg.HST_CSTAT 3) F.HST_CSTAT_RUN 1 State.reset) with hst.clients := [(3, { Client.init with descs := [(dsc 1 8 0 0 [1, 0])] })], stg.txns := [(⟨0, 1, 3, 2 ^ 36 - 1, false, false, [], [], [], false, false, 0, false⟩ : Txn)] },
       3, (dsc 1 8 0 0 [1, 0]), by decide +kernel⟩,
   ⟨{ (rf (Reg.HST_CSTAT 3) F.HST_CSTAT_RUN 1 State.reset) with hst.clients := [(3, { Client.init with descs := [(dsc 1 8 0 0 [1, 0])] })], stg.txns := List.replicate 8 (⟨0, 1, 5, 2 ^ 36 - 1, false, false, [], [], [], false, false, 0, false⟩ : Txn) },
       3, (dsc 1 8 0 0 [1, 0]), by decide +kernel⟩,
   ⟨{ (rf (Reg.HST_CSTAT 3) F.HST_CSTAT_RUN 1 State.reset) with hst.clients := [(3, { Client.init with descs := [(dsc 1 8 0 0 [1, 0])] })], stg.txns := [(⟨0, 1, 5, 1, false, false, [], [], [], false, false, 0, false⟩ : Txn)] },
       3, (dsc 1 8 0 0 [1, 0]), by decide +kernel⟩,
   ⟨{ (rf (Reg.HST_CSTAT 3) F.HST_CSTAT_RUN 1 State.reset) with hst.clients := [(3, { Client.init with descs := [(dsc 1 8 0 0 [1, 0])] })] },
       3, (dsc 1 8 0 0 [1, 0]), 0, by decide +kernel⟩⟩

/-- The hypotheses of each clause of `MeshMessages` can be met. -/
theorem witness_MeshMessages :
    (∃ (s : Machine.State) (h : RidgeHdr) (i : Instr) (ra : RoleAnn) (rs : RoleSet) (e : Word) (ev : BitVec 16) (mb : MeasBody) (hb :
        HoldBody) (vb : VcmdBody), (i ∈ [Instr.roleAnn h ra, Instr.roleSet h rs, Instr.alarm h e ev, Instr.meas h mb, Instr.hold h hb,
        Instr.vcmdState h vb, Instr.vcmdHold h vb, Instr.vcmdReset h vb]) ∧ (s.ridgeUp ↑h.link = false ∨ sight (seenOf s.rdg (hdrSrc h))
        (hdrBseq h) = Sight.behind))
    ∧ (∃ (s : Machine.State) (h : RidgeHdr) (i : Instr) (ra : RoleAnn) (rs : RoleSet) (e : Word) (ev : BitVec 16) (mb : MeasBody) (hb :
        HoldBody) (vb : VcmdBody), (i ∈ [Instr.roleAnn h ra, Instr.roleSet h rs, Instr.alarm h e ev, Instr.meas h mb, Instr.hold h hb,
        Instr.vcmdState h vb, Instr.vcmdHold h vb, Instr.vcmdReset h vb]) ∧ (s.ridgeUp ↑h.link = true) ∧ (sight (seenOf s.rdg (hdrSrc h))
        (hdrBseq h) = Sight.duplicate))
    ∧ (∃ (s : Machine.State) (h : RidgeHdr), (Fresh s h) ∧ (s.isHead = false))
    ∧ (∃ (s : Machine.State) (h : RidgeHdr), (Fresh s h) ∧ (s.isHead = true))
    ∧ (∃ (s : Machine.State) (h : RidgeHdr), (Fresh s h) ∧ (s.follows = false ∨ s.rdg.elected ≠ some (hdrSrc h)))
    ∧ (∃ (s : Machine.State) (h : RidgeHdr) (b : BndBody), (Fresh s h) ∧ (s.follows = true) ∧ (s.rdg.elected = some (hdrSrc h)) ∧
        (s.parent = 7) ∧ (s.gen.srcDigest = some b.digest))
    ∧ (∃ (s : Machine.State) (h : RidgeHdr) (b : MeasBody) (f : ℕ), (Fresh s h) ∧ (s.follows = true) ∧ (s.rdg.elected = some (hdrSrc h)) ∧
        (s.gen.fc ≤ f) ∧ (f < s.gen.fc + 2 ^ 32) ∧ (f % 2 ^ 32 = BitVec.toNat b.apply))
    ∧ (∃ (s : Machine.State) (h : RidgeHdr), (Fresh s h) ∧ (s.vhold = false))
    ∧ (∃ (s : Machine.State) (h : RidgeHdr) (b : HoldBody) (next : ℕ), (Fresh s h) ∧ (s.vhold = true) ∧ (next = s.nextFrameOf.fc % 2 ^ 32)
        ∧ (BitVec.toNat b.f = next ∧ (BitVec.toNat b.slot ≠ 0 ∨ s.hrt.ahead = false) ∨ BitVec.toNat b.f ≠ next ∧ BitVec.toNat b.f = s.gen.fc %
        2 ^ 32 ∧ s.hrt.slots ≤ BitVec.toNat b.slot))
    ∧ (∃ (s : Machine.State) (h : RidgeHdr) (b : HoldBody) (next : ℕ), (Fresh s h) ∧ (s.vhold = true) ∧ (next = s.nextFrameOf.fc % 2 ^ 32)
        ∧ (BitVec.toNat b.f = next ∧ BitVec.toNat b.slot = 0 ∧ s.hrt.ahead = true ∨ BitVec.toNat b.f ≠ next ∧ (BitVec.toNat b.f ≠ s.gen.fc % 2
        ^ 32 ∨ BitVec.toNat b.slot < s.hrt.slots)))
    ∧ (∃ (s : Machine.State) (h : RidgeHdr) (b : VcmdBody) (i : Instr) (op : ℕ), ((i, op) ∈ [(Instr.vcmdState h b, 1), (Instr.vcmdHold h
        b, 2), (Instr.vcmdReset h b, 3)]) ∧ (Fresh s h) ∧ (s.hasRole = false ∨ b.roles.toNat.testBit s.role = false))
    ∧ (∃ (s : Machine.State) (h : RidgeHdr) (b : VcmdBody) (i : Instr) (op : ℕ), ((i, op) ∈ [(Instr.vcmdState h b, 1), (Instr.vcmdHold h
        b, 2), (Instr.vcmdReset h b, 3)]) ∧ (Fresh s h) ∧ (s.hasRole = true) ∧ (b.roles.toNat.testBit s.role = true) ∧ (newer s.epoch
        (BitVec.toNat b.epoch) = true))
    ∧ (∃ (s : Machine.State) (h : RidgeHdr) (b : VcmdBody) (i : Instr) (op : ℕ) (f : ℕ) (r : ℕ), ((i, op) ∈ [(Instr.vcmdState h b, 1),
        (Instr.vcmdHold h b, 2)]) ∧ (Fresh s h) ∧ (s.hasRole = true) ∧ (b.roles.toNat.testBit s.role = true) ∧ (newer s.epoch (BitVec.toNat
        b.epoch) = false) ∧ ((f, r) = if newer (BitVec.toNat b.feff) (s.gen.fc % 2 ^ 32) = true then (BitVec.toNat b.feff, 0) else ((s.gen.fc
        + 1) % 2 ^ 32, 1)))
    ∧ (∃ (s : Machine.State) (h : RidgeHdr) (b : VcmdBody), (Fresh s h) ∧ (s.hasRole = true) ∧ (b.roles.toNat.testBit s.role = true) ∧
        (newer s.epoch (BitVec.toNat b.epoch) = false))
    ∧ (∃ (s : Machine.State) (h : RidgeHdr), s.ridgeUp ↑h.link = false)
    ∧ (∃ (s : Machine.State) (h : RidgeHdr) (n : BitVec 16) (v : VolPend), (ForMe s h) ∧ (s.rdg.vols = [v]) ∧ (v.op ≠ 4) ∧ (v.bseq =
        n.toNat) ∧ (v.roles &&& setBit v.heard (hdrSrc h) ≠ v.roles))
    ∧ (∃ (s : Machine.State) (h : RidgeHdr) (n : BitVec 16) (v : VolPend), (ForMe s h) ∧ (s.rdg.vols = [v]) ∧ (v.op = 1 ∨ v.op = 2) ∧
        (v.bseq = n.toNat) ∧ (v.roles < 2 ^ 64) ∧ (v.roles &&& setBit v.heard (hdrSrc h) = v.roles) ∧ (v.good = v.heard) ∧ (v.heard < 2 ^ 64))
    ∧ (∃ (s : Machine.State) (c : Fin 256) (d : Desc) (i : Instr) (op : ℕ), ((i, op) ∈ [(Instr.volState c, 1), (Instr.volHold c, 2),
        (Instr.volReset c, 3)]) ∧ (s.startable (↑c) (isVol op) = some d) ∧ (s.hasRole = true) ∧ (s.rdg.vols = []) ∧ (d.arg2 2 ≠ 0) ∧ ((d.arg2
        2).testBit s.role = false))
    ∧ (∃ (s : Machine.State) (c : Fin 256) (d : Desc) (i : Instr) (op : ℕ), ((i, op) ∈ [(Instr.volState c, 1), (Instr.volHold c, 2),
        (Instr.volReset c, 3)]) ∧ (s.startable (↑c) (isVol op) = some d) ∧ (s.hasRole = true) ∧ (s.rdg.vols = []) ∧ (d.arg2 2 = 2 ^ s.role))
    ∧ (∃ (s : Machine.State) (c : Fin 256) (d : Desc) (cols : ℕ) (col : ℕ) (row : ℕ), (s.startable (↑c) (isVol 4) = some d) ∧ (s.rdg.vols
        = []) ∧ (d.arg 1 = cols + 256 * col + 65536 * row) ∧ (0 < cols) ∧ (cols ≤ 64) ∧ (col < cols) ∧ (row * cols + col < 64))
    ∧ (∃ (s : Machine.State), s.rdg.vols = [])
    ∧ (∃ (s : Machine.State) (v : VolPend) (l : List VolPend) (miss : ℕ), (s.rdg.vols = v :: l) ∧ (v.op ≠ 3) ∧ (miss = v.roles &&& 2 ^ 64
        - 1 - v.good % 2 ^ 64))
    ∧ (∃ (s : Machine.State), s.rdg.selfReset = false)
    ∧ (∃ (s : Machine.State), s.rdg.selfReset = true) :=
  ⟨⟨(rf (Reg.RDG_PST (⟨1, 0x100⟩ : RidgeHdr).link) F.RDG_PST_STATE 0 State.reset), (⟨1, 0x100⟩ : RidgeHdr), (.alarm ⟨1, 0x100⟩ 0 0), (⟨5,
      0, 1, 0, 0, 0, 1, 0, 0⟩ : RoleAnn), (⟨5, 4, 0, 0, 15⟩ : RoleSet), 0, 0, (⟨0, 5, 1, 100, 2000⟩ : MeasBody), (⟨0, 0, 0, 1, 0⟩ : HoldBody),
      (⟨5, 0, 7, 1⟩ : VcmdBody), by decide +kernel⟩,
   ⟨{ (rf (Reg.RDG_PST (⟨1, 0x100⟩ : RidgeHdr).link) F.RDG_PST_STATE 5 State.reset) with rdg.seen := [(1, (0, 1))] }, (⟨1, 0x100⟩ :
       RidgeHdr), (.alarm ⟨1, 0x100⟩ 0 0), (⟨5, 0, 1, 0, 0, 0, 1, 0, 0⟩ : RoleAnn), (⟨5, 4, 0, 0, 15⟩ : RoleSet), 0, 0, (⟨0, 5, 1, 100, 2000⟩
       : MeasBody), (⟨0, 0, 0, 1, 0⟩ : HoldBody), (⟨5, 0, 7, 1⟩ : VcmdBody), by decide +kernel⟩,
   ⟨(rf Reg.GBL_STRAP F.GBL_STRAP_HOST_EN 1 <| rf (Reg.RDG_PST 1) F.RDG_PST_STATE 5 State.reset), (⟨1, 0x100⟩ : RidgeHdr),
       by unfold Fresh; decide +kernel⟩,
   ⟨{ (rf Reg.GBL_STRAP F.GBL_STRAP_HOST_EN 1 <| rf (Reg.RDG_PST 1) F.RDG_PST_STATE 5 State.reset) with hst.linkUp := true }, (⟨1, 0x100⟩
       : RidgeHdr), by unfold Fresh; decide +kernel⟩,
   ⟨(rf (Reg.RDG_PST 1) F.RDG_PST_STATE 5 State.reset), (⟨1, 0x100⟩ : RidgeHdr), by unfold Fresh; decide +kernel⟩,
   ⟨{ (rf Reg.RDG_TSTAT F.RDG_TSTAT_PARENT 7 <| rf Reg.GEN_STAT F.GEN_STAT_STATE 7 <| rf (Reg.RDG_PST 1) F.RDG_PST_STATE 5 State.reset) with rdg.elected := some 1, gen.srcDigest := some 9 },
       (⟨1, 0x100⟩ : RidgeHdr), (⟨0, 9, 0, 0, 0, 0⟩ : BndBody), by unfold Fresh; decide +kernel⟩,
   ⟨{ (rf Reg.GEN_STAT F.GEN_STAT_STATE 7 <| rf (Reg.RDG_PST 1) F.RDG_PST_STATE 5 State.reset) with rdg.elected := some 1 }, (⟨1, 0x100⟩ :
       RidgeHdr), (⟨0, 5, 1, 100, 2000⟩ : MeasBody), 5, by unfold Fresh; decide +kernel⟩,
   ⟨(rf Reg.VIEW_HVOL F.VIEW_HVOL_VHOLD 0 <| rf (Reg.RDG_PST 1) F.RDG_PST_STATE 5 State.reset), (⟨1, 0x100⟩ : RidgeHdr),
       by unfold Fresh; decide +kernel⟩,
   ⟨(rf Reg.VIEW_HVOL F.VIEW_HVOL_VHOLD 1 <| rf (Reg.RDG_PST 1) F.RDG_PST_STATE 5 State.reset), (⟨1, 0x100⟩ : RidgeHdr), (⟨0, 0, 0, 1, 0⟩
       : HoldBody), 1, by unfold Fresh; decide +kernel⟩,
   ⟨{ (rf Reg.VIEW_HVOL F.VIEW_HVOL_VHOLD 1 <| rf (Reg.RDG_PST 1) F.RDG_PST_STATE 5 State.reset) with hrt.ahead := true, hrt.slots := 2 },
       (⟨1, 0x100⟩ : RidgeHdr), (⟨0, 0, 0, 1, 0⟩ : HoldBody), 1, by unfold Fresh; decide +kernel⟩,
   ⟨(rf Reg.RDG_ROLE F.RDG_ROLE_VALID 0 <| rf (Reg.RDG_PST 1) F.RDG_PST_STATE 5 State.reset), (⟨1, 0x100⟩ : RidgeHdr), (⟨5, 0, 7, 1⟩ :
       VcmdBody), (.vcmdState ⟨1, 0x100⟩ ⟨5, 0, 7, 1⟩), 1, by unfold Fresh; decide +kernel⟩,
   ⟨(rf Reg.RDG_EPOCH ⟨31, 0⟩ 5 <| rf Reg.RDG_ROLE F.RDG_ROLE_VALID 1 <| rf (Reg.RDG_PST 1) F.RDG_PST_STATE 5 State.reset), (⟨1, 0x100⟩ :
       RidgeHdr), (⟨3, 0, 7, 1⟩ : VcmdBody), (.vcmdState ⟨1, 0x100⟩ ⟨3, 0, 7, 1⟩), 1, by unfold Fresh; decide +kernel⟩,
   ⟨(rf Reg.RDG_EPOCH ⟨31, 0⟩ 5 <| rf Reg.RDG_ROLE F.RDG_ROLE_VALID 1 <| rf (Reg.RDG_PST 1) F.RDG_PST_STATE 5 State.reset), (⟨1, 0x100⟩ :
       RidgeHdr), (⟨5, 0, 7, 1⟩ : VcmdBody), (.vcmdState ⟨1, 0x100⟩ ⟨5, 0, 7, 1⟩), 1, 7, 0, by unfold Fresh; decide +kernel⟩,
   ⟨(rf Reg.RDG_EPOCH ⟨31, 0⟩ 5 <| rf Reg.RDG_ROLE F.RDG_ROLE_VALID 1 <| rf (Reg.RDG_PST 1) F.RDG_PST_STATE 5 State.reset), (⟨1, 0x100⟩ :
       RidgeHdr), (⟨5, 0, 7, 1⟩ : VcmdBody), by unfold Fresh; decide +kernel⟩,
   ⟨(rf (Reg.RDG_PST (⟨1, 0x100⟩ : RidgeHdr).link) F.RDG_PST_STATE 0 State.reset), (⟨1, 0x100⟩ : RidgeHdr), by decide +kernel⟩,
   ⟨{ (rf Reg.RDG_ROLE F.RDG_ROLE_ROLE 0 <| rf Reg.RDG_ROLE F.RDG_ROLE_VALID 1 <| rf (Reg.RDG_PST 1) F.RDG_PST_STATE 5 State.reset) with rdg.vols := [(⟨3, 0, 1, 6, 0, 0, 0, 0⟩ : VolPend)] },
       (⟨1, 0x100⟩ : RidgeHdr), 0, (⟨3, 0, 1, 6, 0, 0, 0, 0⟩ : VolPend), by unfold ForMe; decide +kernel⟩,
   ⟨{ (rf Reg.RDG_ROLE F.RDG_ROLE_ROLE 0 <| rf Reg.RDG_ROLE F.RDG_ROLE_VALID 1 <| rf (Reg.RDG_PST 1) F.RDG_PST_STATE 5 State.reset) with rdg.vols := [(⟨3, 0, 1, 2, 0, 0, 0, 0⟩ : VolPend)] },
       (⟨1, 0x100⟩ : RidgeHdr), 0, (⟨3, 0, 1, 2, 0, 0, 0, 0⟩ : VolPend), by unfold ForMe; decide +kernel⟩,
   ⟨{ (rf Reg.RDG_ROLE F.RDG_ROLE_VALID 1 <| rf (Reg.HST_CSTAT 3) F.HST_CSTAT_RUN 1 State.reset) with hst.clients := [(3, { Client.init with descs := [(dsc 48 16 0 0 [1, 0, 2, 0])] })] },
       3, (dsc 48 16 0 0 [1, 0, 2, 0]), (.volState 3), 1, by decide +kernel⟩,
   ⟨{ (rf Reg.RDG_ROLE F.RDG_ROLE_VALID 1 <| rf (Reg.HST_CSTAT 3) F.HST_CSTAT_RUN 1 State.reset) with hst.clients := [(3, { Client.init with descs := [(dsc 48 16 0 0 [1, 0, 1, 0])] })] },
       3, (dsc 48 16 0 0 [1, 0, 1, 0]), (.volState 3), 1, by decide +kernel⟩,
   ⟨{ (rf (Reg.HST_CSTAT 3) F.HST_CSTAT_RUN 1 State.reset) with hst.clients := [(3, { Client.init with descs := [(dsc 48 16 0 0 [4, 258])] })] },
       3, (dsc 48 16 0 0 [4, 258]), 2, 1, 0, by decide +kernel⟩,
   ⟨State.reset, by decide +kernel⟩,
   ⟨{ State.reset with rdg.vols := (⟨3, 0, 1, 6, 0, 2, 0, 0⟩ : VolPend) :: ([]) }, (⟨3, 0, 1, 6, 0, 2, 0, 0⟩ : VolPend), [], 4,
       by decide +kernel⟩,
   ⟨State.reset, by decide +kernel⟩,
   ⟨{ State.reset with rdg.selfReset := true }, by decide +kernel⟩⟩

/-- The hypotheses of each clause of `Codecs` can be met. -/
theorem witness_Codecs :
    (∃ (s : Machine.State) (c : Fin 256) (d : Desc) (i : Instr) (op : ℕ), ((i, op) ∈ [(Instr.thcComp c, 16), (Instr.thcDecomp c, 17)]) ∧
        (s.startable (↑c) (isOp op) = some d))
    ∧ (∃ (s : Machine.State), (s.stageWork = none) ∧ (s.ingestWork = none) ∧ (s.thc.queue = []))
    ∧ (∃ (s : Machine.State) (c : ℕ) (idx : ℕ) (d : Desc), (s.stageWork = none) ∧ (s.ingestWork = none) ∧ (s.thc.queue = [(c, idx)]) ∧
        (s.engineFree 0 = true) ∧ (s.isOn 21 = true) ∧ (s.desc? c idx = some d) ∧ (d.arg 0 / 65536 % 4 = 0) ∧ (s.stageOnly 0 = false) ∧
        (d.resume = false) ∧ (s.hst.linkUp = true))
    ∧ (∃ (s : Machine.State) (e : Fin 2), s.thcPaused ↑e = true ∨ (s.engine ↑e).work = ThcWork.idle)
    ∧ (∃ (s : Machine.State) (e : Fin 2) (c : ℕ) (idx : ℕ) (n : ℕ) (img : List Byte) (data : List Byte), (s.thcPaused ↑e = false) ∧
        (s.thcThrottled = false) ∧ (s.engine ↑e = { work := ThcWork.host c idx (some img) (some data), left := n + 2 }))
    ∧ (∃ (s : Machine.State) (e : Fin 2) (c : ℕ) (idx : ℕ) (d : Desc) (img : List Byte) (data : List Byte), (c < 256) ∧ (s.thcPaused ↑e =
        false) ∧ (s.thcThrottled = false) ∧ (s.engine ↑e = { work := ThcWork.host c idx (some img) (some data), left := 1 }) ∧ (s.desc? c idx
        = some d))
    ∧ (∃ (s : Machine.State), (s.thcThrottled = true) ∧ (s.getF Reg.THM_PAUSE0 F.THM_PAUSE0_P1 = 0))
    ∧ (∃ (s : Machine.State), s.thcThrottled = false ∨ s.getF Reg.THM_PAUSE0 F.THM_PAUSE0_P1 ≠ 0)
    ∧ (∃ (s : Machine.State) (v : Word), (Reaches s Reg.THC_CFG) ∧ (s.part = Part.bc) ∧ (BitVec.toNat v % 4 ≠ 0))
    ∧ (∃ (s : Machine.State) (v : Word), (Reaches s Reg.THC_CFG) ∧ (s.part = Part.ba ∨ BitVec.toNat v % 4 = 0))
    ∧ (∃ (s : Machine.State) (e : Fin 2), (Reaches s (Reg.THC_BIST ↑e)) ∧ (s.getF (Reg.THC_ESTAT ↑e) F.THC_ESTAT_STATE ≠ 1))
    ∧ (∃ (s : Machine.State) (e : Fin 2), (Reaches s (Reg.THC_BIST ↑e)) ∧ (s.getF (Reg.THC_ESTAT ↑e) F.THC_ESTAT_STATE = 1) ∧ (s.isOn (21
        + ↑e) = true))
    ∧ (∃ (s : Machine.State), (Reaches s Reg.SWG_BIST) ∧ (s.flag Reg.SWG_BIST F.SWG_BIST_GO = false) ∧ (s.anyCoded = true))
    ∧ (∃ (s : Machine.State), (Reaches s Reg.SWG_BIST) ∧ (s.flag Reg.SWG_BIST F.SWG_BIST_GO = false) ∧ (s.anyCoded = false))
    ∧ (∃ (s : Machine.State), s.flag Reg.SWG_BIST F.SWG_BIST_GO = false)
    ∧ (∃ (s : Machine.State), s.flag Reg.SWG_BIST F.SWG_BIST_GO = true)
    ∧ (∃ (s : Machine.State) (e : Fin 2) (u : Fin 3), (u.val = 1 + e.val) ∧ (s.flag (Reg.THC_BIST ↑e) F.THC_BIST_GO = true)) :=
  ⟨⟨{ (rf (Reg.HST_CSTAT 3) F.HST_CSTAT_RUN 1 State.reset) with hst.clients := [(3, { Client.init with descs := [(dsc 16 64 0 0 [0])] })] },
      3, (dsc 16 64 0 0 [0]), (.thcComp 3), 16, by decide +kernel⟩,
   ⟨State.reset, by decide +kernel⟩,
   ⟨{ (ready [13] <| on [21] <| rf Reg.THC_CFG ⟨31, 0⟩ 0 State.reset) with thc.queue := [(3, 0)], hst.linkUp := true, hst.clients := [(3, { Client.init with descs := [(dsc 16 64 0 0 [0])] })] },
       3, 0, (dsc 16 64 0 0 [0]), by decide +kernel⟩,
   ⟨(rf (Reg.THC_ESTAT 1) F.THC_ESTAT_PAUSED 1 State.reset), 1, by decide +kernel⟩,
   ⟨{ (rf Reg.THM_STAT F.THM_STAT_STEP 0 <| rf (Reg.THC_ESTAT 1) F.THC_ESTAT_PAUSED 0 State.reset) with thc.eng := [(1, ⟨.host 3 0 (some []) (some []), 2⟩)] },
       1, 3, 0, 0, [], [], by decide +kernel⟩,
   ⟨{ (rf Reg.THM_STAT F.THM_STAT_STEP 0 <| rf (Reg.THC_ESTAT 1) F.THC_ESTAT_PAUSED 0 State.reset) with hst.clients := [(3, { Client.init with descs := [(dsc 16 64 0 0 [0])] })], thc.eng := [(1, ⟨.host 3 0 (some []) (some []), 1⟩)] },
       1, 3, 0, (dsc 16 64 0 0 [0]), [], [], by decide +kernel⟩,
   ⟨(rf Reg.THM_PAUSE0 F.THM_PAUSE0_P1 0 <| rf Reg.THM_STAT F.THM_STAT_STEP 1 State.reset), by decide +kernel⟩,
   ⟨(rf Reg.THM_STAT F.THM_STAT_STEP 0 State.reset), by decide +kernel⟩,
   ⟨{ (on [2, (domainOf Reg.THC_CFG)] <| State.reset) with part := .bc }, 1, by unfold Reaches; decide +kernel⟩,
   ⟨(on [2, (domainOf Reg.THC_CFG)] <| State.reset), 0, by unfold Reaches; decide +kernel⟩,
   ⟨(on [2, (domainOf (Reg.THC_BIST 1))] <| rf (Reg.THC_ESTAT 1) F.THC_ESTAT_STATE 2 State.reset), 1, by unfold Reaches; decide +kernel⟩,
   ⟨(on [2, (domainOf (Reg.THC_BIST 1)), (21 + 1)] <| rf (Reg.THC_ESTAT 1) F.THC_ESTAT_STATE 1 State.reset), 1,
       by unfold Reaches; decide +kernel⟩,
   ⟨(on [2, (domainOf Reg.SWG_BIST)] <| rf Reg.SWG_MODE0 ⟨31, 0⟩ 1 <| rf Reg.SWG_BIST F.SWG_BIST_GO 0 State.reset),
       by unfold Reaches; decide +kernel⟩,
   ⟨(on [2, (domainOf Reg.SWG_BIST)] <| rf Reg.SWG_BIST F.SWG_BIST_GO 0 State.reset), by unfold Reaches; decide +kernel⟩,
   ⟨(rf Reg.SWG_BIST F.SWG_BIST_GO 0 State.reset), by decide +kernel⟩,
   ⟨(rf Reg.SWG_BIST F.SWG_BIST_GO 1 State.reset), by decide +kernel⟩,
   ⟨(rf (Reg.THC_BIST 1) F.THC_BIST_GO 1 State.reset), 1, 2, by decide +kernel⟩⟩

/-- The hypotheses of each clause of `ClocksAndShutters` can be met. -/
theorem witness_ClocksAndShutters :
    (∃ (s : Machine.State) (n : Fin 8) (r : Bool), (s.isReady 7 = true) ∧ (s.camOpens (↑n) r = true) ∧ ((s.cam ↑n).opened = false))
    ∧ (∃ (s : Machine.State) (n : Fin 8) (r : Bool), (s.isReady 7 = true) ∧ (s.camOpens (↑n) r = true) ∧ ((s.cam ↑n).opened = true))
    ∧ (∃ (s : Machine.State) (n : Fin 8) (r : Bool) (o : ℕ) (d : ℕ), (s.isReady 7 = true) ∧ (s.camOpens (↑n) r = false) ∧ ((s.cam
        ↑n).openAt = some o) ∧ (1200 ≤ d) ∧ (d + 1200 ≤ s.period) ∧ (s.camAvg ↑n = 1) ∧ ((s.cam ↑n).carried = false))
    ∧ (∃ (s : Machine.State) (n : Fin 8) (r : Bool), (s.camOpens (↑n) r = false) ∧ ((s.cam ↑n).openAt = none))
    ∧ (∃ (s : Machine.State) (n : Fin 8) (r : Bool) (o : ℕ) (d : ℕ), (s.isReady 7 = true) ∧ (s.camOpens (↑n) r = false) ∧ ((s.cam
        ↑n).openAt = some o) ∧ (d < 1200 ∨ s.period < d + 1200) ∧ ((s.cam ↑n).carried = false))
    ∧ (∃ (s : Machine.State), (s.isReady 7 = true) ∧ (s.pwr.dormant = false) ∧ (s.getF Reg.PWR_STATE F.PWR_STATE_CUR ≠ 1))
    ∧ (∃ (s : Machine.State), s.isReady 7 = false ∨ s.pwr.dormant = true ∨ s.getF Reg.PWR_STATE F.PWR_STATE_CUR = 1)
    ∧ (∃ (s : Machine.State) (k : Fin 3) (v : ℕ) (hi : ℕ), (s.hostReaches = true) ∧ (s.stallDomain Reg.GEN_FC_LO = none) ∧ (v = [s.gen.fc,
        s.gen.vt, s.gen.bnd].getD (↑k) 0) ∧ (hi = [Reg.GEN_FC_HI, Reg.GEN_VT_HI, Reg.GEN_BND_HI].getD (↑k) 0)) :=
  ⟨⟨{ (ready [7] <| State.reset) with gen.cams := [(1, { CamState.init with opened := false })] }, 1, true, by decide +kernel⟩,
   ⟨{ (ready [7] <| State.reset) with gen.cams := [(1, { CamState.init with opened := true })] }, 1, true, by decide +kernel⟩,
   ⟨{ (ready [7] <| rf Reg.GEN_PERIOD ⟨31, 0⟩ 100000 State.reset) with gen.cams := [(1, { CamState.init with openAt := some 0, carried := false })] },
       1, false, 0, 1200, by decide +kernel⟩,
   ⟨{ State.reset with gen.cams := [(1, { CamState.init with openAt := none })] }, 1, false, by decide +kernel⟩,
   ⟨{ (ready [7] <| State.reset) with gen.cams := [(1, { CamState.init with openAt := some 0, carried := false })] }, 1, false, 0, 0,
       by decide +kernel⟩,
   ⟨(ready [7] <| rf Reg.PWR_STATE F.PWR_STATE_CUR 2 State.reset), by decide +kernel⟩,
   ⟨(ready [] <| State.reset), by decide +kernel⟩,
   ⟨(on [2, (domainOf (Reg.GEN_FC_LO))] <| State.reset), 1, 0, Reg.GEN_VT_HI, by decide +kernel⟩⟩

/-- The hypotheses of each clause of `RelayWindows` can be met. -/
theorem witness_RelayWindows :
    (∃ (s : Machine.State) (v : Word), (s.hostReaches = true) ∧ (selRejected v = true))
    ∧ (∃ (s : Machine.State) (w : Fin 4) (v : Word), (s.hostReaches = true) ∧ (selRejected v = false) ∧ (s.windowBusy ↑w = true))
    ∧ (∃ (s : Machine.State) (w : Fin 4) (v : Word), (s.hostReaches = true) ∧ (selRejected v = false) ∧ (s.windowBusy ↑w = false))
    ∧ (∃ (s : Machine.State) (w : Fin 4), (s.hostReaches = true) ∧ (s.windowStalled ↑w = false) ∧ (s.flag (Reg.HST_RLY_SEL ↑w)
        F.HST_RLY_SEL_EN = false) ∧ (∀ e ∈ s.hst.winWait, e.1 ≠ ↑w))
    ∧ (∃ (s : Machine.State) (w : Fin 4) (off : ℕ) (a : ℕ), (s.hostReaches = true) ∧ (s.windowStalled ↑w = false) ∧ (s.flag
        (Reg.HST_RLY_SEL ↑w) F.HST_RLY_SEL_EN = true) ∧ (∀ e ∈ s.hst.winWait, e.1 ≠ ↑w) ∧ (s.hasRole = true) ∧ (s.role = s.getF
        (Reg.HST_RLY_SEL ↑w) F.HST_RLY_SEL_ROLE) ∧ (s.flag (Reg.HST_RLY_SEL ↑w) F.HST_RLY_SEL_SPACE = false) ∧ (a = s.getF (Reg.HST_RLY_SEL
        ↑w) F.HST_RLY_SEL_BASE * 524288 + off) ∧ (a < 6553600) ∧ (s.isOn (domainOf a) = true))
    ∧ (∃ (s : Machine.State) (w : Fin 4), (s.hostReaches = true) ∧ (s.windowStalled ↑w = false) ∧ (s.flag (Reg.HST_RLY_SEL ↑w)
        F.HST_RLY_SEL_EN = true) ∧ (∀ e ∈ s.hst.winWait, e.1 ≠ ↑w) ∧ (s.role ≠ s.getF (Reg.HST_RLY_SEL ↑w) F.HST_RLY_SEL_ROLE) ∧ ((s.roleEntry
        (s.getF (Reg.HST_RLY_SEL ↑w) F.HST_RLY_SEL_ROLE)).reachable = false))
    ∧ (∃ (s : Machine.State) (w : Fin 4) (e : RoleEntry), (s.hostReaches = true) ∧ (s.windowStalled ↑w = false) ∧ (s.flag (Reg.HST_RLY_SEL
        ↑w) F.HST_RLY_SEL_EN = true) ∧ (∀ x ∈ s.hst.winWait, x.1 ≠ ↑w) ∧ (s.role ≠ s.getF (Reg.HST_RLY_SEL ↑w) F.HST_RLY_SEL_ROLE) ∧ (e =
        s.roleEntry (s.getF (Reg.HST_RLY_SEL ↑w) F.HST_RLY_SEL_ROLE)) ∧ (e.known = true) ∧ (e.reachable = true))
    ∧ (∃ (s : Machine.State) (tag : ℕ) (p : RelayPend), (List.find? (fun r ↦ r.tag == tag) s.hst.relays = some p) ∧ (s.hst.winWait = []))
    ∧ (∃ (s : Machine.State) (tag : ℕ), ∀ r ∈ s.hst.relays, r.tag ≠ tag) :=
  ⟨⟨(on [2] <| State.reset), withField F.HST_RLY_SEL_BASE 24 0, by decide +kernel⟩,
   ⟨{ (on [2] <| State.reset) with hst.relays := [⟨7, 1, true⟩] }, 1, 0, by decide +kernel⟩,
   ⟨(on [2] <| State.reset), 1, 0, by decide +kernel⟩,
   ⟨(on [2] <| rf (Reg.HST_RLY_SEL 1) F.HST_RLY_SEL_EN 0 State.reset), 1, by decide +kernel⟩,
   ⟨(on [2, (domainOf 0)] <| rf (Reg.HST_RLY_SEL 1) F.HST_RLY_SEL_SPACE 0 <| rf Reg.RDG_ROLE F.RDG_ROLE_VALID 1 <| rf (Reg.HST_RLY_SEL 1)
       F.HST_RLY_SEL_EN 1 State.reset), 1, 0, 0, by decide +kernel⟩,
   ⟨(on [2] <| rf (Reg.HST_RLY_SEL 1) F.HST_RLY_SEL_EN 1 State.reset), 1, by decide +kernel⟩,
   ⟨{ (on [2] <| rf (Reg.HST_RLY_SEL 1) F.HST_RLY_SEL_EN 1 State.reset) with rdg.roles := [(0, { RoleEntry.init with known := true, reachable := true })] },
       1, { RoleEntry.init with known := true, reachable := true }, by decide +kernel⟩,
   ⟨{ State.reset with hst.relays := [(⟨7, 1, true⟩ : RelayPend)] }, 7, (⟨7, 1, true⟩ : RelayPend), by decide +kernel⟩,
   ⟨State.reset, 0, by decide +kernel⟩⟩

/-- The hypotheses of each clause of `Packets` can be met. -/
theorem witness_Packets :
    (∃ (s : Machine.State) (p : Fin 4), (s.link ↑p).dec.wait = true)
    ∧ (∃ (s : Machine.State) (p : Fin 4) (h : PktHeader) (y0 : BitVec 16) (n : BitVec 16) (px : BitVec 16) (data : List Byte) (b :
        WrectBody) (c : Instr), ((s.link ↑p).dec.wait = false) ∧ (h.badType = true) ∧ (c ∈ [Instr.span p h y0 n px data, Instr.wrect p h b,
        Instr.done p h]))
    ∧ (∃ (s : Machine.State) (p : Fin 4) (h : PktHeader), ((s.link ↑p).dec.wait = false) ∧ (h.badType = false) ∧ (doneTarget
        h.target.toNat = true) ∧ (h.len = 0) ∧ (h.frame.toNat < s.gen.fc))
    ∧ (∃ (s : Machine.State) (p : Fin 4) (h : PktHeader) (i : ℕ), (Accepted s (↑p) h i) ∧ (h.target = 0) ∧ (h.len = 0) ∧ (allMarked (s.buf
        i).rows s.height = false))
    ∧ (∃ (s : Machine.State) (p : Fin 4) (h : PktHeader) (i : ℕ) (q : Placement), (Accepted s (↑p) h i) ∧ (h.target = 0) ∧ (h.len = 0) ∧
        (allMarked (s.buf i).rows s.height = true) ∧ ((s.buf i).poisoned = false) ∧ ((s.buf i).missed = false) ∧ ((s.src 0).asleep = false) ∧
        (s.placed i = some q) ∧ (q.mode = 0) ∧ (((three 0).any fun j ↦ (s.buf j).complete && !(s.buf j).hold && decide (h.frame.toNat < (s.buf
        j).frame.getD 0)) = false))
    ∧ (∃ (s : Machine.State) (p : Fin 4) (h : PktHeader) (b : WrectBody) (i : ℕ), (Accepted s (↑p) h i) ∧ (tgtKind h.target.toNat = 1) ∧
        (h.len = 16) ∧ (s.badRect (tgtView h.target.toNat) (tgtWin h.target.toNat) (wrectOf b) = false) ∧ ((s.buf i).done = false))
    ∧ (∃ (s : Machine.State) (p : Fin 4) (h : PktHeader) (b : WrectBody) (i : ℕ), (Accepted s (↑p) h i) ∧ (tgtKind h.target.toNat = 1) ∧
        (h.len = 16) ∧ (s.badRect (tgtView h.target.toNat) (tgtWin h.target.toNat) (wrectOf b) = true))
    ∧ (∃ (s : Machine.State) (p : Fin 4) (h : PktHeader) (y0 : BitVec 16) (n : BitVec 16) (px : BitVec 16) (data : List Byte) (i : ℕ) (q :
        Placement), (Accepted s (↑p) h i) ∧ (h.target = 0) ∧ (px.toNat = s.width) ∧ (n ≠ 0) ∧ (y0.toNat + n.toNat ≤ s.height) ∧ (data.length =
        n.toNat * spanRowBytes 0 px.toNat) ∧ (BitVec.toNat h.len = 8 + data.length) ∧ ((s.buf i).done = false) ∧ (s.placed i = some q) ∧
        (q.mode = 0))
    ∧ (∃ (s : Machine.State) (p : Fin 4) (h : PktHeader) (y0 : BitVec 16) (n : BitVec 16) (px : BitVec 16) (data : List Byte) (i : ℕ),
        (Accepted s (↑p) h i) ∧ (h.target = 0) ∧ (px.toNat = s.width) ∧ (n ≠ 0) ∧ (s.height < y0.toNat + n.toNat) ∧ (data.length = n.toNat *
        spanRowBytes 0 px.toNat) ∧ (BitVec.toNat h.len = 8 + data.length)) :=
  ⟨⟨({ State.reset with links := [(1, { LinkState.init with dec := { LinkState.init.dec with wait := true } })] }), 1, by decide +kernel⟩,
   ⟨State.reset, 1, (⟨true, 0, 0, 0⟩ : PktHeader), 0, 0, 0, [], (⟨0, 0, 0, 0, 0, 0, 0, 0, 0, 0⟩ : WrectBody), (.done 1 ⟨true, 0, 0, 0⟩),
       by decide +kernel⟩,
   ⟨{ State.reset with gen.fc := 5 }, 1, (⟨false, 0, 0, 0⟩ : PktHeader), by decide +kernel⟩,
   ⟨{ (rf Reg.SCN_GEOM F.SCN_GEOM_HEIGHT 768 State.reset) with fst.place := [(0, ⟨0, 1, 0, 64, 64⟩)], fst.bufs := [(0, { FrameBuf.init with frame := some 0 })] },
       1, (⟨false, 0, 0, 0⟩ : PktHeader), 0, by unfold Accepted; decide +kernel⟩,
   ⟨{ (rf Reg.SCN_GEOM F.SCN_GEOM_HEIGHT 768 State.reset) with fst.bufs := [(0, { FrameBuf.init with frame := some 0, rows := 2 ^ 768 - 1 })], hrt.src := [(0, { SourceState.init with asleep := false })], fst.place := [(0, ⟨0, 1, 0, 64, 64⟩)] },
       1, (⟨false, 0, 0, 0⟩ : PktHeader), 0, (⟨0, 1, 0, 64, 64⟩ : Placement), by unfold Accepted; decide +kernel⟩,
   ⟨{ (rf (Reg.FST_WALLOC 0 0) F.FST_WALLOC_MAXH 64 <| rf (Reg.FST_WALLOC 0 0) F.FST_WALLOC_MAXW 64 <| rf Reg.SCN_GEOM F.SCN_GEOM_WIDTH 768 <| rf Reg.SCN_GEOM F.SCN_GEOM_HEIGHT 768 State.reset) with fst.bufs := [(0x1000, { FrameBuf.init with frame := some 0 })], fst.place := [(0x1000, ⟨0, 1, 0, 64, 64⟩)] },
       1, (⟨false, 64, 16, 0⟩ : PktHeader), (⟨0, 0, 64, 64, 0, 0, 0, 0, 0, 0⟩ : WrectBody), 0x1000, by unfold Accepted; decide +kernel⟩,
   ⟨{ State.reset with fst.place := [(0x1000, ⟨0, 1, 0, 64, 64⟩)], fst.bufs := [(0x1000, { FrameBuf.init with frame := some 0 })] }, 1,
       (⟨false, 64, 16, 0⟩ : PktHeader), (⟨0, 0, 0, 0, 0, 0, 0, 0, 0, 0⟩ : WrectBody), 0x1000, by unfold Accepted; decide +kernel⟩,
   ⟨{ (rf Reg.SCN_GEOM F.SCN_GEOM_WIDTH 8 <| rf Reg.SCN_GEOM F.SCN_GEOM_HEIGHT 8 State.reset) with fst.bufs := [(0, { FrameBuf.init with frame := some 0 })], fst.place := [(0, ⟨0, 1, 0, 64, 64⟩)] },
       1, (⟨false, 0, 62, 0⟩ : PktHeader), 0, 1, 8, List.replicate 54 0, 0, (⟨0, 1, 0, 64, 64⟩ : Placement),
       by unfold Accepted; decide +kernel⟩,
   ⟨{ (rf Reg.SCN_GEOM F.SCN_GEOM_WIDTH 8 <| rf Reg.SCN_GEOM F.SCN_GEOM_HEIGHT 8 State.reset) with fst.place := [(0, ⟨0, 1, 0, 64, 64⟩)], fst.bufs := [(0, { FrameBuf.init with frame := some 0 })] },
       1, (⟨false, 0, 62, 0⟩ : PktHeader), 8, 1, 8, List.replicate 54 0, 0, by unfold Accepted; decide +kernel⟩⟩

/-- The hypotheses of each clause of `StartupSteps` can be met. -/
theorem witness_StartupSteps :
    (∃ (s : Machine.State) (n : ℕ) (r : StepResult), (s.stepDue n = true) ∧ (s.coreOff = false) ∧ (n = 2 ∨ n = 3 → r.ok = true) ∧ (n = 8 →
        s.tooHot = false))
    ∧ (∃ (s : Machine.State) (r : StepResult), (s.stepDue 2 = true) ∧ (r.ok = false))
    ∧ (∃ (s : Machine.State) (r : StepResult), (s.stepDue 3 = true) ∧ (r.ok = false))
    ∧ (∃ (s : Machine.State), (s.stepDue 8 = true) ∧ (s.tooHot = true))
    ∧ (∃ (s : Machine.State) (r : StepResult), (s.stepDue 10 = true) ∧ (s.coreOff = false) ∧ (r.ok = false))
    ∧ (∃ (s : Machine.State) (n : ℕ), s.stepDue n = false) :=
  ⟨⟨{ State.reset with rst.applying := none, rst.starting := true, rst.stepsDone := [2] }, 3, (⟨true, true, true⟩ : StepResult),
      by decide +kernel⟩,
   ⟨{ State.reset with rst.starting := true, rst.stepsDone := [1] }, (⟨false, false, false⟩ : StepResult), by decide +kernel⟩,
   ⟨{ State.reset with rst.starting := true, rst.stepsDone := [2] }, (⟨false, false, false⟩ : StepResult), by decide +kernel⟩,
   ⟨{ (rf (Reg.THM_SENS 0) F.THM_SENS_TEMP 2000 State.reset) with rst.starting := true, rst.stepsDone := [7] }, by decide +kernel⟩,
   ⟨{ (on [23, 24, 17] <| State.reset) with rst.applying := none, rst.starting := true, rst.stepsDone := List.range 10 }, (⟨false, false,
       false⟩ : StepResult), by decide +kernel⟩,
   ⟨State.reset, 0, by decide +kernel⟩⟩

/-- The hypotheses of each clause of `Flits` can be met. -/
theorem witness_Flits :
    (∃ (s : Machine.State) (q : Fin 8), (s.lkState ↑q ≠ 5) ∧ (s.lkState ↑q ≠ 9))
    ∧ (∃ (s : Machine.State) (q : Fin 8), s.lkState ↑q = 9)
    ∧ (∃ (s : Machine.State) (q : Fin 8) (f : Flit) (room : ℕ), (s.lkState ↑q = 5) ∧ (badSectors f = 0) ∧ (f.ftype = 2) ∧ (f.ackType = 0)
        ∧ (flitMessages (↑q) f.payload = []) ∧ (4 ≤ ↑q ∨ f.pktOff.toNat < 304 ∨ f.pktOff.toNat = 511) ∧ (f.seq.toNat = s.rxNext ↑q) ∧ (room =
        (s.getF (lkLlcr ↑q) F.RAF_LLCR_CREDIT_GRANT + 4096 - f.seq.toNat) % 4096) ∧ (1 ≤ room) ∧ (room ≤ 2047))
    ∧ (∃ (s : Machine.State) (q : Fin 8) (f : Flit) (d : ℕ), (s.lkState ↑q = 5) ∧ (badSectors f = 0) ∧ (f.ftype = 2) ∧ (f.ackType = 0) ∧
        (d = (f.seq.toNat + 4096 - s.rxNext ↑q) % 4096) ∧ (1 ≤ d) ∧ (d ≤ 2047) ∧ ((s.link ↑q).nakFor = false) ∧ ((s.link ↑q).gap = false))
    ∧ (∃ (s : Machine.State) (q : Fin 8) (f : Flit), (s.lkState ↑q = 5) ∧ (badSectors f = 0) ∧ (f.ftype = 2) ∧ (f.ackType = 0) ∧ (2047 <
        (f.seq.toNat + 4096 - s.rxNext ↑q) % 4096))
    ∧ (∃ (s : Machine.State) (q : Fin 8) (f : Flit), (s.lkState ↑q = 5) ∧ (badSectors f ≠ 0) ∧ ((s.link ↑q).badRun + 1 < 8))
    ∧ (∃ (s : Machine.State) (q : Fin 8) (k : Sector), (s.lkState ↑q = 5) ∧ ((s.link ↑q).fwd = ↑k.no) ∧ (4 ≤ ↑q))
    ∧ (∃ (s : Machine.State) (q : Fin 8) (k : Sector), (s.lkState ↑q = 5) ∧ ((s.link ↑q).fwd = ↑k.no) ∧ (↑q < 4))
    ∧ (∃ (s : Machine.State) (q : Fin 8) (k : Sector), s.lkState ↑q ≠ 5 ∨ (s.link ↑q).fwd ≠ ↑k.no)
    ∧ (∃ (s : Machine.State) (q : Fin 8), s.lkState ↑q < 2 ∨ s.lkState ↑q = 7 ∨ 8 < s.lkState ↑q)
    ∧ (∃ (s : Machine.State) (q : Fin 8), (s.lkState ↑q = 5) ∧ ((s.link ↑q).resend = []) ∧ (s.maySend ↑q = false) ∧ ((s.link ↑q).nakDue =
        false) ∧ ((s.link ↑q).naks < 16) ∧ (s.creditHeld ↑q = false))
    ∧ (∃ (s : Machine.State) (q : Fin 8), (s.lkState ↑q = 5) ∧ ((s.link ↑q).resend = []) ∧ (s.maySend ↑q = true) ∧ ((s.link ↑q).nakDue =
        false) ∧ ((s.link ↑q).naks < 16))
    ∧ (∃ (s : Machine.State) (q : Fin 8) (f : SentFlit) (rest : List SentFlit), (s.lkState ↑q = 5) ∧ ((s.link ↑q).resend = f :: rest) ∧
        ((s.link ↑q).nakDue = false) ∧ ((s.link ↑q).naks < 16))
    ∧ (∃ (s : Machine.State) (q : Fin 8), (s.lkState ↑q = 2 ∨ s.lkState ↑q = 3 ∨ s.lkState ↑q = 6 ∧ (s.link ↑q).capPhase = false) ∧
        ((s.link ↑q).blocksLeft ≠ 1))
    ∧ (∃ (s : Machine.State) (q : Fin 8), (s.lkState ↑q = 5) ∧ ((s.link ↑q).nakFor = true) ∧ ((s.link ↑q).nakDue = false))
    ∧ (∃ (s : Machine.State) (q : Fin 8), s.lkState ↑q ≠ 5 ∨ (s.link ↑q).nakFor = false)
    ∧ (∃ (s : Machine.State) (q : Fin 8), (s.lkState ↑q = 5) ∧ ((s.link ↑q).out ≠ []) ∧ ((s.link ↑q).replays + 1 < 4))
    ∧ (∃ (s : Machine.State) (q : Fin 8), s.lkState ↑q ≠ 5 ∨ (s.link ↑q).out = [])
    ∧ (∃ (ftype : ℕ) (seq : ℕ) (ackType : ℕ) (ackSeq : ℕ) (credit : ℕ) (payload : List Byte), (ftype < 16) ∧ (seq < 4096) ∧ (ackType < 4)
        ∧ (ackSeq < 4096) ∧ (credit < 4096) ∧ (payload.length ≤ 304)) :=
  ⟨⟨(rf (lkPst 1) F.RAF_PST_STATE 0 State.reset), 1, by decide +kernel⟩,
   ⟨(rf (lkPst 1) F.RAF_PST_STATE 9 State.reset), 1, by decide +kernel⟩,
   ⟨(rf (lkLlcr 1) F.RAF_LLCR_CREDIT_GRANT 4 <| rf (lkPst 1) F.RAF_PST_STATE 5 State.reset), 1, (⟨15, 2, 0, 0, 0, 0, 511, []⟩ : Flit), 4,
       by decide +kernel⟩,
   ⟨{ (rf (lkPst 1) F.RAF_PST_STATE 5 State.reset) with links := [(1, { LinkState.init with nakFor := false, gap := false })] }, 1, (⟨15,
       2, 1, 0, 0, 0, 511, []⟩ : Flit), 1, by decide +kernel⟩,
   ⟨(rf (lkPst 1) F.RAF_PST_STATE 5 State.reset), 1, (⟨15, 2, 3000, 0, 0, 0, 511, []⟩ : Flit), by decide +kernel⟩,
   ⟨(rf (lkPst 1) F.RAF_PST_STATE 5 State.reset), 1, (⟨14, 2, 0, 0, 0, 0, 511, []⟩ : Flit), by decide +kernel⟩,
   ⟨{ (rf (lkPst 5) F.RAF_PST_STATE 5 State.reset) with links := [(5, { LinkState.init with fwd := (⟨0, []⟩ : Sector).no })] }, 5, (⟨0,
       []⟩ : Sector), by decide +kernel⟩,
   ⟨{ (rf (lkPst 1) F.RAF_PST_STATE 5 State.reset) with links := [(1, { LinkState.init with fwd := (⟨0, []⟩ : Sector).no })] }, 1, (⟨0,
       []⟩ : Sector), by decide +kernel⟩,
   ⟨(rf (lkPst 1) F.RAF_PST_STATE 0 State.reset), 1, (⟨0, []⟩ : Sector), by decide +kernel⟩,
   ⟨State.reset, 1, by decide +kernel⟩,
   ⟨{ (rf (lkPst 1) F.RAF_PST_STATE 5 State.reset) with links := [(1, { LinkState.init with resend := [], nakDue := false })] }, 1,
       by decide +kernel⟩,
   ⟨{ (rf (lkPst 1) F.RAF_PST_STATE 5 State.reset) with links := [(1, { LinkState.init with resend := [], nakDue := false, queue := [[]], limit := 10 })] },
       1, by decide +kernel⟩,
   ⟨{ (rf (lkPst 1) F.RAF_PST_STATE 5 State.reset) with links := [(1, { LinkState.init with resend := [⟨3, []⟩], nakDue := false })] }, 1,
       (⟨3, []⟩ : SentFlit), [], by decide +kernel⟩,
   ⟨(rf (lkPst 1) F.RAF_PST_STATE 2 State.reset), 1, by decide +kernel⟩,
   ⟨{ (rf (lkPst 1) F.RAF_PST_STATE 5 State.reset) with links := [(1, { LinkState.init with nakFor := true, nakDue := false })] }, 1,
       by decide +kernel⟩,
   ⟨(rf (lkPst 1) F.RAF_PST_STATE 0 State.reset), 1, by decide +kernel⟩,
   ⟨{ (rf (lkPst 1) F.RAF_PST_STATE 5 State.reset) with links := [(1, { LinkState.init with out := [⟨0, []⟩] })] }, 1, by decide +kernel⟩,
   ⟨(rf (lkPst 1) F.RAF_PST_STATE 0 State.reset), 1, by decide +kernel⟩,
   ⟨0, 0, 0, 0, 0, [], by decide +kernel⟩⟩

/-- The hypotheses of each clause of `BoundariesAndReferences` can be met. -/
theorem witness_BoundariesAndReferences :
    (∃ (s : Machine.State) (n : NextFrame), (s.isReady 7 = true) ∧ (s.pwr.dormant = false) ∧ (s.stg.pendings = []) ∧ (s.stg.txns = []) ∧
        (s.rdg.sched = []) ∧ (s.rdg.vtStep = 0) ∧ (s.rdg.srcF = none) ∧ (s.fcLoad = none) ∧ (s.pnl.stopFrame = false) ∧ (n = s.nextFrameOf))
    ∧ (∃ (s : Machine.State), s.isReady 7 = false ∨ s.pwr.dormant = true)
    ∧ (∃ (s : Machine.State), (s.isReady 7 = true) ∧ (s.pwr.dormant = false)) :=
  ⟨⟨(ready [7] <| State.reset), ((ready [7] <| State.reset)).nextFrameOf, by decide +kernel⟩,
   ⟨(ready [] <| State.reset), by decide +kernel⟩,
   ⟨(ready [7] <| State.reset), by decide +kernel⟩⟩

/-- The hypotheses of each clause of `HostRelay` can be met. -/
theorem witness_HostRelay :
    (∃ (s : Machine.State) (h : RidgeHdr) (b : HostBody) (i : Instr) (k : ℕ), ((i, k) ∈ hostMessages h b) ∧ (s.ridgeUp ↑h.link = false))
    ∧ (∃ (s : Machine.State) (h : RidgeHdr) (b : HostBody) (i : Instr) (k : ℕ) (e : RoleEntry), ((i, k) ∈ hostMessages h b) ∧ (s.ridgeUp
        ↑h.link = true) ∧ (s.hasRole = false ∨ s.role ≠ hdrDst h) ∧ (e = s.roleEntry (hdrDst h)) ∧ (e.known = true) ∧ (e.reachable = true) ∧
        (e.epoch = BitVec.toNat b.epoch))
    ∧ (∃ (s : Machine.State) (h : RidgeHdr) (b : HostBody) (i : Instr) (k : ℕ), ((i, k) ∈ hostMessages h b) ∧ (s.ridgeUp ↑h.link = true) ∧
        (s.hasRole = true) ∧ (s.role ≠ hdrDst h) ∧ ((s.roleEntry (hdrDst h)).known = false))
    ∧ (∃ (s : Machine.State) (h : RidgeHdr), (ForMe s h) ∧ (s.isHead = false))
    ∧ (∃ (s : Machine.State) (h : RidgeHdr), (ForMe s h) ∧ (s.isHead = true))
    ∧ (∃ (s : Machine.State) (h : RidgeHdr) (b : HostBody) (i : Instr), (i ∈ [Instr.hostWrite h b, Instr.hostMsix h b]) ∧ (ForMe s h) ∧
        (s.isHead = true))
    ∧ (∃ (s : Machine.State) (h : RidgeHdr) (b : HostBody) (i : Instr), (i ∈ [Instr.hostWrite h b, Instr.hostMsix h b]) ∧ (ForMe s h) ∧
        (s.isHead = false))
    ∧ (∃ (s : Machine.State) (h : RidgeHdr) (b : HostBody), (ForMe s h) ∧ ((s.rdg.hostTags.all fun t ↦ t.tag != b.rtag.toNat) = true))
    ∧ (∃ (s : Machine.State) (h : RidgeHdr) (b : HostBody) (x : HostTag) (r : HostRead), (ForMe s h) ∧ (s.rdg.hostTags = [x]) ∧ (x.tag =
        b.rtag.toNat) ∧ (x.kind = 0) ∧ (x.use = some r) ∧ (x.got.length = b.addr.toNat) ∧ ((x.got ++ b.data).length < leNat x.bytes))
    ∧ (∃ (s : Machine.State) (h : RidgeHdr) (b : HostBody) (x : HostTag) (r : HostRead), (ForMe s h) ∧ (s.rdg.hostTags = [x]) ∧ (x.tag =
        b.rtag.toNat) ∧ (x.kind = 0) ∧ (x.use = some r) ∧ (x.got.length = b.addr.toNat) ∧ (leNat x.bytes ≤ (x.got ++ b.data).length) ∧
        (s.rdg.hostWait = []) ∧ (s.hst.reads = [r]))
    ∧ (∃ (s : Machine.State) (h : RidgeHdr) (b : HostBody) (x : HostTag), (ForMe s h) ∧ (s.rdg.hostTags = [x]) ∧ (x.tag = b.rtag.toNat) ∧
        (x.kind ≠ 0) ∧ (x.client = none) ∧ (s.rdg.hostHold = false))
    ∧ (∃ (s : Machine.State) (h : RidgeHdr) (b : HostBody), (ForMe s h) ∧ (b.addr.toNat.testBit 32 = true))
    ∧ (∃ (s : Machine.State) (h : RidgeHdr) (b : HostBody) (n : ℕ) (x : Word × Machine.State), (ForMe s h) ∧ (b.addr.toNat.testBit 32 =
        false) ∧ (n = b.addr.toNat % 2 ^ 32) ∧ (s.readStall n = none) ∧ (x = s.barValue n))
    ∧ (∃ (s : Machine.State) (h : RidgeHdr) (b : HostBody), (ForMe s h) ∧ (b.addr.toNat.testBit 32 = false))
    ∧ (∃ (s : Machine.State) (h : RidgeHdr) (b : HostBody) (c : ℕ), (ForMe s h) ∧ (b.addr.toNat.testBit 32 = true) ∧ (b.addr.toNat % 2 ^
        32 = 4096 * c) ∧ (c < 256))
    ∧ (∃ (s : Machine.State) (h : RidgeHdr) (b : HostBody), (ForMe s h) ∧ ((s.hst.relays.all fun r ↦ r.tag != b.rtag.toNat) = true))
    ∧ (∃ (s : Machine.State) (h : RidgeHdr) (b : HostBody) (p : RelayPend), (ForMe s h) ∧ (s.hst.relays = [p]) ∧ (p.tag = b.rtag.toNat) ∧
        (s.hst.winWait = []))
    ∧ (∃ (s : Machine.State) (h : RidgeHdr) (b : HostBody), (ForMe s h) ∧ ((s.rdg.hostTags.all fun t ↦ t.tag != b.rtag.toNat) = true) ∧
        ((s.hst.relays.all fun r ↦ r.tag != b.rtag.toNat) = true))
    ∧ (∃ (s : Machine.State) (h : RidgeHdr) (b : HostBody) (p : RelayPend), (ForMe s h) ∧ (s.rdg.hostTags = []) ∧ (s.hst.relays = [p]) ∧
        (p.tag = b.rtag.toNat) ∧ (s.hst.winWait = []))
    ∧ (∃ (s : Machine.State) (h : RidgeHdr) (b : HostBody) (x : HostTag) (r : HostRead) (c : ℕ) (idx : ℕ), (ForMe s h) ∧ (s.rdg.hostTags =
        [x]) ∧ (x.tag = b.rtag.toNat) ∧ (x.kind = 0) ∧ (x.use = some r) ∧ (s.hst.reads = [r]) ∧ (r.use = ReadUse.data c idx))
    ∧ (∃ (s : Machine.State) (tag : ℕ), (s.rdg.hostTags.all fun t ↦ t.tag != tag) = true)
    ∧ (∃ (s : Machine.State) (x : HostTag), (s.rdg.hostTags = [x]) ∧ (x.kind = 4) ∧ (x.resent = false) ∧ (s.flag Reg.RDG_HEAD
        F.RDG_HEAD_VALID = true))
    ∧ (∃ (s : Machine.State) (x : HostTag), (s.rdg.hostTags = [x]) ∧ (x.kind = 4) ∧ (x.resent = true) ∧ (x.use = none) ∧ (x.client = none)
        ∧ (s.rdg.hostHold = false)) :=
  ⟨⟨(rf (Reg.RDG_PST (⟨1, 0x100⟩ : RidgeHdr).link) F.RDG_PST_STATE 0 State.reset), (⟨1, 0x100⟩ : RidgeHdr), (⟨0, 7, 0, []⟩ : HostBody),
      (.hostWrite ⟨1, 0x100⟩ ⟨0, 7, 0, []⟩), 1, by decide +kernel⟩,
   ⟨{ (rf Reg.RDG_ROLE F.RDG_ROLE_VALID 0 <| rf (Reg.RDG_PST (⟨1, 0x100⟩ : RidgeHdr).link) F.RDG_PST_STATE 5 State.reset) with rdg.roles := [(0, { RoleEntry.init with known := true, reachable := true })] },
       (⟨1, 0x100⟩ : RidgeHdr), (⟨0, 7, 0, []⟩ : HostBody), (.hostWrite ⟨1, 0x100⟩ ⟨0, 7, 0, []⟩), 1,
       { RoleEntry.init with known := true, reachable := true }, by decide +kernel⟩,
   ⟨{ (rf Reg.RDG_ROLE F.RDG_ROLE_ROLE 5 <| rf Reg.RDG_ROLE F.RDG_ROLE_VALID 1 <| rf (Reg.RDG_PST (⟨1, 0x100⟩ : RidgeHdr).link) F.RDG_PST_STATE 5 State.reset) with rdg.roles := [((hdrDst (⟨1, 0x100⟩ : RidgeHdr)), { RoleEntry.init with known := false })] },
       (⟨1, 0x100⟩ : RidgeHdr), (⟨0, 7, 0, []⟩ : HostBody), (.hostWrite ⟨1, 0x100⟩ ⟨0, 7, 0, []⟩), 1, by decide +kernel⟩,
   ⟨(rf Reg.GBL_STRAP F.GBL_STRAP_HOST_EN 1 <| rf Reg.RDG_ROLE F.RDG_ROLE_ROLE 0 <| rf Reg.RDG_ROLE F.RDG_ROLE_VALID 1 <| rf (Reg.RDG_PST
       1) F.RDG_PST_STATE 5 State.reset), (⟨1, 0x100⟩ : RidgeHdr), by unfold ForMe; decide +kernel⟩,
   ⟨{ (rf Reg.GBL_STRAP F.GBL_STRAP_HOST_EN 1 <| rf Reg.RDG_ROLE F.RDG_ROLE_ROLE 0 <| rf Reg.RDG_ROLE F.RDG_ROLE_VALID 1 <| rf (Reg.RDG_PST 1) F.RDG_PST_STATE 5 State.reset) with hst.linkUp := true },
       (⟨1, 0x100⟩ : RidgeHdr), by unfold ForMe; decide +kernel⟩,
   ⟨{ (rf Reg.GBL_STRAP F.GBL_STRAP_HOST_EN 1 <| rf Reg.RDG_ROLE F.RDG_ROLE_ROLE 0 <| rf Reg.RDG_ROLE F.RDG_ROLE_VALID 1 <| rf (Reg.RDG_PST 1) F.RDG_PST_STATE 5 State.reset) with hst.linkUp := true },
       (⟨1, 0x100⟩ : RidgeHdr), (⟨0, 7, 0, []⟩ : HostBody), (.hostWrite ⟨1, 0x100⟩ ⟨0, 7, 0, []⟩), by unfold ForMe; decide +kernel⟩,
   ⟨(rf Reg.GBL_STRAP F.GBL_STRAP_HOST_EN 1 <| rf Reg.RDG_ROLE F.RDG_ROLE_ROLE 0 <| rf Reg.RDG_ROLE F.RDG_ROLE_VALID 1 <| rf (Reg.RDG_PST
       1) F.RDG_PST_STATE 5 State.reset), (⟨1, 0x100⟩ : RidgeHdr), (⟨0, 7, 0, []⟩ : HostBody), (.hostWrite ⟨1, 0x100⟩ ⟨0, 7, 0, []⟩),
       by unfold ForMe; decide +kernel⟩,
   ⟨(rf Reg.RDG_ROLE F.RDG_ROLE_ROLE 0 <| rf Reg.RDG_ROLE F.RDG_ROLE_VALID 1 <| rf (Reg.RDG_PST 1) F.RDG_PST_STATE 5 State.reset), (⟨1,
       0x100⟩ : RidgeHdr), (⟨0, 7, 0, []⟩ : HostBody), by unfold ForMe; decide +kernel⟩,
   ⟨{ (rf Reg.RDG_ROLE F.RDG_ROLE_ROLE 0 <| rf Reg.RDG_ROLE F.RDG_ROLE_VALID 1 <| rf (Reg.RDG_PST 1) F.RDG_PST_STATE 5 State.reset) with rdg.hostTags := [(⟨7, 0, 0, [4, 0, 0, 0], some ⟨1, 0, 4, .data 3 0⟩, none, false, [], false⟩ : HostTag)] },
       (⟨1, 0x100⟩ : RidgeHdr), (⟨0, 7, 0, []⟩ : HostBody), (⟨7, 0, 0, [4, 0, 0, 0], some ⟨1, 0, 4, .data 3 0⟩, none, false, [], false⟩ :
       HostTag), (⟨1, 0, 4, .data 3 0⟩ : HostRead), by unfold ForMe; decide +kernel⟩,
   ⟨{ (rf Reg.RDG_ROLE F.RDG_ROLE_ROLE 0 <| rf Reg.RDG_ROLE F.RDG_ROLE_VALID 1 <| rf (Reg.RDG_PST 1) F.RDG_PST_STATE 5 State.reset) with rdg.hostTags := [(⟨7, 0, 0, [4, 0, 0, 0], some ⟨1, 0, 4, .data 3 0⟩, none, false, [], false⟩ : HostTag)], hst.reads := [(⟨1, 0, 4, .data 3 0⟩ : HostRead)] },
       (⟨1, 0x100⟩ : RidgeHdr), (⟨0, 7, 0, [1, 2, 3, 4]⟩ : HostBody), (⟨7, 0, 0, [4, 0, 0, 0], some ⟨1, 0, 4, .data 3 0⟩, none, false, [],
       false⟩ : HostTag), (⟨1, 0, 4, .data 3 0⟩ : HostRead), by unfold ForMe; decide +kernel⟩,
   ⟨{ (rf Reg.RDG_ROLE F.RDG_ROLE_ROLE 0 <| rf Reg.RDG_ROLE F.RDG_ROLE_VALID 1 <| rf (Reg.RDG_PST 1) F.RDG_PST_STATE 5 State.reset) with rdg.hostTags := [(⟨7, 1, 0, [4, 0, 0, 0], none, none, false, [], false⟩ : HostTag)] },
       (⟨1, 0x100⟩ : RidgeHdr), (⟨0, 7, 0, []⟩ : HostBody), (⟨7, 1, 0, [4, 0, 0, 0], none, none, false, [], false⟩ : HostTag),
       by unfold ForMe; decide +kernel⟩,
   ⟨(rf Reg.RDG_ROLE F.RDG_ROLE_ROLE 0 <| rf Reg.RDG_ROLE F.RDG_ROLE_VALID 1 <| rf (Reg.RDG_PST 1) F.RDG_PST_STATE 5 State.reset), (⟨1,
       0x100⟩ : RidgeHdr), (⟨0, 7, 2 ^ 32, []⟩ : HostBody), by unfold ForMe; decide +kernel⟩,
   ⟨(on [0] <| rf Reg.RDG_ROLE F.RDG_ROLE_ROLE 0 <| rf Reg.RDG_ROLE F.RDG_ROLE_VALID 1 <| rf (Reg.RDG_PST 1) F.RDG_PST_STATE 5
       State.reset), (⟨1, 0x100⟩ : RidgeHdr), (⟨0, 7, 0, []⟩ : HostBody), 0, ((on [0] <| rf Reg.RDG_ROLE F.RDG_ROLE_ROLE 0 <| rf Reg.RDG_ROLE
       F.RDG_ROLE_VALID 1 <| rf (Reg.RDG_PST 1) F.RDG_PST_STATE 5 State.reset)).barValue 0, by unfold ForMe; decide +kernel⟩,
   ⟨(rf Reg.RDG_ROLE F.RDG_ROLE_ROLE 0 <| rf Reg.RDG_ROLE F.RDG_ROLE_VALID 1 <| rf (Reg.RDG_PST 1) F.RDG_PST_STATE 5 State.reset), (⟨1,
       0x100⟩ : RidgeHdr), (⟨0, 7, 0, []⟩ : HostBody), by unfold ForMe; decide +kernel⟩,
   ⟨(rf Reg.RDG_ROLE F.RDG_ROLE_ROLE 0 <| rf Reg.RDG_ROLE F.RDG_ROLE_VALID 1 <| rf (Reg.RDG_PST 1) F.RDG_PST_STATE 5 State.reset), (⟨1,
       0x100⟩ : RidgeHdr), (⟨0, 7, 2 ^ 32 + 4096 * 3, []⟩ : HostBody), 3, by unfold ForMe; decide +kernel⟩,
   ⟨(rf Reg.RDG_ROLE F.RDG_ROLE_ROLE 0 <| rf Reg.RDG_ROLE F.RDG_ROLE_VALID 1 <| rf (Reg.RDG_PST 1) F.RDG_PST_STATE 5 State.reset), (⟨1,
       0x100⟩ : RidgeHdr), (⟨0, 7, 0, []⟩ : HostBody), by unfold ForMe; decide +kernel⟩,
   ⟨{ (rf Reg.RDG_ROLE F.RDG_ROLE_ROLE 0 <| rf Reg.RDG_ROLE F.RDG_ROLE_VALID 1 <| rf (Reg.RDG_PST 1) F.RDG_PST_STATE 5 State.reset) with hst.relays := [(⟨7, 1, true⟩ : RelayPend)] },
       (⟨1, 0x100⟩ : RidgeHdr), (⟨0, 7, 0, []⟩ : HostBody), (⟨7, 1, true⟩ : RelayPend), by unfold ForMe; decide +kernel⟩,
   ⟨(rf Reg.RDG_ROLE F.RDG_ROLE_ROLE 0 <| rf Reg.RDG_ROLE F.RDG_ROLE_VALID 1 <| rf (Reg.RDG_PST 1) F.RDG_PST_STATE 5 State.reset), (⟨1,
       0x100⟩ : RidgeHdr), (⟨0, 7, 0, []⟩ : HostBody), by unfold ForMe; decide +kernel⟩,
   ⟨{ (rf Reg.RDG_ROLE F.RDG_ROLE_ROLE 0 <| rf Reg.RDG_ROLE F.RDG_ROLE_VALID 1 <| rf (Reg.RDG_PST 1) F.RDG_PST_STATE 5 State.reset) with hst.relays := [(⟨7, 1, true⟩ : RelayPend)] },
       (⟨1, 0x100⟩ : RidgeHdr), (⟨0, 7, 0, []⟩ : HostBody), (⟨7, 1, true⟩ : RelayPend), by unfold ForMe; decide +kernel⟩,
   ⟨{ (rf Reg.RDG_ROLE F.RDG_ROLE_ROLE 0 <| rf Reg.RDG_ROLE F.RDG_ROLE_VALID 1 <| rf (Reg.RDG_PST 1) F.RDG_PST_STATE 5 State.reset) with rdg.hostTags := [(⟨7, 0, 0, [4, 0, 0, 0], some ⟨1, 0, 4, .data 3 0⟩, none, false, [], false⟩ : HostTag)], hst.reads := [(⟨1, 0, 4, .data 3 0⟩ : HostRead)] },
       (⟨1, 0x100⟩ : RidgeHdr), (⟨0, 7, 0, []⟩ : HostBody), (⟨7, 0, 0, [4, 0, 0, 0], some ⟨1, 0, 4, .data 3 0⟩, none, false, [], false⟩ :
       HostTag), (⟨1, 0, 4, .data 3 0⟩ : HostRead), 3, 0, by unfold ForMe; decide +kernel⟩,
   ⟨State.reset, 0, by decide +kernel⟩,
   ⟨{ (rf Reg.RDG_HEAD F.RDG_HEAD_VALID 1 State.reset) with rdg.hostTags := [(⟨7, 4, 0, [4, 0, 0, 0], none, none, false, [], false⟩ : HostTag)] },
       (⟨7, 4, 0, [4, 0, 0, 0], none, none, false, [], false⟩ : HostTag), by decide +kernel⟩,
   ⟨{ State.reset with rdg.hostTags := [(⟨7, 4, 0, [4, 0, 0, 0], none, none, false, [], true⟩ : HostTag)] }, (⟨7, 4, 0, [4, 0, 0, 0],
       none, none, false, [], true⟩ : HostTag), by decide +kernel⟩⟩

/-- The hypotheses of each clause of `EventsAndAlarms` can be met. -/
theorem witness_EventsAndAlarms :
    (∃ (s : Machine.State) (code : ℕ) (items : List (ℕ × ℕ)), (s.flag Reg.EVT_CFG F.EVT_CFG_EN = true) ∧ (∀ e ∈ s.evt.pend, ¬(e.code =
        code ∧ e.d0 = (placeItems items).d0)) ∧ (s.evt.pend.length < 64))
    ∧ (∃ (s : Machine.State) (code : ℕ) (items : List (ℕ × ℕ)) (e : PendEvent) (rest : List PendEvent), (s.flag Reg.EVT_CFG F.EVT_CFG_EN =
        true) ∧ (s.evt.pend = e :: rest) ∧ (e.code = code) ∧ (e.d0 = (placeItems items).d0))
    ∧ (∃ (s : Machine.State), s.flag Reg.EVT_CFG F.EVT_CFG_EN = false)
    ∧ (∃ (n : ℕ), n < 10)
    ∧ (∃ (n : ℕ) (k : ℕ), (n < 10) ∧ (k < 32) ∧ (k ≠ n))
    ∧ (∃ (s : Machine.State) (n : ℕ), (n < 10) ∧ (bit (BitVec.toNat (s.reg Reg.EVT_ALM_PEND_LO)) n = false))
    ∧ (∃ (s : Machine.State) (n : ℕ), (n < 10) ∧ (bit (BitVec.toNat (s.reg Reg.EVT_ALM_PEND_LO)) n = true)) :=
  ⟨⟨(rf Reg.EVT_CFG F.EVT_CFG_EN 1 State.reset), 0, [], by decide +kernel⟩,
   ⟨{ (rf Reg.EVT_CFG F.EVT_CFG_EN 1 State.reset) with evt.pend := (⟨0, 0, 0, 0, false, false, 1, 0, 0⟩ : PendEvent) :: ([]) }, 0, [],
       (⟨0, 0, 0, 0, false, false, 1, 0, 0⟩ : PendEvent), [], by decide +kernel⟩,
   ⟨(rf Reg.EVT_CFG F.EVT_CFG_EN 0 State.reset), by decide +kernel⟩,
   ⟨0, by decide +kernel⟩,
   ⟨0, 3, by decide +kernel⟩,
   ⟨State.reset, 0, by decide +kernel⟩,
   ⟨(rf Reg.EVT_ALM_PEND_LO ⟨31, 0⟩ 1 State.reset), 0, by decide +kernel⟩⟩

/-- The hypotheses of each clause of `CommitsDecided` can be met. -/
theorem witness_CommitsDecided :
    (∃ (s : Machine.State) (c : Fin 256), (↑c ≠ 0) ∧ (s.txnOf ↑c = none))
    ∧ (∃ (s : Machine.State) (c : Fin 256) (x : Txn), (s.txnOf ↑c = some x) ∧ (x.checking = true) ∧ (x.frozen = false) ∧ (↑c = 0 →
        s.stg.cmdWait = none) ∧ (∀ e ∈ s.tabs, e.2.waiters = []))
    ∧ (∃ (s : Machine.State) (c : Fin 256) (x : Txn), (s.txnOf ↑c = some x) ∧ (x.checking = true) ∧ (x.frozen = false) ∧ (x.failed = true)
        ∧ (↑c = 0 → s.stg.cmdWait = none))
    ∧ (∃ (s : Machine.State) (c : Fin 256) (x : Txn) (off : ℕ) (rest : List ℕ), (s.txnOf ↑c = some x) ∧ (x.checking = true) ∧ (x.frozen =
        false) ∧ (x.failed = false) ∧ (↑c = 0 → s.stg.cmdWait = none) ∧ (s.commitFaults x = off :: rest))
    ∧ (∃ (s : Machine.State) (c : Fin 256) (x : Txn) (off : ℕ) (rest : List ℕ) (o : ℕ), (s.txnOf ↑c = some x) ∧ (x.checking = true) ∧
        (x.frozen = false) ∧ (x.failed = false) ∧ (↑c = 0 → s.stg.cmdWait = none) ∧ (s.commitFaults x = off :: rest) ∧ (o ∈ s.commitFaults x))
    ∧ (∃ (s : Machine.State) (x : Txn), (s.txnOf 0 = some x) ∧ (x.checking = true) ∧ (x.frozen = false) ∧ (x.failed = false) ∧ (x.viaReg =
        true) ∧ (x.waitEffect = false) ∧ (x.slot < 8) ∧ (x.client = 0) ∧ (s.commitFaults x = []) ∧ (s.scanRuns = true) ∧ (s.gateArmed = false)
        ∧ (x.regs ≠ []) ∧ (x.loads = []) ∧ (regsAt Effect.atBoundary x.regs = x.regs) ∧ (s.stg.idleWaits = []) ∧ (s.stg.rollWait = []) ∧
        (s.stg.cmdWait = none) ∧ ((s.client 0).discardDue = false) ∧ (∀ e ∈ s.tabs, e.2.waiters = []) ∧ (State.slotZeroKey
        { s with stg := { s.stg with pendings := s.stg.pendings ++ [⟨x.id, 0, x.mask, x.regs, [], false, false, x.commitIdx⟩] } } =
        s.slotZeroKey)) :=
  ⟨⟨State.reset, 3, by decide +kernel⟩,
   ⟨{ State.reset with stg.txns := [(⟨0, 1, 3, 2 ^ 36 - 1, false, true, [], [], [], false, false, 0, false⟩ : Txn)] }, 3, (⟨0, 1, 3, 2 ^
       36 - 1, false, true, [], [], [], false, false, 0, false⟩ : Txn), by decide +kernel⟩,
   ⟨{ State.reset with stg.txns := [(⟨0, 1, 3, 2 ^ 36 - 1, true, true, [], [], [], false, false, 0, false⟩ : Txn)] }, 3, (⟨0, 1, 3, 2 ^ 36
       - 1, true, true, [], [], [], false, false, 0, false⟩ : Txn), by decide +kernel⟩,
   ⟨{ State.reset with stg.txns := [(⟨0, 1, 3, 2, false, true, [(Reg.GEN_CFG, 0xFFFFFFFF)], [], [], false, false, 0, false⟩ : Txn)] }, 3,
       (⟨0, 1, 3, 2, false, true, [(Reg.GEN_CFG, 0xFFFFFFFF)], [], [], false, false, 0, false⟩ : Txn), 1572864, [], by decide +kernel⟩,
   ⟨{ State.reset with stg.txns := [(⟨0, 1, 3, 2, false, true, [(Reg.GEN_CFG, 0xFFFFFFFF)], [], [], false, false, 0, false⟩ : Txn)] }, 3,
       (⟨0, 1, 3, 2, false, true, [(Reg.GEN_CFG, 0xFFFFFFFF)], [], [], false, false, 0, false⟩ : Txn), 1572864, [], 1572864,
       by decide +kernel⟩,
   ⟨{ State.reset with stg.txns := [(⟨0, 1, 0, 2, false, true, [(Reg.VIEW_HMISS 0, 0)], [], [], true, false, 0, false⟩ : Txn)], pnl.scanning := true, hst.clients := [(0, { Client.init with discardDue := false })] },
       (⟨0, 1, 0, 2, false, true, [(Reg.VIEW_HMISS 0, 0)], [], [], true, false, 0, false⟩ : Txn), by decide +kernel⟩⟩

/-- The hypotheses of each clause of `OperatingPoint` can be met. -/
theorem witness_OperatingPoint :
    (∃ (s : Machine.State), (s.coreOff = false) ∧ (s.noAvs = true) ∧ (s.pwr.pairLost = false))
    ∧ (∃ (s : Machine.State), s.coreOff = true)
    ∧ (∃ (s : Machine.State) (v : ℕ), (s.avsOpen = true) ∧ (s.noAvs = false) ∧ (s.paired = false) ∧ (s.pwr.pairLost = false) ∧
        (s.pwr.writing = none) ∧ (v = BitVec.toNat (vsetWord s.vtCode) / 256 ^ s.aimPoint % 256))
    ∧ (∃ (s : Machine.State) (n : ℕ) (v : ℕ) (k : ℕ), (s.coreOff = false) ∧ (s.pwr.writing = some (n, v, k)) ∧ (s.pwr.target = none) ∧
        (s.pwr.promised = none) ∧ (s.pwr.pairLost = false) ∧ (s.paired = false) ∧ (v < 256))
    ∧ (∃ (s : Machine.State), s.pwr.writing = none)
    ∧ (∃ (s : Machine.State) (n : ℕ) (v : ℕ) (k : ℕ), (s.pwr.writing = some (n, v, k + 1)) ∧ (s.rst.starting = false) ∧ (s.getF
        Reg.GBL_STRAP F.GBL_STRAP_AVS_MODE ≠ 0))
    ∧ (∃ (s : Machine.State) (n : ℕ) (v : ℕ), (s.pwr.writing = some (n, v, 0)) ∧ (s.pwr.target = none))
    ∧ (∃ (s : Machine.State) (v : Word), (s.hostReaches = true) ∧ (fieldOf F.PWR_AVS_FLT_RELEASE v = 1) ∧ (s.pwr.cleanMs < 1000))
    ∧ (∃ (s : Machine.State) (v : Word), (s.hostReaches = true) ∧ (fieldOf F.PWR_AVS_FLT_RELEASE v = 1) ∧ (1000 ≤ s.pwr.cleanMs) ∧
        (s.noAvs = true)) :=
  ⟨⟨{ (rf Reg.GBL_STRAP F.GBL_STRAP_AVS_MODE 2 State.reset) with rst.applying := none }, by decide +kernel⟩,
   ⟨State.reset, by decide +kernel⟩,
   ⟨{ (rf Reg.GBL_STRAP F.GBL_STRAP_PAIR_REG 0 <| rf Reg.GBL_STRAP F.GBL_STRAP_AVS_MODE 0 State.reset) with rst.applying := none, rst.stepsDone := [5] },
       ((vsetWord
       ({ (rf Reg.GBL_STRAP F.GBL_STRAP_PAIR_REG 0 <| rf Reg.GBL_STRAP F.GBL_STRAP_AVS_MODE 0 State.reset) with rst.applying := none, rst.stepsDone := [5] }).vtCode).toNat
       / 256 ^
       ({ (rf Reg.GBL_STRAP F.GBL_STRAP_PAIR_REG 0 <| rf Reg.GBL_STRAP F.GBL_STRAP_AVS_MODE 0 State.reset) with rst.applying := none, rst.stepsDone := [5] }).aimPoint
       % 256), by decide +kernel, by decide +kernel, by decide +kernel, by decide +kernel, by decide +kernel, by simp only []⟩,
   ⟨{ (rf Reg.GBL_STRAP F.GBL_STRAP_PAIR_REG 0 State.reset) with rst.applying := none, pwr.writing := some (0, 0, 0) }, 0, 0, 0,
       by decide +kernel⟩,
   ⟨State.reset, by decide +kernel⟩,
   ⟨{ (rf Reg.GBL_STRAP F.GBL_STRAP_AVS_MODE 1 State.reset) with pwr.writing := some (0, 0, 0 + 1) }, 0, 0, 0, by decide +kernel⟩,
   ⟨{ State.reset with pwr.writing := some (0, 0, 0) }, 0, 0, by decide +kernel⟩,
   ⟨(on [2] <| State.reset), withField F.PWR_AVS_FLT_RELEASE 1 0, by decide +kernel⟩,
   ⟨{ (on [2] <| rf Reg.GBL_STRAP F.GBL_STRAP_AVS_MODE 2 State.reset) with pwr.cleanMs := 1000 }, withField F.PWR_AVS_FLT_RELEASE 1 0,
       by decide +kernel⟩⟩

/-- The hypotheses of each clause of `MeterCommands` can be met. -/
theorem witness_MeterCommands :
    (∃ (s : Machine.State), s.tmk.powered = false)
    ∧ (∃ (s : Machine.State) (l : List MeterSample) (n0 : ℤ) (n1 : ℤ), (s.tmk.powered = true) ∧ (s.tmk.mt + 1 < s.tmk.bound) ∧ (n0 =
        s.secondEnergy 0 (List.map (fun x ↦ (x.i0, x.v0)) l)) ∧ (n1 = s.secondEnergy 1 (List.map (fun x ↦ (x.i1, x.v1)) l)))
    ∧ (∃ (s : Machine.State), (s.tmk.powered = true) ∧ (s.tmk.bound ≤ s.tmk.mt + 1))
    ∧ (∃ (s : Machine.State), (s.tmk.powered = true) ∧ (LogReady s.tmk))
    ∧ (∃ (s : Machine.State) (bs : List Byte), (s.tmk.powered = true) ∧ (bs.length = 64) ∧ (s.tmk.head < 4096))
    ∧ (∃ (s : Machine.State), s.tmk.powered = true)
    ∧ (∃ (s : Machine.State) (ok : Bool) (i : MeterReq → Instr) (n : ℕ), ((i, n) ∈ meterRequests ok) ∧ (s.tmk.powered = false))
    ∧ (∃ (s : Machine.State) (ok : Bool) (i : MeterReq → Instr) (n : ℕ) (f : List Byte), ((i, n) ∈ meterRequests ok) ∧ (s.tmk.powered =
        true) ∧ (s.tmk.resp = some f))
    ∧ (∃ (s : Machine.State) (ok : Bool) (i : MeterReq → Instr) (n : ℕ) (a : Byte), ((i, n) ∈ meterRequests ok) ∧ (s.tmk.powered = true) ∧
        (a ≠ 180))
    ∧ (∃ (s : Machine.State) (ok : Bool) (i : MeterReq → Instr) (n : ℕ), ((i, n) ∈ meterRequests ok) ∧ (s.tmk.powered = true) ∧
        (s.tmk.resp = none))
    ∧ (∃ (s : Machine.State) (ok : Bool) (i : MeterReq → Instr) (n : ℕ), ((i, n) ∈ meterRequests ok) ∧ (s.relayFrame = none))
    ∧ (∃ (s : Machine.State) (ok : Bool) (i : MeterReq → Instr) (n : ℕ) (f : List Byte), ((i, n) ∈ meterRequests ok) ∧ (s.tmk.powered =
        true) ∧ (s.relayFrame = some f) ∧ (badRequest f = none) ∧ (leAt 0 1 f = n))
    ∧ (∃ (s : Machine.State) (f : List Byte), (s.tmk.powered = true) ∧ (s.relayFrame = some f) ∧ (badRequest f = none) ∧ (leAt 0 1 f = 10))
    ∧ (∃ (s : Machine.State), (s.tmk.powered = true) ∧ (s.tmk.resp = none))
    ∧ (∃ (s : Machine.State) (a : ℕ) (n : ℕ), (s.tmk.powered = true) ∧ (s.tmk.resp = none) ∧ (a ≤ 4095) ∧ (1 ≤ n) ∧ (n ≤ 63))
    ∧ (∃ (s : Machine.State) (a : ℕ) (n : ℕ), (s.tmk.powered = true) ∧ (s.tmk.resp = none) ∧ (a < 65536) ∧ (n < 65536) ∧ (4095 < a ∨ n = 0
        ∨ 63 < n))
    ∧ (∃ (s : Machine.State) (pl : List Byte), (s.tmk.powered = true) ∧ (s.tmk.resp = none) ∧ (pl.length = 256) ∧ (paramOk pl = false))
    ∧ (∃ (s : Machine.State) (pl : List Byte), (s.tmk.powered = true) ∧ (s.tmk.resp = none) ∧ (pl.length = 256) ∧ (paramOk pl = true))
    ∧ (∃ (s : Machine.State) (pl : List Byte), (s.tmk.powered = true) ∧ (s.tmk.resp = none) ∧ (pl.length = 256) ∧ (paramOk pl = true) ∧
        (s.tmkBlock.length = 256))
    ∧ (∃ (s : Machine.State) (pl : List Byte), (s.tmk.powered = true) ∧ (s.tmk.resp = none) ∧ (pl.length = 4) ∧ (s.tmk.fuse = true))
    ∧ (∃ (s : Machine.State) (pl : List Byte), (s.tmk.powered = true) ∧ (s.tmk.resp = none) ∧ (pl.length = 4) ∧ (s.tmk.fuse = false) ∧ (pl
        ≠ slice 252 4 s.tmkBlock))
    ∧ (∃ (s : Machine.State), (s.tmk.powered = true) ∧ (s.tmk.resp = none) ∧ (s.tmk.fuse = false) ∧ ((slice 252 4 s.tmkBlock).length = 4))
    ∧ (∃ (s : Machine.State), (s.tmk.powered = true) ∧ (s.tmk.resp = none) ∧ (s.tmk.fuse = false) ∧ ((slice 252 4 s.tmkBlock).length = 4)
        ∧ (s.tmk.active ≠ 0))
    ∧ (∃ (s : Machine.State) (w : ℕ), (s.tmk.powered = true) ∧ (s.tmk.resp = none) ∧ (w < 2 ^ 64))
    ∧ (∃ (s : Machine.State) (pl : List Byte), (s.tmk.powered = true) ∧ (s.tmk.resp = none) ∧ (pl.length ≤ 40) ∧ (LogReady s.tmk))
    ∧ (∃ (s : Machine.State) (g : Word) (x : Word) (a : ℕ) (b : ℕ), (s.tmk.powered = true) ∧ (s.tmk.resp = none) ∧ (s.tmk.gref = some (g,
        a)) ∧ (s.tmk.xtal = some (x, b)))
    ∧ (∃ (s : Machine.State), (s.tmk.powered = true) ∧ (s.tmk.resp = none) ∧ (s.tmk.gref = none) ∧ (s.tmk.xtal = none))
    ∧ (∃ (s : Machine.State), (s.tmk.powered = true) ∧ (s.tmk.resp = none) ∧ (s.tmk.gref = none))
    ∧ (∃ (s : Machine.State), (s.tmk.powered = true) ∧ (s.tmk.resp = none) ∧ (s.tmk.xtal = none))
    ∧ (∃ (s : Machine.State) (w : Word) (a : ℕ), (s.tmk.powered = true) ∧ (s.tmk.resp = none) ∧ (s.tmk.gref = some (w, a)) ∧
        (s.tmkBlock.length = 256))
    ∧ (∃ (s : Machine.State) (w : Word) (a : ℕ), (s.tmk.powered = true) ∧ (s.tmk.resp = none) ∧ (s.tmk.xtal = some (w, a)) ∧
        (s.tmkBlock.length = 256)) :=
  ⟨⟨{ State.reset with tmk.powered := false }, by decide +kernel⟩,
   ⟨{ State.reset with tmk.slotA := List.replicate 256 0, tmk.active := 1 }, [], 0, 0, by decide +kernel⟩,
   ⟨{ State.reset with tmk.mt := 3599 }, by decide +kernel⟩,
   ⟨State.reset, by unfold LogReady; decide +kernel⟩,
   ⟨State.reset, List.replicate 64 0, by decide +kernel⟩,
   ⟨State.reset, by decide +kernel⟩,
   ⟨{ State.reset with tmk.powered := false }, false, .ident, 1, .head _, by decide +kernel⟩,
   ⟨{ State.reset with tmk.resp := some ([1]) }, false, .ident, 1, [1], .head _, by decide +kernel⟩,
   ⟨State.reset, false, .ident, 1, 0, .head _, by decide +kernel⟩,
   ⟨State.reset, false, .ident, 1, .head _, by decide +kernel⟩,
   ⟨State.reset, false, .ident, 1, .head _, by decide +kernel⟩,
   ⟨{ (rf Reg.TMK_STAT F.TMK_STAT_LINK 1 State.reset) with tmk.relays := [(3, 0, identFrame)] }, false, .ident, 1, identFrame, .head _,
       by decide +kernel⟩,
   ⟨{ (rf Reg.TMK_STAT F.TMK_STAT_LINK 1 State.reset) with tmk.relays := [(3, 0, calFrame)] }, calFrame, by decide +kernel⟩,
   ⟨State.reset, by decide +kernel⟩,
   ⟨State.reset, 0, 1, by decide +kernel⟩,
   ⟨State.reset, 5000, 1, by decide +kernel⟩,
   ⟨State.reset, List.replicate 256 0, by decide +kernel⟩,
   ⟨State.reset, goodBlock, by decide +kernel⟩,
   ⟨{ State.reset with tmk.slotA := List.replicate 256 0, tmk.active := 1 }, goodBlock, by decide +kernel⟩,
   ⟨{ State.reset with tmk.fuse := true }, [1, 0, 0, 0], by decide +kernel⟩,
   ⟨{ State.reset with tmk.slotA := List.replicate 256 0, tmk.active := 1 }, [1, 0, 0, 0], by decide +kernel⟩,
   ⟨{ State.reset with tmk.slotA := List.replicate 256 0, tmk.active := 1 }, by decide +kernel⟩,
   ⟨{ State.reset with tmk.active := 1, tmk.slotA := List.replicate 256 0 }, by decide +kernel⟩,
   ⟨State.reset, 0, by decide +kernel⟩,
   ⟨State.reset, [], by unfold LogReady; decide +kernel⟩,
   ⟨{ State.reset with tmk.gref := some (0, 0), tmk.xtal := some (0, 0) }, 0, 0, 0, 0, by decide +kernel⟩,
   ⟨State.reset, by decide +kernel⟩,
   ⟨State.reset, by decide +kernel⟩,
   ⟨State.reset, by decide +kernel⟩,
   ⟨{ State.reset with tmk.gref := some (0, 0), tmk.slotA := List.replicate 256 0, tmk.active := 1 }, 0, 0, by decide +kernel⟩,
   ⟨{ State.reset with tmk.xtal := some (0, 0), tmk.slotA := List.replicate 256 0, tmk.active := 1 }, 0, 0, by decide +kernel⟩⟩

/-- The hypotheses of each clause of `RegisterWrites` can be met. -/
theorem witness_RegisterWrites :
    (∃ (s : Machine.State) (p : Fin 4) (e : Fin 2) (q : Fin 8) (v : Word) (w : Word) (i : Instr) (off : ℕ) (d : ℕ), ((i, off, w) ∈
        blockWrites p e q v) ∧ (s.hostReaches = true) ∧ (s.stallDomain off = some d))
    ∧ (∃ (s : Machine.State) (p : Fin 4) (e : Fin 2) (q : Fin 8) (v : Word) (w : Word) (i : Instr) (off : ℕ), ((i, off, w) ∈ blockWrites p
        e q v) ∧ (s.hostReaches = false))
    ∧ (∃ (s : Machine.State) (w : Fin 4) (off : ℕ) (op : RelayOp) (hi : Bool) (vec : Fin 264) (v : Word) (i : Instr), (i ∈ hostWrites w
        off op hi vec v) ∧ (s.hostReaches = false))
    ∧ (∃ (s : Machine.State) (be : BitVec 4), (s.hostReaches = true) ∧ (be ≠ 0) ∧ (be ≠ 15))
    ∧ (∃ (s : Machine.State) (off : ℕ), (s.hostReaches = true) ∧ (15736872 ≤ off ∨ 14680064 ≤ off ∧ off < 15728640))
    ∧ (∃ (s : Machine.State) (v : Word), (s.hostReaches = true) ∧ (fieldOf F.HST_CIMOD_COUNT v ≠ 0))
    ∧ (∃ (s : Machine.State) (v : Word), (s.hostReaches = true) ∧ (fieldOf F.HST_CIMOD_COUNT v = 0))
    ∧ (∃ (off : ℕ), isCounterClear off = false)
    ∧ (∃ (s : Machine.State) (p : Fin 4), (s.hostReaches = true) ∧ (s.isOn (7 + ↑p) = true)) :=
  ⟨⟨(on [2] <| State.reset), 1, 1, 1, 0, 0, .thcCfgWrite 0, Reg.THC_CFG, 21, by decide +kernel⟩,
   ⟨State.reset, 1, 1, 1, 0, 0, .thcCfgWrite 0, Reg.THC_CFG, by decide +kernel⟩,
   ⟨State.reset, 1, 0, .read, false, 5, 0, .evtTrcMark 0, by decide +kernel⟩,
   ⟨(on [2] <| State.reset), 3, by decide +kernel⟩,
   ⟨(on [2] <| State.reset), 15736872, by decide +kernel⟩,
   ⟨(on [2] <| State.reset), withField F.HST_CIMOD_COUNT 1 0, by decide +kernel⟩,
   ⟨(on [2] <| State.reset), 0, by decide +kernel⟩,
   ⟨0, by decide +kernel⟩,
   ⟨(on [2, (7 + 1)] <| State.reset), 1, by decide +kernel⟩⟩

/-- The hypotheses of each clause of `Plates` can be met. -/
theorem witness_Plates :
    (∃ (s : Machine.State) (c : Fin 256) (d : Desc) (i : Instr) (p : Desc → Bool), (s.startable (↑c) p = some d) ∧ ((i, p) ∈
        [(Instr.plateCreate c, fun d ↦ isOp 24 d && d.arg 0 == 1), (Instr.plateAppend c, fun d ↦ isOp 24 d && d.arg 0 == 2), (Instr.plateClose
        c, fun d ↦ isOp 24 d && d.arg 0 == 3), (Instr.platePlayStart c, fun d ↦ isOp 25 d && d.playOp == 1), (Instr.platePlayStop c, fun d ↦
        isOp 25 d && d.playOp == 2), (Instr.plateReadPages c, fun d ↦ isOp 26 d && d.arg 0 == 0), (Instr.plateReadDecoded c, fun d ↦ isOp 26 d
        && d.arg 0 == 1), (Instr.plateReadEntry c, fun d ↦ isOp 26 d && d.arg 0 == 2), (Instr.plateDelete c, isOp 27)]) ∧ (s.mounted d.magPort
        = false))
    ∧ (∃ (s : Machine.State) (c : Fin 256) (d : Desc) (e : ℕ) (runs : List (ℕ × ℕ)), ((s.startable ↑c fun d ↦ isOp 24 d && d.arg 0 == 1) =
        some d) ∧ (PlatesUsable s d.magPort) ∧ ((s.port d.magPort).updates = []) ∧ (List.find? (fun e ↦ entState (s.entry d.magPort e) == 0)
        (List.range 4096) = some e) ∧ (runs = takeRuns (d.arg 1) (freeRuns (s.port d.magPort).dir (s.lastCluster d.magPort) [])) ∧
        (runs.length ≤ 12) ∧ (d.arg 1 ≤ List.foldl (fun n r ↦ n + r.2) 0 runs))
    ∧ (∃ (s : Machine.State) (c : Fin 256) (d : Desc), ((s.startable ↑c fun d ↦ isOp 24 d && d.arg 0 == 2) = some d) ∧ (PlatesUsable s
        d.magPort) ∧ ((s.fnAbsent 13 && s.fnAbsent 14) = false) ∧ (s.ownsOpen d.magPort d.plate ↑c = false))
    ∧ (∃ (s : Machine.State) (c : Fin 256) (d : Desc) (b : List Byte), ((s.startable ↑c fun d ↦ isOp 24 d && d.arg 0 == 2) = some d) ∧
        (PlatesUsable s d.magPort) ∧ ((s.fnAbsent 13 && s.fnAbsent 14) = false) ∧ (b = s.entry d.magPort d.plate) ∧ (s.ownsOpen d.magPort
        d.plate ↑c = true) ∧ (d.length = entFrameBytes b) ∧ ((s.plateFrames d.magPort d.plate).1 < entFramesMax b) ∧ (4096 * ceilDiv (wCont
        d.length 18) 4096 ≤ 4096 * (entSpace b - (s.plateFrames d.magPort d.plate).2)) ∧ (s.hst.linkUp = true))
    ∧ (∃ (s : Machine.State) (c : Fin 256) (d : Desc), ((s.startable ↑c fun d ↦ isOp 24 d && d.arg 0 == 3) = some d) ∧ (PlatesUsable s
        d.magPort) ∧ (s.ownsOpen d.magPort d.plate ↑c = false))
    ∧ (∃ (s : Machine.State) (c : Fin 256) (d : Desc) (b : List Byte), ((s.startable ↑c fun d ↦ isOp 24 d && d.arg 0 == 3) = some d) ∧
        (PlatesUsable s d.magPort) ∧ (b = s.entry d.magPort d.plate) ∧ (s.ownsOpen d.magPort d.plate ↑c = true))
    ∧ (∃ (s : Machine.State) (c : Fin 256) (d : Desc) (n : ℕ), ((s.startable ↑c fun d ↦ isOp 25 d && d.playOp == 1) = some d) ∧
        (PlatesUsable s d.magPort) ∧ (s.playFault d = some n))
    ∧ (∃ (s : Machine.State) (c : Fin 256) (d : Desc) (k : ℕ), ((s.startable ↑c fun d ↦ isOp 25 d && d.playOp == 1) = some d) ∧
        (PlatesUsable s d.magPort) ∧ (s.playFault d = none) ∧ (List.find? (fun k ↦ (s.sched k).isNone) (List.range 16) = some k) ∧ (2 *
        (s.heldScheds.length + 1) ≤ s.getF Reg.FST_ALLOC F.FST_ALLOC_PLATE_N))
    ∧ (∃ (s : Machine.State) (c : Fin 256) (d : Desc), ((s.startable ↑c fun d ↦ isOp 25 d && d.playOp == 2) = some d) ∧ (PlatesUsable s
        d.magPort) ∧ (16 ≤ d.arg 1 ∨ s.sched (d.arg 1) = none))
    ∧ (∃ (s : Machine.State) (c : Fin 256) (d : Desc) (g : Sched), ((s.startable ↑c fun d ↦ isOp 25 d && d.playOp == 2) = some d) ∧
        (PlatesUsable s d.magPort) ∧ (d.arg 1 < 16) ∧ (s.sched (d.arg 1) = some g) ∧ (g.until_ = none))
    ∧ (∃ (s : Machine.State) (c : Fin 256) (d : Desc), ((s.startable ↑c fun d ↦ isOp 26 d && d.arg 0 == 0) = some d) ∧ (PlatesUsable s
        d.magPort) ∧ ((s.plateFrames d.magPort d.plate).1 ≤ d.arg 1))
    ∧ (∃ (s : Machine.State) (c : Fin 256) (d : Desc) (a : ℕ), ((s.startable ↑c fun d ↦ isOp 26 d && d.arg 0 == 0) = some d) ∧
        (PlatesUsable s d.magPort) ∧ (d.arg 1 < (s.plateFrames d.magPort d.plate).1) ∧ (lbaIn (entExtents (s.entry d.magPort d.plate)) (d.arg
        1 / 512) = some a) ∧ ((s.port d.magPort).cmds = []) ∧ (0 < (s.port d.magPort).depth))
    ∧ (∃ (s : Machine.State) (c : Fin 256) (d : Desc), ((s.startable ↑c fun d ↦ isOp 26 d && d.arg 0 == 1) = some d) ∧ (PlatesUsable s
        d.magPort) ∧ (d.arg 1 < (s.plateFrames d.magPort d.plate).1) ∧ (d.limit < entFrameBytes (s.entry d.magPort d.plate)))
    ∧ (∃ (s : Machine.State) (c : Fin 256) (d : Desc) (a : ℕ), ((s.startable ↑c fun d ↦ isOp 26 d && d.arg 0 == 1) = some d) ∧
        (PlatesUsable s d.magPort) ∧ (d.arg 1 < (s.plateFrames d.magPort d.plate).1) ∧ (entFrameBytes (s.entry d.magPort d.plate) ≤ d.limit) ∧
        (lbaIn (entExtents (s.entry d.magPort d.plate)) (d.arg 1 / 512) = some a) ∧ ((s.port d.magPort).cmds = []) ∧ (0 < (s.port
        d.magPort).depth))
    ∧ (∃ (s : Machine.State) (c : Fin 256) (d : Desc), ((s.startable ↑c fun d ↦ isOp 26 d && d.arg 0 == 2) = some d) ∧ (PlatesUsable s
        d.magPort) ∧ (256 ≤ d.limit))
    ∧ (∃ (s : Machine.State) (c : Fin 256) (d : Desc), (s.startable (↑c) (isOp 27) = some d) ∧ (PlatesUsable s d.magPort) ∧ (entState
        (s.entry d.magPort d.plate) = 0))
    ∧ (∃ (s : Machine.State) (c : Fin 256) (d : Desc), (s.startable (↑c) (isOp 27) = some d) ∧ (PlatesUsable s d.magPort) ∧ (entState
        (s.entry d.magPort d.plate) ≠ 0) ∧ (s.mag.appends = []) ∧ (s.mag.scheds = []))
    ∧ (∃ (s : Machine.State), s.stageWanted = [])
    ∧ (∃ (s : Machine.State) (f : ℕ) (k : ℕ) (p : ℕ) (e : ℕ) (n : ℕ) (v : ℕ) (x : ℕ) (i : ℕ) (a : ℕ), (s.stageWanted = [(f, k, p, e, n, v,
        x)]) ∧ (s.mag.stages = []) ∧ (s.freePlateBuf = some i) ∧ (lbaIn (entExtents (s.entry p e)) (n / 512) = some a) ∧ ((s.port p).cmds =
        []) ∧ (0 < (s.port p).depth))
    ∧ (∃ (s : Machine.State) (c : Fin 256) (d : Desc), ((s.startable ↑c fun d ↦ isOp 24 d && d.arg 0 == 2) = some d) ∧ (PlatesUsable s
        d.magPort) ∧ ((s.fnAbsent 13 && s.fnAbsent 14) = true)) :=
  ⟨⟨{ (rf (Reg.MAG_PSTAT ((dsc 27 4 0 0 [0]).magPort)) F.MAG_PSTAT_STATE 0 <| rf (Reg.HST_CSTAT 3) F.HST_CSTAT_RUN 1 State.reset) with hst.clients := [(3, { Client.init with descs := [(dsc 27 4 0 0 [0])] })] },
      3, (dsc 27 4 0 0 [0]), (.plateDelete 3), (isOp 0x1B), by decide +kernel, by simp, by decide +kernel⟩,
   ⟨{ (rf (Reg.MAG_NSZE_LO 0) ⟨31, 0⟩ 256000 <| rf (Reg.MAG_PSTAT 0) F.MAG_PSTAT_STATE 5 <| rf (Reg.HST_CSTAT 3) F.HST_CSTAT_RUN 1 State.reset) with hst.clients := [(3, { Client.init with descs := [(dsc 24 28 0 0 [1, 1, 1])] })], mag.ports := [((dsc 24 28 0 0 [1, 1, 1]).magPort, { MagPort.init with updates := [] })] },
       3, (dsc 24 28 0 0 [1, 1, 1]), 0, [(4, 1)], by unfold PlatesUsable; decide +kernel⟩,
   ⟨{ (rf (Reg.MAG_PSTAT 0) F.MAG_PSTAT_STATE 5 <| rf (Reg.HST_CSTAT 3) F.HST_CSTAT_RUN 1 State.reset) with hst.clients := [(3, { Client.init with descs := [(dsc 24 4 0 0 [2])] })] },
       3, (dsc 24 4 0 0 [2]), by unfold PlatesUsable; decide +kernel⟩,
   ⟨{ (rf (Reg.MAG_PSTAT 0) F.MAG_PSTAT_STATE 5 <| rf (Reg.HST_CSTAT 3) F.HST_CSTAT_RUN 1 State.reset) with hst.linkUp := true, hst.clients := [(3, { Client.init with descs := [(dsc 24 432 0 0 [2])] })], mag.ports := [(0, { MagPort.init with dir := openDir, owner := [(0, 4)] })] },
       3, (dsc 24 432 0 0 [2]), dirEntry openDir 0, by unfold PlatesUsable; decide +kernel⟩,
   ⟨{ (rf (Reg.MAG_PSTAT 0) F.MAG_PSTAT_STATE 5 <| rf (Reg.HST_CSTAT 3) F.HST_CSTAT_RUN 1 State.reset) with hst.clients := [(3, { Client.init with descs := [(dsc 24 4 0 0 [3])] })] },
       3, (dsc 24 4 0 0 [3]), by unfold PlatesUsable; decide +kernel⟩,
   ⟨{ (rf (Reg.MAG_PSTAT 0) F.MAG_PSTAT_STATE 5 <| rf (Reg.HST_CSTAT 3) F.HST_CSTAT_RUN 1 State.reset) with hst.clients := [(3, { Client.init with descs := [(dsc 24 4 0 0 [3])] })], mag.ports := [(0, { MagPort.init with dir := openDir, owner := [(0, 4)] })] },
       3, (dsc 24 4 0 0 [3]), dirEntry openDir 0, by unfold PlatesUsable; decide +kernel⟩,
   ⟨{ (rf (Reg.MAG_PSTAT 0) F.MAG_PSTAT_STATE 5 <| rf (Reg.HST_CSTAT 3) F.HST_CSTAT_RUN 1 State.reset) with hst.clients := [(3, { Client.init with descs := [(dsc 25 20 0 0 [256])] })] },
       3, (dsc 25 20 0 0 [256]), 24, by unfold PlatesUsable; decide +kernel⟩,
   ⟨{ (rf Reg.FST_ALLOC F.FST_ALLOC_PLATE_N 4 <| rf Reg.SCN_GEOM F.SCN_GEOM_WIDTH 8 <| rf Reg.SCN_GEOM F.SCN_GEOM_HEIGHT 8 <| rf (Reg.MAG_PSTAT 0) F.MAG_PSTAT_STATE 5 <| rf (Reg.HST_CSTAT 3) F.HST_CSTAT_RUN 1 State.reset) with hst.clients := [(3, { Client.init with descs := [(dsc 25 20 0 0 [256, 0, 5, 0, 1])] })], mag.ports := [(0, { MagPort.init with dir := closedDir })] },
       3, (dsc 25 20 0 0 [256, 0, 5, 0, 1]), 0, by unfold PlatesUsable; decide +kernel⟩,
   ⟨{ (rf (Reg.MAG_PSTAT 0) F.MAG_PSTAT_STATE 5 <| rf (Reg.HST_CSTAT 3) F.HST_CSTAT_RUN 1 State.reset) with hst.clients := [(3, { Client.init with descs := [(dsc 25 20 0 0 [512, 16])] })] },
       3, (dsc 25 20 0 0 [512, 16]), by unfold PlatesUsable; decide +kernel⟩,
   ⟨{ (rf (Reg.MAG_PSTAT 0) F.MAG_PSTAT_STATE 5 <| rf (Reg.HST_CSTAT 3) F.HST_CSTAT_RUN 1 State.reset) with hst.clients := [(3, { Client.init with descs := [(dsc 25 20 0 0 [512, 0])] })], mag.scheds := [(0, some ⟨0, 0, 0, 0, 0, 5, 1, 0, none⟩)] },
       3, (dsc 25 20 0 0 [512, 0]), (⟨0, 0, 0, 0, 0, 5, 1, 0, none⟩ : Sched), by unfold PlatesUsable; decide +kernel⟩,
   ⟨{ (rf (Reg.MAG_PSTAT 0) F.MAG_PSTAT_STATE 5 <| rf (Reg.HST_CSTAT 3) F.HST_CSTAT_RUN 1 State.reset) with hst.clients := [(3, { Client.init with descs := [(dsc 26 8 0 0 [0, 0])] })] },
       3, (dsc 26 8 0 0 [0, 0]), by unfold PlatesUsable; decide +kernel⟩,
   ⟨{ (rf (Reg.MAG_PSTAT 0) F.MAG_PSTAT_STATE 5 <| rf (Reg.HST_CSTAT 3) F.HST_CSTAT_RUN 1 State.reset) with hst.clients := [(3, { Client.init with descs := [(dsc 26 8 0 0 [0, 0])] })], mag.ports := [(0, { MagPort.init with dir := closedDir })] },
       3, (dsc 26 8 0 0 [0, 0]), 1024, by unfold PlatesUsable; decide +kernel⟩,
   ⟨{ (rf (Reg.MAG_PSTAT 0) F.MAG_PSTAT_STATE 5 <| rf (Reg.HST_CSTAT 3) F.HST_CSTAT_RUN 1 State.reset) with hst.clients := [(3, { Client.init with descs := [(dsc 26 8 0 0 [1, 0])] })], mag.ports := [(0, { MagPort.init with dir := closedDir })] },
       3, (dsc 26 8 0 0 [1, 0]), by unfold PlatesUsable; decide +kernel⟩,
   ⟨{ (rf (Reg.MAG_PSTAT 0) F.MAG_PSTAT_STATE 5 <| rf (Reg.HST_CSTAT 3) F.HST_CSTAT_RUN 1 State.reset) with hst.clients := [(3, { Client.init with descs := [(dsc 26 8 0 432 [1, 0])] })], mag.ports := [(0, { MagPort.init with dir := closedDir })] },
       3, (dsc 26 8 0 432 [1, 0]), 1024, by unfold PlatesUsable; decide +kernel⟩,
   ⟨{ (rf (Reg.MAG_PSTAT 0) F.MAG_PSTAT_STATE 5 <| rf (Reg.HST_CSTAT 3) F.HST_CSTAT_RUN 1 State.reset) with hst.clients := [(3, { Client.init with descs := [(dsc 26 8 0 256 [2])] })] },
       3, (dsc 26 8 0 256 [2]), by unfold PlatesUsable; decide +kernel⟩,
   ⟨{ (rf (Reg.MAG_PSTAT 0) F.MAG_PSTAT_STATE 5 <| rf (Reg.HST_CSTAT 3) F.HST_CSTAT_RUN 1 State.reset) with hst.clients := [(3, { Client.init with descs := [(dsc 27 4 0 0 [0])] })] },
       3, (dsc 27 4 0 0 [0]), by unfold PlatesUsable; decide +kernel⟩,
   ⟨{ (rf (Reg.MAG_PSTAT 0) F.MAG_PSTAT_STATE 5 <| rf (Reg.HST_CSTAT 3) F.HST_CSTAT_RUN 1 State.reset) with hst.clients := [(3, { Client.init with descs := [(dsc 27 4 0 0 [0])] })], mag.ports := [(0, { MagPort.init with dir := closedDir })] },
       3, (dsc 27 4 0 0 [0]), by unfold PlatesUsable; decide +kernel⟩,
   ⟨State.reset, by decide +kernel⟩,
   ⟨{ (rf (Reg.GEN_SLOT 0) ⟨31, 0⟩ 0 <| rf Reg.FST_ALLOC F.FST_ALLOC_PLATE_N 4 <| rf Reg.GEN_STAT F.GEN_STAT_NSLOT 1 State.reset) with mag.ports := [(0, { MagPort.init with dir := closedDir })], mag.scheds := [(0, some ⟨0, 0, 0, 0, 0, 5, 1, 0, none⟩)], fst.place := [(0x4000, ⟨0, 1, 0, 64, 64⟩)] },
       5, 0, 0, 0, 0, 0, 0, 0, 1024, rfl, by decide +kernel⟩,
   ⟨{ (rf Reg.PWR_LOCKOFF ⟨31, 0⟩ 6291456 <| rf (Reg.MAG_PSTAT 0) F.MAG_PSTAT_STATE 5 <| rf (Reg.HST_CSTAT 3) F.HST_CSTAT_RUN 1 State.reset) with hst.clients := [(3, { Client.init with descs := [(dsc 24 4 0 0 [2])] })] },
       3, (dsc 24 4 0 0 [2]), by unfold PlatesUsable; decide +kernel⟩⟩

/-- The hypotheses of each clause of `Genlock` can be met. -/
theorem witness_Genlock :
    (∃ (s : Machine.State) (k : Fin 3) (h : ℕ), (s.isReady 7 = true) ∧ (s.gen.lineKind = ↑k) ∧ (15 ≤ s.gen.lineRun) ∧ (s.fmtFits ↑k =
        true) ∧ (16800 ≤ h) ∧ (h ≤ 84000))
    ∧ (∃ (s : Machine.State) (k : Fin 3), (s.isReady 7 = true) ∧ (s.gen.lineKind ≠ ↑k))
    ∧ (∃ (s : Machine.State) (t0 : ℕ) (u : ℕ) (n : ℕ), (s.isReady 7 = true) ∧ (s.getF Reg.GEN_STAT F.GEN_STAT_FMT_DET ≠ 0) ∧ (500 ≤ n) ∧
        (n ≤ 1250) ∧ (s.genSrc = 1) ∧ (s.lockState = 4) ∧ (s.gen.lastSync = some u) ∧ (s.rateFits (s.syncPeriod n (t0 - u)) = true) ∧
        ((s.phaseError t0).natAbs ≤ 1200))
    ∧ (∃ (s : Machine.State) (t0 : ℕ) (u : ℕ) (n : ℕ), (s.isReady 7 = true) ∧ (s.getF Reg.GEN_STAT F.GEN_STAT_FMT_DET ≠ 0) ∧ (500 ≤ n) ∧
        (n ≤ 1250) ∧ (s.genSrc = 1) ∧ (s.lockState = 3) ∧ (s.gen.lastSync = some u) ∧ (s.rateFits (s.syncPeriod n (t0 - u)) = true) ∧
        ((s.phaseError t0).natAbs ≤ 120) ∧ (7 ≤ s.gen.okRun))
    ∧ (∃ (s : Machine.State) (t0 : ℕ) (u : ℕ) (n : ℕ), (s.isReady 7 = true) ∧ (s.getF Reg.GEN_STAT F.GEN_STAT_FMT_DET ≠ 0) ∧ (500 ≤ n) ∧
        (n ≤ 1250) ∧ (s.genSrc = 1) ∧ (s.lockState ≠ 7) ∧ (s.lockState ≠ 6) ∧ (s.gen.lastSync = some u) ∧ (s.rateFits (s.syncPeriod n (t0 -
        u)) = false))
    ∧ (∃ (s : Machine.State) (n : ℕ), s.getF Reg.GEN_STAT F.GEN_STAT_FMT_DET = 0 ∨ n < 500 ∨ 1250 < n)
    ∧ (∃ (s : Machine.State), (s.genSrc = 1) ∧ (s.lockState = 4))
    ∧ (∃ (s : Machine.State), (s.genSrc = 1) ∧ (s.lockState ≠ 7) ∧ (s.lockState ≠ 4))
    ∧ (∃ (s : Machine.State), s.genSrc ≠ 1 ∨ s.lockState = 7)
    ∧ (∃ (s : Machine.State) (k : Fin 3) (h : ℕ), (s.isReady 7 = true) ∧ (s.gen.lineKind = ↑k) ∧ (15 ≤ s.gen.lineRun) ∧ (s.fmtFits ↑k =
        false ∨ h < 16800 ∨ 84000 < h)) :=
  ⟨⟨{ (ready [7] <| rf Reg.GEN_CFG F.GEN_CFG_FMT 0 State.reset) with gen.lineKind := 1, gen.lineRun := 15 }, 1, 16800, by decide +kernel⟩,
   ⟨(ready [7] <| State.reset), 1, by decide +kernel⟩,
   ⟨{ (ready [7] <| rf Reg.GEN_PERIOD ⟨31, 0⟩ 20000000 <| rf Reg.GEN_LINE F.GEN_LINE_H 40000 <| rf Reg.GEN_STAT F.GEN_STAT_STATE 4 <| rf Reg.GEN_CFG F.GEN_CFG_SRC 1 <| rf Reg.GEN_STAT F.GEN_STAT_FMT_DET 1 State.reset) with gen.lastSync := some 0 },
       20000000, 0, 500, by decide +kernel⟩,
   ⟨{ (ready [7] <| rf Reg.GEN_PERIOD ⟨31, 0⟩ 20000000 <| rf Reg.GEN_LINE F.GEN_LINE_H 40000 <| rf Reg.GEN_STAT F.GEN_STAT_STATE 3 <| rf Reg.GEN_CFG F.GEN_CFG_SRC 1 <| rf Reg.GEN_STAT F.GEN_STAT_FMT_DET 1 State.reset) with gen.lastSync := some 0, gen.okRun := 7 },
       20000000, 0, 500, by decide +kernel⟩,
   ⟨{ (ready [7] <| rf Reg.GEN_PERIOD ⟨31, 0⟩ 1000 <| rf Reg.GEN_LINE F.GEN_LINE_H 40000 <| rf Reg.GEN_STAT F.GEN_STAT_STATE 0 <| rf Reg.GEN_CFG F.GEN_CFG_SRC 1 <| rf Reg.GEN_STAT F.GEN_STAT_FMT_DET 1 State.reset) with gen.lastSync := some 0 },
       20000000, 0, 500, by decide +kernel⟩,
   ⟨(rf Reg.GEN_STAT F.GEN_STAT_FMT_DET 0 State.reset), 0, by decide +kernel⟩,
   ⟨(rf Reg.GEN_STAT F.GEN_STAT_STATE 4 <| rf Reg.GEN_CFG F.GEN_CFG_SRC 1 State.reset), by decide +kernel⟩,
   ⟨(rf Reg.GEN_STAT F.GEN_STAT_STATE 0 <| rf Reg.GEN_CFG F.GEN_CFG_SRC 1 State.reset), by decide +kernel⟩,
   ⟨(rf Reg.GEN_CFG F.GEN_CFG_SRC 0 State.reset), by decide +kernel⟩,
   ⟨{ (ready [7] <| State.reset) with gen.lineKind := 1, gen.lineRun := 15 }, 1, 100, by decide +kernel⟩⟩

/-- The hypotheses of each clause of `MagazinePorts` can be met. -/
theorem witness_MagazinePorts :
    (∃ (s : Machine.State) (p : Fin 4), (s.magState ↑p = 0) ∧ ((s.port ↑p).present = false) ∧ ((s.port ↑p).reseat = false) ∧ (s.flag
        (Reg.MAG_CFG ↑p) F.MAG_CFG_EN = true) ∧ (s.isReady 15 = true) ∧ (s.isOn (11 + ↑p) = true))
    ∧ (∃ (s : Machine.State) (p : Fin 4), s.magState ↑p = 5)
    ∧ (∃ (s : Machine.State) (p : Fin 4), s.magState ↑p = 8)
    ∧ (∃ (s : Machine.State) (p : Fin 4), s.magState ↑p ≠ 1)
    ∧ (∃ (s : Machine.State) (p : Fin 4), (s.magState ↑p = 1) ∧ ((s.port ↑p).step = 0))
    ∧ (∃ (s : Machine.State) (p : Fin 4), (s.magState ↑p = 1) ∧ ((s.port ↑p).step = 3))
    ∧ (∃ (s : Machine.State) (p : Fin 4) (nvme : Bool) (sw : Bool) (q : BitVec 16), (s.magState ↑p = 1) ∧ ((s.port ↑p).step = 4) ∧ (nvme =
        false ∨ sw = true ∨ q.toNat < 15))
    ∧ (∃ (s : Machine.State) (p : Fin 4) (q : BitVec 16), (s.magState ↑p = 1) ∧ ((s.port ↑p).step = 4) ∧ (15 ≤ q.toNat) ∧ ((s.port
        ↑p).cmds = []))
    ∧ (∃ (s : Machine.State) (p : Fin 4) (tag : ℕ), ∀ c ∈ (s.port ↑p).cmds, c.tag ≠ tag ∨ c.sent = false)
    ∧ (∃ (s : Machine.State) (p : Fin 4) (tag : ℕ) (cmd : NvmeCmd), ((s.port ↑p).cmds =
        [{ tag := tag, use := MagUse.smart, cmd := cmd, sent := true }]) ∧ ((s.port ↑p).unmounting = none))
    ∧ (∃ (s : Machine.State) (p : Fin 4) (tag : ℕ) (n : ℕ) (cmd : NvmeCmd), (s.magState ↑p = 1) ∧ ((s.port ↑p).cmds =
        [{ tag := tag, use := MagUse.identify n, cmd := cmd, sent := true }]) ∧ ((s.port ↑p).unmounting = none))
    ∧ (∃ (s : Machine.State) (p : Fin 4) (tag : ℕ) (cmd : NvmeCmd), ((s.port ↑p).cmds =
        [{ tag := tag, use := MagUse.unmount 3, cmd := cmd, sent := true }]) ∧ ((s.port ↑p).unmounting = some 6) ∧ (s.flag (Reg.MAG_CFG ↑p)
        F.MAG_CFG_EN = true))
    ∧ (∃ (s : Machine.State) (p : Fin 4) (tag : ℕ) (cmd : NvmeCmd), ((s.port ↑p).cmds =
        [{ tag := tag, use := MagUse.unmount 3, cmd := cmd, sent := true }]) ∧ (s.flag (Reg.MAG_CFG ↑p) F.MAG_CFG_EN = false))
    ∧ (∃ (s : Machine.State) (p : Fin 4) (tag : ℕ) (cmd : NvmeCmd), ((s.port ↑p).cmds =
        [{ tag := tag, use := MagUse.unmount 3, cmd := cmd, sent := true }]) ∧ ((s.port ↑p).unmounting = some 8) ∧ (s.flag (Reg.MAG_CFG ↑p)
        F.MAG_CFG_EN = true) ∧ ((s.port ↑p).present = true) ∧ (s.isReady 15 = true) ∧ (s.isOn (11 + ↑p) = true))
    ∧ (∃ (s : Machine.State) (p : Fin 4), s.magPowered ↑p = false)
    ∧ (∃ (s : Machine.State) (p : Fin 4), (s.magPowered ↑p = true) ∧ ((s.port ↑p).present = true) ∧ (s.platesInFlight ↑p = false))
    ∧ (∃ (s : Machine.State) (p : Fin 4), (s.magState ↑p ≠ 3) ∧ (s.magState ↑p ≠ 4) ∧ (s.magState ↑p ≠ 5))
    ∧ (∃ (s : Machine.State) (p : Fin 4), (s.magState ↑p = 5) ∧ ((s.port ↑p).cmds = []))
    ∧ (∃ (s : Machine.State) (p : Fin 4) (v : Word), (Reaches s (Reg.MAG_CTL ↑p)) ∧ (fieldOf F.MAG_CTL_FORMAT v = 0) ∧ (s.magState ↑p = 5)
        ∧ ((s.port ↑p).unmounting = none) ∧ ((s.port ↑p).formatting = false) ∧ (s.platesInFlight ↑p = false) ∧ ((s.port ↑p).cmds = []) ∧ (0 <
        (s.port ↑p).depth) ∧ (s.mag.scheds = []) ∧ (s.mag.stages = []))
    ∧ (∃ (s : Machine.State) (p : Fin 4) (v : Word), (Reaches s (Reg.MAG_CTL ↑p)) ∧ (fieldOf F.MAG_CTL_FORMAT v = 0) ∧ ((s.port
        ↑p).unmounting.isSome = true))
    ∧ (∃ (s : Machine.State) (p : Fin 4) (v : Word), (Reaches s (Reg.MAG_CTL ↑p)) ∧ (fieldOf F.MAG_CTL_UNMOUNT v = 0) ∧ (fieldOf
        F.MAG_CTL_KEY v ≠ 61607))
    ∧ (∃ (s : Machine.State) (p : Fin 4) (v : Word), (Reaches s (Reg.MAG_CTL ↑p)) ∧ (fieldOf F.MAG_CTL_UNMOUNT v = 0) ∧ (fieldOf
        F.MAG_CTL_KEY v = 61607) ∧ (s.magState ↑p = 3 ∨ s.magState ↑p = 4) ∧ ((s.port ↑p).formatting = false) ∧ ((s.port ↑p).unmounting =
        none)) :=
  ⟨⟨{ (on [(11 + 1)] <| ready [15] <| rf (Reg.MAG_CFG 1) F.MAG_CFG_EN 1 <| rf (Reg.MAG_PSTAT 1) F.MAG_PSTAT_STATE 0 State.reset) with mag.ports := [(1, { MagPort.init with present := false, reseat := false })] },
      1, by decide +kernel⟩,
   ⟨(rf (Reg.MAG_PSTAT 1) F.MAG_PSTAT_STATE 5 State.reset), 1, by decide +kernel⟩,
   ⟨(rf (Reg.MAG_PSTAT 1) F.MAG_PSTAT_STATE 8 State.reset), 1, by decide +kernel⟩,
   ⟨(rf (Reg.MAG_PSTAT 1) F.MAG_PSTAT_STATE 0 State.reset), 1, by decide +kernel⟩,
   ⟨{ (rf (Reg.MAG_PSTAT 1) F.MAG_PSTAT_STATE 1 State.reset) with mag.ports := [(1, { MagPort.init with step := 0 })] }, 1,
       by decide +kernel⟩,
   ⟨{ (rf (Reg.MAG_PSTAT 1) F.MAG_PSTAT_STATE 1 State.reset) with mag.ports := [(1, { MagPort.init with step := 3 })] }, 1,
       by decide +kernel⟩,
   ⟨{ (rf (Reg.MAG_PSTAT 1) F.MAG_PSTAT_STATE 1 State.reset) with mag.ports := [(1, { MagPort.init with step := 4 })] }, 1, false, false,
       0, by decide +kernel⟩,
   ⟨{ (rf (Reg.MAG_PSTAT 1) F.MAG_PSTAT_STATE 1 State.reset) with mag.ports := [(1, { MagPort.init with step := 4, cmds := [] })] }, 1,
       15, by decide +kernel⟩,
   ⟨State.reset, 1, 0, by decide +kernel⟩,
   ⟨{ State.reset with mag.ports := [(1, { MagPort.init with cmds := [{ tag := 0, use := MagUse.smart, cmd := .flush, sent := true }], unmounting := none })] },
       1, 0, .flush, by decide +kernel⟩,
   ⟨{ (rf (Reg.MAG_PSTAT 1) F.MAG_PSTAT_STATE 1 State.reset) with mag.ports := [(1, { MagPort.init with cmds := [{ tag := 0, use := MagUse.identify 0, cmd := .flush, sent := true }], unmounting := none })] },
       1, 0, 0, .flush, by decide +kernel⟩,
   ⟨{ (rf (Reg.MAG_CFG 1) F.MAG_CFG_EN 1 State.reset) with mag.ports := [(1, { MagPort.init with cmds := [{ tag := 0, use := MagUse.unmount 3, cmd := .flush, sent := true }], unmounting := some 6 })] },
       1, 0, .flush, by decide +kernel⟩,
   ⟨{ (rf (Reg.MAG_CFG 1) F.MAG_CFG_EN 0 State.reset) with mag.ports := [(1, { MagPort.init with cmds := [{ tag := 0, use := MagUse.unmount 3, cmd := .flush, sent := true }] })] },
       1, 0, .flush, by decide +kernel⟩,
   ⟨{ (on [(11 + 1)] <| ready [15] <| rf (Reg.MAG_CFG 1) F.MAG_CFG_EN 1 State.reset) with mag.ports := [(1, { MagPort.init with cmds := [{ tag := 0, use := MagUse.unmount 3, cmd := .flush, sent := true }], unmounting := some 8, present := true })] },
       1, 0, .flush, by decide +kernel⟩,
   ⟨State.reset, 1, by decide +kernel⟩,
   ⟨{ (rf (Reg.MAG_PSTAT 1) F.MAG_PSTAT_STATE 5 State.reset) with mag.ports := [(1, { MagPort.init with present := true })] }, 1,
       by decide +kernel⟩,
   ⟨(rf (Reg.MAG_PSTAT 1) F.MAG_PSTAT_STATE 0 State.reset), 1, by decide +kernel⟩,
   ⟨{ (rf (Reg.MAG_PSTAT 1) F.MAG_PSTAT_STATE 5 State.reset) with mag.ports := [(1, { MagPort.init with cmds := [] })] }, 1,
       by decide +kernel⟩,
   ⟨{ (on [2, (domainOf (Reg.MAG_CTL 1))] <| rf (Reg.MAG_PSTAT 1) F.MAG_PSTAT_STATE 5 State.reset) with mag.ports := [(1, { MagPort.init with unmounting := none, formatting := false, cmds := [] })] },
       1, 0, by unfold Reaches; decide +kernel⟩,
   ⟨{ (on [2, (domainOf (Reg.MAG_CTL 1))] <| State.reset) with mag.ports := [(1, { MagPort.init with unmounting := some 6 })] }, 1, 0,
       by unfold Reaches; decide +kernel⟩,
   ⟨(on [2, (domainOf (Reg.MAG_CTL 1))] <| State.reset), 1, 0, by unfold Reaches; decide +kernel⟩,
   ⟨{ (on [2, (domainOf (Reg.MAG_CTL 1))] <| rf (Reg.MAG_PSTAT 1) F.MAG_PSTAT_STATE 3 State.reset) with mag.ports := [(1, { MagPort.init with formatting := false, unmounting := none })] },
       1, withField F.MAG_CTL_KEY 61607 0, by unfold Reaches; decide +kernel⟩⟩

/-- The hypotheses of each clause of `DomainsWakeAndSleep` can be met. -/
theorem witness_DomainsWakeAndSleep :
    (∃ (s : Machine.State) (off : ℕ), (s.hostReaches = true) ∧ (s.coreOff = false) ∧ (s.isOn (domainOf off) = false) ∧ (s.lockedOff
        (domainOf off) = false))
    ∧ (∃ (s : Machine.State) (off : ℕ), (s.hostReaches = true) ∧ (s.coreOff = false) ∧ (s.isOn (domainOf off) = false) ∧ (s.lockedOff
        (domainOf off) = true) ∧ (off ≠ statusOf (domainOf off)))
    ∧ (∃ (s : Machine.State) (d : Fin 34), (s.hostReaches = true) ∧ (s.coreOff = false) ∧ (3 ≤ ↑d) ∧ (↑d ≤ 10) ∧ (domainOf (statusOf ↑d) =
        ↑d) ∧ (s.isOn ↑d = false) ∧ (s.lockedOff ↑d = true))
    ∧ (∃ (s : Machine.State) (d : Fin 34), (s.hostReaches = true) ∧ (s.coreOff = false) ∧ (11 ≤ ↑d) ∧ (↑d ≤ 14) ∧ (domainOf (statusOf ↑d)
        = ↑d) ∧ (s.isOn ↑d = false) ∧ (s.lockedOff ↑d = true))
    ∧ (∃ (s : Machine.State) (d : Fin 34), (s.coreOff = false) ∧ (s.isOn ↑d = false) ∧ (s.lockedOff ↑d = false))
    ∧ (∃ (s : Machine.State) (d : Fin 34), (s.coreOff = false) ∧ (s.isOn ↑d = false) ∧ (s.lockedOff ↑d = true))
    ∧ (∃ (s : Machine.State) (off : ℕ), (s.hostReaches = true) ∧ (s.coreOff = false) ∧ (s.isOn (domainOf off) = false) ∧ (s.lockedOff
        (domainOf off) = true))
    ∧ (∃ (s : Machine.State) (d : Fin 34), s.isOn ↑d = true)
    ∧ (∃ (s : Machine.State) (off : ℕ), s.isOn (domainOf off) = true ∨ s.hostReaches = false)
    ∧ (∃ (s : Machine.State) (d : Fin 34), (s.isOn ↑d = false) ∧ (s.heldOff ↑d = false) ∧ (s.pwr.waking.contains ↑d = true) ∧ ((domainDeps
        ↑d).all s.isOn = true))
    ∧ (∃ (s : Machine.State) (d : Fin 34), (s.isOn ↑d = false) ∧ (s.heldOff ↑d = false) ∧ (s.pwr.waking.contains ↑d = true) ∧ ((domainDeps
        ↑d).all s.isOn = true) ∧ (s.pwr.stalled = []) ∧ (s.hst.winWait = []) ∧ (s.hst.lists = []) ∧ (s.tabs = []))
    ∧ (∃ (s : Machine.State) (d : Fin 34) (off : ℕ), (s.isOn ↑d = false) ∧ (s.pwr.waking.contains ↑d = true) ∧ (s.pwr.stalled = [(↑d,
        Stalled.read off none)]) ∧ (s.hst.winWait = []) ∧ (s.hst.lists = []) ∧ (s.tabs = []) ∧ (s.thc.queue = []))
    ∧ (∃ (s : Machine.State) (d : Fin 34), (s.isOn ↑d = false) ∧ (s.pwr.waking.contains ↑d = true))
    ∧ (∃ (s : Machine.State) (d : Fin 34), s.isOn ↑d = true ∨ s.pwr.waking.contains ↑d = false)
    ∧ (∃ (s : Machine.State) (d : Fin 34), (s.isOn ↑d = true) ∧ (s.autoOff ↑d = true) ∧ (((domainUsers ↑d).all fun u ↦ !s.isOn u) = true)
        ∧ (∀ e ∈ s.pwr.stalled, e.1 ≠ ↑d))
    ∧ (∃ (s : Machine.State) (d : Fin 34), s.autoOff ↑d = false) :=
  ⟨⟨{ (locked [] <| on [2] <| State.reset) with rst.applying := none }, 0, by decide +kernel⟩,
   ⟨{ (locked [(domainOf 0)] <| on [2] <| State.reset) with rst.applying := none }, 0, by decide +kernel⟩,
   ⟨{ (locked [7] <| on [2] <| State.reset) with rst.applying := none }, 7, by decide +kernel⟩,
   ⟨{ (locked [11] <| on [2] <| State.reset) with rst.applying := none }, 11, by decide +kernel⟩,
   ⟨{ (locked [] <| on [] <| State.reset) with rst.applying := none }, 20, by decide +kernel⟩,
   ⟨{ (locked [20] <| on [] <| State.reset) with rst.applying := none }, 20, by decide +kernel⟩,
   ⟨{ (locked [(domainOf 0)] <| on [2] <| State.reset) with rst.applying := none }, 0, by decide +kernel⟩,
   ⟨(on [20] <| State.reset), 20, by decide +kernel⟩,
   ⟨(on [(domainOf 0)] <| State.reset), 0, by decide +kernel⟩,
   ⟨{ (on ([23, 24] ++ domainDeps (20)) <| State.reset) with rst.applying := none, pwr.waking := [20] }, 20, by decide +kernel⟩,
   ⟨{ (on ([23, 24] ++ domainDeps (20)) <| State.reset) with rst.applying := none, pwr.waking := [20] }, 20, by decide +kernel⟩,
   ⟨{ (on [] <| State.reset) with pwr.stalled := [(20, Stalled.read 0 none)], pwr.waking := [20] }, 20, 0, by decide +kernel⟩,
   ⟨{ (on [] <| State.reset) with pwr.waking := [20] }, 20, by decide +kernel⟩,
   ⟨(on [20] <| State.reset), 20, by decide +kernel⟩,
   ⟨(on [20] <| rf Reg.SWG_MODE1 ⟨31, 0⟩ 0 <| rf Reg.SWG_MODE0 ⟨31, 0⟩ 0 <| rf Reg.PWR_AUTO F.PWR_AUTO_SWG_OFF 1 <| rf Reg.PWR_STATE
       F.PWR_STATE_CUR 0 State.reset), 20, by decide +kernel⟩,
   ⟨State.reset, 20, by decide +kernel⟩⟩

/-- The hypotheses of each clause of `HostPortResetAndLink` can be met. -/
theorem witness_HostPortResetAndLink :
    (∃ (s : Machine.State), (s.flag Reg.GBL_STRAP F.GBL_STRAP_HOST_EN = true) ∧ (s.coreOff = false) ∧ (s.rst.hostReset = false) ∧
        (s.rst.waitPanel = none) ∧ (s.pwr.dormant = false) ∧ (s.pwr.heading = false))
    ∧ (∃ (s : Machine.State), s.flag Reg.GBL_STRAP F.GBL_STRAP_HOST_EN = false)
    ∧ (∃ (s : Machine.State), s.coreOff = true)
    ∧ (∃ (s : Machine.State), (s.rst.hostReset = true) ∧ (s.rst.stepsDone.contains 5 = true) ∧ (s.coreOff = false))
    ∧ (∃ (s : Machine.State), (s.rst.hostReset = true) ∧ (s.rst.stepsDone.contains 5 = false))
    ∧ (∃ (s : Machine.State), s.hst.linkUp = true)
    ∧ (∃ (s : Machine.State), (s.hst.linkUp = false) ∧ (s.flag Reg.GBL_STRAP F.GBL_STRAP_HOST_EN = true) ∧ (s.isOn 2 = true) ∧
        (s.rst.hostReset = false) ∧ (s.pwr.dormant = false))
    ∧ (∃ (s : Machine.State) (off : ℕ), s.cfgFixed off = true)
    ∧ (∃ (s : Machine.State) (off : ℕ), s.cfgFixed off = false) :=
  ⟨⟨{ (rf Reg.GBL_STRAP F.GBL_STRAP_HOST_EN 1 State.reset) with rst.applying := none }, by decide +kernel⟩,
   ⟨(rf Reg.GBL_STRAP F.GBL_STRAP_HOST_EN 0 State.reset), by decide +kernel⟩,
   ⟨State.reset, by decide +kernel⟩,
   ⟨{ State.reset with rst.hostReset := true, rst.applying := none, rst.stepsDone := [5] }, by decide +kernel⟩,
   ⟨{ State.reset with rst.hostReset := true }, by decide +kernel⟩,
   ⟨{ State.reset with hst.linkUp := true }, by decide +kernel⟩,
   ⟨(on [2] <| rf Reg.GBL_STRAP F.GBL_STRAP_HOST_EN 1 State.reset), by decide +kernel⟩,
   ⟨State.reset, 0, by decide +kernel⟩,
   ⟨State.reset, 0x10C, by decide +kernel⟩⟩

/-- The hypotheses of each clause of `HeadOfRing` can be met. -/
theorem witness_HeadOfRing :
    (∃ (s : Machine.State) (c : Fin 256) (d : Desc), (headDesc s ↑c = some d) ∧ (d.stage = DescStage.fetched) ∧ (s.flag (Reg.HST_CSTAT ↑c)
        F.HST_CSTAT_RUN = true) ∧ (opcodes.contains d.opcode = false))
    ∧ (∃ (s : Machine.State) (c : Fin 256) (d : Desc), (headDesc s ↑c = some d) ∧ (d.stage = DescStage.fetched) ∧ (s.flag (Reg.HST_CSTAT
        ↑c) F.HST_CSTAT_RUN = true) ∧ (d.opcode = 0) ∧ (d.flags < 4) ∧ (d.length ≠ 4294967295))
    ∧ (∃ (s : Machine.State) (c : Fin 256) (d : Desc), (headDesc s ↑c = some d) ∧ (d.stage = DescStage.fetched) ∧ (s.flag (Reg.HST_CSTAT
        ↑c) F.HST_CSTAT_RUN = true) ∧ (d.opcode = 3) ∧ (d.flags < 4) ∧ (d.length = 4) ∧ (s.isReady 0 = false) ∧ (s.flag (Reg.HST_CCFG ↑c)
        F.HST_CCFG_FAIL_FAST = true))
    ∧ (∃ (s : Machine.State) (c : Fin 256) (d : Desc), (headDesc s ↑c = some d) ∧ (d.stage = DescStage.fetched) ∧ (s.flag (Reg.HST_CSTAT
        ↑c) F.HST_CSTAT_RUN = true) ∧ (d.opcode = 3) ∧ (d.flags < 4) ∧ (d.length = 4) ∧ (s.isReady 0 = false) ∧ (s.flag (Reg.HST_CCFG ↑c)
        F.HST_CCFG_FAIL_FAST = false))
    ∧ (∃ (s : Machine.State) (c : Fin 256) (d : Desc), (List.find? (fun d ↦ d.stage == DescStage.held true) (s.client ↑c).descs = some d)
        ∧ (s.needsMet d = false) ∧ (s.flag (Reg.HST_CSTAT ↑c) F.HST_CSTAT_RUN = true) ∧ (d.opcode ≠ 2))
    ∧ (∃ (s : Machine.State) (c : Fin 256) (d : Desc), (List.find? (fun d ↦ d.stage == DescStage.held true) (s.client ↑c).descs = some d)
        ∧ (s.needsMet d = true ∨ s.flag (Reg.HST_CSTAT ↑c) F.HST_CSTAT_RUN = false))
    ∧ (∃ (s : Machine.State) (c : Fin 256) (d : Desc), (List.find? (fun d ↦ d.stage == DescStage.held true || d.stage == DescStage.held
        false) (s.client ↑c).descs = some d) ∧ (s.needsMet d = true))
    ∧ (∃ (s : Machine.State) (c : Fin 256) (d : Desc), (List.find? (fun d ↦ d.stage == DescStage.held true || d.stage == DescStage.held
        false) (s.client ↑c).descs = some d) ∧ (s.needsMet d = false))
    ∧ (∃ (s : Machine.State) (c : Fin 256) (d : Desc), (s.startable ↑c fun d ↦ d.opcode == 0 || d.length == 0) = some d)
    ∧ (∃ (s : Machine.State) (c : Fin 256), (s.startable ↑c fun d ↦ d.opcode == 0 || d.length == 0) = none)
    ∧ (∃ (s : Machine.State) (c : Fin 256) (d : Desc) (sq : ℕ) (cq : ℕ) (tail : ℕ), ((s.client ↑c).descs = [d]) ∧ (d.stage =
        DescStage.ready) ∧ (d.opcode = 0) ∧ (d.txn = 0) ∧ (s.arbiter = some ↑c) ∧ ((s.client ↑c).cqDead = false) ∧ ((s.client ↑c).discardDue =
        false) ∧ (s.stg.closing = []) ∧ (s.hst.linkUp = true) ∧ (s.rdg.hostTags = []) ∧ (s.rdg.hostWait = []) ∧ (s.flag (Reg.HST_CCFG ↑c)
        F.HST_CCFG_IRQ_EN = false) ∧ (sq = s.sqSize ↑c) ∧ (cq = s.cqSize ↑c) ∧ (s.getF (Reg.HST_CCFG ↑c) F.HST_CCFG_CQ_LOG2 ≤ 10) ∧ (tail =
        s.getF (Reg.HST_CPOS ↑c) F.HST_CPOS_CQ_TAIL)) :=
  ⟨⟨{ (rf (Reg.HST_CSTAT 3) F.HST_CSTAT_RUN 1 State.reset) with hst.clients := [(3, { Client.init with descs := [({ (dsc 85 4 0 0 [0]) with stage := .fetched } : Desc)] })] },
      3, ({ (dsc 85 4 0 0 [0]) with stage := .fetched } : Desc), by decide +kernel⟩,
   ⟨{ (rf (Reg.HST_CSTAT 3) F.HST_CSTAT_RUN 1 State.reset) with hst.clients := [(3, { Client.init with descs := [({ (dsc 0 4 0 0 [0]) with stage := .fetched } : Desc)] })] },
       3, ({ (dsc 0 4 0 0 [0]) with stage := .fetched } : Desc), by decide +kernel⟩,
   ⟨{ (ready [] <| rf (Reg.HST_CCFG 3) F.HST_CCFG_FAIL_FAST 1 <| rf (Reg.HST_CSTAT 3) F.HST_CSTAT_RUN 1 State.reset) with hst.clients := [(3, { Client.init with descs := [({ (dsc 3 4 0 0 [0]) with stage := .fetched } : Desc)] })] },
       3, ({ (dsc 3 4 0 0 [0]) with stage := .fetched } : Desc), by decide +kernel⟩,
   ⟨{ (ready [] <| rf (Reg.HST_CCFG 3) F.HST_CCFG_FAIL_FAST 0 <| rf (Reg.HST_CSTAT 3) F.HST_CSTAT_RUN 1 State.reset) with hst.clients := [(3, { Client.init with descs := [({ (dsc 3 4 0 0 [0]) with stage := .fetched } : Desc)] })] },
       3, ({ (dsc 3 4 0 0 [0]) with stage := .fetched } : Desc), by decide +kernel⟩,
   ⟨{ (rf (Reg.HST_CSTAT 3) F.HST_CSTAT_RUN 1 State.reset) with hst.clients := [(3, { Client.init with descs := [({ (dsc 3 4 0 0 [0]) with stage := .held true } : Desc)] })] },
       3, ({ (dsc 3 4 0 0 [0]) with stage := .held true } : Desc), by decide +kernel⟩,
   ⟨{ State.reset with hst.clients := [(3, { Client.init with descs := [({ (dsc 0 4 0 0 [0]) with stage := .held true } : Desc)] })] }, 3,
       ({ (dsc 0 4 0 0 [0]) with stage := .held true } : Desc), by decide +kernel⟩,
   ⟨{ State.reset with hst.clients := [(3, { Client.init with descs := [({ (dsc 0 4 0 0 [0]) with stage := .held true } : Desc)] })] }, 3,
       ({ (dsc 0 4 0 0 [0]) with stage := .held true } : Desc), by decide +kernel⟩,
   ⟨{ State.reset with hst.clients := [(3, { Client.init with descs := [({ (dsc 3 4 0 0 [0]) with stage := .held false } : Desc)] })] },
       3, ({ (dsc 3 4 0 0 [0]) with stage := .held false } : Desc), by decide +kernel⟩,
   ⟨{ (rf (Reg.HST_CSTAT 3) F.HST_CSTAT_RUN 1 State.reset) with hst.clients := [(3, { Client.init with descs := [(dsc 0 4 0 0 [0])] })] },
       3, (dsc 0 4 0 0 [0]), by decide +kernel⟩,
   ⟨State.reset, 3, by decide +kernel⟩,
   ⟨{ (rf (Reg.HST_CSTAT 3) F.HST_CSTAT_RUN 1 <| rf (Reg.HST_CCFG 3) F.HST_CCFG_CQ_LOG2 0 <| rf (Reg.HST_CCFG 3) F.HST_CCFG_IRQ_EN 0 State.reset) with hst.linkUp := true, hst.clients := [(3, { Client.init with descs := [(dsc 0 4 0 0 [0])], cqDead := false, discardDue := false })] },
       3, (dsc 0 4 0 0 [0]), 64, 64, 0, by decide +kernel⟩⟩

/-- The hypotheses of `CommandReach` can be met. -/
theorem witness_CommandReach :
    ∃ (c : Instr) (s : Machine.State) (t : Machine.State), exec c s = Host.Outcome.next t :=
  ⟨.eventRecordWrite, State.reset, _, rfl⟩

/-- The hypotheses of each clause of `LinkBringUp` can be met. -/
theorem witness_LinkBringUp :
    (∃ (s : Machine.State) (q : Fin 8) (lanes : BitVec 4), (s.lkState ↑q = 1) ∧ (s.minWidth ↑q ≤ popcount (lanes.toNat &&& s.laneEn ↑q) 4))
    ∧ (∃ (s : Machine.State) (q : Fin 8) (lanes : BitVec 4), s.lkState ↑q ≠ 1 ∨ popcount (lanes.toNat &&& s.laneEn ↑q) 4 < s.minWidth ↑q)
    ∧ (∃ (s : Machine.State) (q : Fin 8), s.lkState ↑q = 1)
    ∧ (∃ (s : Machine.State) (q : Fin 8), s.lkState ↑q ≠ 1)
    ∧ (∃ (s : Machine.State) (q : Fin 8) (l : Fin 4), (s.lkState ↑q = 2 ∨ s.lkState ↑q = 3) ∧ (bit (s.laneEn ↑q) ↑l = true) ∧ (s.getF
        (lkBase ↑q) F.RAF_PCFG_FAR_LOOP = 0) ∧ ((s.link ↑q).capPhase = false) ∧ ((s.link ↑q).blocksLeft = 0))
    ∧ (∃ (s : Machine.State) (q : Fin 8) (l : Fin 4), (bit (s.laneEn ↑q) ↑l = false) ∧ (s.lkState ↑q ≠ 9))
    ∧ (∃ (s : Machine.State) (q : Fin 8), s.lkState ↑q = 9)
    ∧ (∃ (s : Machine.State) (q : Fin 8), (s.lkState ↑q = 2 ∨ s.lkState ↑q = 3) ∧ ((s.link ↑q).blocksLeft = 1))
    ∧ (∃ (s : Machine.State) (q : Fin 8), (s.lkState ↑q = 2 ∨ s.lkState ↑q = 3) ∧ (↑q ≠ s.pairLink))
    ∧ (∃ (s : Machine.State) (q : Fin 8), (s.lkState ↑q ≠ 2) ∧ (s.lkState ↑q ≠ 3))
    ∧ (∃ (s : Machine.State) (q : Fin 8) (f : CapFlit), (s.lkState ↑q = 4 ∨ s.lkState ↑q = 6 ∧ (s.link ↑q).capPhase = true) ∧ ((s.link
        ↑q).lastSeen = true) ∧ (f.good = true) ∧ (capFail (↑q) f = none))
    ∧ (∃ (s : Machine.State) (q : Fin 8) (f : CapFlit), (s.lkState ↑q = 4) ∧ ((s.link ↑q).lastSeen = true) ∧ (f.good = true) ∧ (f.ver ≠ 1)
        ∧ (↑q ≠ s.pairLink))
    ∧ (∃ (s : Machine.State) (q : Fin 8) (f : CapFlit), (s.lkState ↑q = 4) ∧ ((s.link ↑q).lastSeen = true) ∧ (f.good = false))
    ∧ (∃ (s : Machine.State) (q : Fin 8), s.lkState ↑q = 4 ∧ (s.link ↑q).lastSeen = false ∨ s.lkState ↑q < 4 ∨ s.lkState ↑q = 5 ∧ (s.link
        ↑q).sawFlit = false)
    ∧ (∃ (s : Machine.State) (q : Fin 8), (s.lkState ↑q = 4) ∧ (↑q ≠ s.pairLink))
    ∧ (∃ (s : Machine.State) (q : Fin 8), s.lkState ↑q ≠ 4)
    ∧ (∃ (s : Machine.State) (q : Fin 8), (s.lkState ↑q = 4) ∧ ((s.link ↑q).capSeen = true) ∧ ((s.link ↑q).capGot = true) ∧ ((s.link
        ↑q).capSent < 7) ∧ ((s.link ↑q).accepted = false))
    ∧ (∃ (s : Machine.State) (q : Fin 8), (s.lkState ↑q = 4) ∧ (↑q < 4) ∧ ((s.link ↑q).capSeen = true) ∧ ((s.link ↑q).capGot = true) ∧
        ((s.link ↑q).capSent = 7)) :=
  ⟨⟨(rf (lkBase 1) F.RAF_PCFG_LANE_EN 15 <| rf (lkPst 1) F.RAF_PST_STATE 1 State.reset), 1, 15, by decide +kernel⟩,
   ⟨(rf (lkPst 1) F.RAF_PST_STATE 0 State.reset), 1, 0, by decide +kernel⟩,
   ⟨(rf (lkPst 1) F.RAF_PST_STATE 1 State.reset), 1, by decide +kernel⟩,
   ⟨(rf (lkPst 1) F.RAF_PST_STATE 0 State.reset), 1, by decide +kernel⟩,
   ⟨{ (rf (lkBase 1) F.RAF_PCFG_LANE_EN 15 <| rf (lkBase 1) F.RAF_PCFG_FAR_LOOP 0 <| rf (lkPst 1) F.RAF_PST_STATE 2 State.reset) with links := [(1, { LinkState.init with capPhase := false, blocksLeft := 0 })] },
       1, 1, by decide +kernel⟩,
   ⟨(rf (lkBase 1) F.RAF_PCFG_LANE_EN 0 <| rf (lkPst 1) F.RAF_PST_STATE 0 State.reset), 1, 1, by decide +kernel⟩,
   ⟨(rf (lkPst 1) F.RAF_PST_STATE 9 State.reset), 1, by decide +kernel⟩,
   ⟨{ (rf (lkPst 1) F.RAF_PST_STATE 2 State.reset) with links := [(1, { LinkState.init with blocksLeft := 1 })] }, 1, by decide +kernel⟩,
   ⟨(rf (lkPst 1) F.RAF_PST_STATE 2 State.reset), 1, by decide +kernel⟩,
   ⟨(rf (lkPst 1) F.RAF_PST_STATE 0 State.reset), 1, by decide +kernel⟩,
   ⟨{ (rf (lkPst 1) F.RAF_PST_STATE 4 State.reset) with links := [(1, { LinkState.init with lastSeen := true })] }, 1, (⟨true, 1, 0,
       false, false, 0, 0, 64, 64, 0, 0, 0, 0, 0, 0, []⟩ : CapFlit), by decide +kernel⟩,
   ⟨{ (rf (lkPst 1) F.RAF_PST_STATE 4 State.reset) with links := [(1, { LinkState.init with lastSeen := true })] }, 1, (⟨true, 2, 0,
       false, false, 0, 0, 64, 64, 0, 0, 0, 0, 0, 0, []⟩ : CapFlit), by decide +kernel⟩,
   ⟨{ (rf (lkPst 1) F.RAF_PST_STATE 4 State.reset) with links := [(1, { LinkState.init with lastSeen := true })] }, 1, (⟨false, 1, 0,
       false, false, 0, 0, 64, 64, 0, 0, 0, 0, 0, 0, []⟩ : CapFlit), by decide +kernel⟩,
   ⟨{ (rf (lkPst 1) F.RAF_PST_STATE 4 State.reset) with links := [(1, { LinkState.init with lastSeen := false })] }, 1, by decide +kernel⟩,
   ⟨(rf (lkPst 1) F.RAF_PST_STATE 4 State.reset), 1, by decide +kernel⟩,
   ⟨(rf (lkPst 1) F.RAF_PST_STATE 0 State.reset), 1, by decide +kernel⟩,
   ⟨{ (rf (lkPst 1) F.RAF_PST_STATE 4 State.reset) with links := [(1, { LinkState.init with capSeen := true, capGot := true, accepted := false })] },
       1, by decide +kernel⟩,
   ⟨{ (rf (lkPst 1) F.RAF_PST_STATE 4 State.reset) with links := [(1, { LinkState.init with capSeen := true, capGot := true, capSent := 7 })] },
       1, by decide +kernel⟩⟩

/-- The hypotheses of each clause of `WarmReset` can be met. -/
theorem witness_WarmReset :
    (∃ (s : Machine.State), (s.takesReset ResetClass.warm = true) ∧ (s.rst.stopped = true → s.rst.stepsDone ≠ []) ∧ (s.panelRails = false))
    ∧ (∃ (s : Machine.State), (s.takesReset ResetClass.warm = true) ∧ (s.rst.stopped = true → s.rst.stepsDone ≠ []) ∧ (s.panelRails = true))
    ∧ (∃ (s : Machine.State) (v : Word), (fieldOf F.GBL_RESET_GO v = 1) ∧ (fieldOf F.GBL_RESET_KEY v = 42435) ∧ (s.hostReaches = true) ∧
        (s.takesReset ResetClass.warm = true) ∧ (s.rst.stopped = false) ∧ (s.rst.shutdown = false) ∧ (s.panelRails = false))
    ∧ (∃ (s : Machine.State) (v : Word), (fieldOf F.GBL_RESET_GO v = 1) ∧ (fieldOf F.GBL_RESET_KEY v ≠ 42435) ∧ (s.hostReaches = true))
    ∧ (∃ (v : Word), fieldOf F.GBL_RESET_GO v = 0)
    ∧ (∃ (s : Machine.State), s.rst.waitPanel = some 3)
    ∧ (∃ (s : Machine.State), s.rst.applying = some ResetClass.warm) :=
  ⟨⟨{ State.reset with rst.applying := none }, by decide +kernel⟩,
   ⟨{ (rf Reg.SCN_PSTAT F.SCN_PSTAT_EN 1 State.reset) with rst.applying := none }, by decide +kernel⟩,
   ⟨{ (on [2] <| State.reset) with rst.applying := none }, withField F.GBL_RESET_KEY 42435 (withField F.GBL_RESET_GO 1 0),
       by decide +kernel⟩,
   ⟨(on [2] <| State.reset), withField F.GBL_RESET_GO 1 0, by decide +kernel⟩,
   ⟨0, by decide +kernel⟩,
   ⟨{ State.reset with rst.waitPanel := some 3 }, by decide +kernel⟩,
   ⟨{ State.reset with rst.applying := some ResetClass.warm }, by decide +kernel⟩⟩

/-- The hypotheses of each clause of `WindowAndJtag` can be met. -/
theorem witness_WindowAndJtag :
    (∃ (s : Machine.State) (i : Instr) (off : ℕ) (k : Fin 4) (v : Word), (i ∈ [Instr.wpPtrXWrite 0 v, Instr.wpPtrYWrite 0 v,
        Instr.wpDataWrite off 0 v, Instr.wpWindowWrite k 0 v]) ∧ (Takes s))
    ∧ (∃ (s : Machine.State) (i : Instr) (off : ℕ) (k : Fin 4) (be : BitVec 4) (v : Word), (i ∈ [Instr.wpPtrXWrite be v, Instr.wpPtrYWrite
        be v, Instr.wpDataWrite off be v, Instr.wpWindowWrite k be v, Instr.wpDataRead]) ∧ (s.hostReaches = false) ∧ (s.win.held = []) ∧
        (s.win.journal.length < 983296))
    ∧ (∃ (s : Machine.State) (i : Instr) (a : Option (ℕ × ℕ × Word)) (off : ℕ) (k : Fin 4) (be : BitVec 4) (v : Word), ((i, a) ∈
        [(Instr.wpPtrXWrite be v, some (16, be.toNat, v)), (Instr.wpPtrYWrite be v, some (20, be.toNat, v)), (Instr.wpDataWrite off be v, some
        (off, be.toNat, v)), (Instr.wpWindowWrite k be v, some (32 + 4 * ↑k, be.toNat, v)), (Instr.wpDataRead, none)]) ∧ (983296 ≤
        s.win.journal.length ∨ s.win.held ≠ []))
    ∧ (∃ (s : Machine.State) (off : ℕ), (Takes s) ∧ (off < 8))
    ∧ (∃ (s : Machine.State) (off : ℕ), (Takes s) ∧ (8 ≤ off) ∧ (off < 32768) ∧ (off ∉ [16, 20, 24]) ∧ (off < 32 ∨ 48 ≤ off))
    ∧ (∃ (off : ℕ), off ∈ [8, 12, 28] ∨ 48 ≤ off)
    ∧ (∃ (s : Machine.State) (i : Instr) (n : ℕ) (off : ℕ) (k : Fin 4) (be : BitVec 4) (v : Word), ((i, n) ∈ [(Instr.wpPtrXWrite be v,
        16), (Instr.wpPtrYWrite be v, 20), (Instr.wpDataWrite off be v, off), (Instr.wpWindowWrite k be v, 32 + 4 * ↑k)]) ∧ (Takes s) ∧ (be ≠
        0) ∧ (be ≠ 15))
    ∧ (∃ (s : Machine.State) (i : Instr) (off : ℕ) (k : Fin 4) (v : Word) (x : Txn) (l : List Txn), (i ∈ [Instr.wpPtrXWrite 15 v,
        Instr.wpPtrYWrite 15 v, Instr.wpDataWrite off 15 v, Instr.wpWindowWrite k 15 v]) ∧ (Takes s) ∧ (DataAt off) ∧ (s.stg.txns = x :: l))
    ∧ (∃ (s : Machine.State), Accepts s)
    ∧ (∃ (s : Machine.State), (Accepts s) ∧ (s.win.armed = false))
    ∧ (∃ (s : Machine.State) (v : Word) (x : ℕ) (y : ℕ), (Accepts s) ∧ (s.win.armed = true) ∧ (x = s.win.shadow) ∧ (y = BitVec.toNat v %
        2048) ∧ (1 ≤ s.win.ww) ∧ (1 ≤ s.win.wh) ∧ (s.win.wx0 + s.win.ww ≤ s.width) ∧ (s.win.wy0 + s.win.wh ≤ s.height) ∧ (s.win.wx0 ≤ x) ∧ (x
        < s.win.wx0 + s.win.ww) ∧ (s.win.wy0 ≤ y) ∧ (y < s.win.wy0 + s.win.wh))
    ∧ (∃ (s : Machine.State) (v : Word), (Accepts s) ∧ (s.win.armed = true) ∧ (s.ptrOk s.win.shadow (BitVec.toNat v % 2048) = false))
    ∧ (∃ (s : Machine.State) (w : WinState), (Accepts s) ∧ (w =
        { s.win with armed := false, valid := false, stale := true, refused := false }))
    ∧ (∃ (s : Machine.State) (off : ℕ), (Accepts s) ∧ (DataAt off) ∧ (s.winEnabled = false ∨ s.isReady 17 = false))
    ∧ (∃ (s : Machine.State) (off : ℕ), (Accepts s) ∧ (DataAt off) ∧ (s.winEnabled = true) ∧ (s.isReady 17 = true) ∧ (s.win.valid = false))
    ∧ (∃ (s : Machine.State) (off : ℕ) (w : WinState) (a : WinState) (b : WinState), (Accepts s) ∧ (DataAt off) ∧ (s.winEnabled = true) ∧
        (s.isReady 17 = true) ∧ (s.win.valid = true) ∧ (w = { s.win with refused := false, disabled := false }) ∧ (a = w.advance) ∧ (b =
        a.advance))
    ∧ (∃ (s : Machine.State), (Takes s) ∧ (s.winEnabled = false))
    ∧ (∃ (s : Machine.State), (Takes s) ∧ (s.winEnabled = true))
    ∧ (∃ (s : Machine.State), s.win.journal = [] ∨ s.flag Reg.WIN_STAT F.WIN_STAT_OPEN = false ∨ s.step2Stops = true)
    ∧ (∃ (s : Machine.State) (e : WinWrite) (l : List WinWrite), (s.win.journal = e :: l) ∧ (s.flag Reg.WIN_STAT F.WIN_STAT_OPEN = true) ∧
        (s.step2Stops = false) ∧ (s.win.held = []))
    ∧ (∃ (s : Machine.State), s.rst.off = true)
    ∧ (∃ (s : Machine.State), s.rst.off = false) :=
  ⟨⟨(on [2] <| State.reset), (.wpPtrXWrite 0 0), 0, 1, 0, by unfold Takes; decide +kernel⟩,
   ⟨State.reset, .wpDataRead, 0, 1, 0, 0, by decide +kernel⟩,
   ⟨{ State.reset with win.held := [none] }, .wpDataRead, none, 0, 1, 0, 0, by decide +kernel⟩,
   ⟨(on [2] <| State.reset), 0, by unfold Takes; decide +kernel⟩,
   ⟨(on [2] <| State.reset), 0x30, by unfold Takes; decide +kernel⟩,
   ⟨8, by decide +kernel⟩,
   ⟨(on [2] <| State.reset), (.wpPtrXWrite 3 0), 16, 0, 1, 3, 0, by unfold Takes; decide +kernel⟩,
   ⟨{ (on [2] <| State.reset) with stg.txns := (⟨0, 1, 3, 2 ^ 36 - 1, false, false, [], [], [], false, false, 0, false⟩ : Txn) :: ([]) },
       (.wpPtrXWrite 15 0), 0x18, 1, 0, (⟨0, 1, 3, 2 ^ 36 - 1, false, false, [], [], [], false, false, 0, false⟩ : Txn), [],
       by unfold Takes DataAt; decide +kernel⟩,
   ⟨(on [2] <| State.reset), by unfold Accepts Takes; decide +kernel⟩,
   ⟨(on [2] <| State.reset), by unfold Accepts Takes; decide +kernel⟩,
   ⟨{ (on [2] <| State.reset) with win.armed := true }, 0, 0, 0, by unfold Accepts Takes; decide +kernel⟩,
   ⟨{ (on [2] <| State.reset) with win.armed := true, win.ww := 0 }, 0, by unfold Accepts Takes; decide +kernel⟩,
   ⟨(on [2] <| State.reset), { WinState.init with armed := false, valid := false, stale := true, refused := false },
       by unfold Accepts Takes; decide +kernel⟩,
   ⟨(on [2] <| rf Reg.WIN_CFG F.WIN_CFG_EN 0 State.reset), 0x18, by unfold Accepts DataAt Takes; decide +kernel⟩,
   ⟨(ready [17] <| on [2] <| rf Reg.WIN_CFG F.WIN_CFG_EN 1 State.reset), 0x18, by unfold Accepts DataAt Takes; decide +kernel⟩,
   ⟨{ (ready [17] <| on [2] <| rf Reg.WIN_CFG F.WIN_CFG_EN 1 State.reset) with win.valid := true }, 0x18,
       { WinState.init with valid := true, refused := false, disabled := false },
       ({ WinState.init with valid := true, refused := false, disabled := false } : WinState).advance,
       ({ WinState.init with valid := true, refused := false, disabled := false } : WinState).advance.advance,
       by unfold Accepts DataAt Takes; decide +kernel⟩,
   ⟨(on [2] <| rf Reg.WIN_CFG F.WIN_CFG_EN 0 State.reset), by unfold Takes; decide +kernel⟩,
   ⟨(on [2] <| rf Reg.WIN_CFG F.WIN_CFG_EN 1 State.reset), by unfold Takes; decide +kernel⟩,
   ⟨State.reset, by decide +kernel⟩,
   ⟨{ (rf Reg.WIN_STAT F.WIN_STAT_OPEN 1 State.reset) with win.journal := (⟨1, 2, 0, 5, 2, 2, 0, 6⟩ : WinWrite) :: ([]) }, (⟨1, 2, 0, 5,
       2, 2, 0, 6⟩ : WinWrite), [], by decide +kernel⟩,
   ⟨{ State.reset with rst.off := true }, by decide +kernel⟩,
   ⟨State.reset, by decide +kernel⟩⟩

/-- The hypotheses of each clause of `PanelProtection` can be met. -/
theorem witness_PanelProtection :
    (∃ (s : Machine.State), s.rst.applying.isSome = true)
    ∧ (∃ (s : Machine.State), (s.scanRuns = false) ∧ (s.seq = 2) ∧ (s.rst.applying = none))
    ∧ (∃ (s : Machine.State), s.seq = 0 ∨ s.seq = 4)
    ∧ (∃ (s : Machine.State) (n : Fin 6), bit (s.getF Reg.SCN_PSTAT F.SCN_PSTAT_PG) ↑n = false)
    ∧ (∃ (s : Machine.State), (s.rst.shutdown = false) ∧ (s.seq = 0) ∧ (s.rst.applying = none))
    ∧ (∃ (s : Machine.State), s.seq ≠ 4)
    ∧ (∃ (s : Machine.State), (s.seq = 4) ∧ (s.pnl.emergStep = 0) ∧ (s.pnl.emergSkip = false))
    ∧ (∃ (s : Machine.State), (s.seq = 4) ∧ (s.pnl.emergStep = 1))
    ∧ (∃ (s : Machine.State), (s.seq = 4) ∧ (s.pnl.emergStep = 2))
    ∧ (∃ (s : Machine.State), (s.seq = 4) ∧ (s.pnl.emergStep = 3) ∧ (s.rst.shutdownDue = false) ∧ (s.rst.off = false) ∧ (s.rst.waitPanel =
        none) ∧ (s.pnl.wantOn = false) ∧ (s.pwr.heading = false) ∧ (s.pnl.emerg < 16) ∧ (s.pnl.pins < 256))
    ∧ (∃ (s : Machine.State), s.crackPol = 0 ∨ s.pnl.measuring = true ∨ s.pwr.dormant = true)
    ∧ (∃ (s : Machine.State), (s.crackPol ≠ 0) ∧ (s.pnl.measuring = false) ∧ (s.getF Reg.PWR_STATE F.PWR_STATE_CUR ≤ 2) ∧ (s.pwr.dormant =
        false) ∧ (s.calrefBusy = false))
    ∧ (∃ (s : Machine.State), (s.pnl.measuring = false) ∧ (s.scanRuns = false))
    ∧ (∃ (s : Machine.State) (r : CrackReading), (s.pnl.measuring = true) ∧ (s.seq ≠ 1) ∧ (s.scanRuns = false) ∧ (crackKind s r = 0) ∧
        (s.getF Reg.SCN_CRACK F.SCN_CRACK_STATE = 0))
    ∧ (∃ (s : Machine.State) (r : CrackReading), (s.pnl.measuring = true) ∧ (s.seq ≠ 1) ∧ (s.scanRuns = false) ∧ (crackKind s r = 1) ∧ (2
        ≤ s.pnl.crackHigh) ∧ (s.getF Reg.SCN_CRACK F.SCN_CRACK_STATE = 0) ∧ (s.crackPol = 1)) :=
  ⟨⟨State.reset, by decide +kernel⟩,
   ⟨{ (rf Reg.SCN_PSTAT F.SCN_PSTAT_SEQ 2 State.reset) with rst.applying := none }, by decide +kernel⟩,
   ⟨(rf Reg.SCN_PSTAT F.SCN_PSTAT_SEQ 0 State.reset), by decide +kernel⟩,
   ⟨State.reset, 1, by decide +kernel⟩,
   ⟨{ (rf Reg.SCN_PSTAT F.SCN_PSTAT_SEQ 0 State.reset) with rst.applying := none }, by decide +kernel⟩,
   ⟨(rf Reg.SCN_PSTAT F.SCN_PSTAT_SEQ 0 State.reset), by decide +kernel⟩,
   ⟨(rf Reg.SCN_PSTAT F.SCN_PSTAT_SEQ 4 State.reset), by decide +kernel⟩,
   ⟨{ (rf Reg.SCN_PSTAT F.SCN_PSTAT_SEQ 4 State.reset) with pnl.emergStep := 1 }, by decide +kernel⟩,
   ⟨{ (rf Reg.SCN_PSTAT F.SCN_PSTAT_SEQ 4 State.reset) with pnl.emergStep := 2 }, by decide +kernel⟩,
   ⟨{ (rf Reg.SCN_PSTAT F.SCN_PSTAT_SEQ 4 State.reset) with pnl.emergStep := 3 }, by decide +kernel⟩,
   ⟨(rf Reg.SCN_PROT F.SCN_PROT_CRACK_POL 0 State.reset), by decide +kernel⟩,
   ⟨(rf Reg.PWR_STATE F.PWR_STATE_CUR 0 <| rf Reg.SCN_PROT F.SCN_PROT_CRACK_POL 1 State.reset), by decide +kernel⟩,
   ⟨State.reset, by decide +kernel⟩,
   ⟨{ (rf Reg.SCN_PROT F.SCN_PROT_RLIM 1000 <| rf Reg.SCN_CRACK F.SCN_CRACK_STATE 0 <| rf Reg.SCN_PSTAT F.SCN_PSTAT_SEQ 0 State.reset) with pnl.measuring := true },
       (.ohms 100), by decide +kernel⟩,
   ⟨{ (rf Reg.SCN_PROT F.SCN_PROT_RLIM 1 <| rf Reg.SCN_PROT F.SCN_PROT_CRACK_POL 1 <| rf Reg.SCN_CRACK F.SCN_CRACK_STATE 0 <| rf Reg.SCN_PSTAT F.SCN_PSTAT_SEQ 0 State.reset) with pnl.measuring := true, pnl.crackHigh := 2 },
       (.ohms 100), by decide +kernel⟩⟩

/-- The hypotheses of each clause of `RegisterPath` can be met. -/
theorem witness_RegisterPath :
    (∃ (s : Machine.State), (s.flag Reg.STG_RSTAT F.STG_RSTAT_BUSY = true) ∧ (s.hostReaches = true))
    ∧ (∃ (s : Machine.State) (mask : ℕ) (n : ℕ) (id : ℕ), (s.hostReaches = true) ∧ (s.flag Reg.STG_RSTAT F.STG_RSTAT_BUSY = false) ∧ (mask
        = s.pair64 Reg.STG_MASK_LO Reg.STG_MASK_HI) ∧ (s.maskAbsent mask = none) ∧ (s.maskFault mask = none) ∧ (s.isReady 0 = true) ∧ (s.txnOf
        0 = none) ∧ (s.stg.txns.length < 8) ∧ (s.heldGroups &&& heldMask mask = 0) ∧ (s.freeSlot = some n) ∧ (id = nextTxnId s.stg.lastId))
    ∧ (∃ (s : Machine.State) (mask : ℕ) (st : ℕ), (s.hostReaches = true) ∧ (s.flag Reg.STG_RSTAT F.STG_RSTAT_BUSY = false) ∧ (mask =
        s.pair64 Reg.STG_MASK_LO Reg.STG_MASK_HI) ∧ ((if (s.maskAbsent mask).isSome = true then some 34 else if (s.maskFault mask).isSome =
        true then some 17 else if s.isReady 0 = false then some 32 else if (s.txnOf 0).isSome = true then some 49 else if 8 ≤
        s.stg.txns.length then some 50 else if s.heldGroups &&& heldMask mask ≠ 0 then some 51 else none) = some st))
    ∧ (∃ (s : Machine.State), (s.hostReaches = true) ∧ (s.flag Reg.STG_RSTAT F.STG_RSTAT_BUSY = true))
    ∧ (∃ (s : Machine.State), (s.hostReaches = true) ∧ (s.flag Reg.STG_RSTAT F.STG_RSTAT_BUSY = false) ∧ (s.txnOf 0 = none))
    ∧ (∃ (s : Machine.State) (x : Txn), (s.hostReaches = true) ∧ (s.flag Reg.STG_RSTAT F.STG_RSTAT_BUSY = false) ∧ (s.txnOf 0 = some x) ∧
        (x.checking = false) ∧ (x.slot < 8) ∧ (s.txnAbsent x = false) ∧ (s.isReady 0 = true) ∧ ((maskNeeds x.mask).all s.isReady = true) ∧
        (s.txnBusy 0 x.id = false))
    ∧ (∃ (s : Machine.State) (x : Txn), (s.hostReaches = true) ∧ (s.flag Reg.STG_RSTAT F.STG_RSTAT_BUSY = false) ∧ (s.txnOf 0 = some x) ∧
        (x.checking = false) ∧ (s.isReady 0 = true))
    ∧ (∃ (s : Machine.State) (x : Txn), (s.hostReaches = true) ∧ (s.flag Reg.STG_RSTAT F.STG_RSTAT_BUSY = false) ∧ (s.txnOf 0 = some x) ∧
        (x.checking = false) ∧ (s.isReady 0 = true) ∧ (x.loads = []))
    ∧ (∃ (s : Machine.State) (x : Txn), (s.hostReaches = true) ∧ (s.flag Reg.STG_RSTAT F.STG_RSTAT_BUSY = false) ∧ (s.txnOf 0 = some x) ∧
        (s.isReady 0 = true) ∧ (x.checking = true))
    ∧ (∃ (s : Machine.State) (x : Txn), (s.hostReaches = true) ∧ (s.flag Reg.STG_RSTAT F.STG_RSTAT_BUSY = false) ∧ (s.txnOf 0 = some x) ∧
        (s.txnAbsent x = false) ∧ (s.isReady 0 = true) ∧ ((maskNeeds x.mask).all s.isReady = true) ∧ (x.checking = true ∨ s.txnBusy 0 x.id =
        true))
    ∧ (∃ (s : Machine.State) (v : Word) (x : Txn), (s.hostReaches = true) ∧ (s.flag Reg.STG_RSTAT F.STG_RSTAT_BUSY = false) ∧ (List.find?
        (fun t ↦ t.slot == fieldOf F.STG_CMD_SLOT v) s.stg.txns = some x) ∧ (x.checking = false) ∧ (s.isReady 0 = true))
    ∧ (∃ (s : Machine.State) (v : Word) (x : Txn), (s.hostReaches = true) ∧ (s.flag Reg.STG_RSTAT F.STG_RSTAT_BUSY = false) ∧ (List.find?
        (fun t ↦ t.slot == fieldOf F.STG_CMD_SLOT v) s.stg.txns = some x) ∧ (x.checking = false) ∧ (s.isReady 0 = true) ∧ (x.loads = []))
    ∧ (∃ (s : Machine.State) (v : Word) (x : Txn), (s.hostReaches = true) ∧ (s.flag Reg.STG_RSTAT F.STG_RSTAT_BUSY = false) ∧ (List.find?
        (fun t ↦ t.slot == fieldOf F.STG_CMD_SLOT v) s.stg.txns = some x) ∧ (x.checking = true) ∧ (s.isReady 0 = true))
    ∧ (∃ (s : Machine.State) (v : Word), (s.hostReaches = true) ∧ (s.flag Reg.STG_RSTAT F.STG_RSTAT_BUSY = false) ∧ ((List.find? (fun t ↦
        t.slot == fieldOf F.STG_CMD_SLOT v) s.stg.txns).isNone = true ∨ s.isReady 0 = false))
    ∧ (∃ (s : Machine.State), (s.hostReaches = true) ∧ (s.gateHolds = true))
    ∧ (∃ (s : Machine.State) (v : Word) (f : ℕ), (s.hostReaches = true) ∧ (s.gateHolds = false) ∧ (f = s.getF Reg.STG_GATE_LO
        F.STG_GATE_LO_AT_LO + 2 ^ 32 * fieldOf F.STG_GATE_HI_AT_HI v) ∧ (f ≤ s.gen.fc ∨ s.gen.fc + 65535 < f))
    ∧ (∃ (s : Machine.State) (v : Word) (f : ℕ), (s.hostReaches = true) ∧ (s.gateHolds = false) ∧ (f = s.getF Reg.STG_GATE_LO
        F.STG_GATE_LO_AT_LO + 2 ^ 32 * fieldOf F.STG_GATE_HI_AT_HI v) ∧ (s.gen.fc < f) ∧ (f ≤ s.gen.fc + 65535))
    ∧ (∃ (s : Machine.State), (s.hostReaches = true) ∧ (s.gateHolds = false)) :=
  ⟨⟨(on [2] <| rf Reg.STG_RSTAT F.STG_RSTAT_BUSY 1 State.reset), by decide +kernel⟩,
   ⟨(ready [0, 0] <| on [2] <| rf Reg.STG_MASK_HI ⟨31, 0⟩ 0 <| rf Reg.STG_MASK_LO ⟨31, 0⟩ 1 <| rf Reg.STG_RSTAT F.STG_RSTAT_BUSY 0
       State.reset), 1, 0, 1, by decide +kernel⟩,
   ⟨(on [2] <| rf Reg.STG_MASK_HI ⟨31, 0⟩ 0 <| rf Reg.STG_MASK_LO ⟨31, 0⟩ 1 <| rf Reg.STG_RSTAT F.STG_RSTAT_BUSY 0 State.reset), 1, 0x20,
       by decide +kernel⟩,
   ⟨(on [2] <| rf Reg.STG_RSTAT F.STG_RSTAT_BUSY 1 State.reset), by decide +kernel⟩,
   ⟨(on [2] <| rf Reg.STG_RSTAT F.STG_RSTAT_BUSY 0 State.reset), by decide +kernel⟩,
   ⟨{ (ready [0, 0] <| on [2] <| rf Reg.STG_RSTAT F.STG_RSTAT_BUSY 0 State.reset) with stg.txns := [(⟨0, 1, 0, 1, false, false, [], [], [], false, false, 0, false⟩ : Txn)] },
       (⟨0, 1, 0, 1, false, false, [], [], [], false, false, 0, false⟩ : Txn), by decide +kernel⟩,
   ⟨{ (ready [0] <| on [2] <| rf Reg.STG_RSTAT F.STG_RSTAT_BUSY 0 State.reset) with stg.txns := [(⟨0, 1, 0, 1, false, false, [], [], [], false, false, 0, false⟩ : Txn)] },
       (⟨0, 1, 0, 1, false, false, [], [], [], false, false, 0, false⟩ : Txn), by decide +kernel⟩,
   ⟨{ (ready [0] <| on [2] <| rf Reg.STG_RSTAT F.STG_RSTAT_BUSY 0 State.reset) with stg.txns := [(⟨0, 1, 0, 1, false, false, [], [], [], false, false, 0, false⟩ : Txn)] },
       (⟨0, 1, 0, 1, false, false, [], [], [], false, false, 0, false⟩ : Txn), by decide +kernel⟩,
   ⟨{ (ready [0] <| on [2] <| rf Reg.STG_RSTAT F.STG_RSTAT_BUSY 0 State.reset) with stg.txns := [(⟨0, 1, 0, 1, false, true, [], [], [], false, false, 0, false⟩ : Txn)] },
       (⟨0, 1, 0, 1, false, true, [], [], [], false, false, 0, false⟩ : Txn), by decide +kernel⟩,
   ⟨{ (ready [0, 0] <| on [2] <| rf Reg.STG_RSTAT F.STG_RSTAT_BUSY 0 State.reset) with stg.txns := [(⟨0, 1, 0, 1, false, true, [], [], [], false, false, 0, false⟩ : Txn)] },
       (⟨0, 1, 0, 1, false, true, [], [], [], false, false, 0, false⟩ : Txn), by decide +kernel⟩,
   ⟨{ (ready [0] <| on [2] <| rf Reg.STG_RSTAT F.STG_RSTAT_BUSY 0 State.reset) with stg.txns := [(⟨0, 1, 3, 2 ^ 36 - 1, false, false, [], [], [], false, false, 0, false⟩ : Txn)] },
       0, (⟨0, 1, 3, 2 ^ 36 - 1, false, false, [], [], [], false, false, 0, false⟩ : Txn), by decide +kernel⟩,
   ⟨{ (ready [0] <| on [2] <| rf Reg.STG_RSTAT F.STG_RSTAT_BUSY 0 State.reset) with stg.txns := [(⟨0, 1, 3, 2 ^ 36 - 1, false, false, [], [], [], false, false, 0, false⟩ : Txn)] },
       0, (⟨0, 1, 3, 2 ^ 36 - 1, false, false, [], [], [], false, false, 0, false⟩ : Txn), by decide +kernel⟩,
   ⟨{ (ready [0] <| on [2] <| rf Reg.STG_RSTAT F.STG_RSTAT_BUSY 0 State.reset) with stg.txns := [(⟨0, 1, 0, 1, false, true, [], [], [], false, false, 0, false⟩ : Txn)] },
       0, (⟨0, 1, 0, 1, false, true, [], [], [], false, false, 0, false⟩ : Txn), by decide +kernel⟩,
   ⟨(on [2] <| rf Reg.STG_RSTAT F.STG_RSTAT_BUSY 0 State.reset), 0, by decide +kernel⟩,
   ⟨{ (on [2] <| State.reset) with stg.pendings := [⟨1, 0, 1, [], [], true, false, 0⟩] }, by decide +kernel⟩,
   ⟨(on [2] <| State.reset), 0, 0, by decide +kernel⟩,
   ⟨(on [2] <| rf Reg.STG_GATE_LO F.STG_GATE_LO_AT_LO 5 State.reset), 0, 5, by decide +kernel⟩,
   ⟨(on [2] <| State.reset), by decide +kernel⟩⟩

/-- The hypotheses of each clause of `Memories` can be met. -/
theorem witness_Memories :
    (∃ (s : Machine.State), s.isReady 6 = false)
    ∧ (∃ (s : Machine.State), s.isReady 6 = true)
    ∧ (∃ (s : Machine.State), (s.isReady 6 = true) ∧ (2 ≤ s.fst.recal.getD 0 0))
    ∧ (∃ (e : ReadError), (32 * e.unit < 805306368) ∧ (e.correctable = true))
    ∧ (∃ (e : ReadError), (855638016 ≤ 32 * e.unit) ∧ (32 * e.unit < 905969664) ∧ (e.correctable = false))
    ∧ (∃ (e : ReadError), 805306368 ≤ 32 * e.unit ∧ 32 * e.unit < 855638016 ∨ 905969664 ≤ 32 * e.unit)
    ∧ (∃ (s : Machine.State), s.flag Reg.BNK_SCRUB F.BNK_SCRUB_EN = false ∨ s.isReady 5 = false)
    ∧ (∃ (s : Machine.State) (e : ReadError), (s.flag Reg.BNK_SCRUB F.BNK_SCRUB_EN = true) ∧ (s.isReady 5 = true) ∧ (s.getF Reg.THM_STAT
        F.THM_STAT_STEP < 2) ∧ (s.bnk.bad = []) ∧ (e.unit < 128 * 65536) ∧ (s.bankState (e.unit / 65536) = 2) ∧ (e.correctable = true))
    ∧ (∃ (s : Machine.State) (e : ReadError), (s.flag Reg.BNK_SCRUB F.BNK_SCRUB_EN = true) ∧ (s.isReady 5 = true) ∧ (s.getF Reg.THM_STAT
        F.THM_STAT_STEP < 2) ∧ (s.bnk.bad = []) ∧ (e.unit < 128 * 65536) ∧ (s.bankState (e.unit / 65536) = 2) ∧ (e.correctable = false))
    ∧ (∃ (s : Machine.State), (s.getF Reg.PWR_STATE F.PWR_STATE_CUR = 2) ∧ (s.flag Reg.BNK_CFG F.BNK_CFG_STBY_RET = true))
    ∧ (∃ (s : Machine.State), s.getF Reg.PWR_STATE F.PWR_STATE_CUR ≠ 2 ∨ s.flag Reg.BNK_CFG F.BNK_CFG_STBY_RET = false)
    ∧ (∃ (s : Machine.State) (c : Fin 256), s.rebuilding ↑c = none)
    ∧ (∃ (s : Machine.State) (c : Fin 256) (d : Desc), (s.rebuilding ↑c = some d) ∧ (s.loadLives (↑c) d = true))
    ∧ (∃ (s : Machine.State), s.getF Reg.DMU_STAT F.DMU_STAT_CRC_BUSY = 0)
    ∧ (∃ (s : Machine.State), s.getF Reg.DMU_STAT F.DMU_STAT_CRC_BUSY ≠ 0) :=
  ⟨⟨(ready [] <| State.reset), by decide +kernel⟩,
   ⟨(ready [6] <| State.reset), by decide +kernel⟩,
   ⟨{ (ready [6] <| State.reset) with fst.recal := [2, 0] }, by decide +kernel⟩,
   ⟨(⟨true, 0⟩ : ReadError), by decide +kernel⟩,
   ⟨(⟨false, 26738688⟩ : ReadError), by decide +kernel⟩,
   ⟨(⟨true, 25165824⟩ : ReadError), by decide +kernel⟩,
   ⟨(rf Reg.BNK_SCRUB F.BNK_SCRUB_EN 0 State.reset), by decide +kernel⟩,
   ⟨(ready [5] <| rf Reg.THM_STAT F.THM_STAT_STEP 0 <| rf Reg.BNK_SCRUB F.BNK_SCRUB_EN 1 State.reset), (⟨true, 0⟩ : ReadError),
       by decide +kernel⟩,
   ⟨(ready [5] <| rf Reg.THM_STAT F.THM_STAT_STEP 0 <| rf Reg.BNK_SCRUB F.BNK_SCRUB_EN 1 State.reset), (⟨false, 0⟩ : ReadError),
       by decide +kernel⟩,
   ⟨(rf Reg.BNK_CFG F.BNK_CFG_STBY_RET 1 <| rf Reg.PWR_STATE F.PWR_STATE_CUR 2 State.reset), by decide +kernel⟩,
   ⟨(rf Reg.PWR_STATE F.PWR_STATE_CUR 3 State.reset), by decide +kernel⟩,
   ⟨State.reset, 3, by decide +kernel⟩,
   ⟨{ State.reset with stg.txns := [(⟨0, 0, 3, 2 ^ 36 - 1, false, false, [], [], [], false, false, 0, false⟩ : Txn)], hst.clients := [(3, { Client.init with descs := [({ (dsc 6 64 tPGAIN 0 [0]) with stage := .waiting } : Desc)] })] },
       3, ({ (dsc 6 64 tPGAIN 0 [0]) with stage := .waiting } : Desc), by decide +kernel⟩,
   ⟨(rf Reg.DMU_STAT F.DMU_STAT_CRC_BUSY 0 State.reset), by decide +kernel⟩,
   ⟨(rf Reg.DMU_STAT F.DMU_STAT_CRC_BUSY 1 State.reset), by decide +kernel⟩⟩

/-- The hypotheses of each clause of `PowerRequests` can be met. -/
theorem witness_PowerRequests :
    (∃ (s : Machine.State), s.hostReaches = false)
    ∧ (∃ (s : Machine.State), (s.hostReaches = true) ∧ (s.isReady 9 = false))
    ∧ (∃ (s : Machine.State), (s.hostReaches = true) ∧ (s.isReady 9 = true) ∧ (s.seq = 0))
    ∧ (∃ (s : Machine.State), (s.hostReaches = true) ∧ (s.isReady 9 = true) ∧ (s.seq ≠ 0))
    ∧ (∃ (s : Machine.State), (s.hostReaches = true) ∧ (s.seq = 2))
    ∧ (∃ (s : Machine.State), (s.hostReaches = true) ∧ (s.seq = 0) ∧ (s.pwr.heading = false))
    ∧ (∃ (s : Machine.State), (s.hostReaches = true) ∧ (s.seq = 0) ∧ (s.pwr.heading = true))
    ∧ (∃ (s : Machine.State), (s.hostReaches = true) ∧ (s.seq ≠ 0) ∧ (s.seq ≠ 2))
    ∧ (∃ (s : Machine.State) (n : ℕ), (s.hostReaches = true) ∧ (s.dormantRefused = some n))
    ∧ (∃ (s : Machine.State), (s.hostReaches = true) ∧ (s.dormantRefused = none) ∧ (s.seq = 2))
    ∧ (∃ (s : Machine.State), (s.hostReaches = true) ∧ (s.dormantRefused = none) ∧ (s.seq = 0))
    ∧ (∃ (s : Machine.State), (s.hostReaches = true) ∧ (s.dormantRefused = none) ∧ (s.seq ≠ 0) ∧ (s.seq ≠ 2)) :=
  ⟨⟨State.reset, by decide +kernel⟩,
   ⟨(ready [] <| on [2] <| State.reset), by decide +kernel⟩,
   ⟨(ready [9] <| on [2] <| rf Reg.SCN_PSTAT F.SCN_PSTAT_SEQ 0 State.reset), by decide +kernel⟩,
   ⟨(ready [9] <| on [2] <| rf Reg.SCN_PSTAT F.SCN_PSTAT_SEQ 1 State.reset), by decide +kernel⟩,
   ⟨(on [2] <| rf Reg.SCN_PSTAT F.SCN_PSTAT_SEQ 2 State.reset), by decide +kernel⟩,
   ⟨(on [2] <| rf Reg.SCN_PSTAT F.SCN_PSTAT_SEQ 0 State.reset), by decide +kernel⟩,
   ⟨{ (on [2] <| rf Reg.SCN_PSTAT F.SCN_PSTAT_SEQ 0 State.reset) with pwr.heading := true }, by decide +kernel⟩,
   ⟨(on [2] <| rf Reg.SCN_PSTAT F.SCN_PSTAT_SEQ 1 State.reset), by decide +kernel⟩,
   ⟨{ (on [2] <| State.reset) with stg.txns := [(⟨0, 1, 3, 2 ^ 36 - 1, false, false, [], [], [], false, false, 0, false⟩ : Txn)] }, 1,
       by decide +kernel⟩,
   ⟨(on [2] <| rf Reg.SCN_PSTAT F.SCN_PSTAT_SEQ 2 State.reset), by decide +kernel⟩,
   ⟨(on [2] <| rf Reg.SCN_PSTAT F.SCN_PSTAT_SEQ 0 State.reset), by decide +kernel⟩,
   ⟨(on [2] <| rf Reg.SCN_PSTAT F.SCN_PSTAT_SEQ 1 State.reset), by decide +kernel⟩⟩

/-- The hypotheses of each clause of `WindowsComposed` can be met. -/
theorem witness_WindowsComposed :
    (∃ (s : Machine.State) (y : ℕ) (k : Pick) (r : WRect), (s.pickRect k = some r) ∧ (y < r.y0 ∨ r.y0 + r.h ≤ y))
    ∧ (∃ (s : Machine.State) (i : ℕ) (old : ℕ) (k : Pick) (r : WRect) (acc : List ℕ), (s.pickRect k = some r) ∧ (acc[i]? = some old) ∧ (i
        / 3 < r.x0 ∨ r.x0 + r.w ≤ i / 3))
    ∧ (∃ (s : Machine.State) (v : ℕ) (w : ℕ) (x : ℕ) (y : ℕ) (i : ℕ) (a : ℕ) (m : ℕ) (u : ℕ) (old : ℕ) (k : Pick) (r : WRect) (acc : List
        ℕ), (s.pickRect k = some r) ∧ (acc[i]? = some old) ∧ (i / 3 = x) ∧ (r.x0 ≤ x) ∧ (x < r.x0 + r.w) ∧ (r.y0 ≤ y) ∧ (y < r.y0 + r.h) ∧ (u
        = (s.readRow (pickSource k).1 (y - r.y0)).1.getD (3 * (x - r.x0) + i % 3) 0) ∧ (m = (s.readMaskRow (selMask v w + (pickSource k).1 %
        16) (y - r.y0) r.w).getD (x - r.x0) 0) ∧ (a = faded (pickSource k).2 (if r.fsrc = 1 then m + m >>> 7 else coverage r x y)))
    ∧ (∃ (a : ℕ) (u : ℕ) (old : ℕ), (a ≤ 256) ∧ (u < 2 ^ 18) ∧ (old < 2 ^ 18))
    ∧ (∃ (r : WRect) (x : ℕ) (y : ℕ) (dl : ℕ) (dr : ℕ) (dt : ℕ) (db : ℕ) (d : ℕ), (r.x0 ≤ x) ∧ (x < r.x0 + r.w) ∧ (r.y0 ≤ y) ∧ (y < r.y0 +
        r.h) ∧ (dl + r.x0 = x + r.extL) ∧ (dr + x + 1 = r.x0 + r.w + r.extR) ∧ (dt + r.y0 = y + r.extT) ∧ (db + y + 1 = r.y0 + r.h + r.extB) ∧
        (d = min (min dl dr) (min dt db)))
    ∧ (∃ (r : WRect) (y : ℕ), (r.feather = 3) ∧ (r.extL = 0) ∧ (r.extR = 9) ∧ (r.extT = 9) ∧ (r.extB = 9) ∧ (3 ≤ r.w) ∧ (r.y0 ≤ y) ∧ (y <
        r.y0 + r.h)) :=
  ⟨⟨{ State.reset with fst.bufs := [(0x1000, { FrameBuf.init with rect := some ⟨10, 10, 20, 20, 4, 0, 0, 0, 0, 0⟩ })] }, 0, (.live
      0x1000), (⟨10, 10, 20, 20, 4, 0, 0, 0, 0, 0⟩ : WRect), by decide +kernel⟩,
   ⟨{ State.reset with fst.bufs := [(0x1000, { FrameBuf.init with rect := some ⟨10, 10, 20, 20, 4, 0, 0, 0, 0, 0⟩ })] }, 0, 5, (.live
       0x1000), (⟨10, 10, 20, 20, 4, 0, 0, 0, 0, 0⟩ : WRect), [5], by decide +kernel⟩,
   ⟨{ State.reset with fst.bufs := [(0x1000, { FrameBuf.init with rect := some ⟨10, 10, 20, 20, 4, 0, 0, 0, 0, 0⟩ })] }, 0, 0, 12, 12, 36,
       160, 0, 0, 5, (.live 0x1000), (⟨10, 10, 20, 20, 4, 0, 0, 0, 0, 0⟩ : WRect), List.replicate 40 5, by decide +kernel⟩,
   ⟨0, 0, 0, by decide +kernel⟩,
   ⟨(⟨10, 10, 20, 20, 4, 0, 0, 0, 0, 0⟩ : WRect), 12, 12, 2, 17, 2, 17, 2, by decide +kernel⟩,
   ⟨(⟨10, 10, 20, 20, 3, 0, 0, 9, 9, 9⟩ : WRect), 12, by decide +kernel⟩⟩

/-- The hypotheses of each clause of `RegistersAndReadyBits` can be met. -/
theorem witness_RegistersAndReadyBits :
    (∃ (s : Machine.State), s.regsOk = true)
    ∧ (∃ (s : Machine.State), s.coreOff = true)
    ∧ (∃ (s : Machine.State) (b : ℕ), (b < 32) ∧ (s.coreOff = false))
    ∧ (∃ (s : Machine.State) (b : ℕ) (k : ℕ), (b < 32) ∧ (s.coreOff = false) ∧ (k < 32) ∧ (k ≠ b))
    ∧ (∃ (s : Machine.State) (b : ℕ), (b < 32) ∧ (s.isReady b = true))
    ∧ (∃ (s : Machine.State) (b : ℕ) (k : ℕ), (b < 32) ∧ (s.isReady b = true) ∧ (k < 32) ∧ (k ≠ b))
    ∧ (∃ (s : Machine.State) (b : ℕ), s.isReady b = false) :=
  ⟨⟨State.reset, by decide +kernel⟩,
   ⟨State.reset, by decide +kernel⟩,
   ⟨{ State.reset with rst.applying := none }, 0, by decide +kernel⟩,
   ⟨{ State.reset with rst.applying := none }, 0, 3, by decide +kernel⟩,
   ⟨(ready [0] <| State.reset), 0, by decide +kernel⟩,
   ⟨(ready [0] <| State.reset), 0, 3, by decide +kernel⟩,
   ⟨(ready [] <| State.reset), 0, by decide +kernel⟩⟩

/-- The hypotheses of each clause of `SupplyAndPowerOnReset` can be met. -/
theorem witness_SupplyAndPowerOnReset :
    (∃ (s : Machine.State), s.takesReset ResetClass.powerOn = true)
    ∧ (∃ (s : Machine.State), s.takesReset ResetClass.powerOn = false) :=
  ⟨⟨{ State.reset with rst.applying := none }, by decide +kernel⟩,
   ⟨State.reset, by decide +kernel⟩⟩

/-- The hypotheses of each clause of `StagingAndClosing` can be met. -/
theorem witness_StagingAndClosing :
    (∃ (s : Machine.State) (off : ℕ), (s.hostReaches = true) ∧ (isStaged off = true) ∧ (off < 6553600) ∧ (isLk off = false) ∧ (s.txnOf 0 =
        none))
    ∧ (∃ (s : Machine.State) (off : ℕ), (s.hostReaches = true) ∧ (isLk off = true) ∧ (isStaged off = true) ∧ (off < 6553600) ∧
        (s.panelLocked = true))
    ∧ (∃ (s : Machine.State) (off : ℕ) (x : Txn), (s.hostReaches = true) ∧ (isStaged off = true) ∧ (off < 6553600) ∧ (isLk off = false) ∧
        (s.txnOf 0 = some x) ∧ (bit x.mask (groupOf off) = false))
    ∧ (∃ (s : Machine.State) (off : ℕ) (x : Txn), (s.hostReaches = true) ∧ (isStaged off = true) ∧ (off < 6553600) ∧ (isLk off = false) ∧
        (s.txnOf 0 = some x) ∧ (bit x.mask (groupOf off) = true) ∧ (List.length x.regs < stageLimit))
    ∧ (∃ (off : ℕ), isStaged off = false)
    ∧ (∃ (s : Machine.State) (c : Fin 256) (d : Desc), (s.startable (↑c) (isOp 2) = some d) ∧ (∀ x ∈ s.txnOf ↑c, x.id ≠ d.arg 0))
    ∧ (∃ (s : Machine.State) (c : Fin 256) (d : Desc) (x : Txn), (s.startable (↑c) (isOp 2) = some d) ∧ (s.txnOf ↑c = some x) ∧ (x.id =
        d.arg 0) ∧ (x.checking = false))
    ∧ (∃ (s : Machine.State) (c : Fin 256) (d : Desc), (s.startable (↑c) (isOp 3) = some d) ∧ (∀ x ∈ s.txnOf ↑c, x.id ≠ d.arg 0))
    ∧ (∃ (s : Machine.State) (c : Fin 256) (d : Desc) (x : Txn), (s.startable (↑c) (isOp 3) = some d) ∧ (s.txnOf ↑c = some x) ∧ (x.id =
        d.arg 0) ∧ (x.checking = false) ∧ (x.loads = [])) :=
  ⟨⟨(on [2] <| State.reset), (Reg.VIEW_CFG 0), by decide +kernel⟩,
   ⟨(on [2] <| rf Reg.DMU_PANEL F.DMU_PANEL_LOCK 1 State.reset), Reg.DMU_PANEL, by decide +kernel⟩,
   ⟨{ (on [2] <| State.reset) with stg.txns := [(⟨0, 1, 0, 0, false, false, [], [], [], false, false, 0, false⟩ : Txn)] }, (Reg.VIEW_CFG
       0), (⟨0, 1, 0, 0, false, false, [], [], [], false, false, 0, false⟩ : Txn), by decide +kernel⟩,
   ⟨{ (on [2] <| State.reset) with stg.txns := [(⟨0, 1, 0, 2 ^ 36 - 1, false, false, [], [], [], false, false, 0, false⟩ : Txn)] },
       (Reg.VIEW_CFG 0), (⟨0, 1, 0, 2 ^ 36 - 1, false, false, [], [], [], false, false, 0, false⟩ : Txn), by decide +kernel⟩,
   ⟨0, by decide +kernel⟩,
   ⟨{ (rf (Reg.HST_CSTAT 3) F.HST_CSTAT_RUN 1 State.reset) with hst.clients := [(3, { Client.init with descs := [(dsc 2 8 0 0 [0])] })] },
       3, (dsc 2 8 0 0 [0]), by decide +kernel⟩,
   ⟨{ (rf (Reg.HST_CSTAT 3) F.HST_CSTAT_RUN 1 State.reset) with stg.txns := [(⟨0, 1, 3, 2 ^ 36 - 1, false, false, [], [], [], false, false, 0, false⟩ : Txn)], hst.clients := [(3, { Client.init with descs := [(dsc 2 8 0 0 [1])] })] },
       3, (dsc 2 8 0 0 [1]), (⟨0, 1, 3, 2 ^ 36 - 1, false, false, [], [], [], false, false, 0, false⟩ : Txn), by decide +kernel⟩,
   ⟨{ (rf (Reg.HST_CSTAT 3) F.HST_CSTAT_RUN 1 State.reset) with hst.clients := [(3, { Client.init with descs := [(dsc 3 4 0 0 [0])] })] },
       3, (dsc 3 4 0 0 [0]), by decide +kernel⟩,
   ⟨{ (rf (Reg.HST_CSTAT 3) F.HST_CSTAT_RUN 1 State.reset) with stg.txns := [(⟨0, 1, 3, 2 ^ 36 - 1, false, false, [], [], [], false, false, 0, false⟩ : Txn)], hst.clients := [(3, { Client.init with descs := [(dsc 3 4 0 0 [1])] })] },
       3, (dsc 3 4 0 0 [1]), (⟨0, 1, 3, 2 ^ 36 - 1, false, false, [], [], [], false, false, 0, false⟩ : Txn), by decide +kernel⟩⟩

/-- The hypotheses of each clause of `TouchmarkRelay` can be met. -/
theorem witness_TouchmarkRelay :
    (∃ (s : Machine.State) (c : Fin 256) (d : Desc), (s.startable (↑c) (isOp 36) = some d) ∧ (s.hst.linkUp = true))
    ∧ (∃ (s : Machine.State), s.tmk.relays = [] ∨ s.tmk.relayResp = none)
    ∧ (∃ (s : Machine.State) (c : ℕ) (idx : ℕ) (d : Desc) (req : List Byte) (f : List Byte) (l : List (ℕ × ℕ × List Byte)), (s.tmk.relays
        = (c, idx, req) :: l) ∧ (s.tmk.relayResp = some f) ∧ (s.desc? c idx = some d) ∧ (leAt 0 1 req ≠ 1 ∨ leAt 0 1 f ≠ 0))
    ∧ (∃ (s : Machine.State) (c : ℕ) (idx : ℕ) (d : Desc) (req : List Byte) (f : List Byte), (c < 256) ∧ (s.tmk.relays = [(c, idx, req)])
        ∧ (s.tmk.relayResp = some f) ∧ (s.desc? c idx = some d) ∧ (leAt 0 1 req = 1) ∧ (leAt 0 1 f = 0))
    ∧ (∃ (s : Machine.State), (s.flag Reg.TMK_STAT F.TMK_STAT_LINK = false) ∧ (s.tmk.relays = []))
    ∧ (∃ (s : Machine.State) (c : ℕ) (idx : ℕ) (d : Desc) (req : List Byte), (c < 256) ∧ (s.flag Reg.TMK_STAT F.TMK_STAT_LINK = false) ∧
        (s.tmk.relays = [(c, idx, req)]) ∧ (s.desc? c idx = some d))
    ∧ (∃ (s : Machine.State), (s.flag Reg.TMK_STAT F.TMK_STAT_LINK = true) ∧ (s.tmk.relays = []))
    ∧ (∃ (s : Machine.State) (c : ℕ) (idx : ℕ) (d : Desc) (req : List Byte), (c < 256) ∧ (s.flag Reg.TMK_STAT F.TMK_STAT_LINK = true) ∧
        (s.tmk.relays = [(c, idx, req)]) ∧ (s.desc? c idx = some d))
    ∧ (∃ (s : Machine.State), s.flag Reg.TMK_STAT F.TMK_STAT_LINK = true ∨ s.rst.stepsDone.contains 5 = false ∨ s.pwr.dormant = true ∨
        s.rst.hostReset = true)
    ∧ (∃ (s : Machine.State), (s.flag Reg.TMK_STAT F.TMK_STAT_LINK = false) ∧ (s.rst.stepsDone.contains 5 = true) ∧ (s.pwr.dormant =
        false) ∧ (s.rst.hostReset = false) ∧ (s.coreOff = false))
    ∧ (∃ (s : Machine.State), s.tmk.powered = false)
    ∧ (∃ (s : Machine.State) (r : PortRead), (s.tmk.powered = true) ∧ (r.addr ≠ 181))
    ∧ (∃ (s : Machine.State) (f : List Byte), (s.tmk.powered = true) ∧ (s.tmk.resp = some f))
    ∧ (∃ (s : Machine.State) (r : PortRead) (f : List Byte), (s.tmk.powered = true) ∧ (s.tmk.resp = some f) ∧ (r.addr = 181) ∧ (r.how ≠
        PortHow.whole))
    ∧ (∃ (s : Machine.State), (s.tmk.powered = true) ∧ (s.tmk.resp = none))
    ∧ (∃ (s : Machine.State), (s.hostReaches = true) ∧ (s.stallDomain Reg.TMK_DOSE_CLR = none))
    ∧ (∃ (s : Machine.State) (f : List Byte) (n : ℕ), (s.tmk.powered = true) ∧ (s.tmk.resp = none) ∧ (badRequest f = some n))
    ∧ (∃ (s : Machine.State) (a : Byte) (f : List Byte) (n : ℕ), (s.tmk.powered = true) ∧ (badRequest f = some n) ∧ (a ≠ 180 ∨ s.tmk.resp
        ≠ none))
    ∧ (∃ (s : Machine.State) (f : List Byte) (n : ℕ), (s.tmk.powered = true) ∧ (s.relayFrame = some f) ∧ (badRequest f = some n)) :=
  ⟨⟨{ (rf (Reg.HST_CSTAT 3) F.HST_CSTAT_RUN 1 State.reset) with hst.linkUp := true, hst.clients := [(3, { Client.init with descs := [(dsc 36 64 0 0 [0])] })] },
      3, (dsc 36 64 0 0 [0]), by decide +kernel⟩,
   ⟨State.reset, by decide +kernel⟩,
   ⟨{ State.reset with tmk.relays := (0, 0, ([])) :: ([]), tmk.relayResp := some ([]), hst.clients := [(0, { Client.init with descs := [(dsc 3 4 0 0 [0])] })] },
       0, 0, (dsc 3 4 0 0 [0]), [], [], [], by decide +kernel⟩,
   ⟨{ State.reset with tmk.relays := [(3, 0, ([1]))], tmk.relayResp := some ([0]), hst.clients := [(3, { Client.init with descs := [(dsc 3 4 0 0 [0])] })] },
       3, 0, (dsc 3 4 0 0 [0]), [1], [0], by decide +kernel⟩,
   ⟨(rf Reg.TMK_STAT F.TMK_STAT_LINK 0 State.reset), by decide +kernel⟩,
   ⟨{ (rf Reg.TMK_STAT F.TMK_STAT_LINK 0 State.reset) with tmk.relays := [(0, 0, ([]))], hst.clients := [(0, { Client.init with descs := [(dsc 3 4 0 0 [0])] })] },
       0, 0, (dsc 3 4 0 0 [0]), [], by decide +kernel⟩,
   ⟨(rf Reg.TMK_STAT F.TMK_STAT_LINK 1 State.reset), by decide +kernel⟩,
   ⟨{ (rf Reg.TMK_STAT F.TMK_STAT_LINK 1 State.reset) with tmk.relays := [(0, 0, ([]))], hst.clients := [(0, { Client.init with descs := [(dsc 3 4 0 0 [0])] })] },
       0, 0, (dsc 3 4 0 0 [0]), [], by decide +kernel⟩,
   ⟨(rf Reg.TMK_STAT F.TMK_STAT_LINK 1 State.reset), by decide +kernel⟩,
   ⟨{ (rf Reg.TMK_STAT F.TMK_STAT_LINK 0 State.reset) with rst.applying := none, rst.stepsDone := [5] }, by decide +kernel⟩,
   ⟨{ State.reset with tmk.powered := false }, by decide +kernel⟩,
   ⟨State.reset, ⟨0, .whole⟩, by decide +kernel⟩,
   ⟨{ State.reset with tmk.resp := some ([]) }, [], by decide +kernel⟩,
   ⟨{ State.reset with tmk.resp := some ([]) }, ⟨0xB5, .part⟩, [], by decide +kernel⟩,
   ⟨State.reset, by decide +kernel⟩,
   ⟨(on [2, (domainOf (Reg.TMK_DOSE_CLR))] <| State.reset), by decide +kernel⟩,
   ⟨State.reset, [], 1, by decide +kernel⟩,
   ⟨State.reset, 0, [], 1, by decide +kernel⟩,
   ⟨{ (rf Reg.TMK_STAT F.TMK_STAT_LINK 1 State.reset) with tmk.relays := [(3, 0, [])] }, [], 1, by decide +kernel⟩⟩

/-- The hypotheses of `SealIsForever` can be met. -/
theorem witness_SealIsForever :
    ∃ (s : Machine.State) (t : Machine.State), (s.tmk.fuse = true) ∧ (step s = Host.Outcome.next t) :=
  ⟨{ State.reset with tmk.fuse := true }, _, rfl, rfl⟩

/-- The hypotheses of each clause of `ColumnDrivers` can be met. -/
theorem witness_ColumnDrivers :
    (∃ (s : Machine.State) (g : Fin 24), s.drvState ↑g = 0)
    ∧ (∃ (s : Machine.State) (g : Fin 24) (f : BatStatus), (s.drvState ↑g = 4) ∧ ((s.driver ↑g).phase = 0) ∧ (f.valid = true) ∧ (f.short =
        false) ∧ (f.rowCrc = false) ∧ (f.blkErr = false))
    ∧ (∃ (s : Machine.State) (g : Fin 24) (f : BatStatus), (s.drvState ↑g = 2) ∧ (f.valid = false) ∧ ((s.driver ↑g).phase = 0))
    ∧ (∃ (s : Machine.State) (g : Fin 24) (f : BatStatus), (s.drvState ↑g = 2) ∧ ((s.driver ↑g).phase = 0) ∧ (f.valid = true) ∧ (f.lock =
        true) ∧ (f.short = false) ∧ (f.rowCrc = false) ∧ (f.blkErr = false))
    ∧ (∃ (s : Machine.State) (g : Fin 24) (f : BatStatus), (s.drvState ↑g = 2) ∧ ((s.driver ↑g).phase = 0) ∧ ((s.driver ↑g).lockMiss ≠ 0)
        ∧ (f.valid = true) ∧ (f.lock = false) ∧ (f.short = false) ∧ (f.rowCrc = false) ∧ (f.blkErr = false))
    ∧ (∃ (s : Machine.State) (g : Fin 24) (f : BatStatus), (s.drvState ↑g = 3) ∧ ((s.driver ↑g).phase = 0) ∧ ((s.driver ↑g).back = 3) ∧
        (f.valid = true) ∧ (f.lock = true) ∧ (f.short = false) ∧ (f.rowCrc = false) ∧ (f.blkErr = false))
    ∧ (∃ (s : Machine.State) (g : Fin 24) (f : BatStatus), (s.drvState ↑g = 1) ∧ ((s.driver ↑g).phase = 1) ∧ (3 ≤ (s.driver ↑g).good) ∧
        (f.valid = true) ∧ (f.short = false) ∧ (f.rowCrc = false) ∧ (f.blkErr = false))
    ∧ (∃ (s : Machine.State) (g : Fin 24), s.drvState ↑g = 2)
    ∧ (∃ (s : Machine.State) (g : Fin 24), s.drvState ↑g ≠ 2)
    ∧ (∃ (s : Machine.State) (g : Fin 24), s.drvState ↑g = 1)
    ∧ (∃ (s : Machine.State) (g : Fin 24), s.drvState ↑g ≠ 1)
    ∧ (∃ (s : Machine.State) (g : Fin 24) (r : BatResp), (s.drvState ↑g = 2) ∧ (r.valid = false))
    ∧ (∃ (s : Machine.State) (g : Fin 24) (r : BatResp) (c : DrvCmd), (s.drvState ↑g = 2) ∧ (r.valid = true) ∧ ((s.driver ↑g).cmd = some
        c) ∧ (r.tag.toNat ≠ c.tag))
    ∧ (∃ (s : Machine.State) (g : Fin 24) (r : BatResp) (c : DrvCmd), (s.drvState ↑g = 2) ∧ (r.valid = true) ∧ ((s.driver ↑g).cmd = some
        c) ∧ (r.tag.toNat = c.tag) ∧ (c.use = DrvUse.host) ∧ (c.write = false) ∧ (r.result = 0) ∧ ((s.driver ↑g).queue = []))
    ∧ (∃ (s : Machine.State) (g : Fin 24) (r : BatResp) (c : DrvCmd), (s.drvState ↑g = 1) ∧ (r.valid = true) ∧ ((s.driver ↑g).cmd = some
        c) ∧ (r.tag.toNat = c.tag) ∧ (c.use = DrvUse.train) ∧ ((s.driver ↑g).phase = 5) ∧ (r.result = 0) ∧ (r.data = (s.driver ↑g).map))
    ∧ (∃ (s : Machine.State) (g : Fin 24) (r : BatResp) (c : DrvCmd), (s.drvState ↑g = 1) ∧ (r.valid = true) ∧ ((s.driver ↑g).cmd = some
        c) ∧ (r.tag.toNat = c.tag) ∧ (c.use = DrvUse.train) ∧ (r.result ≠ 0))
    ∧ (∃ (s : Machine.State) (g : Fin 24), (s.driver ↑g).cmd = none)
    ∧ (∃ (s : Machine.State) (g : Fin 24) (c : DrvCmd), ((s.driver ↑g).cmd = some c) ∧ (c.use = DrvUse.host) ∧ ((s.driver ↑g).queue = []))
    ∧ (∃ (s : Machine.State) (g : Fin 24) (c : DrvCmd), ((s.driver ↑g).cmd = some c) ∧ (c.use = DrvUse.seq) ∧ ((s.driver ↑g).queue = []) ∧
        (s.seq = 3) ∧ (s.seqStep = 2))
    ∧ (∃ (s : Machine.State), (Reaches s Reg.BAT_CMD) ∧ (s.flag Reg.BAT_CMDST F.BAT_CMDST_BUSY = true))
    ∧ (∃ (s : Machine.State) (v : Word) (c : Instr), (Reaches s Reg.BAT_CMD) ∧ (s.flag Reg.BAT_CMDST F.BAT_CMDST_BUSY = false) ∧ (c =
        Instr.batCmdWrite v ∨ c = Instr.batCmdRead v) ∧ (24 ≤ fieldOf F.BAT_CMD_DRV v ∨ s.drvUp (fieldOf F.BAT_CMD_DRV v) = false))
    ∧ (∃ (s : Machine.State) (v : Word) (g : ℕ), (Reaches s Reg.BAT_CMD) ∧ (s.flag Reg.BAT_CMDST F.BAT_CMDST_BUSY = false) ∧ (g = fieldOf
        F.BAT_CMD_DRV v) ∧ (g < 24) ∧ (s.drvUp g = true) ∧ ((s.driver g).cmd = none) ∧ ((s.driver g).queue = []) ∧ (fieldOf F.BAT_CMD_ADDR v ≠
        1))
    ∧ (∃ (s : Machine.State) (v : Word) (g : ℕ), (Reaches s Reg.BAT_CMD) ∧ (s.flag Reg.BAT_CMDST F.BAT_CMDST_BUSY = false) ∧ (g = fieldOf
        F.BAT_CMD_DRV v) ∧ (g < 24) ∧ (s.drvUp g = true) ∧ ((s.driver g).cmd = none) ∧ ((s.driver g).queue = [])) :=
  ⟨⟨(rf (dstat 1) F.BAT_DSTAT_STATE 0 State.reset), 1, by decide +kernel⟩,
   ⟨{ (rf (dstat 1) F.BAT_DSTAT_STATE 4 State.reset) with drv := [(1, { Driver.init with phase := 0 })] }, 1, (⟨true, true, false, false,
       false, false, 0, 0, 0, 400⟩ : BatStatus), by decide +kernel⟩,
   ⟨{ (rf (dstat 1) F.BAT_DSTAT_STATE 2 State.reset) with drv := [(1, { Driver.init with phase := 0 })] }, 1, (⟨false, true, false, false,
       false, false, 0, 0, 0, 400⟩ : BatStatus), by decide +kernel⟩,
   ⟨{ (rf (dstat 1) F.BAT_DSTAT_STATE 2 State.reset) with drv := [(1, { Driver.init with phase := 0 })] }, 1, (⟨true, true, false, false,
       false, false, 0, 0, 0, 400⟩ : BatStatus), by decide +kernel⟩,
   ⟨{ (rf (dstat 1) F.BAT_DSTAT_STATE 2 State.reset) with drv := [(1, { Driver.init with phase := 0, lockMiss := 1 })] }, 1, (⟨true,
       false, false, false, false, false, 0, 0, 0, 400⟩ : BatStatus), by decide +kernel⟩,
   ⟨{ (rf (dstat 1) F.BAT_DSTAT_STATE 3 State.reset) with drv := [(1, { Driver.init with phase := 0, back := 3 })] }, 1, (⟨true, true,
       false, false, false, false, 0, 0, 0, 400⟩ : BatStatus), by decide +kernel⟩,
   ⟨{ (rf (dstat 1) F.BAT_DSTAT_STATE 1 State.reset) with drv := [(1, { Driver.init with phase := 1, good := 3 })] }, 1, (⟨true, true,
       false, false, false, false, 0, 0, 0, 400⟩ : BatStatus), by decide +kernel⟩,
   ⟨(rf (dstat 1) F.BAT_DSTAT_STATE 2 State.reset), 1, by decide +kernel⟩,
   ⟨(rf (dstat 1) F.BAT_DSTAT_STATE 0 State.reset), 1, by decide +kernel⟩,
   ⟨(rf (dstat 1) F.BAT_DSTAT_STATE 1 State.reset), 1, by decide +kernel⟩,
   ⟨(rf (dstat 1) F.BAT_DSTAT_STATE 0 State.reset), 1, by decide +kernel⟩,
   ⟨(rf (dstat 1) F.BAT_DSTAT_STATE 2 State.reset), 1, (⟨false, 0, 0, 0⟩ : BatResp), by decide +kernel⟩,
   ⟨{ (rf (dstat 1) F.BAT_DSTAT_STATE 2 State.reset) with drv := [(1, { Driver.init with cmd := some (⟨false, 2, 0, .host, 0⟩ : DrvCmd) })] },
       1, (⟨true, 5, 0, 0⟩ : BatResp), (⟨false, 2, 0, .host, 0⟩ : DrvCmd), by decide +kernel⟩,
   ⟨{ (rf (dstat 1) F.BAT_DSTAT_STATE 2 State.reset) with drv := [(1, { Driver.init with cmd := some (⟨false, 2, 0, .host, 0⟩ : DrvCmd), queue := [] })] },
       1, (⟨true, 0, 0, 0⟩ : BatResp), (⟨false, 2, 0, .host, 0⟩ : DrvCmd), by decide +kernel⟩,
   ⟨{ (rf (dstat 1) F.BAT_DSTAT_STATE 1 State.reset) with drv := [(1, { Driver.init with cmd := some (⟨false, 2, 0, .train, 0⟩ : DrvCmd), phase := 5 })] },
       1, (⟨true, 0, 0, 0⟩ : BatResp), (⟨false, 2, 0, .train, 0⟩ : DrvCmd), by decide +kernel⟩,
   ⟨{ (rf (dstat 1) F.BAT_DSTAT_STATE 1 State.reset) with drv := [(1, { Driver.init with cmd := some (⟨false, 2, 0, .train, 0⟩ : DrvCmd) })] },
       1, (⟨true, 0, 1, 0⟩ : BatResp), (⟨false, 2, 0, .train, 0⟩ : DrvCmd), by decide +kernel⟩,
   ⟨{ State.reset with drv := [(1, { Driver.init with cmd := none })] }, 1, by decide +kernel⟩,
   ⟨{ State.reset with drv := [(1, { Driver.init with cmd := some (⟨false, 2, 0, .host, 0⟩ : DrvCmd), queue := [] })] }, 1, (⟨false, 2, 0,
       .host, 0⟩ : DrvCmd), by decide +kernel⟩,
   ⟨{ (rf Reg.SCN_PSTAT F.SCN_PSTAT_STEP 2 <| rf Reg.SCN_PSTAT F.SCN_PSTAT_SEQ 3 State.reset) with drv := [(1, { Driver.init with cmd := some (⟨true, 3, 0, .seq, 0⟩ : DrvCmd), queue := [] })] },
       1, (⟨true, 3, 0, .seq, 0⟩ : DrvCmd), by decide +kernel⟩,
   ⟨(on [2, (domainOf Reg.BAT_CMD)] <| rf Reg.BAT_CMDST F.BAT_CMDST_BUSY 1 State.reset), by unfold Reaches; decide +kernel⟩,
   ⟨(on [2, (domainOf Reg.BAT_CMD)] <| rf Reg.BAT_CMDST F.BAT_CMDST_BUSY 0 State.reset), 0, (.batCmdWrite 0),
       by unfold Reaches; decide +kernel⟩,
   ⟨{ (on [2, (domainOf Reg.BAT_CMD)] <| rf (dstat 0) F.BAT_DSTAT_STATE 2 <| rf Reg.BAT_CMDST F.BAT_CMDST_BUSY 0 State.reset) with drv := [(0, { Driver.init with cmd := none, queue := [] })] },
       0, 0, by unfold Reaches; decide +kernel⟩,
   ⟨{ (on [2, (domainOf Reg.BAT_CMD)] <| rf (dstat 0) F.BAT_DSTAT_STATE 2 <| rf Reg.BAT_CMDST F.BAT_CMDST_BUSY 0 State.reset) with drv := [(0, { Driver.init with cmd := none, queue := [] })] },
       0, 0, by unfold Reaches; decide +kernel⟩⟩

/-- The hypotheses of each clause of `CompletionsInOrder` can be met. -/
theorem witness_CompletionsInOrder :
    (∃ (s : Machine.State) (c : ℕ) (idx : ℕ) (d : Desc) (e : Desc) (rest : List Desc) (p : Cpl), (c < 256) ∧ (s.getF (Reg.HST_CCFG c)
        F.HST_CCFG_CQ_LOG2 ≤ 10) ∧ (s.hst.linkUp = true) ∧ (s.rdg.hostTags = []) ∧ (s.rdg.hostWait = []) ∧ (p.status = 0) ∧ ((s.client
        c).descs = d :: e :: rest) ∧ (d.idx = idx) ∧ (e.stage ≠ DescStage.finished) ∧ (e.idx ≠ idx) ∧ ((s.client c).cqDead = false))
    ∧ (∃ (s : Machine.State) (c : ℕ) (idx : ℕ) (d : Desc) (e : Desc) (rest : List Desc) (p : Cpl), (p.status = 0) ∧ ((s.client c).descs =
        d :: e :: rest) ∧ (e.idx = idx) ∧ (d.idx ≠ idx) ∧ (d.stage ≠ DescStage.finished))
    ∧ (∃ (c : ℕ) (k : ℕ), k ≠ c) :=
  ⟨⟨{ (rf (Reg.HST_CCFG 3) F.HST_CCFG_CQ_LOG2 0 State.reset) with hst.linkUp := true, hst.clients := [(3, { Client.init with descs := (dsc 3 4 0 0 [0]) :: ({ (dsc 3 4 0 0 [0]) with idx := 1 } : Desc) :: ([]), cqDead := false })] },
      3, 0, (dsc 3 4 0 0 [0]), ({ (dsc 3 4 0 0 [0]) with idx := 1 } : Desc), [], (Cpl.of 0), by decide +kernel⟩,
   ⟨{ State.reset with hst.clients := [(3, { Client.init with descs := (dsc 3 4 0 0 [0]) :: ({ (dsc 3 4 0 0 [0]) with idx := 1 } : Desc) :: ([]) })] },
       3, 1, (dsc 3 4 0 0 [0]), ({ (dsc 3 4 0 0 [0]) with idx := 1 } : Desc), [], (Cpl.of 0), by decide +kernel⟩,
   ⟨0, 1, by decide +kernel⟩⟩

/-- The hypotheses of each clause of `SupplyRemoved` can be met. -/
theorem witness_SupplyRemoved :
    (∃ (s : Machine.State), (s.rst.off = false) ∧ (s.seq = 0))
    ∧ (∃ (s : Machine.State), s.rst.off = true)
    ∧ (∃ (s : Machine.State), (s.rst.off = false) ∧ (s.seq ≠ 0) ∧ (s.seq ≠ 4) ∧ (s.scanRuns = false)) :=
  ⟨⟨(rf Reg.SCN_PSTAT F.SCN_PSTAT_SEQ 0 State.reset), by decide +kernel⟩,
   ⟨{ State.reset with rst.off := true }, by decide +kernel⟩,
   ⟨(rf Reg.SCN_PSTAT F.SCN_PSTAT_SEQ 2 State.reset), by decide +kernel⟩⟩

end Sys2Proof.Tests
end

section
/-! PROOFS. Composition of a row (R191 to R193): the bounds of the two roundings, the coverage of the feather, and what drawing a window
does to each subpixel. -/

namespace Sys2Proof.Machine

/-! ## The roundings of R12 stay between the bounds of the quotient -/

theorem rneDiv_nonneg {a : Int} (ha : 0 ≤ a) (b : Nat) : 0 ≤ rneDiv a b := by
  have hq : 0 ≤ a / (b : Int) := Int.ediv_nonneg ha (Int.natCast_nonneg b)
  unfold rneDiv
  dsimp only
  split_ifs <;> omega

/-- The only quotient that could round up past n is n itself, and it leaves no remainder. -/
theorem rneDiv_le {a n : Int} {b : Nat} (hb : 0 < b) (h : a ≤ n * b) : rneDiv a b ≤ n := by
  have hb' : (0 : Int) < b := by exact_mod_cast hb
  have hq : a / b ≤ n := Int.ediv_le_of_le_mul hb' h
  have hr : a / b = n → a % b ≤ 0 := by
    intro hn
    have hdiv := Int.mul_ediv_add_emod a b
    rw [hn, Int.mul_comm] at hdiv
    omega
  unfold rneDiv
  dsimp only
  split_ifs <;> omega

theorem rhuDiv_le {a n : Int} {b : Nat} (hb : 0 < b) (h : a ≤ n * b) : rhuDiv a b ≤ n := by
  have hlt : (2 * a + b) / (2 * (b : Int)) < n + 1 := by
    apply Int.ediv_lt_of_lt_mul (by omega)
    calc 2 * a + b ≤ 2 * (n * b) + b := by omega
      _ < 2 * (n * b) + 2 * b := by omega
      _ = (n + 1) * (2 * b) := by ring
  exact Int.le_of_lt_add_one hlt

/-! ## Coverage -/

@[simp] theorem faded_full (a : Nat) : faded 256 a = a := rfl

theorem maskCoverage_eq_shift (m : Nat) : maskCoverage m = m + m >>> 7 := by
  rw [maskCoverage, Nat.shiftRight_eq_div_pow]

/-- The coverage of the feather as a function of the distance d to the nearest edge, extensions counted (R191). -/
theorem coverage_eq_of_distance {r : WRect} {x y dl dr dt db : Nat} (hx0 : r.x0 ≤ x) (hx : x < r.x0 + r.w) (hy0 : r.y0 ≤ y)
    (hy : y < r.y0 + r.h) (hl : dl + r.x0 = x + r.extL) (hr : dr + x + 1 = r.x0 + r.w + r.extR) (ht : dt + r.y0 = y + r.extT)
    (hb : db + y + 1 = r.y0 + r.h + r.extB) :
    coverage r x y = if r.feather = 0 ∨ min (min dl dr) (min dt db) ≥ r.feather then 256
      else (rhuDiv (256 * (2 * min (min dl dr) (min dt db) + 1) : Nat) (2 * r.feather)).toNat := by
  obtain rfl : dl = x - r.x0 + r.extL := by omega
  obtain rfl : dr = r.x0 + r.w - 1 - x + r.extR := by omega
  obtain rfl : dt = y - r.y0 + r.extT := by omega
  obtain rfl : db = r.y0 + r.h - 1 - y + r.extB := by omega
  rfl

theorem coverage_le (r : WRect) (x y : Nat) : coverage r x y ≤ 256 := by
  unfold coverage
  dsimp only
  split_ifs with hin
  · exact le_rfl
  · exact Int.toNat_le.2 (rhuDiv_le (by omega) (by omega))

/-- A feather of three pixels at a left edge without an extension, far from the other edges. -/
theorem coverage_left_edge_three {r : WRect} {y : Nat} (hf : r.feather = 3) (hl : r.extL = 0) (hr : r.extR = 9) (ht : r.extT = 9)
    (hb : r.extB = 9) (hw : 3 ≤ r.w) (hy0 : r.y0 ≤ y) (hy : y < r.y0 + r.h) :
    [0, 1, 2].map (fun j => coverage r (r.x0 + j) y) = [43, 128, 213] := by
  have hcov : ∀ j ∈ [0, 1, 2], coverage r (r.x0 + j) y = (rhuDiv (256 * (2 * j + 1) : Nat) 6).toNat := by
    intro j hj
    have hj3 : j < 3 := by simp at hj; omega
    obtain ⟨db, hdb⟩ : ∃ db, db + y + 1 = r.y0 + r.h + r.extB := ⟨r.y0 + r.h + r.extB - (y + 1), by omega⟩
    obtain ⟨dr, hdr⟩ : ∃ dr, dr + (r.x0 + j) + 1 = r.x0 + r.w + r.extR := ⟨r.w + r.extR - (j + 1), by omega⟩
    rw [coverage_eq_of_distance (dl := j) (dt := y + r.extT - r.y0) (by omega) (by omega) hy0 hy (by omega) hdr (by omega) hdb, hf,
      show min (min j dr) (min (y + r.extT - r.y0) db) = j by omega, if_neg (by omega)]
  rw [List.map_congr_left hcov]
  decide

/-! ## One window over a row -/

/-- A subpixel u over old with coverage a out of 256, rounded once (R193). -/
def blend (a u old : Nat) : Nat := (rneDiv ((a * u + (256 - a) * old : Nat) : Int) 256).toNat

theorem weightedSum_le {a u old n : Nat} (ha : a ≤ 256) (hu : u ≤ n) (hold : old ≤ n) : a * u + (256 - a) * old ≤ 256 * n :=
  calc a * u + (256 - a) * old ≤ a * n + (256 - a) * n := Nat.add_le_add (Nat.mul_le_mul_left _ hu) (Nat.mul_le_mul_left _ hold)
    _ = 256 * n := by rw [← Nat.add_mul, Nat.add_sub_cancel' ha]

/-- The coverage that subpixels of column x in row y of window w get: of the mask or of the feather, scaled by the fade. -/
def State.windowCoverage (s : State) (v w : Nat) (k : Pick) (r : WRect) (x y : Nat) : Nat :=
  faded (pickSource k).2 (if r.fsrc = 1 then
    maskCoverage ((s.readMaskRow (selMask v w + (pickSource k).1 % 16) (y - r.y0) r.w).getD (x - r.x0) 0) else coverage r x y)

/-- The window's own subpixel at index i of row y. -/
def State.windowSubpixel (s : State) (k : Pick) (r : WRect) (y i : Nat) : Nat :=
  (s.readRow (pickSource k).1 (y - r.y0)).1.getD (3 * (i / 3 - r.x0) + i % 3) 0

section
variable {s : State} {v w y i old : Nat} {k : Pick} {r : WRect} {acc : List Nat}

theorem State.drawWindow_outside_rows (hr : s.pickRect k = some r) (hy : y < r.y0 ∨ r.y0 + r.h ≤ y) : s.drawWindow v w k y acc = acc := by
  simp only [State.drawWindow, hr, if_pos hy]

/-- In a row of its rectangle, a window keeps the subpixels of the columns outside it and blends its own over the others. -/
theorem State.drawWindow_getElem? (hr : s.pickRect k = some r) (hy0 : r.y0 ≤ y) (hy : y < r.y0 + r.h) (hold : acc[i]? = some old) :
    (s.drawWindow v w k y acc)[i]? = some (if i / 3 < r.x0 ∨ r.x0 + r.w ≤ i / 3 then old
      else blend (s.windowCoverage v w k r (i / 3) y) (s.windowSubpixel k r y i) old) := by
  have hin : ¬(y < r.y0 ∨ r.y0 + r.h ≤ y) := by omega
  by_cases hmask : r.fsrc = 1 <;>
    simp [State.drawWindow, State.windowCoverage, State.windowSubpixel, blend, hr, hin, hmask, hold, List.getElem?_zipIdx]

theorem State.drawWindow_outside_columns (hr : s.pickRect k = some r) (hold : acc[i]? = some old)
    (hx : i / 3 < r.x0 ∨ r.x0 + r.w ≤ i / 3) : (s.drawWindow v w k y acc)[i]? = some old := by
  by_cases hy : y < r.y0 ∨ r.y0 + r.h ≤ y
  · rw [State.drawWindow_outside_rows hr hy, hold]
  · rw [State.drawWindow_getElem? hr (by omega) (by omega) hold, if_pos hx]

theorem State.drawWindow_inside (hr : s.pickRect k = some r) (hold : acc[i]? = some old) (hx0 : r.x0 ≤ i / 3) (hx : i / 3 < r.x0 + r.w)
    (hy0 : r.y0 ≤ y) (hy : y < r.y0 + r.h) :
    (s.drawWindow v w k y acc)[i]? = some (blend (s.windowCoverage v w k r (i / 3) y) (s.windowSubpixel k r y i) old) := by
  rw [State.drawWindow_getElem? hr hy0 hy hold, if_neg (by omega)]

end

/-- Settles O39: the windows are drawn by what `drawWindow` does to each subpixel, and both roundings stay within their bounds. -/
theorem windowsComposed : Obligations.WindowsComposed := by
  unfold Obligations.WindowsComposed
  refine ⟨fun s p y => rfl, fun s v w y k r acc hr hy => State.drawWindow_outside_rows hr hy,
    fun s v w y i old k r acc hr hold hx => State.drawWindow_outside_columns hr hold hx, ?drawn, ?bound, ?feather,
    fun r y hf hl hr ht hb hw hy0 hy => coverage_left_edge_three hf hl hr ht hb hw hy0 hy, faded_full, by decide⟩
  case drawn =>
    rintro s v w x y i a m u old k r acc hr hold rfl hx0 hx hy0 hy rfl rfl rfl
    rw [← maskCoverage_eq_shift]
    exact State.drawWindow_inside hr hold hx0 hx hy0 hy
  case bound =>
    intro a u old ha hu hold
    have hsum : a * u + (256 - a) * old ≤ 256 * (2 ^ 18 - 1) := weightedSum_le ha (by omega) (by omega)
    have hle : rneDiv ((a * u + (256 - a) * old : Nat) : Int) 256 ≤ 2 ^ 18 - 1 := rneDiv_le (by omega) (by omega)
    exact ⟨by omega, rneDiv_nonneg (Int.natCast_nonneg _) 256, by omega⟩
  case feather =>
    rintro r x y dl dr dt db d hx0 hx hy0 hy hl hr ht hb rfl
    exact ⟨coverage_eq_of_distance hx0 hx hy0 hy hl hr ht hb, coverage_le r x y⟩

end Sys2Proof.Machine
end

section
/-! PROOFS. The colour table (R266, R267): the node and the fraction of an index position, the tetrahedron that three fractions choose,
the sum along its corners, and what the table then gives. -/

namespace Sys2Proof.Machine

/-! ## The node and the fraction of an index position (R266) -/

theorem cubeSpacing_spans_range {n w : Nat} (hn : n = 17 ∧ w = 16384 ∨ n = 33 ∧ w = 8192) :
    w = 262144 / (n - 1) ∧ 262144 = w * (n - 2) + w := by
  obtain ⟨rfl, rfl⟩ | ⟨rfl, rfl⟩ := hn <;> decide

theorem mul_node_le (w n q : Nat) : w * min (q / w) (n - 2) ≤ q :=
  (Nat.mul_le_mul_left w (Nat.min_le_left _ _)).trans (Nat.mul_div_le q w)

/-- The last node but one takes the positions up to the end of the range, so no fraction passes the spacing. -/
theorem fraction_le {w n q : Nat} (hw : 0 < w) (hq : q ≤ w * (n - 2) + w) : q - w * min (q / w) (n - 2) ≤ w := by
  obtain h | h := Nat.le_total (q / w) (n - 2)
  · rw [Nat.min_eq_left h]
    have := Nat.lt_mul_div_succ q hw
    rw [Nat.mul_succ] at this
    omega
  · rw [Nat.min_eq_right h]
    omega

/-! ## The choice of the tetrahedron (R267) -/

/-- R267's conditions speak of three comparisons; the two combinations that no row takes are those that no three numbers give. -/
theorem tetraCases_count (fr fg fb : Nat) : (tetraCases fr fg fb).count true = 1 := by
  have both : fg ≤ fr → fb ≤ fg → fb ≤ fr := by omega
  have neither : ¬fg ≤ fr → ¬fb ≤ fg → ¬fb ≤ fr := by omega
  simp only [tetraCases, ge_iff_le, gt_iff_lt, ← Nat.not_le]
  by_cases hrg : fg ≤ fr <;> by_cases hgb : fb ≤ fg <;> by_cases hrb : fb ≤ fr <;>
    simp [hrg, hgb, hrb] at both neither ⊢

/-- The three corners after C(0, 0, 0) with their fractions, in the order of the sum, for each row of R267's table. -/
def tetraPaths (fr fg fb : Nat) : List (List ((Nat × Nat × Nat) × Nat)) :=
  [[((1, 0, 0), fr), ((1, 1, 0), fg), ((1, 1, 1), fb)], [((1, 0, 0), fr), ((1, 0, 1), fb), ((1, 1, 1), fg)],
   [((0, 0, 1), fb), ((1, 0, 1), fr), ((1, 1, 1), fg)], [((0, 1, 0), fg), ((1, 1, 0), fr), ((1, 1, 1), fb)],
   [((0, 1, 0), fg), ((0, 1, 1), fb), ((1, 1, 1), fr)], [((0, 0, 1), fb), ((0, 1, 1), fg), ((1, 1, 1), fr)]]

/-- The row whose condition holds is the one that `tetra` takes. -/
theorem tetraPaths_getElem?_of_case {fr fg fb k : Nat} (hk : (tetraCases fr fg fb)[k]? = some true) :
    (tetraPaths fr fg fb)[k]? = some (tetra fr fg fb) := by
  match k with
  | 0 | 1 | 2 | 3 | 4 | 5 =>
    simp [tetraCases] at hk
    simp (disch := omega) only [tetra, if_pos, if_neg]
    rfl
  | _ + 6 => simp [tetraCases] at hk

/-- The sum S of R267 over the entries C(dr, dg, db), along the corners of `path`. -/
def pathSum (w : Nat) (e : Nat → Nat → Nat → Int) (path : List ((Nat × Nat × Nat) × Nat)) : Int :=
  tetraSum w (e 0 0 0) (e 0 0 0) (path.map (fun p => (e p.1.1 p.1.2.1 p.1.2.2, p.2)))

theorem tetraSums_eq_map_pathSum (w fr fg fb : Nat) (e : Nat → Nat → Nat → Int) :
    tetraSums w fr fg fb e = (tetraPaths fr fg fb).map (pathSum w e) := by
  simp only [tetraSums, tetraPaths, pathSum, tetraSum, List.map_cons, List.map_nil]
  ring_nf

/-! ## The sum is a convex combination (R267) -/

/-- The induction behind the convex combination. The entry before the rest of the path still holds the weight f, at least that of the
corner to come; the step to that corner hands its fraction g over to it, so the rest adds no less than if all of f went to entries of 0
and no more than if all of it went to entries of M. -/
theorem tetraSum_sub_mem_Icc {M c0 : Int} {w : Nat} : ∀ {path : List (Int × Nat)} {f : Nat} {prev : Int},
    (f :: path.map Prod.snd).IsChain (· ≥ ·) → (∀ p ∈ path, p.1 ∈ Set.Icc 0 M) → prev ∈ Set.Icc 0 M →
    tetraSum w c0 prev path - w * c0 ∈ Set.Icc (-(f * prev)) (f * (M - prev))
  | [], f, prev, _, _, ⟨hprev, hprevM⟩ => by
    have hlo : 0 ≤ (f : Int) * prev := mul_nonneg (Int.natCast_nonneg f) hprev
    have hhi : 0 ≤ (f : Int) * (M - prev) := mul_nonneg (Int.natCast_nonneg f) (Int.sub_nonneg.2 hprevM)
    simpa [tetraSum] using And.intro hlo hhi
  | (c, g) :: path, f, prev, hchain, hmem, ⟨hprev, hprevM⟩ => by
    obtain ⟨hgf, hchain⟩ := List.isChain_cons_cons.1 hchain
    obtain ⟨hc, hmem⟩ := List.forall_mem_cons.1 hmem
    obtain ⟨hlo, hhi⟩ := tetraSum_sub_mem_Icc (w := w) (c0 := c0) hchain hmem hc
    have hgf : (g : Int) ≤ f := Int.ofNat_le.2 hgf
    have hprev_lo : g * prev ≤ f * prev := mul_le_mul_of_nonneg_right hgf hprev
    have hprev_hi : g * (M - prev) ≤ f * (M - prev) := mul_le_mul_of_nonneg_right hgf (Int.sub_nonneg.2 hprevM)
    constructor <;> simp only [tetraSum] <;> linarith

theorem tetra_fractions_isChain {w fr fg fb : Nat} (hr : fr ≤ w) (hg : fg ≤ w) (hb : fb ≤ w) :
    (w :: (tetra fr fg fb).map Prod.snd).IsChain (· ≥ ·) := by
  unfold tetra
  split_ifs <;> simp <;> omega

theorem pathSum_tetra_mem_Icc {M : Int} {w fr fg fb : Nat} {e : Nat → Nat → Nat → Int} (he : ∀ dr dg db, e dr dg db ∈ Set.Icc 0 M)
    (hr : fr ≤ w) (hg : fg ≤ w) (hb : fb ≤ w) : pathSum w e (tetra fr fg fb) ∈ Set.Icc 0 (M * w) := by
  have hchain : (w :: ((tetra fr fg fb).map (fun p => (e p.1.1 p.1.2.1 p.1.2.2, p.2))).map Prod.snd).IsChain (· ≥ ·) := by
    simpa [Function.comp_def] using tetra_fractions_isChain hr hg hb
  have hmem : ∀ p ∈ (tetra fr fg fb).map (fun p => (e p.1.1 p.1.2.1 p.1.2.2, p.2)), p.1 ∈ Set.Icc 0 M :=
    List.forall_mem_map.2 fun p _ => he _ _ _
  obtain ⟨hlo, hhi⟩ := tetraSum_sub_mem_Icc (w := w) (c0 := e 0 0 0) hchain hmem (he 0 0 0)
  constructor <;> unfold pathSum <;> linarith

/-! ## The table's output -/

theorem State.bankBadHalf_of_no_bad {s : State} (hbad : s.bnk.bad = []) (h t c i : Nat) : s.bankBadHalf h t c i = false := by
  simp [State.bankBadHalf, hbad]

/-- Colour c of the entry at the node that lies (dr, dg, db) from node (ir, ig, ib). -/
def State.cubeColour (s : State) (v n ir ig ib c dr dg db : Nat) : Int :=
  (s.cubeEntry v n (ir + dr) (ig + dg) (ib + db) / 2 ^ (18 * c) % 2 ^ 18 : Nat)

theorem State.cubeColour_mem_Icc (s : State) (v n ir ig ib c dr dg db : Nat) :
    s.cubeColour v n ir ig ib c dr dg db ∈ Set.Icc 0 (2 ^ 18 - 1) := by
  unfold State.cubeColour
  constructor <;> omega

theorem State.cube_of_no_bad {s : State} {h v n w mr mg mb ir ig ib : Nat} {vc : ViewColour} (hn : vc.cube = n) (hw : w = 262144 / (n - 1))
    (hbad : s.bnk.bad = []) (hir : ir = min (curve vc.linear mr / w) (n - 2)) (hig : ig = min (curve vc.linear mg / w) (n - 2))
    (hib : ib = min (curve vc.linear mb / w) (n - 2)) :
    s.cube h v vc [mr, mg, mb] = .inl ((List.range 3).map (fun c => satU 18 (rneDiv (pathSum w (s.cubeColour v n ir ig ib c)
      (tetra (curve vc.linear mr - w * ir) (curve vc.linear mg - w * ig) (curve vc.linear mb - w * ib))) w))) := by
  subst hn hw hir hig hib
  have hfind : ∀ corners : List ((Nat × Nat × Nat) × Nat), corners.find? (fun e => s.bankBadHalf h (0x20000 + v)
      (s.copyOf (0x20000 + v)) (8 * nodeIndex vc.cube e.1)) = none := fun corners =>
    List.find?_eq_none.2 fun e _ => by simp [State.bankBadHalf_of_no_bad hbad]
  simp only [State.cube, hfind, cubeCorners, List.map_cons, List.map_map, List.map_nil, List.zip_cons_cons, List.getD_cons_zero,
    List.getD_cons_succ, List.headD_cons, List.tail_cons, pathSum, State.cubeColour, Function.comp_def]

/-- Settles O40: the sum of the row that holds is the sum along the tetrahedron that `tetra` takes, and a sum along fractions that do not
grow is a convex combination of its entries. -/
theorem colourTableInterpolated : Obligations.ColourTableInterpolated := by
  unfold Obligations.ColourTableInterpolated
  refine ⟨tetraCases_count, ?_⟩
  intro s h v n w k mr mg mb ir ig ib fr fg fb vc e sum hcube hn hbad _ hqr hqg hqb hir hfr hig hfg hib hfb he hcase hsum
  obtain ⟨hw, hrange⟩ := cubeSpacing_spans_range hn
  have hw0 : 0 < w := by omega
  obtain rfl : e = s.cubeColour v n ir ig ib := by
    funext c dr dg db
    exact he c dr dg db
  have hle_r : fr ≤ w := by subst hfr hir; exact fraction_le hw0 (hrange ▸ hqr)
  have hle_g : fg ≤ w := by subst hfg hig; exact fraction_le hw0 (hrange ▸ hqg)
  have hle_b : fb ≤ w := by subst hfb hib; exact fraction_le hw0 (hrange ▸ hqb)
  have hpath : ∀ c, sum c = pathSum w (s.cubeColour v n ir ig ib c) (tetra fr fg fb) := by
    intro c
    have hrow := hsum c
    rw [tetraSums_eq_map_pathSum, List.getElem?_map, tetraPaths_getElem?_of_case hcase] at hrow
    exact (Option.some.inj hrow).symm
  refine ⟨hw, hle_r, hle_g, hle_b, hir ▸ mul_node_le w n _, hig ▸ mul_node_le w n _, hib ▸ mul_node_le w n _, ?bounds, ?output⟩
  case bounds =>
    intro c
    obtain ⟨hlo, hhi⟩ := pathSum_tetra_mem_Icc (s.cubeColour_mem_Icc v n ir ig ib c) hle_r hle_g hle_b
    rw [hpath]
    exact ⟨rneDiv_nonneg hlo w, Int.lt_of_le_sub_one (rneDiv_le hw0 hhi)⟩
  case output =>
    rw [State.cube_of_no_bad hcube hw hbad hir hig hib, ← hfr, ← hfg, ← hfb]
    simp only [hpath]
    rfl

end Sys2Proof.Machine
end
